-- ==== Sys2Proof/Word.lean ====
section
/-!
DEFINITION. The word types of the model. Bit vectors hold what the manual treats as bits: bytes, 32-bit register and
command words, 64-bit objects and 512-bit requests are built from them. Counts, indexes, addresses and register fields
are natural numbers, narrowed where the manual narrows them.
-/
namespace Sys2Proof

/-- One byte. -/
abbrev Byte := BitVec 8

/-- A register word, or one of the sixteen words of a command (R7, R208). -/
abbrev Word := BitVec 32

/-- A 64-bit word of memory, a sync object or a device time. -/
abbrev DWord := BitVec 64

end Sys2Proof
end

