-- ==== Sys2Proof/Syntax.lean ====
section
/-!
DEFINITION. The commands of the block: one constructor for each row of opcode_table.json, in the table's order, with its
operands. A command is what comes to the device from outside it or from its own clocks: a register write, a command
word list of a ring, an event on a link or a pin. Operands that report what happened outside (a packet's bytes, a
verdict of a check, how long something took) are the sender's; every effect follows from them and the state.
-/
namespace Sys2Proof

/-- What a request or a command works for: a slice of a die's frame program (by die and index), or an entry of a ring (by
global ring number), which names its job. -/
inductive Work where
  | slice (die idx : Nat)
  | ring (ring : Nat)
  deriving DecidableEq, Repr

/-- An error that has arisen in a stored 64-bit word since it was last written or read (R67): the word's address in
units of 8 bytes, whether it is uncorrectable, the corrected bit, the syndrome, and what a miscorrection of three or
more bad bits leaves wrong in the data returned (0 for a single-bit error). With `link` it is an error on LP5X's wires, which the word's next transfer
meets and link ECC finds (R80, R82). -/
structure Upset where
  word : Nat
  ue   : Bool
  bit  : Nat
  syn  : Nat
  flip : Nat
  link : Bool := false
  deriving DecidableEq, Repr

/-- A request at a master port (R228, R229): the requester's die and MASTER code (R35), the home core whose port a pad
mover's ring move counts at (R228), address, length in bytes (1 to 64), whether it writes and what, its label (R226),
and the words of the target, counted from the request's first word,
that the owning core writes through its core port in the same fc (R21). -/
structure Req where
  die    : Nat
  master : Nat
  home   : Nat
  addr   : Nat
  len    : Nat
  write  : Bool
  data   : Nat
  fixed  : Bool
  cls    : Nat
  coreWords : List Nat
  work   : Option Work
  /-- Where its answer goes, if it came from outside: the requesting device and its identity there for a request over Oliner (R412), the
  packet's tag for one over PCI Express (R414). -/
  remote : List Nat := []
  deriving DecidableEq, Repr

/-- Where a command of a core comes from: what it works for, its entry in the ring or in the slice's list, and the global
cores that it is issued to. -/
structure Issue where
  work  : Work
  entry : Nat
  cores : List Nat
  deriving DecidableEq, Repr

/-- Who sends a register access: the die it stands on and its MASTER code (R35). -/
structure Sender where
  die    : Nat
  master : Nat
  deriving DecidableEq, Repr

/-- What a TICK_FLIT says of its sender's edge: the device time and the frame position (R56). -/
structure TickStamp where
  time : Nat
  pos  : Nat
  deriving DecidableEq, Repr

/-- The header of an arriving flit (R406), without its KIND, VC and LEN, which the command and its operands give: DST, SRC, CLASS, FIXED,
JOB0, HOPS, SEQ, ACK, and the credits it returns: VC, class and count. -/
structure FlitHead where
  dst   : Nat
  src   : Nat
  cls   : Nat
  fixed : Bool
  job0  : Bool
  hops  : Nat
  seq   : Nat
  ack   : Nat
  crVc  : Nat
  crCls : Nat
  cr    : Nat
  deriving DecidableEq, Repr

/-- Where an attention partial comes from (R155): a node of this device's merge trees, of a row of the command led by a
core (level 0 core, 1 cluster, 2 die, 3 package), or another member's package partial for a group merge, with the header of its last flit, the die
whose port it came by, its group and sequence value, the member's device ID, and for each query head its 130 FP32 words
(**o**, then m and l), none for EMPTY. -/
inductive MergeFrom where
  | node (lead row level node : Nat)
  | member (head : FlitHead) (die group seq dev row : Nat) (heads : List (List Nat))
  deriving DecidableEq, Repr

/-- A member's contribution to a collective as it arrives (R189): the die whose port it comes by, group, sequence value,
the member's device ID, KIND, UNITS, ROWS − 1, and its data: one (offset, words) pair for each of its cores for GATHER,
one pair of offset 0 otherwise: the FP32 words of its package's tree, the two sums of each row for NORM, or the low and
high words of its values for BARRIER. -/
structure Arrival where
  die   : Nat
  group : Nat
  seq   : Nat
  dev   : Nat
  kind  : Nat
  units : Nat
  rows  : Nat
  data  : List (Nat × List Nat)
  deriving DecidableEq, Repr

/-- A detection (R255): timestamp, position in the base frame and its variance as FP32 patterns, class, and source
stream. -/
structure Detection where
  time   : Nat
  pos    : List Nat
  var    : Nat
  cls    : Nat
  stream : Nat
  deriving DecidableEq, Repr

/-- The identity of a request that travels over Oliner, as its reply carries it back (R433, R436): the requester's die, MASTER
code and tag in one number, the tag's generation, and the tag epochs of the unit and of the port. -/
structure TagId where
  id    : Nat
  gen   : Nat
  epoch : Nat
  deriving DecidableEq, Repr

/-- What a start finds outside (R389): which of the bridges 0–1, 2–3, 0–2 and 1–3 have trained; the flash's size if its SFDP can be read;
and for each die the least monitor slack at OP7 in ps with the voltage in mV it needs for each point (R384). -/
structure StartIn where
  bridges : List Bool
  flash   : Option Nat
  ages    : List (Nat × List Nat)
  deriving DecidableEq, Repr

/-- How the burning of fuses goes (R402): done, failed, or cut short by a reset before the state fuses. -/
inductive FuseBurn where
  | ok | fail | cut
  deriving DecidableEq, Repr

/-- A read of a WEIGHTS source ends (R397): failed, or with the bytes read. -/
inductive ReadEnd where
  | failed
  | data (bytes : List Nat)
  deriving DecidableEq, Repr

/-- The commands (opcode_table.json, in its order). Operands carry one name throughout: `die` the die whose block or port is meant, `src` the die of a requester, `core` a
global core, `value` the word written, `i` and `w` a core command's issue and its sixteen words (`next` those of the command that
follows it in its list), `idx` a slice of a die's frame program, `work` what an access works for, `upsets` the errors that have arisen in
stored words since, `h` a flit's header, `note` a value a flit carries with it, `g` or `ring` a global ring, `same` what happens in the same
cycle as a clear, `inside` whether a chunk that is stopped is in a step's write stage, `n`, `k`, `p`, `ch` and `slot` the instance of a unit, buffer
or port, and `t` a tag's identity or a debug target. -/
inductive Instr where

  | powerOn
  | resetN
  | eftReset (die value : Nat)
  | railUndervoltage
  | refclkPresent (x : StartIn)
  | deviceStart (refclk : Bool) (x : StartIn)
  | bridgeTrainTimeout
  | lp5xTrainingDone (ok : Bool) (caps : List Nat)
  | shedWipeDone (die : Nat)
  | lp5xWipeDone
  | nvmeReadComplete (r : ReadEnd)
  | weightsSourceTimeout
  | injectionPassDone (fail : Option (Nat × Nat)) (time : Nat)
  | gptpStepTimeout
  | sampleEdge (counts late : List Nat)
  | clockHoldEnd
  | outputPhaseMark (mark : Nat)
  | goldenSlotStart
  | testWindowStart (upsets : List Upset)
  | safetyWindowStart (o0 o1 : Bool)
  | sliceStart (die idx : Nat) (inside : Bool)
  | sliceEnd (die idx : Nat)
  | sliceDeadline (die idx : Nat) (rest : List (List Nat))
  | sliceHardLimit (die idx : Nat) (inside : Bool)
  | tickFlit (die : Nat) (h : FlitHead) (stamp : TickStamp) (lastApplied : Nat) (note : Option (Nat × Nat))
  | chorusInPulse (width riseNs : Nat)
  | tickSourceLost
  | delayProbe (die : Nat) (h : FlitHead) (roundTripNs : Nat)
  | chorusTickPeriodWrite (die value : Nat) (atBoundary : Bool)
  | chorusFrameLenWrite (die value : Nat) (atBoundary : Bool)
  | chorusWinLenWrite (die value : Nat) (atBoundary : Bool)
  | chorusLock (die value : Nat)
  | chorusOverrunLogClear (die value : Nat) (same : Option Nat)
  | corePortAccess (core : Nat) (work : Work) (read : Option (Nat × Nat)) (write : Option (Nat × Nat × Nat)) (upsets : List Upset) (inside : Bool)
  | sharedPortRequest (reqs : List Req) (upsets : List Upset)
  | sharedPortQueueFree (die col : Nat)
  | pondErrStatusClear (die value : Nat) (same : Option Upset)
  | unmappedStatusClear (die value : Nat) (same : Option (Nat × Nat × Nat × Bool))
  | retainReq (die value : Nat)
  | wakingDone (die : Nat)
  | lp5xPatrol (die : Nat) (upsets : List Upset)
  | walkReturn (die unit : Nat) (work : Work) (entry va : Nat) (write : Bool)
  | faultPark (die unit : Nat)
  | faultRecordWrite (die unit : Nat)
  | xlateFqHeadWrite (die q value : Nat)
  | invalidationStart (die value : Nat)
  | invalidationDone
  | resumeRetry (die id : Nat)
  | resumeAbort (die id : Nat)
  | dmaDescriptorStart (die e : Nat) (work : Work) (k : Nat)
  | dmaDescriptorDone (die e : Nat) (upsets : List Upset)
  | matrix (i : Issue) (w : List Nat) (next : List Nat)
  | gate (i : Issue) (w : List Nat)
  | commandEnd (core : Nat)
  | cqHeadWrite (die value : Nat)
  | attention (i : Issue) (w : List Nat) (raced : List (List Nat))
  | padCopyDone (core n : Nat) (upsets : List Upset)
  | padEvictionAck (core n : Nat)
  | padEdit (die k value : Nat)
  | mergePartial (m : MergeFrom)
  | recurrentChunk (i : Issue) (w : List Nat)
  | startBarrier (core : Nat)
  | stepBarrier (core : Nat)
  | swapOut (i : Issue) (w : List Nat)
  | swapIn (i : Issue) (w : List Nat)
  | collSum (i : Issue) (w : List Nat)
  | collGather (i : Issue) (w : List Nat)
  | collNorm (i : Issue) (w : List Nat)
  | collBarrier (i : Issue) (w : List Nat)
  | collectiveContribution (h : FlitHead) (a : Arrival)
  | collectiveTimeout (scope seq : Nat)
  | abandonNotice (die : Nat) (h : FlitHead) (group seq status : Nat)
  | segment (i : Issue) (w : List Nat)
  | resolve (i : Issue) (w : List Nat)
  | ringEnable (die : Nat)
  | ringDisable (die : Nat)
  | ringRestart (die : Nat)
  | doorbell (die value : Nat)
  | kernelDispatch (core : Nat)
  | nop (i : Issue) (w : List Nat)
  | syncAdd (i : Issue) (w : List Nat)
  | setWait (i : Issue) (w : List Nat)
  | modelLoad (i : Issue) (w : List Nat)
  | modelLoadDone (g : Nat) (upsets : List Upset)
  | kbegin (i : Issue) (w : List Nat)
  | waitTimeout (g : Nat)
  | kernelBoundStop (ring : Nat) (inside : Bool)
  | kernelTicksLimit (ring : Nat) (inside : Bool)
  | jobAdmit (die job client : Nat)
  | jobComplete (die job client : Nat)
  | jobEnd (die job client : Nat)
  | jobRelease (die job client : Nat)
  | jobDrained (job : Nat)
  | jobEndingDone (job : Nat)
  | syncAddLo (die value : Nat)
  | heldRequestIssue (die port cl : Nat)
  | cameraFrameStart (die port vc num ecc : Nat)
  | csi2LinePacket (die port vc dt ecc : Nat) (crcOk : Bool) (payload : List Nat)
  | cameraFrameEnd (die port vc ecc : Nat)
  | imuDataReady (n : Nat)
  | streamStale (die slot : Nat)
  | streamCfgWrite (die slot : Nat) (chk : Bool) (value : Nat)
  | fusionContribution (die : Nat) (dets : List Detection)
  | project (die : Nat) (w : List Nat)
  | calSwapWrite (die value : Nat)
  | update (die idx : Nat) (w : List Nat)
  | updateCommit (die : Nat)
  | checkEdges (die idx : Nat) (w : List Nat)
  | checkSegments (die idx : Nat) (w : List Nat)
  | edgeCheckDone (die checker : Nat)
  | planSearch (die idx : Nat) (w : List Nat) (limit : Nat)
  | planSegment (die idx : Nat) (w : List Nat)
  | publish (die idx : Nat) (w : List Nat)
  | solve (die idx : Nat) (w : List Nat)
  | solveContinue (die idx : Nat) (w : List Nat)
  | solverIterationEnd (die p : Nat)
  | refresh (die idx : Nat) (w : List Nat)
  | refreshDone (die p : Nat)
  | controlUpdateWindow (die : Nat)
  | slotEnable (die : Nat) (w : List Nat)
  | slotDisable (die : Nat) (w : List Nat)
  | slotLoad (die idx : Nat) (w : List Nat)
  | testGeneratorStart (die value : Nat)
  | testGeneratorEnd (die : Nat)
  | captureStart (die value : Nat)
  | captureDone (die : Nat)
  | lockstepMismatch (n : Nat)
  | verdictRecord (n : Nat) (rec : List Nat)
  | verdictCompare (n : Nat)
  | estopSample (low : Bool)
  | tailStopTimeout
  | safetyResume (die value : Nat)
  | resumeGpioEdge
  | ageTimeout
  | selftestWalk (die : Nat)
  | selftestItemDone (die lane : Nat) (fails : List (Nat × Nat))
  | selftestGuardAbort (die lane : Nat)
  | selftestRestoreDone (die lane : Nat)
  | selftestManStart (die value : Nat)
  | selftestFailPop (die : Nat)
  | baskCapWrite (die value : Nat) (atEdge : Bool)
  | powerEstimate (terms : List (List (Nat × Nat)))
  | calibration (reads : List (Nat × Option (Nat × Nat)))
  | tempConversion (die : Nat) (codes : List Nat)
  | ageingMeasure (dies : List (Nat × List Nat))
  | pmbAlert (faults : List Nat)
  | hostHartCtlWrite (die n value : Nat)
  | lifecycleRequest (die : Nat) (burn : FuseBurn)
  | quote (die : Nat)
  | flashRead (die : Nat)
  | flashErase (die : Nat)
  | flashProgram (die : Nat)
  | flashCommandDone (ok : Bool)
  | olinerRead (die : Nat) (h : FlitHead) (t : TagId) (a n : Nat) (upsets : List Upset)
  | olinerReadReply (die : Nat) (h : FlitHead) (t : TagId) (status data : Nat)
  | olinerWrite (die : Nat) (h : FlitHead) (t : TagId) (a n data : Nat) (upsets : List Upset)
  | olinerWriteAck (die : Nat) (h : FlitHead) (t : TagId) (status : Nat)
  | olinerSyncAdd (die : Nat) (h : FlitHead) (sync n seq : Nat)
  | olinerSyncAck (die : Nat) (h : FlitHead) (seq status : Nat)
  | heartbeatFlit (die : Nat) (h : FlitHead) (time ticks pos grant : Nat) (tail : Bool) (lock lastApplied : Nat) (note : Option (Nat × Nat))
  | nak (die lastGood : Nat)
  | idleFlit (die : Nat) (h : FlitHead)
  | flitAckTimeout (die : Nat)
  | retrainDone (die : Nat) (ok : Bool) (lastApplied : Nat)
  | linkTrainRetry (die : Nat)
  | partnerLost (die : Nat)
  | bridgeDown (die : Nat) (col : Bool)
  | pcieInboundRequest (die bar off n : Nat) (write : Bool) (data tag : Nat) (upsets : List Upset)
  | pcieMsixTrigger (die value : Nat)
  | pcieConfigRead (die : Nat)
  | pcieConfigWrite (die : Nat)
  | pcieMemoryRead (die : Nat)
  | pcieMemoryWrite (die : Nat)
  | pcieMboxCompletion (die result data : Nat)
  | pcieCompletionTimeout (die : Nat)
  | ethFrameReceive (die p : Nat) (bytes : List Nat) (fcsOk : Bool) (time : Nat) (gptp : Option Int)
  | enetHqTxWrite (die p value : Nat)
  | ethFrameSent (die p : Nat)
  | qbvCycleStart (die p : Nat)
  | canFrameReceive (ch : Nat) (err : Bool) (fmt : Nat) (ext : Bool) (id : Nat) (data : List Nat)
  | canTxStart (ch value : Nat)
  | canFrameSent (ch : Nat)
  | canRxSnapshot
  | spiSlotTrigger (n k : Nat)
  | spiGo (value : Nat)
  | spiTransactionDone (n : Nat) (rx : List Nat)
  | i2cStart (n value : Nat)
  | i2cDone (n result : Nat) (bytes : List Nat)
  | i2cDataRead (n : Nat)
  | uartDataWrite (n value : Nat)
  | uartDataRead (n : Nat)
  | uartByteReceived (n byte : Nat) (err : Bool)
  | requestTimeout (r : Req) (tag : Nat)
  | remoteRequestTimeout (die id : Nat) (sync : Bool)
  | unitReset (die u : Nat)
  | unitDisable (die u : Nat)
  | unitEnable (die u : Nat)
  | unitDrainEnd (die : Nat)
  | conservationAudit
  | raddPop (die : Nat)
  | errStatusClear (die value : Nat) (same : Option (Nat × Nat × Nat × Bool × Bool))
  | hostStoreError (die hart : Nat) (fails : List (Nat × Nat))
  | seteipnumWrite (die n lvl value : Nat)
  | mtimecmpReached (die n lvl : Nat)
  | idcode
  | bypass
  | samplePreload (pins data : Nat)
  | extest (pins data : Nat)
  | dtmcs (value : Nat)
  | dmi (op addr data : Nat)
  | unlock (access : Option (Nat × Bool × Nat))
  | debugUnlock (die : Nat)
  | bdtmNop (op : Nat)
  | bdtmRead (t reg : Nat)
  | bdtmWrite (t reg data : Nat)
  | haltReq (t : Nat)
  | resume (t : Nat)
  | step (t : Nat)
  | registerWrite (sender : Sender) (die blk off value : Nat)
  | sectionLoadDone (seqs : List (List (List Nat)))
  | programFusedSecret (secret mfgHash : Nat) (cert : List Nat)
  | pulseInputEdge (n : Nat) (up both : Bool)
  | analogueConversion (n code : Nat)
  | uartByteSent (n : Nat)
  | pcieLinkStateChange (die : Nat) (up : Bool) (width speed : Nat)
  | ethLinkStateChange (die p : Nat) (up : Bool)
  | olinerCrcFail (die : Nat)
  | bridgeLinkRetry (die : Nat) (col : Bool)
  | mr4TemperatureReport (die rate : Nat) (hot : Bool)
  deriving DecidableEq, Repr

end Sys2Proof
end

