-- ==== Sys2Proof/WellFormed.lean ====
section
/-!
DEFINITION. Which operands a command admits: the ranges that the manual gives the thing each names (R2, R28, R35, R40, R87, R96, R204,
R208, R406), and for a command word list its opcode and the bits that tell two rows of the table apart. Meanings are total: this says
which commands a sender may mean, and `step` runs any.
-/
namespace Sys2Proof

/-- `n` lies below a bound. -/
def below (n k : Nat) : Bool := decide (n < k)

/-- A die, a global core, a column (R12, R13). -/
def dieOk (d : Nat) : Bool := below d 4
def coreOk (c : Nat) : Bool := below c 256

/-- The value of a register write (R7). -/
def wordOk (v : Nat) : Bool := below v (2 ^ 32)

/-- A list of bytes. -/
def bytesOk (l : List Nat) : Bool := l.all (below · 256)

/-- A 48-bit address with a length of at least one byte. -/
def rangeOk (a n : Nat) : Bool := decide (1 ≤ n) && decide (a + n ≤ 2 ^ 48)

/-- What a command works for: a slice of a die, or a ring (R204). -/
def workOk : Work → Bool
  | .slice die idx => dieOk die && below idx 65536
  | .ring g => below g 262144

/-- A command's issue (R208): it is for at least one core, no core twice. -/
def issueOk (i : Issue) : Bool := workOk i.work && !i.cores.isEmpty && i.cores.all coreOk && decide i.cores.Nodup

/-- A command's sixteen words (R208), with an opcode. -/
def wordsOk (w : List Nat) : Bool := decide (w.length = 16) && w.all wordOk
def opWords (op : Nat) (w : List Nat) : Bool := wordsOk w && decide (w.headD 0 / 2 ^ 24 = op)

/-- The field of word 1 that tells two rows of one opcode apart. -/
def word1 (w : List Nat) (lo n v : Nat) : Bool := decide (w.getD 1 0 / 2 ^ lo % 2 ^ n = v)

/-- An error in a stored word (R67). -/
def upsetOk (u : Upset) : Bool :=
  below u.word (2 ^ 45) && below u.bit 72 && below u.syn 256 && below u.flip (2 ^ 64) && (!u.link || decide (0x200000000 ≤ u.word))

/-- A request of a master port (R229). -/
def reqOk (r : Req) : Bool :=
  dieOk r.die && below r.master 256 && coreOk r.home && rangeOk r.addr r.len && decide (r.len ≤ 64) && below r.data (256 ^ r.len) &&
    below r.cls 16

/-- A flit's header (R406). -/
def headOk (h : FlitHead) : Bool :=
  below h.dst 65536 && below h.src 65536 && below h.cls 16 && below h.hops 16 && below h.seq 4096 && below h.ack 4096 &&
    below h.crVc 4 && below h.crCls 16 && below h.cr 5

/-- A pair of 16-bit values that a flit carries with it, if any. -/
def noteOk (n : Option (Nat × Nat)) : Bool := n.all fun x => below x.1 65536 && below x.2 65536

/-- An attention partial, a contribution, a detection. -/
def mergeOk : MergeFrom → Bool
  | .node lead _ level _ => coreOk lead && below level 4
  | .member h die group seq dev _ heads =>
    headOk h && dieOk die && below group 65536 && below seq 65536 && below dev 65536 && heads.all fun x => x.all wordOk
def arrivalOk (a : Arrival) : Bool :=
  dieOk a.die && below a.group 65536 && below a.seq 65536 && below a.dev 65536 && below a.kind 4 && a.data.all fun x => x.2.all wordOk
def detectionOk (d : Detection) : Bool := below d.time (2 ^ 64) && d.pos.all wordOk && wordOk d.var && below d.stream 256

/-- What a start finds outside. -/
def startOk (x : StartIn) : Bool := decide (x.bridges.length = 4) && decide (x.ages.length = 4)

/-- A debug target (R455), or a hart. -/
def haltTargetOk (t : Nat) : Bool := below t 256 || (decide (0x1000 ≤ t) && below t 0x1400) || (decide (0x10000 ≤ t) && below t 0x10010)


/-- A command's operands are ones that the manual admits. -/
def Instr.wellFormed : Instr → Bool
  | .powerOn => true
  | .resetN => true
  | .eftReset die value => dieOk die && wordOk value
  | .railUndervoltage => true
  | .refclkPresent x => startOk x
  | .deviceStart _ x => startOk x
  | .bridgeTrainTimeout => true
  | .lp5xTrainingDone _ caps => decide (caps.length = 4)
  | .shedWipeDone die => dieOk die
  | .lp5xWipeDone => true
  | .nvmeReadComplete _ => true
  | .weightsSourceTimeout => true
  | .injectionPassDone _ _ => true
  | .gptpStepTimeout => true
  | .sampleEdge counts late => counts.all wordOk && late.all dieOk
  | .clockHoldEnd => true
  | .outputPhaseMark mark => below mark (2 ^ 20)
  | .goldenSlotStart => true
  | .testWindowStart upsets => upsets.all upsetOk
  | .safetyWindowStart _ _ => true
  | .sliceStart die idx _ => dieOk die && below idx 65536
  | .sliceEnd die idx => dieOk die && below idx 65536
  | .sliceDeadline die idx rest => dieOk die && below idx 65536 && rest.all wordsOk
  | .sliceHardLimit die idx _ => dieOk die && below idx 65536
  | .tickFlit die h _ lastApplied note => dieOk die && headOk h && below lastApplied 4096 && noteOk note
  | .chorusInPulse _ _ => true
  | .tickSourceLost => true
  | .delayProbe die h _ => dieOk die && headOk h
  | .chorusTickPeriodWrite die value _ => dieOk die && wordOk value
  | .chorusFrameLenWrite die value _ => dieOk die && wordOk value
  | .chorusWinLenWrite die value _ => dieOk die && wordOk value
  | .chorusLock die value => dieOk die && wordOk value
  | .chorusOverrunLogClear die value _ => dieOk die && wordOk value
  | .corePortAccess core work read write upsets _ => coreOk core && workOk work && (read.all fun x => rangeOk x.1 x.2) && (write.all fun x => rangeOk x.1 x.2.1 && below x.2.2 (256 ^ x.2.1)) && upsets.all upsetOk
  | .sharedPortRequest reqs upsets => reqs.all reqOk && upsets.all upsetOk
  | .sharedPortQueueFree die col => dieOk die && below col 64
  | .pondErrStatusClear die value same => dieOk die && wordOk value && same.all upsetOk
  | .unmappedStatusClear die value _ => dieOk die && wordOk value
  | .retainReq die value => dieOk die && wordOk value
  | .wakingDone die => dieOk die
  | .lp5xPatrol die upsets => dieOk die && upsets.all upsetOk
  | .walkReturn die unit work _ va _ => dieOk die && below unit 256 && workOk work && below va (2 ^ 48)
  | .faultPark die unit => dieOk die && below unit 256
  | .faultRecordWrite die unit => dieOk die && below unit 256
  | .xlateFqHeadWrite die q value => dieOk die && below q 4 && wordOk value
  | .invalidationStart die value => dieOk die && wordOk value
  | .invalidationDone => true
  | .resumeRetry die id => dieOk die && below id 65536
  | .resumeAbort die id => dieOk die && below id 65536
  | .dmaDescriptorStart die e work _ => dieOk die && below e 16 && workOk work
  | .dmaDescriptorDone die e upsets => dieOk die && below e 16 && upsets.all upsetOk
  | .matrix i w next => issueOk i && opWords 16 w && (next.isEmpty || wordsOk next)
  | .gate i w => issueOk i && opWords 17 w
  | .commandEnd core => coreOk core
  | .cqHeadWrite die value => dieOk die && wordOk value
  | .attention i w raced => issueOk i && opWords 18 w && (raced.all fun l => l.all wordOk)
  | .padCopyDone core _ upsets => coreOk core && upsets.all upsetOk
  | .padEvictionAck core _ => coreOk core
  | .padEdit die k value => dieOk die && below k 8 && wordOk value
  | .mergePartial m => mergeOk m
  | .recurrentChunk i w => issueOk i && opWords 19 w
  | .startBarrier core => coreOk core
  | .stepBarrier core => coreOk core
  | .swapOut i w => issueOk i && opWords 20 w && word1 w 31 1 0
  | .swapIn i w => issueOk i && opWords 20 w && word1 w 31 1 1
  | .collSum i w => issueOk i && opWords 21 w && word1 w 30 2 0
  | .collGather i w => issueOk i && opWords 21 w && word1 w 30 2 1
  | .collNorm i w => issueOk i && opWords 21 w && word1 w 30 2 2
  | .collBarrier i w => issueOk i && opWords 21 w && word1 w 30 2 3
  | .collectiveContribution h a => headOk h && arrivalOk a
  | .collectiveTimeout scope seq => below scope 65536 && below seq 65536
  | .abandonNotice die h group seq status => dieOk die && headOk h && below group 65536 && below seq 65536 && below status 256
  | .segment i w => issueOk i && opWords 22 w
  | .resolve i w => issueOk i && opWords 23 w
  | .ringEnable die => dieOk die
  | .ringDisable die => dieOk die
  | .ringRestart die => dieOk die
  | .doorbell die value => dieOk die && wordOk value
  | .kernelDispatch core => coreOk core
  | .nop i w => issueOk i && opWords 0 w
  | .syncAdd i w => issueOk i && opWords 32 w
  | .setWait i w => issueOk i && opWords 33 w
  | .modelLoad i w => issueOk i && opWords 34 w
  | .modelLoadDone g upsets => below g 262144 && upsets.all upsetOk
  | .kbegin i w => issueOk i && opWords 35 w
  | .waitTimeout g => below g 262144
  | .kernelBoundStop ring _ => below ring 262144
  | .kernelTicksLimit ring _ => below ring 262144
  | .jobAdmit die job client => dieOk die && below job 4096 && below client 256
  | .jobComplete die job client => dieOk die && below job 4096 && below client 256
  | .jobEnd die job client => dieOk die && below job 4096 && below client 256
  | .jobRelease die job client => dieOk die && below job 4096 && below client 256
  | .jobDrained job => below job 4096
  | .jobEndingDone job => below job 4096
  | .syncAddLo die value => dieOk die && wordOk value
  | .heldRequestIssue die port cl => dieOk die && below port 256 && below cl 16
  | .cameraFrameStart die port vc num ecc => dieOk die && below port 6 && below vc 4 && below num 65536 && below ecc 256
  | .csi2LinePacket die port vc dt ecc _ payload => dieOk die && below port 6 && below vc 4 && below dt 64 && below ecc 256 && bytesOk payload
  | .cameraFrameEnd die port vc ecc => dieOk die && below port 6 && below vc 4 && below ecc 256
  | .imuDataReady n => below n 8
  | .streamStale die slot => dieOk die && below slot 64
  | .streamCfgWrite die slot _ value => dieOk die && below slot 64 && wordOk value
  | .fusionContribution die dets => dieOk die && dets.all detectionOk
  | .project die w => dieOk die && opWords 49 w
  | .calSwapWrite die value => dieOk die && wordOk value
  | .update die idx w => dieOk die && below idx 65536 && opWords 64 w
  | .updateCommit die => dieOk die
  | .checkEdges die idx w => dieOk die && below idx 65536 && opWords 65 w && word1 w 31 1 0
  | .checkSegments die idx w => dieOk die && below idx 65536 && opWords 65 w && word1 w 31 1 1
  | .edgeCheckDone die checker => dieOk die && below checker 256
  | .planSearch die idx w _ => dieOk die && below idx 65536 && opWords 66 w && word1 w 3 1 0
  | .planSegment die idx w => dieOk die && below idx 65536 && opWords 66 w && word1 w 3 1 1
  | .publish die idx w => dieOk die && below idx 65536 && opWords 67 w
  | .solve die idx w => dieOk die && below idx 65536 && opWords 80 w && word1 w 31 1 0
  | .solveContinue die idx w => dieOk die && below idx 65536 && opWords 80 w && word1 w 31 1 1
  | .solverIterationEnd die p => dieOk die && below p 16
  | .refresh die idx w => dieOk die && below idx 65536 && opWords 81 w
  | .refreshDone die p => dieOk die && below p 16
  | .controlUpdateWindow die => dieOk die
  | .slotEnable die w => dieOk die && opWords 96 w && word1 w 31 1 1
  | .slotDisable die w => dieOk die && opWords 96 w && word1 w 31 1 0
  | .slotLoad die idx w => dieOk die && below idx 65536 && opWords 97 w
  | .testGeneratorStart die value => dieOk die && wordOk value
  | .testGeneratorEnd die => dieOk die
  | .captureStart die value => dieOk die && wordOk value
  | .captureDone die => dieOk die
  | .lockstepMismatch n => below n 2
  | .verdictRecord n rec => below n 2 && bytesOk rec
  | .verdictCompare n => below n 2
  | .estopSample _ => true
  | .tailStopTimeout => true
  | .safetyResume die value => dieOk die && wordOk value
  | .resumeGpioEdge => true
  | .ageTimeout => true
  | .selftestWalk die => dieOk die
  | .selftestItemDone die lane _ => dieOk die && below lane 8
  | .selftestGuardAbort die lane => dieOk die && below lane 8
  | .selftestRestoreDone die lane => dieOk die && below lane 8
  | .selftestManStart die value => dieOk die && wordOk value
  | .selftestFailPop die => dieOk die
  | .baskCapWrite die value _ => dieOk die && wordOk value
  | .powerEstimate _ => true
  | .calibration reads => (reads.all fun r => below r.1 8)
  | .tempConversion die codes => dieOk die && codes.all wordOk
  | .ageingMeasure _ => true
  | .pmbAlert faults => faults.all (below · 8)
  | .hostHartCtlWrite die n value => dieOk die && below n 4 && wordOk value
  | .lifecycleRequest die _ => dieOk die
  | .quote die => dieOk die
  | .flashRead die => dieOk die
  | .flashErase die => dieOk die
  | .flashProgram die => dieOk die
  | .flashCommandDone _ => true
  | .olinerRead die h _ a n upsets => dieOk die && headOk h && rangeOk a n && upsets.all upsetOk
  | .olinerReadReply die h _ status _ => dieOk die && headOk h && below status 256
  | .olinerWrite die h _ a n data upsets => dieOk die && headOk h && rangeOk a n && below data (256 ^ n) && upsets.all upsetOk
  | .olinerWriteAck die h _ status => dieOk die && headOk h && below status 256
  | .olinerSyncAdd die h sync n seq => dieOk die && headOk h && below sync 65536 && below n (2 ^ 64) && below seq 65536
  | .olinerSyncAck die h seq status => dieOk die && headOk h && below seq 65536 && below status 256
  | .heartbeatFlit die h _ _ _ _ _ lock lastApplied note => dieOk die && headOk h && below lock 4 && below lastApplied 4096 && noteOk note
  | .nak die lastGood => dieOk die && below lastGood 4096
  | .idleFlit die h => dieOk die && headOk h
  | .flitAckTimeout die => dieOk die
  | .retrainDone die _ lastApplied => dieOk die && below lastApplied 4096
  | .linkTrainRetry die => dieOk die
  | .partnerLost die => dieOk die
  | .bridgeDown die _ => dieOk die
  | .pcieInboundRequest die bar _ n _ data _ upsets => dieOk die && below bar 6 && below data (256 ^ n) && upsets.all upsetOk
  | .pcieMsixTrigger die value => dieOk die && wordOk value
  | .pcieConfigRead die => dieOk die
  | .pcieConfigWrite die => dieOk die
  | .pcieMemoryRead die => dieOk die
  | .pcieMemoryWrite die => dieOk die
  | .pcieMboxCompletion die result data => dieOk die && below result 3 && wordOk data
  | .pcieCompletionTimeout die => dieOk die
  | .ethFrameReceive die p bytes _ _ _ => dieOk die && below p 2 && bytesOk bytes
  | .enetHqTxWrite die p value => dieOk die && below p 2 && wordOk value
  | .ethFrameSent die p => dieOk die && below p 2
  | .qbvCycleStart die p => dieOk die && below p 2
  | .canFrameReceive ch _ fmt _ id data => below ch 12 && below fmt 4 && below id (2 ^ 29) && bytesOk data
  | .canTxStart ch value => below ch 12 && wordOk value
  | .canFrameSent ch => below ch 12
  | .canRxSnapshot => true
  | .spiSlotTrigger n k => below n 8 && below k 16
  | .spiGo value => wordOk value
  | .spiTransactionDone n rx => below n 8 && bytesOk rx
  | .i2cStart n value => below n 8 && wordOk value
  | .i2cDone n _ bytes => below n 8 && bytesOk bytes
  | .i2cDataRead n => below n 8
  | .uartDataWrite n value => below n 4 && wordOk value
  | .uartDataRead n => below n 4
  | .uartByteReceived n byte _ => below n 4 && below byte 256
  | .requestTimeout r _ => reqOk r
  | .remoteRequestTimeout die _ _ => dieOk die
  | .unitReset die u => dieOk die && below u 256
  | .unitDisable die u => dieOk die && below u 256
  | .unitEnable die u => dieOk die && below u 256
  | .unitDrainEnd die => dieOk die
  | .conservationAudit => true
  | .raddPop die => dieOk die
  | .errStatusClear die value _ => dieOk die && wordOk value
  | .hostStoreError die hart fails => dieOk die && below hart 4 && !fails.isEmpty
  | .seteipnumWrite die n lvl value => dieOk die && below n 4 && below lvl 2 && wordOk value
  | .mtimecmpReached die n lvl => dieOk die && below n 4 && below lvl 2
  | .idcode => true
  | .bypass => true
  | .samplePreload _ _ => true
  | .extest _ _ => true
  | .dtmcs value => wordOk value
  | .dmi op addr data => below op 4 && below addr 128 && wordOk data
  | .unlock _ => true
  | .debugUnlock die => dieOk die
  | .bdtmNop op => (decide (op = 0) || decide (op = 3))
  | .bdtmRead t reg => below t (2 ^ 14) && below reg 65536
  | .bdtmWrite t reg data => below t (2 ^ 14) && below reg 65536 && wordOk data
  | .haltReq t => haltTargetOk t
  | .resume t => haltTargetOk t
  | .step t => haltTargetOk t
  | .registerWrite x die blk off value => dieOk x.die && below x.master 256 && dieOk die && below blk 64 && below off 65536 && wordOk value
  | .sectionLoadDone _ => true
  | .programFusedSecret secret mfgHash cert => below secret (2 ^ 256) && below mfgHash (2 ^ 512) && bytesOk cert
  | .pulseInputEdge n _ _ => below n 32
  | .analogueConversion n code => below n 16 && below code 16384
  | .uartByteSent n => below n 4
  | .pcieLinkStateChange die _ _ _ => dieOk die
  | .ethLinkStateChange die p _ => dieOk die && below p 2
  | .olinerCrcFail die => dieOk die
  | .bridgeLinkRetry die _ => dieOk die
  | .mr4TemperatureReport die rate _ => dieOk die && below rate 32

end Sys2Proof
end

