-- ==== Sys2Proof/Decode.lean ====
section
/-!
DEFINITION. The table's bits. The device is a block: opcode_table.json lists the commands it takes and gives no row any bits, so no word
spells a command.
-/
namespace Sys2Proof

/-- The command that a word spells by the table's bits: none, since the table gives none (assumption 1). -/
def decodeTableWord (_nbits _w : Nat) : Option Instr := none

end Sys2Proof
end

