-- ==== Sys2Proof/Config.lean ====
section
/-!
DEFINITION. What one part fixes and the manual leaves open, as constants with no body: free values, drawn by a counter
of the state or as functions of their operands. No proof can see what they are, so a claim holds whatever they are.
-/
namespace Sys2Proof

/-- A byte the manual leaves undefined: the `n`-th drawn. -/
opaque Config.freeByte : Nat → Byte

/-- The sequencer image saved with a parked kernel (R104), the `n`-th drawn: 4 KiB as a little-endian number. -/
opaque Config.sequencerImage : Nat → Nat

/-- Which of two FP32 operands a MAX takes where one is a NaN or both are zeros of different sign (R129). -/
opaque Config.maxCorner : Nat → Nat → Bool

/-- By how many units in the last place a gate function's result differs from the rounded one (R131): the function's code
and its argument. A choice outside the bound is not taken. -/
opaque Config.ulpChoice : Nat → Nat → Int

/-- The FP32 result of RSQRT of −0, which R131 does not state: the function's code and its argument. -/
opaque Config.gateValue : Nat → Nat → Nat

/-- The FP32 result of a gate op whose function takes an operand and whose SRC names none (R129): the function's code and
the working value. -/
opaque Config.noOperand : Nat → Nat → Nat

/-- A 32-bit word the manual leaves open: the `n`-th drawn. -/
opaque Config.freeWord : Nat → Nat

/-- Where the segment pool lies in a reflex store (R197), counted in 64 bytes. -/
opaque Config.segPlace : Nat

/-- Whether a rounding that the manual does not state goes up: the exact value's numerator and denominator. -/
opaque Config.roundUp : Int → Nat → Bool

/-- A rectified pixel whose conversion the manual does not state (R247): output format, data type, and the four source
samples with the two fractions in 1/2^16. -/
opaque Config.rectPixel : Nat → Nat → List Nat → Nat

/-- Value `i` of the ego-motion filter after it has run from a state over samples (R251): the filter's equations are not
given. -/
opaque Config.egoFilter : List Nat → List (List Nat) → Nat → Nat

/-- Whether the wheel odometry's innovation passes WHEEL_GATE (R251): the filter's values, the counts and the gate. -/
opaque Config.wheelPasses : List Nat → List Nat → Nat → Bool

/-- Value `i` of a track predicted to a time, or updated with a detection (R255): the track's values and the other
operand. -/
opaque Config.trackPredict : List Nat → Nat → Nat → Nat
opaque Config.trackUpdate : List Nat → List Nat → Nat → Nat

/-- The squared Mahalanobis distance of a detection from a track (R255), in 1/256. -/
opaque Config.trackDistance : List Nat → List Nat → Nat

/-- The 64 bytes of a track record (R256) and of a detection entry (R255): the manual gives their contents and no layout. -/
opaque Config.trackImage : List Nat → Nat
opaque Config.detectionField : Nat → Nat → Nat
opaque Config.detectionImage : List Nat → Nat

/-- The 256 bytes in which the ego-motion history of one sample edge stands (R237, R254): the manual gives no layout. -/
opaque Config.egoImage : List Nat → Nat

/-- The FP32 cosine and sine of half an angle (R272): no bound is given. -/
opaque Config.halfCos : Nat → Nat
opaque Config.halfSin : Nat → Nat

/-- The int32 that a NaN converts to (R313), by its pattern and scale, and AMP × sin of a phase (R327), by amplitude and phase. -/
opaque Config.nanFixed : Nat → Nat → Nat
opaque Config.testSine : Nat → Nat → Nat

/-- The digest of a verdict record over the SAFETY configuration and the limiters (R333): the order of the registers under SHA-512 is not given.
And the CRC-32 of a stage's golden output (R351) on a die, by the golden areas' bytes, whose layout the manual does not give. -/
opaque Config.digest : List Nat → Nat
opaque Config.goldenCrc : Nat → Nat → List Nat → Nat

/-- The number of the identity key by the bytes that HKDF gives (R403), the nonce of a signature by the fused secret and the digest (R404), and
the info string of the key that wraps an owner image key (R401): the manual gives none of the three. -/
opaque Config.keyScalar : List Nat → Nat
opaque Config.signNonce : Nat → Nat → Nat
opaque Config.wrapInfo : List Nat

/-- Baltal's JEP106 identity (R451): 11 bits that the manual does not give. -/
opaque Config.jep106 : Nat

end Sys2Proof
end

