-- ==== Sys2Proof/Machine/Store.lean ====
section
/-!
DEFINITION. Sparse maps in one canonical form (keys strictly rising, no entry at its default), which hold memory,
registers and every other table of the device, and the register field (R7): where it lies and what it reads at reset.
-/
namespace Sys2Proof.Machine

/-- A sparse map from numbers: a list of key and value pairs. -/
abbrev SMap (V : Type) := List (Nat × V)

/-- The value at key `k`, or the default `d` where the map lists none. -/
def SMap.get {V : Type} (d : V) : SMap V → Nat → V
  | [], _ => d
  | (a, v) :: r, k => if a = k then v else SMap.get d r k

/-- Insert or replace the entry of key `k`, keeping the keys in rising order. -/
def SMap.ins {V : Type} (k : Nat) (v : V) : SMap V → SMap V
  | [] => [(k, v)]
  | (a, x) :: r =>
    if k < a then (k, v) :: (a, x) :: r
    else if a = k then (k, v) :: r
    else (a, x) :: SMap.ins k v r

/-- Remove every entry of key `k`. -/
def SMap.erase {V : Type} (k : Nat) (m : SMap V) : SMap V := m.filter (fun e => e.1 ≠ k)

/-- Write `v` at `k`; the default is not listed. -/
def SMap.put {V : Type} [DecidableEq V] (d : V) (m : SMap V) (k : Nat) (v : V) : SMap V :=
  if v = d then SMap.erase k m else SMap.ins k v m

/-- The canonical form: keys strictly rising. -/
def SMap.sorted {V : Type} : SMap V → Bool
  | [] => true
  | [_] => true
  | (a, _) :: (b, y) :: r => decide (a < b) && SMap.sorted ((b, y) :: r)

/-- The canonical form with a default: keys strictly rising and no entry at the default. -/
def SMap.wf {V : Type} [DecidableEq V] (d : V) (m : SMap V) : Bool :=
  SMap.sorted m && m.all (fun e => decide (e.2 ≠ d))

/-- The canonical map with the same entries. -/
def SMap.norm {V : Type} [DecidableEq V] (d : V) (m : SMap V) : SMap V := m.foldr (fun e acc => SMap.put d acc e.1 e.2) []

/-- A register field (R7): the block's index in R32, the register's offset in the block, the field's lowest bit and
width, its reset value, and whether the device keeps one copy of it, on die 0, that every die reads. -/
structure Fld where
  blk : Nat
  off : Nat
  lo  : Nat
  w   : Nat
  rst : Nat
  dev : Bool
  deriving DecidableEq, Repr

/-- The die whose copy of a field is used: die 0 for a field the device keeps once. -/
def Fld.home (f : Fld) (die : Nat) : Nat := if f.dev then 0 else die

/-- The key of a field in the register store. -/
def Fld.key (f : Fld) (die : Nat) : Nat := ((f.home die * 32 + f.blk) * 0x10000 + f.off) * 32 + f.lo

/-- The codes of R8. -/
inductive Acc where
  | rw | ro | wo | w1c | w1s | rwl | rc
  deriving DecidableEq, Repr

/-- One row of the register map: block, offset, the stride and count of an indexed register (stride 0 for a single
one), and the fields with their access codes. -/
structure RegRow where
  blk    : Nat
  off    : Nat
  stride : Nat
  count  : Nat
  fields : List (Fld × Acc)
  deriving DecidableEq, Repr

/-- `m` with the entries of `l` inserted, in order. -/
def SMap.insAll {V : Type} (l : List (Nat × V)) (m : SMap V) : SMap V := l.foldl (fun m e => SMap.ins e.1 e.2 m) m

end Sys2Proof.Machine
end

