-- ==== Sys2Proof/Machine/Regs.lean ====
section
/-!
DEFINITION. The named fields of every register the manual gives (chapters 1 to 21), one definition a field:
block, offset, lowest bit, width, reset value, and whether the field is kept once for the device (on die 0) and read
as die 0's on the other dies. An indexed register takes its index; a CLUSTER register takes the cluster number first.
-/
namespace Sys2Proof.Machine

-- DIE_CTL_ID, offset 0x000 (R34)
def DIE_CTL_ID_PART_CODE : Fld := ⟨0, 0x000, 16, 16, 7, false⟩
def DIE_CTL_ID_STEPPING : Fld := ⟨0, 0x000, 8, 8, 1, false⟩
def DIE_CTL_ID_LEAD : Fld := ⟨0, 0x000, 2, 1, 0, false⟩
def DIE_CTL_ID_DIE : Fld := ⟨0, 0x000, 0, 2, 0, false⟩
-- DIE_CTL_BLOCKS_PRESENT, offset 0x004 (R34)
def DIE_CTL_BLOCKS_PRESENT_PRESENT : Fld := ⟨0, 0x004, 0, 32, 0, false⟩
-- DIE_CTL_BLOCKS_ACTIVE, offset 0x008 (R34)
def DIE_CTL_BLOCKS_ACTIVE_ACTIVE : Fld := ⟨0, 0x008, 0, 32, 0, false⟩
-- DIE_CTL_BRIDGE_STATUS, offset 0x00C (R34)
def DIE_CTL_BRIDGE_STATUS_COL_UP : Fld := ⟨0, 0x00C, 17, 1, 0, false⟩
def DIE_CTL_BRIDGE_STATUS_ROW_UP : Fld := ⟨0, 0x00C, 16, 1, 0, false⟩
def DIE_CTL_BRIDGE_STATUS_COL_RETRY_CNT : Fld := ⟨0, 0x00C, 8, 8, 0, false⟩
def DIE_CTL_BRIDGE_STATUS_ROW_RETRY_CNT : Fld := ⟨0, 0x00C, 0, 8, 0, false⟩
-- DIE_CTL_UNMAPPED_ADDR_LO, offset 0x010 (R34)
def DIE_CTL_UNMAPPED_ADDR_LO_ADDR_LO : Fld := ⟨0, 0x010, 0, 32, 0, false⟩
-- DIE_CTL_UNMAPPED_ADDR_HI, offset 0x014 (R34)
def DIE_CTL_UNMAPPED_ADDR_HI_ADDR_HI : Fld := ⟨0, 0x014, 0, 16, 0, false⟩
-- DIE_CTL_UNMAPPED_STATUS, offset 0x018 (R34)
def DIE_CTL_UNMAPPED_STATUS_VALID : Fld := ⟨0, 0x018, 31, 1, 0, false⟩
def DIE_CTL_UNMAPPED_STATUS_OVERFLOW : Fld := ⟨0, 0x018, 30, 1, 0, false⟩
def DIE_CTL_UNMAPPED_STATUS_WRITE : Fld := ⟨0, 0x018, 29, 1, 0, false⟩
def DIE_CTL_UNMAPPED_STATUS_SRC_DIE : Fld := ⟨0, 0x018, 8, 2, 0, false⟩
def DIE_CTL_UNMAPPED_STATUS_MASTER : Fld := ⟨0, 0x018, 0, 8, 0, false⟩
-- CHORUS_CTL, offset 0x000 (R58)
def CHORUS_CTL_GPTP_PORT : Fld := ⟨1, 0x000, 10, 3, 0, true⟩
def CHORUS_CTL_GPTP_EN : Fld := ⟨1, 0x000, 9, 1, 0, true⟩
def CHORUS_CTL_OUT_EN : Fld := ⟨1, 0x000, 8, 1, 0, true⟩
def CHORUS_CTL_OLINER_DIE : Fld := ⟨1, 0x000, 4, 2, 0, true⟩
def CHORUS_CTL_SOURCE : Fld := ⟨1, 0x000, 2, 2, 0, true⟩
def CHORUS_CTL_ROLE : Fld := ⟨1, 0x000, 1, 1, 0, true⟩
-- CHORUS_TICK_PERIOD, offset 0x004 (R58)
def CHORUS_TICK_PERIOD_PERIOD_RC : Fld := ⟨1, 0x004, 0, 20, 0x249f0, true⟩
-- CHORUS_FRAME_LEN, offset 0x008 (R58)
def CHORUS_FRAME_LEN_TICKS : Fld := ⟨1, 0x008, 0, 11, 64, true⟩
-- CHORUS_WIN_LEN, offset 0x00C (R58)
def CHORUS_WIN_LEN_GOLDEN_LEN : Fld := ⟨1, 0x00C, 20, 10, 400, true⟩
def CHORUS_WIN_LEN_TEST_LEN : Fld := ⟨1, 0x00C, 10, 10, 600, true⟩
def CHORUS_WIN_LEN_SAFETY_LEN : Fld := ⟨1, 0x00C, 0, 10, 375, true⟩
-- CHORUS_IN_DELAY, offset 0x010 (R58)
def CHORUS_IN_DELAY_DELAY_NS : Fld := ⟨1, 0x010, 0, 10, 0, true⟩
-- CHORUS_LOCK, offset 0x014 (R58)
def CHORUS_LOCK_LOCK : Fld := ⟨1, 0x014, 0, 1, 0, true⟩
-- CHORUS_STATUS, offset 0x020 (R58)
def CHORUS_STATUS_RANGE_ERR : Fld := ⟨1, 0x020, 31, 1, 0, true⟩
def CHORUS_STATUS_OVERRUN : Fld := ⟨1, 0x020, 30, 1, 0, false⟩
def CHORUS_STATUS_DEADLINE : Fld := ⟨1, 0x020, 29, 1, 0, false⟩
def CHORUS_STATUS_LEAD_LOST : Fld := ⟨1, 0x020, 28, 1, 0, true⟩
def CHORUS_STATUS_TIME_STEP_REFUSED : Fld := ⟨1, 0x020, 27, 1, 0, true⟩
def CHORUS_STATUS_LOCK_STATE : Fld := ⟨1, 0x020, 0, 2, 2, true⟩
-- CHORUS_POSITION, offset 0x024 (R58)
def CHORUS_POSITION_TICK_IN_FRAME : Fld := ⟨1, 0x024, 20, 10, 0, true⟩
def CHORUS_POSITION_RC_IN_TICK : Fld := ⟨1, 0x024, 0, 20, 0, true⟩
-- CHORUS_FRAME_COUNT, offset 0x028 (R58)
def CHORUS_FRAME_COUNT_FRAMES : Fld := ⟨1, 0x028, 0, 32, 0, true⟩
-- CHORUS_TIME_LO, offset 0x030 (R58)
def CHORUS_TIME_LO_TIME : Fld := ⟨1, 0x030, 0, 32, 0, false⟩
-- CHORUS_TIME_HI, offset 0x034 (R58)
def CHORUS_TIME_HI_TIME : Fld := ⟨1, 0x034, 0, 32, 0, false⟩
-- CHORUS_EDGE_TIME_LO, offset 0x038 (R58)
def CHORUS_EDGE_TIME_LO_TIME : Fld := ⟨1, 0x038, 0, 32, 0, false⟩
-- CHORUS_EDGE_TIME_HI, offset 0x03C (R58)
def CHORUS_EDGE_TIME_HI_TIME : Fld := ⟨1, 0x03C, 0, 32, 0, false⟩
-- CHORUS_OFFSET, offset 0x040 (R58)
def CHORUS_OFFSET_OFFSET_NS : Fld := ⟨1, 0x040, 0, 32, 0, true⟩
-- CHORUS_FP_INFO, offset 0x044 (R58)
def CHORUS_FP_INFO_PHASES : Fld := ⟨1, 0x044, 16, 7, 0, false⟩
def CHORUS_FP_INFO_SLICES : Fld := ⟨1, 0x044, 0, 16, 0, false⟩
-- CHORUS_OVERRUN_LOG, offset 0x048 (R58)
def CHORUS_OVERRUN_LOG_VALID : Fld := ⟨1, 0x048, 31, 1, 0, false⟩
def CHORUS_OVERRUN_LOG_DEADLINE : Fld := ⟨1, 0x048, 30, 1, 0, false⟩
def CHORUS_OVERRUN_LOG_KIND : Fld := ⟨1, 0x048, 27, 3, 0, false⟩
def CHORUS_OVERRUN_LOG_TICK : Fld := ⟨1, 0x048, 16, 10, 0, false⟩
def CHORUS_OVERRUN_LOG_SLICE : Fld := ⟨1, 0x048, 0, 15, 0, false⟩
-- CHORUS_OVERRUN_COUNT, offset 0x04C (R58)
def CHORUS_OVERRUN_COUNT_COUNT : Fld := ⟨1, 0x04C, 0, 16, 0, false⟩
-- POND_CTL, offset 0x000 (R85)
def POND_CTL_LOCK : Fld := ⟨2, 0x000, 31, 1, 0, false⟩
def POND_CTL_RETAIN_REQ : Fld := ⟨2, 0x000, 2, 1, 0, false⟩
def POND_CTL_FIX_EN : Fld := ⟨2, 0x000, 1, 1, 1, false⟩
def POND_CTL_SCRUB_EN : Fld := ⟨2, 0x000, 0, 1, 1, false⟩
-- POND_STATUS, offset 0x004 (R85)
def POND_STATUS_RANGE_ERR : Fld := ⟨2, 0x004, 31, 1, 0, false⟩
def POND_STATUS_WIPE_DONE : Fld := ⟨2, 0x004, 30, 1, 0, false⟩
def POND_STATUS_MODE : Fld := ⟨2, 0x004, 0, 2, 0, false⟩
-- POND_SCRUB_CTL, offset 0x008 (R85)
def POND_SCRUB_CTL_LINES : Fld := ⟨2, 0x008, 0, 11, 1024, false⟩
-- POND_SCRUB_POS, offset 0x00C (R85)
def POND_SCRUB_POS_LINE : Fld := ⟨2, 0x00C, 0, 19, 0, false⟩
-- POND_SCRUB_PASSES, offset 0x010 (R85)
def POND_SCRUB_PASSES_PASSES : Fld := ⟨2, 0x010, 0, 32, 0, false⟩
-- POND_CE_COUNT, offset 0x014 (R85)
def POND_CE_COUNT_COUNT : Fld := ⟨2, 0x014, 0, 16, 0, false⟩
-- POND_UE_COUNT, offset 0x018 (R85)
def POND_UE_COUNT_COUNT : Fld := ⟨2, 0x018, 0, 16, 0, false⟩
-- POND_FIX_DROPS, offset 0x01C (R85)
def POND_FIX_DROPS_COUNT : Fld := ⟨2, 0x01C, 0, 16, 0, false⟩
-- POND_ERR_ADDR_LO, offset 0x020 (R85)
def POND_ERR_ADDR_LO_ADDR : Fld := ⟨2, 0x020, 0, 32, 0, false⟩
-- POND_ERR_ADDR_HI, offset 0x024 (R85)
def POND_ERR_ADDR_HI_ADDR : Fld := ⟨2, 0x024, 0, 32, 0, false⟩
-- POND_ERR_STATUS, offset 0x028 (R85)
def POND_ERR_STATUS_VALID : Fld := ⟨2, 0x028, 31, 1, 0, false⟩
def POND_ERR_STATUS_OVERFLOW : Fld := ⟨2, 0x028, 30, 1, 0, false⟩
def POND_ERR_STATUS_UE : Fld := ⟨2, 0x028, 29, 1, 0, false⟩
def POND_ERR_STATUS_SOURCE : Fld := ⟨2, 0x028, 27, 2, 0, false⟩
def POND_ERR_STATUS_BIT : Fld := ⟨2, 0x028, 8, 7, 0, false⟩
def POND_ERR_STATUS_SYNDROME : Fld := ⟨2, 0x028, 0, 8, 0, false⟩
-- POND_REPAIR_USED, offset 0x030 (R85)
def POND_REPAIR_USED_ROWS : Fld := ⟨2, 0x030, 16, 16, 0, false⟩
def POND_REPAIR_USED_BITLINES : Fld := ⟨2, 0x030, 0, 16, 0, false⟩
-- LP5X_CTL, offset 0x000 (R86)
def LP5X_CTL_LOCK : Fld := ⟨27, 0x000, 31, 1, 0, true⟩
def LP5X_CTL_INTERLEAVE : Fld := ⟨27, 0x000, 6, 2, 0, true⟩
def LP5X_CTL_INLINE_ECC : Fld := ⟨27, 0x000, 5, 1, 1, true⟩
def LP5X_CTL_PATROL_EN : Fld := ⟨27, 0x000, 4, 1, 1, true⟩
def LP5X_CTL_RATE : Fld := ⟨27, 0x000, 0, 2, 2, true⟩
-- LP5X_STATUS, offset 0x004 (R86)
def LP5X_STATUS_RANGE_ERR : Fld := ⟨27, 0x004, 31, 1, 0, false⟩
def LP5X_STATUS_MISMATCH : Fld := ⟨27, 0x004, 30, 1, 0, false⟩
def LP5X_STATUS_TRAINED : Fld := ⟨27, 0x004, 29, 1, 0, false⟩
def LP5X_STATUS_RATE_ACT : Fld := ⟨27, 0x004, 24, 2, 0, false⟩
def LP5X_STATUS_CAP_GIB : Fld := ⟨27, 0x004, 0, 6, 0, false⟩
-- LP5X_MAPPED, offset 0x008 (R86)
def LP5X_MAPPED_MAPPED_GIB : Fld := ⟨27, 0x008, 0, 8, 0, true⟩
-- LP5X_CE_COUNT, offset 0x00C (R86)
def LP5X_CE_COUNT_COUNT : Fld := ⟨27, 0x00C, 0, 16, 0, false⟩
-- LP5X_UE_COUNT, offset 0x010 (R86)
def LP5X_UE_COUNT_COUNT : Fld := ⟨27, 0x010, 0, 16, 0, false⟩
-- LP5X_ERR_ADDR_LO, offset 0x014 (R86)
def LP5X_ERR_ADDR_LO_ADDR : Fld := ⟨27, 0x014, 0, 32, 0, false⟩
-- LP5X_ERR_ADDR_HI, offset 0x018 (R86)
def LP5X_ERR_ADDR_HI_ADDR : Fld := ⟨27, 0x018, 0, 32, 0, false⟩
-- LP5X_ERR_STATUS, offset 0x01C (R86)
def LP5X_ERR_STATUS_VALID : Fld := ⟨27, 0x01C, 31, 1, 0, false⟩
def LP5X_ERR_STATUS_OVERFLOW : Fld := ⟨27, 0x01C, 30, 1, 0, false⟩
def LP5X_ERR_STATUS_UE : Fld := ⟨27, 0x01C, 29, 1, 0, false⟩
def LP5X_ERR_STATUS_SOURCE : Fld := ⟨27, 0x01C, 27, 2, 0, false⟩
def LP5X_ERR_STATUS_SUBCH : Fld := ⟨27, 0x01C, 24, 2, 0, false⟩
def LP5X_ERR_STATUS_SYNDROME : Fld := ⟨27, 0x01C, 0, 8, 0, false⟩
-- LP5X_TEMP, offset 0x020 (R86)
def LP5X_TEMP_HOT : Fld := ⟨27, 0x020, 31, 1, 0, false⟩
def LP5X_TEMP_REFRESH_RATE : Fld := ⟨27, 0x020, 0, 3, 0, false⟩
-- XLATE_CTL, offset 0x000 (R109)
def XLATE_CTL_LOCK : Fld := ⟨3, 0x000, 31, 1, 0, true⟩
def XLATE_CTL_EN : Fld := ⟨3, 0x000, 0, 1, 0, true⟩
-- XLATE_STATUS, offset 0x004 (R109)
def XLATE_STATUS_RANGE_ERR : Fld := ⟨3, 0x004, 31, 1, 0, false⟩
def XLATE_STATUS_BAD_RESUME : Fld := ⟨3, 0x004, 30, 1, 0, true⟩
def XLATE_STATUS_INVAL_REFUSED : Fld := ⟨3, 0x004, 29, 1, 0, true⟩
def XLATE_STATUS_PENDING_FULL : Fld := ⟨3, 0x004, 28, 1, 0, true⟩
def XLATE_STATUS_PENDING : Fld := ⟨3, 0x004, 0, 6, 0, true⟩
-- XLATE_JOBTAB_LO, offset 0x008 (R109)
def XLATE_JOBTAB_LO_ADDR : Fld := ⟨3, 0x008, 16, 16, 0, true⟩
-- XLATE_SAVE_LO, offset 0x010 (R109)
def XLATE_SAVE_LO_ADDR : Fld := ⟨3, 0x010, 16, 16, 0, false⟩
-- XLATE_JOBTAB_HI, offset 0x00C (R109)
def XLATE_JOBTAB_HI_ADDR : Fld := ⟨3, 0x00C, 0, 16, 0, true⟩
-- XLATE_SAVE_HI, offset 0x014 (R109)
def XLATE_SAVE_HI_ADDR : Fld := ⟨3, 0x014, 0, 16, 0, false⟩
-- XLATE_INVAL_VA_LO, offset 0x020 (R109)
def XLATE_INVAL_VA_LO_VA : Fld := ⟨3, 0x020, 16, 16, 0, true⟩
-- XLATE_INVAL_VA_HI, offset 0x024 (R109)
def XLATE_INVAL_VA_HI_VA : Fld := ⟨3, 0x024, 0, 16, 0, true⟩
-- XLATE_INVAL_CTL, offset 0x028 (R109)
def XLATE_INVAL_CTL_BUSY : Fld := ⟨3, 0x028, 31, 1, 0, true⟩
def XLATE_INVAL_CTL_START : Fld := ⟨3, 0x028, 30, 1, 0, true⟩
def XLATE_INVAL_CTL_JOB : Fld := ⟨3, 0x028, 16, 12, 0, true⟩
def XLATE_INVAL_CTL_PAGES_M1 : Fld := ⟨3, 0x028, 0, 16, 0, true⟩
-- XLATE_RESUME, offset 0x030 (R109)
def XLATE_RESUME_ABORT : Fld := ⟨3, 0x030, 31, 1, 0, true⟩
def XLATE_RESUME_FAULT_ID : Fld := ⟨3, 0x030, 0, 16, 0, true⟩
-- XLATE_FAULT_COUNT, offset 0x034 (R109)
def XLATE_FAULT_COUNT_COUNT : Fld := ⟨3, 0x034, 0, 16, 0, false⟩
-- XLATE_FQ_BASE_LO, offset 0x040 + n * 0x20, n below 4 (R109)
def XLATE_FQ_BASE_LO_ADDR (n : Nat) : Fld := ⟨3, 0x040 + n * 0x20, 0, 32, 0, true⟩
-- XLATE_FQ_BASE_HI, offset 0x044 + n * 0x20, n below 4 (R109)
def XLATE_FQ_BASE_HI_ADDR (n : Nat) : Fld := ⟨3, 0x044 + n * 0x20, 0, 32, 0, true⟩
-- XLATE_FQ_CTL, offset 0x048 + n * 0x20, n below 4 (R109)
def XLATE_FQ_CTL_EN (n : Nat) : Fld := ⟨3, 0x048 + n * 0x20, 31, 1, 0, true⟩
def XLATE_FQ_CTL_LOG2_SIZE (n : Nat) : Fld := ⟨3, 0x048 + n * 0x20, 0, 5, 4, true⟩
-- XLATE_FQ_HEAD, offset 0x04C + n * 0x20, n below 4 (R109)
def XLATE_FQ_HEAD_INDEX (n : Nat) : Fld := ⟨3, 0x04C + n * 0x20, 0, 16, 0, true⟩
-- XLATE_FQ_TAIL, offset 0x050 + n * 0x20, n below 4 (R109)
def XLATE_FQ_TAIL_INDEX (n : Nat) : Fld := ⟨3, 0x050 + n * 0x20, 0, 16, 0, true⟩
-- XLATE_FQ_MSI_LO, offset 0x054 + n * 0x20, n below 4 (R109)
def XLATE_FQ_MSI_LO_VALUE (n : Nat) : Fld := ⟨3, 0x054 + n * 0x20, 0, 32, 0, true⟩
-- XLATE_FQ_MSI_HI, offset 0x058 + n * 0x20, n below 4 (R109)
def XLATE_FQ_MSI_HI_VALUE (n : Nat) : Fld := ⟨3, 0x058 + n * 0x20, 0, 32, 0, true⟩
-- XLATE_FQ_MSI_DATA, offset 0x05C + n * 0x20, n below 4 (R109)
def XLATE_FQ_MSI_DATA_VALUE (n : Nat) : Fld := ⟨3, 0x05C + n * 0x20, 0, 32, 0, true⟩
-- DMA_CTL, offset 0x000 (R110)
def DMA_CTL_LOCK : Fld := ⟨4, 0x000, 31, 1, 0, false⟩
def DMA_CTL_RSV_MASK : Fld := ⟨4, 0x000, 0, 16, 0, false⟩
-- DMA_DONE_COUNT, offset 0x004 (R110)
def DMA_DONE_COUNT_COUNT : Fld := ⟨4, 0x004, 0, 16, 0, false⟩
-- DMA_AUDIT, offset 0x008 (R110)
def DMA_AUDIT_REQ_OUT : Fld := ⟨4, 0x008, 16, 16, 0, false⟩
def DMA_AUDIT_DESC_OUT : Fld := ⟨4, 0x008, 0, 16, 0, false⟩
-- DMA_ERR_STATUS, offset 0x00C (R110)
def DMA_ERR_STATUS_VALID : Fld := ⟨4, 0x00C, 31, 1, 0, false⟩
def DMA_ERR_STATUS_OVERFLOW : Fld := ⟨4, 0x00C, 30, 1, 0, false⟩
def DMA_ERR_STATUS_ENGINE : Fld := ⟨4, 0x00C, 24, 4, 0, false⟩
def DMA_ERR_STATUS_JOB : Fld := ⟨4, 0x00C, 12, 12, 0, false⟩
def DMA_ERR_STATUS_STATUS : Fld := ⟨4, 0x00C, 0, 8, 0, false⟩
-- DMA_ENG_STATUS, offset 0x100 + n * 0x4, n below 16 (R110)
def DMA_ENG_STATUS_BUSY (n : Nat) : Fld := ⟨4, 0x100 + n * 0x4, 31, 1, 0, false⟩
def DMA_ENG_STATUS_RSV (n : Nat) : Fld := ⟨4, 0x100 + n * 0x4, 30, 1, 0, false⟩
def DMA_ENG_STATUS_PARKING (n : Nat) : Fld := ⟨4, 0x100 + n * 0x4, 29, 1, 0, false⟩
def DMA_ENG_STATUS_JOB (n : Nat) : Fld := ⟨4, 0x100 + n * 0x4, 0, 12, 0, false⟩
-- CLUSTER_ID, offset 0x000 (R134)
def CLUSTER_ID_DIE (k : Nat) : Fld := ⟨8 + k, 0x000, 3, 2, 0, false⟩
def CLUSTER_ID_CLUSTER (k : Nat) : Fld := ⟨8 + k, 0x000, 0, 3, 0, false⟩
-- CLUSTER_CORE_RSV, offset 0x004 (R134)
def CLUSTER_CORE_RSV_RSV (k : Nat) : Fld := ⟨8 + k, 0x004, 0, 8, 0, false⟩
-- CLUSTER_CORE_STATUS, offset 0x100 + n * 0x10, n below 8 (R134)
def CLUSTER_CORE_STATUS_BUSY (k : Nat) (n : Nat) : Fld := ⟨8 + k, 0x100 + n * 0x10, 31, 1, 0, false⟩
def CLUSTER_CORE_STATUS_PARKED (k : Nat) (n : Nat) : Fld := ⟨8 + k, 0x100 + n * 0x10, 30, 1, 0, false⟩
def CLUSTER_CORE_STATUS_RSV (k : Nat) (n : Nat) : Fld := ⟨8 + k, 0x100 + n * 0x10, 29, 1, 0, false⟩
def CLUSTER_CORE_STATUS_OPCODE (k : Nat) (n : Nat) : Fld := ⟨8 + k, 0x100 + n * 0x10, 16, 8, 0, false⟩
def CLUSTER_CORE_STATUS_JOB (k : Nat) (n : Nat) : Fld := ⟨8 + k, 0x100 + n * 0x10, 0, 12, 0, false⟩
-- CLUSTER_NUM_STICKY, offset 0x104 + n * 0x10, n below 8 (R134)
def CLUSTER_NUM_STICKY_GATE_DOMAIN (k : Nat) (n : Nat) : Fld := ⟨8 + k, 0x104 + n * 0x10, 7, 1, 0, false⟩
def CLUSTER_NUM_STICKY_SCALE_SAT (k : Nat) (n : Nat) : Fld := ⟨8 + k, 0x104 + n * 0x10, 6, 1, 0, false⟩
def CLUSTER_NUM_STICKY_SCALE_RAISED (k : Nat) (n : Nat) : Fld := ⟨8 + k, 0x104 + n * 0x10, 5, 1, 0, false⟩
def CLUSTER_NUM_STICKY_OUT_SAT (k : Nat) (n : Nat) : Fld := ⟨8 + k, 0x104 + n * 0x10, 4, 1, 0, false⟩
def CLUSTER_NUM_STICKY_OUT_INF (k : Nat) (n : Nat) : Fld := ⟨8 + k, 0x104 + n * 0x10, 3, 1, 0, false⟩
def CLUSTER_NUM_STICKY_OUT_NAN (k : Nat) (n : Nat) : Fld := ⟨8 + k, 0x104 + n * 0x10, 2, 1, 0, false⟩
def CLUSTER_NUM_STICKY_IN_INF (k : Nat) (n : Nat) : Fld := ⟨8 + k, 0x104 + n * 0x10, 1, 1, 0, false⟩
def CLUSTER_NUM_STICKY_IN_NAN (k : Nat) (n : Nat) : Fld := ⟨8 + k, 0x104 + n * 0x10, 0, 1, 0, false⟩
-- CLUSTER_NUM_COUNT, offset 0x108 + n * 0x10, n below 8 (R134)
def CLUSTER_NUM_COUNT_REPLACED (k : Nat) (n : Nat) : Fld := ⟨8 + k, 0x108 + n * 0x10, 0, 16, 0, false⟩
-- CLUSTER_CMD_ERR, offset 0x10C + n * 0x10, n below 8 (R134)
def CLUSTER_CMD_ERR_VALID (k : Nat) (n : Nat) : Fld := ⟨8 + k, 0x10C + n * 0x10, 31, 1, 0, false⟩
def CLUSTER_CMD_ERR_OVERFLOW (k : Nat) (n : Nat) : Fld := ⟨8 + k, 0x10C + n * 0x10, 30, 1, 0, false⟩
def CLUSTER_CMD_ERR_REASON (k : Nat) (n : Nat) : Fld := ⟨8 + k, 0x10C + n * 0x10, 20, 4, 0, false⟩
def CLUSTER_CMD_ERR_WORD (k : Nat) (n : Nat) : Fld := ⟨8 + k, 0x10C + n * 0x10, 16, 4, 0, false⟩
def CLUSTER_CMD_ERR_JOB (k : Nat) (n : Nat) : Fld := ⟨8 + k, 0x10C + n * 0x10, 0, 12, 0, false⟩
-- CLUSTER_PAD_POOL, offset 0x400 (R161)
def CLUSTER_PAD_POOL_LOCK (k : Nat) : Fld := ⟨8 + k, 0x400, 31, 1, 0, false⟩
def CLUSTER_PAD_POOL_SLOTS (k : Nat) : Fld := ⟨8 + k, 0x400, 16, 7, 0, false⟩
def CLUSTER_PAD_POOL_BASE_4K (k : Nat) : Fld := ⟨8 + k, 0x400, 0, 13, 0, false⟩
-- CLUSTER_PAD_STATUS, offset 0x404 (R161)
def CLUSTER_PAD_STATUS_RANGE_ERR (k : Nat) : Fld := ⟨8 + k, 0x404, 31, 1, 0, false⟩
-- CLUSTER_PAD_EDIT_ADDR_LO, offset 0x410 (R161)
def CLUSTER_PAD_EDIT_ADDR_LO_ADDR (k : Nat) : Fld := ⟨8 + k, 0x410, 0, 32, 0, false⟩
-- CLUSTER_PAD_EDIT_ADDR_HI, offset 0x414 (R161)
def CLUSTER_PAD_EDIT_ADDR_HI_ADDR (k : Nat) : Fld := ⟨8 + k, 0x414, 0, 32, 0, false⟩
-- CLUSTER_PAD_EDIT_OLD_LO, offset 0x418 (R161)
def CLUSTER_PAD_EDIT_OLD_LO_VALUE (k : Nat) : Fld := ⟨8 + k, 0x418, 0, 32, 0, false⟩
-- CLUSTER_PAD_EDIT_OLD_HI, offset 0x41C (R161)
def CLUSTER_PAD_EDIT_OLD_HI_VALUE (k : Nat) : Fld := ⟨8 + k, 0x41C, 0, 32, 0, false⟩
-- CLUSTER_PAD_EDIT_NEW_LO, offset 0x420 (R161)
def CLUSTER_PAD_EDIT_NEW_LO_VALUE (k : Nat) : Fld := ⟨8 + k, 0x420, 0, 32, 0, false⟩
-- CLUSTER_PAD_EDIT_NEW_HI, offset 0x424 (R161)
def CLUSTER_PAD_EDIT_NEW_HI_VALUE (k : Nat) : Fld := ⟨8 + k, 0x424, 0, 32, 0, false⟩
-- CLUSTER_PAD_EDIT_CTL, offset 0x428 (R161)
def CLUSTER_PAD_EDIT_CTL_BUSY (k : Nat) : Fld := ⟨8 + k, 0x428, 31, 1, 0, false⟩
def CLUSTER_PAD_EDIT_CTL_START (k : Nat) : Fld := ⟨8 + k, 0x428, 30, 1, 0, false⟩
def CLUSTER_PAD_EDIT_CTL_RESULT (k : Nat) : Fld := ⟨8 + k, 0x428, 0, 3, 0, false⟩
-- CLUSTER_PAD_CORE, offset 0x440 + n * 0x4, n below 8 (R161)
def CLUSTER_PAD_CORE_FREE (k : Nat) (n : Nat) : Fld := ⟨8 + k, 0x440 + n * 0x4, 16, 7, 0, false⟩
def CLUSTER_PAD_CORE_USED (k : Nat) (n : Nat) : Fld := ⟨8 + k, 0x440 + n * 0x4, 8, 7, 0, false⟩
def CLUSTER_PAD_CORE_RETIRED (k : Nat) (n : Nat) : Fld := ⟨8 + k, 0x440 + n * 0x4, 0, 7, 0, false⟩
-- CLUSTER_PAD_MOVES, offset 0x460 (R161)
def CLUSTER_PAD_MOVES_PROMOTED (k : Nat) : Fld := ⟨8 + k, 0x460, 16, 16, 0, false⟩
def CLUSTER_PAD_MOVES_EVICTED (k : Nat) : Fld := ⟨8 + k, 0x460, 0, 16, 0, false⟩
-- CLUSTER_PAD_MISSES, offset 0x464 (R161)
def CLUSTER_PAD_MISSES_SUBSTITUTED (k : Nat) : Fld := ⟨8 + k, 0x464, 22, 10, 0, false⟩
def CLUSTER_PAD_MISSES_DROPPED (k : Nat) : Fld := ⟨8 + k, 0x464, 12, 10, 0, false⟩
def CLUSTER_PAD_MISSES_NO_SLOT (k : Nat) : Fld := ⟨8 + k, 0x464, 0, 12, 0, false⟩
-- CLUSTER_PAD_AUDIT, offset 0x480 (R161)
def CLUSTER_PAD_AUDIT_REF_ADDS (k : Nat) : Fld := ⟨8 + k, 0x480, 16, 16, 0, false⟩
def CLUSTER_PAD_AUDIT_REF_SUBS (k : Nat) : Fld := ⟨8 + k, 0x480, 0, 16, 0, false⟩
-- CLUSTER_MERGE_AUDIT, offset 0x484 (R161)
def CLUSTER_MERGE_AUDIT_PARTIAL_IN (k : Nat) : Fld := ⟨8 + k, 0x484, 16, 16, 0, false⟩
def CLUSTER_MERGE_AUDIT_PARTIAL_OUT (k : Nat) : Fld := ⟨8 + k, 0x484, 0, 16, 0, false⟩
-- CLUSTER_REC_STATUS, offset 0x200 + n * 0x4, n below 8 (R180)
def CLUSTER_REC_STATUS_BUSY (k : Nat) (n : Nat) : Fld := ⟨8 + k, 0x200 + n * 0x4, 31, 1, 0, false⟩
def CLUSTER_REC_STATUS_SWAP (k : Nat) (n : Nat) : Fld := ⟨8 + k, 0x200 + n * 0x4, 30, 1, 0, false⟩
def CLUSTER_REC_STATUS_GROUP_LOG2 (k : Nat) (n : Nat) : Fld := ⟨8 + k, 0x200 + n * 0x4, 28, 2, 0, false⟩
def CLUSTER_REC_STATUS_GROUP_BASE (k : Nat) (n : Nat) : Fld := ⟨8 + k, 0x200 + n * 0x4, 25, 3, 0, false⟩
def CLUSTER_REC_STATUS_STEP (k : Nat) (n : Nat) : Fld := ⟨8 + k, 0x200 + n * 0x4, 0, 17, 0, false⟩
-- CLUSTER_REC_COUNT, offset 0x220 (R180)
def CLUSTER_REC_COUNT_CLAMPED (k : Nat) : Fld := ⟨8 + k, 0x220, 16, 16, 0, false⟩
def CLUSTER_REC_COUNT_STALE (k : Nat) : Fld := ⟨8 + k, 0x220, 8, 8, 0, false⟩
def CLUSTER_REC_COUNT_ANCHORED (k : Nat) : Fld := ⟨8 + k, 0x220, 0, 8, 0, false⟩
-- CLUSTER_REC_AUDIT, offset 0x224 (R180)
def CLUSTER_REC_AUDIT_ARRIVE (k : Nat) : Fld := ⟨8 + k, 0x224, 16, 16, 0, false⟩
def CLUSTER_REC_AUDIT_RELEASE (k : Nat) : Fld := ⟨8 + k, 0x224, 0, 16, 0, false⟩
-- DISPATCH_COLL_TAB_LO, offset 0x8000 (R201)
def DISPATCH_COLL_TAB_LO_ADDR : Fld := ⟨5, 0x8000, 16, 16, 0, true⟩
-- DISPATCH_COLL_TAB_HI, offset 0x8004 (R201)
def DISPATCH_COLL_TAB_HI_ADDR : Fld := ⟨5, 0x8004, 0, 16, 0, true⟩
-- DISPATCH_COLL_CTL, offset 0x8008 (R201)
def DISPATCH_COLL_CTL_LOCK : Fld := ⟨5, 0x8008, 31, 1, 0, true⟩
def DISPATCH_COLL_CTL_TIMEOUT : Fld := ⟨5, 0x8008, 0, 5, 2, true⟩
-- DISPATCH_COLL_STATUS, offset 0x800C (R201)
def DISPATCH_COLL_STATUS_RANGE_ERR : Fld := ⟨5, 0x800C, 31, 1, 0, false⟩
def DISPATCH_COLL_STATUS_TIMED_OUT : Fld := ⟨5, 0x800C, 30, 1, 0, false⟩
def DISPATCH_COLL_STATUS_MISMATCH : Fld := ⟨5, 0x800C, 29, 1, 0, false⟩
def DISPATCH_COLL_STATUS_DONE_ABANDONED : Fld := ⟨5, 0x800C, 16, 8, 0, false⟩
def DISPATCH_COLL_STATUS_LATE : Fld := ⟨5, 0x800C, 0, 16, 0, false⟩
-- DISPATCH_COLL_ERR, offset 0x8010 (R201)
def DISPATCH_COLL_ERR_VALID : Fld := ⟨5, 0x8010, 31, 1, 0, false⟩
def DISPATCH_COLL_ERR_OVERFLOW : Fld := ⟨5, 0x8010, 30, 1, 0, false⟩
def DISPATCH_COLL_ERR_REASON : Fld := ⟨5, 0x8010, 20, 4, 0, false⟩
def DISPATCH_COLL_ERR_CORE : Fld := ⟨5, 0x8010, 12, 8, 0, false⟩
def DISPATCH_COLL_ERR_JOB : Fld := ⟨5, 0x8010, 0, 12, 0, false⟩
-- DISPATCH_COLL_AUDIT, offset 0x8014 (R201)
def DISPATCH_COLL_AUDIT_OPENED : Fld := ⟨5, 0x8014, 16, 16, 0, false⟩
def DISPATCH_COLL_AUDIT_CLOSED : Fld := ⟨5, 0x8014, 0, 16, 0, false⟩
-- DISPATCH_SEG_STATUS, offset 0x8020 (R201)
def DISPATCH_SEG_STATUS_UNCOMMITTED : Fld := ⟨5, 0x8020, 16, 7, 0, false⟩
def DISPATCH_SEG_STATUS_OCCUPIED : Fld := ⟨5, 0x8020, 0, 7, 0, false⟩
-- DISPATCH_SEG_AUDIT, offset 0x8024 (R201)
def DISPATCH_SEG_AUDIT_WRITTEN : Fld := ⟨5, 0x8024, 16, 16, 0, false⟩
def DISPATCH_SEG_AUDIT_FREED : Fld := ⟨5, 0x8024, 0, 16, 0, false⟩
-- DISPATCH_CTL, offset 0x000 (R224)
def DISPATCH_CTL_LOCK : Fld := ⟨5, 0x000, 31, 1, 0, true⟩
def DISPATCH_CTL_WAIT_TICKS : Fld := ⟨5, 0x000, 8, 8, 64, true⟩
def DISPATCH_CTL_KERNEL_TICKS : Fld := ⟨5, 0x000, 0, 8, 16, true⟩
-- DISPATCH_STATUS, offset 0x004 (R224)
def DISPATCH_STATUS_RANGE_ERR : Fld := ⟨5, 0x004, 31, 1, 0, false⟩
def DISPATCH_STATUS_BAD_DOORBELL : Fld := ⟨5, 0x004, 30, 1, 0, false⟩
-- DISPATCH_RING_TAB_LO, offset 0x008 (R224)
def DISPATCH_RING_TAB_LO_ADDR : Fld := ⟨5, 0x008, 22, 10, 0, false⟩
-- DISPATCH_RING_TAB_HI, offset 0x00C (R224)
def DISPATCH_RING_TAB_HI_ADDR : Fld := ⟨5, 0x00C, 0, 16, 0, false⟩
-- DISPATCH_DOORBELL, offset 0x010 (R224)
def DISPATCH_DOORBELL_TAIL : Fld := ⟨5, 0x010, 16, 16, 0, false⟩
def DISPATCH_DOORBELL_RING : Fld := ⟨5, 0x010, 0, 16, 0, false⟩
-- DISPATCH_RING_SEL, offset 0x014 (R224)
def DISPATCH_RING_SEL_RING : Fld := ⟨5, 0x014, 0, 16, 0, false⟩
-- DISPATCH_RING_CMD, offset 0x018 (R224)
def DISPATCH_RING_CMD_BUSY : Fld := ⟨5, 0x018, 31, 1, 0, false⟩
def DISPATCH_RING_CMD_START : Fld := ⟨5, 0x018, 30, 1, 0, false⟩
def DISPATCH_RING_CMD_OP : Fld := ⟨5, 0x018, 28, 2, 0, false⟩
def DISPATCH_RING_CMD_RESULT : Fld := ⟨5, 0x018, 0, 3, 0, false⟩
-- DISPATCH_RING_STATE, offset 0x01C (R224)
def DISPATCH_RING_STATE_STATE : Fld := ⟨5, 0x01C, 30, 2, 0, false⟩
def DISPATCH_RING_STATE_WAITING : Fld := ⟨5, 0x01C, 29, 1, 0, false⟩
def DISPATCH_RING_STATE_RUNNING : Fld := ⟨5, 0x01C, 28, 1, 0, false⟩
def DISPATCH_RING_STATE_JOB : Fld := ⟨5, 0x01C, 0, 12, 0, false⟩
-- DISPATCH_RING_PTR, offset 0x020 (R224)
def DISPATCH_RING_PTR_TAIL : Fld := ⟨5, 0x020, 16, 16, 0, false⟩
def DISPATCH_RING_PTR_HEAD : Fld := ⟨5, 0x020, 0, 16, 0, false⟩
-- DISPATCH_RING_CQ, offset 0x024 (R224)
def DISPATCH_RING_CQ_CQ_TAIL : Fld := ⟨5, 0x024, 16, 16, 0, false⟩
def DISPATCH_RING_CQ_CQ_HEAD : Fld := ⟨5, 0x024, 0, 16, 0, false⟩
-- DISPATCH_JOB_CTL, offset 0x030 (R224)
def DISPATCH_JOB_CTL_BUSY : Fld := ⟨5, 0x030, 31, 1, 0, true⟩
def DISPATCH_JOB_CTL_START : Fld := ⟨5, 0x030, 30, 1, 0, true⟩
def DISPATCH_JOB_CTL_OP : Fld := ⟨5, 0x030, 28, 2, 0, true⟩
def DISPATCH_JOB_CTL_CLIENT : Fld := ⟨5, 0x030, 20, 8, 0, true⟩
def DISPATCH_JOB_CTL_RESULT : Fld := ⟨5, 0x030, 16, 4, 0, true⟩
def DISPATCH_JOB_CTL_JOB : Fld := ⟨5, 0x030, 0, 12, 0, true⟩
-- DISPATCH_JOB_SEL, offset 0x034 (R224)
def DISPATCH_JOB_SEL_JOB : Fld := ⟨5, 0x034, 0, 12, 0, true⟩
-- DISPATCH_JOB_STATE, offset 0x038 (R224)
def DISPATCH_JOB_STATE_STATE : Fld := ⟨5, 0x038, 29, 3, 0, true⟩
def DISPATCH_JOB_STATE_CLIENT : Fld := ⟨5, 0x038, 20, 8, 0, true⟩
def DISPATCH_JOB_STATE_RINGS : Fld := ⟨5, 0x038, 0, 18, 0, true⟩
-- DISPATCH_AUDIT, offset 0x040 (R224)
def DISPATCH_AUDIT_FETCHED : Fld := ⟨5, 0x040, 16, 16, 0, false⟩
def DISPATCH_AUDIT_RETIRED : Fld := ⟨5, 0x040, 0, 16, 0, false⟩
-- DISPATCH_ERR, offset 0x044 (R224)
def DISPATCH_ERR_VALID : Fld := ⟨5, 0x044, 31, 1, 0, false⟩
def DISPATCH_ERR_OVERFLOW : Fld := ⟨5, 0x044, 30, 1, 0, false⟩
def DISPATCH_ERR_REASON : Fld := ⟨5, 0x044, 16, 8, 0, false⟩
def DISPATCH_ERR_RING : Fld := ⟨5, 0x044, 0, 16, 0, false⟩
-- DISPATCH_CORE, offset 0x1000 + n * 0x4, n below 64 (R224)
def DISPATCH_CORE_MODEL (n : Nat) : Fld := ⟨5, 0x1000 + n * 0x4, 16, 16, 0, false⟩
def DISPATCH_CORE_LOADING (n : Nat) : Fld := ⟨5, 0x1000 + n * 0x4, 15, 1, 0, false⟩
def DISPATCH_CORE_CLAIMED (n : Nat) : Fld := ⟨5, 0x1000 + n * 0x4, 14, 1, 0, false⟩
def DISPATCH_CORE_JOB (n : Nat) : Fld := ⟨5, 0x1000 + n * 0x4, 0, 12, 0, false⟩
-- DISPATCH_LEND, offset 0x1100 + n * 0x4, n below 64 (R224)
def DISPATCH_LEND_EN (n : Nat) : Fld := ⟨5, 0x1100 + n * 0x4, 31, 1, 0, false⟩
def DISPATCH_LEND_STORE_LEN_4K (n : Nat) : Fld := ⟨5, 0x1100 + n * 0x4, 24, 7, 0, false⟩
def DISPATCH_LEND_STORE_BASE_4K (n : Nat) : Fld := ⟨5, 0x1100 + n * 0x4, 16, 7, 0, false⟩
def DISPATCH_LEND_CL_LEN_16K (n : Nat) : Fld := ⟨5, 0x1100 + n * 0x4, 8, 8, 0, false⟩
def DISPATCH_LEND_CL_BASE_16K (n : Nat) : Fld := ⟨5, 0x1100 + n * 0x4, 0, 8, 0, false⟩
-- DISPATCH_CLIENT_ADMITTED, offset 0x4000 + n * 0x10, n below 256 (R224)
def DISPATCH_CLIENT_ADMITTED_COUNT (n : Nat) : Fld := ⟨5, 0x4000 + n * 0x10, 0, 32, 0, true⟩
-- DISPATCH_CLIENT_ACTIVE, offset 0x4004 + n * 0x10, n below 256 (R224)
def DISPATCH_CLIENT_ACTIVE_COUNT (n : Nat) : Fld := ⟨5, 0x4004 + n * 0x10, 0, 32, 0, true⟩
-- DISPATCH_CLIENT_COMPLETED, offset 0x4008 + n * 0x10, n below 256 (R224)
def DISPATCH_CLIENT_COMPLETED_COUNT (n : Nat) : Fld := ⟨5, 0x4008 + n * 0x10, 0, 32, 0, true⟩
-- DISPATCH_CLIENT_ENDED, offset 0x400C + n * 0x10, n below 256 (R224)
def DISPATCH_CLIENT_ENDED_COUNT (n : Nat) : Fld := ⟨5, 0x400C + n * 0x10, 0, 32, 0, true⟩
-- SYNC_SEL, offset 0x000 (R225)
def SYNC_SEL_INDEX : Fld := ⟨6, 0x000, 0, 14, 0, false⟩
-- SYNC_VALUE_LO, offset 0x004 (R225)
def SYNC_VALUE_LO_VALUE : Fld := ⟨6, 0x004, 0, 32, 0, false⟩
-- SYNC_VALUE_HI, offset 0x008 (R225)
def SYNC_VALUE_HI_VALUE : Fld := ⟨6, 0x008, 0, 32, 0, false⟩
-- SYNC_ADD_HI, offset 0x00C (R225)
def SYNC_ADD_HI_ADD : Fld := ⟨6, 0x00C, 0, 32, 0, false⟩
-- SYNC_ADD_LO, offset 0x010 (R225)
def SYNC_ADD_LO_ADD : Fld := ⟨6, 0x010, 0, 32, 0, false⟩
-- SYNC_STATUS, offset 0x014 (R225)
def SYNC_STATUS_REFUSED : Fld := ⟨6, 0x014, 31, 1, 0, false⟩
def SYNC_STATUS_RESERVED : Fld := ⟨6, 0x014, 30, 1, 0, false⟩
def SYNC_STATUS_WAITERS : Fld := ⟨6, 0x014, 0, 16, 0, false⟩
-- SYNC_AUDIT, offset 0x018 (R225)
def SYNC_AUDIT_SENT : Fld := ⟨6, 0x018, 16, 16, 0, false⟩
def SYNC_AUDIT_RECEIVED : Fld := ⟨6, 0x018, 0, 16, 0, false⟩
-- REGULATE_CTL, offset 0x000 (R235)
def REGULATE_CTL_LOCK : Fld := ⟨7, 0x000, 31, 1, 0, false⟩
def REGULATE_CTL_MODE : Fld := ⟨7, 0x000, 0, 1, 0, false⟩
-- REGULATE_STATUS, offset 0x004 (R235)
def REGULATE_STATUS_RANGE_ERR : Fld := ⟨7, 0x004, 31, 1, 0, false⟩
def REGULATE_STATUS_HELD_SEEN : Fld := ⟨7, 0x004, 30, 1, 0, false⟩
def REGULATE_STATUS_LOWERED_SEEN : Fld := ⟨7, 0x004, 29, 1, 0, false⟩
-- REGULATE_HOST_CLASS, offset 0x010 + n * 0x4, n below 4 (R235)
def REGULATE_HOST_CLASS_CLASS (n : Nat) : Fld := ⟨7, 0x010 + n * 0x4, 0, 4, 0, false⟩
-- REGULATE_IO_CLASS, offset 0x020 (R235)
def REGULATE_IO_CLASS_DEBUG_CLASS : Fld := ⟨7, 0x020, 4, 4, 15, false⟩
def REGULATE_IO_CLASS_PCIE_CLASS : Fld := ⟨7, 0x020, 0, 4, 15, false⟩
-- REGULATE_SEL, offset 0x040 (R235)
def REGULATE_SEL_PORT : Fld := ⟨7, 0x040, 8, 8, 0, false⟩
def REGULATE_SEL_CLASS : Fld := ⟨7, 0x040, 0, 4, 0, false⟩
-- REGULATE_OUT, offset 0x044 (R235)
def REGULATE_OUT_HELD : Fld := ⟨7, 0x044, 31, 1, 0, false⟩
def REGULATE_OUT_COUNT : Fld := ⟨7, 0x044, 0, 9, 0, false⟩
-- REGULATE_EVENTS, offset 0x050 (R235)
def REGULATE_EVENTS_HELD : Fld := ⟨7, 0x050, 16, 16, 0, false⟩
def REGULATE_EVENTS_LOWERED : Fld := ⟨7, 0x050, 0, 16, 0, false⟩
-- REGULATE_AUDIT, offset 0x060 (R235)
def REGULATE_AUDIT_ISSUED : Fld := ⟨7, 0x060, 16, 16, 0, false⟩
def REGULATE_AUDIT_RETIRED : Fld := ⟨7, 0x060, 0, 16, 0, false⟩
-- REGULATE_QUEUE_AUDIT, offset 0x064 (R235)
def REGULATE_QUEUE_AUDIT_ADMITTED : Fld := ⟨7, 0x064, 16, 16, 0, false⟩
def REGULATE_QUEUE_AUDIT_SERVED : Fld := ⟨7, 0x064, 0, 16, 0, false⟩
-- REGULATE_CLASS_LIMIT, offset 0x100 + n * 0x4, n below 16 (R235)
def REGULATE_CLASS_LIMIT_IO_LIM_M1 (n : Nat) : Fld := ⟨7, 0x100 + n * 0x4, 24, 8, 255, false⟩
def REGULATE_CLASS_LIMIT_HOST_LIM_M1 (n : Nat) : Fld := ⟨7, 0x100 + n * 0x4, 16, 8, 255, false⟩
def REGULATE_CLASS_LIMIT_DMA_LIM_M1 (n : Nat) : Fld := ⟨7, 0x100 + n * 0x4, 8, 8, 255, false⟩
def REGULATE_CLASS_LIMIT_CORE_LIM_M1 (n : Nat) : Fld := ⟨7, 0x100 + n * 0x4, 0, 8, 255, false⟩
-- INGEST_CTL, offset 0x000 (R262)
def INGEST_CTL_LOCK : Fld := ⟨20, 0x000, 31, 1, 0, false⟩
-- INGEST_STATUS, offset 0x004 (R262)
def INGEST_STATUS_RANGE_ERR : Fld := ⟨20, 0x004, 31, 1, 0, false⟩
def INGEST_STATUS_MISSING : Fld := ⟨20, 0x004, 30, 1, 0, false⟩
-- INGEST_PORT_CFG, offset 0x010 + n * 0x4, n below 6 (R262)
def INGEST_PORT_CFG_EN (n : Nat) : Fld := ⟨20, 0x010 + n * 0x4, 31, 1, 0, false⟩
def INGEST_PORT_CFG_CPHY (n : Nat) : Fld := ⟨20, 0x010 + n * 0x4, 30, 1, 0, false⟩
def INGEST_PORT_CFG_LANES_M1 (n : Nat) : Fld := ⟨20, 0x010 + n * 0x4, 28, 2, 3, false⟩
def INGEST_PORT_CFG_RATE (n : Nat) : Fld := ⟨20, 0x010 + n * 0x4, 16, 12, 450, false⟩
def INGEST_PORT_CFG_UNKNOWN (n : Nat) : Fld := ⟨20, 0x010 + n * 0x4, 8, 8, 0, false⟩
-- INGEST_AUDIT, offset 0x040 (R262)
def INGEST_AUDIT_SENT : Fld := ⟨20, 0x040, 16, 16, 0, false⟩
def INGEST_AUDIT_RECEIVED : Fld := ⟨20, 0x040, 0, 16, 0, false⟩
-- INGEST_STREAM_CFG, offset 0x100 + n * 0x20, n below 64 (R262)
def INGEST_STREAM_CFG_EN (n : Nat) : Fld := ⟨20, 0x100 + n * 0x20, 31, 1, 0, false⟩
def INGEST_STREAM_CFG_KIND (n : Nat) : Fld := ⟨20, 0x100 + n * 0x20, 28, 3, 0, false⟩
def INGEST_STREAM_CFG_MODALITY (n : Nat) : Fld := ⟨20, 0x100 + n * 0x20, 25, 3, 0, false⟩
def INGEST_STREAM_CFG_SAFETY_SET (n : Nat) : Fld := ⟨20, 0x100 + n * 0x20, 24, 1, 0, false⟩
def INGEST_STREAM_CFG_REDUNDANT (n : Nat) : Fld := ⟨20, 0x100 + n * 0x20, 23, 1, 0, false⟩
def INGEST_STREAM_CFG_CNT_BITS (n : Nat) : Fld := ⟨20, 0x100 + n * 0x20, 21, 2, 0, false⟩
def INGEST_STREAM_CFG_ENET_PORT (n : Nat) : Fld := ⟨20, 0x100 + n * 0x20, 20, 1, 0, false⟩
def INGEST_STREAM_CFG_DATA_TYPE (n : Nat) : Fld := ⟨20, 0x100 + n * 0x20, 14, 6, 0, false⟩
def INGEST_STREAM_CFG_DEPTH_STEP (n : Nat) : Fld := ⟨20, 0x100 + n * 0x20, 8, 6, 0, false⟩
def INGEST_STREAM_CFG_CALIB (n : Nat) : Fld := ⟨20, 0x100 + n * 0x20, 0, 8, 0, false⟩
-- INGEST_STREAM_CHK, offset 0x104 + n * 0x20, n below 64 (R262)
def INGEST_STREAM_CHK_FROZEN_EN (n : Nat) : Fld := ⟨20, 0x104 + n * 0x20, 31, 1, 1, false⟩
def INGEST_STREAM_CHK_DEPTH_M1 (n : Nat) : Fld := ⟨20, 0x104 + n * 0x20, 28, 3, 3, false⟩
def INGEST_STREAM_CHK_FROZEN_N (n : Nat) : Fld := ⟨20, 0x104 + n * 0x20, 24, 4, 3, false⟩
def INGEST_STREAM_CHK_STALE_TICKS (n : Nat) : Fld := ⟨20, 0x104 + n * 0x20, 16, 8, 64, false⟩
def INGEST_STREAM_CHK_SECTORS (n : Nat) : Fld := ⟨20, 0x104 + n * 0x20, 0, 16, 0, false⟩
-- INGEST_STREAM_ETH, offset 0x108 + n * 0x20, n below 64 (R262)
def INGEST_STREAM_ETH_UDP_PORT (n : Nat) : Fld := ⟨20, 0x108 + n * 0x20, 16, 16, 0, false⟩
def INGEST_STREAM_ETH_CNT_OFF (n : Nat) : Fld := ⟨20, 0x108 + n * 0x20, 8, 8, 0, false⟩
def INGEST_STREAM_ETH_TS_OFF (n : Nat) : Fld := ⟨20, 0x108 + n * 0x20, 0, 8, 0, false⟩
-- INGEST_STREAM_ADJ, offset 0x10C + n * 0x20, n below 64 (R262)
def INGEST_STREAM_ADJ_ADJ_NS (n : Nat) : Fld := ⟨20, 0x10C + n * 0x20, 0, 32, 0, false⟩
-- INGEST_STREAM_RECT, offset 0x110 + n * 0x20, n below 64 (R262)
def INGEST_STREAM_RECT_RECT_EN (n : Nat) : Fld := ⟨20, 0x110 + n * 0x20, 31, 1, 0, false⟩
def INGEST_STREAM_RECT_GRID_OFF (n : Nat) : Fld := ⟨20, 0x110 + n * 0x20, 0, 23, 0, false⟩
-- INGEST_STREAM_STATE, offset 0x114 + n * 0x20, n below 64 (R262)
def INGEST_STREAM_STATE_STATE (n : Nat) : Fld := ⟨20, 0x114 + n * 0x20, 29, 3, 0, false⟩
def INGEST_STREAM_STATE_DISPUTED (n : Nat) : Fld := ⟨20, 0x114 + n * 0x20, 28, 1, 0, false⟩
def INGEST_STREAM_STATE_CAUSE (n : Nat) : Fld := ⟨20, 0x114 + n * 0x20, 26, 2, 0, false⟩
def INGEST_STREAM_STATE_RUN (n : Nat) : Fld := ⟨20, 0x114 + n * 0x20, 0, 16, 0, false⟩
-- INGEST_STREAM_COUNT, offset 0x118 + n * 0x20, n below 64 (R262)
def INGEST_STREAM_COUNT_DROPPED (n : Nat) : Fld := ⟨20, 0x118 + n * 0x20, 24, 8, 0, false⟩
def INGEST_STREAM_COUNT_BAD (n : Nat) : Fld := ⟨20, 0x118 + n * 0x20, 16, 8, 0, false⟩
def INGEST_STREAM_COUNT_REPEAT (n : Nat) : Fld := ⟨20, 0x118 + n * 0x20, 8, 8, 0, false⟩
def INGEST_STREAM_COUNT_LATE (n : Nat) : Fld := ⟨20, 0x118 + n * 0x20, 0, 8, 0, false⟩
-- FUSION_CTL, offset 0x000 (R263)
def FUSION_CTL_LOCK : Fld := ⟨19, 0x000, 31, 1, 0, false⟩
def FUSION_CTL_CAL_SWAP : Fld := ⟨19, 0x000, 30, 1, 0, false⟩
def FUSION_CTL_HOLD_FRAMES : Fld := ⟨19, 0x000, 16, 8, 4, false⟩
def FUSION_CTL_F3_SECTORS : Fld := ⟨19, 0x000, 8, 5, 8, false⟩
-- FUSION_STATUS, offset 0x004 (R263)
def FUSION_STATUS_RANGE_ERR : Fld := ⟨19, 0x004, 31, 1, 0, true⟩
def FUSION_STATUS_LEVEL : Fld := ⟨19, 0x004, 28, 3, 4, true⟩
def FUSION_STATUS_EGO_VALID : Fld := ⟨19, 0x004, 27, 1, 0, true⟩
def FUSION_STATUS_EGO_REDUNDANT : Fld := ⟨19, 0x004, 26, 1, 0, true⟩
def FUSION_STATUS_F4_CAUSE : Fld := ⟨19, 0x004, 22, 4, 1, true⟩
-- FUSION_SECTORS, offset 0x008 (R263)
def FUSION_SECTORS_LEVELS : Fld := ⟨19, 0x008, 0, 32, 0, true⟩
-- FUSION_GATE, offset 0x00C (R263)
def FUSION_GATE_CLEAR_FRAMES : Fld := ⟨19, 0x00C, 24, 8, 16, true⟩
def FUSION_GATE_GATE_K : Fld := ⟨19, 0x00C, 16, 6, 4, true⟩
def FUSION_GATE_GATE_REL : Fld := ⟨19, 0x00C, 8, 8, 32, true⟩
def FUSION_GATE_GATE_ABS : Fld := ⟨19, 0x00C, 0, 8, 20, true⟩
-- FUSION_MAP, offset 0x010 (R263)
def FUSION_MAP_CELL_CM : Fld := ⟨19, 0x010, 24, 8, 10, true⟩
def FUSION_MAP_HIT : Fld := ⟨19, 0x010, 16, 8, 8, true⟩
def FUSION_MAP_DECAY : Fld := ⟨19, 0x010, 8, 8, 1, true⟩
-- FUSION_EGO_CFG, offset 0x014 (R263)
def FUSION_EGO_CFG_IMU_GATE : Fld := ⟨19, 0x014, 16, 16, 50, true⟩
def FUSION_EGO_CFG_WHEEL_GATE : Fld := ⟨19, 0x014, 8, 8, 45, true⟩
-- FUSION_TRACK_CFG, offset 0x018 (R263)
def FUSION_TRACK_CFG_CONF_M : Fld := ⟨19, 0x018, 28, 4, 3, true⟩
def FUSION_TRACK_CFG_CONF_N : Fld := ⟨19, 0x018, 24, 4, 5, true⟩
def FUSION_TRACK_CFG_DEL_MISSES : Fld := ⟨19, 0x018, 16, 8, 5, true⟩
def FUSION_TRACK_CFG_ASSOC_GATE : Fld := ⟨19, 0x018, 0, 16, 2903, true⟩
-- FUSION_COUNT, offset 0x01C (R263)
def FUSION_COUNT_LATE_DROPPED : Fld := ⟨19, 0x01C, 24, 8, 0, true⟩
def FUSION_COUNT_UNSWAPPED : Fld := ⟨19, 0x01C, 16, 8, 0, true⟩
def FUSION_COUNT_TRACK_FULL : Fld := ⟨19, 0x01C, 8, 8, 0, true⟩
def FUSION_COUNT_DET_DROPPED : Fld := ⟨19, 0x01C, 0, 8, 0, true⟩
-- FUSION_VIEW, offset 0x020 (R263)
def FUSION_VIEW_OUT_OF_VIEW : Fld := ⟨19, 0x020, 0, 32, 0, true⟩
-- FUSION_TRACKS_LIVE, offset 0x024 (R263)
def FUSION_TRACKS_LIVE_COUNT_A : Fld := ⟨19, 0x024, 16, 13, 0, true⟩
def FUSION_TRACKS_LIVE_COUNT_B : Fld := ⟨19, 0x024, 0, 13, 0, true⟩
-- FUSION_TRACKS_IDLE, offset 0x028 (R263)
def FUSION_TRACKS_IDLE_COUNT_A : Fld := ⟨19, 0x028, 16, 13, 0, true⟩
def FUSION_TRACKS_IDLE_COUNT_B : Fld := ⟨19, 0x028, 0, 13, 4096, true⟩
-- FUSION_AUDIT, offset 0x02C (R263)
def FUSION_AUDIT_DET_IN : Fld := ⟨19, 0x02C, 16, 16, 0, true⟩
def FUSION_AUDIT_DET_TAKEN : Fld := ⟨19, 0x02C, 0, 16, 0, true⟩
-- FUSION_OBS_BASE, offset 0x030 (R263)
def FUSION_OBS_BASE_ADDR : Fld := ⟨19, 0x030, 12, 20, 0, true⟩
-- FUSION_OBS_SIZE, offset 0x034 (R263)
def FUSION_OBS_SIZE_SIZE_4K : Fld := ⟨19, 0x034, 0, 19, 0, true⟩
-- FUSION_PAIR, offset 0x100 + n * 0x4, n below 32 (R263)
def FUSION_PAIR_EN (n : Nat) : Fld := ⟨19, 0x100 + n * 0x4, 31, 1, 0, true⟩
def FUSION_PAIR_A (n : Nat) : Fld := ⟨19, 0x100 + n * 0x4, 16, 8, 0, true⟩
def FUSION_PAIR_B (n : Nat) : Fld := ⟨19, 0x100 + n * 0x4, 8, 8, 0, true⟩
def FUSION_PAIR_GATE_RANGE (n : Nat) : Fld := ⟨19, 0x100 + n * 0x4, 0, 8, 50, true⟩
-- REFLEX_COLL_CTL, offset 0x000 (R283)
def REFLEX_COLL_CTL_LOCK : Fld := ⟨18, 0x000, 31, 1, 0, false⟩
def REFLEX_COLL_CTL_TRACK_EN : Fld := ⟨18, 0x000, 30, 1, 0, false⟩
def REFLEX_COLL_CTL_TESTS_4 : Fld := ⟨18, 0x000, 16, 8, 64, false⟩
def REFLEX_COLL_CTL_JOINTS_M1 : Fld := ⟨18, 0x000, 12, 4, 0, false⟩
def REFLEX_COLL_CTL_SPHERES_M1 : Fld := ⟨18, 0x000, 0, 8, 0, false⟩
-- REFLEX_COLL_STATUS, offset 0x004 (R283)
def REFLEX_COLL_STATUS_RANGE_ERR : Fld := ⟨18, 0x004, 31, 1, 0, false⟩
def REFLEX_COLL_STATUS_STOP_REQ : Fld := ⟨18, 0x004, 30, 1, 0, false⟩
def REFLEX_COLL_STATUS_WORLD_FULL : Fld := ⟨18, 0x004, 29, 1, 0, false⟩
-- REFLEX_COLL_EPOCH, offset 0x008 (R283)
def REFLEX_COLL_EPOCH_EPOCH : Fld := ⟨18, 0x008, 0, 32, 0, false⟩
-- REFLEX_COLL_GEOM, offset 0x00C (R283)
def REFLEX_COLL_GEOM_HASH_CELL_CM : Fld := ⟨18, 0x00C, 24, 8, 20, false⟩
def REFLEX_COLL_GEOM_INV_CELL_CM : Fld := ⟨18, 0x00C, 16, 8, 10, false⟩
def REFLEX_COLL_GEOM_SEG_MARGIN_MM : Fld := ⟨18, 0x00C, 8, 8, 10, false⟩
def REFLEX_COLL_GEOM_SEG_DQ : Fld := ⟨18, 0x00C, 0, 8, 20, false⟩
-- REFLEX_COLL_HEUR, offset 0x010 (R283)
def REFLEX_COLL_HEUR_VALUE : Fld := ⟨18, 0x010, 0, 32, 0, false⟩
-- REFLEX_COLL_INV_ORIGIN_X, offset 0x018 (R283)
def REFLEX_COLL_INV_ORIGIN_X_VALUE : Fld := ⟨18, 0x018, 0, 32, 0, false⟩
-- REFLEX_COLL_INV_ORIGIN_Y, offset 0x01C (R283)
def REFLEX_COLL_INV_ORIGIN_Y_VALUE : Fld := ⟨18, 0x01C, 0, 32, 0, false⟩
-- REFLEX_COLL_INV_ORIGIN_Z, offset 0x020 (R283)
def REFLEX_COLL_INV_ORIGIN_Z_VALUE : Fld := ⟨18, 0x020, 0, 32, 0, false⟩
-- REFLEX_COLL_TRACK, offset 0x014 (R283)
def REFLEX_COLL_TRACK_RADIUS_CM : Fld := ⟨18, 0x014, 0, 8, 30, false⟩
-- REFLEX_COLL_ROADMAP_NODES, offset 0x024 (R283)
def REFLEX_COLL_ROADMAP_NODES_COUNT_M1 : Fld := ⟨18, 0x024, 0, 20, 0, false⟩
-- REFLEX_COLL_ROADMAP_EDGES, offset 0x028 (R283)
def REFLEX_COLL_ROADMAP_EDGES_COUNT_M1 : Fld := ⟨18, 0x028, 0, 20, 0, false⟩
-- REFLEX_COLL_REGION_LO, offset 0x040 + n * 0x8, n below 8 (R283)
def REFLEX_COLL_REGION_LO_ADDR (n : Nat) : Fld := ⟨18, 0x040 + n * 0x8, 16, 16, 0, false⟩
-- REFLEX_COLL_REGION_HI, offset 0x044 + n * 0x8, n below 8 (R283)
def REFLEX_COLL_REGION_HI_ADDR (n : Nat) : Fld := ⟨18, 0x044 + n * 0x8, 0, 16, 0, false⟩
-- REFLEX_COLL_COUNT, offset 0x080 (R283)
def REFLEX_COLL_COUNT_SUPPRESSED : Fld := ⟨18, 0x080, 24, 8, 0, false⟩
def REFLEX_COLL_COUNT_OVERFLOW : Fld := ⟨18, 0x080, 16, 8, 0, false⟩
def REFLEX_COLL_COUNT_TRACK_SKIPPED : Fld := ⟨18, 0x080, 8, 8, 0, false⟩
def REFLEX_COLL_COUNT_NO_PATH : Fld := ⟨18, 0x080, 0, 8, 0, false⟩
-- REFLEX_COLL_AUDIT, offset 0x084 (R283)
def REFLEX_COLL_AUDIT_ISSUED : Fld := ⟨18, 0x084, 16, 16, 0, false⟩
def REFLEX_COLL_AUDIT_ENDED : Fld := ⟨18, 0x084, 0, 16, 0, false⟩
-- REFLEX_COLL_ERR, offset 0x088 (R283)
def REFLEX_COLL_ERR_VALID : Fld := ⟨18, 0x088, 31, 1, 0, false⟩
def REFLEX_COLL_ERR_OVERFLOW : Fld := ⟨18, 0x088, 30, 1, 0, false⟩
def REFLEX_COLL_ERR_REASON : Fld := ⟨18, 0x088, 16, 8, 0, false⟩
def REFLEX_COLL_ERR_OPCODE : Fld := ⟨18, 0x088, 8, 8, 0, false⟩
-- REFLEX_COLL_PLAN_STATUS, offset 0x100 + n * 0x4, n below 8 (R283)
def REFLEX_COLL_PLAN_STATUS_STATE (n : Nat) : Fld := ⟨18, 0x100 + n * 0x4, 30, 2, 0, false⟩
def REFLEX_COLL_PLAN_STATUS_PUBLISHED (n : Nat) : Fld := ⟨18, 0x100 + n * 0x4, 27, 3, 7, false⟩
def REFLEX_COLL_PLAN_STATUS_LAST_STATUS (n : Nat) : Fld := ⟨18, 0x100 + n * 0x4, 16, 8, 0, false⟩
def REFLEX_COLL_PLAN_STATUS_SUPPRESSED (n : Nat) : Fld := ⟨18, 0x100 + n * 0x4, 0, 16, 0, false⟩
-- REFLEX_SOLVE_CTL, offset 0x000 (R305)
def REFLEX_SOLVE_CTL_LOCK : Fld := ⟨16, 0x000, 31, 1, 0, false⟩
-- REFLEX_SOLVE_ENG_STATUS, offset 0x010 + n * 0x4, n below 2 (R305)
def REFLEX_SOLVE_ENG_STATUS_BUSY (n : Nat) : Fld := ⟨16, 0x010 + n * 0x4, 31, 1, 0, false⟩
def REFLEX_SOLVE_ENG_STATUS_REFRESH (n : Nat) : Fld := ⟨16, 0x010 + n * 0x4, 30, 1, 0, false⟩
def REFLEX_SOLVE_ENG_STATUS_PROG (n : Nat) : Fld := ⟨16, 0x010 + n * 0x4, 16, 4, 0, false⟩
def REFLEX_SOLVE_ENG_STATUS_ITER (n : Nat) : Fld := ⟨16, 0x010 + n * 0x4, 0, 16, 0, false⟩
-- REFLEX_SOLVE_COUNT, offset 0x020 (R305)
def REFLEX_SOLVE_COUNT_REFUSED_WARM : Fld := ⟨16, 0x020, 24, 8, 0, false⟩
def REFLEX_SOLVE_COUNT_DEADLINE : Fld := ⟨16, 0x020, 16, 8, 0, false⟩
def REFLEX_SOLVE_COUNT_BREAKDOWN : Fld := ⟨16, 0x020, 8, 8, 0, false⟩
def REFLEX_SOLVE_COUNT_FACTOR_FAIL : Fld := ⟨16, 0x020, 0, 8, 0, false⟩
-- REFLEX_SOLVE_ERR, offset 0x024 (R305)
def REFLEX_SOLVE_ERR_VALID : Fld := ⟨16, 0x024, 31, 1, 0, false⟩
def REFLEX_SOLVE_ERR_OVERFLOW : Fld := ⟨16, 0x024, 30, 1, 0, false⟩
def REFLEX_SOLVE_ERR_REASON : Fld := ⟨16, 0x024, 16, 8, 0, false⟩
def REFLEX_SOLVE_ERR_PROG : Fld := ⟨16, 0x024, 12, 4, 0, false⟩
-- REFLEX_SOLVE_AUDIT, offset 0x028 (R305)
def REFLEX_SOLVE_AUDIT_STARTED : Fld := ⟨16, 0x028, 16, 16, 0, false⟩
def REFLEX_SOLVE_AUDIT_ENDED : Fld := ⟨16, 0x028, 0, 16, 0, false⟩
-- REFLEX_SOLVE_PROG, offset 0x100 + n * 0x8, n below 16 (R305)
def REFLEX_SOLVE_PROG_VALID (n : Nat) : Fld := ⟨16, 0x100 + n * 0x8, 31, 1, 0, false⟩
def REFLEX_SOLVE_PROG_HDR_OFF (n : Nat) : Fld := ⟨16, 0x100 + n * 0x8, 0, 24, 0, false⟩
-- REFLEX_SOLVE_PROG_STATE, offset 0x104 + n * 0x8, n below 16 (R305)
def REFLEX_SOLVE_PROG_STATE_SOL_IDX (n : Nat) : Fld := ⟨16, 0x104 + n * 0x8, 31, 1, 0, false⟩
def REFLEX_SOLVE_PROG_STATE_PARTIAL (n : Nat) : Fld := ⟨16, 0x104 + n * 0x8, 30, 1, 0, false⟩
def REFLEX_SOLVE_PROG_STATE_FACTOR (n : Nat) : Fld := ⟨16, 0x104 + n * 0x8, 28, 2, 0, false⟩
def REFLEX_SOLVE_PROG_STATE_PENDING (n : Nat) : Fld := ⟨16, 0x104 + n * 0x8, 27, 1, 0, false⟩
def REFLEX_SOLVE_PROG_STATE_REF_BANK (n : Nat) : Fld := ⟨16, 0x104 + n * 0x8, 26, 1, 0, false⟩
def REFLEX_SOLVE_PROG_STATE_LAST_STATUS (n : Nat) : Fld := ⟨16, 0x104 + n * 0x8, 16, 8, 0, false⟩
def REFLEX_SOLVE_PROG_STATE_REF_POS (n : Nat) : Fld := ⟨16, 0x104 + n * 0x8, 0, 16, 0, false⟩
-- REFLEX_CTRL_CTL, offset 0x000 (R329)
def REFLEX_CTRL_CTL_LOCK : Fld := ⟨17, 0x000, 31, 1, 0, false⟩
def REFLEX_CTRL_CTL_REGION : Fld := ⟨17, 0x000, 0, 3, 0, false⟩
-- REFLEX_CTRL_STATUS, offset 0x004 (R329)
def REFLEX_CTRL_STATUS_RANGE_ERR : Fld := ⟨17, 0x004, 31, 1, 0, false⟩
def REFLEX_CTRL_STATUS_TAIL_ACTIVE : Fld := ⟨17, 0x004, 30, 1, 0, false⟩
def REFLEX_CTRL_STATUS_STOP_ACTIVE : Fld := ⟨17, 0x004, 29, 1, 0, false⟩
def REFLEX_CTRL_STATUS_TEST_ACTIVE : Fld := ⟨17, 0x004, 28, 1, 0, false⟩
-- REFLEX_CTRL_COUNT, offset 0x008 (R329)
def REFLEX_CTRL_COUNT_UNCOMMITTED : Fld := ⟨17, 0x008, 24, 8, 0, false⟩
def REFLEX_CTRL_COUNT_HOLD_END : Fld := ⟨17, 0x008, 16, 8, 0, false⟩
def REFLEX_CTRL_COUNT_STREAM_FULL : Fld := ⟨17, 0x008, 8, 8, 0, false⟩
def REFLEX_CTRL_COUNT_LIMITED : Fld := ⟨17, 0x008, 0, 8, 0, false⟩
-- REFLEX_CTRL_AUDIT, offset 0x00C (R329)
def REFLEX_CTRL_AUDIT_DUE : Fld := ⟨17, 0x00C, 16, 16, 0, false⟩
def REFLEX_CTRL_AUDIT_RUN : Fld := ⟨17, 0x00C, 0, 16, 0, false⟩
-- REFLEX_CTRL_STREAM_AUDIT, offset 0x010 (R329)
def REFLEX_CTRL_STREAM_AUDIT_WRITTEN : Fld := ⟨17, 0x010, 16, 16, 0, false⟩
def REFLEX_CTRL_STREAM_AUDIT_FREED : Fld := ⟨17, 0x010, 0, 16, 0, false⟩
-- REFLEX_CTRL_ERR, offset 0x014 (R329)
def REFLEX_CTRL_ERR_VALID : Fld := ⟨17, 0x014, 31, 1, 0, false⟩
def REFLEX_CTRL_ERR_OVERFLOW : Fld := ⟨17, 0x014, 30, 1, 0, false⟩
def REFLEX_CTRL_ERR_REASON : Fld := ⟨17, 0x014, 16, 8, 0, false⟩
def REFLEX_CTRL_ERR_OPCODE : Fld := ⟨17, 0x014, 8, 8, 0, false⟩
def REFLEX_CTRL_ERR_SLOT : Fld := ⟨17, 0x014, 0, 7, 0, false⟩
-- REFLEX_CTRL_TEST_CFG, offset 0x020 (R329)
def REFLEX_CTRL_TEST_CFG_EN : Fld := ⟨17, 0x020, 31, 1, 0, false⟩
def REFLEX_CTRL_TEST_CFG_POINT : Fld := ⟨17, 0x020, 29, 2, 0, false⟩
def REFLEX_CTRL_TEST_CFG_WAVE : Fld := ⟨17, 0x020, 27, 2, 0, false⟩
def REFLEX_CTRL_TEST_CFG_HOLD_M1 : Fld := ⟨17, 0x020, 19, 8, 0, false⟩
def REFLEX_CTRL_TEST_CFG_SLOT : Fld := ⟨17, 0x020, 0, 7, 0, false⟩
-- REFLEX_CTRL_TEST_AMP, offset 0x024 (R329)
def REFLEX_CTRL_TEST_AMP_VALUE : Fld := ⟨17, 0x024, 0, 32, 0, false⟩
-- REFLEX_CTRL_TEST_F0, offset 0x028 (R329)
def REFLEX_CTRL_TEST_F0_VALUE : Fld := ⟨17, 0x028, 0, 32, 0, false⟩
-- REFLEX_CTRL_TEST_F1, offset 0x02C (R329)
def REFLEX_CTRL_TEST_F1_VALUE : Fld := ⟨17, 0x02C, 0, 32, 0, false⟩
-- REFLEX_CTRL_TEST_LEN, offset 0x030 (R329)
def REFLEX_CTRL_TEST_LEN_LEN_M1 : Fld := ⟨17, 0x030, 0, 16, 0, false⟩
-- REFLEX_CTRL_CAP_CFG, offset 0x034 (R329)
def REFLEX_CTRL_CAP_CFG_START : Fld := ⟨17, 0x034, 31, 1, 0, false⟩
def REFLEX_CTRL_CAP_CFG_LEN_M1 : Fld := ⟨17, 0x034, 0, 14, 0, false⟩
def REFLEX_CTRL_CAP_CFG_SIG0 : Fld := ⟨17, 0x034, 28, 3, 0, false⟩
def REFLEX_CTRL_CAP_CFG_SIG1 : Fld := ⟨17, 0x034, 25, 3, 0, false⟩
def REFLEX_CTRL_CAP_CFG_SIG2 : Fld := ⟨17, 0x034, 22, 3, 0, false⟩
def REFLEX_CTRL_CAP_CFG_SIG3 : Fld := ⟨17, 0x034, 19, 3, 0, false⟩
-- REFLEX_CTRL_CAP_STATUS, offset 0x038 (R329)
def REFLEX_CTRL_CAP_STATUS_BUSY : Fld := ⟨17, 0x038, 31, 1, 0, false⟩
def REFLEX_CTRL_CAP_STATUS_DONE : Fld := ⟨17, 0x038, 30, 1, 0, false⟩
def REFLEX_CTRL_CAP_STATUS_COUNT : Fld := ⟨17, 0x038, 0, 15, 0, false⟩
-- REFLEX_CTRL_CAP_DECIM, offset 0x03C (R329)
def REFLEX_CTRL_CAP_DECIM_DECIM_M1 : Fld := ⟨17, 0x03C, 0, 8, 0, false⟩
-- REFLEX_CTRL_STREAM_CFG, offset 0x040 + n * 0x4, n below 16 (R329)
def REFLEX_CTRL_STREAM_CFG_DT_US (n : Nat) : Fld := ⟨17, 0x040 + n * 0x4, 16, 16, 1000, false⟩
def REFLEX_CTRL_STREAM_CFG_POINTS_M1 (n : Nat) : Fld := ⟨17, 0x040 + n * 0x4, 8, 8, 0, false⟩
def REFLEX_CTRL_STREAM_CFG_CHANNELS_M1 (n : Nat) : Fld := ⟨17, 0x040 + n * 0x4, 0, 8, 0, false⟩
-- REFLEX_CTRL_SLOT_STATUS, offset 0x100 + n * 0x4, n below 128 (R329)
def REFLEX_CTRL_SLOT_STATUS_EN (n : Nat) : Fld := ⟨17, 0x100 + n * 0x4, 31, 1, 0, false⟩
def REFLEX_CTRL_SLOT_STATUS_WON (n : Nat) : Fld := ⟨17, 0x100 + n * 0x4, 30, 1, 0, false⟩
def REFLEX_CTRL_SLOT_STATUS_SP_MODE (n : Nat) : Fld := ⟨17, 0x100 + n * 0x4, 28, 2, 0, false⟩
-- REFLEX_CTRL_HOST_SP, offset 0x400 + n * 0x4, n below 64 (R329)
def REFLEX_CTRL_HOST_SP_VALUE (n : Nat) : Fld := ⟨17, 0x400 + n * 0x4, 0, 32, 0, false⟩
-- REFLEX_CTRL_CHAN, offset 0x500 + n * 0x20, n below 16 (R329)
def REFLEX_CTRL_CHAN_EN (n : Nat) : Fld := ⟨17, 0x500 + n * 0x20, 31, 1, 0, false⟩
def REFLEX_CTRL_CHAN_TAIL_EN (n : Nat) : Fld := ⟨17, 0x500 + n * 0x20, 23, 1, 0, false⟩
def REFLEX_CTRL_CHAN_TAIL_SLOT (n : Nat) : Fld := ⟨17, 0x500 + n * 0x20, 16, 7, 0, false⟩
def REFLEX_CTRL_CHAN_DEST (n : Nat) : Fld := ⟨17, 0x500 + n * 0x20, 8, 8, 0, false⟩
-- REFLEX_CTRL_LIM_MIN, offset 0x504 + n * 0x20, n below 16 (R329)
def REFLEX_CTRL_LIM_MIN_VALUE (n : Nat) : Fld := ⟨17, 0x504 + n * 0x20, 0, 32, 0, false⟩
-- REFLEX_CTRL_LIM_MAX, offset 0x508 + n * 0x20, n below 16 (R329)
def REFLEX_CTRL_LIM_MAX_VALUE (n : Nat) : Fld := ⟨17, 0x508 + n * 0x20, 0, 32, 0, false⟩
-- REFLEX_CTRL_LIM_RATE, offset 0x50C + n * 0x20, n below 16 (R329)
def REFLEX_CTRL_LIM_RATE_VALUE (n : Nat) : Fld := ⟨17, 0x50C + n * 0x20, 0, 32, 0, false⟩
-- REFLEX_CTRL_LIM_SAFE, offset 0x510 + n * 0x20, n below 16 (R329)
def REFLEX_CTRL_LIM_SAFE_VALUE (n : Nat) : Fld := ⟨17, 0x510 + n * 0x20, 0, 32, 0, false⟩
-- REFLEX_CTRL_LIM_LAST, offset 0x514 + n * 0x20, n below 16 (R329)
def REFLEX_CTRL_LIM_LAST_VALUE (n : Nat) : Fld := ⟨17, 0x514 + n * 0x20, 0, 32, 0, false⟩
-- REFLEX_CTRL_JOINT_SRC, offset 0x800 + n * 0x10, n below 16 (R329)
def REFLEX_CTRL_JOINT_SRC_VALUE (n : Nat) : Fld := ⟨17, 0x800 + n * 0x10, 0, 32, 0, true⟩
-- REFLEX_CTRL_JOINT_SCALE, offset 0x804 + n * 0x10, n below 16 (R329)
def REFLEX_CTRL_JOINT_SCALE_VALUE (n : Nat) : Fld := ⟨17, 0x804 + n * 0x10, 0, 32, 0, true⟩
-- REFLEX_CTRL_JOINT_OFFSET, offset 0x808 + n * 0x10, n below 16 (R329)
def REFLEX_CTRL_JOINT_OFFSET_VALUE (n : Nat) : Fld := ⟨17, 0x808 + n * 0x10, 0, 32, 0, true⟩
-- SAFETY_CTL, offset 0x000 (R353)
def SAFETY_CTL_LOCK : Fld := ⟨21, 0x000, 31, 1, 0, false⟩
def SAFETY_CTL_PARTNER_EN : Fld := ⟨21, 0x000, 30, 1, 0, false⟩
def SAFETY_CTL_SAFE_DROP : Fld := ⟨21, 0x000, 29, 1, 1, false⟩
def SAFETY_CTL_ESTOP_CAT : Fld := ⟨21, 0x000, 28, 1, 1, false⟩
def SAFETY_CTL_RESUME_SRC : Fld := ⟨21, 0x000, 27, 1, 0, false⟩
def SAFETY_CTL_RESUME_GPIO : Fld := ⟨21, 0x000, 16, 6, 0, false⟩
def SAFETY_CTL_STOP_TICKS : Fld := ⟨21, 0x000, 0, 16, 4000, false⟩
-- SAFETY_STATUS, offset 0x004 (R353)
def SAFETY_STATUS_RANGE_ERR : Fld := ⟨21, 0x004, 31, 1, 0, false⟩
def SAFETY_STATUS_TAIL_ACTIVE : Fld := ⟨21, 0x004, 30, 1, 0, false⟩
def SAFETY_STATUS_MODE : Fld := ⟨21, 0x004, 28, 2, 0, false⟩
def SAFETY_STATUS_TAIL_STATE : Fld := ⟨21, 0x004, 26, 2, 3, false⟩
def SAFETY_STATUS_OUT0 : Fld := ⟨21, 0x004, 25, 1, 0, false⟩
def SAFETY_STATUS_OUT1 : Fld := ⟨21, 0x004, 24, 1, 0, false⟩
def SAFETY_STATUS_ESTOP : Fld := ⟨21, 0x004, 23, 1, 0, false⟩
def SAFETY_STATUS_RECOVERABLE : Fld := ⟨21, 0x004, 22, 1, 1, false⟩
def SAFETY_STATUS_CAUSES : Fld := ⟨21, 0x004, 1, 15, 0, false⟩
-- SAFETY_FAULT, offset 0x008 (R353)
def SAFETY_FAULT_VALID : Fld := ⟨21, 0x008, 31, 1, 0, false⟩
def SAFETY_FAULT_CAUSE : Fld := ⟨21, 0x008, 16, 8, 0, false⟩
def SAFETY_FAULT_DIE : Fld := ⟨21, 0x008, 14, 2, 0, false⟩
def SAFETY_FAULT_DETAIL : Fld := ⟨21, 0x008, 0, 8, 0, false⟩
-- SAFETY_FAULT_TIME_LO, offset 0x00C (R353)
def SAFETY_FAULT_TIME_LO_TIME : Fld := ⟨21, 0x00C, 0, 32, 0, false⟩
-- SAFETY_FAULT_TIME_HI, offset 0x010 (R353)
def SAFETY_FAULT_TIME_HI_TIME : Fld := ⟨21, 0x010, 0, 32, 0, false⟩
-- SAFETY_RESUME, offset 0x014 (R353)
def SAFETY_RESUME_KEY : Fld := ⟨21, 0x014, 0, 16, 0, true⟩
-- SAFETY_GOLDEN_CFG, offset 0x020 (R353)
def SAFETY_GOLDEN_CFG_EN : Fld := ⟨21, 0x020, 31, 1, 0, false⟩
def SAFETY_GOLDEN_CFG_EVERY_M1 : Fld := ⟨21, 0x020, 16, 10, 3, false⟩
def SAFETY_GOLDEN_CFG_TICK : Fld := ⟨21, 0x020, 0, 10, 0, false⟩
-- SAFETY_GOLDEN_STATUS, offset 0x024 (R353)
def SAFETY_GOLDEN_STATUS_PENDING : Fld := ⟨21, 0x024, 31, 1, 0, false⟩
def SAFETY_GOLDEN_STATUS_LAST_PASS : Fld := ⟨21, 0x024, 30, 1, 0, false⟩
def SAFETY_GOLDEN_STATUS_DEFERRED : Fld := ⟨21, 0x024, 8, 8, 0, false⟩
def SAFETY_GOLDEN_STATUS_RUN : Fld := ⟨21, 0x024, 0, 8, 0, false⟩
-- SAFETY_GOLDEN_AREA, offset 0x028 (R353)
def SAFETY_GOLDEN_AREA_REFLEX_64K : Fld := ⟨21, 0x028, 24, 8, 0, false⟩
def SAFETY_GOLDEN_AREA_FUSION_64K : Fld := ⟨21, 0x028, 16, 8, 0, false⟩
-- SAFETY_AGE_CFG, offset 0x030 (R353)
def SAFETY_AGE_CFG_FRESH_TICKS : Fld := ⟨21, 0x030, 24, 8, 64, false⟩
def SAFETY_AGE_CFG_START_TICKS : Fld := ⟨21, 0x030, 0, 16, 8000, false⟩
-- SAFETY_TAIL_CFG, offset 0x034 (R353)
def SAFETY_TAIL_CFG_NEAR_MM : Fld := ⟨21, 0x034, 16, 16, 300, false⟩
def SAFETY_TAIL_CFG_STILL_MMS : Fld := ⟨21, 0x034, 0, 16, 10, false⟩
-- SAFETY_XCHK, offset 0x038 (R353)
def SAFETY_XCHK_SENT : Fld := ⟨21, 0x038, 16, 16, 0, false⟩
def SAFETY_XCHK_RECEIVED : Fld := ⟨21, 0x038, 0, 16, 0, false⟩
-- SAFETY_GOLD_EXP, offset 0x040 + n * 0x4, n below 32 (R353)
def SAFETY_GOLD_EXP_CRC (n : Nat) : Fld := ⟨21, 0x040 + n * 0x4, 0, 32, 0, false⟩
-- SAFETY_GOLD_GOT, offset 0x0C0 + n * 0x4, n below 32 (R353)
def SAFETY_GOLD_GOT_CRC (n : Nat) : Fld := ⟨21, 0x0C0 + n * 0x4, 0, 32, 0, false⟩
-- SAFETY_WDG_CFG, offset 0x200 + n * 0x10, n below 16 (R353)
def SAFETY_WDG_CFG_EN (n : Nat) : Fld := ⟨21, 0x200 + n * 0x10, 31, 1, 0, false⟩
def SAFETY_WDG_CFG_STAGE (n : Nat) : Fld := ⟨21, 0x200 + n * 0x10, 28, 3, 0, false⟩
def SAFETY_WDG_CFG_DIE (n : Nat) : Fld := ⟨21, 0x200 + n * 0x10, 26, 2, 0, false⟩
def SAFETY_WDG_CFG_TOL (n : Nat) : Fld := ⟨21, 0x200 + n * 0x10, 24, 2, 0, false⟩
def SAFETY_WDG_CFG_EVERY_M1 (n : Nat) : Fld := ⟨21, 0x200 + n * 0x10, 16, 8, 0, false⟩
def SAFETY_WDG_CFG_PHASE (n : Nat) : Fld := ⟨21, 0x200 + n * 0x10, 8, 8, 0, false⟩
def SAFETY_WDG_CFG_UNIT (n : Nat) : Fld := ⟨21, 0x200 + n * 0x10, 0, 8, 0, false⟩
-- SAFETY_WDG_WIN, offset 0x204 + n * 0x10, n below 16 (R353)
def SAFETY_WDG_WIN_OPEN_16 (n : Nat) : Fld := ⟨21, 0x204 + n * 0x10, 16, 16, 0, false⟩
def SAFETY_WDG_WIN_CLOSE_16 (n : Nat) : Fld := ⟨21, 0x204 + n * 0x10, 0, 16, 0, false⟩
-- SAFETY_WDG_AGE, offset 0x208 + n * 0x10, n below 16 (R353)
def SAFETY_WDG_AGE_LIMIT_US (n : Nat) : Fld := ⟨21, 0x208 + n * 0x10, 0, 24, 0, false⟩
-- SAFETY_WDG_STATUS, offset 0x20C + n * 0x10, n below 16 (R353)
def SAFETY_WDG_STATUS_LAST (n : Nat) : Fld := ⟨21, 0x20C + n * 0x10, 30, 2, 0, false⟩
def SAFETY_WDG_STATUS_MISSES (n : Nat) : Fld := ⟨21, 0x20C + n * 0x10, 28, 2, 0, false⟩
def SAFETY_WDG_STATUS_REJECTED (n : Nat) : Fld := ⟨21, 0x20C + n * 0x10, 27, 1, 0, false⟩
def SAFETY_WDG_STATUS_KICK_RC (n : Nat) : Fld := ⟨21, 0x20C + n * 0x10, 0, 20, 0, false⟩
-- SAFETY_INJ_STATUS, offset 0x300 (R353)
def SAFETY_INJ_STATUS_DONE : Fld := ⟨21, 0x300, 31, 1, 0, false⟩
def SAFETY_INJ_STATUS_PASS : Fld := ⟨21, 0x300, 30, 1, 0, false⟩
def SAFETY_INJ_STATUS_CLASS : Fld := ⟨21, 0x300, 20, 4, 0, false⟩
def SAFETY_INJ_STATUS_TIME_100US : Fld := ⟨21, 0x300, 0, 16, 0, false⟩
-- SAFETY_INJ_DETAIL, offset 0x304 (R353)
def SAFETY_INJ_DETAIL_INDEX : Fld := ⟨21, 0x304, 0, 32, 0, false⟩
-- SELFTEST_CTL, offset 0x000 (R364)
def SELFTEST_CTL_LOCK : Fld := ⟨22, 0x000, 31, 1, 0, false⟩
def SELFTEST_CTL_SEQ_EN : Fld := ⟨22, 0x000, 0, 1, 0, false⟩
-- SELFTEST_STATUS, offset 0x004 (R364)
def SELFTEST_STATUS_RANGE_ERR : Fld := ⟨22, 0x004, 31, 1, 0, false⟩
def SELFTEST_STATUS_REFUSED : Fld := ⟨22, 0x004, 30, 1, 0, false⟩
def SELFTEST_STATUS_LOGIC_FAIL : Fld := ⟨22, 0x004, 29, 1, 0, false⟩
def SELFTEST_STATUS_MAN_BUSY : Fld := ⟨22, 0x004, 28, 1, 0, false⟩
def SELFTEST_STATUS_MAN_RESULT : Fld := ⟨22, 0x004, 26, 2, 0, false⟩
def SELFTEST_STATUS_LANES_BUSY : Fld := ⟨22, 0x004, 0, 8, 0, false⟩
-- SELFTEST_SEQ, offset 0x008 (R364)
def SELFTEST_SEQ_LEN : Fld := ⟨22, 0x008, 0, 13, 0, false⟩
-- SELFTEST_SEQ_POS, offset 0x00C (R364)
def SELFTEST_SEQ_POS_POS : Fld := ⟨22, 0x00C, 0, 12, 0, false⟩
-- SELFTEST_PASSES, offset 0x010 (R364)
def SELFTEST_PASSES_PASSES : Fld := ⟨22, 0x010, 0, 32, 0, false⟩
-- SELFTEST_COUNT, offset 0x014 (R364)
def SELFTEST_COUNT_ABORTED : Fld := ⟨22, 0x014, 24, 8, 0, false⟩
def SELFTEST_COUNT_DEFERRED : Fld := ⟨22, 0x014, 16, 8, 0, false⟩
def SELFTEST_COUNT_FAILS : Fld := ⟨22, 0x014, 0, 16, 0, false⟩
-- SELFTEST_MAN_ITEM, offset 0x020 + n * 0x4, n below 4 (R364)
def SELFTEST_MAN_ITEM_WORD (n : Nat) : Fld := ⟨22, 0x020 + n * 0x4, 0, 32, 0, false⟩
-- SELFTEST_MAN_CTL, offset 0x030 (R364)
def SELFTEST_MAN_CTL_START : Fld := ⟨22, 0x030, 31, 1, 0, false⟩
def SELFTEST_MAN_CTL_WINDOW : Fld := ⟨22, 0x030, 1, 1, 1, false⟩
def SELFTEST_MAN_CTL_SAVE : Fld := ⟨22, 0x030, 0, 1, 1, false⟩
-- SELFTEST_FAIL, offset 0x040 + n * 0x4, n below 4 (R364)
def SELFTEST_FAIL_WORD (n : Nat) : Fld := ⟨22, 0x040 + n * 0x4, 0, 32, 0, false⟩
-- SELFTEST_FAIL_STATUS, offset 0x050 (R364)
def SELFTEST_FAIL_STATUS_OVERFLOW : Fld := ⟨22, 0x050, 31, 1, 0, false⟩
def SELFTEST_FAIL_STATUS_COUNT : Fld := ⟨22, 0x050, 0, 9, 0, false⟩
-- SELFTEST_AUDIT, offset 0x054 (R364)
def SELFTEST_AUDIT_HELD : Fld := ⟨22, 0x054, 16, 16, 0, false⟩
def SELFTEST_AUDIT_RELEASED : Fld := ⟨22, 0x054, 0, 16, 0, false⟩
-- BASK_CTL, offset 0x000 (R386)
def BASK_CTL_LOCK : Fld := ⟨23, 0x000, 31, 1, 0, true⟩
def BASK_CTL_CAL_EN : Fld := ⟨23, 0x000, 16, 1, 1, true⟩
def BASK_CTL_HOT_C : Fld := ⟨23, 0x000, 8, 8, 105, true⟩
def BASK_CTL_HYST_C : Fld := ⟨23, 0x000, 0, 4, 3, true⟩
-- BASK_STATUS, offset 0x004 (R386)
def BASK_STATUS_RANGE_ERR : Fld := ⟨23, 0x004, 31, 1, 0, false⟩
def BASK_STATUS_CAP_UNMET : Fld := ⟨23, 0x004, 30, 1, 0, true⟩
def BASK_STATUS_CAP_LIMITED : Fld := ⟨23, 0x004, 29, 1, 0, true⟩
def BASK_STATUS_HOT : Fld := ⟨23, 0x004, 28, 1, 0, false⟩
def BASK_STATUS_TRIP : Fld := ⟨23, 0x004, 27, 1, 0, true⟩
def BASK_STATUS_COLD : Fld := ⟨23, 0x004, 26, 1, 0, false⟩
def BASK_STATUS_OP7_RETIRED : Fld := ⟨23, 0x004, 25, 1, 0, true⟩
def BASK_STATUS_SENSOR_FAIL : Fld := ⟨23, 0x004, 24, 1, 0, false⟩
def BASK_STATUS_CAL_ACTIVE : Fld := ⟨23, 0x004, 23, 1, 0, true⟩
def BASK_STATUS_AGE_LIMIT : Fld := ⟨23, 0x004, 22, 1, 0, false⟩
def BASK_STATUS_CAP_CEIL : Fld := ⟨23, 0x004, 12, 3, 7, true⟩
def BASK_STATUS_THERM_CEIL : Fld := ⟨23, 0x004, 9, 3, 7, false⟩
def BASK_STATUS_PREF : Fld := ⟨23, 0x004, 3, 3, 0, false⟩
def BASK_STATUS_GRANT : Fld := ⟨23, 0x004, 0, 3, 0, false⟩
-- BASK_CAP, offset 0x008 (R386)
def BASK_CAP_CAP_DW : Fld := ⟨23, 0x008, 0, 11, 1600, true⟩
-- BASK_POWER, offset 0x00C (R386)
def BASK_POWER_TICK_DW : Fld := ⟨23, 0x00C, 16, 16, 0, true⟩
def BASK_POWER_NOW_DW : Fld := ⟨23, 0x00C, 0, 16, 0, true⟩
-- BASK_DIE_POWER, offset 0x010 (R386)
def BASK_DIE_POWER_TICK_DW : Fld := ⟨23, 0x010, 16, 16, 0, false⟩
def BASK_DIE_POWER_NOW_DW : Fld := ⟨23, 0x010, 0, 16, 0, false⟩
-- BASK_PARK, offset 0x014 (R386)
def BASK_PARK_PARKED : Fld := ⟨23, 0x014, 0, 16, 0, true⟩
-- BASK_COUNT, offset 0x018 (R386)
def BASK_COUNT_EMERG : Fld := ⟨23, 0x018, 24, 8, 0, false⟩
def BASK_COUNT_LATE_RAISE : Fld := ⟨23, 0x018, 16, 8, 0, false⟩
def BASK_COUNT_CAL_SKIP : Fld := ⟨23, 0x018, 8, 8, 0, false⟩
def BASK_COUNT_CAL_CLAMP : Fld := ⟨23, 0x018, 0, 8, 0, false⟩
-- BASK_TEMP_MAX, offset 0x020 (R386)
def BASK_TEMP_MAX_SENSOR : Fld := ⟨23, 0x020, 16, 7, 0, false⟩
def BASK_TEMP_MAX_TEMP : Fld := ⟨23, 0x020, 0, 16, 0, false⟩
-- BASK_TEMP_SEL, offset 0x024 (R386)
def BASK_TEMP_SEL_SENSOR : Fld := ⟨23, 0x024, 0, 7, 0, false⟩
-- BASK_TEMP_VAL, offset 0x028 (R386)
def BASK_TEMP_VAL_VALID : Fld := ⟨23, 0x028, 31, 1, 0, false⟩
def BASK_TEMP_VAL_EXCLUDED : Fld := ⟨23, 0x028, 30, 1, 0, false⟩
def BASK_TEMP_VAL_TEMP : Fld := ⟨23, 0x028, 0, 16, 0, false⟩
-- BASK_AGE, offset 0x030 (R386)
def BASK_AGE_HOURS : Fld := ⟨23, 0x030, 24, 8, 0, false⟩
def BASK_AGE_SLACK_PS : Fld := ⟨23, 0x030, 8, 8, 0, false⟩
def BASK_AGE_COUNT : Fld := ⟨23, 0x030, 0, 8, 0, false⟩
-- BASK_OP, offset 0x040 + n * 0x4, n below 8 (R386)
def BASK_OP_RETIRED (n : Nat) : Fld := ⟨23, 0x040 + n * 0x4, 31, 1, 0, true⟩
def BASK_OP_V_MV (n : Nat) : Fld := ⟨23, 0x040 + n * 0x4, 0, 12, 0, true⟩
-- BASK_RAIL, offset 0x080 + n * 0x4, n below 8 (R386)
def BASK_RAIL_EN (n : Nat) : Fld := ⟨23, 0x080 + n * 0x4, 31, 1, 0, true⟩
def BASK_RAIL_ADDR (n : Nat) : Fld := ⟨23, 0x080 + n * 0x4, 24, 7, 0, true⟩
def BASK_RAIL_GAIN (n : Nat) : Fld := ⟨23, 0x080 + n * 0x4, 0, 16, 4096, true⟩
-- BASK_RAIL_P, offset 0x0A0 + n * 0x4, n below 8 (R386)
def BASK_RAIL_P_POWER_DW (n : Nat) : Fld := ⟨23, 0x0A0 + n * 0x4, 0, 16, 0, true⟩
-- EFT_BOOT_STATUS, offset 0x000 (R405)
def EFT_BOOT_STATUS_READY : Fld := ⟨24, 0x000, 31, 1, 0, true⟩
def EFT_BOOT_STATUS_FAILED : Fld := ⟨24, 0x000, 30, 1, 0, true⟩
def EFT_BOOT_STATUS_UNSTEPPED : Fld := ⟨24, 0x000, 29, 1, 0, true⟩
def EFT_BOOT_STATUS_STAGE : Fld := ⟨24, 0x000, 25, 4, 1, true⟩
def EFT_BOOT_STATUS_RATE_STEP : Fld := ⟨24, 0x000, 23, 2, 0, true⟩
def EFT_BOOT_STATUS_BOOT_MS : Fld := ⟨24, 0x000, 0, 16, 0, true⟩
-- EFT_BOOT_ERR, offset 0x004 (R405)
def EFT_BOOT_ERR_VALID : Fld := ⟨24, 0x004, 31, 1, 0, true⟩
def EFT_BOOT_ERR_SECTION : Fld := ⟨24, 0x004, 16, 11, 2047, true⟩
def EFT_BOOT_ERR_REASON : Fld := ⟨24, 0x004, 8, 8, 0, true⟩
def EFT_BOOT_ERR_BLOCK : Fld := ⟨24, 0x004, 0, 8, 255, true⟩
-- EFT_BOOT_ITEM, offset 0x008 (R405)
def EFT_BOOT_ITEM_ITEM : Fld := ⟨24, 0x008, 0, 32, 0, true⟩
-- EFT_VERSION, offset 0x00C (R405)
def EFT_VERSION_FUSE_MIN : Fld := ⟨24, 0x00C, 8, 7, 0, true⟩
def EFT_VERSION_IMAGE : Fld := ⟨24, 0x00C, 0, 7, 0, true⟩
-- EFT_LC, offset 0x010 (R405)
def EFT_LC_SERVICE_LEFT : Fld := ⟨24, 0x010, 16, 8, 0, true⟩
def EFT_LC_OWNER_SET : Fld := ⟨24, 0x010, 3, 1, 0, true⟩
def EFT_LC_STATE : Fld := ⟨24, 0x010, 0, 3, 0, true⟩
-- EFT_RESET, offset 0x014 (R405)
def EFT_RESET_KEY : Fld := ⟨24, 0x014, 0, 16, 0, true⟩
-- EFT_REQ_CTL, offset 0x018 (R405)
def EFT_REQ_CTL_BUSY : Fld := ⟨24, 0x018, 31, 1, 0, true⟩
def EFT_REQ_CTL_START : Fld := ⟨24, 0x018, 30, 1, 0, true⟩
def EFT_REQ_CTL_OP : Fld := ⟨24, 0x018, 28, 2, 0, true⟩
def EFT_REQ_CTL_RESULT : Fld := ⟨24, 0x018, 0, 4, 0, true⟩
-- EFT_STATUS, offset 0x01C (R405)
def EFT_STATUS_RANGE_ERR : Fld := ⟨24, 0x01C, 31, 1, 0, true⟩
-- EFT_CERT_LEN, offset 0x03C (R405)
def EFT_CERT_LEN_BYTES : Fld := ⟨24, 0x03C, 0, 12, 0, true⟩
-- EFT_CHALLENGE, offset 0x040 + n * 0x4, n below 8 (R405)
def EFT_CHALLENGE_WORD (n : Nat) : Fld := ⟨24, 0x040 + n * 0x4, 0, 32, 0, true⟩
-- EFT_NONCE, offset 0x100 + n * 0x4, n below 16 (R405)
def EFT_NONCE_WORD (n : Nat) : Fld := ⟨24, 0x100 + n * 0x4, 0, 32, 0, true⟩
-- EFT_QUOTE, offset 0x200 + n * 0x4, n below 87 (R405)
def EFT_QUOTE_WORD (n : Nat) : Fld := ⟨24, 0x200 + n * 0x4, 0, 32, 0, true⟩
-- EFT_REQ, offset 0x400 + n * 0x4, n below 90 (R405)
def EFT_REQ_WORD (n : Nat) : Fld := ⟨24, 0x400 + n * 0x4, 0, 32, 0, true⟩
-- EFT_CERT, offset 0x1000 + n * 0x4, n below 512 (R405)
def EFT_CERT_WORD (n : Nat) : Fld := ⟨24, 0x1000 + n * 0x4, 0, 32, 0, true⟩
-- EFT_FLASH_BUF, offset 0x2000 + n * 0x4, n below 1024 (R405)
def EFT_FLASH_BUF_WORD (n : Nat) : Fld := ⟨24, 0x2000 + n * 0x4, 0, 32, 0, true⟩
-- EFT_FLASH_ADDR_LO, offset 0x800 (R405)
def EFT_FLASH_ADDR_LO_ADDR : Fld := ⟨24, 0x800, 0, 32, 0, true⟩
-- EFT_FLASH_ADDR_HI, offset 0x804 (R405)
def EFT_FLASH_ADDR_HI_ADDR : Fld := ⟨24, 0x804, 0, 32, 0, true⟩
-- EFT_FLASH_CMD, offset 0x808 (R405)
def EFT_FLASH_CMD_BUSY : Fld := ⟨24, 0x808, 31, 1, 0, true⟩
def EFT_FLASH_CMD_START : Fld := ⟨24, 0x808, 30, 1, 0, true⟩
def EFT_FLASH_CMD_OP : Fld := ⟨24, 0x808, 28, 2, 0, true⟩
def EFT_FLASH_CMD_RESULT : Fld := ⟨24, 0x808, 0, 4, 0, true⟩
-- OLINER_CTL, offset 0x000 (R425)
def OLINER_CTL_LOCK : Fld := ⟨25, 0x000, 31, 1, 0, false⟩
def OLINER_CTL_SYNC_IN : Fld := ⟨25, 0x000, 2, 1, 0, false⟩
def OLINER_CTL_FWD_EN : Fld := ⟨25, 0x000, 1, 1, 0, false⟩
def OLINER_CTL_EN : Fld := ⟨25, 0x000, 0, 1, 0, false⟩
-- OLINER_DEVICE_ID, offset 0x004 (R425)
def OLINER_DEVICE_ID_ID : Fld := ⟨25, 0x004, 0, 16, 0, true⟩
-- OLINER_STATUS, offset 0x008 (R425)
def OLINER_STATUS_RANGE_ERR : Fld := ⟨25, 0x008, 31, 1, 0, false⟩
def OLINER_STATUS_LOST_SEEN : Fld := ⟨25, 0x008, 30, 1, 0, false⟩
def OLINER_STATUS_STATE : Fld := ⟨25, 0x008, 16, 2, 0, false⟩
def OLINER_STATUS_PARTNER_ID : Fld := ⟨25, 0x008, 0, 16, 0, false⟩
-- OLINER_ERR_COUNT, offset 0x00C (R425)
def OLINER_ERR_COUNT_CRC_ERR : Fld := ⟨25, 0x00C, 16, 16, 0, false⟩
def OLINER_ERR_COUNT_RETRY : Fld := ⟨25, 0x00C, 8, 8, 0, false⟩
def OLINER_ERR_COUNT_DROPPED : Fld := ⟨25, 0x00C, 0, 8, 0, false⟩
-- OLINER_AUDIT, offset 0x010 (R425)
def OLINER_AUDIT_SENT : Fld := ⟨25, 0x010, 16, 16, 0, false⟩
def OLINER_AUDIT_RETURNED : Fld := ⟨25, 0x010, 0, 16, 0, false⟩
-- OLINER_ROUTE_LO, offset 0x100 + n * 0x8, n below 256 (R425)
def OLINER_ROUTE_LO_HI_ID (n : Nat) : Fld := ⟨25, 0x100 + n * 0x8, 16, 16, 0, true⟩
def OLINER_ROUTE_LO_LO_ID (n : Nat) : Fld := ⟨25, 0x100 + n * 0x8, 0, 16, 0, true⟩
-- OLINER_ROUTE_HI, offset 0x104 + n * 0x8, n below 256 (R425)
def OLINER_ROUTE_HI_V (n : Nat) : Fld := ⟨25, 0x104 + n * 0x8, 31, 1, 0, true⟩
def OLINER_ROUTE_HI_EGRESS (n : Nat) : Fld := ⟨25, 0x104 + n * 0x8, 0, 2, 0, true⟩
-- OLINER_WIN_LO, offset 0x900 + n * 0x8, n below 8 (R425)
def OLINER_WIN_LO_BASE (n : Nat) : Fld := ⟨25, 0x900 + n * 0x8, 16, 16, 0, false⟩
-- OLINER_WIN_HI, offset 0x904 + n * 0x8, n below 8 (R425)
def OLINER_WIN_HI_EN (n : Nat) : Fld := ⟨25, 0x904 + n * 0x8, 31, 1, 0, false⟩
def OLINER_WIN_HI_WR (n : Nat) : Fld := ⟨25, 0x904 + n * 0x8, 30, 1, 0, false⟩
def OLINER_WIN_HI_RD (n : Nat) : Fld := ⟨25, 0x904 + n * 0x8, 29, 1, 0, false⟩
def OLINER_WIN_HI_LOG2_SIZE (n : Nat) : Fld := ⟨25, 0x904 + n * 0x8, 16, 6, 0, false⟩
def OLINER_WIN_HI_BASE (n : Nat) : Fld := ⟨25, 0x904 + n * 0x8, 0, 16, 0, false⟩
-- PCIE_CTL, offset 0x000 (R427)
def PCIE_CTL_LOCK : Fld := ⟨26, 0x000, 31, 1, 0, false⟩
def PCIE_CTL_RANGE_ERR : Fld := ⟨26, 0x000, 30, 1, 0, false⟩
def PCIE_CTL_WIDTH : Fld := ⟨26, 0x000, 20, 2, 0, false⟩
def PCIE_CTL_SPEED : Fld := ⟨26, 0x000, 16, 4, 0, false⟩
def PCIE_CTL_LINK_UP : Fld := ⟨26, 0x000, 2, 1, 0, false⟩
def PCIE_CTL_ROLE : Fld := ⟨26, 0x000, 1, 1, 0, false⟩
def PCIE_CTL_EN : Fld := ⟨26, 0x000, 0, 1, 0, false⟩
-- PCIE_MSIX_TRIGGER, offset 0x200 (R427)
def PCIE_MSIX_TRIGGER_VECTOR : Fld := ⟨26, 0x200, 0, 6, 0, false⟩
-- PCIE_MBOX_CMD, offset 0x30C (R427)
def PCIE_MBOX_CMD_BUSY : Fld := ⟨26, 0x30C, 31, 1, 0, false⟩
def PCIE_MBOX_CMD_START : Fld := ⟨26, 0x30C, 30, 1, 0, false⟩
def PCIE_MBOX_CMD_OP : Fld := ⟨26, 0x30C, 28, 2, 0, false⟩
def PCIE_MBOX_CMD_RESULT : Fld := ⟨26, 0x30C, 0, 3, 0, false⟩
-- ENET_CTL, offset 0x000 + n * 0x800, n below 2 (R427)
def ENET_CTL_LOCK (n : Nat) : Fld := ⟨28, 0x000 + n * 0x800, 31, 1, 0, false⟩
def ENET_CTL_RANGE_ERR (n : Nat) : Fld := ⟨28, 0x000 + n * 0x800, 30, 1, 0, false⟩
def ENET_CTL_LINK_UP (n : Nat) : Fld := ⟨28, 0x000 + n * 0x800, 29, 1, 0, false⟩
def ENET_CTL_HQ_EN (n : Nat) : Fld := ⟨28, 0x000 + n * 0x800, 9, 1, 0, false⟩
def ENET_CTL_QBV_EN (n : Nat) : Fld := ⟨28, 0x000 + n * 0x800, 8, 1, 0, false⟩
def ENET_CTL_SPEED (n : Nat) : Fld := ⟨28, 0x000 + n * 0x800, 0, 1, 1, false⟩
-- ENET_STATUS, offset 0x004 + n * 0x800, n below 2 (R427)
def ENET_STATUS_DROPS (n : Nat) : Fld := ⟨28, 0x004 + n * 0x800, 16, 16, 0, false⟩
def ENET_STATUS_FCS_ERR (n : Nat) : Fld := ⟨28, 0x004 + n * 0x800, 0, 16, 0, false⟩
-- ENET_HQ_TX, offset 0x020 + n * 0x800, n below 2 (R428)
def ENET_HQ_TX_TX_HEAD (n : Nat) : Fld := ⟨28, 0x020 + n * 0x800, 16, 12, 0, false⟩
def ENET_HQ_TX_TX_TAIL (n : Nat) : Fld := ⟨28, 0x020 + n * 0x800, 0, 12, 0, false⟩
-- ENET_HQ_MSI_LO, offset 0x024 + n * 0x800, n below 2 (R428)
def ENET_HQ_MSI_LO_VALUE (n : Nat) : Fld := ⟨28, 0x024 + n * 0x800, 0, 32, 0, false⟩
-- ENET_HQ_MSI_HI, offset 0x028 + n * 0x800, n below 2 (R428)
def ENET_HQ_MSI_HI_VALUE (n : Nat) : Fld := ⟨28, 0x028 + n * 0x800, 0, 32, 0, false⟩
-- ENET_HQ_MSI_DATA, offset 0x02C + n * 0x800, n below 2 (R428)
def ENET_HQ_MSI_DATA_VALUE (n : Nat) : Fld := ⟨28, 0x02C + n * 0x800, 0, 32, 0, false⟩
-- LSIO_CTL, offset 0x000 (R428)
def LSIO_CTL_LOCK : Fld := ⟨29, 0x000, 31, 1, 0, false⟩
def LSIO_CTL_RANGE_ERR : Fld := ⟨29, 0x000, 30, 1, 0, false⟩
def LSIO_CTL_AVG : Fld := ⟨29, 0x000, 0, 4, 0, false⟩
-- LSIO_IN_MAP, offset 0x100 + n * 0x4, n below 256 (R428)
def LSIO_IN_MAP_EN (n : Nat) : Fld := ⟨29, 0x100 + n * 0x4, 31, 1, 0, false⟩
def LSIO_IN_MAP_SIGNED (n : Nat) : Fld := ⟨29, 0x100 + n * 0x4, 30, 1, 0, false⟩
def LSIO_IN_MAP_WIDTH (n : Nat) : Fld := ⟨29, 0x100 + n * 0x4, 28, 2, 0, false⟩
def LSIO_IN_MAP_CHANNEL (n : Nat) : Fld := ⟨29, 0x100 + n * 0x4, 24, 4, 0, false⟩
def LSIO_IN_MAP_FILTER (n : Nat) : Fld := ⟨29, 0x100 + n * 0x4, 18, 6, 0, false⟩
def LSIO_IN_MAP_OFFSET (n : Nat) : Fld := ⟨29, 0x100 + n * 0x4, 0, 11, 0, false⟩
-- LSIO_OUT_MAP, offset 0x500 + n * 0x4, n below 256 (R428)
def LSIO_OUT_MAP_KIND (n : Nat) : Fld := ⟨29, 0x500 + n * 0x4, 30, 2, 0, false⟩
def LSIO_OUT_MAP_WIDTH (n : Nat) : Fld := ⟨29, 0x500 + n * 0x4, 28, 2, 0, false⟩
def LSIO_OUT_MAP_UNIT (n : Nat) : Fld := ⟨29, 0x500 + n * 0x4, 22, 6, 0, false⟩
def LSIO_OUT_MAP_BUF (n : Nat) : Fld := ⟨29, 0x500 + n * 0x4, 17, 5, 0, false⟩
def LSIO_OUT_MAP_OFFSET (n : Nat) : Fld := ⟨29, 0x500 + n * 0x4, 0, 11, 0, false⟩
-- LSIO_CANTX_HDR, offset 0x900 + n * 0x4, n below 384 (R428)
def LSIO_CANTX_HDR_FMT (n : Nat) : Fld := ⟨29, 0x900 + n * 0x4, 30, 2, 0, false⟩
def LSIO_CANTX_HDR_EXT (n : Nat) : Fld := ⟨29, 0x900 + n * 0x4, 29, 1, 0, false⟩
def LSIO_CANTX_HDR_ID (n : Nat) : Fld := ⟨29, 0x900 + n * 0x4, 0, 29, 0, false⟩
-- LSIO_CAN_STATUS, offset 0xF00 + n * 0x4, n below 12 (R428)
def LSIO_CAN_STATUS_OVERWRITE (n : Nat) : Fld := ⟨29, 0xF00 + n * 0x4, 24, 8, 0, false⟩
def LSIO_CAN_STATUS_BUS_ERR (n : Nat) : Fld := ⟨29, 0xF00 + n * 0x4, 16, 8, 0, false⟩
def LSIO_CAN_STATUS_RX (n : Nat) : Fld := ⟨29, 0xF00 + n * 0x4, 0, 16, 0, false⟩
-- LSIO_QEI_CFG, offset 0xF40 + n * 0x4, n below 32 (R428)
def LSIO_QEI_CFG_EN (n : Nat) : Fld := ⟨29, 0xF40 + n * 0x4, 31, 1, 0, false⟩
def LSIO_QEI_CFG_MODE (n : Nat) : Fld := ⟨29, 0xF40 + n * 0x4, 30, 1, 0, false⟩
def LSIO_QEI_CFG_QERR (n : Nat) : Fld := ⟨29, 0xF40 + n * 0x4, 0, 8, 0, false⟩
-- LSIO_CAN_CFG, offset 0x1000 + n * 0x10, n below 12 (R429)
def LSIO_CAN_CFG_EN (n : Nat) : Fld := ⟨29, 0x1000 + n * 0x10, 31, 1, 0, false⟩
def LSIO_CAN_CFG_FD_EN (n : Nat) : Fld := ⟨29, 0x1000 + n * 0x10, 30, 1, 0, false⟩
def LSIO_CAN_CFG_XL_EN (n : Nat) : Fld := ⟨29, 0x1000 + n * 0x10, 29, 1, 0, false⟩
def LSIO_CAN_CFG_XL_SWITCH (n : Nat) : Fld := ⟨29, 0x1000 + n * 0x10, 28, 1, 0, false⟩
def LSIO_CAN_CFG_LISTEN (n : Nat) : Fld := ⟨29, 0x1000 + n * 0x10, 27, 1, 0, false⟩
def LSIO_CAN_CFG_LOOP (n : Nat) : Fld := ⟨29, 0x1000 + n * 0x10, 26, 1, 0, false⟩
-- LSIO_CAN_NBT, offset 0x1004 + n * 0x10, n below 12 (R429)
def LSIO_CAN_NBT_BRP_M1 (n : Nat) : Fld := ⟨29, 0x1004 + n * 0x10, 24, 8, 0, false⟩
def LSIO_CAN_NBT_TSEG1_M1 (n : Nat) : Fld := ⟨29, 0x1004 + n * 0x10, 16, 8, 62, false⟩
def LSIO_CAN_NBT_TSEG2_M1 (n : Nat) : Fld := ⟨29, 0x1004 + n * 0x10, 8, 7, 15, false⟩
def LSIO_CAN_NBT_SJW_M1 (n : Nat) : Fld := ⟨29, 0x1004 + n * 0x10, 0, 7, 15, false⟩
-- LSIO_CAN_DBT, offset 0x1008 + n * 0x10, n below 12 (R429)
def LSIO_CAN_DBT_BRP_M1 (n : Nat) : Fld := ⟨29, 0x1008 + n * 0x10, 24, 8, 0, false⟩
def LSIO_CAN_DBT_TSEG1_M1 (n : Nat) : Fld := ⟨29, 0x1008 + n * 0x10, 16, 8, 3, false⟩
def LSIO_CAN_DBT_TSEG2_M1 (n : Nat) : Fld := ⟨29, 0x1008 + n * 0x10, 8, 7, 2, false⟩
def LSIO_CAN_DBT_SJW_M1 (n : Nat) : Fld := ⟨29, 0x1008 + n * 0x10, 0, 7, 1, false⟩
-- LSIO_CAN_FLT_ID, offset 0x2000 + n * 0x8, n below 768 (R429)
def LSIO_CAN_FLT_ID_EN (n : Nat) : Fld := ⟨29, 0x2000 + n * 0x8, 31, 1, 0, false⟩
def LSIO_CAN_FLT_ID_EXT (n : Nat) : Fld := ⟨29, 0x2000 + n * 0x8, 30, 1, 0, false⟩
def LSIO_CAN_FLT_ID_XL (n : Nat) : Fld := ⟨29, 0x2000 + n * 0x8, 29, 1, 0, false⟩
def LSIO_CAN_FLT_ID_ID (n : Nat) : Fld := ⟨29, 0x2000 + n * 0x8, 0, 29, 0, false⟩
-- LSIO_CAN_FLT_MASK, offset 0x2004 + n * 0x8, n below 768 (R429)
def LSIO_CAN_FLT_MASK_MASK (n : Nat) : Fld := ⟨29, 0x2004 + n * 0x8, 0, 29, 0, false⟩
-- LSIO_CAN_TX_CTL, offset 0x1200 + n * 0x4, n below 12 (R429)
def LSIO_CAN_TX_CTL_START (n : Nat) : Fld := ⟨29, 0x1200 + n * 0x4, 31, 1, 0, false⟩
def LSIO_CAN_TX_CTL_PENDING (n : Nat) : Fld := ⟨29, 0x1200 + n * 0x4, 30, 1, 0, false⟩
def LSIO_CAN_TX_CTL_BUF (n : Nat) : Fld := ⟨29, 0x1200 + n * 0x4, 0, 5, 0, false⟩
-- LSIO_SPI_CFG, offset 0x3800 + n * 0x10, n below 8 (R429)
def LSIO_SPI_CFG_EN (n : Nat) : Fld := ⟨29, 0x3800 + n * 0x10, 31, 1, 0, false⟩
def LSIO_SPI_CFG_MODE (n : Nat) : Fld := ⟨29, 0x3800 + n * 0x10, 29, 2, 0, false⟩
def LSIO_SPI_CFG_LSB_FIRST (n : Nat) : Fld := ⟨29, 0x3800 + n * 0x10, 28, 1, 0, false⟩
def LSIO_SPI_CFG_WORD_M1 (n : Nat) : Fld := ⟨29, 0x3800 + n * 0x10, 23, 5, 7, false⟩
def LSIO_SPI_CFG_DIV_M1 (n : Nat) : Fld := ⟨29, 0x3800 + n * 0x10, 8, 8, 1, false⟩
def LSIO_SPI_CFG_GAP (n : Nat) : Fld := ⟨29, 0x3800 + n * 0x10, 0, 8, 0, false⟩
-- LSIO_SPI_SLOT, offset 0x3900 + n * 0x4, n below 128 (R429)
def LSIO_SPI_SLOT_EN (n : Nat) : Fld := ⟨29, 0x3900 + n * 0x4, 31, 1, 0, false⟩
def LSIO_SPI_SLOT_TRIG (n : Nat) : Fld := ⟨29, 0x3900 + n * 0x4, 29, 2, 0, false⟩
def LSIO_SPI_SLOT_WORDS_M1 (n : Nat) : Fld := ⟨29, 0x3900 + n * 0x4, 20, 4, 0, false⟩
-- LSIO_I2C_CMD, offset 0x3E04 + n * 0x10, n below 8 (R429)
def LSIO_I2C_CMD_BUSY (n : Nat) : Fld := ⟨29, 0x3E04 + n * 0x10, 31, 1, 0, false⟩
def LSIO_I2C_CMD_START (n : Nat) : Fld := ⟨29, 0x3E04 + n * 0x10, 30, 1, 0, false⟩
def LSIO_I2C_CMD_READ (n : Nat) : Fld := ⟨29, 0x3E04 + n * 0x10, 29, 1, 0, false⟩
def LSIO_I2C_CMD_TEN (n : Nat) : Fld := ⟨29, 0x3E04 + n * 0x10, 28, 1, 0, false⟩
def LSIO_I2C_CMD_RESULT (n : Nat) : Fld := ⟨29, 0x3E04 + n * 0x10, 24, 4, 0, false⟩
def LSIO_I2C_CMD_LEN_M1 (n : Nat) : Fld := ⟨29, 0x3E04 + n * 0x10, 16, 5, 0, false⟩
def LSIO_I2C_CMD_ADDR (n : Nat) : Fld := ⟨29, 0x3E04 + n * 0x10, 0, 10, 0, false⟩
-- LSIO_UART_CFG, offset 0x3F00 + n * 0x10, n below 4 (R429)
def LSIO_UART_CFG_EN (n : Nat) : Fld := ⟨29, 0x3F00 + n * 0x10, 31, 1, 0, false⟩
def LSIO_UART_CFG_RTSCTS (n : Nat) : Fld := ⟨29, 0x3F00 + n * 0x10, 30, 1, 0, false⟩
def LSIO_UART_CFG_DATA8 (n : Nat) : Fld := ⟨29, 0x3F00 + n * 0x10, 29, 1, 1, false⟩
def LSIO_UART_CFG_PARITY (n : Nat) : Fld := ⟨29, 0x3F00 + n * 0x10, 27, 2, 0, false⟩
def LSIO_UART_CFG_STOP2 (n : Nat) : Fld := ⟨29, 0x3F00 + n * 0x10, 26, 1, 0, false⟩
def LSIO_UART_CFG_DIV (n : Nat) : Fld := ⟨29, 0x3F00 + n * 0x10, 0, 24, 10417, false⟩
-- DIE_CTL_BRIDGE_AUDIT_ROW, offset 0x020 (R434)
def DIE_CTL_BRIDGE_AUDIT_ROW_SENT : Fld := ⟨0, 0x020, 16, 16, 0, false⟩
def DIE_CTL_BRIDGE_AUDIT_ROW_RETURNED : Fld := ⟨0, 0x020, 0, 16, 0, false⟩
-- DIE_CTL_BRIDGE_AUDIT_COL, offset 0x024 (R434)
def DIE_CTL_BRIDGE_AUDIT_COL_SENT : Fld := ⟨0, 0x024, 16, 16, 0, false⟩
def DIE_CTL_BRIDGE_AUDIT_COL_RETURNED : Fld := ⟨0, 0x024, 0, 16, 0, false⟩
-- DIE_CTL_ERR_CTL, offset 0x100 (R440)
def DIE_CTL_ERR_CTL_LOCK : Fld := ⟨0, 0x100, 31, 1, 0, false⟩
def DIE_CTL_ERR_CTL_RANGE_ERR : Fld := ⟨0, 0x100, 30, 1, 0, false⟩
def DIE_CTL_ERR_CTL_REMOTE_TICKS : Fld := ⟨0, 0x100, 0, 5, 4, false⟩
-- DIE_CTL_UNIT_RESET, offset 0x104 (R441)
def DIE_CTL_UNIT_RESET_BUSY : Fld := ⟨0, 0x104, 31, 1, 0, false⟩
def DIE_CTL_UNIT_RESET_START : Fld := ⟨0, 0x104, 30, 1, 0, false⟩
def DIE_CTL_UNIT_RESET_OP : Fld := ⟨0, 0x104, 28, 2, 0, false⟩
def DIE_CTL_UNIT_RESET_STAGE : Fld := ⟨0, 0x104, 25, 3, 0, false⟩
def DIE_CTL_UNIT_RESET_RESULT : Fld := ⟨0, 0x104, 22, 3, 0, false⟩
def DIE_CTL_UNIT_RESET_UNIT : Fld := ⟨0, 0x104, 0, 8, 0, false⟩
-- DIE_CTL_DISABLED_LO, offset 0x108 (R442)
def DIE_CTL_DISABLED_LO_CORES : Fld := ⟨0, 0x108, 0, 32, 0, false⟩
-- DIE_CTL_DISABLED_HI, offset 0x10C (R442)
def DIE_CTL_DISABLED_HI_CORES : Fld := ⟨0, 0x10C, 0, 32, 0, false⟩
-- DIE_CTL_DISABLED_DMA, offset 0x110 (R442)
def DIE_CTL_DISABLED_DMA_ENGINES : Fld := ⟨0, 0x110, 0, 16, 0, false⟩
-- DIE_CTL_ERR_COUNT, offset 0x114 (R442)
def DIE_CTL_ERR_COUNT_TIMEOUTS : Fld := ⟨0, 0x114, 16, 16, 0, false⟩
def DIE_CTL_ERR_COUNT_FENCED : Fld := ⟨0, 0x114, 8, 8, 0, false⟩
def DIE_CTL_ERR_COUNT_LATE_DROP : Fld := ⟨0, 0x114, 0, 8, 0, false⟩
-- DIE_CTL_ERR_STATUS, offset 0x120 (R443)
def DIE_CTL_ERR_STATUS_VALID : Fld := ⟨0, 0x120, 31, 1, 0, false⟩
def DIE_CTL_ERR_STATUS_OVERFLOW : Fld := ⟨0, 0x120, 30, 1, 0, false⟩
def DIE_CTL_ERR_STATUS_REMOTE : Fld := ⟨0, 0x120, 29, 1, 0, false⟩
def DIE_CTL_ERR_STATUS_WRITE : Fld := ⟨0, 0x120, 28, 1, 0, false⟩
def DIE_CTL_ERR_STATUS_STATUS : Fld := ⟨0, 0x120, 16, 8, 0, false⟩
def DIE_CTL_ERR_STATUS_MASTER : Fld := ⟨0, 0x120, 0, 8, 0, false⟩
-- DIE_CTL_AUDIT_ERR, offset 0x124 (R443)
def DIE_CTL_AUDIT_ERR_VALID : Fld := ⟨0, 0x124, 31, 1, 0, false⟩
def DIE_CTL_AUDIT_ERR_BLOCK : Fld := ⟨0, 0x124, 16, 5, 0, false⟩
def DIE_CTL_AUDIT_ERR_OFFSET : Fld := ⟨0, 0x124, 0, 16, 0, false⟩
-- DIE_CTL_RADD_STATUS, offset 0x128 (R443)
def DIE_CTL_RADD_STATUS_COUNT : Fld := ⟨0, 0x128, 0, 7, 0, false⟩
-- DIE_CTL_RADD_LO, offset 0x12C (R443)
def DIE_CTL_RADD_LO_PARTNER_ID : Fld := ⟨0, 0x12C, 16, 16, 0, false⟩
def DIE_CTL_RADD_LO_SYNC : Fld := ⟨0, 0x12C, 0, 16, 0, false⟩
-- DIE_CTL_RADD_HI, offset 0x130 (R443)
def DIE_CTL_RADD_HI_VALID : Fld := ⟨0, 0x130, 31, 1, 0, false⟩
def DIE_CTL_RADD_HI_APPLIED : Fld := ⟨0, 0x130, 30, 1, 0, false⟩
def DIE_CTL_RADD_HI_SEQ : Fld := ⟨0, 0x130, 0, 16, 0, false⟩
-- HOST_STATUS, offset 0x000 (R457)
def HOST_STATUS_RANGE_ERR : Fld := ⟨30, 0x000, 31, 1, 0, false⟩
def HOST_STATUS_HALTED : Fld := ⟨30, 0x000, 0, 4, 0, false⟩
-- HOST_ERR_CFG, offset 0x004 (R457)
def HOST_ERR_CFG_ID : Fld := ⟨30, 0x004, 0, 8, 1, false⟩
-- HOST_HART_CTL, offset 0x010 + n * 0x4, n below 4 (R457)
def HOST_HART_CTL_FREQ (n : Nat) : Fld := ⟨30, 0x010 + n * 0x4, 0, 3, 4, false⟩
-- HOST_STORE_ERR, offset 0x020 + n * 0x4, n below 4 (R457)
def HOST_STORE_ERR_COUNT (n : Nat) : Fld := ⟨30, 0x020 + n * 0x4, 0, 16, 0, false⟩
-- HOST_MTIMECMP_LO, offset 0x040 + n * 0x8, n below 4 (R457)
def HOST_MTIMECMP_LO_VALUE (n : Nat) : Fld := ⟨30, 0x040 + n * 0x8, 0, 32, 0xffffffff, false⟩
-- HOST_MTIMECMP_HI, offset 0x044 + n * 0x8, n below 4 (R457)
def HOST_MTIMECMP_HI_VALUE (n : Nat) : Fld := ⟨30, 0x044 + n * 0x8, 0, 32, 0xffffffff, false⟩
-- DEBUG_STATUS, offset 0x000 (R458)
def DEBUG_STATUS_OPEN : Fld := ⟨31, 0x000, 31, 1, 0, true⟩
def DEBUG_STATUS_USED : Fld := ⟨31, 0x000, 30, 1, 0, true⟩
def DEBUG_STATUS_HALT_PENDING : Fld := ⟨31, 0x000, 29, 1, 0, true⟩
-- DEBUG_UNLOCK_CTL, offset 0x004 (R458)
def DEBUG_UNLOCK_CTL_BUSY : Fld := ⟨31, 0x004, 31, 1, 0, true⟩
def DEBUG_UNLOCK_CTL_START : Fld := ⟨31, 0x004, 30, 1, 0, true⟩
def DEBUG_UNLOCK_CTL_RESULT : Fld := ⟨31, 0x004, 0, 4, 0, true⟩
-- DEBUG_CHALLENGE, offset 0x040 + n * 0x4, n below 8 (R458)
def DEBUG_CHALLENGE_WORD (n : Nat) : Fld := ⟨31, 0x040 + n * 0x4, 0, 32, 0, true⟩
-- DEBUG_UNLOCK_REQ, offset 0x400 + n * 0x4, n below 90 (R458)
def DEBUG_UNLOCK_REQ_WORD (n : Nat) : Fld := ⟨31, 0x400 + n * 0x4, 0, 32, 0, true⟩
-- PCIE_WIN_LO, offset 0x100 + n * 0x8, n below 8 (R427)
def PCIE_WIN_LO_BASE (n : Nat) : Fld := ⟨26, 0x100 + n * 0x8, 16, 16, 0, false⟩
-- PCIE_WIN_HI, offset 0x104 + n * 0x8, n below 8 (R427)
def PCIE_WIN_HI_EN (n : Nat) : Fld := ⟨26, 0x104 + n * 0x8, 31, 1, 0, false⟩
def PCIE_WIN_HI_WR (n : Nat) : Fld := ⟨26, 0x104 + n * 0x8, 30, 1, 0, false⟩
def PCIE_WIN_HI_RD (n : Nat) : Fld := ⟨26, 0x104 + n * 0x8, 29, 1, 0, false⟩
def PCIE_WIN_HI_LOG2_SIZE (n : Nat) : Fld := ⟨26, 0x104 + n * 0x8, 16, 6, 0, false⟩
def PCIE_WIN_HI_BASE (n : Nat) : Fld := ⟨26, 0x104 + n * 0x8, 0, 16, 0, false⟩
-- PCIE_MBOX_ADDR_LO, offset 0x300 (R427)
def PCIE_MBOX_ADDR_LO_ADDR : Fld := ⟨26, 0x300, 0, 32, 0, false⟩
-- PCIE_MBOX_ADDR_HI, offset 0x304 (R427)
def PCIE_MBOX_ADDR_HI_ADDR : Fld := ⟨26, 0x304, 0, 32, 0, false⟩
-- PCIE_MBOX_DATA, offset 0x308 (R427)
def PCIE_MBOX_DATA_DATA : Fld := ⟨26, 0x308, 0, 32, 0, false⟩
-- ENET_QBV_BASE_LO, offset 0x008 + n * 0x800, n below 2 (R427)
def ENET_QBV_BASE_LO_NS (n : Nat) : Fld := ⟨28, 0x008 + n * 0x800, 0, 32, 0, false⟩
-- ENET_QBV_BASE_HI, offset 0x00C + n * 0x800, n below 2 (R427)
def ENET_QBV_BASE_HI_NS (n : Nat) : Fld := ⟨28, 0x00C + n * 0x800, 0, 32, 0, false⟩
-- ENET_QBV_CYCLE, offset 0x010 + n * 0x800, n below 2 (R427)
def ENET_QBV_CYCLE_NS (n : Nat) : Fld := ⟨28, 0x010 + n * 0x800, 0, 32, 0, false⟩
-- ENET_QBV_GCL0, offset 0x400 + n * 0x4, n below 256 (R427)
def ENET_QBV_GCL0_GATES (n : Nat) : Fld := ⟨28, 0x400 + n * 0x4, 24, 8, 0, false⟩
def ENET_QBV_GCL0_NS (n : Nat) : Fld := ⟨28, 0x400 + n * 0x4, 0, 24, 0, false⟩
-- ENET_QBV_GCL1, offset 0xC00 + n * 0x4, n below 256 (R427)
def ENET_QBV_GCL1_GATES (n : Nat) : Fld := ⟨28, 0xC00 + n * 0x4, 24, 8, 0, false⟩
def ENET_QBV_GCL1_NS (n : Nat) : Fld := ⟨28, 0xC00 + n * 0x4, 0, 24, 0, false⟩
-- ENET_HQ_BASE_LO, offset 0x014 + n * 0x800, n below 2 (R427)
def ENET_HQ_BASE_LO_ADDR (n : Nat) : Fld := ⟨28, 0x014 + n * 0x800, 0, 32, 0, false⟩
-- ENET_HQ_BASE_HI, offset 0x018 + n * 0x800, n below 2 (R427)
def ENET_HQ_BASE_HI_ADDR (n : Nat) : Fld := ⟨28, 0x018 + n * 0x800, 0, 32, 0, false⟩
-- ENET_HQ_CTL, offset 0x01C + n * 0x800, n below 2 (R427)
def ENET_HQ_CTL_RX_TAIL (n : Nat) : Fld := ⟨28, 0x01C + n * 0x800, 16, 12, 0, false⟩
def ENET_HQ_CTL_RX_HEAD (n : Nat) : Fld := ⟨28, 0x01C + n * 0x800, 4, 12, 0, false⟩
def ENET_HQ_CTL_LOG2 (n : Nat) : Fld := ⟨28, 0x01C + n * 0x800, 0, 4, 0, false⟩
-- ENET_GPTP, offset 0x100 (R427)
def ENET_GPTP_GM_CAPABLE : Fld := ⟨28, 0x100, 8, 1, 0, false⟩
def ENET_GPTP_PRIORITY1 : Fld := ⟨28, 0x100, 0, 8, 248, false⟩
-- LSIO_CAN_RX_SEL, offset 0x1100 (R429)
def LSIO_CAN_RX_SEL_CHANNEL : Fld := ⟨29, 0x1100, 8, 4, 0, false⟩
def LSIO_CAN_RX_SEL_FILTER : Fld := ⟨29, 0x1100, 0, 6, 0, false⟩
-- LSIO_CAN_RX, offset 0x1140 + n * 0x4, n below 20 (R429)
def LSIO_CAN_RX_WORD (n : Nat) : Fld := ⟨29, 0x1140 + n * 0x4, 0, 32, 0, false⟩
-- LSIO_CAN_TX_SEL, offset 0x1190 (R429)
def LSIO_CAN_TX_SEL_CHANNEL : Fld := ⟨29, 0x1190, 8, 4, 0, false⟩
def LSIO_CAN_TX_SEL_BUF : Fld := ⟨29, 0x1190, 0, 5, 0, false⟩
-- LSIO_CAN_TX, offset 0x11A0 + n * 0x4, n below 17 (R429)
def LSIO_CAN_TX_WORD (n : Nat) : Fld := ⟨29, 0x11A0 + n * 0x4, 0, 32, 0, false⟩
-- LSIO_SPI_STATUS, offset 0x3804 + n * 0x10, n below 8 (R429)
def LSIO_SPI_STATUS_MISSED (n : Nat) : Fld := ⟨29, 0x3804 + n * 0x10, 0, 16, 0, false⟩
-- LSIO_SPI_BUF_SEL, offset 0x3D00 (R429)
def LSIO_SPI_BUF_SEL_RX : Fld := ⟨29, 0x3D00, 31, 1, 0, false⟩
def LSIO_SPI_BUF_SEL_CHANNEL : Fld := ⟨29, 0x3D00, 8, 3, 0, false⟩
def LSIO_SPI_BUF_SEL_SLOT : Fld := ⟨29, 0x3D00, 0, 4, 0, false⟩
-- LSIO_SPI_BUF, offset 0x3D40 + n * 0x4, n below 16 (R429)
def LSIO_SPI_BUF_WORD (n : Nat) : Fld := ⟨29, 0x3D40 + n * 0x4, 0, 32, 0, false⟩
-- LSIO_SPI_GO, offset 0x3D80 (R429)
def LSIO_SPI_GO_START : Fld := ⟨29, 0x3D80, 31, 1, 0, false⟩
def LSIO_SPI_GO_CHANNEL : Fld := ⟨29, 0x3D80, 8, 3, 0, false⟩
def LSIO_SPI_GO_SLOT : Fld := ⟨29, 0x3D80, 0, 4, 0, false⟩
-- LSIO_I2C_CFG, offset 0x3E00 + n * 0x10, n below 8 (R429)
def LSIO_I2C_CFG_EN (n : Nat) : Fld := ⟨29, 0x3E00 + n * 0x10, 31, 1, 0, false⟩
def LSIO_I2C_CFG_SPEED (n : Nat) : Fld := ⟨29, 0x3E00 + n * 0x10, 0, 2, 0, false⟩
-- LSIO_I2C_DATA, offset 0x3E08 + n * 0x10, n below 8 (R429)
def LSIO_I2C_DATA_VALID (n : Nat) : Fld := ⟨29, 0x3E08 + n * 0x10, 8, 1, 0, false⟩
def LSIO_I2C_DATA_BYTE (n : Nat) : Fld := ⟨29, 0x3E08 + n * 0x10, 0, 8, 0, false⟩
-- LSIO_UART_DATA, offset 0x3F04 + n * 0x10, n below 4 (R429)
def LSIO_UART_DATA_VALID (n : Nat) : Fld := ⟨29, 0x3F04 + n * 0x10, 8, 1, 0, false⟩
def LSIO_UART_DATA_BYTE (n : Nat) : Fld := ⟨29, 0x3F04 + n * 0x10, 0, 8, 0, false⟩
-- LSIO_UART_STATUS, offset 0x3F08 + n * 0x10, n below 4 (R429)
def LSIO_UART_STATUS_OVERRUN (n : Nat) : Fld := ⟨29, 0x3F08 + n * 0x10, 24, 8, 0, false⟩
def LSIO_UART_STATUS_FRAME_ERR (n : Nat) : Fld := ⟨29, 0x3F08 + n * 0x10, 16, 8, 0, false⟩
def LSIO_UART_STATUS_RX_LEVEL (n : Nat) : Fld := ⟨29, 0x3F08 + n * 0x10, 8, 8, 0, false⟩
def LSIO_UART_STATUS_TX_LEVEL (n : Nat) : Fld := ⟨29, 0x3F08 + n * 0x10, 0, 8, 0, false⟩
-- LSIO_GPIO_MODE, offset 0x3F80 + n * 0x4, n below 4 (R429)
def LSIO_GPIO_MODE_MODES (n : Nat) : Fld := ⟨29, 0x3F80 + n * 0x4, 0, 32, 0, false⟩
-- LSIO_GPIO_OUT_LO, offset 0x3F90 (R429)
def LSIO_GPIO_OUT_LO_PINS : Fld := ⟨29, 0x3F90, 0, 32, 0, false⟩
-- LSIO_GPIO_OUT_HI, offset 0x3F94 (R429)
def LSIO_GPIO_OUT_HI_PINS : Fld := ⟨29, 0x3F94, 0, 32, 0, false⟩
-- LSIO_GPIO_IN_LO, offset 0x3F98 (R429)
def LSIO_GPIO_IN_LO_PINS : Fld := ⟨29, 0x3F98, 0, 32, 0, false⟩
-- LSIO_GPIO_IN_HI, offset 0x3F9C (R429)
def LSIO_GPIO_IN_HI_PINS : Fld := ⟨29, 0x3F9C, 0, 32, 0, false⟩
-- DIE_CTL_ERR_ADDR_LO, offset 0x118 (R443)
def DIE_CTL_ERR_ADDR_LO_ADDR : Fld := ⟨0, 0x118, 0, 32, 0, false⟩
-- DIE_CTL_ERR_ADDR_HI, offset 0x11C (R443)
def DIE_CTL_ERR_ADDR_HI_ADDR : Fld := ⟨0, 0x11C, 0, 16, 0, false⟩

end Sys2Proof.Machine
end

