-- ==== Sys2Proof/Machine/State.lean ====
section
/-!
DEFINITION. The state of the device as plain data: every register, memory, queue, counter, mode and pin the manual
gives it, one structure for each subsystem, the queue of commands that wait, and the state at reset (R388).
A structure's field defaults are its reset values. Fields that are the model's own, and no state of the manual's, say so.
-/
namespace Sys2Proof.Machine

/-- Why a run stops with a fault. No meaning of this model raises one: every command of the table has an effect, and an
access that fails answers with the status the manual gives it. The type is kept for the host's interface (safe). -/
inductive Fault where
  /-- Raised by nothing. -/
  | unreachable
  deriving DecidableEq, Repr

/-- Why a command has no meaning. -/
inductive Refusal where
  /-- The command has no meaning yet (safe: nothing can be proved of it). -/
  | notModelled (mnemonic : String)
  deriving DecidableEq, Repr

/-- What leaves the device: a message-signalled write, a flit on a die's Oliner port, a frame, a transaction on a field
bus, a PCIe packet, or a change of a pin. The arguments are in the order the emitting meaning gives. -/
inductive Msg where
  | msi (addr data : Nat)
  | flit (die kind : Nat) (args : List Nat)
  | eth (die port : Nat) (bytes : List Nat)
  | can (channel buf : Nat) (words : List Nat)
  | field (bus : String) (unit : Nat) (args : List Nat)
  | pcie (die kind : Nat) (args : List Nat)
  | pin (name : String) (level : Nat)
  deriving DecidableEq, Repr

/-- A slice of the frame program that is due or running (R47, R48): where it stands in the schedule, the units it names,
the tick of the frame it was scheduled in, the sample edges passed since its own tick began, and what has happened. -/
structure SliceRun where
  die     : Nat
  idx     : Nat
  kind    : Nat
  tick    : Nat
  units   : List Nat
  edges   : Nat := 0
  started : Bool := false
  late    : Bool := false
  deriving DecidableEq, Repr

/-- A recovery branch (R52): the failed slice's die, phase and units, the recovery slice it starts at, the tick count before which it does not
start (R192), the tick count at its branch edge once that has come, and whether its last slice has ended. -/
structure Branch where
  die   : Nat
  first : Nat
  phase : Nat
  units : List Nat
  edge  : Nat := 0
  base  : Option Nat := none
  left  : List Nat := []
  done  : Bool := false
  deriving DecidableEq, Repr

/-- Writes accepted and not yet in force (R39): the value that takes effect at the next boundary, and, where a write came in the rc of that
boundary, the one that takes effect at the boundary after it. -/
structure TickPend where
  now  : Option Nat := none
  late : Option Nat := none
  deriving DecidableEq, Repr

/-- Chorus (chapter 2): device time and its fraction in 1/3,000,000 ns, the time of the latest sample edge, the slew of
802.1AS, the pending tick-layout writes, the follower's lock (R57), and the frame program's slices and branches. -/
structure ChorusSt where
  time     : Nat := 0
  frac     : Nat := 0
  edgeTime : Nat := 0
  /-- Slew of device time in parts per million, within ±200 (R54). -/
  slewPpm  : Int := 0
  /-- Ticks begun since reset; the model's own count, from which recovery ticks are measured. -/
  tickNo   : Nat := 0
  pendPeriod : TickPend := {}
  pendFrame  : TickPend := {}
  pendWin    : TickPend := {}
  /-- Lengthening of the current tick in rc (R55, R57), −16 to 16. -/
  adjust   : Int := 0
  /-- Per-tick adjustments of the last 64 ticks, newest first (R57). -/
  adjHist  : List Int := []
  /-- Fraction of the held rate carried from tick to tick, in 1/64 rc. -/
  adjCarry : Int := 0
  /-- Ticks in a row whose offset lay within 30 rc (R57). -/
  within   : Nat := 0
  /-- Tick sources missed in a row (R57). -/
  missed   : Nat := 0
  /-- A source sample was taken since the last sample edge. -/
  seen     : Bool := false
  /-- Measured Oliner link delay in ns (R56). -/
  linkDelay : Nat := 0
  /-- Device time of the source's sample edge that the latest tick flit carried (R56). -/
  srcTime   : Option Nat := none
  /-- The next sample edge becomes a frame boundary: the source's frame position is adopted there (R57). -/
  adopt    : Option Nat := none
  /-- The next sample edge is the first after ready (R43). -/
  firstEdge : Bool := true
  slices   : List SliceRun := []
  branches : List Branch := []
  /-- Schedule memory (R44): 32-bit words, at die × 2^20 + offset ÷ 4. -/
  sched    : SMap Nat := []
  /-- The groups whose entries Eft has copied into each die's schedule memory, in order (R185). -/
  groups   : SMap (List Nat) := []
  /-- Sync objects reserved for job 0 (R217). -/
  syncRsv  : List Nat := []
  deriving DecidableEq, Repr

/-- The state of an ECC word with an error in it (R67). -/
structure EccErr where
  ue   : Bool
  bit  : Nat
  syn  : Nat
  flip : Nat
  deriving DecidableEq, Repr

/-- Memory errors, the fix queues, the shared-port queues and the modes of chapter 3. -/
structure PondSt where
  /-- Words in error, by address in units of 8 bytes. -/
  ecc    : SMap (Option EccErr) := []
  /-- Errors on LP5X's wires that the next transfer of a word meets (R80). -/
  link   : SMap (Option EccErr) := []
  /-- Status of a store access that failed for a reflex unit within the present command, which ends its slice (R65); none between commands. -/
  failed : Option Nat := none
  /-- The fix queue of each die, oldest first, at most 16 word addresses (R68). -/
  fixq   : SMap (List Nat) := []
  /-- Shared-port queues, by die × 64 + column, oldest first: whether each entry is FIXED (R61, R233). -/
  queue  : SMap (List Bool) := []
  /-- Requests held at their own ports until a queue entry frees (R61), in arrival order. -/
  waiting : List Req := []
  /-- Repair-log entries applied at the start (R75). -/
  repairs : List Nat := []
  /-- Lines of the current scrub burst left over at a window's end (R73), per die. -/
  scrubLeft : SMap Nat := []
  /-- Next line of the patrol pass, per die and sub-channel: die × 4 + sub-channel (R82). -/
  patrol : SMap Nat := []
  /-- The wipe of the installed LP5X has finished (R84). -/
  lpWiped : Bool := false
  deriving DecidableEq, Repr

/-- A cached translation (R93): the cache of unit `unit` (a MASTER code below 0x50) of a die, the job, the page's first
virtual address, the page size as a power of two, the physical page, the rights, and whether it is pinned to job 0. -/
structure Tlb where
  die  : Nat
  unit : Nat
  job  : Nat
  va   : Nat
  log2 : Nat
  pa   : Nat
  rd   : Bool
  wr   : Bool
  pin  : Bool
  deriving DecidableEq, Repr

/-- An entry of a die's walker cache (R93): the job, the level, the table's virtual range start, and the 64-bit entry. -/
structure WalkEnt where
  die   : Nat
  job   : Nat
  level : Nat
  va    : Nat
  entry : Nat
  deriving DecidableEq, Repr

/-- How far a translation fault has come (R103): returned by the walker, parked, its record waiting for a full queue, or
its record written. -/
inductive FaultStage where
  | raised | parked | waiting | recorded | closing
  deriving DecidableEq, Repr

/-- A fault in flight (R103 to R107): everything its record carries (R105) and how far it has come. -/
structure XFault where
  die    : Nat
  unit   : Nat
  job    : Nat
  kind   : Nat
  write  : Bool
  dma    : Bool
  heldCore : Bool
  terminal : Bool
  slot   : Nat
  va     : Nat
  ring   : Nat
  entry  : Nat
  desc   : List Nat
  id     : Nat
  owner  : Nat
  queue  : Nat
  time   : Nat
  stage  : FaultStage
  deriving DecidableEq, Repr

/-- Translation and DMA (chapter 4). -/
structure XlateSt where
  tlb    : List Tlb := []
  walk   : List WalkEnt := []
  faults : List XFault := []
  nextId : Nat := 0
  /-- The invalidation in progress: job, first virtual address, bytes (R94). -/
  inval  : Option (Nat × Nat × Nat) := none
  /-- Descriptors in progress, by die × 16 + engine: what they work for, the ring entry, and the sixteen words. -/
  dma    : SMap (Option (Option Work × Nat × List Nat)) := []
  deriving DecidableEq, Repr

/-- Rows left in a core's accumulators for the linked gate command that follows (R125, R128): the matrix command's words,
its rows of FP32 patterns, and what it worked for. -/
structure AccRows where
  words : List Nat
  rows  : List (List Nat)
  work  : Work
  deriving DecidableEq, Repr

/-- A pad-slot pool's slot (R137, R138): FREE (0), USED (1) or RETIRED (2); the physical address of the page-table entry
that names it, the tag of its retirement, when it was last selected, the job and die it belongs to, the virtual address of the first
entry of its layer and head with PAD_CAP, its pad index, the first of the four reference objects, and whether it holds half of a
BF16 pad, whose two slots carry the same record. -/
structure PadSlot where
  st    : Nat := 0
  entry : Nat := 0
  tag   : Nat := 0
  stamp : Nat := 0
  job   : Nat := 0
  base  : Nat := 0
  cap   : Nat := 0
  idx   : Nat := 0
  ref   : Nat := 0
  /-- The table's LP5X_VA. -/
  lp    : Nat := 0
  wide  : Bool := false
  deriving DecidableEq, Repr

/-- A pad mover's work (R148): the home core and slot, whether it fills the slot or empties it, what it works for, the
pad's copy in LP5X by virtual address, the page-table entry and the value it holds meanwhile. -/
structure PadMove where
  core    : Nat
  slot    : Nat
  promote : Bool
  work    : Work
  va      : Nat
  entry   : Nat
  value   : Nat
  deriving DecidableEq, Repr

/-- A promotion or an opening of a new tail that waits for an eviction to free its slot, or for its own pad's eviction to end (R148): the home core,
what it works for, the entry's physical address, the table's LP5X_VA, and what the slot's record will hold. -/
structure PadWant where
  core  : Nat
  work  : Work
  entry : Nat
  lp    : Nat
  base  : Nat
  cap   : Nat
  idx   : Nat
  ref   : Nat
  wide  : Bool
  opens : Bool
  deriving DecidableEq, Repr

/-- The partial of one query head (R153): the maximum logit, the sum, and the weighted values, as FP32 patterns. -/
structure Partial where
  m : Nat
  l : Nat
  o : List Nat
  deriving DecidableEq, Repr

/-- A selected pad of a row: key-value head, pad index, the entry as selected, whether it is of the recent set,
whether the row waits for its promotion, and whether it has counted as REREAD (R151). -/
structure PadSel where
  head   : Nat
  pad    : Nat
  entry  : Nat
  recent : Bool
  wait   : Bool
  reread : Bool := false
  deriving DecidableEq, Repr

/-- How far a row of an attention command has come. -/
inductive RowStage where
  /-- Waits for a slot or a promotion of its tail pads before it appends. -/
  | append
  /-- Has selected its pads and waits for promotions. -/
  | wait
  /-- Its cores' partials are formed and merge. -/
  | merge
  /-- Ended. -/
  | ended
  deriving DecidableEq, Repr

/-- A row of an attention command (R158): its page table, key and value address and position, the snapshot with
whether its reference is held, the pads selected, the report's counts (R160), promotions started by head (R147), and the
partials by level × 256 + node with whether each has reached the level above, `none` in a head's place for EMPTY. -/
structure AttRow where
  idx    : Nat
  table  : Nat
  kv     : Nat
  pos    : Nat
  stage  : RowStage := .append
  status : Nat := 0
  snap   : Nat := 0
  took   : Bool := false
  sel    : List PadSel := []
  selected : Nat := 0
  subs   : Nat := 0
  drops  : Nat := 0
  reread : Nat := 0
  promoted : Nat := 0
  waited : Nat := 0
  promos : SMap Nat := []
  /-- The entries of the pads that the selection network chose, by physical address (R146, R148). -/
  chosen : List Nat := []
  /-- A pad put in another's place has an entry that R140 refuses. -/
  broken : Bool := false
  parts  : List (Nat × Bool × List (Option Partial)) := []
  deriving DecidableEq, Repr

/-- An attention command in flight: its lead core (the first of its issue), its words, its rows, and the group and
sequence value it takes with MERGE_SCOPE 3. -/
structure AttCmd where
  issue : Issue
  words : List Nat
  rows  : List AttRow
  coll  : Option (Nat × Nat) := none
  deriving DecidableEq, Repr

/-- Attention and the pad cache (chapter 6): slots by global core × 128 + index, moves in progress, commands in flight,
and a count of selections, which orders slots by last use. -/
structure AttSt where
  slots : SMap PadSlot := []
  moves : List PadMove := []
  wants : List PadWant := []
  cmds  : List AttCmd := []
  count : Nat := 0
  deriving DecidableEq, Repr

/-- A recurrent chunk in flight on a group (R173): its issue, words, the cores that have arrived at the start barrier with
the status and reason of their checks, whether it runs, and the steps done. -/
structure Chunk where
  /-- A core of the group. -/
  head    : Nat := 0
  issue   : Issue
  words   : List Nat
  arrived : List (Nat × Nat × Nat) := []
  running : Bool := false
  step    : Nat := 0
  /-- Anchor steps run in this chunk (R178). -/
  anchors : Nat := 0
  /-- Each core's weight slice in its stationary store (R167), by core, and its vector V. -/
  weights : List (Nat × Nat × Nat × Nat) := []
  deriving DecidableEq, Repr

/-- One core's part in an open collective (R186): the core, its issue and words, the tick its deadline counts from
(R191), and the 32-bit words of its input. -/
structure CollPart where
  core  : Nat
  issue : Issue
  words : List Nat
  tick  : Nat
  data  : List Nat
  deriving DecidableEq, Repr

/-- A contribution of another member (R189): group, sequence value, the member's device ID, KIND, UNITS and ROWS, and its
data: FP32 words of its tree for SUM and NORM, one `(offset, words)` list per core for GATHER, values for BARRIER. -/
structure Contribution where
  group : Nat
  seq   : Nat
  dev   : Nat
  kind  : Nat
  units : Nat
  rows  : Nat
  data  : List (Nat × List Nat)
  deriving DecidableEq, Repr

/-- An open collective of this device (R189): its scope (a group's number, or 1,024 + die for a die-local one), its
sequence value, the other members' IDs, the parts and contributions that have come, the lead core of the attention
command it stands for, if it is one, and, once a notice has ended it before all its cores have issued it, the status it
ended with and that tick: cores that issue it before its deadline end with the same status (R192). -/
structure Coll where
  scope   : Nat
  seq     : Nat
  members : List Nat
  parts   : List CollPart
  remote  : List Contribution := []
  attn    : Option Nat := none
  dead    : Option (Nat × Nat) := none
  deriving DecidableEq, Repr

/-- A collective or attention command held at issue while four are open in its group (R189): its opcode, issue, words, and
the host's writes of CUR_EPOCH that race it. -/
structure HeldColl where
  opcode : Nat
  issue  : Issue
  words  : List Nat
  raced  : List (List Nat)
  deriving DecidableEq, Repr

/-- An entry of a die's segment queue (R197). -/
structure Segment where
  seq    : Nat
  tag    : Nat
  commit : Bool
  cancelled : Bool := false
  first  : Nat
  wps    : Nat
  joints : Nat
  tStart : Nat
  dt     : Nat
  obs    : Nat
  pos    : List Nat
  /-- Joints of the entry that have a later committed entry in use (R316). -/
  passed : List Nat := []
  /-- Its place in the pool, its check's result (R277: 0 UNCHECKED, 1 FREE, 2 BLOCKED) with the epoch, and whether a PLAN has
  taken it (R279). -/
  slot   : Nat := 0
  result : Nat := 0
  epoch  : Nat := 0
  taken  : Bool := false
  deriving DecidableEq, Repr

/-- A resolve that takes effect at the next sample edge (R199): its tag, action (true: cancel), dies, the entries written
before it was issued, by die and SEQ, and the core whose completion reports the count. -/
structure ResolveReq where
  tag    : Nat
  cancel : Bool
  dies   : List Nat
  /-- Segments written on each die when the resolve was issued: (die, SEQ). -/
  segs   : List (Nat × Nat)
  core   : Nat
  deriving DecidableEq, Repr

/-- Collectives and segments (chapter 8). -/
structure CollSt where
  /-- Next sequence value by scope. -/
  seq    : SMap Nat := []
  active : List Coll := []
  held   : List HeldColl := []
  /-- Contributions that came before their collective was issued here. -/
  early  : List Contribution := []
  /-- Abandon notices for collectives not issued yet: group, sequence value, status (R192). -/
  notices : List (Nat × Nat × Nat) := []
  /-- Collectives abandoned here, by scope and sequence value. -/
  gone   : List (Nat × Nat) := []
  /-- Segment queues by die, in ascending order of SEQ, and the next SEQ. -/
  segs   : SMap (List Segment) := []
  segSeq : SMap Nat := []
  resolves : List ResolveReq := []
  deriving DecidableEq, Repr

/-- A ring context (R206, R29): state (0 DISABLED, 1 ENABLED, 2 STOPPED), job, pointers and their wraps, the descriptor
read at ENABLE, completion records held for a full queue, and whether intake has stopped because its job ends. -/
structure Ring where
  state  : Nat := 0
  job    : Nat := 0
  head   : Nat := 0
  tail   : Nat := 0
  wrap   : Nat := 0
  cqHead : Nat := 0
  cqTail : Nat := 0
  desc   : List Nat := []
  held   : List (List Nat) := []
  /-- The entry at HEAD has been fetched (DISPATCH_AUDIT). -/
  fetched : Bool := false
  /-- Sample edges the kernel at HEAD has waited for its first command's sync object (R216). -/
  waitTicks : Nat := 0
  deriving DecidableEq, Repr

/-- A kernel that runs on a set of global cores (R208, R222): its ring, the command it has come to, the bound of its
KBEGIN, the sample edges passed since it started, and whether it is lent a reserved core. -/
structure Kernel where
  ring   : Nat
  cores  : List Nat
  entry  : Nat
  fcBound : Nat
  ticks  : Nat
  lent   : Bool
  /-- Accumulator rows that a parked kernel's cores hold for its next gate command, by core. -/
  links  : List (Nat × AccRows) := []
  /-- rc of the tick in which it was dispatched, and that tick's number (R220). -/
  startRc   : Nat
  startTick : Nat
  deriving DecidableEq, Repr

/-- A job's row (R218): its state (0 FREE, 1 ACTIVE, 2 HELD, 3 DRAINING, 4 ENDING, 5 COMPLETE, 6 ENDED) and client. -/
structure Job where
  state  : Nat := 0
  client : Nat := 0
  deriving DecidableEq, Repr

/-- A command that runs or has run on a core and has not ended yet (R207): where it came from, the entry of its ring or
slice, its opcode and header, and what it has reported so far. -/
structure CoreCmd where
  work   : Work
  entry  : Nat
  opcode : Nat
  header : Nat
  cores  : List Nat
  status : Nat := 0
  flags  : Nat := 0
  reason : Nat := 0
  count  : Nat := 0
  /-- Ranges the command has written: what a stop leaves undefined (R220). -/
  wrote  : List (Nat × Nat) := []
  ended  : Bool := false
  deriving DecidableEq, Repr

/-- Rings, jobs and sync objects (chapter 9). -/
structure DispSt where
  rings   : SMap Ring := []
  jobs    : SMap Job := []
  kernels : List Kernel := []
  /-- Wait slots of rings, at ring × 8 + slot, and of cores for frame-program lists, at core × 8 + slot (R209). -/
  slots     : SMap Nat := []
  coreSlots : SMap Nat := []
  /-- Sync objects: 64-bit counters by global index (R215). -/
  sync    : SMap Nat := []
  /-- Waits of commands that hold their cores: the object, the value and the lowest core (R225). -/
  waits   : List (Nat × Nat × Nat) := []
  /-- The command each global core works on. -/
  cmds    : SMap (Option CoreCmd) := []
  /-- The ring each core served last at each priority, at core × 4 + PRIO, plus 1 (R222). -/
  lastRing : SMap Nat := []
  /-- Kernels to be resumed after a park, by global core (R104): the ring, and the save slot that is reloaded as the kernel starts. -/
  resumed : List (Nat × Nat × Nat) := []
  /-- Kernels that have parked, as they stood. -/
  parked  : List Kernel := []
  /-- Gang claims granted and waiting for their cores: the ring (R222). -/
  claims  : List Nat := []
  /-- Model copies in progress: ring, MODEL_ID, cores (R223). -/
  loads   : List (Nat × Nat × List Nat) := []
  deriving DecidableEq, Repr

/-- Regulation (chapter 10): outstanding transactions by (die × 256 + port) × 16 + class, and requests held over budget
in arrival order. -/
structure RegulSt where
  count : SMap Nat := []
  held  : List Req := []
  /-- Requests of DMA engines to other devices that their ports have let go within this command. -/
  sent  : List Req := []
  deriving DecidableEq, Repr

/-- A camera frame that is arriving (R238, R242, R247): the stream's CFG, CHK and RECT words at its frame start, its number
and timestamp, whether a check has made it bad, its lines as unpacked pixels, and the rectified output so far: bytes with their
offsets in the observation buffer. -/
structure Frame where
  cfg   : Nat
  chk   : Nat
  rect  : Nat
  num   : Nat
  time  : Nat
  bad   : Bool := false
  lines : List (List Nat) := []
  out   : List (Nat × Nat) := []
  deriving DecidableEq, Repr

/-- A stream's history (R242, R244): last counter and timestamp, the CRCs kept, newest first, bad frames and repeats in a
row, ticks since an accepted one, whether one was accepted in this tick, when the last accepted one arrived, the time of the latest data-ready edge, the newest
accepted timestamp, and the frame that is arriving. -/
structure Stream where
  cnt   : Option Nat := none
  last  : Option Nat := none
  crcs  : List Nat := []
  bads  : Nat := 0
  reps  : Nat := 0
  ticks : Nat := 0
  acc   : Bool := false
  came  : Option Nat := none
  ready : Option Nat := none
  newest : Option Nat := none
  frame : Option Frame := none
  deriving DecidableEq, Repr

/-- A sample for the ego-motion filter (R251, R254): its source (0–3 IMU, 4 odometry), timestamp, raw values (gyro and
accelerometer, or four counts), and whether no record has applied it yet. -/
structure EgoSample where
  src  : Nat
  time : Nat
  vals : List Nat
  new  : Bool := true
  deriving DecidableEq, Repr

/-- A track (R256): generation, state (0 FREE, 1 TENTATIVE, 2 CONFIRMED, 3 COASTING), hits, misses, frames since birth,
class, TOV, AGE, position, velocity and variances as FP32 patterns, sector, epoch, and whether it was paired in this
frame. -/
structure Track where
  gen    : Nat := 0
  st     : Nat := 0
  hits   : Nat := 0
  misses : Nat := 0
  frames : Nat := 0
  cls    : Nat := 0
  tov    : Nat := 0
  age    : Nat := 0
  vals   : List Nat := []
  sector : Nat := 0
  epoch  : Nat := 0
  paired : Bool := false
  /-- Published with the doubt bit (R260). -/
  doubt  : Bool := false
  deriving DecidableEq, Repr

/-- A cross-check pair's run-time (R257): failing and passing frames in a row, which streams it disputes (bit 0 A, bit 1
B), and the sectors it holds. -/
structure PairRun where
  fails  : Nat := 0
  passes : Nat := 0
  side   : Nat := 0
  held   : Nat := 0
  deriving DecidableEq, Repr

/-- A level and how many frame ends in a row its better levels' conditions have held (R258): at most F0, at most F1. -/
structure LevelRun where
  lvl  : Nat := 0
  run0 : Nat := 0
  run1 : Nat := 0
  deriving DecidableEq, Repr

/-- What a die's fusion unit has found for its next contribution (R245): map-cell hits (cell, modality) and NEAR values by
stream × 16 + sector. -/
structure FusePart where
  hits : List (Nat × Nat) := []
  near : List (Nat × Nat) := []
  deriving DecidableEq, Repr

/-- Ingest and fusion (chapter 11). -/
structure FusionSt where
  /-- Streams by global number. -/
  streams : SMap Stream := []
  /-- Contributions being gathered on dies 1 to 3, and those that have arrived for this tick. -/
  parts   : SMap FusePart := []
  arrived : SMap (Option (FusePart × List Detection)) := []
  /-- The merge of this tick has begun (R245). -/
  merged  : Bool := false
  /-- NEAR (R250) by stream × 16 + sector. -/
  near    : SMap Nat := []
  /-- The ego-motion filter's values (R251, R252) as FP32 patterns: position, velocity, attitude quaternion, angular rate,
  gyro bias, accelerometer bias, covariance diagonal. -/
  ego     : List Nat := []
  /-- The filter at the last eight sample edges, newest first, and the samples it may still apply (R254). -/
  snaps   : List (Nat × List Nat) := []
  inputs  : List EgoSample := []
  egoTov  : Nat := 0
  egoAge  : Nat := 0
  /-- The next of the eight record slots (R252). -/
  slot    : Nat := 0
  /-- Newest accepted IMU values by IMU, and the disputes' runs by source: ticks outside and inside the gate (R251). -/
  imu     : SMap (List Nat) := []
  outRun  : SMap Nat := []
  inRun   : SMap Nat := []
  /-- Sample edges in a row without a counting IMU (R251). -/
  noImu   : Nat := 0
  /-- Late samples applied in this frame (R261). -/
  late    : Nat := 0
  tracks  : SMap Track := []
  /-- The detection queue (R255), oldest first. -/
  dets    : List Detection := []
  pairs   : SMap PairRun := []
  sectors : SMap LevelRun := []
  device  : LevelRun := {}
  /-- The observation buffer that is being filled (R24): 0 or 1. -/
  fill    : Nat := 0
  /-- Dies whose copy of the buffer being filled a write has missed (R261), and the timestamp of the last frame rectified into the buffers, plus 1, by
  stream. -/
  obsFail : List Nat := []
  planes  : SMap Nat := []
  /-- Base position, in cells, of the voxel window at the last edge (R249). -/
  cellX   : Int := 0
  cellY   : Int := 0
  deriving DecidableEq, Repr

/-- An edge or a segment's interval that a CHECK deals to a checker (R276, R277): for an edge its index; for a segment its SEQ
and the interval. -/
structure CheckItem where
  seg  : Bool
  edge : Nat
  k    : Nat
  deriving DecidableEq, Repr

/-- A segment that a CHECK checks: SEQ, intervals left, and the lowest blocked one with its cause. -/
structure SegCheck where
  seq  : Nat
  left : Nat
  hit  : Option (Nat × Nat) := none
  deriving DecidableEq, Repr

/-- A CHECK in flight on a die (R276): its slice, the checkers it may use, what waits, what each checker works on, the epoch
at its start, and its segments. -/
structure CheckRun where
  slice    : Nat
  checkers : List Nat
  queue    : List CheckItem
  busy     : List (Nat × CheckItem) := []
  epoch    : Nat
  segs     : List SegCheck := []
  deriving DecidableEq, Repr

/-- A prepared UPDATE (R270): its slice, the new records (type, index, 48 bytes), the tracks it imports with their TOV, how many it suppresses,
where the next import starts, and the edges it invalidates; none where they are more than 4,096. -/
structure WorldPrep where
  slice   : Nat
  records : List (Nat × Nat × Nat)
  tracks  : List (Nat × Nat)
  skipped : Nat := 0
  next    : Option Nat := none
  edges   : Option (List Nat)
  deriving DecidableEq, Repr

/-- A slot's search (R279): whether it has been started, its open list (key, node) in ascending order of key, and the nodes to
be revisited at the next PLAN. -/
structure PlanSearch where
  live  : Bool := false
  queue : List (Nat × Nat) := []
  dirty : List Nat := []
  deriving DecidableEq, Repr

/-- Collision checking and planning (chapter 12): CHECKs in flight by die + 4 × slice, prepared UPDATEs by die, searches by die × 8 +
slot. -/
structure CollideSt where
  checks : SMap (Option CheckRun) := []
  prep   : SMap (Option WorldPrep) := []
  search : SMap PlanSearch := []
  /-- How often a slot's PUBLISHED has been written with a different value (R302). -/
  pubs   : SMap Nat := []
  /-- TOV of each track at its last import, plus 1, and where the next import starts (R271). -/
  trackTov  : SMap Nat := []
  trackNext : Nat := 0
  deriving DecidableEq, Repr

/-- A solve in progress or partial (R299, R301): its program and slice, the values of its first command, the vectors and
scalars of its method (named by the method's own list), the best iterate, and the plan entry it captured (R302). -/
structure Solve where
  slice   : Nat
  bank    : Nat
  slot    : Option Nat
  iters   : Nat
  iterMax : Nat
  done    : Nat := 0
  cmdDone : Nat := 0
  rtol    : Nat
  atol    : Nat
  factor  : Nat
  warm    : Nat
  rho     : Nat := 0
  rho0    : Nat := 0
  best    : Nat := 0
  x       : List Nat := []
  bestX   : List Nat := []
  vecs    : List (List Nat) := []
  scalars : List Nat := []
  /-- The captured plan entry: PUBLISHED, how often it had been written, TAG, stamp. -/
  capture : Option (Nat × Nat × Nat × Nat) := none
  /-- Sample edge of the tick in which iteration 0 ran. -/
  time    : Nat := 0
  /-- The values and the right side of its bank as they stood at its start (R289). -/
  seen    : List Nat := []
  running : Bool := true
  deriving DecidableEq, Repr

/-- A refresh in progress on a die's engines (R295): program, slice, bank, the
position it started from, and when, in rc of its slice. -/
structure Refresh where
  prog  : Nat
  slice : Nat
  bank  : Nat
  pos   : Nat
  start : Nat
  deriving DecidableEq, Repr

/-- The solver engines (chapter 13): solves and refreshes by die × 16 + program. -/
structure SolveSt where
  solves  : SMap (Option Solve) := []
  refresh : SMap (Option Refresh) := []
  /-- What a refresh's bank held where the preconditioner reads, when it started from position 0 (R289). -/
  refSeen : SMap (List Nat) := []
  deriving DecidableEq, Repr

/-- A loop slot's run-time values (R311 to R319): set-point, its rate and the feedback of its last run, the state-space inputs,
*e*i, the outputs before and after injection, the applied value of its channel, the value held by a HOLD entry, whether it runs
in this tick, whether its ramp runs, and the biquad's stage inputs and outputs. Integers are signed 32-bit. -/
structure Loop where
  sp    : Int := 0
  rate  : Int := 0
  fb    : Int := 0
  used  : Int := 0
  w     : List Int := []
  ei    : Int := 0
  u     : List Int := []
  outs  : List Int := []
  inj   : Int := 0
  grp   : Int := 0
  held  : Option (Nat × Int) := none
  due   : Bool := false
  ramp  : Bool := false
  bq    : List (Int × Int) := []
  deriving DecidableEq, Repr

/-- A change of a slot that waits for the next sample edge (R325). -/
inductive SlotChange where
  | enable (slot : Nat) (on : Bool)
  | load (slot : Nat) (keep : Bool) (image : List Nat)
  deriving DecidableEq, Repr

/-- A die's test generator and capture unit (R327, R328): whether each is armed from the next edge or runs, the runs done, phase,
shift register and output of the PRBS, and the runs captured. -/
structure TestRun where
  armed : Bool := false
  on    : Bool := false
  k     : Nat := 0
  phase : Nat := 0
  lfsr  : Nat := 0x7FFF
  capOn : Bool := false
  capK  : Nat := 0
  deriving DecidableEq, Repr

/-- The control engines (chapter 14): slots by die × 128 + slot, changes that wait, outputs that wait for their marks (channel,
mark, and the limited value, none for a channel driven towards SAFE), test units, and the order in which stream entries were written, by
(die × 16 + stream) × 4 + entry. -/
structure ControlSt where
  loops : SMap Loop := []
  pend  : SMap (List SlotChange) := []
  outs  : SMap (List (Nat × Nat × Option Int)) := []
  test  : SMap TestRun := []
  order : SMap Nat := []
  orderNext : Nat := 1
  deriving DecidableEq, Repr

/-- A safety island's own state (chapter 15), for island 0 (die 0) and island 1 (die 1). -/
structure Island where
  /-- The island has stopped: its comparator found a mismatch (R332). -/
  stopped    : Bool := false
  /-- The island commands its switches on both safe-state outputs closed (R334). -/
  closed     : Bool := false
  /-- Sample edges since the Tail entered STOPPING (R338). -/
  stopTicks  : Nat := 0
  /-- Low samples of ESTOP_N in a row, and whether the input reads low (R335). -/
  estopLow   : Nat := 0
  /-- Sample edges in START or RECOVER without the fresh run of R346, and healthy ticks in a row. -/
  startTicks : Nat := 0
  freshTicks : Nat := 0
  /-- The verdict record written in this tick's safety window, and the one received from the other island (R333). -/
  verdict    : List Nat := []
  received   : Option (List Nat) := none
  /-- The first key of a resume sequence has been written (R344); a resume is accepted at the next edge. -/
  keyed      : Bool := false
  resume     : Bool := false
  /-- Consecutive misses of each watchdog (R349). -/
  misses     : SMap Nat := []
  /-- A golden frame has run in this tick (R351). -/
  golden     : Bool := false
  /-- Causes latched since the island's last verdict record, as CAUSES has them, and those of the record now compared (R333). -/
  just       : Nat := 0
  excused    : Nat := 0
  deriving DecidableEq, Repr

/-- Safety (chapter 15). -/
structure SafetySt where
  isl0 : Island := {}
  isl1 : Island := {}
  /-- Kicks of this tick (R348): die, stage, unit and rc. -/
  kicks : List (Nat × Nat × Nat × Nat) := []
  /-- Latest result time (R348) by (die × 8 + stage) × 65,536 + unit, plus 1; 0 where there is none. -/
  results : SMap Nat := []
  deriving DecidableEq, Repr

/-- A lane of a self-test engine (R357 to R360): the item's 16 bytes as words, its place in the sequence (none for a manual item),
whether it saves its region, and whether it restores it. -/
structure Lane where
  item    : List Nat
  pos     : Option Nat
  save    : Bool
  restore : Bool := false
  deriving DecidableEq, Repr

/-- A self-test engine (chapter 16): the sequence of items loaded from the image, its lanes, a manual item that waits, with SAVE,
whether it runs outside the test window with the islands' MODE before it, whether it has recorded failures or was aborted, and the
fail queue, oldest first, as records of four words. -/
structure SelfTest where
  seq    : List (List Nat) := []
  lanes  : SMap (Option Lane) := []
  manual : Option (List Nat × Bool) := none
  mode   : Option Nat := none
  result : Nat := 0
  queue  : List (List Nat) := []
  /-- The position to which an abort of this window has set the sequence back (R358). -/
  back   : Option Nat := none
  deriving DecidableEq, Repr

/-- A temperature sensor (R373, R375): its latest reading in quarters of a degree (16-bit two's complement), none before its first
conversion; conversions in a row with that code, whether another sensor of its die has changed in that time, and whether it is
excluded. -/
structure Sensor where
  code : Option Nat := none
  same : Nat := 0
  moved : Bool := false
  excl : Bool := false
  deriving DecidableEq, Repr

/-- A die's operating point in Bask (R370 to R374): the grants for phases to come, by the phase's first tick; a raise that was late
(R371); a lowering that is due at the next edge (R372); when, in device ns, the thermal ceiling falls next in the present sequence of
hot edges and rises next in the present run of cool ones (R374); the voltage in force in mV; and whether the fabric clock is held for a
change. -/
structure BaskDie where
  coming : SMap (Option Nat) := []
  late   : Option Nat := none
  drop   : Option Nat := none
  hot    : Option Nat := none
  cool   : Option Nat := none
  volt   : Nat := 800
  held   : Bool := false
  deriving DecidableEq, Repr

/-- Bask (chapter 17): sensors by die × 128 + number; the dies; the power estimates of the present tick, each with the rc at which its
window ended (the device's and the four dies', in mW/4,096); the sums of each rail's estimates since the last calibration and their
number (R378); the tick average in mW/4,096 and consecutive ticks below 0.9 of the cap (R379); the classes parked, newest first; a cap
that waits for an edge; each die's planned voltage of each point by die × 8 + point; device time of ready and of the last ageing
measurement; and, for groups with SYNC_OP, the grants that members have sent and the last agreed point with the tick it is for
(R195). -/
structure BaskSt where
  sensors : SMap Sensor := []
  dies    : SMap BaskDie := []
  windows : List (Nat × List Nat) := []
  railSum : SMap Nat := []
  railWins : Nat := 0
  below   : Nat := 0
  parked  : List Nat := []
  cap     : TickPend := {}
  volts   : SMap Nat := []
  readyAt : Nat := 0
  aged    : Nat := 0
  grants  : List (Nat × Nat) := []
  agreed  : Option (Nat × Nat) := none
  deriving DecidableEq, Repr

/-- The fuses and the other contents that outlast a reset (R398 to R403): life-cycle state (R405's code; SERVICE is an odd number of
blown service fuses), the blown service fuses, the blown version fuses, the hashes of the manufacturing and owner keys and the image
key as numbers, whether a CLAIM was interrupted after its first key fuse, the fused secret, and the certificate's bytes. -/
structure Fuses where
  state   : Nat := 0
  service : Nat := 0
  version : Nat := 0
  mfgHash : Nat := 0
  owner   : Option Nat := none
  imageKey : Nat := 0
  broken  : Bool := false
  secret  : Nat := 0
  cert    : List Nat := []
  deriving DecidableEq, Repr

/-- A WEIGHTS section that loads (R397): its manifest entry, the source in use (0 or 1), and bytes received. -/
structure WeightLoad where
  idx  : Nat
  src  : Nat
  done : Nat := 0
  deriving DecidableEq, Repr

/-- Eft (chapter 18) and the inputs it starts from: the fuses; the flash, whose erased bytes are 0xFF, and the size that SFDP states; whether
a start has begun since reset, and is held at step 1 for want of REFCLK (R470); the header (R393) and manifest entries (R394) of the image
being started, its digest and the repair-log area's; whether the sections of step 8 have loaded and whether device time has been stepped;
the WEIGHTS section that loads and the sections served to neighbours (R397), by manifest index; the memories of the islands and of
management by unit × 2^40 + offset; the flash command in progress (operation and address); the old value of FUSE_MIN while version fuses burn
(R398); and device time at reset release. -/
structure EftSt where
  fuses   : Fuses := {}
  flash   : SMap Nat := []
  flashSize : Nat := 0
  begun   : Bool := false
  held    : Bool := false
  header  : List Nat := []
  entries : List (List Nat) := []
  digest  : Nat := 0
  repair  : Nat := 0
  loaded  : Bool := false
  stepped : Bool := false
  weights : Option WeightLoad := none
  served  : List Nat := []
  island  : SMap Nat := []
  flashOp : Option (Nat × Nat) := none
  burn    : Option Nat := none
  released : Nat := 0
  deriving DecidableEq, Repr

/-- A port's MSI-X vectors (R413, R415): address, data, mask and pending bit of each of 64. -/
structure Msix where
  addr : Nat := 0
  data : Nat := 0
  mask : Bool := true
  pend : Bool := false
  deriving DecidableEq, Repr

/-- PCI Express (R413 to R415, R427): the MSI-X vectors of the ports of dies 0 and 2, by die × 64 + vector, and the operation of each die's mailbox that
runs or ran last. -/
structure PcieSt where
  msix : SMap Msix := []
  mbox : SMap Nat := []
  deriving DecidableEq, Repr

/-- A received CAN frame (R419, R429): receive time, format (0 classical, 1 FD, 2 XL), extended, identifier and data bytes. -/
structure CanFrame where
  time : Nat
  fmt  : Nat
  ext  : Bool
  id   : Nat
  data : List Nat
  deriving DecidableEq, Repr

/-- Field I/O of die 0 (R419 to R424, R429). -/
structure LsioSt where
  /-- Counts of the pulse inputs and the latest conversions of the analogue inputs, newest first. -/
  pulse  : SMap Nat := []
  conv   : SMap (List Nat) := []
  /-- Field receive words and output words. -/
  field  : SMap Nat := []
  out    : SMap Nat := []
  /-- CAN receive buffers by channel × 64 + filter; transmit bytes by (channel × 32 + buffer) × 2,048 + offset, their lengths, and
  the buffers queued. -/
  canRx  : SMap (Option CanFrame) := []
  canTx  : SMap Nat := []
  canLen : SMap Nat := []
  canQ   : List Nat := []
  /-- SPI buffers by (controller × 16 + slot) × 64 + byte, slots that wait by controller, in trigger order, and the one that runs. -/
  spiTx  : SMap Nat := []
  spiRx  : SMap Nat := []
  spiQ   : SMap (List Nat) := []
  spiRun : SMap (Option Nat) := []
  /-- FIFOs of the I²C controllers and the UARTs, oldest first. -/
  i2cTx  : SMap (List Nat) := []
  i2cRx  : SMap (List Nat) := []
  uartTx : SMap (List Nat) := []
  uartRx : SMap (List Nat) := []
  /-- Duty of each GPIO's PWM, in 1/65,536. -/
  pwm    : SMap Nat := []
  deriving DecidableEq, Repr

/-- An Oliner port (R406 to R411): the next SEQ it sends, the last it received in order, its replay buffer (SEQ, KIND and words of
each unacknowledged flit), the flits that wait for credits (KIND and words), the class served last, credits held by VC × 16 +
class, consecutive retries, whether it retrains, whether a VC0 flit came in this tick, misses and heartbeats in a row, what the
partner's latest heartbeat said (TAIL_ACTIVE, lock state and grant), and the requests that ended when the partner was lost. -/
structure OlPort where
  seqOut  : Nat := 0
  seqIn   : Nat := 4095
  replay  : List (Nat × Nat × List Nat) := []
  wait    : List (Nat × List Nat) := []
  last    : Nat := 15
  held    : SMap Nat := []
  retries : Nat := 0
  training : Bool := false
  seen    : Bool := false
  misses  : Nat := 0
  beats   : Nat := 0
  tail    : Bool := false
  lock    : Nat := 0
  grant   : Nat := 0
  dead    : List TagId := []
  deriving DecidableEq, Repr

/-- A request that waits for its answer over Oliner (R432): the port's die, the partner's ID, its identity, KIND (1 read, 3 write),
address, length, and the sample edges since it left. -/
structure RemoteReq where
  die   : Nat
  dev   : Nat
  tag   : TagId
  kind  : Nat
  addr  : Nat
  len   : Nat
  edges : Nat := 0
  deriving DecidableEq, Repr

/-- Oliner (chapter 19): the ports by die, and the requests that wait for answers. -/
structure OlinerSt where
  ports : SMap OlPort := []
  reqs  : List RemoteReq := []
  deriving DecidableEq, Repr

/-- The Ethernet ports (R418), by die × 2 + port: the gate control list in force, as words, and when its cycles start, in device ns. -/
structure EnetSt where
  gcl   : SMap (List Nat) := []
  start : SMap Nat := []
  deriving DecidableEq, Repr

/-- A remote sync add that no acknowledgement has resolved (R435): the sending die's port, the partner, the global
object there, the sequence number, the sample edges since it left, and whether it ended without an answer. -/
structure RemoteAdd where
  die     : Nat
  partner : Nat
  sync    : Nat
  seq     : Nat
  edges   : Nat := 0
  unresolved : Bool := false
  /-- The cores whose SYNC_ADD waits for the acknowledgement. -/
  cores   : List Nat := []
  deriving DecidableEq, Repr

/-- A unit that leaves service (R436, R438): its die, code and operation (0 reset, 1 disable), whether it retrains after its reset,
and whether the answer of a request issued through it has been lost since the FENCE. -/
structure Drain where
  die  : Nat
  unit : Nat
  op   : Nat
  retrain : Bool := false
  lost : Bool := false
  deriving DecidableEq, Repr

/-- Errors and recovery (chapter 20): tag generations and held-out tags by requester, epochs, fenced units (by die × 256
+ code), drains, remote adds and the remote-add queue. -/
structure ErrSt where
  /-- Generation of each tag, by (die × 256 + master) × 256 + tag (R433). -/
  gen    : SMap Nat := []
  /-- Tag epoch of each unit, by die × 256 + code (R436). -/
  epoch  : SMap Nat := []
  fenced : List Nat := []
  drains : List Drain := []
  radds  : List RemoteAdd := []
  /-- Remote-add queue of each die, oldest first: partner, object, sequence number, applied (R443). -/
  raddq  : SMap (List (Nat × Nat × Nat × Bool)) := []
  /-- Next sequence number a die's port gives a remote add, and the last one it applied (R435). -/
  raddSeq  : SMap Nat := []
  raddLast : SMap Nat := []
  /-- Adds that left the device or were lost at a bridge, and adds that came from other devices: what SYNC_AUDIT's comparison allows for (R225). -/
  addsOut : Nat := 0
  addsIn  : Nat := 0
  /-- Mismatches found since the last sample edge, and those of that edge's snapshot, still to be reported: die, block and
  offset (R439). -/
  mismatch : List (Nat × Nat × Nat) := []
  snap     : List (Nat × Nat × Nat) := []
  /-- Functions that software disabled and ENABLE returns (R438), by die × 256 + code. -/
  disabled : List Nat := []
  deriving DecidableEq, Repr

/-- Host cores (chapter 21): pending identities of the interrupt files, by ((die × 4 + hart) × 2 + level) × 256 +
identity with level 0 machine and 1 supervisor (R448); the stimecmp CSR of each hart and the timer interrupts pending, by hart × 2 +
level (R449); whether the harts have started, and where; and the bytes of the private caches (R29), the L1 instruction and data caches of 32 KiB
each by (die × 4 + hart) × 65,536 + byte, and the L2 caches of 512 KiB by (die × 4 + hart) × 524,288 + byte: no command of the table fills them. -/
structure HostSt where
  imsic : SMap Nat := []
  stimecmp : SMap Nat := []
  timer : SMap Nat := []
  started : Bool := false
  entry : Nat := 0
  l1 : SMap Nat := []
  l2 : SMap Nat := []
  deriving DecidableEq, Repr

/-- The debug port (chapter 21): the instruction register, the boundary register, what is halted, what waits for
its condition (R456), what halts at its next stopping point, what steps and what resumes at the next sample edge, by BDTM target or 0x10000 +
hart, the index of each target's next command, breakpoints by target × 4 + number, the status and data of the previous BDTM scan, the debug module's
registers, and the hart registers written since the hart halted, by hart × 65,536 + number. -/
structure DebugSt where
  ir      : Nat := 1
  bsr     : Nat := 0
  halted  : List Nat := []
  waiting : List Nat := []
  draining : List Nat := []
  steps   : List Nat := []
  resuming : List Nat := []
  pc      : SMap Nat := []
  bp      : SMap Nat := []
  last    : Nat × Nat := (0, 0)
  dm      : SMap Nat := []
  hregs   : SMap (Option Nat) := []
  deriving DecidableEq, Repr

/-- Everything of the device but the queue of commands. -/
structure Device where
  /-- Register fields, by `Fld.key`; an unlisted field reads its reset value (R7). -/
  regs : SMap Nat := []
  /-- Memory: the bytes of the 48-bit physical address space (R26); an unlisted byte reads 0. -/
  mem : List Host.Cell := []
  chorus : ChorusSt := {}
  pond   : PondSt := {}
  xlate  : XlateSt := {}
  disp   : DispSt := {}
  regul  : RegulSt := {}
  err    : ErrSt := {}
  /-- Register writes that take effect at the next sample edge, oldest first. -/
  edgeWrites : List (Fld × Nat × Nat) := []
  /-- What the latest access answered: status (the code space of R111) and data. The model's own. -/
  reply  : Nat × Nat := (0, 0)
  /-- What has left the device, oldest first. The model's own. -/
  out    : List Msg := []
  /-- How many free values have been drawn. The model's own. -/
  fresh  : Nat := 0
  safety : SafetySt := {}
  pcie   : PcieSt := {}
  host   : HostSt := {}
  /-- High halves latched by reads of their low halves (R58, R225, R353), by the key of the high register. -/
  latch  : SMap Nat := []
  /-- Accumulator rows waiting for a linked gate command, by global core. -/
  link   : SMap (Option AccRows) := []
  att    : AttSt := {}
  /-- Recurrent chunks in flight (chapter 7). -/
  chunks : List Chunk := []
  coll   : CollSt := {}
  fusion : FusionSt := {}
  collide : CollideSt := {}
  solve  : SolveSt := {}
  ctrl   : ControlSt := {}
  lsio   : LsioSt := {}
  oliner : OlinerSt := {}
  /-- Self-test engines by die. -/
  selfTest : SMap SelfTest := []
  bask : BaskSt := {}
  eft  : EftSt := {}
  probe : DebugSt := {}
  enet : EnetSt := {}
  /-- Requests to registers that have reached their blocks within the present command, oldest first; none remains at its end. -/
  regReqs : List Req := []
  deriving DecidableEq, Repr

/-- The registers whose reset value differs from die to die (R34, R134). -/
def Device.resetRegs : SMap Nat :=
  SMap.insAll
    ([(0, 1, 0xFFFFFFFF, 0xFFFFFFFF), (1, 0, 0xDBFFFFFF, 0xDBFFFFFF), (2, 0, 0xDFFFFFFF, 0xDFDFFFFF),
      (3, 0, 0xDBFFFFFF, 0xDBDFFFFF)].flatMap fun e =>
      [(DIE_CTL_ID_DIE.key e.1, e.1), (DIE_CTL_ID_LEAD.key e.1, e.2.1),
       (DIE_CTL_BLOCKS_PRESENT_PRESENT.key e.1, e.2.2.1), (DIE_CTL_BLOCKS_ACTIVE_ACTIVE.key e.1, e.2.2.2)] ++
      ((List.range 8).flatMap fun k => [((CLUSTER_ID_DIE k).key e.1, e.1), ((CLUSTER_ID_CLUSTER k).key e.1, k)]))
    []

/-- The state of the model: the device, and the commands that wait, first in, first out. -/
structure State where
  dev     : Device := {}
  pending : List Instr := []
  deriving DecidableEq, Repr

/-- The state right after a full-device reset (R388): every register at its reset value, memory as the shed wipe leaves
it (R79), no command waiting. -/
def State.reset : State := { dev := { regs := Device.resetRegs }, pending := [] }

end Sys2Proof.Machine
end

