-- ==== Sys2Proof/Machine/Ops.lean ====
section
/-!
DEFINITION. The named operations every meaning is built from: bit fields, register fields, raw memory, the address map,
bridge routes, message-signalled writes, the UNMAPPED, error and audit records, sync objects, the faults of the safety
islands and of fusion.
-/
namespace Sys2Proof.Machine

/-- The `w` bits of `v` from bit `lo` up. -/
def bits (v lo w : Nat) : Nat := v / 2 ^ lo % 2 ^ w

/-- Bit `i` of `v`. -/
def bit (v i : Nat) : Bool := v / 2 ^ i % 2 = 1

/-- `v` with its `w` bits from `lo` up replaced by those of `x`. -/
def setBits (v lo w x : Nat) : Nat := v - bits v lo w * 2 ^ lo + x % 2 ^ w * 2 ^ lo

/-- A flag as a number. -/
def b2n (b : Bool) : Nat := if b then 1 else 0

/-- The signed value of the `w`-bit two's-complement number `v`. -/
def sext (w v : Nat) : Int := if v % 2 ^ w < 2 ^ (w - 1) then (v % 2 ^ w : Nat) else (v % 2 ^ w : Nat) - (2 ^ w : Nat)

/-- The `w`-bit two's-complement pattern of `x`. -/
def wrapN (w : Nat) (x : Int) : Nat := (x % (2 ^ w : Nat)).toNat

/-! ### Status codes: the one code space of R111, R160, R173, R194, R214, R267, R298 and R431 -/

def stDONE : Nat := 0x00
def stUNMAPPED : Nat := 0x01
def stUNCORRECTABLE : Nat := 0x02
def stXLATE_FAULT : Nat := 0x03
def stLINK_LOST : Nat := 0x04
def stDEADLINE : Nat := 0x05
def stBAD_DESCRIPTOR : Nat := 0x06
def stFAULT_OVERFLOW : Nat := 0x07
def stFENCED : Nat := 0x08
def stEPOCH_STALE : Nat := 0x09
def stPAD_FULL : Nat := 0x0A
def stNO_SLOT : Nat := 0x0B
def stBUCKET_MISS : Nat := 0x0C
def stEPOCH_RETRY : Nat := 0x0D
def stPOS_MISMATCH : Nat := 0x0E
def stBAD_TABLE : Nat := 0x0F
def stSTATE_OUT : Nat := 0x10
def stSTATE_GEN : Nat := 0x11
def stCOLL_TIMEOUT : Nat := 0x12
def stCOLL_MISMATCH : Nat := 0x13
def stQUEUE_FULL : Nat := 0x14
def stBAD_ACTION : Nat := 0x15
def stBAD_COMMAND : Nat := 0x16
def stENDED : Nat := 0x17
def stWAIT_TIMEOUT : Nat := 0x18
def stMODEL_OUT : Nat := 0x19
def stRETAINED : Nat := 0x1A
def stNO_PATH : Nat := 0x1B
def stSTOPPED : Nat := 0x1C
def stWORLD_FULL : Nat := 0x1D
def stREFUSED_WARM : Nat := 0x1E
def stPARTIAL : Nat := 0x1F
def stMAXITER : Nat := 0x20
def stBREAKDOWN : Nat := 0x21
def stFACTOR_FAIL : Nat := 0x22
def stNO_PLAN : Nat := 0x23
def stTIMEOUT : Nat := 0x24
def stDISABLED : Nat := 0x25
def stPARKED : Nat := 0x80

/-! ### Register fields -/

/-- Read a register field. -/
def Device.rd (s : Device) (die : Nat) (f : Fld) : Nat := SMap.get f.rst s.regs (f.key die)

/-- Write a register field; the value is narrowed to the field's width. -/
def Device.wr (s : Device) (die : Nat) (f : Fld) (v : Nat) : Device :=
  { s with regs := SMap.put f.rst s.regs (f.key die) (v % 2 ^ f.w) }

/-- A one-bit field as a flag. -/
def Device.on (s : Device) (die : Nat) (f : Fld) : Bool := s.rd die f ≠ 0

/-- Set a flag. -/
def Device.set (s : Device) (die : Nat) (f : Fld) : Device := s.wr die f 1

/-- Clear a field. -/
def Device.clr (s : Device) (die : Nat) (f : Fld) : Device := s.wr die f 0

/-- Add to a count that wraps at its width. -/
def Device.addWrap (s : Device) (die : Nat) (f : Fld) (n : Nat) : Device := s.wr die f (s.rd die f + n)

/-- Take from a count that wraps at its width. -/
def Device.subWrap (s : Device) (die : Nat) (f : Fld) (n : Nat) : Device := s.wr die f (s.rd die f + 2 ^ f.w - n % 2 ^ f.w)

/-- Add to a count that holds at its greatest value. -/
def Device.addHold (s : Device) (die : Nat) (f : Fld) (n : Nat) : Device :=
  s.wr die f (min (s.rd die f + n) (2 ^ f.w - 1))

/-- Record what leaves the device. -/
def Device.emit (s : Device) (m : Msg) : Device := { s with out := s.out ++ [m] }

/-- Set the answer of the latest access. -/
def Device.answer (s : Device) (status data : Nat) : Device := { s with reply := (status, data) }

/-! ### Raw memory: little-endian, no checks -/

/-- The byte at a physical address. -/
def Device.byte (s : Device) (a : Nat) : Nat := (SMap.get (0 : Byte) s.mem a).toNat

/-- Write the byte at a physical address. -/
def Device.setByte (s : Device) (a v : Nat) : Device := { s with mem := SMap.put (0 : Byte) s.mem a (BitVec.ofNat 8 v) }

/-- The little-endian number in the `n` bytes from `a`. -/
def Device.load (s : Device) (a : Nat) : Nat → Nat
  | 0 => 0
  | n + 1 => s.byte a + 256 * s.load (a + 1) n

/-- Write the low `n` bytes of `v` at `a`, little-endian. -/
def Device.store (s : Device) (a v : Nat) : Nat → Device
  | 0 => s
  | n + 1 => (s.setByte a (v % 256)).store (a + 1) (v / 256) n

/-- The 32-bit words at `a`, `n` of them. -/
def Device.words (s : Device) (a n : Nat) : List Nat := (List.range n).map fun i => s.load (a + 4 * i) 4

/-- Write 32-bit words at `a`. -/
def Device.storeWords (s : Device) (a : Nat) : List Nat → Device
  | [] => s
  | w :: r => (s.store a w 4).storeWords (a + 4) r

/-- Word `i` of a word list; 0 beyond its end. -/
def wd (l : List Nat) (i : Nat) : Nat := l.getD i 0

/-- The 64-bit number in words `i` and `i + 1`, low word first. -/
def wd2 (l : List Nat) (i : Nat) : Nat := wd l i + 2 ^ 32 * wd l (i + 1)

/-- The 48-bit address in words `i` and `i + 1`. -/
def wdAddr (l : List Nat) (i : Nat) : Nat := wd l i + 2 ^ 32 * (wd l (i + 1) % 2 ^ 16)

/-! ### The address map (R26 to R28, R83) -/

/-- Bytes of a die's Pond, of a column and of a tier of a column (R27). -/
def pondDieBytes : Nat := 0x48000000
def columnBytes : Nat := 0x01200000
def tierBytes : Nat := 0x00600000
def storeBase : Nat := 0x200000000
def storeDieBytes : Nat := 0x04000000
def regBase : Nat := 0x300000000
def regDieBytes : Nat := 0x04000000
def lpBase : Nat := 0x1000000000

/-- What an address names. -/
inductive Region where
  /-- Byte `off` of local column `col` of die `die`'s Pond. -/
  | pond (die col off : Nat)
  /-- Byte `off` of die `die`'s logic-die stores (R28). -/
  | store (die off : Nat)
  /-- Offset `off` of block `blk` of die `die`'s register window (R32). -/
  | reg (die blk off : Nat)
  /-- Offset `off` of the mapped LP5X range (R83). -/
  | lp (off : Nat)
  /-- Nothing; the die that records a request to it (R31). -/
  | hole (die : Nat)
  deriving DecidableEq, Repr

/-- Bytes of LP5X that are mapped (R83). -/
def Device.lpBytes (s : Device) : Nat := s.rd 0 LP5X_MAPPED_MAPPED_GIB * 2 ^ 30

/-- The region an address lies in. -/
def Device.region (s : Device) (a : Nat) : Region :=
  if a < 4 * pondDieBytes then
    .pond (a / pondDieBytes) (a % pondDieBytes / columnBytes) (a % pondDieBytes % columnBytes)
  else if storeBase ≤ a ∧ a < storeBase + 4 * storeDieBytes then
    if (a - storeBase) % storeDieBytes < 0x3800000 then .store ((a - storeBase) / storeDieBytes) ((a - storeBase) % storeDieBytes)
    else .hole ((a - storeBase) / storeDieBytes)
  else if regBase ≤ a ∧ a < regBase + 4 * regDieBytes then
    if (a - regBase) % regDieBytes < 0x200000 then
      .reg ((a - regBase) / regDieBytes) ((a - regBase) % regDieBytes / 0x10000) ((a - regBase) % 0x10000)
    else .hole ((a - regBase) / regDieBytes)
  else if lpBase ≤ a ∧ a < lpBase + s.lpBytes then .lp (a - lpBase)
  else .hole 0

/-- First address of a local core's Pond column (R27). -/
def columnBase (die core : Nat) : Nat := die * pondDieBytes + core * columnBytes

/-- First address of a local core's core store (R28). -/
def coreStoreBase (die core : Nat) : Nat := storeBase + die * storeDieBytes + core * 0x40000

/-- First address of a cluster's store (R28). -/
def clusterStoreBase (die k : Nat) : Nat := storeBase + die * storeDieBytes + 0x1000000 + k * 0x200000

/-- First address of a die's reflex store (R28). -/
def reflexBase (die : Nat) : Nat := storeBase + die * storeDieBytes + 0x2000000

/-- First address of a die's fusion store (R28). -/
def fusionBase (die : Nat) : Nat := storeBase + die * storeDieBytes + 0x3000000

/-- The interleave granule of R83; 0 for NONE. -/
def Device.lpGranule (s : Device) : Nat :=
  match s.rd 0 LP5X_CTL_INTERLEAVE with
  | 0 => 256
  | 1 => 4096
  | 2 => 65536
  | _ => 0

/-- The channel of an offset in the mapped LP5X range (R83). -/
def Device.lpChannel (s : Device) (off : Nat) : Nat :=
  if s.lpGranule = 0 then (if s.lpBytes = 0 then 0 else off / (s.lpBytes / 4)) else off / s.lpGranule % 4

/-- The offset within its channel of an offset in the mapped LP5X range (R83). -/
def Device.lpChannelOff (s : Device) (off : Nat) : Nat :=
  if s.lpGranule = 0 then (if s.lpBytes = 0 then 0 else off % (s.lpBytes / 4))
  else off / (4 * s.lpGranule) * s.lpGranule + off % s.lpGranule

/-- The die whose memory a region is (for LP5X, the die of the channel). -/
def Device.homeDie (s : Device) : Region → Nat
  | .pond d _ _ => d
  | .store d _ => d
  | .reg d _ _ => d
  | .lp off => s.lpChannel off
  | .hole d => d

/-- Whether `n` bytes from `a` lie in the Pond or in mapped LP5X. -/
def Device.inPondOrLp (s : Device) (a n : Nat) : Bool :=
  a + n ≤ 4 * pondDieBytes || (lpBase ≤ a && a + n ≤ lpBase + s.lpBytes)

/-- Whether `n` bytes from `a` lie in mapped LP5X. -/
def Device.inLp (s : Device) (a n : Nat) : Bool := lpBase ≤ a && a + n ≤ lpBase + s.lpBytes

/-! ### Bridges (R16, R17) -/

/-- The die at the far end of a die's row bridge, and of its column bridge. -/
def rowMate (d : Nat) : Nat := if d % 2 = 0 then d + 1 else d - 1
def colMate (d : Nat) : Nat := if d < 2 then d + 2 else d - 2

/-- Every bridge of the route from one die to another is up: the row bridge first, the column bridge second (R17). -/
def Device.routeUp (s : Device) (src dst : Nat) : Bool :=
  (src % 2 = dst % 2 || s.on src DIE_CTL_BRIDGE_STATUS_ROW_UP) &&
  (src / 2 = dst / 2 ||
    s.on (if src % 2 = dst % 2 then src else rowMate src) DIE_CTL_BRIDGE_STATUS_COL_UP)

/-! ### Bridge transfers (R434) -/

/-- A credited transfer over a bridge end, whose credit comes back. -/
def Device.rowXfer (s : Device) (d : Nat) : Device :=
  (s.addWrap d DIE_CTL_BRIDGE_AUDIT_ROW_SENT 1).addWrap d DIE_CTL_BRIDGE_AUDIT_ROW_RETURNED 1
def Device.colXfer (s : Device) (d : Nat) : Device :=
  (s.addWrap d DIE_CTL_BRIDGE_AUDIT_COL_SENT 1).addWrap d DIE_CTL_BRIDGE_AUDIT_COL_RETURNED 1

/-- A transfer from one die to another along the route of R17: the row bridge first, the column bridge second. -/
def Device.xfer (s : Device) (src dst : Nat) : Device :=
  let s1 := if src % 2 = dst % 2 then s else s.rowXfer src
  if src / 2 = dst / 2 then s1 else s1.colXfer (if src % 2 = dst % 2 then src else rowMate src)

/-! ### Requesters (R35) and their reach (R30) -/

def mDma : Nat := 0x40
def mHost : Nat := 0x50
def mReflex : Nat := 0x60
def mFusion : Nat := 0x61
def mSafety : Nat := 0x62
def mManage : Nat := 0x63
def mScrub : Nat := 0x64
def mPad : Nat := 0x65
def mSelftest : Nat := 0x66
def mWipe : Nat := 0x67
def mFault : Nat := 0x68
def mPcie : Nat := 0x70
def mOliner : Nat := 0x71
def mDebug : Nat := 0x7F

/-- The base address held by the LO and HI halves of a REFLEX_COLL region. -/
def Device.collRegion (s : Device) (die n : Nat) : Nat :=
  s.rd die (REFLEX_COLL_REGION_LO_ADDR n) * 2 ^ 16 + s.rd die (REFLEX_COLL_REGION_HI_ADDR n) * 2 ^ 32

/-- `n` bytes from `a` lie in the `len` bytes from `b`. -/
def lies (a n b len : Nat) : Bool := decide (b ≤ a) && decide (a + n ≤ b + len)

/-- The ranges of REFLEX_COLL outside the reflex store (R268, R269, R273, R274, R279): the world, the hash, the nodes, the edges, the directory of
the invalidation grid, its lists, and the search state. The lists have no stated length and run to the end of their memory. -/
def Device.collRanges (s : Device) (die : Nat) : List (Nat × Nat) :=
  [(s.collRegion die 0, 0x1D00000), (s.collRegion die 1, 0x401000),
    (s.collRegion die 2, 128 * (s.rd die REFLEX_COLL_ROADMAP_NODES_COUNT_M1 + 1)),
    (s.collRegion die 3, 16 * (s.rd die REFLEX_COLL_ROADMAP_EDGES_COUNT_M1 + 1)), (s.collRegion die 4, 0x20000),
    (s.collRegion die 5, (if s.collRegion die 5 < lpBase then (die + 1) * pondDieBytes else lpBase + s.lpBytes) - s.collRegion die 5),
    (s.collRegion die 7, 0x1000000)]

/-- Bytes of one observation buffer, and the address of buffer `b`'s copy on die `d` (R261). -/
def Device.obsSize (s : Device) : Nat := s.rd 0 FUSION_OBS_SIZE_SIZE_4K * 4096
def Device.obsAddr (s : Device) (d b : Nat) : Nat :=
  s.rd 0 FUSION_OBS_BASE_ADDR * 4096 + b * s.obsSize + d * pondDieBytes

/-- Base of a fault queue, its size in records, and whether it is full (R106). -/
def Device.fqBase (s : Device) (q : Nat) : Nat := s.rd 0 (XLATE_FQ_BASE_LO_ADDR q) + 2 ^ 32 * (s.rd 0 (XLATE_FQ_BASE_HI_ADDR q) % 65536)
def Device.fqSize (s : Device) (q : Nat) : Nat := 2 ^ s.rd 0 (XLATE_FQ_CTL_LOG2_SIZE q)
def Device.fqFull (s : Device) (q : Nat) : Bool :=
  (s.rd 0 (XLATE_FQ_TAIL_INDEX q) + 1) % s.fqSize q = s.rd 0 (XLATE_FQ_HEAD_INDEX q)

/-- `n` bytes from `a` lie in a fault queue. -/
def Device.inFaultQueue (s : Device) (a n : Nat) : Bool := (List.range 4).any fun q => lies a n (s.fqBase q) (128 * s.fqSize q)

/-- Whether a requester of a die reaches `n` bytes from `a`, which lie in a region, to read or to write them (R30). Requesters that use
translation reach the Pond, the stores and LP5X through it; the windows of PCIe and Oliner are checked where they apply. The vector memories,
the top 4 MiB of a reflex store, are their engines' alone (R284), apart from Eft's and the hardware's own sweeps. -/
def Device.reachesIn (s : Device) (src master a n : Nat) (write : Bool) : Region → Bool
  | .hole _ => false
  | .pond d _ _ =>
    if master = mSafety then false
    else if master = mScrub ∨ master = mSelftest ∨ master = mWipe then d = src
    else if master = mReflex then d = src && (s.collRanges src).any fun p => lies a n p.1 p.2
    else if master = mFusion then lies a n (s.obsAddr d 0) (2 * s.obsSize)
    else if master = mFault then s.inFaultQueue a n
    else true
  | .store d off =>
    if 0x2C00000 ≤ off ∧ off < 0x3000000 ∧ master ≠ mScrub ∧ master ≠ mSelftest ∧ master ≠ mWipe then master = mReflex ∧ d = src
    else if master < 0x50 then true
    else if master = mReflex then d = src ∧ 0x2000000 ≤ off ∧ off < 0x3000000
    else if master = mFusion then d = src ∧ 0x3000000 ≤ off
    else if master = mSafety then 0x2000000 ≤ off ∧ ¬ write
    else if master = mScrub ∨ master = mSelftest ∨ master = mWipe then d = src
    else if master = mPad ∨ master = mFault then false
    else true
  | .reg _ blk _ =>
    if master = mSafety then blk = 21 ∨ blk = 17 ∨ blk = 19
    else (mHost ≤ master ∧ master < mHost + 4) ∨ master = mManage ∨ master = mPcie ∨ master = mOliner ∨ master = mDebug
  | .lp off =>
    if master = mSafety ∨ master = mFusion ∨ master = mScrub ∨ master = mSelftest then false
    else if master = mReflex then (s.collRanges src).any fun p => lies a n p.1 p.2
    else if master = mWipe then s.lpChannel off = src
    else if master = mFault then s.inFaultQueue a n
    else true

/-- The first and the last byte of an access lie within its requester's reach. -/
def Device.reaches (s : Device) (src master a n : Nat) (write : Bool) : Bool :=
  s.reachesIn src master a n write (s.region a) && s.reachesIn src master a n write (s.region (a + n - 1))

/-! ### The UNMAPPED record (R31, R34) -/

/-- Record a request that ended UNMAPPED in the DIE_CTL block of die `own`. -/
def Device.recordUnmapped (s : Device) (own src master a : Nat) (write : Bool) : Device :=
  if s.on own DIE_CTL_UNMAPPED_STATUS_VALID then s.set own DIE_CTL_UNMAPPED_STATUS_OVERFLOW
  else
    ((((((s.wr own DIE_CTL_UNMAPPED_ADDR_LO_ADDR_LO a).wr own DIE_CTL_UNMAPPED_ADDR_HI_ADDR_HI (a / 2 ^ 32)).set own
      DIE_CTL_UNMAPPED_STATUS_VALID).wr own DIE_CTL_UNMAPPED_STATUS_WRITE (b2n write)).wr own
      DIE_CTL_UNMAPPED_STATUS_SRC_DIE src).wr own DIE_CTL_UNMAPPED_STATUS_MASTER master)

/-! ### The error record of DIE_CTL (R443) -/

/-- Record a TIMEOUT, FENCED or host-store error. -/
def Device.recordErr (s : Device) (die master a status : Nat) (remote write : Bool) : Device :=
  if s.on die DIE_CTL_ERR_STATUS_VALID then s.set die DIE_CTL_ERR_STATUS_OVERFLOW
  else
    (((((((s.wr die DIE_CTL_ERR_ADDR_LO_ADDR a).wr die DIE_CTL_ERR_ADDR_HI_ADDR (a / 2 ^ 32)).set die
      DIE_CTL_ERR_STATUS_VALID).wr die DIE_CTL_ERR_STATUS_REMOTE (b2n remote)).wr die DIE_CTL_ERR_STATUS_WRITE
      (b2n write)).wr die DIE_CTL_ERR_STATUS_STATUS status).wr die DIE_CTL_ERR_STATUS_MASTER master)

/-- Count and record a request of a die that ended TIMEOUT (R432, R442, R443). -/
def Device.timeoutErr (s : Device) (die master a : Nat) (remote write : Bool) : Device :=
  (s.addHold die DIE_CTL_ERR_COUNT_TIMEOUTS 1).recordErr die master a stTIMEOUT remote write

/-- Count and record a request of a die that ended FENCED (R436, R442, R443). -/
def Device.fencedErr (s : Device) (die master a : Nat) (remote write : Bool) : Device :=
  (s.addHold die DIE_CTL_ERR_COUNT_FENCED 1).recordErr die master a stFENCED remote write

/-- Note a counter mismatch, which the auditors report at rc 1,024 (R439). -/
def Device.noteMismatch (s : Device) (die blk off : Nat) : Device :=
  { s with err := { s.err with mismatch := s.err.mismatch ++ [(die, blk, off)] } }

/-! ### The safety islands' faults (R337, R338) -/

/-- The causes of R337. -/
def cLOCKSTEP : Nat := 1
def cCROSSCHECK : Nat := 2
def cWATCHDOG : Nat := 3
def cAGE : Nat := 4
def cGOLDEN_MISMATCH : Nat := 5
def cGOLDEN_DEFER : Nat := 6
def cSTORE_UE : Nat := 7
def cFUSION_F4 : Nat := 8
def cAUDIT : Nat := 9
def cESTOP : Nat := 10
def cTHERMAL : Nat := 11
def cDEBUG_HALT : Nat := 12
def cSAFETY_STREAM : Nat := 13
def cPARTNER : Nat := 14
def cOUT_FEEDBACK : Nat := 15

/-- The two causes FUSION_STATUS.F4_CAUSE may carry that leave FUSION_F4 recoverable (R259, R337). -/
def f4Recoverable (f4 : Nat) : Bool := f4 = 1 || f4 = 3

/-- Whether a cause is recoverable (R337). -/
def recoverableCause (cause f4 : Nat) : Bool :=
  match cause with
  | 3 | 4 | 6 | 10 | 12 | 13 | 14 => true
  | 8 => f4Recoverable f4
  | _ => false

/-- An island's state. -/
def Device.island (s : Device) (i : Nat) : Island := if i = 0 then s.safety.isl0 else s.safety.isl1

/-- Replace an island's state. -/
def Device.setIsland (s : Device) (i : Nat) (x : Island) : Device :=
  { s with safety := if i = 0 then { s.safety with isl0 := x } else { s.safety with isl1 := x } }

/-- An island opens its switches on both safe-state outputs, which go low (R334). -/
def Device.dropOut (s : Device) (i : Nat) : Device :=
  let s1 := s.setIsland i { s.island i with closed := false }
  (((((s1.clr 0 SAFETY_STATUS_OUT0).clr 0 SAFETY_STATUS_OUT1).clr 1 SAFETY_STATUS_OUT0).clr 1 SAFETY_STATUS_OUT1).emit
    (.pin "SAFE_OUT0" 0)).emit (.pin "SAFE_OUT1" 0)

/-- Set TAIL_ACTIVE on every die (R338). -/
def Device.tailActive (s : Device) : Device :=
  (List.range 4).foldl (fun s d => s.set d REFLEX_CTRL_STATUS_TAIL_ACTIVE) s

/-- One island takes a fault (R337, R338): the cause latches, the first fault is recorded (the lowest code of one rc), and the Tail enters STOPPING
from IDLE, or SAFE_OFF for a category-0 emergency stop. -/
def Device.islandFault (s : Device) (i cause die detail : Nat) : Device :=
  if (s.island i).stopped then s
  else
    let now := s.on i SAFETY_FAULT_VALID && decide (s.rd i SAFETY_FAULT_TIME_LO_TIME = s.chorus.time % 2 ^ 32) &&
      decide (s.rd i SAFETY_FAULT_TIME_HI_TIME = s.chorus.time / 2 ^ 32 % 2 ^ 32) && decide (cause < s.rd i SAFETY_FAULT_CAUSE)
    let s1 := if s.on i SAFETY_FAULT_VALID ∧ ¬ now then s
      else ((((((s.set i SAFETY_FAULT_VALID).wr i SAFETY_FAULT_CAUSE cause).wr i SAFETY_FAULT_DIE die).wr i
        SAFETY_FAULT_DETAIL detail).wr i SAFETY_FAULT_TIME_LO_TIME s.chorus.time).wr i SAFETY_FAULT_TIME_HI_TIME
        (s.chorus.time / 2 ^ 32))
    let c := s1.rd i SAFETY_STATUS_CAUSES
    let s1 := if bit c (cause - 1) then s1
      else s1.setIsland i { s1.island i with just := if bit (s1.island i).just (cause - 1) then (s1.island i).just else (s1.island i).just + 2 ^ (cause - 1) }
    let s2 := s1.wr i SAFETY_STATUS_CAUSES (if bit c (cause - 1) then c else c + 2 ^ (cause - 1))
    let s3 := if recoverableCause cause (s2.rd 0 FUSION_STATUS_F4_CAUSE) then s2 else s2.clr i SAFETY_STATUS_RECOVERABLE
    let s4 := s3.set i SAFETY_STATUS_TAIL_ACTIVE
    let st := s4.rd i SAFETY_STATUS_TAIL_STATE
    if cause = cESTOP ∧ ¬ s4.on i SAFETY_CTL_ESTOP_CAT ∧ st ≤ 2 then
      (s4.wr i SAFETY_STATUS_TAIL_STATE 3).dropOut i
    else if st = 0 then
      (s4.wr i SAFETY_STATUS_TAIL_STATE 1).setIsland i { s4.island i with stopTicks := 0 }
    else s4

/-- Both islands take a fault and TAIL_ACTIVE is set on every die within 64 rc (R338). -/
def Device.raiseCause (s : Device) (cause die detail : Nat) : Device :=
  ((s.islandFault 0 cause die detail).islandFault 1 cause die detail).tailActive

/-- Fusion reaches F4 with a cause of R259, and FUSION_F4 is raised except while the islands' MODE is START (R347). -/
def Device.raiseF4 (s : Device) (code : Nat) : Device :=
  let s1 := if s.rd 0 FUSION_STATUS_LEVEL = 4 ∧ ¬ f4Recoverable (s.rd 0 FUSION_STATUS_F4_CAUSE) then s
    else (s.wr 0 FUSION_STATUS_LEVEL 4).wr 0 FUSION_STATUS_F4_CAUSE code
  if s.rd 0 SAFETY_STATUS_MODE = 0 ∧ code = 1 then s1 else s1.raiseCause cFUSION_F4 0 0

/-! ### Message-signalled writes (R106, R207, R415, R448) -/

/-- Set a pending identity of an interrupt file (R448); 0 and values above 255 are ignored. -/
def Device.setEip (s : Device) (die hart lvl id : Nat) : Device :=
  if id = 0 ∨ 255 < id then s
  else { s with host := { s.host with imsic := SMap.put 0 s.host.imsic (((die * 4 + hart) * 2 + lvl) * 256 + id) 1 } }

/-- Send MSI-X vector `v` of a PCIe port, or set its pending bit if it is masked (R415). -/
def Device.msixTrigger (s : Device) (die v : Nat) : Device :=
  let x := SMap.get {} s.pcie.msix (die * 64 + v)
  if x.mask then { s with pcie := { s.pcie with msix := SMap.put {} s.pcie.msix (die * 64 + v) { x with pend := true } } }
  else s.emit (.pcie die 0 [x.addr, x.data])

/-! ### Sync objects (R215 to R217) -/

/-- The value of a sync object. -/
def Device.syncVal (s : Device) (g : Nat) : Nat := SMap.get 0 s.disp.sync g

/-- Add a signed number to a sync object, modulo 2^64. -/
def Device.syncAdd (s : Device) (g : Nat) (n : Int) : Device :=
  { s with disp := { s.disp with sync := SMap.put 0 s.disp.sync g (wrapN 64 (s.syncVal g + n)) } }

/-- Whether the frame program reserves an object for job 0 (R217). -/
def Device.syncReserved (s : Device) (g : Nat) : Bool := s.chorus.syncRsv.contains g

/-- A wait on `w` is satisfied: the counter has reached or passed it (R216). -/
def waitDone (counter w : Nat) : Bool := (counter + 2 ^ 64 - w % 2 ^ 64) % 2 ^ 64 < 2 ^ 63

/-- What an add sent by die `src` ends with (R434): TIMEOUT where a bridge of its route, or of its answer's, is down. -/
def Device.syncAddStatus (s : Device) (src g : Nat) : Nat :=
  if s.routeUp src (g / 16384) && s.routeUp (g / 16384) src then stDONE else stTIMEOUT

/-- An add sent by die `src` for requester `master`: one that crosses to another die counts as sent there and received here (R225). Over a
bridge that is down it does not arrive, and it ends TIMEOUT (R434), recorded with the address of the far die's SYNC block. -/
def Device.syncAddFrom (s : Device) (src master g : Nat) (n : Int) : Device :=
  let dst := g / 16384
  if src = dst then s.syncAdd g n
  else
    let s1 := s.addWrap src SYNC_AUDIT_SENT 1
    let s2 := if s.routeUp src dst then ((s1.addWrap dst SYNC_AUDIT_RECEIVED 1).xfer src dst).syncAdd g n
      else { s1 with err := { s1.err with addsOut := s1.err.addsOut + 1 } }
    if s.syncAddStatus src g = stDONE then s2 else s2.timeoutErr src master (regBase + dst * regDieBytes + 0x60000) false true

/-! ### Rings and jobs: their rows (R206, R218) -/

/-- The context of a global ring, and writing it back. -/
def Device.ring (s : Device) (g : Nat) : Ring := SMap.get {} s.disp.rings g
def Device.setRing (s : Device) (g : Nat) (r : Ring) : Device :=
  { s with disp := { s.disp with rings := SMap.put {} s.disp.rings g r } }

/-- The row of a job, and writing it back. -/
def Device.job (s : Device) (j : Nat) : Job := SMap.get {} s.disp.jobs j
def Device.setJob (s : Device) (j : Nat) (x : Job) : Device :=
  { s with disp := { s.disp with jobs := SMap.put {} s.disp.jobs j x } }

/-- The job that a work item belongs to: 0 for a slice (R88), the ring's job for a ring. -/
def Device.workJob (s : Device) : Work → Nat
  | .slice _ _ => 0
  | .ring g => (s.ring g).job

/-- Ending a job begins (R219): it goes to ENDING from ACTIVE, HELD or DRAINING, and its rings fetch no more. -/
def Device.beginJobEnd (s : Device) (j : Nat) : Device :=
  let x := s.job j
  if x.state = 1 ∨ x.state = 2 ∨ x.state = 3 then s.setJob j { x with state := 4 } else s

/-- The command a global core works on. -/
def Device.cmd (s : Device) (core : Nat) : Option CoreCmd := SMap.get none s.disp.cmds core
def Device.setCmd (s : Device) (core : Nat) (c : Option CoreCmd) : Device :=
  { s with disp := { s.disp with cmds := SMap.put none s.disp.cmds core c } }

/-- The command of a core reports a status; the first status other than DONE stands. -/
def Device.cmdStatus (s : Device) (core status reason : Nat) : Device :=
  match s.cmd core with
  | some c => if c.status = stDONE then s.setCmd core (some { c with status := status, reason := reason }) else s
  | none => s

/-- The accumulator rows that wait on a core for a gate command of the same work, and forgetting those of a work item. -/
def Device.linkOf (s : Device) (core : Nat) (w : Work) : Option AccRows := (SMap.get none s.link core).filter fun l => decide (l.work = w)
def Device.dropLink (s : Device) (w : Work) : Device :=
  { s with link := s.link.filter fun e => !(match e.2 with | some l => decide (l.work = w) | none => true) }

/-! ### Sending over Oliner (R406 to R409) -/

/-- An Oliner port, and writing it back. -/
def Device.olPort (s : Device) (die : Nat) : OlPort := SMap.get {} s.oliner.ports die
def Device.setOlPort (s : Device) (die : Nat) (p : OlPort) : Device :=
  { s with oliner := { s.oliner with ports := SMap.put {} s.oliner.ports die p } }

/-- The port states of OLINER_STATUS.STATE. -/
def olDOWN : Nat := 0
def olTRAINING : Nat := 1
def olUP : Nat := 2
def olLOST : Nat := 3

/-- The virtual channel of a flit's KIND (R407); none for idle flits and NAKs, which take no credit. -/
def flitVc (kind : Nat) : Option Nat :=
  match kind with
  | 7 | 8 | 10 | 11 => some 0
  | 9 => some 1
  | 1 | 3 | 5 => some 2
  | 2 | 4 | 6 => some 3
  | _ => none

/-- Receive credits of a virtual channel (R407), of one class on VC2. -/
def vcCredits (vc : Nat) : Nat := if vc = 0 then 8 else if vc = 1 then 32 else if vc = 2 then 4 else 64

/-- The key of a virtual channel's credits, of a class on VC2. -/
def creditKey (vc cls : Nat) : Nat := vc * 16 + if vc = 2 then cls % 16 else 0

/-- The class of a flit from its words: DST, SRC, CLASS, FIXED, JOB0, HOPS, payload. -/
def flitCls (w : List Nat) : Nat := wd w 2

/-- A waiting flit may leave: a credit is free, and the replay buffer of 128 has room (R407, R408). -/
def OlPort.maySend (p : OlPort) (f : Nat × List Nat) : Bool :=
  p.replay.length < 128 &&
  match flitVc f.1 with
  | some vc => SMap.get 0 p.held (creditKey vc (flitCls f.2)) < vcCredits vc
  | none => true

/-- The flit that a port sends next (R407): VC0, VC3, VC1, then VC2 in round robin over the classes. -/
def OlPort.pick (p : OlPort) : Option (Nat × List Nat) :=
  let first := fun (vc : Nat) => (p.wait.find? fun f => flitVc f.1 = some vc).filter p.maySend
  let cls := fun (i : Nat) => (p.wait.find? fun f => flitVc f.1 = some 2 ∧ flitCls f.2 % 16 = (p.last + 1 + i) % 16).filter p.maySend
  (first 0).or ((first 3).or ((first 1).or ((List.range 16).findSome? cls)))

/-- An UP port that does not retrain sends what may leave; at most `n` flits. -/
def Device.flush (s : Device) (die : Nat) : Nat → Device
  | 0 => s
  | n + 1 =>
    let p := s.olPort die
    if s.rd die OLINER_STATUS_STATE ≠ olUP ∨ p.training then s
    else match p.pick with
      | none => s
      | some f =>
        let vc := (flitVc f.1).getD 3
        let k := creditKey vc (flitCls f.2)
        let p1 := { p with
          wait := p.wait.erase f
          seqOut := (p.seqOut + 1) % 4096
          replay := p.replay ++ [(p.seqOut, f.1, f.2)]
          held := SMap.put 0 p.held k (SMap.get 0 p.held k + 1)
          last := if vc = 2 then flitCls f.2 % 16 else p.last }
        (((s.setOlPort die p1).addWrap die OLINER_AUDIT_SENT 1).emit
          (.flit die f.1 (f.2.take 6 ++ [p.seqOut, p.seqIn] ++ f.2.drop 6))).flush die n

/-- Queue a flit at a die's port and send what may leave. -/
def Device.post (s : Device) (die kind : Nat) (w : List Nat) : Device :=
  let p := s.olPort die
  (s.setOlPort die { p with wait := p.wait ++ [(kind, w)] }).flush die (p.wait.length + 1)

/-- The egress die of a device ID: the first valid entry of die 0's route table whose range holds it (R409). -/
def Device.egress (s : Device) (dst : Nat) : Option Nat :=
  ((List.range 256).find? fun n => s.on 0 (OLINER_ROUTE_HI_V n) && decide (s.rd 0 (OLINER_ROUTE_LO_LO_ID n) ≤ dst) &&
    decide (dst ≤ s.rd 0 (OLINER_ROUTE_LO_HI_ID n))).map fun n => s.rd 0 (OLINER_ROUTE_HI_EGRESS n)

/-- A unit of a die is fenced (R436, R438). -/
def Device.isFenced (s : Device) (die unit : Nat) : Bool := s.err.fenced.contains (die * 256 + unit)

/-- What a request to another device ends with at issue (R409, R411, R436), DONE if it leaves: UNMAPPED with no route, LINK_LOST through
a LOST port, FENCED through a fenced one. -/
def Device.sendStatus (s : Device) (dst : Nat) : Nat :=
  match s.egress dst with
  | none => stUNMAPPED
  | some d => if s.rd d OLINER_STATUS_STATE = olLOST then stLINK_LOST else if s.isFenced d mOliner then stFENCED else stDONE

/-- Send a flit of this device's own to another device, if a route and a port take it. -/
def Device.sendFlit (s : Device) (dst kind cls : Nat) (fixed job0 : Bool) (payload : List Nat) : Device :=
  match s.egress dst with
  | some d =>
    if s.sendStatus dst = stDONE then
      s.post d kind ([dst, s.rd 0 OLINER_DEVICE_ID_ID, cls, b2n fixed, b2n job0, 15] ++ payload)
    else s
  | none => s

/-- Words in flits of 240 payload bytes (R406). -/
def flitChunks (l : List Nat) : List (List Nat) := (List.range ((l.length + 59) / 60)).map fun i => (l.drop (60 * i)).take 60

/-- Send words to each of some devices, each flit headed by `head`. -/
def Device.sendWords (s : Device) (to_ : List Nat) (kind : Nat) (head words : List Nat) : Device :=
  to_.foldl (fun s d => (if words.isEmpty then [[]] else flitChunks words).foldl
    (fun s c => s.sendFlit d kind 0 true true (head ++ c)) s) s

/-- The tag epochs of a unit and of a port, as its requests carry them (R411, R436). -/
def Device.tagEpoch (s : Device) (die unit port : Nat) : Nat :=
  SMap.get 0 s.err.epoch (die * 256 + unit) + 16 * SMap.get 0 s.err.epoch (port * 256 + mOliner)

/-- A port returns the credit of a flit whose buffer is free: an idle flit with its VC, class and count (R407). -/
def Device.returnCredit (s : Device) (die vc cls : Nat) : Device := s.emit (.flit die 0 [vc, cls, 1])

/-- A host core's store that ends with an error completion (R431, R450): it is recorded, unless its TIMEOUT or FENCED has been (R443), counted, and
the hart's M-level file receives HOST_ERR_CFG.ID. -/
def Device.hostStoreFail (s : Device) (r : Req) (status : Nat) : Device :=
  let n := r.master - mHost
  let s1 := if status = stTIMEOUT ∨ status = stFENCED then s else s.recordErr r.die r.master r.addr status false true
  (s1.addHold r.die (HOST_STORE_ERR_COUNT n) 1).setEip r.die n 0 (s.rd r.die HOST_ERR_CFG_ID)

/-- The answer of a request that came from outside goes back: a reply or an acknowledgement over Oliner, with the credit of the buffer
the request sat in, or a completion over PCI Express with UR, or CA for UNCORRECTABLE (R431).
A write over PCI Express is posted. A store of a host core that fails is reported to its hart. -/
def Device.answerOutside (s : Device) (r : Req) (status data : Nat) : Device :=
  match r.remote with
  | [] => if mHost ≤ r.master ∧ r.master < mHost + 4 ∧ r.write ∧ status ≠ stDONE then s.hostStoreFail r status else s
  | t :: rest =>
    if r.master = mOliner then
      (s.returnCredit r.die 2 (r.cls % 16)).sendFlit t (if r.write then 4 else 2) (r.cls % 16) r.fixed false (rest ++ [status, if status = stDONE then data else 0])
    else if r.write then s
    else s.emit (.pcie r.die 1 [t, if status = stDONE then 0 else if status = stUNCORRECTABLE then 2 else 1,
      if status = stDONE then data else 0])

end Sys2Proof.Machine
end

