-- ==== Sys2Proof/Machine/Float.lean ====
section
/-!
DEFINITION. Floating-point numbers (chapter 5, R112 to R118): exact dyadic values, rounding to nearest even, FP32
patterns, the element formats, and the conversion of a block to an MX format. Values between operations are FP32
patterns; a sum or product is formed exactly and rounded once.
-/
namespace Sys2Proof.Machine

/-- A floating-point value: NaN, an infinity, or ± `m` × 2^`e` exactly. -/
inductive FV where
  | nan
  | inf (neg : Bool)
  | fin (neg : Bool) (m : Nat) (e : Int)
  deriving DecidableEq, Repr

/-- The signed integer `m` with a sign. -/
def sgn (neg : Bool) (m : Nat) : Int := if neg then -(m : Int) else m

/-- 2^k for a natural `k` given as an integer; 1 below 0. -/
def pow2 (k : Int) : Nat := 2 ^ k.toNat

/-- A value's sign flipped. -/
def FV.neg : FV → FV
  | .nan => .nan
  | .inf n => .inf (!n)
  | .fin n m e => .fin (!n) m e

/-- A value without its sign. -/
def FV.abs : FV → FV
  | .nan => .nan
  | .inf _ => .inf false
  | .fin _ m e => .fin false m e

/-- The exact sum (IEEE 754): opposite infinities give NaN, and an exact zero sum is +0 unless both terms are −0. -/
def FV.add : FV → FV → FV
  | .nan, _ => .nan
  | _, .nan => .nan
  | .inf a, .inf b => if a = b then .inf a else .nan
  | .inf a, .fin _ _ _ => .inf a
  | .fin _ _ _, .inf b => .inf b
  | .fin a m e, .fin b n f =>
    let g := min e f
    let s := sgn a (m * pow2 (e - g)) + sgn b (n * pow2 (f - g))
    if s = 0 then .fin (a && b) 0 g else .fin (decide (s < 0)) s.natAbs g

/-- The exact product (IEEE 754): an infinity by zero gives NaN. -/
def FV.mul : FV → FV → FV
  | .nan, _ => .nan
  | _, .nan => .nan
  | .inf a, .inf b => .inf (xor a b)
  | .inf a, .fin b m _ => if m = 0 then .nan else .inf (xor a b)
  | .fin a m _, .inf b => if m = 0 then .nan else .inf (xor a b)
  | .fin a m e, .fin b n f => .fin (xor a b) (m * n) (e + f)

/-- The value is zero. -/
def FV.isZero : FV → Bool
  | .fin _ m _ => m = 0
  | _ => false

/-- `a` < `b` for values that are not NaN; false if one is. -/
def FV.lt : FV → FV → Bool
  | .nan, _ => false
  | _, .nan => false
  | .inf a, .inf b => a && !b
  | .inf a, .fin _ _ _ => a
  | .fin _ _ _, .inf b => !b
  | .fin a m e, .fin b n f =>
    let g := min e f
    decide (sgn a (m * pow2 (e - g)) < sgn b (n * pow2 (f - g)))

/-- `m` × 2^`e` rounded to nearest even with `p` bits and no bit below 2^`emin`. -/
def roundDy (p : Nat) (emin : Int) (m : Nat) (e : Int) : Nat × Int :=
  let k := max emin (e + Nat.log2 m + 1 - p)
  if k ≤ e then (m, e)
  else
    let d := pow2 (k - e)
    let q := m / d
    let r := m % d
    (if d < 2 * r || (2 * r = d && q % 2 = 1) then q + 1 else q, k)

/-- `m` × 2^`e` is at least 2^`k`. -/
def reachesPow (m : Nat) (e k : Int) : Bool := m ≠ 0 && decide (k ≤ e + Nat.log2 m)

/-! ### FP32 -/

/-- Decode a binary pattern with `eb` exponent bits and `mb` mantissa bits, with IEEE 754 infinities and NaNs. -/
def decIeee (eb mb v : Nat) : FV :=
  let s := bit v (eb + mb)
  let x := bits v mb eb
  let m := bits v 0 mb
  let bias : Int := 2 ^ (eb - 1) - 1
  if x = 2 ^ eb - 1 then (if m = 0 then .inf s else .nan)
  else if x = 0 then .fin s m (1 - bias - mb)
  else .fin s (2 ^ mb + m) (x - bias - mb)

/-- The pattern of a finite value that the format holds exactly and whose magnitude is below its largest power. -/
def encFin (eb mb : Nat) (neg : Bool) (m : Nat) (e : Int) : Nat :=
  let bias : Int := 2 ^ (eb - 1) - 1
  let s := b2n neg * 2 ^ (eb + mb)
  if m = 0 then s
  else
    let top := e + Nat.log2 m
    if top < 1 - bias then s + m * pow2 (e - (1 - bias - mb)) / pow2 ((1 - bias - mb) - e)
    else s + (top + bias).toNat * 2 ^ mb + (m * pow2 (mb - Nat.log2 m) / pow2 (Nat.log2 m - mb) - 2 ^ mb)

/-- An FP32 pattern's value. -/
def dec32 (v : Nat) : FV := decIeee 8 23 v

/-- The FP32 NaN a sum or product gives, and the infinities. -/
def nan32 : Nat := 0x7FC00000
def inf32 (neg : Bool) : Nat := if neg then 0xFF800000 else 0x7F800000

/-- A value rounded to FP32, to nearest even, with subnormals kept (R119) and infinity on overflow (IEEE 754). -/
def enc32 : FV → Nat
  | .nan => nan32
  | .inf n => inf32 n
  | .fin n m e =>
    let r := roundDy 24 (-149) m e
    if reachesPow r.1 r.2 128 then inf32 n else encFin 8 23 n r.1 r.2

/-- FP32 sum, product and fused multiply-add, each with one rounding. -/
def add32 (a b : Nat) : Nat := enc32 ((dec32 a).add (dec32 b))
def sub32 (a b : Nat) : Nat := enc32 ((dec32 a).add (dec32 b).neg)
def mul32 (a b : Nat) : Nat := enc32 ((dec32 a).mul (dec32 b))
def fma32 (a b c : Nat) : Nat := enc32 (((dec32 a).mul (dec32 b)).add (dec32 c))

/-- The FP32 value of an integer. -/
def ofInt32 (x : Int) : Nat := enc32 (.fin (decide (x < 0)) x.natAbs 0)

/-- `a` < `b`, and `a` ≤ `b`, as FP32 values; false with a NaN. -/
def lt32 (a b : Nat) : Bool := (dec32 a).lt (dec32 b)
def isNan32 (a : Nat) : Bool := dec32 a = .nan
def le32 (a b : Nat) : Bool := !isNan32 a && !isNan32 b && !lt32 b a

/-- The FP32 pattern is finite. -/
def fin32 (a : Nat) : Bool := match dec32 a with | .fin _ _ _ => true | _ => false

/-- FP32 negation and magnitude. -/
def neg32 (a : Nat) : Nat := if bit a 31 then a - 0x80000000 else a + 0x80000000
def abs32 (a : Nat) : Nat := bits a 0 31

/-- The larger of two FP32 values; with a NaN, or between zeros of both signs, IEEE 754 has more than one maximum, and
the choice is the part's. -/
def max32 (a b : Nat) : Nat :=
  if isNan32 a || isNan32 b || ((dec32 a).isZero && (dec32 b).isZero && a ≠ b) then
    (if Config.maxCorner a b then a else b)
  else if lt32 a b then b else a

/-- The integer quotient `n` ÷ `d` as a dyadic value with 60 bits more than the operands differ by, and whether it is
inexact; enough for a correct rounding to FP32. -/
def quoDy (n d : Nat) : Nat × Int :=
  let k := 64 + Nat.log2 d
  let q := n * 2 ^ k / d
  -- a sticky bit keeps the rounding of an inexact quotient right
  (2 * q + (if n * 2 ^ k % d = 0 then 0 else 1), -(k : Int) - 1)

/-- FP32 division, correctly rounded (IEEE 754). -/
def div32 (a b : Nat) : Nat :=
  match dec32 a, dec32 b with
  | .nan, _ => nan32
  | _, .nan => nan32
  | .inf _, .inf _ => nan32
  | .inf x, .fin y _ _ => inf32 (xor x y)
  | .fin x _ _, .inf y => b2n (xor x y) * 2 ^ 31
  | .fin x m e, .fin y n f =>
    if n = 0 then (if m = 0 then nan32 else inf32 (xor x y))
    else enc32 (.fin (xor x y) (quoDy m n).1 ((quoDy m n).2 + e - f))

/-- The integer square root of `n`, by bits from 2^`k` down. -/
def isqrtFrom (n : Nat) : Nat → Nat → Nat
  | 0, r => r
  | k + 1, r => isqrtFrom n k (if (r + 2 ^ k) * (r + 2 ^ k) ≤ n then r + 2 ^ k else r)
def isqrt (n : Nat) : Nat := isqrtFrom n (Nat.log2 n / 2 + 1) 0

/-- FP32 square root, correctly rounded (IEEE 754). -/
def sqrt32 (a : Nat) : Nat :=
  match dec32 a with
  | .nan => nan32
  | .inf n => if n then nan32 else inf32 false
  | .fin n m e =>
    if m = 0 then b2n n * 2 ^ 31
    else if n then nan32
    else
      let e' := if e % 2 = 0 then e else e - 1
      let m' := if e % 2 = 0 then m else 2 * m
      let r := isqrt (m' * 2 ^ 128)
      enc32 (.fin false (2 * r + (if r * r = m' * 2 ^ 128 then 0 else 1)) (e' / 2 - 65))

/-! ### FP64, of the solver engines' scalar stage (R291) -/

/-- An FP64 pattern's value, and a value rounded to FP64. -/
def dec64 (v : Nat) : FV := decIeee 11 52 v
def nan64 : Nat := 0x7FF8000000000000
def inf64 (neg : Bool) : Nat := if neg then 0xFFF0000000000000 else 0x7FF0000000000000
def enc64 : FV → Nat
  | .nan => nan64
  | .inf n => inf64 n
  | .fin n m e =>
    let r := roundDy 53 (-1074) m e
    if reachesPow r.1 r.2 1024 then inf64 n else encFin 11 52 n r.1 r.2

/-- FP64 sum, difference and product, each with one rounding. -/
def add64 (a b : Nat) : Nat := enc64 ((dec64 a).add (dec64 b))
def sub64 (a b : Nat) : Nat := enc64 ((dec64 a).add (dec64 b).neg)
def mul64 (a b : Nat) : Nat := enc64 ((dec64 a).mul (dec64 b))

/-- FP64 division and square root, correctly rounded. -/
def div64 (a b : Nat) : Nat :=
  match dec64 a, dec64 b with
  | .nan, _ => nan64
  | _, .nan => nan64
  | .inf _, .inf _ => nan64
  | .inf x, .fin y _ _ => inf64 (xor x y)
  | .fin x _ _, .inf y => b2n (xor x y) * 2 ^ 63
  | .fin x m e, .fin y n f =>
    if n = 0 then (if m = 0 then nan64 else inf64 (xor x y))
    else enc64 (.fin (xor x y) (quoDy m n).1 ((quoDy m n).2 + e - f))
def sqrt64 (a : Nat) : Nat :=
  match dec64 a with
  | .nan => nan64
  | .inf n => if n then nan64 else inf64 false
  | .fin n m e =>
    if m = 0 then b2n n * 2 ^ 63
    else if n then nan64
    else
      let e' := if e % 2 = 0 then e else e - 1
      let m' := if e % 2 = 0 then m else 2 * m
      let r := isqrt (m' * 2 ^ 128)
      enc64 (.fin false (2 * r + (if r * r = m' * 2 ^ 128 then 0 else 1)) (e' / 2 - 65))

/-- Comparison, sign and finiteness of FP64 values, and the formats' conversions. -/
def lt64 (a b : Nat) : Bool := (dec64 a).lt (dec64 b)
def neg64 (a : Nat) : Nat := if bit a 63 then a - 2 ^ 63 else a + 2 ^ 63
def abs64 (a : Nat) : Nat := bits a 0 63
def fin64 (a : Nat) : Bool := match dec64 a with | .fin _ _ _ => true | _ => false
def to64 (a : Nat) : Nat := enc64 (dec32 a)
def to32 (a : Nat) : Nat := enc32 (dec64 a)

/-- The neighbour `k` units in the last place away from a positive finite FP32 pattern. -/
def ulps32 (a : Nat) (k : Int) : Nat := ((a : Int) + k).toNat

/-- A unit in the last place of a finite FP32 value, as a power of two. -/
def ulpExp32 (a : Nat) : Int := if bits a 23 8 = 0 then -149 else (bits a 23 8 : Int) - 150

/-- `c` is within one unit in the last place of 1 ÷ `w`, for positive finite patterns. -/
def recipOk (c w : Nat) : Bool :=
  match dec32 c, dec32 w with
  | .fin false m e, .fin false n f =>
    -- |c w - 1| ≤ ulp(c) w
    let lhs := (FV.fin false m e).mul (.fin false n f)
    let d := (lhs.add (.fin true 1 0)).abs
    !(FV.lt (.fin false n (f + ulpExp32 c)) d)
  | _, _ => false

/-- `c` is within one unit in the last place of 1 ÷ √`w`, for positive finite patterns. -/
def rsqrtOk (c w : Nat) : Bool :=
  match dec32 c with
  | .fin false m e =>
    let u := FV.fin false 1 (ulpExp32 c)
    let lo := (FV.fin false m e).add u.neg
    let hi := (FV.fin false m e).add u
    let one := FV.fin false 1 0
    !((one).lt ((lo.mul lo).mul (dec32 w))) && !(((hi.mul hi).mul (dec32 w)).lt one)
  | _ => false

/-- 1 ÷ `w` as the gate pipeline and the engines give it (R131): within one unit in the last place, which one is the
part's choice; ±0 gives ±∞ and NaN gives NaN. -/
def recip32 (w : Nat) : Nat :=
  match dec32 w with
  | .nan => nan32
  | .inf n => b2n n * 2 ^ 31
  | .fin n m _ =>
    if m = 0 then inf32 n
    else
      let r := div32 0x3F800000 (abs32 w)
      let c := ulps32 r (Config.ulpChoice 0x0A w)
      (if fin32 r && fin32 c && recipOk c (abs32 w) then c else r) + b2n n * 2 ^ 31

/-- 1 ÷ √`w` (R131): within one unit in the last place; +0 gives +∞, a negative value NaN. -/
def rsqrt32 (w : Nat) : Nat :=
  match dec32 w with
  | .nan => nan32
  | .inf n => if n then nan32 else 0
  | .fin n m _ =>
    if m = 0 then (if n then Config.gateValue 0x0B w % 2 ^ 32 else inf32 false)
    else if n then nan32
    else
      let r := div32 0x3F800000 (sqrt32 w)
      let c := ulps32 r (Config.ulpChoice 0x0B w)
      if fin32 c && rsqrtOk c w then c else r

/-! ### Element formats (R112, R113, R126) -/

/-- Format codes of R126. -/
def isMx (f : Nat) : Bool := f ≤ 5
def is16 (f : Nat) : Bool := f = 8 || f = 9
def isFmt (f : Nat) : Bool := isMx f || is16 f || f = 0xA

/-- Bits of an element. -/
def fmtBits (f : Nat) : Nat :=
  match f with | 0 => 4 | 1 => 6 | 2 => 6 | 3 => 8 | 4 => 8 | 5 => 8 | 8 => 16 | 9 => 16 | _ => 32

/-- Exponent and mantissa bits of a floating-point format. -/
def fmtEM (f : Nat) : Nat × Nat :=
  match f with
  | 0 => (2, 1) | 1 => (2, 3) | 2 => (3, 2) | 3 => (4, 3) | 4 => (5, 2) | 8 => (8, 7) | 9 => (5, 10) | _ => (8, 23)

/-- An element's value, without its block's scale (R112, R113). The 4- and 6-bit formats and E4M3 use their top exponent
for numbers; E4M3's S.1111.111 is NaN; MXINT8 counts in steps of 2^−6. -/
def decElem (f v : Nat) : FV :=
  match f with
  | 5 => .fin (bit v 7) (sext 8 v).natAbs (-6)
  | 0 | 1 | 2 | 3 =>
    let eb := (fmtEM f).1
    let mb := (fmtEM f).2
    let x := bits v mb eb
    let m := bits v 0 mb
    let bias : Int := 2 ^ (eb - 1) - 1
    let s := bit v (eb + mb)
    if f = 3 ∧ x = 15 ∧ m = 7 then .nan
    else if x = 0 then .fin (s && (m ≠ 0 || f = 3)) m (1 - bias - mb)
    else .fin s (2 ^ mb + m) (x - bias - mb)
  | _ => decIeee (fmtEM f).1 (fmtEM f).2 v

/-- An element with its block's E8M0 scale (R114, R115): 2^(scale − 127) times its value; a scale of 0xFF makes it NaN. -/
def decScaled (f v scale : Nat) : FV :=
  if scale = 0xFF then .nan
  else match decElem f v with
    | .fin n m e => .fin n m (e + scale - 127)
    | x => x

/-- The largest finite magnitude of a format, and its pattern without the sign (R112). -/
def fmtMax (f : Nat) : FV :=
  match f with
  | 0 => .fin false 6 0
  | 1 => .fin false 15 (-1)
  | 2 => .fin false 28 0
  | 3 => .fin false 448 0
  | 4 => .fin false 57344 0
  | 5 => .fin false 127 (-6)
  | 8 => .fin false 255 120
  | 9 => .fin false 65504 0
  | _ => .fin false (2 ^ 24 - 1) 104
def fmtMaxCode (f : Nat) : Nat :=
  match f with
  | 0 => 7 | 1 => 0x1F | 2 => 0x1F | 3 => 0x7E | 4 => 0x7B | 5 => 0x7F | 8 => 0x7F7F | 9 => 0x7BFF | _ => 0x7F7FFFFF

/-- The largest finite value of a format with a sign. -/
def maxCode (f : Nat) (neg : Bool) : Nat :=
  if f = 5 then (if neg then 0x81 else 0x7F) else fmtMaxCode f + b2n neg * 2 ^ (fmtBits f - 1)

/-! ### Conversion at output (R116 to R118) -/

/-- What a conversion reports: the numeric flags it sets (R133), and how many elements it replaced or clamped. -/
structure Conv where
  flags : Nat := 0
  count : Nat := 0
  deriving DecidableEq, Repr

/-- The numeric flags (CLUSTER_NUM_STICKY, R133, R134). -/
def nfIN_NAN : Nat := 0x01
def nfIN_INF : Nat := 0x02
def nfOUT_NAN : Nat := 0x04
def nfOUT_INF : Nat := 0x08
def nfOUT_SAT : Nat := 0x10
def nfSCALE_RAISED : Nat := 0x20
def nfSCALE_SAT : Nat := 0x40
def nfGATE_DOMAIN : Nat := 0x80

/-- Both reports. -/
def Conv.join (a b : Conv) : Conv := ⟨a.flags ||| b.flags, a.count + b.count⟩

/-- A value written as BF16, FP16 or FP32 (R116). -/
def convFloat (f : Nat) (v : FV) : Nat × Conv :=
  match v with
  | .nan => (maxCode f false, ⟨nfOUT_NAN, 1⟩)
  | .inf n => (maxCode f n, ⟨nfOUT_INF, 1⟩)
  | .fin n m e =>
    if (fmtMax f).lt (.fin false m e) then (maxCode f n, ⟨nfOUT_SAT, 1⟩)
    else
      let em := fmtEM f
      let r := roundDy (em.2 + 1) (2 - 2 ^ (em.1 - 1) - em.2) m e
      (encFin em.1 em.2 n r.1 r.2, {})

/-- The exponent of the largest power of two of a format (R117). -/
def fmtEmax (f : Nat) : Int :=
  match f with | 0 => 2 | 1 => 2 | 2 => 4 | 3 => 8 | 4 => 15 | _ => 0

/-- One element of a block divided by 2^`x` and rounded (R117): its code and whether it overflows. -/
def roundElem (f : Nat) (x : Int) (n : Bool) (m : Nat) (e : Int) : Nat × Bool :=
  if f = 5 then
    let r := roundDy 64 0 m (e - x + 6)
    let q := r.1 * pow2 r.2
    if 127 < q then (maxCode 5 n, true) else (wrapN 8 (sgn n q), false)
  else
    let em := fmtEM f
    let r := roundDy (em.2 + 1) (2 - 2 ^ (em.1 - 1) - em.2) m (e - x)
    if (fmtMax f).lt (.fin false r.1 r.2) then (maxCode f n, true) else
      -- exponents of these formats need no bias limit above: the top exponent holds numbers
      (encFin em.1 em.2 n r.1 r.2, false)

/-- A value of a block as it takes part in the choice of the scale: a NaN or an infinity as the largest FP32 value. -/
def scaleMag : FV → FV
  | .fin _ m e => .fin false m e
  | _ => fmtMax 0xA

/-- floor(log2) of a positive value. -/
def FV.log2 : FV → Int
  | .fin _ m e => e + Nat.log2 m
  | _ => 0

/-- Convert one block to an MX format (R116 to R118): the scale code, the element codes, and the report. -/
def convBlock (f : Nat) (sat : Bool) (vs : List FV) : Nat × List Nat × Conv :=
  let a := vs.foldl (fun a v => if a.lt (scaleMag v) then scaleMag v else a) (.fin false 0 0)
  let x0 : Int := if a.isZero then -127 else min 127 (max (-127) (a.log2 - fmtEmax f))
  let one := fun (x : Int) (v : FV) =>
    match v with
    | .nan => (maxCode f false, false)
    | .inf n => (maxCode f n, false)
    | .fin n m e => roundElem f x n m e
  let ovf := vs.any fun v => (one x0 v).2
  let raise := ovf && !sat && x0 < 127
  let x := if raise then x0 + 1 else x0
  let out := vs.map (one x)
  let reps := vs.map fun v => match v with
    | .nan => (⟨nfOUT_NAN, 1⟩ : Conv)
    | .inf _ => ⟨nfOUT_INF, 1⟩
    | .fin _ _ _ => {}
  let clamped := (out.filter (·.2)).length
  let fl := (if clamped ≠ 0 then nfOUT_SAT else 0) + (if raise then nfSCALE_RAISED else 0) +
    (if ovf && !sat && !raise then nfSCALE_SAT else 0)
  ((x + 127).toNat, out.map (·.1), (reps.foldl Conv.join ⟨fl, clamped⟩))

/-- Cut a list into blocks of `n`; `fuel` bounds the blocks. -/
def cutList {α : Type} (n : Nat) : Nat → List α → List (List α)
  | 0, _ => []
  | fuel + 1, l => if l.isEmpty then [] else l.take n :: cutList n fuel (l.drop n)

/-- Convert a row: its element codes, its scale codes (MX formats), and the report. -/
def convRow (f : Nat) (sat : Bool) (vs : List FV) : List Nat × List Nat × Conv :=
  if isMx f then
    let bs := (cutList 32 (vs.length / 32 + 1) vs).map (convBlock f sat)
    ((bs.map fun b => b.2.1).flatten, bs.map (·.1), bs.foldl (fun c b => c.join b.2.2) {})
  else
    let es := vs.map (convFloat f)
    (es.map (·.1), [], es.foldl (fun c b => c.join b.2) {})

/-- Pack element codes of `w` bits, the lowest-numbered in the lowest bits (R122). -/
def packBits (w : Nat) : List Nat → Nat
  | [] => 0
  | x :: r => x % 2 ^ w + 2 ^ w * packBits w r

/-- The bytes that `n` elements of `w` bits take. -/
def packedBytes (w n : Nat) : Nat := (w * n + 7) / 8

/-- The flags an input value sets (R115). -/
def inFlags : FV → Nat
  | .nan => nfIN_NAN
  | .inf _ => nfIN_INF
  | .fin _ _ _ => 0

/-- The flags of a list of inputs. -/
def inFlagsAll (l : List FV) : Nat := l.foldl (fun f v => f ||| inFlags v) 0

end Sys2Proof.Machine
end

