-- ==== Sys2Proof/Machine/Chorus.lean ====
section
/-!
DEFINITION. Chorus (chapter 2): the tick layout and its writes, the frame program's slices, overruns and recovery
branches, the follower's lock, and what Chorus does at a sample edge.
-/
namespace Sys2Proof.Machine

/-! ### Tick layout (R37 to R41) -/

/-- A tick period that R37 admits. -/
def periodOk (p : Nat) : Bool := 37500 ≤ p && p ≤ 600000 && p % 3 = 0

/-- The three window lengths of a CHORUS_WIN_LEN word, in units of 16 rc. -/
def winGolden (w : Nat) : Nat := bits w 20 10
def winTest (w : Nat) : Nat := bits w 10 10
def winSafety (w : Nat) : Nat := bits w 0 10

/-- The windows of `w` take no more than half of period `p` (R41). -/
def winFits (w p : Nat) : Bool := 2 * (16 * (winGolden w + winTest w + winSafety w)) ≤ p

/-- A CHORUS_WIN_LEN word whose lengths reach their least values (R41). -/
def winLeast (w : Nat) : Bool := 192 ≤ winSafety w && 64 ≤ winTest w && 64 ≤ winGolden w

/-- The CHORUS_WIN_LEN word in force. -/
def Device.winInForce (s : Device) : Nat :=
  s.rd 0 CHORUS_WIN_LEN_GOLDEN_LEN * 2 ^ 20 + s.rd 0 CHORUS_WIN_LEN_TEST_LEN * 2 ^ 10 + s.rd 0 CHORUS_WIN_LEN_SAFETY_LEN

/-- A write waits for the next boundary, or, made in a boundary's own rc, for the one after it (R39). Of two writes that wait for the same
boundary the later one takes effect. -/
def TickPend.write (p : TickPend) (v : Nat) (atBoundary : Bool) : TickPend :=
  if atBoundary then { p with late := some v } else { p with now := some v }

/-- The value in force after the next boundary, and after every pending write. -/
def TickPend.next (p : TickPend) (v : Nat) : Nat := p.now.getD v
def TickPend.last (p : TickPend) (v : Nat) : Nat := p.late.getD (p.next v)

/-- What waits once a boundary has passed. -/
def TickPend.pass (p : TickPend) : TickPend := { now := p.late, late := none }

/-- The window lengths that will be in force once every pending write has taken effect. DESIGN CHOICE (188): a period write is tested against
these, where R41 says 'in force or pending'. -/
def Device.winNext (s : Device) : Nat := s.chorus.pendWin.last s.winInForce

/-- The period in force, and the one that will be in force when a write made now takes effect (R41). -/
def Device.period (s : Device) : Nat := s.rd 0 CHORUS_TICK_PERIOD_PERIOD_RC
def Device.periodNext (s : Device) (atBoundary : Bool) : Nat :=
  if atBoundary then s.chorus.pendPeriod.last s.period else s.chorus.pendPeriod.next s.period

/-- The starts of the golden slot, the test window and the safety window, in rc from the sample edge (R40). -/
def Device.safetyStart (s : Device) : Nat := s.period - 16 * s.rd 0 CHORUS_WIN_LEN_SAFETY_LEN
def Device.testStart (s : Device) : Nat := s.safetyStart - 16 * s.rd 0 CHORUS_WIN_LEN_TEST_LEN
def Device.goldenStart (s : Device) : Nat := s.testStart - 16 * s.rd 0 CHORUS_WIN_LEN_GOLDEN_LEN

/-- Output-phase mark `p` in rc from the sample edge (R42). -/
def Device.phaseMark (s : Device) (p : Nat) : Nat := p * s.period / 256

/-- The tick in the frame, the rc in the tick, and the ticks of a frame. -/
def Device.tick (s : Device) : Nat := s.rd 0 CHORUS_POSITION_TICK_IN_FRAME
def Device.rc (s : Device) : Nat := s.rd 0 CHORUS_POSITION_RC_IN_TICK
def Device.frameLen (s : Device) : Nat := s.rd 0 CHORUS_FRAME_LEN_TICKS

/-- A write to a tick-layout register reaches its rules: on die 0, before the lock (R39, R58). -/
def Device.chorusOpen (s : Device) (die : Nat) : Bool := die = 0 && !s.on 0 CHORUS_LOCK_LOCK

/-- The body of CHORUS_TICK_PERIOD_WRITE (R37, R39, R41). -/
def tickPeriodWrite (die value : Nat) (atBoundary : Bool) (s : Device) : Device :=
  if s.chorusOpen die then
    if periodOk (bits value 0 20) && winFits s.winNext (bits value 0 20) then
      { s with chorus := { s.chorus with pendPeriod := s.chorus.pendPeriod.write (bits value 0 20) atBoundary } }
    else s.set 0 CHORUS_STATUS_RANGE_ERR
  else s

/-- The body of CHORUS_FRAME_LEN_WRITE (R38, R39). -/
def frameLenWrite (die value : Nat) (atBoundary : Bool) (s : Device) : Device :=
  if s.chorusOpen die then
    if 1 ≤ bits value 0 11 ∧ bits value 0 11 ≤ 1024 then
      { s with chorus := { s.chorus with pendFrame := s.chorus.pendFrame.write (bits value 0 11) atBoundary } }
    else s.set 0 CHORUS_STATUS_RANGE_ERR
  else s

/-- The body of CHORUS_WIN_LEN_WRITE (R39, R41). -/
def winLenWrite (die value : Nat) (atBoundary : Bool) (s : Device) : Device :=
  if s.chorusOpen die then
    if winLeast (bits value 0 30) && winFits (bits value 0 30) (s.periodNext atBoundary) then
      { s with chorus := { s.chorus with pendWin := s.chorus.pendWin.write (bits value 0 30) atBoundary } }
    else s.set 0 CHORUS_STATUS_RANGE_ERR
  else s

/-- At a frame boundary, pending layout writes take effect; one made in the boundary's own rc waits for the next (R39). -/
def Device.applyLayout (s : Device) : Device :=
  let c := s.chorus
  let s1 := match c.pendPeriod.now with | some v => s.wr 0 CHORUS_TICK_PERIOD_PERIOD_RC v | none => s
  let s2 := match c.pendFrame.now with | some v => s1.wr 0 CHORUS_FRAME_LEN_TICKS v | none => s1
  let s3 := match c.pendWin.now with
    | some v => ((s2.wr 0 CHORUS_WIN_LEN_GOLDEN_LEN (winGolden v)).wr 0 CHORUS_WIN_LEN_TEST_LEN (winTest v)).wr 0 CHORUS_WIN_LEN_SAFETY_LEN (winSafety v)
    | none => s2
  { s3 with chorus := { c with pendPeriod := c.pendPeriod.pass, pendFrame := c.pendFrame.pass, pendWin := c.pendWin.pass } }

/-! ### The frame program in schedule memory (R44 to R47) -/

/-- Word at byte offset `off` of a die's schedule memory. -/
def Device.schedWord (s : Device) (die off : Nat) : Nat := SMap.get 0 s.chorus.sched (die * 2 ^ 20 + off / 4)

/-- Write a word of schedule memory. -/
def Device.schedStore (s : Device) (die off v : Nat) : Device :=
  { s with chorus := { s.chorus with sched := SMap.put 0 s.chorus.sched (die * 2 ^ 20 + off / 4) (v % 2 ^ 32) } }

/-- Word `w` of phase record `p`, of slice record `i`, and of command `c` of the command area. -/
def Device.phaseWord (s : Device) (die p : Nat) : Nat := s.schedWord die (0x20 + 8 * p)
def Device.sliceWord (s : Device) (die i w : Nat) : Nat := s.schedWord die (0x100000 + 32 * i + 4 * w)
def Device.cmdWord (s : Device) (die c w : Nat) : Nat := s.schedWord die (0x200000 + 64 * c + 4 * w)

/-- The fields of a phase record (R46). -/
def phOp (w : Nat) : Nat := bits w 28 3
def phLast (w : Nat) : Nat := bits w 16 10
def phFirst (w : Nat) : Nat := bits w 0 10

/-- The slice record as its eight words (R47). -/
def Device.sliceRec (s : Device) (die i : Nat) : List Nat := (List.range 8).map (s.sliceWord die i)

/-- The fields of a slice record (R47). -/
def slKind (r : List Nat) : Nat := bits (wd r 0) 29 3
def slRel (r : List Nat) : Bool := bit (wd r 0) 28
def slPhase (r : List Nat) : Nat := bits (wd r 0) 20 6
def slTick (r : List Nat) : Nat := bits (wd r 0) 0 10
def slStart (r : List Nat) : Nat := bits (wd r 1) 0 20
def slBudget (r : List Nat) : Nat := bits (wd r 2) 0 20
def slCommand (r : List Nat) : Nat := wd r 5
def slWaitEn (r : List Nat) : Bool := bit (wd r 6) 30
def slWaitSync (r : List Nat) : Nat := bits (wd r 6) 16 14
def slRecovery (r : List Nat) : Nat := bits (wd r 6) 0 16
def slSignalEn (r : List Nat) : Bool := bit (wd r 7) 14
def slSignalSync (r : List Nat) : Nat := bits (wd r 7) 0 14

/-- The bits of `v` that are set, below `n`. -/
def bitList (v n : Nat) : List Nat := (List.range n).filter (bit v)

/-- The units a slice names: local cores 0–63; solver engines from 100, both for a pair (R284); the control engine from 200; checker
groups from 300 and the planning sequencer 316, all of them for 0xFF (R265); the fusion unit 400; DMA engines from 500. A host
notification names none. -/
def slUnits (r : List Nat) : List Nat :=
  match slKind r with
  | 0 => bitList (wd r 3 + 2 ^ 32 * wd r 4) 64
  | 1 => if bits (wd r 3) 0 8 = 2 then [100, 101] else [100 + bits (wd r 3) 0 8]
  | 2 => [200 + bits (wd r 3) 0 8]
  | 3 => if bits (wd r 3) 0 8 = 0xFF then (List.range 17).map (300 + ·) else [300 + bits (wd r 3) 0 8]
  | 4 => [400]
  | 5 => [500 + bits (wd r 3) 0 4]
  | _ => []

/-- Slices and phases loaded on a die. -/
def Device.sliceCount (s : Device) (die : Nat) : Nat := s.rd die CHORUS_FP_INFO_SLICES
def Device.phaseCount (s : Device) (die : Nat) : Nat := s.rd die CHORUS_FP_INFO_PHASES

/-- The phase record that covers a tick on a die. -/
def Device.phaseAt (s : Device) (die t : Nat) : Option Nat :=
  ((List.range (s.phaseCount die)).map (s.phaseWord die)).find? fun w => phFirst w ≤ t ∧ t ≤ phLast w

/-- Two unit lists share a unit. -/
def meets (a b : List Nat) : Bool := a.any (b.contains ·)

/-- The wait of a slice (R47, R48): the value is in words 2 and 3 of the first command of its list. -/
def Device.sliceWaitDone (s : Device) (die : Nat) (r : List Nat) : Bool :=
  !slWaitEn r || waitDone (s.syncVal (die * 16384 + slWaitSync r))
    (s.cmdWord die (slCommand r) 2 + 2 ^ 32 * s.cmdWord die (slCommand r) 3)

/-- Slices replaced in the list of due and running ones. -/
def Device.setSlices (s : Device) (l : List SliceRun) : Device := { s with chorus := { s.chorus with slices := l } }

/-- Two entries are of one slice in one tick: a slice comes due at most once in a tick. -/
def SliceRun.is (x y : SliceRun) : Bool := x.die = y.die && x.idx = y.idx && x.edges = y.edges

/-- The entry of a slice that runs, or else the one that has been due longest. -/
def Device.findSlice (s : Device) (die idx : Nat) : Option SliceRun :=
  (s.chorus.slices.find? fun x => x.die = die ∧ x.idx = idx ∧ x.started = true).or
    (s.chorus.slices.find? fun x => x.die = die ∧ x.idx = idx)

/-- The entry of a slice that has been due longest and has not started. -/
def Device.dueSlice (s : Device) (die idx : Nat) : Option SliceRun :=
  s.chorus.slices.find? fun x => x.die = die ∧ x.idx = idx ∧ x.started = false

/-- Remove an entry from the list of due and running slices. -/
def Device.dropSlice (s : Device) (x : SliceRun) : Device := s.setSlices (s.chorus.slices.filter fun y => !y.is x)

/-- A self-test lane runs the logic test of a core (R361): an item of TARGET 2 whose UNIT is the core. -/
def Device.coreTested (s : Device) (die core : Nat) : Bool :=
  (SMap.get {} s.selfTest die).lanes.any fun e => match e.2 with
    | some l => bits (wd l.item 0) 0 8 = 2 && bits (wd l.item 0) 16 8 = core
    | none => false

/-- A slice that is due stands before another (R48): it has been due since an earlier tick, or it has the earlier START_RC of one tick, or else
the lower index. -/
def Device.sliceBefore (s : Device) (y x : SliceRun) : Bool :=
  let key := fun (z : SliceRun) => slStart (s.sliceRec z.die z.idx)
  x.edges < y.edges || (x.edges = y.edges && (key y < key x || (key y = key x && y.idx < x.idx)))

/-- Whether a due slice may start (R48): it is eligible from rc 1 of its tick, its START_RC has come, no slice runs on a
unit it names and none that stands before it waits there, its wait is satisfied, and none of its cores is under test (R361). -/
def Device.sliceReady (s : Device) (x : SliceRun) : Bool :=
  let r := s.sliceRec x.die x.idx
  !x.started && (1 ≤ x.edges || max 1 (slStart r) ≤ s.rc) && s.sliceWaitDone x.die r &&
  !(s.chorus.slices.any fun y => y.die = x.die && !y.is x && (y.started || s.sliceBefore y x) && meets y.units x.units) &&
  !(x.units.any fun u => u < 64 && s.coreTested x.die u)

/-! ### Overruns and recovery branches (R50 to R52, R59) -/

/-- The overrun record's identity of a slice. -/
def Device.logIs (s : Device) (x : SliceRun) : Bool :=
  s.on x.die CHORUS_OVERRUN_LOG_VALID && s.rd x.die CHORUS_OVERRUN_LOG_SLICE = x.idx &&
  s.rd x.die CHORUS_OVERRUN_LOG_TICK = x.tick

/-- Record a slice in the overrun log if the log is free; a slice already logged only has DEADLINE set (R59). DESIGN CHOICE (189): a slice that
reaches its hard limit, or fails, while the log is free and holds no record of it makes a new record, with DEADLINE 1. -/
def Device.logSlice (s : Device) (x : SliceRun) (deadline : Bool) : Device :=
  if s.on x.die CHORUS_OVERRUN_LOG_VALID then
    if s.logIs x && deadline then s.set x.die CHORUS_OVERRUN_LOG_DEADLINE else s
  else
    ((((s.set x.die CHORUS_OVERRUN_LOG_VALID).wr x.die CHORUS_OVERRUN_LOG_DEADLINE (b2n deadline)).wr x.die
      CHORUS_OVERRUN_LOG_KIND x.kind).wr x.die CHORUS_OVERRUN_LOG_TICK x.tick).wr x.die CHORUS_OVERRUN_LOG_SLICE x.idx

/-- A slice passes its deadline (R50): OVERRUN is set, the overrun is counted, and it is recorded if the log is free. -/
def Device.overrun (s : Device) (x : SliceRun) : Device :=
  let s1 := ((s.set x.die CHORUS_STATUS_OVERRUN).addHold x.die CHORUS_OVERRUN_COUNT_COUNT 1).logSlice x false
  s1.setSlices (s1.chorus.slices.map fun y => if y.is x then { y with late := true } else y)

/-- The indexes of a recovery branch: the slice it names and the REL = 1 slices that follow (R52). -/
def Device.branchSlices (s : Device) (die first : Nat) : List Nat :=
  first :: ((List.range (s.sliceCount die)).drop (first + 1)).takeWhile fun i => slRel (s.sliceRec die i)

/-- A slice runs. -/
def Device.sliceRuns (s : Device) (die idx : Nat) : Bool := s.chorus.slices.any fun x => x.die = die && x.idx = idx && x.started

/-- A branch begins at the sample edge at which the tick count is `base` (R52): the due slices that have not started on
its units are skipped, and an older branch loses those units and its unstarted slices there; one that has none left has ended. -/
def Device.startBranch (s : Device) (b : Branch) : Device :=
  let c := s.chorus
  let mine := { b with base := some c.tickNo, left := s.branchSlices b.die b.first }
  let old := c.branches.map fun o =>
    if o.die = b.die ∧ meets o.units b.units then
      let left := o.left.filter fun i => s.sliceRuns o.die i || !meets (slUnits (s.sliceRec o.die i)) b.units
      { o with units := o.units.filter (!b.units.contains ·), left := left, done := o.done || (o.base.isSome && left.isEmpty) }
    else o
  { s with chorus := { c with
      branches := (old.filter fun o => !o.units.isEmpty) ++ [mine]
      slices := c.slices.filter fun x => x.started || x.die ≠ b.die || !meets x.units b.units } }

/-- The slices of a die that become eligible in the tick that begins (R43, R47, R52): the REL = 0 slices of its TICK on
units no branch holds, and the recovery slices whose TICK counts to it from their branch edge. -/
def Device.dueSlices (s : Device) (die : Nat) : List SliceRun :=
  (List.range (s.sliceCount die)).filterMap fun i =>
    let r := s.sliceRec die i
    let x : SliceRun := { die := die, idx := i, kind := slKind r, tick := s.tick, units := slUnits r }
    if slRel r then
      if s.chorus.branches.any fun b =>
          b.die = die && b.left.contains i && b.base = some (s.chorus.tickNo - slTick r) && slTick r ≤ s.chorus.tickNo
      then some x else none
    else if slTick r = s.tick && !(s.chorus.branches.any fun b => b.die = die && b.base.isSome && meets b.units x.units)
    then some x else none

/-- Take the recovery branch of a failed slice (R52): at once if it ended on a sample edge, at the next edge otherwise. -/
def Device.takeBranch (s : Device) (x : SliceRun) : Device :=
  let r := s.sliceRec x.die x.idx
  if slRecovery r = 0xFFFF then s
  else
    let b : Branch := { die := x.die, first := slRecovery r, phase := slPhase r, units := x.units }
    if s.rc = 0 then
      let s1 := s.startBranch b
      s1.setSlices (s1.chorus.slices ++ (s1.dueSlices x.die).filter fun y =>
        slRel (s1.sliceRec y.die y.idx) && !(s1.chorus.slices.any fun z => z.die = y.die && z.idx = y.idx))
    else { s with chorus := { s.chorus with branches := s.chorus.branches ++ [b] } }

/-- A slice leaves its units: its signal is added whatever its status (R47), and a branch it belongs to comes nearer its
end (R52). -/
def Device.sliceLeaves (s : Device) (x : SliceRun) : Device :=
  let r := s.sliceRec x.die x.idx
  let s1 := s.dropSlice x
  let s2 := if slSignalEn r then s1.syncAdd (x.die * 16384 + slSignalSync r) 1 else s1
  let s2 := s2.dropLink (.slice x.die x.idx)
  let s2 : Device := { s2 with disp := { s2.disp with waits := s2.disp.waits.filter fun w => !(w.2.2 / 64 = x.die && x.units.contains (w.2.2 % 64)) } }
  { s2 with chorus := { s2.chorus with
      branches := s2.chorus.branches.map fun b =>
        if b.die = x.die ∧ b.base.isSome ∧ b.left.contains x.idx then
          { b with left := b.left.filter (· ≠ x.idx), done := (b.left.filter (· ≠ x.idx)).isEmpty }
        else b } }

/-- The statuses that end a slice as one ended at its hard limit, with its recovery branch (R52, R108, R191, R431). -/
def sliceFails (status : Nat) : Bool :=
  [stDEADLINE, stUNMAPPED, stUNCORRECTABLE, stXLATE_FAULT, stLINK_LOST, stFENCED, stTIMEOUT, stDISABLED, stCOLL_TIMEOUT,
    stCOLL_MISMATCH].contains status

/-- A slice ends with a status that fails it (R52, R259, R431): it is logged as ended at its hard limit, DEADLINE is
raised, it leaves its units, its recovery branch is taken, and a fusion slice of die 0 raises F4. -/
def Device.failSlice (s : Device) (x : SliceRun) : Device :=
  let s1 := ((s.set x.die CHORUS_STATUS_DEADLINE).logSlice x true).sliceLeaves x
  let s2 := s1.takeBranch x
  if x.kind = 4 ∧ x.die = 0 then s2.raiseF4 3 else s2

/-- An entry of a slice ends with a status, and the slice that runs does. -/
def Device.endRun (s : Device) (x : SliceRun) (status : Nat) : Device := if sliceFails status then s.failSlice x else s.sliceLeaves x
def Device.endSlice (s : Device) (die idx status : Nat) : Device :=
  match s.findSlice die idx with
  | none => s
  | some x => s.endRun x status

/-- The body of CHORUS_LOCK (R39, R58): a 1 in bit 0 locks the block, on die 0. -/
def chorusLockWrite (die value : Nat) (s : Device) : Device :=
  if die = 0 ∧ bit value 0 then s.set 0 CHORUS_LOCK_LOCK else s

/-- The body of CHORUS_OVERRUN_LOG_CLEAR (R59): the clear first, then an overrun recorded in the same cycle. DESIGN CHOICE (190): the other
fields of a freed record read 0. -/
def overrunLogClear (die value : Nat) (same : Option Nat) (s : Device) : Device :=
  let s1 := if bit value 31 then
    ((((s.clr die CHORUS_OVERRUN_LOG_VALID).clr die CHORUS_OVERRUN_LOG_DEADLINE).clr die CHORUS_OVERRUN_LOG_KIND).clr die
      CHORUS_OVERRUN_LOG_TICK).clr die CHORUS_OVERRUN_LOG_SLICE else s
  match same.bind (s1.findSlice die) with
  | some x => s1.overrun x
  | none => s1

/-! ### Following a tick source (R55 to R57) -/

/-- The lock states of R57. -/
def lkFREE : Nat := 0
def lkACQUIRE : Nat := 1
def lkLOCKED : Nat := 2
def lkHOLDOVER : Nat := 3

/-- An offset in ns as rc (3 rc are 5 ns), rounded towards zero. -/
def nsToRc (x : Int) : Int := (x * 3).tdiv 5

/-- An adjustment of a tick: at most 16 rc either way (R55, R57). -/
def clamp16 (x : Int) : Int := if x < -16 then -16 else if 16 < x then 16 else x

/-- `x` reduced to half a period either side of 0. -/
def wrapPeriod (p : Nat) (x : Int) : Int :=
  let r := x % (p : Int)
  if 2 * r > (p : Int) then r - p else r

/-- The tick period in ns (R37). -/
def Device.periodNs (s : Device) : Nat := s.period / 3 * 5

/-- The offset lies within 30 rc, which is 50 ns (R57). -/
def within30 (offNs : Int) : Bool := -50 ≤ offNs && offNs ≤ 50

/-- A source sample on a follower: the source's sample edge fell at `srcNs` of this device's time, and it carried frame
position `pos` if it was a frame boundary's or a tick flit's. The offset is published, the next tick is corrected
towards the source, and the lock state moves under R57. The position is adopted at the next sample edge: 1 where this device's own edge of the
source's boundary has passed already, else 0. -/
def Device.sourceSample (s : Device) (srcNs : Int) (pos : Option Nat) : Device :=
  if s.rd 0 CHORUS_CTL_ROLE = 0 then s
  else
    let ahead := (s.chorus.edgeTime : Int) - srcNs
    let off := wrapPeriod s.periodNs ahead
    let st := s.rd 0 CHORUS_STATUS_LOCK_STATE
    let near := within30 off
    let boundary := pos = some 0
    let adj := if st = lkACQUIRE ∨ st = lkLOCKED then clamp16 (-(nsToRc off)) else 0
    let next :=
      if st = lkFREE ∨ st = lkHOLDOVER then lkACQUIRE
      else if st = lkLOCKED then (if near then lkLOCKED else lkACQUIRE)
      else if near ∧ boundary ∧ 64 ≤ s.chorus.within then lkLOCKED else lkACQUIRE
    let adopt := st = lkACQUIRE ∧ next = lkLOCKED
    let s1 := (s.wr 0 CHORUS_OFFSET_OFFSET_NS (wrapN 32 off)).wr 0 CHORUS_STATUS_LOCK_STATE next
    { s1 with chorus := { s1.chorus with
        adjust := adj
        within := if near then s.chorus.within + 1 else 0
        missed := 0
        seen := true
        adopt := if adopt then some (if -(s.periodNs : Int) < 2 * ahead then 1 % s.frameLen else 0) else s.chorus.adopt } }

/-- The body of TICK_FLIT (R56): taken on the port that SOURCE and OLINER_DIE name; the link delay is subtracted from its arrival. The device time
it carries is kept. -/
def tickFlitBody (die : Nat) (stamp : TickStamp) (s : Device) : Device :=
  if s.rd 0 CHORUS_CTL_SOURCE = 1 ∧ s.rd 0 CHORUS_CTL_OLINER_DIE = die then
    let s1 := s.sourceSample ((s.chorus.time : Int) - s.chorus.linkDelay) (some stamp.pos)
    { s1 with chorus := { s1.chorus with srcTime := some stamp.time } }
  else s

/-- A write of CHORUS_CTL has changed ROLE (R57, R58): a device that comes to follow enters FREE, and one that comes to lead reads LOCKED with
offset 0. -/
def Device.roleChanged (s : Device) : Device :=
  if s.rd 0 CHORUS_CTL_ROLE = 1 then
    let s1 := s.wr 0 CHORUS_STATUS_LOCK_STATE lkFREE
    { s1 with chorus := { s1.chorus with within := 0, missed := 0, seen := false, adopt := none, adjust := 0, adjHist := [], adjCarry := 0 } }
  else (s.wr 0 CHORUS_STATUS_LOCK_STATE lkLOCKED).clr 0 CHORUS_OFFSET_OFFSET_NS

/-- The body of CHORUS_IN_PULSE (R56, R471): a pulse that rose at `riseNs` and was high for `width` rc. -/
def chorusInBody (width riseNs : Nat) (s : Device) : Device :=
  if s.rd 0 CHORUS_CTL_SOURCE = 2 ∧ s.rd 0 CHORUS_CTL_ROLE = 1 then
    if 32 ≤ width ∧ width ≤ 400 then
      s.sourceSample ((riseNs : Int) - s.rd 0 CHORUS_IN_DELAY_DELAY_NS) (if 160 ≤ width then some 0 else none)
    else { s with chorus := { s.chorus with missed := s.chorus.missed + 1 } }
  else s

/-- The body of TICK_SOURCE_LOST (R57): LEAD_LOST is set and the follower goes on at its held rate. -/
def sourceLostBody (s : Device) : Device :=
  let st := s.rd 0 CHORUS_STATUS_LOCK_STATE
  if s.rd 0 CHORUS_CTL_ROLE = 1 ∧ (st = lkACQUIRE ∨ st = lkLOCKED) then
    let s1 := (s.set 0 CHORUS_STATUS_LEAD_LOST).wr 0 CHORUS_STATUS_LOCK_STATE lkHOLDOVER
    { s1 with chorus := { s1.chorus with missed := 0, within := 0 } }
  else s

/-- The body of DELAY_PROBE (R56): the link delay is half the measured round trip. -/
def delayProbeBody (die roundTripNs : Nat) (s : Device) : Device :=
  if s.rd 0 CHORUS_CTL_OLINER_DIE = die then { s with chorus := { s.chorus with linkDelay := roundTripNs / 2 } } else s

/-- The adjustment of the tick that begins (R55, R57): a follower's correction, its held rate in HOLDOVER, or the lead
device's step towards a whole multiple of the period when 802.1AS disciplines it. The carry keeps the held rate's
fraction. DESIGN CHOICE (191): a tick of ACQUIRE or LOCKED in which no source sample came is corrected as the tick before it. -/
def Device.nextAdjust (s : Device) : Int × Int :=
  if s.rd 0 CHORUS_CTL_ROLE = 1 then
    if s.rd 0 CHORUS_STATUS_LOCK_STATE = lkHOLDOVER then
      let c := s.chorus.adjCarry + s.chorus.adjHist.foldl (· + ·) 0
      (clamp16 (c.tdiv 64), c - 64 * c.tdiv 64)
    else (s.chorus.adjust, 0)
  else if s.on 0 CHORUS_CTL_GPTP_EN then
    (clamp16 (-(nsToRc (wrapPeriod s.periodNs (s.chorus.time : Int)))), 0)
  else (0, 0)

/-! ### The sample edge (R43) -/

/-- The tick that begins lies in a phase on die `die` that the one before it does not. -/
def Device.phaseStarts (s : Device) (die : Nat) : Bool :=
  match s.phaseAt die s.tick with
  | some w => phFirst w = s.tick
  | none => false

/-- Chorus's part of a sample edge (R43): the edge's time is latched, the tick and frame counts advance, a frame boundary
applies the pending layout, branches end at phase boundaries and pending ones start, and the new tick's slices become
due. The first edge after ready begins tick 0 of frame 0. `true` with it: the edge is a frame boundary. -/
def Device.chorusEdge (s : Device) : Device × Bool :=
  let adj := s.nextAdjust
  let c := s.chorus
  let boundary := c.firstEdge || c.adopt.isSome || s.frameLen ≤ s.tick + 1
  let pos := if c.firstEdge then 0 else match c.adopt with | some p => p | none => if boundary then 0 else s.tick + 1
  let s1 : Device := { s with chorus := { c with
    edgeTime := c.time
    tickNo := c.tickNo + 1
    adjust := adj.1
    adjCarry := adj.2
    adjHist := (adj.1 :: c.adjHist).take 64
    missed := if c.seen then 0 else c.missed + 1
    seen := false
    adopt := none
    firstEdge := false
    slices := c.slices.map fun x => { x with edges := x.edges + 1 } } }
  let s2 := (s1.clr 0 CHORUS_POSITION_RC_IN_TICK).wr 0 CHORUS_POSITION_TICK_IN_FRAME pos
  let s3 := if boundary then (if c.firstEdge then s2 else s2.addWrap 0 CHORUS_FRAME_COUNT_FRAMES 1).applyLayout else s2
  let s4 : Device := { s3 with chorus := { s3.chorus with
    branches := s3.chorus.branches.filter fun b => !(b.done && s3.phaseStarts b.die) } }
  let starts := fun (b : Branch) => b.base.isNone && decide (b.edge ≤ s4.chorus.tickNo)
  let waiting := s4.chorus.branches.filter starts
  let s5 : Device := { s4 with chorus := { s4.chorus with branches := s4.chorus.branches.filter fun b => !starts b } }
  let s6 := waiting.foldl Device.startBranch s5
  let s7 := s6.setSlices (s6.chorus.slices ++ ((List.range 4).map s6.dueSlices).flatten)
  (s7, boundary)

/-- The leader's CHORUS_OUT, where OUT_EN drives it (R56): a pulse of 64 rc at a sample edge, of 256 rc at a frame boundary. -/
def Device.chorusOut (s : Device) (boundary : Bool) : Device :=
  if s.rd 0 CHORUS_CTL_ROLE = 0 ∧ s.on 0 CHORUS_CTL_OUT_EN then s.emit (.field "CHORUS_OUT" 0 [if boundary then 256 else 64]) else s

/-- Device time advances by one rc: 5 ns every 3 rc at the slewed rate, with the fraction carried exactly (R53, R54). -/
def Device.advanceTime (s : Device) : Device :=
  let step : Int := 5 * (1000000 + s.chorus.slewPpm)
  let t : Nat := s.chorus.frac + step.toNat
  { s with chorus := { s.chorus with
      time := (s.chorus.time + t / 3000000) % 2 ^ 64
      frac := t % 3000000 } }

end Sys2Proof.Machine
end

