-- ==== Sys2Proof/Machine/Memory.lean ====
section
/-!
DEFINITION. The Pond, the stores and LP5X (chapter 3) and the regulation of requests to them (chapter 10): checked reads
and writes with their ECC, error records, the shared ports and their queues, scrubbing, patrol, retention.
-/
namespace Sys2Proof.Machine

/-! ### Errors in stored words (R67 to R71, R82) -/

/-- A 64-bit word's error, if it has one; the word is addressed in units of 8 bytes. -/
def Device.eccAt (s : Device) (w : Nat) : Option EccErr := SMap.get none s.pond.ecc w

/-- Set or clear a word's error. -/
def Device.setEcc (s : Device) (w : Nat) (e : Option EccErr) : Device :=
  { s with pond := { s.pond with ecc := SMap.put none s.pond.ecc w e } }

/-- A word's error on LP5X's wires, which its next transfer meets (R80), and setting or clearing it. -/
def Device.linkAt (s : Device) (w : Nat) : Option EccErr := if lpBase ≤ 8 * w then SMap.get none s.pond.link w else none
def Device.setLink (s : Device) (w : Nat) (e : Option EccErr) : Device :=
  { s with pond := { s.pond with link := SMap.put none s.pond.link w e } }

/-- Errors that have arisen in stored words, and on the wires of LP5X, by the time of an access. -/
def Device.arise (s : Device) (l : List Upset) : Device :=
  l.foldl (fun s u => if u.link then s.setLink u.word (some ⟨u.ue, u.bit, u.syn, u.flip⟩) else s.setEcc u.word (some ⟨u.ue, u.bit, u.syn, u.flip⟩)) s

/-- Record an error in POND_ERR (R71): the first error since VALID was cleared, replaced by an uncorrectable one that
follows a correctable one; any other sets OVERFLOW. -/
def Device.recPond (s : Device) (die w : Nat) (e : EccErr) (source : Nat) : Device :=
  if s.on die POND_ERR_STATUS_VALID ∧ ¬ (e.ue ∧ ¬ s.on die POND_ERR_STATUS_UE) then s.set die POND_ERR_STATUS_OVERFLOW
  else
    ((((((s.wr die POND_ERR_ADDR_LO_ADDR (8 * w)).wr die POND_ERR_ADDR_HI_ADDR (8 * w / 2 ^ 32)).set die
      POND_ERR_STATUS_VALID).wr die POND_ERR_STATUS_UE (b2n e.ue)).wr die POND_ERR_STATUS_SOURCE source).wr die
      POND_ERR_STATUS_BIT (if e.ue then 0x7F else e.bit)).wr die POND_ERR_STATUS_SYNDROME e.syn

/-- The channel and sub-channel of a word of mapped LP5X. -/
def Device.lpWordCh (s : Device) (w : Nat) : Nat := s.lpChannel (8 * w - lpBase)
def Device.lpWordSub (s : Device) (w : Nat) : Nat := s.lpChannelOff (8 * w - lpBase) / 64 % 4

/-- Record an error in LP5X_ERR under the rules of R71. -/
def Device.recLp (s : Device) (w : Nat) (e : EccErr) (source : Nat) : Device :=
  let die := s.lpWordCh w
  if s.on die LP5X_ERR_STATUS_VALID ∧ ¬ (e.ue ∧ ¬ s.on die LP5X_ERR_STATUS_UE) then s.set die LP5X_ERR_STATUS_OVERFLOW
  else
    ((((((s.wr die LP5X_ERR_ADDR_LO_ADDR (8 * w)).wr die LP5X_ERR_ADDR_HI_ADDR (8 * w / 2 ^ 32)).set die
      LP5X_ERR_STATUS_VALID).wr die LP5X_ERR_STATUS_UE (b2n e.ue)).wr die LP5X_ERR_STATUS_SOURCE source).wr die
      LP5X_ERR_STATUS_SUBCH (s.lpWordSub w)).wr die LP5X_ERR_STATUS_SYNDROME e.syn

/-- A word lies in LP5X. -/
def isLpWord (w : Nat) : Bool := lpBase ≤ 8 * w

/-- The die whose POND block counts a word's errors: the die of the column or of the store (R64). -/
def Device.eccDie (s : Device) (w : Nat) : Nat := s.homeDie (s.region (8 * w))

/-- Count and record an error found in a word. -/
def Device.eccFound (s : Device) (w : Nat) (e : EccErr) (source : Nat) : Device :=
  if isLpWord w then
    let s1 := if e.ue then s.addHold (s.lpWordCh w) LP5X_UE_COUNT_COUNT 1 else s.addHold (s.lpWordCh w) LP5X_CE_COUNT_COUNT 1
    s1.recLp w e source
  else
    let die := s.eccDie w
    let s1 := if e.ue then s.addHold die POND_UE_COUNT_COUNT 1 else s.addHold die POND_CE_COUNT_COUNT 1
    s1.recPond die w e source

/-- Enter a demand-corrected word of the Pond or a store in its die's fix queue (R68). -/
def Device.queueFix (s : Device) (w : Nat) : Device :=
  let die := s.eccDie w
  let q := SMap.get [] s.pond.fixq die
  if isLpWord w ∨ ¬ s.on die POND_CTL_FIX_EN ∨ q.contains w then s
  else if 16 ≤ q.length then s.addHold die POND_FIX_DROPS_COUNT 1
  else { s with pond := { s.pond with fixq := SMap.put [] s.pond.fixq die (q ++ [w]) } }

/-- An uncorrectable error in a reflex or fusion store is a safety fault (R65), and F4 in a fusion store (R259). -/
def Device.storeUe (s : Device) (w : Nat) : Device :=
  match s.region (8 * w) with
  | .store d off =>
    if 0x2000000 ≤ off then
      let s1 := s.raiseCause cSTORE_UE d 0
      if 0x3000000 ≤ off then s1.raiseF4 2 else s1
    else s
  | _ => s

/-- Errors are detected in a word: always in the Pond and the stores, in LP5X with inline ECC (R82). -/
def Device.eccActive (s : Device) (w : Nat) : Bool := !isLpWord w || s.on 0 LP5X_CTL_INLINE_ECC

/-- A transfer of a word of LP5X meets an error on the wires: link ECC counts and records it with SOURCE link ECC (R80, R86). -/
def Device.linkMet (s : Device) (w : Nat) : Device :=
  match s.linkAt w with
  | none => s
  | some e => (s.eccFound w e 3).setLink w none

/-- A demand read meets a word (R68, R69): a corrected error is counted, recorded and queued for write-back; an
uncorrectable one is counted and recorded. Link ECC looks at the transfer first (R80). -/
def Device.eccDemand (s : Device) (w : Nat) : Device :=
  let s := s.linkMet w
  match s.eccAt w with
  | none => s
  | some e =>
    if s.eccActive w then
      let s1 := s.eccFound w e 0
      if e.ue then s1.storeUe w else s1.queueFix w
    else s

/-- The words that `n` bytes from `a` touch. -/
def wordsOf (a n : Nat) : List Nat := if n = 0 then [] else (List.range ((a + n - 1) / 8 - a / 8 + 1)).map (a / 8 + ·)

/-- The transfer of a word would meet an error on the wires that link ECC cannot correct. DEDUCED (196): its request ends UNCORRECTABLE. -/
def Device.linkUe (s : Device) (w : Nat) : Bool := match s.linkAt w with | some e => e.ue | none => false

/-- A word would answer a demand read with an uncorrectable error. -/
def Device.isUe (s : Device) (w : Nat) : Bool :=
  (match s.eccAt w with | some e => e.ue && s.eccActive w | none => false) || s.linkUe w

/-- The data a read of a word returns. -/
def Device.readWord (s : Device) (w : Nat) : Nat :=
  s.load (8 * w) 8 ^^^ (((s.eccAt w).map (·.flip)).getD 0 ^^^ ((s.linkAt w).map (·.flip)).getD 0)

/-- The data a read of `n` bytes from `a` returns, little-endian. -/
def Device.readData (s : Device) (a n : Nat) : Nat :=
  ((wordsOf a n).foldr (fun w acc => s.readWord w + 2 ^ 64 * acc) 0) / 256 ^ (a % 8) % 256 ^ n

/-- The 32-bit words a read of `n` of them from `a` returns. -/
def Device.readWords (s : Device) (a n : Nat) : List Nat := (List.range n).map fun i => s.readData (a + 4 * i) 4

/-- Write a word back corrected: its data as read, its error gone. -/
def Device.correctWord (s : Device) (w : Nat) : Device := (s.store (8 * w) (s.readWord w) 8).setEcc w none

/-- A word is covered in part by a write of `n` bytes at `a`. -/
def partWord (a n w : Nat) : Bool := 8 * w < a || a + n < 8 * w + 8

/-! ### Checked accesses -/

/-- The status an access would end with before its data is read: reach (R30, R31), the route (R434), the mode of the
Pond (R78). -/
def Device.accessStatus (s : Device) (src master a n : Nat) (write : Bool) : Nat :=
  let r := s.region a
  if ¬ s.reaches src master a n write then stUNMAPPED
  else if ¬ s.routeUp src (s.homeDie r) then stTIMEOUT
  else match r with
    | .pond d _ _ => if 2 ≤ s.rd d POND_STATUS_MODE then stRETAINED else stDONE
    | _ => stDONE

/-- What an error completion leaves: the UNMAPPED record of the owning die, or the timeout record of the requester's. -/
def Device.accessError (s : Device) (src master a status : Nat) (write : Bool) : Device :=
  if status = stUNMAPPED then s.recordUnmapped (s.homeDie (s.region a)) src master a write
  else if status = stTIMEOUT then s.timeoutErr src master a false write
  else s

/-- The answer of a request performed at die `h` returns to die `src`, by its own route (R17): over a bridge that is down it is lost, and the
request ends TIMEOUT (R434). -/
def Device.answered (s : Device) (src master h a status : Nat) (write : Bool) : Device × Nat :=
  if s.routeUp h src then (s.xfer h src, status) else (s.timeoutErr src master a false write, stTIMEOUT)

/-- A checked read: the state after it, its status and its data. -/
def Device.readChk (s : Device) (src master a n : Nat) : Device × Nat × Nat :=
  let st := s.accessStatus src master a n false
  if st ≠ stDONE then (s.accessError src master a st false, st, 0)
  else
    let ws := wordsOf a n
    let bad := ws.any s.isUe
    let data := s.readData a n
    let h := s.homeDie (s.region a)
    let x := (ws.foldl Device.eccDemand (s.xfer src h)).answered src master h a (if bad then stUNCORRECTABLE else stDONE) false
    (x.1, x.2, if x.2 = stDONE then data else 0)

/-- The words that a write of `n` bytes at `a` covers in part, each read first (R70): an error there is counted and recorded with SOURCE partial
write, in ascending order, and an uncorrectable one in a reflex or fusion store is a safety fault (R65). -/
def Device.partReads (s : Device) (a n : Nat) : Device :=
  ((wordsOf a n).filter (partWord a n)).foldl (fun s w =>
    let s := s.linkMet w
    match s.eccAt w with
    | some e => if s.eccActive w then (if e.ue then (s.eccFound w e 2).storeUe w else s.eccFound w e 2) else s
    | none => s) s

/-- A word as it is stored meets the wires of LP5X: link ECC counts and records the error, and what it miscorrects is stored. -/
def Device.linkStore (s : Device) (w : Nat) : Device :=
  match s.linkAt w with
  | none => s
  | some e => let s1 := s.linkMet w; if e.flip = 0 then s1 else s1.store (8 * w) (s1.load (8 * w) 8 ^^^ e.flip) 8

/-- The write itself: a word covered in part is written back whole and corrected, and every word written is free of error. -/
def Device.writeWords (s : Device) (a n v : Nat) : Device :=
  (wordsOf a n).foldl Device.linkStore (((wordsOf a n).foldl
    (fun (s : Device) w => if (s.eccAt w).isNone then s else if partWord a n w then s.correctWord w else s.setEcc w none) s).store a v n)

/-- Words of a write that cannot be carried out: a word covered in part that reads uncorrectable (R70), or one whose transfer link ECC cannot
correct (DEDUCED, 196). -/
def Device.writeBad (s : Device) (a n : Nat) : Bool := (wordsOf a n).any fun w => (partWord a n w && s.isUe w) || s.linkUe w

/-- A checked write: the partial words are read first, and if one of them is uncorrectable the whole request is left undone (R70). -/
def Device.writeChk (s : Device) (src master a n v : Nat) : Device × Nat :=
  let st := s.accessStatus src master a n true
  if st ≠ stDONE then (s.accessError src master a st true, st)
  else
    let h := s.homeDie (s.region a)
    let s1 := (s.xfer src h).partReads a n
    if s.writeBad a n then ((((wordsOf a n).filter s.linkUe).foldl Device.linkMet s1)).answered src master h a stUNCORRECTABLE true
    else (s1.writeWords a n v).answered src master h a stDONE true

/-- A message-signalled write (R106, R207, R415, R448) of a requester of a die: to an interrupt file of a host core, to a PCIe port's vector
trigger, and otherwise a write of 4 bytes within the requester's reach. -/
def Device.msiWrite (s : Device) (src master a v : Nat) : Device :=
  let s := s.emit (.msi a v)
  let signal := fun (d : Nat) (s1 : Device) =>
    if s.routeUp src d then s1.xfer src d else s.timeoutErr src master a false true
  let other :=
    match s.region a with
    | .reg _ _ _ =>
      let st := s.accessStatus src master a 4 true
      if st = stDONE then { s with regReqs := s.regReqs ++ [⟨src, master, 0, a, 4, true, v, true, 0, [], none, []⟩] }
      else s.accessError src master a st true
    | _ => (s.writeChk src master a 4 v).1
  match s.region a with
  | .reg d 30 off =>
    if 0x8000 ≤ off ∧ off % 0x1000 = 0 ∧ off < 0x10000 then signal d (s.setEip d (off / 0x1000 % 4) (if off < 0xC000 then 0 else 1) v)
    else other
  | .reg d 26 off => if off = 0x200 ∧ d % 2 = 0 then signal d (s.msixTrigger d (v % 64)) else other
  | _ => other

/-- A write of a reflex unit to its own structures: `n` bytes at `a`, or 32-bit words, or one byte. -/
def Device.rxPut (s : Device) (die a v n : Nat) : Device := (s.writeChk die mReflex a n v).1
def Device.rxPuts (s : Device) (die a : Nat) : List Nat → Device
  | [] => s
  | w :: l => (s.rxPut die a w 4).rxPuts die (a + 4) l
def Device.rxByte (s : Device) (die a v : Nat) : Device := s.rxPut die a v 1

/-- The same for a command of a slice: the status of a write that fails is kept for the end of the command, where it ends the slice (R65, R431). -/
def Device.rxSet (s : Device) (die a v n : Nat) : Device :=
  let x := s.writeChk die mReflex a n v
  if x.2 = stDONE ∨ x.1.pond.failed.isSome then x.1 else { x.1 with pond := { x.1.pond with failed := some x.2 } }
def Device.rxSets (s : Device) (die a : Nat) : List Nat → Device
  | [] => s
  | w :: l => (s.rxSet die a w 4).rxSets die (a + 4) l
def Device.rxSetByte (s : Device) (die a v : Nat) : Device := s.rxSet die a v 1

/-- A command of a slice reads ranges of memory: the status of a read that fails is kept like that of a write. -/
def Device.rxReads (s : Device) (die : Nat) (l : List (Nat × Nat)) : Device :=
  l.foldl (fun s p =>
    let r := s.readChk die mReflex p.1 p.2
    if r.2.1 = stDONE ∨ r.1.pond.failed.isSome then r.1 else { r.1 with pond := { r.1.pond with failed := some r.2.1 } }) s

/-- No failed write is kept. -/
def Device.noFail (s : Device) : Device :=
  if s.pond.failed.isSome then { s with pond := { s.pond with failed := none } } else s

/-- A read of the reply's status alone. -/
def Device.readStatus (r : Device × Nat × Nat) : Nat := r.2.1

/-! ### Regulation (R226 to R231) -/

/-- The work that a request of a core, a DMA engine or the pad mover belongs to: what it says, or what the core or the engine works on. -/
def Device.reqWork (s : Device) (r : Req) : Option Work :=
  match r.work with
  | some w => some w
  | none =>
    if r.master < mDma then (s.cmd (r.die * 64 + r.master)).map (·.work)
    else if r.master < mHost then (SMap.get none s.xlate.dma (r.die * 16 + (r.master - mDma))).bind (·.1)
    else none

/-- Whether a request is FIXED, and its class (R226). One that has been labelled at its port keeps that label (R227): its `cls` is then
16 + that class, or 32 + that class where it was issued lowered. A request over Oliner keeps in `fixed` the label that its reply carries back. -/
def Device.label (s : Device) (r : Req) : Bool × Nat :=
  if r.master = mOliner then (false, r.cls % 16)
  else if 16 ≤ r.cls then (r.fixed, r.cls % 16)
  else if r.master < mHost ∨ r.master = mPad then
    match s.reqWork r with
    | some (.slice _ _) => (true, 0)
    | some (.ring g) => (false, bits (wd (s.ring g).desc 0) 24 4)
    | none => (r.fixed, if r.fixed then 0 else r.cls)
  else if r.master < mHost + 4 then (false, s.rd r.die (REGULATE_HOST_CLASS_CLASS (r.master - mHost)))
  else if r.master = mPcie then (false, s.rd r.die REGULATE_IO_CLASS_PCIE_CLASS)
  else if r.master = mDebug then (false, s.rd r.die REGULATE_IO_CLASS_DEBUG_CLASS)
  else (true, 0)

/-- The port a request counts at (R228): its MASTER code, or the home core's for a pad mover's ring move. -/
def Device.portOf (s : Device) (r : Req) : Nat := if r.master = mPad ∧ ¬ (s.label r).1 then r.home % 64 else r.master

/-- A request as its port labels it, lowered or not; and a request that is another one but for its label. -/
def Device.issued (s : Device) (r : Req) (lowered : Bool) : Req :=
  let l := s.label r
  let c := (if lowered then 32 else 16) + l.2
  if r.master = mOliner then { r with cls := c } else { r with fixed := l.1, cls := c }
def sameReq (a b : Req) : Bool := decide ({ a with fixed := b.fixed, cls := b.cls } = b)

/-- The level a labelled request is served in (R230): FIXED ones first, then regulated ones within budget, then lowered ones. -/
def Device.level (s : Device) (r : Req) : Nat := if (s.label r).1 then 0 else if r.cls < 32 then 1 else 2

/-- An access through a core's own port, to its core store or to its cluster store, which is not regulated (R228). -/
def Device.ownAccess (s : Device) (die master a : Nat) : Bool :=
  decide (master < mDma) && match s.region a with
  | .pond d c _ => decide (d = die) && decide (c = master)
  | .store d off => decide (d = die) && (decide (off / 0x40000 = master) || (decide (0x1000000 ≤ off) && decide (off < 0x2000000) && decide ((off - 0x1000000) / 0x200000 = master / 8)))
  | _ => false

/-- The transactions of up to 64 bytes that an access makes: one for each 64-byte line that it touches (DESIGN CHOICE, 220). -/
def linesOf (a n : Nat) : Nat := if n = 0 then 0 else (a + n - 1) / 64 - a / 64 + 1

/-- Accesses that a core, a DMA engine or the pad mover makes within a command of its own, for a job: those of a ring job are issued and retired (R229, R234). -/
def Device.carried (s : Device) (die unit job : Nat) (ps : List (Nat × Nat)) : Device :=
  if job = 0 then s
  else
    let k := (ps.filter fun p => !s.ownAccess die unit p.1).foldl (fun n p => n + linesOf p.1 p.2) 0
    (s.addWrap die REGULATE_AUDIT_ISSUED k).addWrap die REGULATE_AUDIT_RETIRED k

/-- The limit of a class at a port (R228, R229). -/
def Device.classLimit (s : Device) (die port c : Nat) : Nat :=
  1 + (if port < mDma then s.rd die (REGULATE_CLASS_LIMIT_CORE_LIM_M1 c)
    else if port < mHost then s.rd die (REGULATE_CLASS_LIMIT_DMA_LIM_M1 c)
    else if port < mHost + 4 then s.rd die (REGULATE_CLASS_LIMIT_HOST_LIM_M1 c)
    else s.rd die (REGULATE_CLASS_LIMIT_IO_LIM_M1 c))

/-- A port code that is regulated on a die (R228). -/
def regulatedPort (die port : Nat) : Bool :=
  port < mHost + 4 || (port = mPcie && die % 2 = 0) || port = mOliner || port = mDebug

/-- A port that holds each class separately (R228). -/
def holdsPerClass (port : Nat) : Bool := port = mPcie || port = mOliner

/-- The key of a port's count for a class. -/
def countKey (die port c : Nat) : Nat := (die * 256 + port) * 16 + c

/-- Outstanding transactions of a class at a port. -/
def Device.outstanding (s : Device) (die port c : Nat) : Nat := SMap.get 0 s.regul.count (countKey die port c)

/-- Replace the count of a class at a port. -/
def Device.setOutstanding (s : Device) (die port c n : Nat) : Device :=
  { s with regul := { s.regul with count := SMap.put 0 s.regul.count (countKey die port c) n } }

/-! ### Shared ports (R61, R233) -/

/-- The queue of a column's shared port. -/
def Device.portQueue (s : Device) (die col : Nat) : List Bool := SMap.get [] s.pond.queue (die * 64 + col)
def Device.setPortQueue (s : Device) (die col : Nat) (q : List Bool) : Device :=
  { s with pond := { s.pond with queue := SMap.put [] s.pond.queue (die * 64 + col) q } }

/-- A queue admits a request (R233): a FIXED one while an entry is free, a regulated one while it holds fewer than 24
regulated and fewer than 32 in all. -/
def admits (q : List Bool) (fixed : Bool) : Bool :=
  q.length < 32 && (fixed || (q.filter (· = false)).length < 24)

/-- The bytes a shared-port write leaves, where the owning core writes some of its words in the same fc: the core's
value stands there (R21). -/
def Device.sharedData (s : Device) (r : Req) : Nat :=
  r.coreWords.foldl (fun v i => setBits v (64 * i) 64 (s.load (r.addr / 8 * 8 + 8 * i) 8)) r.data

/-- A request's data access (R68 to R70), its answer, and the end of its issuer if it failed (R431). -/
def Device.perform (s : Device) (r : Req) : Device × Nat :=
  if r.write then
    let x := s.writeChk r.die r.master r.addr r.len (s.sharedData r)
    (x.1.answer x.2 0, x.2)
  else
    let x := s.readChk r.die r.master r.addr r.len
    (x.1.answer x.2.1 x.2.2, x.2.1)

/-- What a failed request does to its issuer (R431): a slice ends with the status; a ring's running command takes it as
its own, and an uncorrectable word ends the job (R69). -/
def Device.failWork (s : Device) (w : Work) (status : Nat) : Device :=
  match w with
  | .slice die idx => s.endSlice die idx status
  | .ring g =>
    let s1 := (s.disp.kernels.filter fun k => k.ring = g).foldl
      (fun s k => k.cores.foldl (fun s c => s.cmdStatus c status 0) s) s
    if status = stUNCORRECTABLE then s1.beginJobEnd (s1.ring g).job else s1

/-- Finish a request: perform it, answer it if it came from outside, and end its issuer if it failed. -/
def Device.finishNow (s : Device) (r : Req) : Device :=
  let x := s.perform r
  let s1 := x.1.answerOutside r x.2 x.1.reply.2
  if x.2 = stDONE then s1 else match r.work with | some w => s1.failWork w x.2 | none => s1

/-- Finish a request; one that reaches a register is handed to the register's block, which performs it within the command. -/
def Device.finish (s : Device) (r : Req) : Device :=
  match s.region r.addr with
  | .reg _ _ _ =>
    if s.accessStatus r.die r.master r.addr r.len r.write = stDONE then { s with regReqs := s.regReqs ++ [r] } else s.finishNow r
  | _ => s.finishNow r

/-- A regulated request leaves its port (R229): it counts as outstanding. -/
def Device.counted (s : Device) (r : Req) : Device :=
  let l := s.label r
  if l.1 then s
  else (s.setOutstanding r.die (s.portOf r) l.2 (s.outstanding r.die (s.portOf r) l.2 + 1)).addWrap r.die REGULATE_AUDIT_ISSUED 1

/-- A request reaches its target (R61, R233): a Pond request is admitted to the column's queue and performed, or waits at
its port, which it has not left then; any other request, and one that ends with an error completion, leaves and is answered at once. -/
def Device.arriveAt (s : Device) (r : Req) : Device :=
  match s.region r.addr with
  | .pond d col _ =>
    if s.accessStatus r.die r.master r.addr r.len r.write ≠ stDONE then (s.counted r).finish r
    else if admits (s.portQueue d col) (s.label r).1 then
      (((s.counted r).setPortQueue d col (s.portQueue d col ++ [(s.label r).1])).addWrap d REGULATE_QUEUE_AUDIT_ADMITTED 1).finish r
    else { s with pond := { s.pond with waiting := s.pond.waiting ++ [r] } }
  | _ => (s.counted r).finish r

/-- A DMA engine's request to another device (R232): its engine sends it within the command that lets it go. -/
def remoteDma (r : Req) : Bool := decide (mDma ≤ r.master) && decide (r.master < mHost) && !r.remote.isEmpty

/-- A request that its port lets go, labelled: it goes to its target, or back to its engine for another device. -/
def Device.leavePort (s : Device) (r : Req) (lowered : Bool) : Device :=
  if remoteDma r then { s with regul := { s.regul with sent := s.regul.sent ++ [r] } } else s.arriveAt (s.issued r lowered)

/-- Issuing a request would make its class exceed its limit at its port (R230). -/
def Device.overBudget (s : Device) (r : Req) : Bool :=
  !(s.label r).1 && s.classLimit r.die (s.portOf r) (s.label r).2 ≤ s.outstanding r.die (s.portOf r) (s.label r).2

/-- An over-budget request is issued lowered (R230): MODE is LOWER, and its port's count is not at its 256. DESIGN CHOICE (219): one that meets a count of
256 is held. -/
def Device.lowers (s : Device) (r : Req) : Bool :=
  s.on r.die REGULATE_CTL_MODE && decide (s.outstanding r.die (s.portOf r) (s.label r).2 < 256)

/-- A request already held at the port keeps this one back (R228, R230): whatever its label, at a port that does not hold each class separately. -/
def Device.behindHeld (s : Device) (r : Req) : Bool :=
  s.regul.held.any fun h =>
    h.die = r.die && s.portOf h = s.portOf r && (!holdsPerClass (s.portOf r) || (s.label h).2 = (s.label r).2)

/-- A request ends without being performed: it is answered, and its issuer takes the status. -/
def Device.turnAway (s : Device) (r : Req) (status : Nat) : Device :=
  let s1 := (s.answer status 0).answerOutside r status 0
  match r.work with | some w => s1.failWork w status | none => s1

/-- A request at its port (R230): ended FENCED at issue if its unit is fenced (R436); else issued, issued lowered, or held. -/
def Device.offer (s : Device) (r : Req) : Device :=
  if s.isFenced r.die r.master then (s.fencedErr r.die r.master r.addr false r.write).turnAway r stFENCED
  else if s.ownAccess r.die r.master r.addr then s.finish r
  else if s.overBudget r then
    if s.lowers r ∧ ¬ s.behindHeld r then
      ((s.set r.die REGULATE_STATUS_LOWERED_SEEN).addHold r.die REGULATE_EVENTS_LOWERED 1).leavePort r true
    else
      let s1 := (s.set r.die REGULATE_STATUS_HELD_SEEN).addHold r.die REGULATE_EVENTS_HELD 1
      { s1 with regul := { s1.regul with held := s1.regul.held ++ [r] } }
  else if s.behindHeld r then { s with regul := { s.regul with held := s.regul.held ++ [r] } }
  else s.leavePort r false

/-- The order in which requests that arrive in the same fc are served (R61, R230): by level, and in a level local ones by MASTER, then those of other
dies by die. -/
def Device.arrivalKey (s : Device) (r : Req) : Nat :=
  (if (s.label r).1 then 0 else if s.overBudget r && s.lowers r then 2 else 1) * 0x10000 +
  (if s.homeDie (s.region r.addr) = r.die then 0 else 1 + r.die) * 256 + r.master

/-- Insert a request in order of arrival, after its equals. -/
def insertReq (s : Device) (r : Req) : List Req → List Req
  | [] => [r]
  | x :: l => if s.arrivalKey r < s.arrivalKey x then r :: x :: l else x :: insertReq s r l

/-- The body of SHARED_PORT_REQUEST: the requests of one fc, in R61's order. -/
def sharedPortRequestBody (reqs : List Req) (upsets : List Upset) (s : Device) : Device :=
  let s1 := s.arise upsets
  (reqs.foldl (fun l r => insertReq s1 r l) []).foldl Device.offer s1

/-- The first of the requests of the lowest level (R230). -/
def Device.firstServed (s : Device) (l : List Req) : Option Req :=
  ([0, 1, 2].findSome? fun k => l.find? fun r => s.level r = k)

/-- The body of SHARED_PORT_QUEUE_FREE: the oldest entry is served and frees, and of the waiting requests that the queue admits and whose budget still
has room the first of the lowest level is admitted. -/
def queueFreeBody (die col : Nat) (s : Device) : Device :=
  match s.portQueue die col with
  | [] => s
  | _ :: q =>
    let s1 := (s.setPortQueue die col q).addWrap die REGULATE_QUEUE_AUDIT_SERVED 1
    let here := fun (r : Req) => match s1.region r.addr with | .pond d c _ => d = die ∧ c = col | _ => False
    match s1.firstServed (s1.pond.waiting.filter fun r => here r && admits q (s1.label r).1 && (!s1.overBudget r || s1.lowers r)) with
    | some r => ({ s1 with pond := { s1.pond with waiting := s1.pond.waiting.erase r } }).arriveAt r
    | none => s1

/-- The held requests that a port may issue now: on a port that holds each class separately the class's first, on any
other the first of all (R230, R231). -/
def Device.nextHeld (s : Device) (die port c : Nat) : Option Req :=
  match s.regul.held.find? fun r => r.die = die ∧ s.portOf r = port ∧ (holdsPerClass port → (s.label r).2 = c) with
  | some r => if s.overBudget r then none else some r
  | none => none

/-- Issue held requests of a port while the next one is within budget; at most `n` of them. -/
def Device.drainHeld (s : Device) (die port c : Nat) : Nat → Device
  | 0 => s
  | n + 1 =>
    match s.nextHeld die port c with
    | some r => (({ s with regul := { s.regul with held := s.regul.held.erase r } }).leavePort r false).drainHeld die port c n
    | none => s

/-- The body of HELD_REQUEST_ISSUE (R230, R231): a transaction retires, and held requests take the place it frees. -/
def heldIssueBody (die port c : Nat) (s : Device) : Device :=
  let n := s.outstanding die port c
  let s1 := if n = 0 then s else (s.setOutstanding die port c (n - 1)).addWrap die REGULATE_AUDIT_RETIRED 1
  s1.drainHeld die port c s1.regul.held.length

/-! ### Scrubbing, fix slot, patrol (R68, R72 to R74, R82) -/

/-- The fabric clock of a die in MHz: the point in force, or 150 while it is parked (R1, R77). -/
def Device.fabricMHz (s : Device) (die : Nat) : Nat :=
  let g := s.rd die BASK_STATUS_GRANT
  if g = 0 then 150 else 75 * (g + 1)

/-- One fix-queue entry is served (R68). -/
def Device.fixOne (s : Device) (w : Nat) : Device :=
  match s.eccAt w with
  | none => s
  | some e => if e.ue then (s.eccFound w e 3).storeUe w else s.correctWord w

/-- The fix queue of a die is served in its test window, outside RETAIN and WAKING (R68). -/
def Device.fixSlot (s : Device) (die : Nat) : Device :=
  if s.on die POND_CTL_FIX_EN ∧ s.rd die POND_STATUS_MODE < 2 then
    let s1 := (SMap.get [] s.pond.fixq die).foldl Device.fixOne s
    { s1 with pond := { s1.pond with fixq := SMap.put [] s1.pond.fixq die [] } }
  else s

/-- Lines of a pass over a column (R72). -/
def passLines : Nat := 294912

/-- A word lies in line range [`pos`, `pos` + `n`) of its column on die `die`, the range wrapping at the pass's end. -/
def inLines (die pos n w : Nat) : Bool :=
  decide (die * pondDieBytes ≤ 8 * w) && decide (8 * w < (die + 1) * pondDieBytes) &&
  decide ((8 * w % pondDieBytes % columnBytes / 64 + passLines - pos) % passLines < n)

/-- The scrubbers meet one word (R72): corrected words are written back, uncorrectable ones recorded. -/
def Device.scrubWord (s : Device) (w : Nat) : Device :=
  match s.eccAt w with
  | none => s
  | some e => if e.ue then s.eccFound w e 1 else (s.eccFound w e 1).correctWord w

/-- The order in which the scrubbers of a die meet a word (R72): line by line from the scrub position, in each line the columns together, in ascending
order (DESIGN CHOICE, 197), and a line's words in ascending order. -/
def scrubOrder (pos w : Nat) : Nat :=
  ((8 * w % pondDieBytes % columnBytes / 64 + passLines - pos) % passLines * 64 + 8 * w % pondDieBytes / columnBytes) * 8 + w % 8

/-- The scrub burst of a die (R72, R73): DESIGN CHOICE (197): after a burst that the window's end cut off, the next window reads the lines
that remain alone. LINES lines of every column from the scrub position, as many as fit in the test
window; lines that the self-test engine holds saved are skipped (R74). -/
def Device.scrubBurst (s : Device) (die : Nat) (saved : Nat → Bool) : Device :=
  if s.on die POND_CTL_SCRUB_EN ∧ s.rd die POND_STATUS_MODE < 2 then
    let pos := s.rd die POND_SCRUB_POS_LINE
    let left := SMap.get 0 s.pond.scrubLeft die
    let todo := if left = 0 then s.rd die POND_SCRUB_CTL_LINES else left
    let fit := 16 * s.rd 0 CHORUS_WIN_LEN_TEST_LEN * s.fabricMHz die / 600 - 16
    let n := min todo fit
    let ws := ((s.pond.ecc.map (·.1)).filter fun w => inLines die pos n w && !saved w).mergeSort fun x y => scrubOrder pos x ≤ scrubOrder pos y
    let s1 := ws.foldl Device.scrubWord s
    let s2 := if passLines ≤ pos + n then s1.addWrap die POND_SCRUB_PASSES_PASSES 1 else s1
    let s3 := s2.wr die POND_SCRUB_POS_LINE ((pos + n) % passLines)
    { s3 with pond := { s3.pond with scrubLeft := SMap.put 0 s3.pond.scrubLeft die (todo - n) } }
  else s

/-- The device address of an offset within a channel of mapped LP5X (R83, the map turned round). -/
def Device.lpAddr (s : Device) (ch co : Nat) : Nat :=
  lpBase + (if s.lpGranule = 0 then ch * (s.lpBytes / 4) + co
    else co / s.lpGranule * (4 * s.lpGranule) + ch * s.lpGranule + co % s.lpGranule)

/-- The patrol scrubber meets one word (R82). -/
def Device.patrolWord (s : Device) (w : Nat) : Device :=
  let lost := s.linkUe w
  let s := s.linkMet w
  match s.eccAt w with
  | none => s
  | some e => if lost then s else if e.ue then s.eccFound w e 1 else (s.eccFound w e 1).correctWord w

/-- Lines of one sub-channel that a patrol pass takes in (R82): those of the installed capacity, the lines of check bits included. -/
def Device.patrolLines (s : Device) (die : Nat) : Nat := max (s.lpBytes / 4) (s.rd die LP5X_STATUS_CAP_GIB * 2 ^ 30) / 256

/-- The body of LP5X_PATROL (R82): one line of each sub-channel of a die's channel. -/
def patrolBody (die : Nat) (upsets : List Upset) (s : Device) : Device :=
  let s := s.arise upsets
  if s.on 0 LP5X_CTL_INLINE_ECC ∧ s.on 0 LP5X_CTL_PATROL_EN ∧ s.lpBytes ≠ 0 then
    (List.range 4).foldl (fun s q =>
      let p := SMap.get 0 s.pond.patrol (die * 4 + q)
      let a := s.lpAddr die ((4 * p + q) * 64)
      let s1 := if (4 * p + q) * 64 < s.lpBytes / 4 then (wordsOf a 64).foldl Device.patrolWord s else s
      { s1 with pond := { s1.pond with
          patrol := SMap.put 0 s1.pond.patrol (die * 4 + q) ((p + 1) % max 1 (s.patrolLines die)) } }) s
  else s

/-! ### Retention and the wipe (R77 to R79, R84) -/

/-- The body of RETAIN_REQ (R78): the request is set, or its clearing starts WAKING. -/
def retainReqBody (die value : Nat) (s : Device) : Device :=
  let s1 := s.wr die POND_CTL_RETAIN_REQ (bits value 2 1)
  if ¬ bit value 2 ∧ s.rd die POND_STATUS_MODE = 2 then s1.wr die POND_STATUS_MODE 3 else s1

/-- The body of WAKING_DONE (R78): 12,000 rc after WAKING began the die is PARKED, or ACTIVE at a granted point. -/
def wakingDoneBody (die : Nat) (s : Device) : Device :=
  if s.rd die POND_STATUS_MODE = 3 then s.wr die POND_STATUS_MODE (if s.rd die BASK_STATUS_GRANT = 0 then 1 else 0) else s

/-- At a sample edge a die's Pond follows its operating point (R77, R78): RETAIN at OP0 with RETAIN_REQ set, else PARKED
at OP0 and ACTIVE above it; RETAIN and WAKING are left only by their own events. -/
def Device.retainEdge (s : Device) (die : Nat) : Device :=
  if 2 ≤ s.rd die POND_STATUS_MODE then s
  else if s.rd die BASK_STATUS_GRANT = 0 then
    s.wr die POND_STATUS_MODE (if s.on die POND_CTL_RETAIN_REQ then 2 else 1)
  else s.wr die POND_STATUS_MODE 0

/-- Memory outside the ranges [`lo`, `hi`) given. -/
def Device.wipeRange (s : Device) (lo hi : Nat) : Device :=
  { s with
    mem := s.mem.filter fun e => !(lo ≤ e.1 && e.1 < hi)
    pond := { s.pond with ecc := s.pond.ecc.filter fun e => !(lo ≤ 8 * e.1 && 8 * e.1 < hi) } }

/-- The wipe of a die (R79): zeros in its columns and stores; the fix queue and the scrub position are cleared and the
repairs kept; WIPE_DONE is set. -/
def Device.wipeDie (s : Device) (die : Nat) : Device :=
  let s1 := (s.wipeRange (die * pondDieBytes) ((die + 1) * pondDieBytes)).wipeRange (storeBase + die * storeDieBytes)
    (storeBase + (die + 1) * storeDieBytes)
  let s2 := { s1 with pond := { s1.pond with
    fixq := SMap.put [] s1.pond.fixq die [], scrubLeft := SMap.put 0 s1.pond.scrubLeft die 0 } }
  (s2.clr die POND_SCRUB_POS_LINE).set die POND_STATUS_WIPE_DONE

/-- The wipe of the memories that units hold (R29, R390): schedule memory, ring contexts and wait slots, sync objects, the translation and
walker caches, the fix queues, the fault pending list, the fail queues and the host cores' private caches. -/
def Device.wipeUnits (s : Device) : Device :=
  { s with
    chorus := { s.chorus with sched := [], groups := [], syncRsv := [] }
    pond := { s.pond with fixq := [] }
    xlate := { s.xlate with tlb := [], walk := [], faults := [], inval := none }
    disp := { s.disp with rings := [], slots := [], coreSlots := [], sync := [], waits := [] }
    selfTest := SMap.norm {} (s.selfTest.map fun e => (e.1, { e.2 with queue := [] }))
    host := { s.host with l1 := [], l2 := [] } }

/-- The wipe of the installed LP5X (R84). -/
def Device.wipeLp (s : Device) : Device :=
  let s1 := s.wipeRange lpBase (lpBase + 0x2000000000)
  { s1 with pond := { s1.pond with lpWiped := true } }

/-- The body of POND_ERR_STATUS_CLEAR (R71): the W1C bits, and an error found in the same cycle recorded after. -/
def pondErrClearBody (die value : Nat) (same : Option Upset) (s : Device) : Device :=
  let s1 := if bit value 31 then (s.clr die POND_ERR_STATUS_VALID).clr die POND_ERR_STATUS_OVERFLOW
    else if bit value 30 then s.clr die POND_ERR_STATUS_OVERFLOW else s
  match same with
  | some u => ((s1.arise [u]).eccDemand u.word)
  | none => s1

/-- The body of UNMAPPED_STATUS_CLEAR (R34, R35): the W1C bits, and a request of the same cycle recorded after. -/
def unmappedClearBody (die value : Nat) (same : Option (Nat × Nat × Nat × Bool)) (s : Device) : Device :=
  let s1 := if bit value 31 then (s.clr die DIE_CTL_UNMAPPED_STATUS_VALID).clr die DIE_CTL_UNMAPPED_STATUS_OVERFLOW
    else if bit value 30 then s.clr die DIE_CTL_UNMAPPED_STATUS_OVERFLOW else s
  match same with
  | some (src, master, a, w) => s1.recordUnmapped die src master a w
  | none => s1

end Sys2Proof.Machine
end

