-- ==== Sys2Proof/Machine/Xlate.lean ====
section
/-!
DEFINITION. Translation (chapter 4, R87 to R95): the job table, the page-table walk, the caches, invalidation.
-/
namespace Sys2Proof.Machine

/-- Fault kinds of R91. -/
def fkNONE : Nat := 0
def fkNOT_PRESENT : Nat := 1
def fkREAD_DENIED : Nat := 2
def fkWRITE_DENIED : Nat := 3
def fkFORMAT : Nat := 4
def fkTABLE_UE : Nat := 5
def fkNO_JOB : Nat := 6
def fkPIN_MISS : Nat := 7
def fkSPAN : Nat := 8

/-- A translation's result: the physical address, a fault kind with its failing address, translation off, or the status of an error completion that a
read of the tables ended with (R78, R434). -/
inductive XRes where
  | pa (a : Nat)
  | fault (kind fail : Nat)
  | off
  | ended (status : Nat)
  deriving DecidableEq, Repr

/-- The base of the job table (R87). -/
def Device.jobTab (s : Device) : Nat := s.rd 0 XLATE_JOBTAB_LO_ADDR * 2 ^ 16 + s.rd 0 XLATE_JOBTAB_HI_ADDR * 2 ^ 32

/-- The 128-bit entry of a job. -/
def Device.jobEntry (s : Device) (j : Nat) : Nat := s.readData (s.jobTab + 16 * j) 16

/-- The fields of a job entry (R87). -/
def jeV (e : Nat) : Bool := bit e 0
def jeFq (e : Nat) : Nat := bits e 2 2
def jeRoot (e : Nat) : Nat := bits e 17 31 * 2 ^ 17
def jeOwner (e : Nat) : Nat := bits e 64 32

/-- A job entry that may be used (R87, R91 NO_JOB): valid, its reserved bits 0, its root table in the Pond or in mapped
LP5X. -/
def Device.jobEntryOk (s : Device) (j : Nat) : Bool :=
  let e := s.jobEntry j
  jeV e && bits e 96 32 = 0 && bits e 48 16 = 0 && bits e 4 13 = 0 && !bit e 1 && s.inPondOrLp (jeRoot e) 0x20000

/-- The fields of a table entry (R90). -/
def teV (e : Nat) : Bool := bit e 0
def teLeaf (e : Nat) : Bool := bit e 1
def teRd (e : Nat) : Bool := bit e 2
def teW (e : Nat) : Bool := bit e 3
def teAddr (e : Nat) : Nat := bits e 8 40 * 2 ^ 8

/-- The virtual address bits a level translates no further: the span of one of its entries, as a power of two (R89). -/
def lvlLog2 (level : Nat) : Nat := if level = 1 then 34 else if level = 2 then 21 else 16

/-- The index of a level (R89). -/
def lvlIndex (level va : Nat) : Nat :=
  if level = 1 then bits va 34 14 else if level = 2 then bits va 21 13 else bits va 16 5

/-- The check of one table entry read at address `at` (R91): a fault kind, or none. -/
def Device.entryFault (s : Device) (level a e : Nat) : Option (Nat × Nat) :=
  if s.isUe (a / 8) then some (fkTABLE_UE, a)
  else if ¬ teV e then some (fkNOT_PRESENT, 0)
  else if bits e 48 16 ≠ 0 ∨ bits e 4 4 ≠ 0 then some (fkFORMAT, 0)
  else if teLeaf e then
    if level = 1 ∨ teAddr e % 2 ^ lvlLog2 level ≠ 0 then some (fkFORMAT, 0) else none
  else if level = 3 ∨ (level = 1 ∧ teAddr e % 0x10000 ≠ 0) ∨
      ¬ s.inPondOrLp (teAddr e) (if level = 1 then 0x10000 else 0x100) then some (fkFORMAT, 0)
  else none

/-- The walker cache's entry for a level of a job's address (R93). -/
def Device.walkHit (s : Device) (die job level va : Nat) : Option Nat :=
  (s.xlate.walk.find? fun w => w.die = die ∧ w.job = job ∧ w.level = level ∧ w.va = va / 2 ^ lvlLog2 level * 2 ^ lvlLog2 level).map
    (·.entry)

/-- Enter a level-1 or level-2 entry in a die's walker cache of 1,024, newest last (R93). -/
def Device.walkFill (s : Device) (die job level va e : Nat) : Device :=
  let base := va / 2 ^ lvlLog2 level * 2 ^ lvlLog2 level
  let keep := s.xlate.walk.filter fun w => !(w.die = die && w.job = job && w.level = level && w.va = base)
  let mine := (keep.filter (·.die = die)).length
  let kept := if mine < 1024 then keep else
    match keep.find? (·.die = die) with | some w => keep.erase w | none => keep
  { s with xlate := { s.xlate with walk := kept ++ [⟨die, job, level, base, e⟩] } }

/-- What a walk's read of the tables that failed gives: TABLE_UE for an uncorrectable entry (R91), else the status it ended with. -/
def walkFail (status a : Nat) : XRes := if status = stUNCORRECTABLE then .fault fkTABLE_UE a else .ended status

/-- One level of a walk: the entry, from the walker cache or read from the table for the unit, checked, and cached if valid. -/
def Device.walkLevel (s : Device) (die unit job level table va : Nat) : Device × Except XRes Nat :=
  match (if level ≤ 2 then s.walkHit die job level va else none) with
  | some e => (s, .ok e)
  | none =>
    let a := table + 8 * lvlIndex level va
    let r := s.readChk die unit a 8
    if r.2.1 ≠ stDONE then (r.1, .error (walkFail r.2.1 a))
    else match r.1.entryFault level a r.2.2 with
      | some k => (r.1, .error (.fault k.1 k.2))
      | none => (if level ≤ 2 then r.1.walkFill die job level va r.2.2 else r.1, .ok r.2.2)

/-- A walk (R89, R91): the job's entry, then up to three levels; a leaf entry and its level, or a fault. -/
def Device.walk (s : Device) (die unit job va : Nat) : Device × Except XRes (Nat × Nat) :=
  let ja := s.jobTab + 16 * job
  let r := s.readChk die unit ja 16
  if r.2.1 ≠ stDONE then (r.1, .error (walkFail r.2.1 ja))
  else if ¬ s.jobEntryOk job then (r.1, .error (.fault fkNO_JOB 0))
  else
    match r.1.walkLevel die unit job 1 (jeRoot (s.jobEntry job)) va with
    | (s1, .error k) => (s1, .error k)
    | (s1, .ok e1) =>
      match s1.walkLevel die unit job 2 (teAddr e1) va with
      | (s2, .error k) => (s2, .error k)
      | (s2, .ok e2) =>
        if teLeaf e2 then (s2, .ok (e2, 21))
        else match s2.walkLevel die unit job 3 (teAddr e2) va with
          | (s3, .error k) => (s3, .error k)
          | (s3, .ok e3) => (s3, .ok (e3, 16))

/-- The cached translation of a unit for a job's address (R93). -/
def Device.tlbHit (s : Device) (die unit job va : Nat) : Option Tlb :=
  s.xlate.tlb.find? fun t => t.die = die ∧ t.unit = unit ∧ t.job = job ∧ t.va ≤ va ∧ va < t.va + 2 ^ t.log2

/-- Entries of a unit's cache that are not pinned: 64 in a core, 16 in a DMA engine (R93). -/
def tlbRoom (unit : Nat) : Nat := if unit < mDma then 64 else 16

/-- Move a hit entry to the most recently used end. -/
def Device.tlbTouch (s : Device) (t : Tlb) : Device :=
  if t.pin then s else { s with xlate := { s.xlate with tlb := s.xlate.tlb.erase t ++ [t] } }

/-- Enter a translation, replacing the unit's least recently used unpinned entry when they are all in use. -/
def Device.tlbFill (s : Device) (t : Tlb) : Device :=
  let mine := s.xlate.tlb.filter fun x => x.die = t.die && x.unit = t.unit && !x.pin
  let keep := if mine.length < tlbRoom t.unit then s.xlate.tlb else
    match mine with | [] => s.xlate.tlb | x :: _ => s.xlate.tlb.erase x
  { s with xlate := { s.xlate with tlb := keep ++ [t] } }

/-- The check of a leaf's rights (R91). -/
def rightsFault (rd wr write : Bool) : Option Nat :=
  if write then (if wr then none else some fkWRITE_DENIED) else (if rd then none else some fkREAD_DENIED)

/-- Translate one address for a unit (R88 to R93): job 0 uses its pinned entries alone and never walks; any other job
uses the cache, then a walk. -/
def Device.translate (s : Device) (die unit job va : Nat) (write : Bool) : Device × XRes :=
  if ¬ s.on 0 XLATE_CTL_EN then (s, .off)
  else match s.tlbHit die unit job va with
    | some t =>
      match rightsFault t.rd t.wr write with
      | some k => (s.tlbTouch t, .fault k 0)
      | none => (s.tlbTouch t, .pa (t.pa + (va - t.va)))
    | none =>
      if job = 0 then (s, .fault fkPIN_MISS 0)
      else match s.walk die unit job va with
        | (s1, .error k) => (s1, k)
        | (s1, .ok (e, l)) =>
          let base := va / 2 ^ l * 2 ^ l
          let t : Tlb := ⟨die, unit, job, base, l, teAddr e, teRd e, teW e, false⟩
          let s2 := s1.tlbFill t
          match rightsFault t.rd t.wr write with
          | some k => (s2, .fault k 0)
          | none => (s2, .pa (t.pa + (va - base)))

/-- The physical address behind a job's virtual address by its tables, for the units that hold no cache of their own
(the dispatcher, the walkers of pads); none where a walk would fault. Job 0's is its pinned translation. -/
def Device.paOf (s : Device) (die job va : Nat) : Option Nat :=
  if job = 0 then
    (s.xlate.tlb.find? fun t => t.die = die && t.job = 0 && t.va ≤ va && va < t.va + 2 ^ t.log2).map fun t => t.pa + (va - t.va)
  else match (s.walk die mManage job va).2 with
    | .ok (e, l) => some (teAddr e + va % 2 ^ l)
    | .error _ => none

/-- Pages a range of virtual addresses names: 2 MiB ones for job 0, 64 KiB ones otherwise (R88, R89, R102). -/
def pagesOf (job va n : Nat) : List Nat :=
  let p := if job = 0 then 2 ^ 21 else 2 ^ 16
  if n = 0 then [] else (List.range ((va + n - 1) / p - va / p + 1)).map fun i => (va / p + i) * p

/-- The page that a unit's virtual address lies in, as its leaf maps it: first address, and size as a power of two (R89). -/
def Device.leafPage (s : Device) (die unit job va : Nat) : Nat × Nat :=
  let l := match s.tlbHit die unit job va with
    | some t => t.log2
    | none => if job = 0 then 21 else match (s.walk die unit job va).2 with | .ok (_, l) => l | .error _ => 16
  (va / 2 ^ l * 2 ^ l, l)

/-- Translate every page that a command names before its first access (R102): each page with whether it is written. With translation off it ends
XLATE_FAULT at once (R91). More than 64 pages, 2 MiB pages or 64 KiB pages as the leaves map them, is SPAN. DESIGN CHOICE (198): a SPAN record
carries the first page and no write. The first fault, with its page, ends the command. -/
def Device.translateAll (s : Device) (die unit job : Nat) (pages : List (Nat × Bool)) : Device × Option (XRes × Nat × Bool) :=
  if ¬ s.on 0 XLATE_CTL_EN then (s, pages.head?.map fun p => (.off, p.1, p.2))
  else if 64 < ((pages.map fun p => s.leafPage die unit job p.1).eraseDups).length then (s, some (.fault fkSPAN 0, (pages.headD (0, false)).1, false))
  else pages.foldl (fun (x : Device × Option (XRes × Nat × Bool)) p =>
    match x.2 with
    | some _ => x
    | none =>
      match x.1.translate die unit job p.1 p.2 with
      | (s1, .pa _) => (s1, none)
      | (s1, r) => (s1, some (r, p.1, p.2))) (s, none)

/-- The physical address of a job's byte for a unit, after its page has been translated. -/
def Device.vaPa (s : Device) (die unit job va : Nat) : Nat :=
  match (s.translate die unit job va false).2 with
  | .pa a => a
  | _ => match s.tlbHit die unit job va with | some t => t.pa + (va - t.va) | none => 0

/-- A virtual range as physical pieces that cross no 64 KiB boundary: address, length. -/
def Device.pieces (s : Device) (die unit job va n : Nat) : List (Nat × Nat) :=
  if n = 0 then []
  else (List.range ((va + n - 1) / 2 ^ 16 - va / 2 ^ 16 + 1)).map fun i =>
    let lo := max va ((va / 2 ^ 16 + i) * 2 ^ 16)
    let hi := min (va + n) ((va / 2 ^ 16 + i + 1) * 2 ^ 16)
    (s.vaPa die unit job lo, hi - lo)

/-- A checked read of a translated range: status and data, little-endian. -/
def Device.vRead (s : Device) (die unit job va n : Nat) : Device × Nat × Nat :=
  let ps := s.pieces die unit job va n
  let x := ps.foldl (fun (x : Device × Nat × Nat × Nat) p =>
    let r := x.1.readChk die unit p.1 p.2
    (r.1, (if x.2.1 = stDONE then r.2.1 else x.2.1), x.2.2.1 + r.2.2 * 256 ^ x.2.2.2, x.2.2.2 + p.2)) (s.carried die unit job ps, stDONE, 0, 0)
  (x.1, x.2.1, x.2.2.1)

/-- A checked write of a translated range. -/
def Device.vWrite (s : Device) (die unit job va n v : Nat) : Device × Nat :=
  let ps := s.pieces die unit job va n
  let x := ps.foldl (fun (x : Device × Nat × Nat) p =>
    let r := x.1.writeChk die unit p.1 p.2 (x.2.2 % 256 ^ p.2)
    (r.1, (if x.2.1 = stDONE then r.2 else x.2.1), x.2.2 / 256 ^ p.2)) (s.carried die unit job ps, stDONE, v)
  (x.1, x.2.1)

/-! ### Invalidation (R94, R95) -/

/-- An entry over [`va`, `va` + 2^`log2`) translates a part of [`lo`, `lo` + `n`). -/
def overlaps (va log2 lo n : Nat) : Bool := va < lo + n && lo < va + 2 ^ log2

/-- Drop every cached entry of a job that translates a part of a range. -/
def Device.dropXlate (s : Device) (job lo n : Nat) : Device :=
  { s with xlate := { s.xlate with
      tlb := s.xlate.tlb.filter fun t => t.pin || t.job ≠ job || !overlaps t.va t.log2 lo n
      walk := s.xlate.walk.filter fun w => w.job ≠ job || !overlaps w.va (lvlLog2 w.level) lo n } }

/-- The body of INVALIDATION_START (R94): a write with START is refused while one runs and for job 0, and a refused write leaves JOB and PAGES_M1
as they stand (DESIGN CHOICE, 199). The word is that of XLATE_INVAL_CTL. -/
def invalStartBody (die value : Nat) (s : Device) : Device :=
  if die ≠ 0 then s
  else
    let s1 := (s.wr 0 XLATE_INVAL_CTL_JOB (bits value 16 12)).wr 0 XLATE_INVAL_CTL_PAGES_M1 (bits value 0 16)
    if ¬ bit value 30 then s1
    else if s.on 0 XLATE_INVAL_CTL_BUSY ∨ bits value 16 12 = 0 then s.set 0 XLATE_STATUS_INVAL_REFUSED
    else
      let lo := s.rd 0 XLATE_INVAL_VA_LO_VA * 2 ^ 16 + s.rd 0 XLATE_INVAL_VA_HI_VA * 2 ^ 32
      let n := (bits value 0 16 + 1) * 2 ^ 16
      let s2 := (s1.set 0 XLATE_INVAL_CTL_BUSY).dropXlate (bits value 16 12) lo n
      { s2 with xlate := { s2.xlate with inval := some (bits value 16 12, lo, n) } }

/-- The body of INVALIDATION_DONE (R94, R95): whatever a walk brought back meanwhile is dropped too, and BUSY clears. -/
def invalDoneBody (s : Device) : Device :=
  match s.xlate.inval with
  | none => s
  | some (j, lo, n) =>
    let s1 := (s.dropXlate j lo n).clr 0 XLATE_INVAL_CTL_BUSY
    { s1 with xlate := { s1.xlate with inval := none } }

end Sys2Proof.Machine
end

