-- ==== Sys2Proof/Machine/Rings.lean ====
section
/-!
DEFINITION. Rings, kernels, jobs and sync objects (chapter 9): ring descriptors and states, completion records, dispatch
of kernels to cores, the effect of a status on ring and job, and the DISPATCH and SYNC register commands.
-/
namespace Sys2Proof.Machine

/-! ### Ring descriptors (R204) -/

/-- The frame program's ring (R203). -/
def frameRing : Nat := 262143

/-- The ring table of a die. -/
def Device.ringTab (s : Device) (die : Nat) : Nat :=
  s.rd die DISPATCH_RING_TAB_LO_ADDR * 2 ^ 22 + s.rd die DISPATCH_RING_TAB_HI_ADDR * 2 ^ 32

/-- The sixteen words of a ring's descriptor in memory. -/
def Device.ringDesc (s : Device) (g : Nat) : List Nat := s.readWords (s.ringTab (g / 65536) + 64 * (g % 65536)) 16

/-- The fields of a ring descriptor. -/
def rdV (d : List Nat) : Bool := bit (wd d 0) 31
def rdDma (d : List Nat) : Bool := bit (wd d 0) 30
def rdPrio (d : List Nat) : Nat := bits (wd d 0) 28 2
def rdClass (d : List Nat) : Nat := bits (wd d 0) 24 4
def rdLog2 (d : List Nat) : Nat := bits (wd d 0) 19 5
def rdBcast (d : List Nat) : Bool := bit (wd d 0) 16
def rdCoreBase (d : List Nat) : Nat := bits (wd d 0) 8 8
def rdCoreLog2 (d : List Nat) : Nat := bits (wd d 0) 4 4
def rdJob (d : List Nat) : Nat := bits (wd d 1) 20 12
def rdVa (d : List Nat) : Nat := wdAddr d 2
def rdCqVa (d : List Nat) : Nat := wdAddr d 4
def rdCqLog2 (d : List Nat) : Nat := bits (wd d 6) 0 5
def rdModelVa (d : List Nat) : Nat := wdAddr d 7
def rdMsiAddr (d : List Nat) : Nat := wdAddr d 9
def rdMsiData (d : List Nat) : Nat := wd d 11

/-- The reserved bits of a ring descriptor are 0. -/
def rdReservedOk (d : List Nat) : Bool :=
  bits (wd d 0) 17 2 = 0 && bits (wd d 0) 0 4 = 0 && bits (wd d 1) 0 20 = 0 && bits (wd d 3) 16 16 = 0 &&
  bits (wd d 5) 16 16 = 0 && bits (wd d 6) 5 27 = 0 && bits (wd d 8) 16 16 = 0 && bits (wd d 10) 16 16 = 0 &&
  wd d 12 = 0 && wd d 13 = 0 && wd d 14 = 0 && wd d 15 = 0

/-- The checks of R205 that the descriptor alone decides. -/
def rdShapeOk (d : List Nat) : Bool :=
  rdV d && rdReservedOk d && 4 ≤ rdLog2 d && rdLog2 d ≤ 16 && 4 ≤ rdCqLog2 d && rdCqLog2 d ≤ 16 &&
  (if rdDma d then !rdBcast d && rdCoreBase d = 0 && rdCoreLog2 d = 0
    else rdCoreLog2 d ≤ 8 && rdCoreBase d % 2 ^ rdCoreLog2 d = 0 && rdCoreBase d + 2 ^ rdCoreLog2 d ≤ 256) &&
  (rdBcast d || rdCoreLog2 d = 0)

/-- Every page of a job's range is mapped. -/
def Device.rangeMapped (s : Device) (die job va n : Nat) : Bool := (pagesOf job va n).all fun p => (s.paOf die job p).isSome

/-- The number of `n` bytes at a job's virtual address, by its tables; 0 where it is not mapped. -/
def Device.vaLoad (s : Device) (die job va n : Nat) : Nat :=
  match s.paOf die job va with | some a => s.readData a n | none => 0

/-- The dispatcher's read of `n` bytes at a job's virtual address, in one page: the state after it, and its status. -/
def Device.vaRead (s : Device) (die job va n : Nat) : Device × Nat :=
  match s.paOf die job va with | some a => let x := s.readChk die mManage a n; (x.1, x.2.1) | none => (s, stDONE)

/-- The fields of a model record (R223) at a virtual address. -/
def Device.mdId (s : Device) (die job va : Nat) : Nat := s.vaLoad die job va 2
def Device.mdSrc (s : Device) (die job va : Nat) : Nat := s.vaLoad die job (va + 8) 8
def Device.mdBytes (s : Device) (die job va : Nat) : Nat := s.vaLoad die job (va + 16) 4
def Device.mdColOff (s : Device) (die job va : Nat) : Nat := s.vaLoad die job (va + 20) 4
def Device.mdQpk (s : Device) (die job va : Nat) : Nat := s.vaLoad die job (va + 2) 1

/-- The rules of R223 for a ring's model record. -/
def Device.modelOk (s : Device) (die : Nat) (d : List Nat) : Bool :=
  let j := rdJob d; let va := rdModelVa d
  1 ≤ s.mdId die j va && 1 ≤ s.mdQpk die j va && s.mdQpk die j va ≤ 16 && s.vaLoad die j (va + 3) 5 = 0 &&
  s.mdSrc die j va < 2 ^ 48 && s.mdSrc die j va % 0x10000 = 0 && s.mdBytes die j va % 0x10000 = 0 &&
  s.mdColOff die j va % 0x10000 = 0 && s.mdColOff die j va + s.mdBytes die j va ≤ columnBytes &&
  s.vaLoad die j (va + 24) 1 = rdCoreBase d && s.vaLoad die j (va + 25) 1 = rdCoreLog2 d && s.vaLoad die j (va + 26) 38 = 0

/-- The global cores of a ring's set. -/
def rdCores (d : List Nat) : List Nat := (List.range (2 ^ rdCoreLog2 d)).map (rdCoreBase d + ·)

/-- The words of a ring's entry. -/
def Device.ringEntry (s : Device) (g i : Nat) : List Nat :=
  let r := s.ring g
  match s.paOf (g / 65536) r.job (rdVa r.desc + 64 * i) with | some a => s.readWords a 16 | none => []

/-- The fields of a command header (R208). -/
def hdOpcode (w : List Nat) : Nat := bits (wd w 0) 24 8
def hdKend (w : List Nat) : Bool := bit (wd w 0) 23
def hdWaitEn (w : List Nat) : Bool := bit (wd w 0) 22
def hdWaitSlot (w : List Nat) : Nat := bits (wd w 0) 19 3
def hdCompl (w : List Nat) : Bool := bit (wd w 0) 18
def hdWaitSync (w : List Nat) : Nat := bits (wd w 0) 0 16

/-- The entries of a ring from HEAD to TAIL. -/
def Ring.entries (r : Ring) : Nat :=
  let n := 2 ^ rdLog2 r.desc
  (r.tail + n - r.head) % n

/-! ### Completion records (R207) -/

/-- The four words of a completion record. -/
def cqRecord (index wrap status flags opcode reason unit count : Nat) : List Nat :=
  [index % 65536 + 65536 * (wrap % 65536), status % 256 + 256 * (flags % 256) + 65536 * (opcode % 256) + 2 ^ 24 * (reason % 256),
    unit % 65536 + 65536 * (count % 65536), 0]

/-- Write a record at a ring's CQ_TAIL and send its message; a record that meets a full queue is held (R207). DESIGN CHOICE (204): a record whose write ends
with an error completion, or whose page is not mapped, is lost, and CQ_TAIL moves on. -/
def Device.cqWrite (s : Device) (g : Nat) (rec : List Nat) : Device :=
  let r := s.ring g
  let d := if g = frameRing then s.ringDesc g else r.desc
  let n := 2 ^ rdCqLog2 d
  if (r.cqTail + 1) % n = r.cqHead ∨ r.held ≠ [] then s.setRing g { r with held := r.held ++ [rec] }
  else
    let die := if g = frameRing then 0 else g / 65536
    let a := if g = frameRing then some (rdCqVa d + 16 * r.cqTail)
      else s.paOf (g / 65536) r.job (rdCqVa d + 16 * r.cqTail)
    let s1 := match a with | some a => (s.writeChk die mManage a 16 (packBits 32 rec)).1 | none => s
    let s2 := s1.setRing g { r with cqTail := (r.cqTail + 1) % n }
    if rdMsiAddr d = 0 then s2 else s2.msiWrite die mManage (rdMsiAddr d) (rdMsiData d)

/-- Write held records while the queue has room; at most `n` of them. -/
def Device.cqDrain (s : Device) (g : Nat) : Nat → Device
  | 0 => s
  | n + 1 =>
    let r := s.ring g
    let d := if g = frameRing then s.ringDesc g else r.desc
    match r.held with
    | [] => s
    | rec :: more =>
      if (r.cqTail + 1) % 2 ^ rdCqLog2 d = r.cqHead then s
      else
        let s1 := (s.setRing g { r with held := [] }).cqWrite g rec
        (s1.setRing g { s1.ring g with held := more }).cqDrain g n

/-- HEAD advances past one entry, counting its wraps. -/
def Ring.advance (r : Ring) : Ring :=
  if r.head + 1 = 2 ^ rdLog2 r.desc then { r with head := 0, wrap := r.wrap + 1, fetched := false }
  else { r with head := r.head + 1, fetched := false }

/-- The dispatcher's read of the entry at HEAD, which it makes once: the state after it, and its status (R67, R69, R78). -/
def Device.headRead (s : Device) (g : Nat) : Device × Nat :=
  let r := s.ring g
  if r.fetched then (s, stDONE)
  else match s.paOf (g / 65536) r.job (rdVa r.desc + 64 * r.head) with
    | some a => let x := s.readChk (g / 65536) mManage a 64; (x.1, x.2.1)
    | none => (s, stDONE)

/-- The entry at HEAD is fetched and counts so, once (R224). -/
def Device.fetchHead (s : Device) (g : Nat) : Device :=
  let r := s.ring g
  if r.fetched then s else ((s.headRead g).1.setRing g { r with fetched := true }).addWrap (g / 65536) DISPATCH_AUDIT_FETCHED 1

/-- Entries not started, from HEAD on, end with ENDED (R219); at most `n` of them. -/
def Device.endEntries (s : Device) (g : Nat) : Nat → Device
  | 0 => s
  | n + 1 =>
    let r := s.ring g
    if r.head = r.tail then s
    else
      let w := s.ringEntry g r.head
      let s0 := if r.fetched then s.addWrap (g / 65536) DISPATCH_AUDIT_RETIRED 1 else s
      let s1 := s0.setRing g r.advance
      (s1.cqWrite g (cqRecord r.head r.wrap stENDED 0 (hdOpcode w) 0 (g / 65536 * 256) 0)).endEntries g n

/-! ### The effect of a status (R213, R431) -/

/-- Statuses that leave the ring and the job going. -/
def ringContinues (status : Nat) : Bool :=
  [stDONE, stEPOCH_STALE, stPAD_FULL, stNO_SLOT, stBUCKET_MISS, stEPOCH_RETRY, stPOS_MISMATCH, stBAD_TABLE, stQUEUE_FULL,
    stBAD_ACTION, stCOLL_TIMEOUT, stCOLL_MISMATCH, stLINK_LOST, stENDED].contains status

/-- Statuses that end the job. An XLATE_FAULT ends it only when it comes from an abort. -/
def jobEnds (status : Nat) (abort : Bool) : Bool :=
  status = stUNCORRECTABLE || status = stFAULT_OVERFLOW || status = stDEADLINE || (status = stXLATE_FAULT && abort)

/-- A ring takes the status of one of its commands: it stops, or its job is ended, or both go on. -/
def Device.ringStatus (s : Device) (g status : Nat) (abort : Bool) : Device :=
  if jobEnds status abort then s.beginJobEnd (s.ring g).job
  else if ringContinues status then s
  else
    let r := s.ring g
    if r.state = 1 then s.setRing g { r with state := 2 } else s

/-- A ring's command retires (R206, R207): HEAD advances, the entry is counted, a record is written if it is due, and the
status takes its effect. -/
def Device.retire (s : Device) (g : Nat) (status flags opcode reason unit count : Nat) (compl abort : Bool) : Device :=
  let s := s.fetchHead g
  let r := s.ring g
  let s1 := (s.setRing g r.advance).addWrap (g / 65536) DISPATCH_AUDIT_RETIRED 1
  let s2 := if status ≠ stDONE ∨ compl then s1.cqWrite g (cqRecord r.head r.wrap status flags opcode reason unit count) else s1
  s2.ringStatus g status abort

/-- A core's unit number in a completion record: the die in [9:8], the global core in [7:0]. -/
def coreUnit (core : Nat) : Nat := core / 64 * 256 + core

/-- A gang's claim holds a core (R222). -/
def Device.claimHolds (s : Device) (core : Nat) : Bool := s.disp.claims.any fun g => (rdCores (s.ring g).desc).contains core

/-- A kernel ends: its cores are free, and so is its claim, but not one of a gang that waits for them; accumulator rows and waits that it left go. -/
def Device.endKernel (s : Device) (k : Kernel) : Device :=
  let s1 := k.cores.foldl (fun s c =>
    let s1 := (s.setCmd c none).clr (c / 64) (DISPATCH_CORE_JOB (c % 64))
    if s.claimHolds c then s1 else s1.clr (c / 64) (DISPATCH_CORE_CLAIMED (c % 64))) s
  ({ s1 with disp := { s1.disp with
      kernels := s1.disp.kernels.filter (·.ring ≠ k.ring), waits := s1.disp.waits.filter fun w => !k.cores.contains w.2.2 } }).dropLink (.ring k.ring)

/-- A gang's claim is given up: its ring has no kernel to start any more. -/
def Device.dropClaim (s : Device) (g : Nat) : Device :=
  if s.disp.claims.contains g then
    let s1 := (rdCores (s.ring g).desc).foldl (fun s c => s.clr (c / 64) (DISPATCH_CORE_CLAIMED (c % 64))) s
    { s1 with disp := { s1.disp with claims := s1.disp.claims.filter (· ≠ g) } }
  else s

/-- The kernel of a ring that runs. -/
def Device.kernelOf (s : Device) (g : Nat) : Option Kernel := s.disp.kernels.find? (·.ring = g)

/-- A kernel that has begun stands before a MODEL_LOAD, which forms a kernel of its own (R211): it is over. -/
def Device.modelNext (s : Device) (k : Kernel) : Bool :=
  let r := s.ring k.ring
  decide (0 < k.entry) && (k.cores.all fun c => (s.cmd c).isNone) && decide (r.head ≠ r.tail) && decide (hdOpcode (s.ringEntry k.ring r.head) = 0x22)

/-- A kernel that stands before a MODEL_LOAD ends (R211). -/
def Device.splitKernel (s : Device) (g : Nat) : Device :=
  match s.kernelOf g with
  | some k => if s.modelNext k then s.endKernel k else s
  | none => s

/-- A command that all its cores have ended: the record it leaves and what its status does (R207, R213). -/
def Device.commandDone (s : Device) (c : CoreCmd) : Device :=
  let all := c.cores.filterMap s.cmd
  let bad := c.cores.find? fun k => match s.cmd k with | some x => x.status ≠ stDONE | none => false
  let core := bad.getD (c.cores.headD 0)
  let x := (s.cmd core).getD c
  let flags := all.foldl (fun f y => f ||| y.flags) 0
  let s1 := c.cores.foldl (fun s k => s.setCmd k none) s
  match c.work with
  | .slice die idx => if sliceFails x.status then s1.endSlice die idx x.status else s1
  | .ring g =>
    let s2 := s1.retire g x.status flags c.opcode x.reason (coreUnit core) x.count (bit c.header 18) false
    match s2.kernelOf g with
    | none => s2
    | some k =>
      if bit c.header 23 || c.opcode = 0x22 || (s2.ring g).state ≠ 1 || (s2.job (s2.ring g).job).state = 4 then
        let s3 := s2.endKernel k
        if (s3.ring g).state = 0 ∨ (s3.job (s3.ring g).job).state = 4 then s3.endEntries g (s3.ring g).entries else s3
      else
        let s3 : Device := { s2 with disp := { s2.disp with kernels := s2.disp.kernels.map fun y => if y.ring = g then { y with entry := y.entry + 1 } else y } }
        s3.splitKernel g

/-- A core ends its command (R207): the command is done when every core of it has ended it. -/
def Device.coreEnds (s : Device) (core : Nat) : Device :=
  match s.cmd core with
  | none => s
  | some c =>
    let s1 := s.setCmd core (some { c with ended := true })
    if c.cores.all fun k => match s1.cmd k with | some y => y.ended | none => true then s1.commandDone c else s1

/-! ### Refusals of the dispatcher (R212) -/

/-- Record a refusal in DISPATCH_ERR of the ring's die. -/
def Device.dispatchErr (s : Device) (g reason : Nat) : Device :=
  let die := g / 65536
  if s.on die DISPATCH_ERR_VALID then s.set die DISPATCH_ERR_OVERFLOW
  else ((s.set die DISPATCH_ERR_VALID).wr die DISPATCH_ERR_REASON reason).wr die DISPATCH_ERR_RING (g % 65536)

/-- The opcodes of R210. -/
def knownOpcode (o : Nat) : Bool :=
  o = 0x00 || (0x10 ≤ o && o ≤ 0x17) || (0x20 ≤ o && o ≤ 0x23)

/-- A local core is reserved: the frame program names it (R47); CLUSTER_CORE_RSV reports it. -/
def Device.reservedCore (s : Device) (core : Nat) : Bool :=
  bit (s.rd (core / 64) (CLUSTER_CORE_RSV_RSV (core % 64 / 8))) (core % 8)

/-- The dispatcher's checks of a command (R212), by reason; 0 when it passes. A state swap's signal counts among the adds that R217 refuses. DEDUCED (170): a
command may wait on a reserved object. -/
def Device.dispatchReason (s : Device) (i : Issue) (w : List Nat) : Nat :=
  let op := hdOpcode w
  let job := s.workJob i.work
  if ¬ knownOpcode op ∨ bits (wd w 0) 16 2 ≠ 0 then 0x10
  else if op = 0x20 ∧ (bits (wd w 1) 16 15 ≠ 0 ∨ bits (wd w 2) 16 16 ≠ 0 ∨ (w.drop 5).any (· ≠ 0)) then 0x10
  else if op = 0x21 ∧ (bits (wd w 1) 3 29 ≠ 0 ∨ (w.drop 4).any (· ≠ 0)) then 0x10
  else if op = 0x23 ∧ (w.drop 2).any (· ≠ 0) then 0x10
  else if (op = 0x22 ∨ op = 0x00) ∧ (w.drop 1).any (· ≠ 0) then 0x10
  else if op = 0x20 ∧ (wd2 w 3 = 0 ∨ (bit (wd w 1) 31 ∧ bits (wd w 2) 0 16 = s.rd 0 OLINER_DEVICE_ID_ID) ∨
      (¬ bit (wd w 1) 31 ∧ job ≠ 0 ∧ s.syncReserved (bits (wd w 1) 0 16))) then 0x11
  else if op = 0x14 ∧ job ≠ 0 ∧ bit (wd w 1) 30 ∧ s.syncReserved (bits (wd w 4) 0 16) then 0x11
  else match i.work with
    | .slice _ _ => 0
    | .ring g =>
      let first : Bool := match s.kernelOf g with | some k => k.entry == 0 | none => true
      let d := (s.ring g).desc
      if op = 0x23 ∧ (¬ first ∨ wd w 1 = 0) then 0x12
      else if first ∧ op ≠ 0x23 ∧ op ≠ 0x22 ∧ i.cores.any s.reservedCore then 0x12
      else if op = 0x22 ∧ (rdModelVa d = 0 ∨ ¬ rdBcast d ∨ (rdCores d).any s.reservedCore) then 0x14
      else 0

/-! ### Issue of a command -/

/-- The value a command waits for: of its ring's wait slot, or of its core's for a frame-program list (R209). -/
def Device.waitValue (s : Device) (i : Issue) (w : List Nat) : Nat :=
  match i.work with
  | .ring g => SMap.get 0 s.disp.slots (g * 8 + hdWaitSlot w)
  | .slice _ _ => SMap.get 0 s.disp.coreSlots (i.cores.headD 0 * 8 + hdWaitSlot w)

/-- A command's wait is satisfied (R216). -/
def Device.cmdWaitDone (s : Device) (i : Issue) (w : List Nat) : Bool :=
  !hdWaitEn w || waitDone (s.syncVal (hdWaitSync w)) (s.waitValue i w)

/-- A fault of a job is parked, so that no command of the job is dispatched (R103); a fault has come to a command of a ring's kernel, so that no later one of
it starts (R103). -/
def Device.jobParked (s : Device) (j : Nat) : Bool := s.xlate.faults.any fun f => f.job = j && !f.terminal && f.stage ≠ .raised
def Device.ringFaulted (s : Device) (g : Nat) : Bool := s.xlate.faults.any fun f => f.ring = g && !f.terminal

/-- A command's turn has come (R124, R208): none of its cores runs a command, and it is the next one of its kernel, or of the list of a slice that runs
on them. DESIGN CHOICE (206): a command that does not touch what the one before it writes waits for its end too. -/
def Device.inTurn (s : Device) (i : Issue) : Bool :=
  (i.cores.all fun c => (s.cmd c).isNone) && (match i.work with
    | .ring g => (match s.kernelOf g with | some k => decide (k.cores = i.cores) | none => false) && decide (i.entry = (s.ring g).head)
    | .slice die idx => s.chorus.slices.any fun x => decide (x.die = die) && decide (x.idx = idx) && x.started &&
        i.cores.all fun c => decide (c / 64 = die) && x.units.contains (c % 64) && decide (SMap.get 0 s.probe.pc c = i.entry))

/-- A command may be issued: its turn has come, a ring command's job is not held or ending (R103, R219), its kernel has met no fault, its wait is satisfied, and none of its cores is
halted (R455). -/
def Device.mayIssue (s : Device) (i : Issue) (w : List Nat) : Bool :=
  s.inTurn i && s.cmdWaitDone i w && !(i.cores.any fun c => s.probe.halted.contains c) && (match i.work with
    | .slice _ _ => true
    | .ring g => ((s.job (s.ring g).job).state = 1 || (s.job (s.ring g).job).state = 3) && !s.jobParked (s.ring g).job && !s.ringFaulted g)

/-- The cores of an issue take a command, its wait is over, and a ring's entry counts as fetched. -/
def Device.taken (s : Device) (i : Issue) (w : List Nat) : Device :=
  let c : CoreCmd := { work := i.work, entry := i.entry, opcode := hdOpcode w, header := wd w 0, cores := i.cores }
  let s1 := i.cores.foldl (fun s k => s.setCmd k (some c)) s
  let s2 : Device := { s1 with disp := { s1.disp with waits := s1.disp.waits.filter fun x => !i.cores.contains x.2.2 } }
  match i.work with | .ring g => s2.fetchHead g | .slice _ _ => s2

/-- Issue a command to its cores: each takes it, a ring's entry counts as fetched, the dispatcher's checks are made, and
the command runs if they pass. An entry whose read fails ends its command with that status (R431). -/
def Device.issue (s : Device) (i : Issue) (w : List Nat) (run : Device → Device) : Device :=
  if ¬ s.mayIssue i w then
    if s.cmdWaitDone i w ∨ ¬ s.inTurn i then s
    else { s with disp := { s.disp with waits := s.disp.waits.insert (hdWaitSync w, s.waitValue i w, i.cores.headD 0) } }
  else
    let s3 := s.taken i w
    let st := match i.work with | .ring g => (s.headRead g).2 | .slice _ _ => stDONE
    let r := s3.dispatchReason i w
    if st ≠ stDONE then i.cores.foldl (fun s k => s.cmdStatus k st 0) s3
    else if r = 0 then run s3
    else
      let s4 := match i.work with | .ring g => s3.dispatchErr g r | .slice _ _ => s3
      i.cores.foldl (fun s k => s.cmdStatus k stBAD_COMMAND r) s4

/-! ### The commands of this chapter (R211) -/

/-- A remote sync add (R215, R435): a flit to the partner, with the next sequence number of the port; what it ends with at issue. The command on `cores`
waits for its acknowledgement. -/
def Device.remoteAdd (s : Device) (die partner sync n cls : Nat) (fixed job0 : Bool) (cores : List Nat) : Device × Nat :=
  let st := s.sendStatus partner
  match s.egress partner with
  | some port =>
    if st = stDONE then
      let seq := SMap.get 0 s.err.raddSeq port
      let s1 := (s.addWrap die SYNC_AUDIT_SENT 1).sendFlit partner 5 cls fixed job0 [sync, n % 2 ^ 32, n / 2 ^ 32, seq]
      ({ s1 with err := { s1.err with
          raddSeq := SMap.put 0 s1.err.raddSeq port ((seq + 1) % 65536)
          radds := s1.err.radds ++ [{ die := port, partner := partner, sync := sync, seq := seq, cores := cores }]
          addsOut := s1.err.addsOut + 1 } }, st)
    else (s, st)
  | none => (s, st)

/-- What SYNC_ADD does once issued. -/
def syncAddRun (i : Issue) (w : List Nat) (s : Device) : Device :=
  let core := i.cores.headD 0
  let cls := match i.work with | .ring g => rdClass (s.ring g).desc | .slice _ _ => 0
  if bit (wd w 1) 31 then
    let job0 := decide (s.workJob i.work = 0)
    let x := s.remoteAdd (core / 64) (bits (wd w 2) 0 16) (bits (wd w 1) 0 16) (wd2 w 3) cls job0 job0 i.cores
    if x.2 = stDONE then x.1 else i.cores.foldl (fun s k => s.cmdStatus k x.2 0) x.1
  else
    let g := bits (wd w 1) 0 16
    let st := s.syncAddStatus (core / 64) g
    i.cores.foldl (fun s k => s.cmdStatus k st 0) (s.syncAddFrom (core / 64) (core % 64) g (sext 64 (wd2 w 3)))

/-- What SET_WAIT does once issued (R209). -/
def setWaitRun (i : Issue) (w : List Nat) (s : Device) : Device :=
  let slot := bits (wd w 1) 0 3
  match i.work with
  | .ring g => { s with disp := { s.disp with slots := SMap.put 0 s.disp.slots (g * 8 + slot) (wd2 w 2) } }
  | .slice _ _ => { s with disp := { s.disp with
      coreSlots := i.cores.foldl (fun m c => SMap.put 0 m (c * 8 + slot) (wd2 w 2)) s.disp.coreSlots } }

/-- What KBEGIN does once issued: the kernel's bound (R211, R220). -/
def kbeginRun (i : Issue) (w : List Nat) (s : Device) : Device :=
  match i.work with
  | .slice _ _ => s
  | .ring g => { s with disp := { s.disp with
      kernels := s.disp.kernels.map fun k => if k.ring = g then { k with fcBound := wd w 1 } else k } }

/-- What MODEL_LOAD does once issued (R223): every core of the set loses its model and shows LOADING. -/
def modelLoadRun (i : Issue) (s : Device) : Device :=
  match i.work with
  | .slice _ _ => s
  | .ring g =>
    let d := (s.ring g).desc
    let s1 := (rdCores d).foldl (fun s c =>
      (s.clr (c / 64) (DISPATCH_CORE_MODEL (c % 64))).set (c / 64) (DISPATCH_CORE_LOADING (c % 64))) s
    { s1 with disp := { s1.disp with loads := s1.disp.loads ++ [(g, s.mdId (g / 65536) (rdJob d) (rdModelVa d), rdCores d)] } }

/-- Copy memory sparsely: the `n` bytes from `src` to `dst`. -/
def Device.copyRange (s : Device) (src dst n : Nat) : Device :=
  let moved := (s.mem.filter fun e => src ≤ e.1 && e.1 < src + n).map fun e => (e.1 - src + dst, e.2)
  let s1 : Device := { s with mem := s.mem.filter fun e => !(dst ≤ e.1 && e.1 < dst + n) }
  { s1 with
    mem := SMap.insAll moved s1.mem
    pond := { s1.pond with ecc := s1.pond.ecc.filter fun e => !(dst ≤ 8 * e.1 && 8 * e.1 + 8 ≤ dst + n) } }

/-- Words of `n` bytes from `a` that hold or meet an error. -/
def Device.badWords (s : Device) (a n : Nat) : List Nat :=
  (((s.pond.ecc.map (·.1)) ++ (s.pond.link.map (·.1))).filter fun w => decide (a < 8 * w + 8) && decide (8 * w < a + n)).eraseDups.mergeSort

/-- Copy `n` bytes from `src` to `dst` with the errors that the reads and the writes meet; nothing is written where a word read is uncorrectable, which
the result says. -/
def Device.copyChk (s : Device) (src dst n : Nat) : Device × Bool :=
  let ws := s.badWords src n
  let s1 := ws.foldl Device.eccDemand s
  if ws.any s.isUe then (s1, true)
  else
    let s2 := ws.foldl (fun (t : Device) w =>
      let f := s.readWord w ^^^ s.load (8 * w) 8
      if f = 0 then t else t.store (8 * w + dst - src) (t.load (8 * w + dst - src) 8 ^^^ f) 8) (s1.copyRange src dst n)
    ((s2.badWords dst n).foldl Device.linkStore s2, false)

/-! ### Dispatch of kernels (R206, R220, R222) -/

/-- A ring has work that may be dispatched: ENABLED, its job ACTIVE or DRAINING, entries to fetch, no record held, no
kernel running, its class not parked (R222, R207). -/
def Device.ringReady (s : Device) (g : Nat) : Bool :=
  let r := s.ring g
  r.state = 1 && ((s.job r.job).state = 1 || (s.job r.job).state = 3) && !s.jobParked r.job && r.head ≠ r.tail && r.held = [] &&
  (s.kernelOf g).isNone && !rdDma r.desc && !bit (s.rd 0 BASK_PARK_PARKED) (rdClass r.desc) &&
  s.cmdWaitDone ⟨.ring g, r.head, []⟩ (s.ringEntry g r.head)

/-- The first command of a ring's next kernel waits (R216, R224). A ring of DMA descriptors has no waits (R205). -/
def Device.ringWaits (s : Device) (g : Nat) : Bool :=
  let r := s.ring g
  decide (r.state = 1) && decide (r.head ≠ r.tail) && !rdDma r.desc && (s.kernelOf g).isNone &&
  !s.cmdWaitDone ⟨.ring g, r.head, []⟩ (s.ringEntry g r.head)

/-- A branch's edge, as a count of ticks, the recovery slices it has left, and the tick in which the last of them stands (R52). -/
def Device.baseOf (s : Device) (b : Branch) : Nat := b.base.getD (max (s.chorus.tickNo + 1) b.edge)
def Device.leftOf (s : Device) (b : Branch) : List Nat := if b.base.isSome then b.left else s.branchSlices b.die b.first
def Device.lastOf (s : Device) (b : Branch) : Nat :=
  (s.leftOf b).foldl (fun m i => max m (s.baseOf b + slTick (s.sliceRec b.die i))) s.chorus.tickNo

/-- The frame program's slices of the tick `t` are skipped on a branch's units (R52): the branch has begun by then, and no phase of the die has begun
since the tick of its last recovery slice. -/
def Device.branchSkips (s : Device) (b : Branch) (t : Nat) : Bool :=
  let inFrame := fun (x : Nat) => (s.tick + x - s.chorus.tickNo) % s.frameLen
  decide (s.baseOf b ≤ t) && !((List.range (min s.frameLen (t - s.lastOf b))).any fun k =>
    match s.phaseAt b.die (inFrame (s.lastOf b + k + 1)) with | some w => phFirst w = inFrame (s.lastOf b + k + 1) | none => false)

/-- Distance in rc from now to the start of the next slice that names a core (R220), looking ahead one frame: the slices
due and not started, the scheduled slices of the ticks ahead that no branch skips, the recovery slices of branches taken. -/
def Device.nextSliceRc (s : Device) (core : Nat) : Option Nat :=
  let die := core / 64
  let now := s.chorus.tickNo
  let mine := s.chorus.branches.filter fun b => decide (b.die = die) && b.units.contains (core % 64)
  let due := (s.chorus.slices.filter fun x => x.die = die && !x.started && x.units.contains (core % 64)).map fun x =>
    slStart (s.sliceRec die x.idx) - s.rc
  let ahead := (List.range (s.sliceCount die)).filterMap fun i =>
    let r := s.sliceRec die i
    if ¬ (slUnits r).contains (core % 64) then none
    else if slRel r then
      (mine.find? fun b => (s.leftOf b).contains i && decide (now < s.baseOf b + slTick r)).map fun b =>
        (s.baseOf b + slTick r - now) * s.period + slStart r - s.rc
    else
      let k := (slTick r + s.frameLen - s.tick) % s.frameLen
      let k := if k = 0 then s.frameLen else k
      ([k, k + s.frameLen, k + 2 * s.frameLen].find? fun k => !(mine.any fun b => s.branchSkips b (now + k))).map fun k =>
        k * s.period + slStart r - s.rc
  (due ++ ahead).foldl (fun m x => match m with | some y => some (min y x) | none => some x) none

/-- A lent kernel's time in rc: ceil(FC_BOUND × 600 / f) (R220). -/
def Device.boundRc (s : Device) (die fcBound : Nat) : Nat := (fcBound * 600 + s.fabricMHz die - 1) / s.fabricMHz die

/-- A reserved core may take a ring's kernel now (R220). -/
def Device.lendOk (s : Device) (core g : Nat) : Bool :=
  let w := s.ringEntry g (s.ring g).head
  let bound := match s.disp.parked.find? (·.ring = g) with | some k => k.fcBound | none => wd w 1
  s.on (core / 64) (DISPATCH_LEND_EN (core % 64)) && ((s.disp.parked.any (·.ring = g)) || hdOpcode w = 0x23) &&
  !(s.chorus.slices.any fun x => x.die = core / 64 && x.started && x.units.contains (core % 64)) &&
  (match s.nextSliceRc core with | some t => s.boundRc (core / 64) bound + 64 ≤ t | none => true)

/-- A global core is disabled, or its disabling drains (R438, R442). -/
def Device.coreDisabled (s : Device) (core : Nat) : Bool :=
  (if core % 64 < 32 then bit (s.rd (core / 64) DIE_CTL_DISABLED_LO_CORES) (core % 32)
    else bit (s.rd (core / 64) DIE_CTL_DISABLED_HI_CORES) (core % 32)) ||
  s.err.drains.any fun d => d.die = core / 64 && d.unit = core % 64 && d.op = 1

/-- A core is busy with a kernel, a model copy or a slice, or is offered nothing: under test (R361) or in reset (R436). -/
def Device.coreBusy (s : Device) (core : Nat) : Bool :=
  (s.disp.kernels.any fun k => k.cores.contains core) || s.coreTested (core / 64) (core % 64) ||
  (s.err.drains.any fun d => d.die = core / 64 && d.unit = core % 64 && d.op = 0) || s.isFenced (core / 64) (core % 64) ||
  (s.chorus.slices.any fun x => x.die = core / 64 && x.started && x.units.contains (core % 64))

/-- The rings whose set holds a core. -/
def Device.ringsFor (s : Device) (core : Nat) : List Nat :=
  (s.disp.rings.map (·.1)).filter fun g => s.ringReady g && (rdCores (s.ring g).desc).contains core

/-- How far a ring stands in the round robin after the ring served last (R222). -/
def roundRobin (last g : Nat) : Nat := (g + 262144 - last) % 262144

/-- The ready ring a core takes (R222): one resumed after a park, then the highest PRIO, then round robin. -/
def Device.pickRing (s : Device) (core : Nat) : Option Nat :=
  match s.disp.resumed.find? fun x => decide (x.1 = core) && !s.jobParked (s.ring x.2.1).job with
  | some (_, g, _) => some g
  | none =>
    (s.ringsFor core).foldl (fun best g =>
      match best with
      | none => some g
      | some b =>
        let pb := rdPrio (s.ring b).desc
        let pg := rdPrio (s.ring g).desc
        let last := SMap.get 0 s.disp.lastRing (core * 4 + pg)
        if pb < pg ∨ (pb = pg ∧ roundRobin last g < roundRobin last b) then some g else best) none

/-- First address of a save slot (R104). -/
def Device.saveSlot (s : Device) (die core slot : Nat) : Nat :=
  s.rd die XLATE_SAVE_LO_ADDR * 2 ^ 16 + s.rd die XLATE_SAVE_HI_ADDR * 2 ^ 32 + (core * 4 + slot) * 0x41000

/-- A kernel starts on its cores; one that had parked goes on where it stood, its core's store reloaded from its save slot (R104), its time before the park included (R221). -/
def Device.startKernel (s : Device) (g : Nat) (cores : List Nat) : Device :=
  let r := s.ring g
  let old := s.disp.parked.find? (·.ring = g)
  let k : Kernel := { ring := g, cores := cores, entry := (old.map (·.entry)).getD 0, fcBound := (old.map (·.fcBound)).getD 0
                      ticks := (old.map (·.ticks)).getD 0, lent := cores.any s.reservedCore,
                      startRc := s.rc, startTick := s.chorus.tickNo }
  let s0 := (s.disp.resumed.filter fun x => x.2.1 = g).foldl (fun (s : Device) x =>
    s.copyRange (s.saveSlot (x.1 / 64) (x.1 % 64) x.2.2) (coreStoreBase (x.1 / 64) (x.1 % 64)) 0x40000) s
  let s1 := cores.foldl (fun s c => s.wr (c / 64) (DISPATCH_CORE_JOB (c % 64)) r.job) s0
  let s2 := s1.setRing g { s1.ring g with waitTicks := 0 }
  { s2 with
    link := ((old.map (·.links)).getD []).foldl (fun m l => SMap.put none m l.1 (some l.2)) s2.link
    disp := { s2.disp with
      kernels := s2.disp.kernels ++ [k]
      claims := s2.disp.claims.filter (· ≠ g)
      resumed := s2.disp.resumed.filter fun x => x.2.1 ≠ g
      parked := s2.disp.parked.filter (·.ring ≠ g)
      lastRing := cores.foldl (fun m c => SMap.put 0 m (c * 4 + rdPrio r.desc) (g + 1)) s2.disp.lastRing } }

/-- The first command of a kernel ends at dispatch with a status and nothing else (R212, R223, R438). -/
def Device.refuseWith (s : Device) (g status reason core : Nat) : Device :=
  let r := s.ring g
  let w := s.ringEntry g r.head
  (s.setRing g { r with waitTicks := 0 }).retire g status 0 (hdOpcode w) reason (coreUnit core) 0 (hdCompl w) false
def Device.refuseFirst (s : Device) (g status core : Nat) : Device := s.refuseWith g status 0 core

/-- Why the dispatcher refuses the first command of a ring's next kernel before it takes a reserved core (R212): a kernel that cannot be lent one, which
no gap would let start. 0 where it may be lent, or starts on free cores. -/
def Device.lendReason (s : Device) (g : Nat) : Nat :=
  let cores := rdCores (s.ring g).desc
  let w := s.ringEntry g (s.ring g).head
  if (cores.any s.reservedCore) && hdOpcode w ≠ 0x23 && !(s.disp.parked.any (·.ring = g)) then s.dispatchReason ⟨.ring g, (s.ring g).head, cores⟩ w else 0

/-- The body of KERNEL_DISPATCH (R222): a free core takes its highest-ranked ready kernel; a gang claims its whole set,
and starts when every core of it is free. -/
def kernelDispatchBody (core : Nat) (s : Device) : Device :=
  if s.coreBusy core then s
  else
    let claim := s.disp.claims.find? fun g => (rdCores (s.ring g).desc).contains core
    match (match claim with | some g => some g | none => s.pickRing core) with
    | none => s
    | some g =>
      let d := (s.ring g).desc
      let cores := rdCores d
      if claim.isSome ∧ ¬ s.ringReady g then s
      else if (s.headRead g).2 ≠ stDONE then s.refuseFirst g (s.headRead g).2 core
      else if s.lendReason g ≠ 0 then (s.dispatchErr g (s.lendReason g)).refuseWith g stBAD_COMMAND (s.lendReason g) core
      else match cores.find? s.coreDisabled with
      | some c => s.refuseFirst g stDISABLED c
      | none =>
        if (cores.any s.reservedCore) && !(cores.all fun c => !s.reservedCore c || s.lendOk c g) then s
        else
          let w := s.ringEntry g (s.ring g).head
          let out := if rdModelVa d = 0 ∨ hdOpcode w = 0x22 then none
            else cores.find? fun c => s.rd (c / 64) (DISPATCH_CORE_MODEL (c % 64)) ≠ s.mdId (g / 65536) (rdJob d) (rdModelVa d)
          match out with
          | some c => s.refuseFirst g stMODEL_OUT c
          | none =>
            if claim.isNone ∧ 1 < cores.length ∧ cores.any s.claimHolds then s
            else if cores.any fun c => s.coreBusy c then
              if claim.isSome ∨ cores.any fun c => s.on (c / 64) (DISPATCH_CORE_CLAIMED (c % 64)) then s
              else
                let s1 := cores.foldl (fun s c => s.set (c / 64) (DISPATCH_CORE_CLAIMED (c % 64))) s
                { s1 with disp := { s1.disp with claims := s1.disp.claims ++ [g] } }
            else
              let s1 := if 1 < cores.length then cores.foldl (fun s c => s.set (c / 64) (DISPATCH_CORE_CLAIMED (c % 64))) s else s
              s1.startKernel g cores

/-- The body of WAIT_TIMEOUT (R216): the first command of a ring's next kernel has waited WAIT_TICKS ticks. -/
def waitTimeoutBody (g : Nat) (s : Device) : Device :=
  if s.ringWaits g ∧ s.rd 0 DISPATCH_CTL_WAIT_TICKS ≤ (s.ring g).waitTicks then
    s.refuseFirst g stWAIT_TIMEOUT (rdCoreBase (s.ring g).desc)
  else s

/-- A kernel's time counts towards its limit (R221): not while it loads a model, nor while its core is held with a parked fault. -/
def Device.kernelCounts (s : Device) (k : Kernel) : Bool :=
  !(k.cores.any fun c => match s.cmd c with | some x => decide (x.opcode = 0x22) | none => false) &&
  !(s.xlate.faults.any fun f => decide (f.ring = k.ring) && f.heldCore)

/-- At a sample edge, kernels and first-command waits have lasted one tick more (R216, R221). -/
def Device.ringEdge (s : Device) : Device :=
  { s with disp := { s.disp with
      kernels := s.disp.kernels.map fun k => if s.kernelCounts k then { k with ticks := k.ticks + 1 } else k
      rings := s.disp.rings.map fun e =>
        if s.ringWaits e.1 then (e.1, { e.2 with waitTicks := e.2.waitTicks + 1 }) else e } }

/-- Bytes that a stopped command wrote are left undefined (R220): each is a free value. -/
def Device.undefine (s : Device) (l : List (Nat × Nat)) : Device :=
  l.foldl (fun s p => (List.range p.2).foldl (fun s i =>
    { (s.setByte (p.1 + i) (Config.freeByte s.fresh).toNat) with fresh := s.fresh + 1 }) s) s

/-- A kernel is stopped with DEADLINE (R220, R221): its current command is abandoned, its writes left undefined, and the
kernel's command ends with DEADLINE, which ends the job (R213). -/
def Device.stopKernel (s : Device) (k : Kernel) : Device :=
  let core := k.cores.headD 0
  let s1 := k.cores.foldl (fun s c => match s.cmd c with | some x => s.undefine x.wrote | none => s) s
  let op := match s.cmd core with | some x => x.opcode | none => 0x23
  let flags := (k.cores.filterMap s.cmd).foldl (fun f x => f ||| x.flags) 0
  let s2 := s1.retire k.ring stDEADLINE flags op 0 (coreUnit core) 0 true false
  (s2.endKernel k).endEntries k.ring ((s2.ring k.ring).entries)

/-! ### The DISPATCH registers' commands -/

/-- The ring that a die's RING_SEL selects, by global number. -/
def Device.selRing (s : Device) (die : Nat) : Nat := die * 65536 + s.rd die DISPATCH_RING_SEL_RING

/-- Set RESULT and OP of a ring request. -/
def Device.ringResult (s : Device) (die op r : Nat) : Device :=
  (s.wr die DISPATCH_RING_CMD_OP op).wr die DISPATCH_RING_CMD_RESULT r

/-- A ring's descriptor is on an engine (R97). -/
def Device.dmaFlight (s : Device) (g : Nat) : Bool :=
  s.xlate.dma.any fun e => match e.2 with | some (some (.ring x), _, _) => decide (x = g) | _ => false

/-- A ring's entry at HEAD has started: a kernel runs, a descriptor is on an engine, or a fault of the ring is parked. -/
def Device.ringStarted (s : Device) (g : Nat) : Bool :=
  (s.kernelOf g).isSome || s.dmaFlight g || s.xlate.faults.any fun f => decide (f.ring = g) && !f.terminal && decide (f.stage ≠ .closing)

/-- The body of RING_ENABLE (R205, R206) on the selected ring. DESIGN CHOICE (204): a descriptor or a model record whose read fails is refused as one that is
ill-formed. DESIGN CHOICE (217): a ring disabled while its work runs, or with records held, is not enabled until they have ended and been written. -/
def ringEnableBody (die : Nat) (s : Device) : Device :=
  let g := s.selRing die
  let d := s.ringDesc g
  let r := s.ring g
  let n := 64 * 2 ^ rdLog2 d
  let x := s.readChk die mManage (s.ringTab die + 64 * (g % 65536)) 64
  let y := s.vaRead die (rdJob d) (rdModelVa d) 64
  if g = frameRing then s.ringResult die 0 4
  else if r.state ≠ 0 ∨ s.ringStarted g ∨ r.held ≠ [] then s.ringResult die 0 2
  else if x.2.1 ≠ stDONE then x.1.ringResult die 0 1
  else if ¬ rdShapeOk d then s.ringResult die 0 1
  else if (s.job (rdJob d)).state ≠ 1 then s.ringResult die 0 3
  else if ¬ (s.rangeMapped die (rdJob d) (rdVa d) n && s.rangeMapped die (rdJob d) (rdCqVa d) (16 * 2 ^ rdCqLog2 d) &&
      (rdModelVa d = 0 || (s.rangeMapped die (rdJob d) (rdModelVa d) 64 && y.2 = stDONE && s.modelOk die d))) then
    (if rdModelVa d = 0 then s else y.1).ringResult die 0 1
  else ((s.setRing g { state := 1, job := rdJob d, desc := d }).ringResult die 0 0)

/-- Disable a ring (R206, R438): intake stops and the entries not started end with ENDED; one that has started first finishes. -/
def Device.disableRing (s : Device) (g : Nat) : Device :=
  let r := s.ring g
  let s1 := (s.dropClaim g).setRing g { r with state := 0 }
  if s.ringStarted g then s1 else s1.endEntries g r.entries

/-- The body of RING_DISABLE. -/
def ringDisableBody (die : Nat) (s : Device) : Device :=
  let g := s.selRing die
  if g = frameRing then s.ringResult die 1 4
  else if (s.ring g).state = 0 then s.ringResult die 1 2
  else (s.disableRing g).ringResult die 1 0

/-- The body of RING_RESTART. -/
def ringRestartBody (die : Nat) (s : Device) : Device :=
  let g := s.selRing die
  if g = frameRing then s.ringResult die 2 4
  else if (s.ring g).state ≠ 2 then s.ringResult die 2 2
  else (s.setRing g { s.ring g with state := 1 }).ringResult die 2 0

/-- The body of DOORBELL (R206): ignored for a DISABLED ring, a TAIL beyond the ring, or a job that takes no doorbells. -/
def doorbellBody (die value : Nat) (s : Device) : Device :=
  let g := die * 65536 + bits value 0 16
  let r := s.ring g
  let t := bits value 16 16
  if r.state = 0 ∨ 2 ^ rdLog2 r.desc ≤ t ∨ ¬ ((s.job r.job).state = 1 ∨ (s.job r.job).state = 2) then
    s.set die DISPATCH_STATUS_BAD_DOORBELL
  else (s.setRing g { r with tail := t }).splitKernel g

/-- The body of CQ_HEAD_WRITE (R207, R224): a head that passes the tail is refused; held records are then written. -/
def cqHeadBody (die value : Nat) (s : Device) : Device :=
  let g := s.selRing die
  let r := s.ring g
  let d := if g = frameRing then s.ringDesc g else r.desc
  let n := 2 ^ rdCqLog2 d
  let h := bits value 0 16
  if n ≤ h ∨ (r.cqTail + n - r.cqHead) % n < (h + n - r.cqHead) % n then s.set die DISPATCH_STATUS_RANGE_ERR
  else (s.setRing g { r with cqHead := h }).cqDrain g r.held.length

/-- Set OP, JOB, CLIENT and RESULT of a job request on die 0. -/
def Device.jobResult (s : Device) (op job client r : Nat) : Device :=
  (((s.wr 0 DISPATCH_JOB_CTL_OP op).wr 0 DISPATCH_JOB_CTL_JOB job).wr 0 DISPATCH_JOB_CTL_CLIENT client).wr 0
    DISPATCH_JOB_CTL_RESULT r

/-- The body of JOB_ADMIT (R218): FREE to ACTIVE with a valid job-table entry. -/
def jobAdmitBody (die job client : Nat) (s : Device) : Device :=
  if die ≠ 0 then s
  else if job = 0 then s.jobResult 0 job client 3
  else if (s.job job).state ≠ 0 then s.jobResult 0 job client 1
  else if ¬ s.jobEntryOk job then s.jobResult 0 job client 2
  else
    (((s.setJob job { state := 1, client := client }).addWrap 0 (DISPATCH_CLIENT_ADMITTED_COUNT client) 1).addWrap 0
      (DISPATCH_CLIENT_ACTIVE_COUNT client) 1).jobResult 0 job client 0

/-- The body of JOB_COMPLETE (R218). -/
def jobCompleteBody (die job client : Nat) (s : Device) : Device :=
  if die ≠ 0 then s
  else if job = 0 then s.jobResult 1 job client 3
  else if (s.job job).state ≠ 1 then s.jobResult 1 job client 1
  else (s.setJob job { s.job job with state := 3 }).jobResult 1 job client 0

/-- The body of JOB_END (R218, R219). -/
def jobEndBody (die job client : Nat) (s : Device) : Device :=
  if die ≠ 0 then s
  else if job = 0 then s.jobResult 2 job client 3
  else if (s.job job).state = 1 ∨ (s.job job).state = 2 ∨ (s.job job).state = 3 then
    (s.beginJobEnd job).jobResult 2 job client 0
  else s.jobResult 2 job client 1

/-- The body of JOB_RELEASE (R218). -/
def jobReleaseBody (die job client : Nat) (s : Device) : Device :=
  if die ≠ 0 then s
  else if job = 0 then s.jobResult 3 job client 3
  else if (s.job job).state = 5 ∨ (s.job job).state = 6 then (s.setJob job {}).jobResult 3 job client 0
  else s.jobResult 3 job client 1

/-- The rings of a job. -/
def Device.jobRings (s : Device) (j : Nat) : List Nat := (s.disp.rings.filter fun e => e.2.job = j).map (·.1)

/-- The body of JOB_DRAINED (R218): the job's rings are empty and no command of it runs. DEDUCED (218): R206's row for a job that leaves ACTIVE and HELD is, for one
that drains, this disabling; until then its rings are served. -/
def jobDrainedBody (job : Nat) (s : Device) : Device :=
  let gs := s.jobRings job
  let quiet := fun (g : Nat) => match s.kernelOf g with | some k => k.cores.all fun c => (s.cmd c).isNone | none => true
  if (s.job job).state = 3 ∧ gs.all (fun g => decide ((s.ring g).head = (s.ring g).tail) && quiet g && !s.dmaFlight g) then
    let s0 := (s.disp.kernels.filter fun k => gs.contains k.ring).foldl Device.endKernel s
    let s1 := gs.foldl (fun s g => s.setRing g { s.ring g with state := 0 }) s0
    let c := (s.job job).client
    ((s1.setJob job { s.job job with state := 5 }).addWrap 0 (DISPATCH_CLIENT_COMPLETED_COUNT c) 1).subWrap 0
      (DISPATCH_CLIENT_ACTIVE_COUNT c) 1
  else s

/-- The body of SYNC_ADD_LO (R215, R217, R225): {HI, LO} is added to the selected object unless it is reserved. -/
def syncAddLoBody (die value : Nat) (s : Device) : Device :=
  let g := die * 16384 + s.rd die SYNC_SEL_INDEX
  if s.syncReserved g then s.set die SYNC_STATUS_REFUSED
  else s.syncAdd g (sext 64 (value % 2 ^ 32 + 2 ^ 32 * s.rd die SYNC_ADD_HI_ADD))

end Sys2Proof.Machine
end

