-- ==== Sys2Proof/Machine/Faults.lean ====
section
/-!
DEFINITION. Faults in flight (chapter 4, R102 to R108), the DMA engines' descriptors (R96 to R99), and the ending of jobs,
which answers their parked faults (R219).
-/
namespace Sys2Proof.Machine

/-! ### Raising a fault -/

/-- Whether a fault is terminal (R91, R108): a kind of the table's lower half, or any fault of job 0. -/
def faultTerminal (job kind : Nat) : Bool := 4 ≤ kind || job = 0

/-- The status a terminal fault ends its command with (R91). -/
def faultStatus (kind : Nat) : Nat := if kind = fkTABLE_UE then stUNCORRECTABLE else if kind = fkNONE then stDEADLINE else stXLATE_FAULT

/-- The ring a work item's fault record names (R105). -/
def workRing : Work → Nat
  | .slice _ _ => frameRing
  | .ring g => g

/-- A fault returns to a unit: it goes in flight with everything its record will carry (R105). -/
def Device.raiseFault (s : Device) (die unit : Nat) (w : Work) (entry kind va : Nat) (write : Bool) (desc : List Nat) : Device :=
  let job := s.workJob w
  let e := s.jobEntry job
  let f : XFault :=
    { die := die, unit := unit, job := job, kind := kind, write := write, dma := decide (mDma ≤ unit), heldCore := false
      terminal := faultTerminal job kind, slot := 0xFF, va := va, ring := workRing w, entry := entry, desc := desc, id := 0
      owner := if kind = fkNO_JOB then 0 else jeOwner e
      queue := if kind = fkNO_JOB then 0 else jeFq e
      time := s.chorus.time, stage := .raised }
  { s with xlate := { s.xlate with faults := s.xlate.faults ++ [f] } }

/-- Replace the fault list. -/
def Device.setFaults (s : Device) (l : List XFault) : Device := { s with xlate := { s.xlate with faults := l } }

/-- Replace one fault by another. -/
def Device.swapFault (s : Device) (f g : XFault) : Device := s.setFaults (s.xlate.faults.map fun x => if x = f then g else x)

/-- A core's command meets a translation result that is no address (R91, R102, R103): with translation off it ends with
XLATE_FAULT, after a failed read of the tables with that read's status; a terminal fault ends it with the kind's status; a resumable one is raised and the command is abandoned. -/
def Device.coreFault (s : Device) (die unit : Nat) (i : Issue) (r : XRes) (va : Nat) (write : Bool) : Device :=
  match r with
  | .pa _ => s
  | .off => i.cores.foldl (fun s k => s.cmdStatus k stXLATE_FAULT 0) s
  | .ended st => i.cores.foldl (fun s k => s.cmdStatus k st 0) s
  | .fault kind _ =>
    let s1 := s.raiseFault die unit i.work i.entry kind va write []
    if faultTerminal (s.workJob i.work) kind then i.cores.foldl (fun s k => s.cmdStatus k (faultStatus kind) 0) s1 else s1

/-! ### DMA descriptors (R97 to R99) -/

/-- The fields of a DMA descriptor. -/
def dmOpcode (d : List Nat) : Nat := bits (wd d 0) 24 8
def dmSrcRemote (d : List Nat) : Bool := bit (wd d 0) 23
def dmDstRemote (d : List Nat) : Bool := bit (wd d 0) 22
def dmSignalEn (d : List Nat) : Bool := bit (wd d 0) 21
def dmSignalRemote (d : List Nat) : Bool := bit (wd d 0) 20
def dmDev (d : List Nat) : Nat := bits (wd d 0) 0 16
def dmLength (d : List Nat) : Nat := wd d 1
def dmSrc (d : List Nat) : Nat := wdAddr d 2
def dmDst (d : List Nat) : Nat := wdAddr d 4
def dmRows (d : List Nat) : Nat := bits (wd d 6) 0 16 + 1
def dmSrcStride (d : List Nat) : Nat := wd d 7
def dmDstStride (d : List Nat) : Nat := wd d 8
def dmPattern (d : List Nat) : Nat := wd d 9
def dmSync (d : List Nat) : Nat := bits (wd d 10) 0 16
def dmAdd (d : List Nat) : Nat := wd d 11
def dmDoneRows (d : List Nat) : Nat := wd d 12
def dmDoneBytes (d : List Nat) : Nat := wd d 13

/-- A descriptor that R98 refuses. -/
def dmBad (own : Nat) (d : List Nat) : Bool :=
  (dmOpcode d ≠ 1 && dmOpcode d ≠ 2) || dmLength d = 0 ||
  bits (wd d 0) 16 4 ≠ 0 || bits (wd d 3) 16 16 ≠ 0 || bits (wd d 5) 16 16 ≠ 0 || bits (wd d 6) 16 16 ≠ 0 ||
  bits (wd d 10) 16 16 ≠ 0 || wd d 15 ≠ 0 || (dmSrcRemote d && dmDstRemote d) ||
  ((dmSrcRemote d || dmDstRemote d || dmSignalRemote d) && dmDev d = own) || (dmSignalEn d && dmAdd d = 0)

/-- An engine's descriptor in progress. -/
def Device.dmaRun (s : Device) (die e : Nat) : Option (Option Work × Nat × List Nat) := SMap.get none s.xlate.dma (die * 16 + e)

/-- Set or clear it. -/
def Device.setDma (s : Device) (die e : Nat) (x : Option (Option Work × Nat × List Nat)) : Device :=
  { s with xlate := { s.xlate with dma := SMap.put none s.xlate.dma (die * 16 + e) x } }

/-- A descriptor with its progress words. -/
def dmProgress (d : List Nat) (rows bytes : Nat) : List Nat := (d.set 12 rows).set 13 bytes

/-- The code a descriptor's STATUS byte and DMA_ERR_STATUS carry for a status (R111): BAD_COMMAND and RETAINED are never written there. DESIGN CHOICE (200):
BAD_DESCRIPTOR and DISABLED stand for them; the completion record carries the status itself. -/
def dmCode (status : Nat) : Nat :=
  if status = stBAD_COMMAND then stBAD_DESCRIPTOR else if status = stRETAINED then stDISABLED else status

/-- A descriptor with its STATUS byte. -/
def dmStatus (d : List Nat) (status : Nat) : List Nat := d.set 14 (setBits (wd d 14) 24 8 status)

/-- Record the first descriptor that ended with a status other than DONE (R110). -/
def Device.dmaErr (s : Device) (die e job status : Nat) : Device :=
  if s.on die DMA_ERR_STATUS_VALID then s.set die DMA_ERR_STATUS_OVERFLOW
  else (((s.set die DMA_ERR_STATUS_VALID).wr die DMA_ERR_STATUS_ENGINE e).wr die DMA_ERR_STATUS_JOB job).wr die
    DMA_ERR_STATUS_STATUS status

/-- Where the descriptor of a work item lies: its ring entry, or its place in the die's command area. -/
def Device.descAddr (s : Device) (w : Work) (entry : Nat) : Option Nat :=
  match w with
  | .ring g => s.paOf (g / 65536) (s.ring g).job (rdVa (s.ring g).desc + 64 * entry)
  | .slice _ _ => none

/-- Write a descriptor's progress and status words back to its entry. -/
def Device.writeBack (s : Device) (w : Work) (entry : Nat) (d : List Nat) : Device :=
  match s.descAddr w entry with
  | some a => (s.writeChk (match w with | .ring g => g / 65536 | .slice die _ => die) mManage (a + 48) 12 (packBits 32 (d.drop 12 |>.take 3))).1
  | none => s

/-- An engine gives up its descriptor: it is no longer out (R110). -/
def Device.dmaFree (s : Device) (die e : Nat) : Device :=
  ((((s.setDma die e none).clr die (DMA_ENG_STATUS_BUSY e)).clr die (DMA_ENG_STATUS_PARKING e)).clr die
    (DMA_ENG_STATUS_JOB e)).subWrap die DMA_AUDIT_DESC_OUT 1

/-- A descriptor ends with a status (R99, R110, R207, R213, R431): it is written back, counted or recorded, a ring's
entry retires with a refusal's reason, and a slice ends if the status fails it. -/
def Device.dmaEndWith (s : Device) (die e : Nat) (w : Work) (entry : Nat) (d : List Nat) (status reason : Nat) : Device :=
  let job := s.workJob w
  let s1 := (s.writeBack w entry (dmStatus d (dmCode status))).dmaFree die e
  let s2 := if status = stDONE then s1.addHold die DMA_DONE_COUNT_COUNT 1 else s1.dmaErr die e job (dmCode status)
  match w with
  | .ring g =>
    let s3 := s2.retire g status 0 (dmOpcode d) reason (0x8000 + die * 256 + e) 0 false false
    if (s3.ring g).state = 0 ∨ (s3.job (s3.ring g).job).state = 4 then s3.endEntries g (s3.ring g).entries else s3
  | .slice sd idx => if status = stDONE then s2 else s2.endSlice sd idx status

/-- A descriptor ends with a status that is no refusal. -/
def Device.dmaEnd (s : Device) (die e : Nat) (w : Work) (entry : Nat) (d : List Nat) (status : Nat) : Device :=
  s.dmaEndWith die e w entry d status 0

/-- The pages of `n` bytes at `va` for an engine, translated in order: none, or the first that has no address, with how many bytes lie before it. -/
def Device.pagesReady (s : Device) (die unit job va n : Nat) (write : Bool) : Device × Option (Nat × XRes × Nat × Bool) :=
  (pagesOf job va n).foldl (fun (x : Device × Option (Nat × XRes × Nat × Bool)) p =>
    match x.2 with
    | some _ => x
    | none =>
      match x.1.translate die unit job (max p va) write with
      | (s1, .pa _) => (s1, none)
      | (s1, r) => (s1, some (p - va, r, max p va, write))) (s, none)

/-- `n` bytes of a descriptor, whose pages have been translated: read, or the fill pattern, then written. -/
def Device.dmaBytes (s : Device) (die e job : Nat) (d : List Nat) (row off n : Nat) : Device × Nat :=
  let unit := mDma + e
  let x := if dmOpcode d = 2 then (s, stDONE, ((List.range n).map fun i => bits (dmPattern d) (8 * ((off + i) % 4)) 8 * 256 ^ i).foldl (· + ·) 0)
    else s.vRead die unit job (dmSrc d + row * dmSrcStride d + off) n
  if x.2.1 ≠ stDONE then (x.1, x.2.1) else x.1.vWrite die unit job (dmDst d + row * dmDstStride d + off) n x.2.2

/-- One unit of up to 64 bytes of a descriptor (R99): its pages are translated first, the source's and then the destination's, and the bytes that lie before
the first page that has no address are moved (R102). How many bytes were moved, the translation result that stops the engine, and the status. -/
def Device.dmaUnit (s : Device) (die e job : Nat) (d : List Nat) (row off n : Nat) :
    Device × Nat × Option (XRes × Nat × Bool) × Nat :=
  let unit := mDma + e
  let a := if dmOpcode d = 2 then (s, none) else s.pagesReady die unit job (dmSrc d + row * dmSrcStride d + off) n false
  let b := a.1.pagesReady die unit job (dmDst d + row * dmDstStride d + off) n true
  let stop := match a.2, b.2 with
    | none, y => y
    | some x, none => some x
    | some x, some y => if y.1 < x.1 then some y else some x
  let m := match stop with | some x => x.1 | none => n
  if m = 0 then (b.1, 0, stop.map (·.2), stDONE)
  else
    let r := b.1.dmaBytes die e job d row off m
    if r.2 ≠ stDONE then (r.1, 0, none, r.2) else (r.1, m, stop.map (·.2), stDONE)

/-- Move units in order until the descriptor's end, a bound on its progress, a fault or an error; `fuel` bounds the units. DESIGN CHOICE (201): units are
counted from the descriptor's progress, the row's start where it starts afresh, and not from an address alignment.
The result carries the descriptor with its progress (R99), and what stopped it. -/
def Device.dmaMove (s : Device) (die e job : Nat) (d : List Nat) (rows bytes : Nat) :
    Nat → Device × List Nat × Option (XRes × Nat × Bool) × Nat
  | 0 => (s, d, none, stDONE)
  | fuel + 1 =>
    let row := dmDoneRows d
    let off := dmDoneBytes d
    if dmRows d ≤ row ∨ rows < row ∨ (rows = row ∧ bytes ≤ off) then (s, d, none, stDONE)
    else
      let n := min 64 (dmLength d - off)
      match s.dmaUnit die e job d row off n with
      | (s1, m, f, st) =>
        let d1 := if dmLength d ≤ off + m then dmProgress d (row + 1) 0 else dmProgress d row (off + m)
        if f = none ∧ st = stDONE then s1.dmaMove die e job d1 rows bytes fuel else (s1, d1, f, st)

/-- Units of a descriptor. -/
def dmUnits (d : List Nat) : Nat := dmRows d * (dmLength d / 64 + 1)

/-- A DMA engine meets a translation result that is no address (R91, R102, R103): a resumable fault parks it, a terminal
one ends the descriptor. -/
def Device.dmaFault (s : Device) (die e : Nat) (w : Work) (entry : Nat) (d : List Nat) (r : XRes) (va : Nat) (write : Bool) : Device :=
  match r with
  | .pa _ => s
  | .off => s.dmaEnd die e w entry d stXLATE_FAULT
  | .ended st => s.dmaEnd die e w entry d st
  | .fault kind _ =>
    let s1 := s.raiseFault die (mDma + e) w entry kind va write d
    if faultTerminal (s.workJob w) kind then s1.dmaEnd die e w entry d (faultStatus kind)
    else (s1.setDma die e (some (some w, entry, d))).set die (DMA_ENG_STATUS_PARKING e)

/-! ### Parking, records, resuming (R103 to R107) -/

/-- The save slots of a core that parked faults use, and those of kernels that are to be resumed. -/
def Device.slotsUsed (s : Device) (die core : Nat) : List Nat :=
  ((s.xlate.faults.filter fun f => f.die = die && f.unit = core && !f.dma && f.slot < 4).map (·.slot)) ++
  (s.disp.resumed.filter fun x => x.1 = die * 64 + core).map (·.2.2)

/-- A unit's raised fault parks (R103, R104): a core saves its store and sequencer state in a free slot and is free, or is
held where none is free; a DMA engine gives up its descriptor; the job is held. -/
def faultParkBody (die unit : Nat) (s : Device) : Device :=
  match s.xlate.faults.find? fun f => f.die = die ∧ f.unit = unit ∧ f.stage = .raised ∧ ¬ f.terminal with
  | none => s
  | some f =>
    let j := s.job f.job
    let s0 := if j.state = 1 then s.setJob f.job { j with state := 2 } else s
    if f.dma then
      (s0.swapFault f { f with stage := .parked, time := s.chorus.time, desc := dmStatus f.desc stPARKED }).dmaFree die (unit - mDma)
    else
      let free := [0, 1, 2, 3].filter fun n => !(s.slotsUsed die unit).contains n
      match free with
      | [] => s0.swapFault f { f with stage := .parked, time := s.chorus.time, heldCore := true }
      | n :: _ =>
        let x := s0.copyChk (coreStoreBase die unit) (s.saveSlot die unit n) 0x40000
        let s1 := if x.2 then x.1.beginJobEnd f.job else x.1
        let s2 := { (s1.store (s.saveSlot die unit n + 0x40000) (Config.sequencerImage s1.fresh) 0x1000) with fresh := s1.fresh + 1 }
        let s3 := s2.swapFault f { f with stage := .parked, time := s.chorus.time, slot := n }
        match s3.kernelOf f.ring with
        | some k =>
          let s4 := s3.endKernel k
          let rows := k.cores.filterMap fun c => (s3.linkOf c (.ring k.ring)).map fun l => (c, l)
          { s4 with disp := { s4.disp with parked := s4.disp.parked ++ [{ k with links := rows }] } }
        | none => s3.setCmd (die * 64 + unit) none

/-- The 128 bytes of a fault record (R105), as words. -/
def faultRecord (f : XFault) : List Nat :=
  [f.id % 65536 + 65536 * (f.job % 4096 + 4096 * f.kind),
    b2n f.write + 2 * b2n f.dma + 4 * b2n f.heldCore + 8 * b2n f.terminal + 256 * f.die + 65536 * (f.unit % 64 % (if f.dma then 16 else 64)) +
      2 ^ 24 * f.slot,
    f.va % 2 ^ 32, f.va / 2 ^ 32 % 2 ^ 16, f.owner, f.ring, f.time % 2 ^ 32, f.time / 2 ^ 32] ++ List.replicate 8 0 ++
  (if f.dma then (f.desc ++ List.replicate 16 0).take 16 else List.replicate 16 0)

/-- A fault's command ends with a status and its save slot is freed: an overflow, or an abort (R106, R107). A descriptor's status is written back and
recorded (R99, R110). A terminal fault has ended its command with the status of R91 already, which stands (DESIGN CHOICE, 202). -/
def Device.faultEnds (s : Device) (f : XFault) (status : Nat) (abort : Bool) : Device :=
  let s1 := s.setFaults (s.xlate.faults.filter (· ≠ f))
  if f.terminal ∨ f.ring = frameRing then s1
  else
    let core := f.die * 64 + f.unit
    let s1 := if f.dma then (s1.writeBack (.ring f.ring) f.entry (dmStatus f.desc status)).dmaErr f.die (f.unit - mDma) f.job status else s1
    let s1 := ({ s1 with disp := { s1.disp with parked := s1.disp.parked.filter (·.ring ≠ f.ring) } } : Device).dropLink (.ring f.ring)
    let s2 := match (if f.heldCore then s1.kernelOf f.ring else none) with | some k => s1.endKernel k | none => s1
    let w := s2.ringEntry f.ring f.entry
    -- a fault of another core of the gang may have ended the command already
    if (s2.ring f.ring).head ≠ f.entry then s2 else
    s2.retire f.ring status 0 (hdOpcode w) 0 (if f.dma then 0x8000 + f.die * 256 + (f.unit - mDma) else coreUnit core) 0 true abort

/-- Write a fault's record at its queue's tail, and send its message (R106). A write that ends UNMAPPED loses the record,
and its fault ends as for a queue that is not in use. -/
def Device.writeFaultRecord (s : Device) (f : XFault) : Device :=
  let a := s.fqBase f.queue + 128 * s.rd 0 (XLATE_FQ_TAIL_INDEX f.queue)
  let x := s.writeChk f.die mFault a 128 (packBits 32 (faultRecord f))
  if x.2 ≠ stDONE then x.1.faultEnds f stFAULT_OVERFLOW false
  else
    let s1 := x.1.wr 0 (XLATE_FQ_TAIL_INDEX f.queue)
      ((s.rd 0 (XLATE_FQ_TAIL_INDEX f.queue) + 1) % s.fqSize f.queue)
    let msi := s.rd 0 (XLATE_FQ_MSI_LO_VALUE f.queue) + 2 ^ 32 * (s.rd 0 (XLATE_FQ_MSI_HI_VALUE f.queue) % 65536)
    let s2 := s1.msiWrite f.die mFault msi (s.rd 0 (XLATE_FQ_MSI_DATA_VALUE f.queue))
    if f.terminal ∨ f.stage = .closing then s2.setFaults (s2.xlate.faults.filter (· ≠ f)) else s2.swapFault f { f with stage := .recorded }

/-- The body of FAULT_RECORD_WRITE (R106): the record of the unit's fault is written; a full queue sends it to the pending
list of 32, and a full list or a queue that is not in use ends the command with FAULT_OVERFLOW. -/
def faultRecordBody (die unit : Nat) (s : Device) : Device :=
  match s.xlate.faults.find? fun f => f.die = die ∧ f.unit = unit ∧ (f.stage = .parked ∨ (f.stage = .raised ∧ f.terminal)) with
  | none => s
  | some f =>
    if ¬ s.on 0 (XLATE_FQ_CTL_EN f.queue) then s.faultEnds f stFAULT_OVERFLOW false
    else
      let g := { f with id := s.xlate.nextId, desc := if f.dma then f.desc.set 14 (setBits (wd f.desc 14) 0 16 s.xlate.nextId) else f.desc }
      let numbered : Device :=
        let s1 := (s.swapFault f g).addHold die XLATE_FAULT_COUNT_COUNT 1
        { s1 with xlate := { s1.xlate with nextId := (s.xlate.nextId + 1) % 65536 } }
      if ¬ s.fqFull f.queue then numbered.writeFaultRecord g
      else if s.rd 0 XLATE_STATUS_PENDING < 32 then
        (numbered.swapFault g { g with stage := .waiting }).addWrap 0 XLATE_STATUS_PENDING 1
      else (s.set 0 XLATE_STATUS_PENDING_FULL).faultEnds f stFAULT_OVERFLOW false

/-- Pending records of a queue are written in order of FAULT_ID while it has room; at most `n` of them (R106). -/
def Device.drainPending (s : Device) (q : Nat) : Nat → Device
  | 0 => s
  | n + 1 =>
    if s.fqFull q then s
    else
      match s.xlate.faults.filter fun f => f.queue = q && (f.stage = .waiting || f.stage = .closing) with
      | [] => s
      | f :: r =>
        let g := r.foldl (fun b x => if (x.id + 65536 - b.id) % 65536 < 32768 then b else x) f
        ((s.writeFaultRecord g).subWrap 0 XLATE_STATUS_PENDING 1).drainPending q n

/-- The body of XLATE_FQ_HEAD_WRITE (R106, R109): used on die 0 only. -/
def fqHeadBody (die q value : Nat) (s : Device) : Device :=
  if die ≠ 0 then s else (s.wr 0 (XLATE_FQ_HEAD_INDEX q) (bits value 0 16)).drainPending q 32

/-- A job with no parked fault left is released (R107, R218). -/
def Device.releaseJob (s : Device) (j : Nat) : Device :=
  if (s.job j).state = 2 ∧ ¬ s.xlate.faults.any (fun f => f.job = j && !f.terminal) then s.setJob j { s.job j with state := 1 }
  else s

/-- The parked fault an answer names (R107): recorded and not yet answered. -/
def Device.parkedFault (s : Device) (id : Nat) : Option XFault :=
  s.xlate.faults.find? fun f => f.id = id ∧ f.stage = .recorded ∧ ¬ f.terminal

/-- The body of RESUME_RETRY (R107): the kernel is resumed at its core's next boundary, where the core reloads its slot (R104); a held core takes its
abandoned command again; or the descriptor goes back to the head of its ring with RESUMES incremented. The job is released. -/
def resumeRetryBody (die id : Nat) (s : Device) : Device :=
  if die ≠ 0 then s
  else match s.parkedFault id with
  | none => s.set 0 XLATE_STATUS_BAD_RESUME
  | some f =>
    let s1 := s.setFaults (s.xlate.faults.filter (· ≠ f))
    let s2 :=
      if f.dma then
        let d := (f.desc.set 14 (min 255 (bits (wd f.desc 14) 16 8 + 1) * 65536 + f.id))
        s1.writeBack (.ring f.ring) f.entry d
      else if f.heldCore then
        match s1.kernelOf f.ring with
        | some k => k.cores.foldl (fun (s : Device) c => s.setCmd c none) s1
        | none => s1
      else { s1 with disp := { s1.disp with resumed := s1.disp.resumed ++ [(f.die * 64 + f.unit, f.ring, f.slot)] } }
    s2.releaseJob f.job

/-- The body of RESUME_ABORT (R107): the command ends with XLATE_FAULT, the slot is freed and the job is ended. -/
def resumeAbortBody (die id : Nat) (s : Device) : Device :=
  if die ≠ 0 then s
  else match s.parkedFault id with
  | none => s.set 0 XLATE_STATUS_BAD_RESUME
  | some f => s.faultEnds f stXLATE_FAULT true

/-- The body of WALK_RETURN (R91, R103): a unit's walk for an address returns its translation, which is answered, or a
fault: the unit abandons its command or descriptor, or it ends with the fault's status. A DMA engine first writes all
data before the faulting page (R102), and a fault or an error that this meets ends or parks it instead. -/
def walkReturnBody (die unit : Nat) (w : Work) (entry va : Nat) (write : Bool) (s : Device) : Device :=
  let job := s.workJob w
  match s.translate die unit job va write with
  | (s1, .pa a) => s1.answer stDONE a
  | (s1, r) =>
    let s2 := s1.answer (match r with | .ended st => st | _ => stXLATE_FAULT) 0
    if mDma ≤ unit then
      match s2.dmaRun die (unit - mDma) with
      | some (some w', en, d) =>
        let base := if write then dmDst d else dmSrc d
        let stride := if write then dmDstStride d else dmSrcStride d
        let page := va / 2 ^ 16 * 2 ^ 16
        let row := ((List.range (dmRows d)).find? fun k => decide (page ≤ base + k * stride + dmLength d - 1) && decide (dmDoneRows d ≤ k)).getD (dmDoneRows d)
        match s2.dmaMove die (unit - mDma) job d row (page - (base + row * stride)) (dmUnits d) with
        | (s3, d3, some f, _) => s3.dmaFault die (unit - mDma) w' en d3 f.1 f.2.1 f.2.2
        | (s3, d3, none, st) =>
          if st ≠ stDONE then s3.dmaEnd die (unit - mDma) w' en d3 st else s3.dmaFault die (unit - mDma) w' en d3 r va write
      | _ => s2
    else s2.coreFault die unit ⟨w, entry, [die * 64 + unit]⟩ r va write

/-! ### The copy of a model (R223) -/

/-- What an access by a core ends with at an address, before its data is looked at (R31, R78). -/
def Device.copyStatus (s : Device) (core src dst n : Nat) : Nat :=
  let a := s.accessStatus (core / 64) (core % 64) src n false
  if a = stDONE then s.accessStatus (core / 64) (core % 64) dst n true else a

/-- One page of a core's weights is copied into its column: translated for the core, read with the errors that it meets, and written. The translation result
that stops the copy with its address, and the status. -/
def Device.modelPage (s : Device) (core job va dst : Nat) : Device × Option (XRes × Nat) × Nat :=
  match s.translate (core / 64) (core % 64) job va false with
  | (s1, .pa a) =>
    let st := s1.copyStatus core a dst 0x10000
    if st ≠ stDONE then (s1, none, st)
    else
      let x := s1.copyChk a dst 0x10000
      (x.1, none, if x.2 then stUNCORRECTABLE else stDONE)
  | (s1, r) => (s1, some (r, va), stDONE)

/-- A core's weights are copied page by page, until one does not translate or an access fails. -/
def Device.modelCopy (s : Device) (core job src dst n : Nat) : Device × Option (XRes × Nat) × Nat :=
  (List.range (n / 0x10000)).foldl (fun (x : Device × Option (XRes × Nat) × Nat) i =>
    if x.2.1 = none ∧ x.2.2 = stDONE then x.1.modelPage core job (src + i * 0x10000) (dst + i * 0x10000) else x) (s, none, stDONE)

/-- The body of MODEL_LOAD_DONE (R223): the copy of each core's weights completes and MODEL is set; a read that meets an uncorrectable word leaves MODEL at 0 and
ends the job, and a page that does not translate takes its fault's way. -/
def modelLoadDoneBody (g : Nat) (upsets : List Upset) (s : Device) : Device :=
  let s := s.arise upsets
  match s.disp.loads.find? (·.1 = g) with
  | none => s
  | some (_, id, cores) =>
    let die := g / 65536
    let d := (s.ring g).desc
    let j := rdJob d
    let n := s.mdBytes die j (rdModelVa d)
    let off := s.mdColOff die j (rdModelVa d)
    let src := s.mdSrc die j (rdModelVa d)
    let i : Issue := ⟨.ring g, (s.ring g).head, cores⟩
    let s1 : Device := { s with disp := { s.disp with loads := s.disp.loads.filter (·.1 ≠ g) } }
    let s2 := cores.foldl (fun s c => s.clr (c / 64) (DISPATCH_CORE_LOADING (c % 64))) s1
    (List.range cores.length).foldl (fun (s : Device) k =>
      let c := wd cores k
      match s.modelCopy c j (src + k * n) (columnBase (c / 64) (c % 64) + off) n with
      | (s3, some (r, va), _) => s3.coreFault (c / 64) (c % 64) i r va false
      | (s3, none, st) => if st = stDONE then s3.wr (c / 64) (DISPATCH_CORE_MODEL (c % 64)) id else s3.cmdStatus c st 0) s2

/-! ### Ending a job (R219) -/

/-- A fault whose record has not been taken up yet (R106). -/
def XFault.unwritten (f : XFault) : Bool := f.stage = .raised || f.stage = .parked

/-- A parked fault of a job that ends is aborted (R219, R107); a record of it that waits for its queue is still written. -/
def Device.abortFault (s : Device) (f : XFault) : Device :=
  let s1 := s.faultEnds f stXLATE_FAULT true
  if f.stage = .waiting then s1.setFaults (s1.xlate.faults ++ [{ f with stage := .closing }]) else s1

/-- The body of JOB_ENDING_DONE (R218, R219): commands still running have ended, and the records of the job's faults have been taken up; its parked faults are
aborted with XLATE_FAULT and their slots freed; the rest of its kernels and the entries not started end with ENDED; its waiting records are written, and
only when the last is do its rings go to DISABLED and the client's counts move. -/
def jobEndingBody (job : Nat) (s : Device) : Device :=
  if (s.job job).state ≠ 4 then s
  else
    let gs := s.jobRings job
    let ks := s.disp.kernels.filter fun k => gs.contains k.ring
    let held := fun (c : Nat) => s.xlate.faults.any fun f => decide (f.die * 64 + f.unit = c) && !f.dma && f.heldCore && !f.terminal
    let works := fun (c : Nat) => match s.cmd c with | some x => !x.ended && !held c | none => false
    if (ks.any fun k => k.cores.any works) || gs.any s.dmaFlight || (s.xlate.faults.any fun f => decide (f.job = job) && f.unwritten) then s
    else
    let s0 := (s.xlate.faults.filter fun f => decide (f.job = job) && !f.terminal && f.stage ≠ .closing).foldl Device.abortFault s
    let s1 : Device := { s0 with disp := { s0.disp with
      parked := s0.disp.parked.filter fun k => !gs.contains k.ring, resumed := s0.disp.resumed.filter fun x => !gs.contains x.2.1 } }
    let s2 := (s1.disp.kernels.filter fun k => gs.contains k.ring).foldl Device.endKernel s1
    let s3 := gs.foldl (fun s g => s.endEntries g (s.ring g).entries) s2
    let s4 := gs.foldl Device.dropClaim s3
    let s5 := (List.range 4).foldl (fun s q => s.drainPending q 32) s4
    if s5.xlate.faults.any fun f => decide (f.job = job) && decide (f.stage = .closing) then s5
    else
    let s6 := gs.foldl (fun s g => s.setRing g { s.ring g with state := 0 }) s5
    let c := (s.job job).client
    ((s6.setJob job { s6.job job with state := 6 }).addWrap 0 (DISPATCH_CLIENT_ENDED_COUNT c) 1).subWrap 0
      (DISPATCH_CLIENT_ACTIVE_COUNT c) 1

/-! ### Stops of kernels (R220, R221): the parts that need no chunk -/

/-- A lent kernel has reached its bound (R220): FC_BOUND at the fabric clock after its dispatch, or a branch's slice names
its core and starts now. -/
def Device.boundReached (s : Device) (k : Kernel) : Bool :=
  let now := (s.chorus.tickNo - k.startTick) * s.period + s.rc
  decide (k.startRc + s.boundRc (k.cores.headD 0 / 64) k.fcBound ≤ now) ||
  s.chorus.slices.any fun x => k.cores.any fun c => decide (x.die = c / 64) && x.units.contains (c % 64) &&
    slRel (s.sliceRec x.die x.idx) && decide (slStart (s.sliceRec x.die x.idx) ≤ s.rc)

end Sys2Proof.Machine
end

