-- ==== Sys2Proof/Machine/Flags.lean ====
section
/-!
DEFINITION. The numeric flags of matrix and gate commands (R115, R116, R118, R133, R134), and the record of a refused
command (R127, R134).
-/
namespace Sys2Proof.Machine

/-- The eight sticky bits of a core's CLUSTER_NUM_STICKY, lowest first. -/
def stickyFlds (k n : Nat) : List Fld :=
  [CLUSTER_NUM_STICKY_IN_NAN k n, CLUSTER_NUM_STICKY_IN_INF k n, CLUSTER_NUM_STICKY_OUT_NAN k n,
    CLUSTER_NUM_STICKY_OUT_INF k n, CLUSTER_NUM_STICKY_OUT_SAT k n, CLUSTER_NUM_STICKY_SCALE_RAISED k n,
    CLUSTER_NUM_STICKY_SCALE_SAT k n, CLUSTER_NUM_STICKY_GATE_DOMAIN k n]

/-- Set the sticky bits of a global core that a flags byte names. -/
def Device.setSticky (s : Device) (core flags : Nat) : Device :=
  (stickyFlds (core % 64 / 8) (core % 8)).foldl (fun s f => if bit flags f.lo then s.set (core / 64) f else s) s

/-- Count elements replaced or clamped on a global core; the count holds at 0xFFFF. -/
def Device.addReplaced (s : Device) (core n : Nat) : Device :=
  s.addHold (core / 64) (CLUSTER_NUM_COUNT_REPLACED (core % 64 / 8) (core % 8)) n

/-- A command of a core adds to its numeric flags (R133): its own byte, the core's sticky bits, and the count. -/
def Device.numFlags (s : Device) (core : Nat) (c : Conv) : Device :=
  let s1 := match s.cmd core with
    | some x => s.setCmd core (some { x with flags := x.flags ||| c.flags })
    | none => s
  (s1.setSticky core c.flags).addReplaced core c.count

/-- Record the first BAD_COMMAND of a core (R134): its reason, the lowest word of the failing field, and the job. -/
def Device.recCmdErr (s : Device) (core job reason word : Nat) : Device :=
  let d := core / 64
  let k := core % 64 / 8
  let n := core % 8
  if s.on d (CLUSTER_CMD_ERR_VALID k n) then s.set d (CLUSTER_CMD_ERR_OVERFLOW k n)
  else
    (((s.set d (CLUSTER_CMD_ERR_VALID k n)).wr d (CLUSTER_CMD_ERR_REASON k n) reason).wr d (CLUSTER_CMD_ERR_WORD k n)
      word).wr d (CLUSTER_CMD_ERR_JOB k n) job

end Sys2Proof.Machine
end

