-- ==== Sys2Proof/Machine/Operands.lean ====
section
/-!
DEFINITION. The operand forms of core commands (R122, R125, R127): the address spaces, ranges of rows, their translation
before the first access (R102), reads and writes, and the refusal of a command by its own checks.
-/
namespace Sys2Proof.Machine

/-- An operand: its SPACE field (0 virtual, 1 own core store, 2 own cluster store) and its 48-bit address or offset. -/
structure Opnd where
  space : Nat
  addr  : Nat
  deriving DecidableEq, Repr

/-- The operand `n` bytes on. -/
def Opnd.add (o : Opnd) (n : Nat) : Opnd := { o with addr := (o.addr + n) % 2 ^ 48 }

/-- Base and size of a core's store space. -/
def spaceBase (core space : Nat) : Nat :=
  if space = 1 then coreStoreBase (core / 64) (core % 64) else clusterStoreBase (core / 64) (core % 64 / 8)
def spaceSize (space : Nat) : Nat := if space = 1 then 0x40000 else 0x200000

/-- Whether `n` bytes of an operand lie within the store it names (R127, reason 0x7). -/
def Opnd.fits (o : Opnd) (n : Nat) : Bool := o.space = 0 || o.addr + n ≤ spaceSize o.space

/-- The pages of a range, with whether it is written, for an operand in a job's virtual space. -/
def Opnd.pages (o : Opnd) (job n : Nat) (write : Bool) : List (Nat × Bool) :=
  if o.space = 0 then (pagesOf job o.addr n).map fun p => (p, write) else []

/-- Rows of `n` bytes at a stride: the operand of each row. -/
def rowsOf (o : Opnd) (rows stride : Nat) : List Opnd := (List.range rows).map fun i => o.add (i * stride)

/-- The pages of rows. -/
def rowPages (o : Opnd) (job rows stride n : Nat) (write : Bool) : List (Nat × Bool) :=
  if o.space = 0 then ((rowsOf o rows stride).flatMap fun r => r.pages job n write).eraseDups else []

/-- Rows lie within the store they name. -/
def rowsFit (o : Opnd) (rows stride n : Nat) : Bool := o.fits ((rows - 1) * stride + n)

/-- The physical pieces of `n` bytes of an operand, for a global core working for `w`. -/
def Device.opPieces (s : Device) (core : Nat) (w : Work) (o : Opnd) (n : Nat) : List (Nat × Nat) :=
  if o.space = 0 then s.pieces (core / 64) (core % 64) (s.workJob w) o.addr n else [(spaceBase core o.space + o.addr, n)]

/-- Whether the command of a core still runs with status DONE. -/
def Device.cmdOk (s : Device) (core : Nat) : Bool := match s.cmd core with | some c => c.status = stDONE | none => false

/-- A core reads `n` bytes of an operand: a failure ends its command with the access's status. -/
def Device.opRead (s : Device) (core : Nat) (w : Work) (o : Opnd) (n : Nat) : Device × Nat :=
  let x := (s.opPieces core w o n).foldl (fun (x : Device × Nat × Nat) p =>
    let r := x.1.readChk (core / 64) (core % 64) p.1 p.2
    ((if r.2.1 = stDONE then r.1 else r.1.cmdStatus core r.2.1 0), x.2.1 + r.2.2 * 256 ^ x.2.2, x.2.2 + p.2))
    (s.carried (core / 64) (core % 64) (s.workJob w) (s.opPieces core w o n), 0, 0)
  (x.1, x.2.1)

/-- A core writes `n` bytes of an operand; the range is noted as written by its command. -/
def Device.opWrite (s : Device) (core : Nat) (w : Work) (o : Opnd) (n v : Nat) : Device :=
  ((s.opPieces core w o n).foldl (fun (x : Device × Nat) p =>
    let r := x.1.writeChk (core / 64) (core % 64) p.1 p.2 (x.2 % 256 ^ p.2)
    let s1 := if r.2 = stDONE then r.1 else r.1.cmdStatus core r.2 0
    let s2 := match s1.cmd core with
      | some c => s1.setCmd core (some { c with wrote := c.wrote ++ [p] })
      | none => s1
    (s2, x.2 / 256 ^ p.2)) (s.carried (core / 64) (core % 64) (s.workJob w) (s.opPieces core w o n), v)).1

/-- Checked writes of a core at physical addresses (address, length, data) in turn, while none has failed: state, and status. -/
def Device.coreWrites (s : Device) (core : Nat) (l : List (Nat × Nat × Nat)) : Device × Nat :=
  l.foldl (fun (x : Device × Nat) p =>
    if x.2 ≠ stDONE then x else x.1.writeChk (core / 64) (core % 64) p.1 p.2.1 p.2.2) (s, stDONE)

/-- The status that a core's command has so far. -/
def Device.cmdSt (s : Device) (core : Nat) : Nat := match s.cmd core with | some c => c.status | none => stDONE

/-- Read several ranges in order; the data of each. -/
def Device.opReads (s : Device) (core : Nat) (w : Work) (l : List (Opnd × Nat)) : Device × List Nat :=
  l.foldl (fun (x : Device × List Nat) o => let r := x.1.opRead core w o.1 o.2; (r.1, x.2 ++ [r.2])) (s, [])

/-- Read several ranges of one length. -/
def Device.opReadRows (s : Device) (core : Nat) (w : Work) (os : List Opnd) (n : Nat) : Device × List Nat :=
  s.opReads core w (os.map fun o => (o, n))

/-- Write several ranges in order, while the command's status stays DONE. -/
def Device.opWrites (s : Device) (core : Nat) (w : Work) (l : List (Opnd × Nat × Nat)) : Device :=
  l.foldl (fun s o => if s.cmdOk core then s.opWrite core w o.1 o.2.1 o.2.2 else s) s

/-- Element `i` of `w` bits of a range's data. -/
def elemAt (data w i : Nat) : Nat := bits data (w * i) w

/-- Translate a command's pages before its first access (R102); `false` with it: a page has no translation and the
command ends or is abandoned. -/
def Device.openPages (s : Device) (core : Nat) (i : Issue) (pages : List (Nat × Bool)) : Device × Bool :=
  match s.translateAll (core / 64) (core % 64) (s.workJob i.work) pages with
  | (s1, none) => (s1, true)
  | (s1, some (r, va, wr)) => (s1.coreFault (core / 64) (core % 64) i r va wr, false)

/-- A check of a command: its reason, the lowest word of the failing field, and whether it fails. -/
structure Check where
  reason : Nat
  word   : Nat
  fails  : Bool
  deriving DecidableEq, Repr

/-- The check that a command is refused for: of those that fail the one with the lowest reason, and of these the one
with the lowest word. -/
def firstFail (l : List Check) : Option Check :=
  (l.filter (·.fails)).foldl (fun m c =>
    match m with
    | none => some c
    | some b => if c.reason < b.reason || (c.reason = b.reason && c.word < b.word) then some c else some b) none

/-- Refuse a core's command (R127): BAD_COMMAND with its reason, recorded in CLUSTER_CMD_ERR. -/
def Device.refuse (s : Device) (core : Nat) (w : Work) (c : Check) : Device :=
  (s.recCmdErr core (s.workJob w) c.reason c.word).cmdStatus core stBAD_COMMAND c.reason

/-- Run a command on a core: its checks, its translations, then its effect. -/
def Device.runChecked (s : Device) (core : Nat) (i : Issue) (checks : List Check) (pages : List (Nat × Bool))
    (f : Device → Device) : Device :=
  match firstFail checks with
  | some c => s.refuse core i.work c
  | none =>
    let x := s.openPages core i pages
    if x.2 then f x.1 else x.1

/-- Run a command's meaning on each of its cores. -/
def Device.onCores (s : Device) (i : Issue) (f : Nat → Device → Device) : Device := i.cores.foldl (fun s c => f c s) s

/-- The 48-bit address and the SPACE field in words `k` and `k` + 1 (R125). -/
def opndAt (w : List Nat) (k : Nat) : Opnd := ⟨bits (wd w (k + 1)) 30 2, wdAddr w k⟩

/-- The scale address in words `k` and `k` + 1, whose SPACE field is its operand's. -/
def scaleAt (w : List Nat) (k space : Nat) : Opnd := ⟨space, wdAddr w k⟩

/-- An operand's address breaks the rule of alignment to 64 bytes, or its space is 0b11. -/
def badAddr (o : Opnd) : Bool := o.addr % 64 ≠ 0
def badSpace (o : Opnd) : Bool := o.space = 3

end Sys2Proof.Machine
end

