-- ==== Sys2Proof/Machine/Groups.lean ====
section
/-!
DEFINITION. Groups of devices and the life of a collective (chapter 8, R184, R185, R189 to R193): the group table, sequence
values, opening, closing and abandoning.
-/
namespace Sys2Proof.Machine

/-- This device's ID (R409, R425). -/
def Device.deviceId (s : Device) : Nat := s.rd 0 OLINER_DEVICE_ID_ID

/-- The group table's address (R201). -/
def Device.collTab (s : Device) : Nat := s.rd 0 DISPATCH_COLL_TAB_LO_ADDR * 2 ^ 16 + s.rd 0 DISPATCH_COLL_TAB_HI_ADDR * 2 ^ 32

/-- The 64 bytes of group `n`'s entry in the table as 16-bit halves (R184). -/
def Device.groupEntry (s : Device) (n : Nat) : List Nat := (List.range 32).map fun i => s.load (s.collTab + 64 * n + 2 * i) 2

/-- The copy of group `n` in a die's schedule memory (R185): the number of each copied group is kept beside it. -/
def Device.groupCopy (s : Device) (die n : Nat) : Option (List Nat) :=
  (SMap.get [] s.chorus.groups die).findIdx? (· = n) |>.map fun k =>
    (List.range 32).map fun i => bits (s.schedWord die (0x400 + 64 * k + 4 * (i / 2))) (16 * (i % 2)) 16

/-- The fields of a group entry (R184). -/
def geV (e : List Nat) : Bool := bit (wd e 0) 15
def geSyncOp (e : List Nat) : Bool := bit (wd e 0) 14
def geMembers (e : List Nat) : List Nat := (e.drop 4).take (bits (wd e 0) 0 4 + 1)

/-- The rules of R184 that an entry alone decides. -/
def Device.groupShapeOk (s : Device) (e : List Nat) : Bool :=
  geV e && bits (wd e 0) 4 10 = 0 && wd e 1 = 0 && wd e 2 = 0 && wd e 3 = 0 && (e.drop 20).all (· = 0) &&
  decide ((geMembers e).Pairwise (· < ·)) && (geMembers e).contains s.deviceId

/-- A copied group below `n` is valid and sets SYNC_OP. DEDUCED (216): job 0 uses its die's copies alone, so only they can hold the first entry
that sets it. -/
def Device.syncOpBefore (s : Device) (die n : Nat) : Bool :=
  (SMap.get [] s.chorus.groups die).any fun k => decide (k < n) &&
    match s.groupCopy die k with | some e => geV e && geSyncOp e | none => false

/-- The members of group `n` for a job, or none where the group is refused (R184): job 0 uses its die's copies. -/
def Device.group (s : Device) (die job n : Nat) : Option (List Nat) :=
  if 1024 ≤ n then none
  else if job = 0 then
    match s.groupCopy die n with
    | some e => if s.groupShapeOk e && !(geSyncOp e && s.syncOpBefore die n) then some (geMembers e) else none
    | none => none
  else
    let e := s.groupEntry n
    let first := (List.range n).any fun k => geV (s.groupEntry k) && geSyncOp (s.groupEntry k)
    if s.groupShapeOk e && !(geSyncOp e && first) then some (geMembers e) else none

/-- The valid group with SYNC_OP set that the frame program of die 0 names, if there is one (R184, R195). -/
def Device.syncOpGroup (s : Device) : Option (Nat × List Nat) :=
  (SMap.get [] s.chorus.groups 0).findSome? fun n =>
    match s.groupCopy 0 n with
    | some e => if geSyncOp e then (s.group 0 0 n).map fun m => (n, m) else none
    | none => none

/-- Record a refused collective in DISPATCH_COLL_ERR (R190, R201). -/
def Device.recCollErr (s : Device) (core job reason : Nat) : Device :=
  let d := core / 64
  if s.on d DISPATCH_COLL_ERR_VALID then s.set d DISPATCH_COLL_ERR_OVERFLOW
  else (((s.set d DISPATCH_COLL_ERR_VALID).wr d DISPATCH_COLL_ERR_REASON reason).wr d DISPATCH_COLL_ERR_CORE core).wr d
    DISPATCH_COLL_ERR_JOB job

/-- Replace the open collectives. -/
def Device.setActive (s : Device) (l : List Coll) : Device := { s with coll := { s.coll with active := l } }

/-- The collectives open in a scope. -/
def Device.openIn (s : Device) (scope : Nat) : List Coll := s.coll.active.filter fun c => c.scope = scope && c.dead.isNone

/-- The scope takes its next sequence value and a collective opens (R189); contributions that came early join it, and it
is counted on the dies of its parts. -/
def Device.openColl (s : Device) (scope : Nat) (members : List Nat) (part : CollPart) (attn : Option Nat) : Device × Coll :=
  let seq := SMap.get 0 s.coll.seq scope
  let mine := s.coll.early.filter fun e => e.group = scope && e.seq = seq
  let x : Coll := { scope := scope, seq := seq, members := members.filter (· ≠ s.deviceId), parts := [part], remote := mine, attn := attn }
  let s1 := { s with coll := { s.coll with
    seq := SMap.put 0 s.coll.seq scope ((seq + 1) % 2 ^ 32)
    early := s.coll.early.filter fun e => !(e.group = scope && e.seq = seq)
    active := s.coll.active ++ [x] } }
  (s1.addWrap (part.core / 64) DISPATCH_COLL_AUDIT_OPENED 1, x)

/-- The dies that hold parts of a collective. -/
def Coll.dies (c : Coll) : List Nat := (c.parts.map fun p => p.core / 64).eraseDups

/-- The same collective. -/
def Coll.is (c : Coll) (scope seq : Nat) : Bool := c.scope = scope && c.seq = seq

/-- A collective closes with any status: each of its dies counts it (R201). -/
def Device.closeColl (s : Device) (c : Coll) : Device :=
  let s1 := s.setActive (s.coll.active.filter fun x => !x.is c.scope c.seq)
  c.dies.foldl (fun s d => s.addWrap d DISPATCH_COLL_AUDIT_CLOSED 1) s1

/-- A frame-program slice ends by a collective's status (R191, R192): as one ended at its hard limit, with its branch at the first sample edge
after the collective's deadline, which counts from the slice's scheduled tick. -/
def Device.failLater (s : Device) (x : SliceRun) : Device :=
  let s1 := ((s.set x.die CHORUS_STATUS_DEADLINE).logSlice x true).sliceLeaves x
  let r := s.sliceRec x.die x.idx
  if slRecovery r = 0xFFFF then s1
  else { s1 with chorus := { s1.chorus with branches := s1.chorus.branches ++
    [{ die := x.die, first := slRecovery r, phase := slPhase r, units := x.units
       edge := s.chorus.tickNo - x.edges + s.rd 0 DISPATCH_COLL_CTL_TIMEOUT + 1 }] } }

/-- A core's command ends by a collective's status: a slice's at once with the slice, a ring's at its command's end. -/
def Device.endByColl (s : Device) (core status : Nat) (w : Work) : Device :=
  match w with
  | .ring _ => s.cmdStatus core status 0
  | .slice die idx =>
    let s1 := s.setCmd core none
    match s1.findSlice die idx with
    | some x => s1.failLater x
    | none => s1

/-- A collective is abandoned (R191 to R193): every part ends with the status, the status register shows it, and a notice
goes to every other member. -/
def Device.abandonColl (s : Device) (c : Coll) (status : Nat) (notify : Bool) : Device :=
  let s1 := c.dies.foldl (fun s d =>
    if status = stCOLL_TIMEOUT then s.set d DISPATCH_COLL_STATUS_TIMED_OUT
    else if status = stCOLL_MISMATCH then s.set d DISPATCH_COLL_STATUS_MISMATCH else s) s
  let s2 := c.parts.foldl (fun s p => s.endByColl p.core status p.issue.work) (s1.closeColl c)
  let s3 := { s2 with coll := { s2.coll with gone := s2.coll.gone ++ [(c.scope, c.seq)] } }
  if notify then s3.sendWords c.members 10 [c.scope, c.seq, status] [] else s3

/-- The status of a notice recorded for a collective not issued yet, and the state without it (R192). -/
def Device.takeNotice (s : Device) (scope seq : Nat) : Option Nat :=
  (s.coll.notices.find? fun n => n.1 = scope && n.2.1 = seq).map (·.2.2)

/-- The tick that a command's deadline counts from (R191): the scheduled tick of its slice, or the tick it started in. -/
def Device.startTick (s : Device) (w : Work) : Nat :=
  match w with
  | .slice die idx => match s.findSlice die idx with | some x => s.chorus.tickNo - x.edges | none => s.chorus.tickNo
  | .ring _ => s.chorus.tickNo

end Sys2Proof.Machine
end

