-- ==== Sys2Proof/Machine/Gatefn.lean ====
section
/-!
DEFINITION. The gate functions of R131 whose result the manual bounds in units in the last place: their values to 256 fractional bits, and the
part's result, which is any FP32 value within the stated bound of them.
-/
namespace Sys2Proof.Machine

/-- 2^256, the scale of the fixed-point numbers below, and ln 2, log2 e and √(2/π) at that scale. -/
def fxOne : Nat := 2 ^ 256
def fxLn2 : Nat := 80260960185991308862233904206310070533990667611589946606122867505419956976171
def fxLog2e : Nat := 167052672916848388242985626561247531987276682633131050150846402744536260568207
def fxRoot2Pi : Nat := 92388720265562225100004042351473451001048276763068025688572742865826802514525

/-- The terms of the exponential series from x^k / k! on, `n` of them; x below 1. -/
def fxSeries (x k term : Nat) : Nat → Nat
  | 0 => 0
  | n + 1 => term + fxSeries x (k + 1) (term * x / fxOne / (k + 1)) n

/-- 2^y at the scale for an exponent at the scale, `neg` that it is negative; 0 below 2^-250. Only for |y| < 250. -/
def fxExp2 (neg : Bool) (y : Nat) : Nat :=
  if neg then
    if 250 * fxOne ≤ y then 0 else fxOne * fxOne / (fxSeries (y % fxOne * fxLn2 / fxOne) 0 fxOne 64 * 2 ^ (y / fxOne))
  else fxSeries (y % fxOne * fxLn2 / fxOne) 0 fxOne 64 * 2 ^ (min 250 (y / fxOne))

/-- The magnitude m × 2^e at the scale, held at 2^20. -/
def fxOf (m : Nat) (e : Int) : Nat := if 20 ≤ e then 2 ^ 20 * fxOne else min (2 ^ 20 * fxOne) (m * fxOne * pow2 e / pow2 (-e))

/-- e^-x at the scale, for a magnitude x at the scale. -/
def fxExpNeg (x : Nat) : Nat := fxExp2 true (x * fxLog2e / fxOne)

/-- 1 / (1 + e^-x) at the scale, for a number x at the scale with its sign. -/
def fxSigmoid (neg : Bool) (x : Nat) : Nat :=
  let t := fxExpNeg x
  if neg then t * fxOne / (fxOne + t) else fxOne * fxOne / (fxOne + t)

/-- The value of a gate function (R129) at a finite argument, as a sign, and a magnitude in units of 2^e. -/
def gateTrue (f : Nat) (n : Bool) (m : Nat) (e : Int) : Bool × Nat × Int :=
  let x := fxOf m e
  match f with
  | 0x05 => (false, fxSigmoid n x, -256)
  | 0x06 => let t := fxExpNeg (2 * x); (n, (fxOne - t) * fxOne / (fxOne + t), -256)
  | 0x07 => (n, m * fxSigmoid n x, e - 256)
  | 0x08 =>
    let u := (x + 44715 * (x * x / fxOne) * x / fxOne / 1000000) * fxRoot2Pi / fxOne
    (n, m * fxSigmoid n (2 * u), e - 256)
  | _ => (false, fxExp2 n x, -256)

/-- The bound of R131 in units in the last place. -/
def gateUlps (f : Nat) : Nat := match f with | 0x05 => 2 | 0x06 => 2 | 0x07 => 3 | 0x08 => 4 | _ => 1

/-- A finite pattern lies within `k` units in the last place of m × 2^e, for magnitudes: less than that, by more than what the values above leave out. -/
def withinUlps (c k m : Nat) (e : Int) : Bool :=
  match dec32 c with
  | .fin false a b =>
    let d := ((FV.fin false a b).add (.fin true m e)).abs
    (d.add (.fin false 1 (ulpExp32 c - 60))).lt (.fin false k (ulpExp32 c))
  | _ => false

/-- A gate function's result at a finite argument within its range: the nearest FP32 value, or another within the bound, which one is the part's choice. -/
def gateNear (f w : Nat) : Nat :=
  match dec32 w with
  | .fin n m e =>
    let t := gateTrue f n m e
    let r := enc32 (.fin false t.2.1 t.2.2)
    let c := ulps32 r (Config.ulpChoice f w)
    let sub := f = 0x09 ∧ lt32 w 0xC2FC0000
    let r' := if sub then max 1 (min r 0x7FFFFF) else r
    (if fin32 c ∧ withinUlps c (gateUlps f) t.2.1 t.2.2 ∧ ¬ (sub ∧ (c = 0 ∨ 0x800000 ≤ c)) then c else r') + b2n t.1 * 2 ^ 31
  | _ => nan32

/-! ### The sine of the test generator (R327) -/

/-- π/2 at the scale. -/
def fxHalfPi : Nat := 181885788445883162140117471388864931326696688664196214979386075558969447233092

/-- Every other term of the series of x^k / k! from k on, added and taken away in turn: the sine from k = 1 on. -/
def fxAlternate (x k term : Nat) : Nat → Int
  | 0 => 0
  | n + 1 => (term : Int) - fxAlternate x (k + 2) (term * x / fxOne / (k + 1) * x / fxOne / (k + 2)) n

/-- The sine of a phase in 2^-32 turns, at the scale. -/
def fxSine (phase : Nat) : Int :=
  let x := phase % 2 ^ 30 * fxHalfPi / 2 ^ 30
  let y := if phase / 2 ^ 30 % 2 = 0 then x else fxHalfPi - x
  let v := fxAlternate y 1 y 48
  if phase / 2 ^ 31 % 2 = 0 then v else -v

/-- AMP × sin of a phase: a value within 2^-18 |AMP| + 1 of it, which one is the part's choice. -/
def sineNear (amp : Int) (phase : Nat) (v : Int) : Int :=
  let t := amp * fxSine phase
  if (v * fxOne - t).natAbs ≤ amp.natAbs * 2 ^ 238 + fxOne then v else (2 * t + fxOne) / (2 * fxOne)

end Sys2Proof.Machine
end

