-- ==== Sys2Proof/Machine/Matrix.lean ====
section
/-!
DEFINITION. The matrix engines and the gate pipeline (chapter 5): the matrix command (R119 to R127) and the gate command,
linked or standalone (R128 to R133).
-/
namespace Sys2Proof.Machine

/-! ### The matrix command (R125) -/

/-- The fields of a matrix command. -/
def mxAFmt (w : List Nat) : Nat := bits (wd w 1) 28 4
def mxBFmt (w : List Nat) : Nat := bits (wd w 1) 24 4
def mxOutFmt (w : List Nat) : Nat := bits (wd w 1) 20 4
def mxSat (w : List Nat) : Bool := bit (wd w 1) 19
def mxAcc (w : List Nat) : Bool := bit (wd w 1) 18
def mxLink (w : List Nat) : Bool := bit (wd w 1) 17
def mxM (w : List Nat) : Nat := bits (wd w 1) 0 16 + 1
def mxN (w : List Nat) : Nat := bits (wd w 2) 16 14 + 1
def mxK (w : List Nat) : Nat := 32 * bits (wd w 2) 0 16 + (if bits (wd w 15) 0 5 = 0 then 32 else bits (wd w 15) 0 5)
def mxA (w : List Nat) : Opnd := opndAt w 3
def mxAScale (w : List Nat) : Opnd := scaleAt w 5 (mxA w).space
def mxAStride (w : List Nat) : Nat := 64 * bits (wd w 6) 16 16
def mxB (w : List Nat) : Opnd := opndAt w 7
def mxBScale (w : List Nat) : Opnd := scaleAt w 9 (mxB w).space
def mxC (w : List Nat) : Opnd := opndAt w 11
def mxCScale (w : List Nat) : Opnd := scaleAt w 13 (mxC w).space
def mxCStride (w : List Nat) : Nat := 64 * bits (wd w 14) 16 16

/-- Blocks along K. -/
def mxKB (w : List Nat) : Nat := (mxK w + 31) / 32

/-- Rows of a B tile (R121). -/
def tileK (bf : Nat) : Nat := if is16 bf then 8 else if fmtBits bf = 8 then 32 else 64

/-- Bytes of one N-tile of B (R122): its full tiles, then a short tile rounded up to 64 bytes. -/
def ntileBytes (bf k : Nat) : Nat :=
  let kt := tileK bf
  k / kt * (kt * 16 * fmtBits bf / 8) +
    (if k % kt = 0 then 0 else (packedBytes (fmtBits bf) (16 * (k % kt)) + 63) / 64 * 64)

/-- The bit offset within an N-tile of element (`k`, column `n`) (R122). -/
def tileBit (bf kTot k n : Nat) : Nat :=
  let kt := tileK bf
  let len := if k / kt < kTot / kt then kt else kTot % kt
  k / kt * (kt * 16 * fmtBits bf) + fmtBits bf * (n * len + k % kt)

/-- The pairing of formats of R121. -/
def pairOk (af bf : Nat) : Bool := (isMx af && isMx bf) || (is16 af && is16 bf)

/-- The fields of a gate command (R128). -/
def gtInFmt (w : List Nat) : Nat := bits (wd w 1) 28 4
def gtOutFmt (w : List Nat) : Nat := bits (wd w 1) 24 4
def gtNOps (w : List Nat) : Nat := bits (wd w 1) 19 4
def gtRows (w : List Nat) : Nat := bits (wd w 1) 0 16 + 1
def gtCols (w : List Nat) : Nat := bits (wd w 2) 16 16 + 1
def gtPair (w : List Nat) : Nat := bits (wd w 2) 0 16
def gtV (w : List Nat) : Opnd := opndAt w 7
def gtX (w : List Nat) : Opnd := opndAt w 9
def gtOut (w : List Nat) : Opnd := opndAt w 12
def gtSide (w : List Nat) : Opnd := opndAt w 14

/-- The ops of a gate command, as its bytes in order; at most eight. -/
def gtOps (w : List Nat) : List Nat :=
  (List.range (min 8 (gtNOps w))).map fun i => bits (wd w (3 + i / 4)) (8 * (i % 4)) 8

/-- An op's SRC and FUNC (R129). -/
def opSrc (o : Nat) : Nat := bits o 5 3
def opFunc (o : Nat) : Nat := bits o 0 5
def opKnown (o : Nat) : Bool := opSrc o ≤ 4 && (opFunc o ≤ 0x0E || (0x10 ≤ opFunc o && opFunc o ≤ 0x12))
def opNorm (o : Nat) : Bool := 0x0C ≤ opFunc o && opFunc o ≤ 0x0E
def opReduce (o : Nat) : Bool := 0x10 ≤ opFunc o && opFunc o ≤ 0x12

/-- Output columns of a gate command with `cols` input columns: PAIR_OFFSET of them where an op uses PAIR (R129). -/
def gtOutCols (w : List Nat) (cols : Nat) : Nat := if (gtOps w).any fun o => opSrc o = 4 then gtPair w else cols

/-- Columns that a matrix command's output holds: those of its linked gate command where it has one. -/
def mxOutCols (w : List Nat) (next : List Nat) : Nat := if mxLink w then gtOutCols next (mxN w) else mxN w

/-- The checks of a matrix command (R127); `next` is the command that follows it in its list. -/
def mxChecks (w next : List Nat) : List Check :=
  let af := mxAFmt w
  let bf := mxBFmt w
  let cf := mxOutFmt w
  let k := mxK w
  let nt := (mxN w + 15) / 16
  let nOut := mxOutCols w next
  [⟨1, 1, !pairOk af bf || !isFmt cf⟩,
   ⟨2, 3, badAddr (mxA w)⟩, ⟨2, 4, badSpace (mxA w)⟩, ⟨2, 5, isMx af && badAddr (mxAScale w)⟩, ⟨2, 6, mxAStride w = 0⟩,
   ⟨2, 7, badAddr (mxB w)⟩, ⟨2, 8, badSpace (mxB w)⟩, ⟨2, 9, isMx bf && badAddr (mxBScale w)⟩,
   ⟨2, 11, badAddr (mxC w)⟩, ⟨2, 12, badSpace (mxC w)⟩, ⟨2, 13, isMx cf && badAddr (mxCScale w)⟩, ⟨2, 14, mxCStride w = 0⟩,
   ⟨3, 1, mxAcc w && cf ≠ 0xA⟩,
   ⟨4, 1, mxLink w && hdOpcode next ≠ 0x11⟩,
   ⟨7, 3, !rowsFit (mxA w) (mxM w) (mxAStride w) (packedBytes (fmtBits af) k)⟩,
   ⟨7, 5, isMx af && !(mxAScale w).fits (mxM w * mxKB w)⟩,
   ⟨7, 7, !(mxB w).fits (nt * ntileBytes bf k)⟩,
   ⟨7, 9, isMx bf && !(mxBScale w).fits (nt * mxKB w * 16)⟩,
   ⟨7, 11, !rowsFit (mxC w) (mxM w) (mxCStride w) (packedBytes (fmtBits cf) nOut) ||
     (mxAcc w && !rowsFit (mxC w) (mxM w) (mxCStride w) (4 * mxN w))⟩,
   ⟨7, 13, isMx cf && !(mxCScale w).fits (mxM w * ((nOut + 31) / 32))⟩,
   ⟨9, 1, bit (wd w 1) 16⟩, ⟨9, 2, bits (wd w 2) 30 2 ≠ 0⟩, ⟨9, 4, bits (wd w 4) 16 14 ≠ 0⟩, ⟨9, 8, bits (wd w 8) 16 14 ≠ 0⟩,
   ⟨9, 10, bits (wd w 10) 16 16 ≠ 0⟩, ⟨9, 12, bits (wd w 12) 16 14 ≠ 0⟩, ⟨9, 15, bits (wd w 15) 5 27 ≠ 0⟩]

/-- The pages that a matrix command's output names. -/
def mxOutPages (w : List Nat) (job nOut : Nat) : List (Nat × Bool) :=
  rowPages (mxC w) job (mxM w) (mxCStride w) (packedBytes (fmtBits (mxOutFmt w)) nOut) true ++
  (if isMx (mxOutFmt w) then (mxCScale w).pages job (mxM w * ((nOut + 31) / 32)) true else [])

/-- The pages that a matrix command names (R102). -/
def mxPages (w : List Nat) (job nOut : Nat) : List (Nat × Bool) :=
  let k := mxK w
  let nt := (mxN w + 15) / 16
  rowPages (mxA w) job (mxM w) (mxAStride w) (packedBytes (fmtBits (mxAFmt w)) k) false ++
  (if isMx (mxAFmt w) then (mxAScale w).pages job (mxM w * mxKB w) false else []) ++
  (mxB w).pages job (nt * ntileBytes (mxBFmt w) k) false ++
  (if isMx (mxBFmt w) then (mxBScale w).pages job (nt * mxKB w * 16) false else []) ++
  (if mxAcc w then rowPages (mxC w) job (mxM w) (mxCStride w) (4 * mxN w) false else []) ++
  mxOutPages w job nOut

/-- The exact sum of products, from +0. -/
def dotExact (l : List (FV × FV)) : FV := l.foldl (fun a p => a.add (p.1.mul p.2)) (.fin false 0 0)

/-- One level of a pairwise tree: neighbours are added, each sum rounded. -/
def pairUp : List Nat → List Nat
  | a :: b :: r => add32 a b :: pairUp r
  | l => l

/-- `n` levels of the tree. -/
def pairTree : Nat → List Nat → Nat
  | 0, l => l.headD 0
  | n + 1, l => pairTree n (pairUp l)

/-- An output element (R119): blocks along K in ascending order, each summed exactly with its scales and added with one
rounding, or for 16-bit operands groups of 32 rounded products summed by a tree of five levels. -/
def dotAcc (mx : Bool) (acc : Nat) (blocks : List (List (FV × FV))) : Nat :=
  blocks.foldl (fun a b =>
    if mx then enc32 ((dec32 a).add (dotExact b))
    else add32 a (pairTree 5 ((b.map fun p => enc32 (p.1.mul p.2)) ++ List.replicate (32 - b.length) 0))) acc

/-- A row's value with its last part byte filled out: the bits beyond the row's elements are left open (R122). -/
def Device.rowValue (s : Device) (bitsPer : Nat) (codes : List Nat) : Device × Nat :=
  let used := bitsPer * codes.length
  if used % 8 = 0 then (s, packBits bitsPer codes)
  else ({ s with fresh := s.fresh + 1 },
    (packBits bitsPer codes + 2 ^ used * (Config.freeByte s.fresh).toNat) % 256 ^ packedBytes bitsPer codes.length)

/-- Convert rows to an output format and write them with their scales (R116 to R118, R122), adding the report to the
core's numeric flags (R133). -/
def Device.writeRows (s : Device) (core : Nat) (w : Work) (fmt : Nat) (sat : Bool) (out scale : Opnd) (stride : Nat)
    (rows : List (List Nat)) : Device :=
  (rows.foldl (fun (x : Device × Nat) row =>
    let c := convRow fmt sat (row.map dec32)
    let v := x.1.rowValue (fmtBits fmt) c.1
    let s1 := v.1.opWrites core w
      ([(out.add (x.2 * stride), packedBytes (fmtBits fmt) row.length, v.2)] ++
       (if isMx fmt then [(scale.add (x.2 * c.2.1.length), c.2.1.length, packBits 8 c.2.1)] else []))
    (s1.numFlags core c.2.2, x.2 + 1)) (s, 0)).1

/-- Rows of A that are processed together, and how many such chunks there are (R123). -/
def mxChunk (w : List Nat) : Nat := max 1 (256 / max 1 (((mxN w + 15) / 16 + 3) / 4))
def mxChunks (w : List Nat) : Nat := (mxM w + mxChunk w - 1) / mxChunk w

/-- The tiles of B in the order in which a core reads them (R123): offset and bytes, ascending in K and within it by N-tile. -/
def mxTiles (w : List Nat) : List (Nat × Nat) :=
  let bf := mxBFmt w
  let s := ntileBytes bf (mxK w)
  let full := tileK bf * 16 * fmtBits bf / 8
  (List.range ((mxK w + tileK bf - 1) / tileK bf)).flatMap fun kt => (List.range ((mxN w + 15) / 16)).map fun nt =>
    (nt * s + kt * full, min full (s - kt * full))

/-- The reads of A's rows, and those of B's tiles, all of them again for every chunk of rows (R123). -/
def Device.readA (s : Device) (core : Nat) (i : Issue) (w : List Nat) : Device × List Nat :=
  s.opReadRows core i.work (rowsOf (mxA w) (mxM w) (mxAStride w)) (packedBytes (fmtBits (mxAFmt w)) (mxK w))
def Device.readB (s : Device) (core : Nat) (i : Issue) (w : List Nat) : Device :=
  (List.range (mxChunks w)).foldl (fun (s : Device) _ =>
    (mxTiles w).foldl (fun (s : Device) t => (s.opRead core i.work ((mxB w).add t.1) t.2).1) s) s

/-- What a matrix command does on one core after its checks and translations (R119, R122, R125). -/
def matrixRun (core : Nat) (i : Issue) (w : List Nat) (s : Device) : Device :=
  let af := mxAFmt w
  let bf := mxBFmt w
  let k := mxK w
  let kb := mxKB w
  let m := mxM w
  let n := mxN w
  let nt := (n + 15) / 16
  let a := s.readA core i w
  let as := if isMx af then a.1.opRead core i.work (mxAScale w) (m * kb) else (a.1, 0)
  let b := (as.1.readB core i w, (List.range nt).map fun t => (as.1.opRead core i.work ((mxB w).add (t * ntileBytes bf k)) (ntileBytes bf k)).2)
  let bs := if isMx bf then b.1.opRead core i.work (mxBScale w) (nt * kb * 16) else (b.1, 0)
  let c := if mxAcc w then bs.1.opReadRows core i.work (rowsOf (mxC w) m (mxCStride w)) (4 * n) else (bs.1, [])
  if ¬ c.1.cmdOk core then c.1
  else
    let aVal := fun (r j : Nat) => decScaled af (elemAt (wd a.2 r) (fmtBits af) j) (if isMx af then elemAt as.2 8 (r * kb + j / 32) else 127)
    let bVal := fun (j col : Nat) => decScaled bf (bits (wd b.2 (col / 16)) (tileBit bf k j (col % 16)) (fmtBits bf))
      (if isMx bf then elemAt bs.2 8 ((col / 16 * kb + j / 32) * 16 + col % 16) else 127)
    let rowA := (List.range m).map fun r => (List.range k).map (aVal r)
    let colB := (List.range n).map fun col => (List.range k).map fun j => bVal j col
    let rowC := (List.range m).map fun r => (List.range n).map fun col => if mxAcc w then elemAt (wd c.2 r) 32 col else 0
    let fl := inFlagsAll rowA.flatten ||| inFlagsAll colB.flatten |||
      (if mxAcc w then inFlagsAll (rowC.flatten.map dec32) else 0)
    let acc := (rowA.zip rowC).map fun ar =>
      (colB.zip ar.2).map fun bc => dotAcc (isMx af) bc.2 (cutList 32 kb (ar.1.zip bc.1))
    let s1 := c.1.numFlags core ⟨fl, 0⟩
    if mxLink w then { s1 with link := SMap.put none s1.link core (some ⟨w, acc, i.work⟩) }
    else s1.writeRows core i.work (mxOutFmt w) (mxSat w) (mxC w) (mxCScale w) (mxCStride w) acc

/-- The body of MATRIX: the command on each core of its issue. -/
def matrixBody (i : Issue) (w next : List Nat) (s : Device) : Device :=
  s.issue i w fun s => s.onCores i fun core s =>
    s.runChecked core i (mxChecks w next) (mxPages w (s.workJob i.work) (mxOutCols w next)) (matrixRun core i w)

/-! ### Gate functions (R129, R131) -/

/-- A gate function of one argument whose result the manual bounds and does not fix (R131): the stated values at the ends of its
range, else a result within the bound; with whether the argument lies outside the function's domain. -/
def gateFn (f w : Nat) : Nat × Bool :=
  if isNan32 w ∧ 0x05 ≤ f ∧ f ≤ 0x0B then (nan32, false)
  else match f with
    | 0x05 => (if w = inf32 false then 0x3F800000 else if w = inf32 true then 0 else gateNear f w, false)
    | 0x06 => (if w = inf32 false then 0x3F800000 else if w = inf32 true then 0xBF800000 else gateNear f w, false)
    | 0x07 => (if w = inf32 false then inf32 false else if w = inf32 true then 0x80000000 else gateNear f w, false)
    | 0x08 => (if w = inf32 false then inf32 false else if lt32 w 0xC1100000 then 0x80000000 else gateNear f w, false)
    | 0x09 => (if le32 0x43000000 w then inf32 false else if lt32 w 0xC3150000 then 0 else gateNear f w, false)
    | 0x0A => (recip32 w, (dec32 w).isZero)
    | _ => (rsqrt32 w, w = 0 || lt32 w 0)

/-- The sum of a row (R130): lane j mod 64 takes column j in ascending order, then a tree of six levels. -/
def rowSum (row : List Nat) : Nat :=
  let lanes := (cutList 64 (row.length / 64 + 1) row).foldl (fun acc c =>
    (acc.zip (c.map some ++ List.replicate 64 none)).map fun p => match p.2 with | some x => add32 p.1 x | none => p.1)
    (List.replicate 64 0)
  pairTree 6 lanes

/-- The maximum of a row, columns in ascending order. -/
def rowMax : List Nat → Nat
  | [] => 0
  | x :: r => r.foldl max32 x

/-- The FP32 mean of a row: its sum, then one division. -/
def rowMean (row : List Nat) : Nat := div32 (rowSum row) (ofInt32 row.length)

/-- The reciprocal root of a statistic plus epsilon, with whether its argument lies outside the domain. -/
def normRoot (stat eps : Nat) : Nat × Bool := let x := add32 stat eps; (rsqrt32 x, x = 0 || lt32 x 0)

/-- The operand an op takes for a column (R129). -/
def opOperand (w v input : List Nat) (o j : Nat) : Nat :=
  match opSrc o with
  | 1 => wd v j
  | 2 => wd w 5
  | 3 => wd w 6
  | 4 => wd input (j + gtPair w)
  | _ => 0

/-- An op of two operands on one column; one whose SRC names no operand gives a free value. -/
def opTwo (w : List Nat) (o x b : Nat) : Nat :=
  if opSrc o = 0 then Config.noOperand (opFunc o) x % 2 ^ 32
  else match opFunc o with
    | 0x01 => add32 x b
    | 0x02 => mul32 x b
    | 0x03 => max32 x b
    | _ => fma32 x b (wd w 5)

/-- One op on a row of output columns: the row after it, the value it writes if it is a reduction, and whether a
function met an argument outside its domain. -/
def gateOp (w v input : List Nat) (o : Nat) (row : List Nat) : List Nat × Option Nat × Bool :=
  let withB := fun (g : Nat → Nat → Nat) => (row.zipIdx.map fun p => g p.1 (opOperand w v input o p.2))
  match opFunc o with
  | 0x00 => (row, none, false)
  | 0x01 | 0x02 | 0x03 | 0x04 => (withB (opTwo w o), none, false)
  | 0x0C => (row.map fun x => sub32 x (rowMax row), none, false)
  | 0x0D =>
    let r := normRoot (rowMean (row.map fun x => mul32 x x)) (wd w 6)
    (withB fun x b => if opSrc o = 0 then Config.noOperand 0x0D x % 2 ^ 32 else mul32 (mul32 x r.1) b, none, r.2)
  | 0x0E =>
    let mean := rowMean row
    let r := normRoot (rowMean (row.map fun x => mul32 (sub32 x mean) (sub32 x mean))) (wd w 6)
    (withB fun x b => if opSrc o = 0 then Config.noOperand 0x0E x % 2 ^ 32 else mul32 (mul32 (sub32 x mean) r.1) b, none, r.2)
  | 0x10 => (row, some (rowMax row), false)
  | 0x11 => (row, some (rowSum row), false)
  | 0x12 => (row, some (rowSum (row.map fun x => mul32 x x)), false)
  | f => (row.map fun x => (gateFn f x).1, none, row.any fun x => (gateFn f x).2)

/-- A chain of ops on one input row: the output row, the reductions' values in order, and whether any argument lay
outside a function's domain. -/
def gateRow (w v input : List Nat) : List Nat × List Nat × Bool :=
  (gtOps w).foldl (fun x o =>
    let r := gateOp w v input o x.1
    (r.1, x.2.1 ++ r.2.1.toList, x.2.2 || r.2.2)) (input.take (gtOutCols w input.length), [], false)

/-- The checks of a gate command (R127): standalone, or linked to the matrix command `mw`. -/
def gtChecks (w : List Nat) (mw : Option (List Nat)) : List Check :=
  let ops := gtOps w
  let alone := mw.isNone
  let rows := match mw with | some m => mxM m | none => gtRows w
  let outCols := gtOutCols w (gtCols w)
  let usesV := ops.any fun o => opSrc o = 1
  let reds := (ops.filter opReduce).length
  let xs := 64 * bits (wd w 11) 16 16
  let os := 64 * bits (wd w 11) 0 16
  [⟨2, 7, badAddr (gtV w)⟩, ⟨2, 8, badSpace (gtV w)⟩,
   ⟨2, 9, alone && badAddr (gtX w)⟩, ⟨2, 10, alone && badSpace (gtX w)⟩,
   ⟨2, 12, alone && badAddr (gtOut w)⟩, ⟨2, 13, alone && badSpace (gtOut w)⟩,
   ⟨2, 14, badAddr (gtSide w)⟩, ⟨2, 15, badSpace (gtSide w)⟩,
   ⟨4, 2, match mw with | some m => gtCols w ≠ mxN m | none => false⟩,
   ⟨5, 1, gtNOps w = 0 || 8 < gtNOps w⟩,
   ⟨5, 3, (ops.take 4).any fun o => !opKnown o⟩, ⟨5, 4, (ops.drop 4).any fun o => !opKnown o⟩,
   ⟨6, 3, 4 < reds⟩, ⟨6, 2, (ops.any opNorm && 4096 < outCols) || ((ops.any fun o => opSrc o = 4) && gtCols w ≠ 2 * gtPair w)⟩,
   ⟨7, 7, usesV && !(gtV w).fits ((if bit (wd w 8) 29 then 2 else 4) * outCols)⟩,
   ⟨7, 9, alone && !rowsFit (gtX w) rows xs (fmtBits (gtInFmt w) / 8 * gtCols w)⟩,
   ⟨7, 12, alone && !rowsFit (gtOut w) rows os (fmtBits (gtOutFmt w) / 8 * outCols)⟩,
   ⟨7, 14, reds ≠ 0 && !(gtSide w).fits ((rows - 1) * 16 + 4 * reds)⟩,
   ⟨8, 1, alone && !(is16 (gtInFmt w) || gtInFmt w = 0xA) || alone && !(is16 (gtOutFmt w) || gtOutFmt w = 0xA)⟩,
   ⟨9, 1, bit (wd w 1) 23 || bits (wd w 1) 16 3 ≠ 0⟩, ⟨9, 8, bits (wd w 8) 16 13 ≠ 0⟩, ⟨9, 10, bits (wd w 10) 16 14 ≠ 0⟩,
   ⟨9, 13, bits (wd w 13) 16 14 ≠ 0⟩, ⟨9, 15, bits (wd w 15) 16 14 ≠ 0⟩]

/-- The pages that a gate command names (R102). -/
def gtPages (w : List Nat) (mw : Option (List Nat)) (job : Nat) : List (Nat × Bool) :=
  let ops := gtOps w
  let outCols := gtOutCols w (gtCols w)
  let rows := match mw with | some m => mxM m | none => gtRows w
  let reds := (ops.filter opReduce).length
  (if ops.any fun o => opSrc o = 1 then (gtV w).pages job ((if bit (wd w 8) 29 then 2 else 4) * outCols) false else []) ++
  (if reds ≠ 0 then (gtSide w).pages job ((rows - 1) * 16 + 4 * reds) true else []) ++
  (match mw with
    | some m => mxOutPages m job outCols
    | none =>
      rowPages (gtX w) job rows (64 * bits (wd w 11) 16 16) (fmtBits (gtInFmt w) / 8 * gtCols w) false ++
      rowPages (gtOut w) job rows (64 * bits (wd w 11) 0 16) (fmtBits (gtOutFmt w) / 8 * outCols) true)

/-- An FP32 pattern read in a 16- or 32-bit format. -/
def widen (fmt v : Nat) : Nat := enc32 (decElem fmt v)

/-- What a gate command does on one core after its checks and translations (R128 to R131). -/
def gateRun (core : Nat) (i : Issue) (w : List Nat) (s : Device) : Device :=
  let ops := gtOps w
  let link := s.linkOf core i.work
  let mw := link.map (·.words)
  let outCols := gtOutCols w (gtCols w)
  let vf := if bit (wd w 8) 29 then 8 else 0xA
  let v := if ops.any fun o => opSrc o = 1 then s.opRead core i.work (gtV w) (fmtBits vf / 8 * outCols) else (s, 0)
  let x := match link with
    | some l => (v.1, l.rows)
    | none =>
      let r := v.1.opReadRows core i.work (rowsOf (gtX w) (gtRows w) (64 * bits (wd w 11) 16 16)) (fmtBits (gtInFmt w) / 8 * gtCols w)
      (r.1, r.2.map fun d => (List.range (gtCols w)).map fun j => widen (gtInFmt w) (elemAt d (fmtBits (gtInFmt w)) j))
  if ¬ x.1.cmdOk core then x.1
  else
    let vs := if ops.any fun o => opSrc o = 1 then (List.range outCols).map fun j => widen vf (elemAt v.2 (fmtBits vf) j) else []
    let fl := inFlagsAll (vs.map dec32) ||| (if link.isNone then inFlagsAll (x.2.flatten.map dec32) else 0)
    let rs := x.2.map (gateRow w vs)
    let fl2 := fl ||| (if rs.any (·.2.2) then nfGATE_DOMAIN else 0)
    let s1 := x.1.numFlags core ⟨fl2, 0⟩
    let s2 := (rs.zipIdx).foldl (fun s r =>
      if r.1.2.1.isEmpty then s
      else
        let c := convRow 0xA true (r.1.2.1.map dec32)
        (s.opWrites core i.work [((gtSide w).add (16 * r.2), 4 * c.1.length, packBits 32 c.1)]).numFlags core c.2.2) s1
    match mw with
    | some m => s2.writeRows core i.work (mxOutFmt m) (mxSat m) (mxC m) (mxCScale m) (mxCStride m) (rs.map (·.1))
    | none => s2.writeRows core i.work (gtOutFmt w) true (gtOut w) (gtOut w) (64 * bits (wd w 11) 0 16) (rs.map (·.1))

/-- The body of GATE: the command on each core of its issue, linked where accumulator rows wait, which it takes up however it ends; one that a resumable fault
abandons finds them again (R107). -/
def gateBody (i : Issue) (w : List Nat) (s : Device) : Device :=
  s.issue i w fun s => s.onCores i fun core s =>
    let mw := (s.linkOf core i.work).map (·.words)
    let s1 := s.runChecked core i (gtChecks w mw) (gtPages w mw (s.workJob i.work)) (gateRun core i w)
    if s1.ringFaulted (workRing i.work) then s1 else { s1 with link := SMap.put none s1.link core none }

end Sys2Proof.Machine
end

