-- ==== Sys2Proof/Machine/Attention.lean ====
section
/-!
DEFINITION. Attention and the pad cache (chapter 6): the page table, slots, promotion and eviction, epochs, selection,
appending, partials and the merge trees.
-/
namespace Sys2Proof.Machine

/-! ### The command (R158) and its rows -/

/-- The fields of an attention command. -/
def atQFmt (w : List Nat) : Nat := bits (wd w 1) 28 4
def atOutFmt (w : List Nat) : Nat := bits (wd w 1) 24 4
def atAppend (w : List Nat) : Bool := bit (wd w 1) 23
def atPromoWait (w : List Nat) : Bool := bit (wd w 1) 22
def atScope (w : List Nat) : Nat := bits (wd w 1) 20 2
def atRows (w : List Nat) : Nat := bits (wd w 1) 16 4 + 1
def atTopK (w : List Nat) : Nat := bits (wd w 1) 8 8
def atPromoMax (w : List Nat) : Nat := bits (wd w 1) 0 8
def atLayer (w : List Nat) : Nat := bits (wd w 2) 25 7
def atBucket (w : List Nat) : Nat := bits (wd w 2) 21 4
def atHomeLog2 (w : List Nat) : Nat := bits (wd w 2) 17 4
def atHomeBase (w : List Nat) : Nat := bits (wd w 2) 8 9
def atScoreW (w : List Nat) : Nat := wd w 3
def atScale (w : List Nat) : Nat := wd w 4
def atGroup (w : List Nat) : Nat := bits (wd w 5) 16 16
def atQpk (w : List Nat) : Nat := bits (wd w 5) 0 4 + 1
def atRowTab (w : List Nat) : Nat := wdAddr w 6
def atQ (w : List Nat) : Nat := wdAddr w 8
def atOut (w : List Nat) : Nat := wdAddr w 10
def atReport (w : List Nat) : Nat := wdAddr w 12

/-- The cores of a command's home set (R144). -/
def atHomes (w : List Nat) : List Nat := (List.range (2 ^ atHomeLog2 w)).map (atHomeBase w + ·)

/-- The home core of pad `i` of head `h` (R144). -/
def atHome (w : List Nat) (h i : Nat) : Nat := atHomeBase w + (i + 32 * h + 8 * atLayer w) % 2 ^ atHomeLog2 w

/-- A command's lead core, whose translations serve the walker, its die and its job. -/
def AttCmd.lead (c : AttCmd) : Nat := c.issue.cores.headD 0
def AttCmd.die (c : AttCmd) : Nat := c.lead / 64
def Device.attJob (s : Device) (c : AttCmd) : Nat := s.workJob c.issue.work

/-! ### The page table (R139, R140) -/

/-- `n` bytes of a row's page table at an offset. -/
def Device.ptLoad (s : Device) (c : AttCmd) (r : AttRow) (off n : Nat) : Nat := s.vaLoad c.die (s.attJob c) (r.table + off) n

/-- The header's fields. -/
def Device.ptEpoch (s : Device) (c : AttCmd) (r : AttRow) : Nat := s.ptLoad c r 0 2
def Device.ptFmt (s : Device) (c : AttCmd) (r : AttRow) : Nat := bits (s.ptLoad c r 4 4) 12 4
def Device.ptHeads (s : Device) (c : AttCmd) (r : AttRow) : Nat := bits (s.ptLoad c r 4 4) 8 4 + 1
def Device.ptLayers (s : Device) (c : AttCmd) (r : AttRow) : Nat := bits (s.ptLoad c r 4 4) 0 7 + 1
def Device.ptCap (s : Device) (c : AttCmd) (r : AttRow) : Nat := bits (s.ptLoad c r 8 4) 0 13
def Device.ptLpVa (s : Device) (c : AttCmd) (r : AttRow) : Nat := s.ptLoad c r 0x10 6
def Device.ptSumVa (s : Device) (c : AttCmd) (r : AttRow) : Nat := s.ptLoad c r 0x18 6
def Device.ptRef (s : Device) (c : AttCmd) (r : AttRow) : Nat := s.ptLoad c r 0x20 2

/-- The first entry of a head of the command's layer, and the number of an entry of it. -/
def Device.ptFirst (s : Device) (c : AttCmd) (r : AttRow) (h : Nat) : Nat :=
  (atLayer c.words * s.ptHeads c r + h) * s.ptCap c r

/-- The virtual address of entry `e`, and its physical address. -/
def ptEntryVa (r : AttRow) (e : Nat) : Nat := r.table + 0x40 + 8 * e
def Device.ptEntryPa (s : Device) (c : AttCmd) (r : AttRow) (h i : Nat) : Nat :=
  (s.paOf c.die (s.attJob c) (ptEntryVa r (s.ptFirst c r h + i))).getD 0

/-- The entry of pad `i` of head `h`. -/
def Device.ptEntry (s : Device) (c : AttCmd) (r : AttRow) (h i : Nat) : Nat := s.readData (s.ptEntryPa c r h i) 8

/-- The fields of a page-table entry (R140). -/
def peState (e : Nat) : Nat := bits e 61 3
def peEpoch (e : Nat) : Nat := bits e 45 16
def peFill (e : Nat) : Nat := bits e 35 10
def peSlot (e : Nat) : Nat := bits e 20 7
def peLslot (e : Nat) : Nat := bits e 0 20
def pFREE : Nat := 0
def pLP5X : Nat := 1
def pPOND : Nat := 2
def pDIRTY : Nat := 3
def pPROMOTING : Nat := 4
def pEVICTING : Nat := 5

/-- A pad that can be read where its entry names it. -/
def peResident (e : Nat) : Bool := peState e = pPOND || peState e = pDIRTY

/-- An entry with another state, slot or fill. -/
def peWithState (e st : Nat) : Nat := setBits e 61 3 st
def peWithSlot (e n : Nat) : Nat := setBits e 20 7 n
def peWithFill (e n : Nat) : Nat := setBits e 35 10 n

/-- `n` bytes of a job's range lie in the Pond. DEDUCED (207): a page that is not mapped lies outside it. -/
def Device.inPond (s : Device) (die job va n : Nat) : Bool :=
  (pagesOf job va n).all fun p => match s.paOf die job (max va p) with | some a => decide (a < 4 * pondDieBytes) | none => false

/-- Bytes of a row's page table (R139). -/
def Device.ptBytes (s : Device) (c : AttCmd) (r : AttRow) : Nat := 0x40 + 8 * (s.ptLayers c r * s.ptHeads c r * s.ptCap c r)

/-- A row's header keeps R139, and the command's layer is one of its layers. -/
def Device.ptHeaderOk (s : Device) (c : AttCmd) (r : AttRow) : Bool :=
  s.inPond c.die (s.attJob c) r.table 0x40 && r.table % 64 = 0 && (s.ptFmt c r = 3 || s.ptFmt c r = 4 || s.ptFmt c r = 8) && !bit (s.ptLoad c r 4 4) 7 &&
  1 ≤ s.ptCap c r && s.ptCap c r ≤ 4096 && s.ptLpVa c r % 0x10000 = 0 && s.ptSumVa c r % 1024 = 0 && s.ptRef c r % 4 = 0 &&
  s.ptLoad c r 0x24 28 = 0 && atLayer c.words < s.ptLayers c r

/-- And its whole table lies in the Pond. -/
def Device.ptOk (s : Device) (c : AttCmd) (r : AttRow) : Bool :=
  s.ptHeaderOk c r && s.inPond c.die (s.attJob c) r.table (s.ptBytes c r)

/-- An entry that R140 refuses where it is selected or is the tail. -/
def Device.peBad (s : Device) (core e : Nat) : Bool :=
  5 < peState e || 512 < peFill e || (2 ≤ peState e && s.rd (core / 64) (CLUSTER_PAD_POOL_SLOTS (core % 64 / 8)) ≤ peSlot e)

/-- The pads of a head that hold tokens, in index order. -/
def Device.ptFilled (s : Device) (c : AttCmd) (r : AttRow) (h : Nat) : List Nat :=
  (List.range (s.ptCap c r)).filter fun i => peFill (s.ptEntry c r h i) ≠ 0 && peState (s.ptEntry c r h i) ≠ pFREE

/-- The recent set (R146). -/
def recentOf (filled : List Nat) : List Nat := filled.drop (filled.length - 4)

/-- The 64-bit compare-and-write of an entry by a unit of a die (R141): one operation at the shared port, which meets the entry's error as a read does.
DESIGN CHOICE (208): one that cannot be carried out counts as one whose compare failed. -/
def Device.cas (s : Device) (die unit a old new : Nat) : Device × Bool :=
  let r := s.readChk die unit a 8
  if r.2.1 = stDONE ∧ r.2.2 = old then (r.1.writeWords a 8 new, true) else (r.1, false)

/-- Bytes of a pad's copy, and slots it takes (R136, R148). -/
def padSlots (fmt : Nat) : Nat := if fmt = 8 then 2 else 1
def padCopyBytes (fmt : Nat) : Nat := if fmt = 8 then 262656 else 135680
def slotBytes : Nat := 0x24000

/-- First address of a pool slot (R137). -/
def Device.slotAddr (s : Device) (core n : Nat) : Nat :=
  columnBase (core / 64) (core % 64) + s.rd (core / 64) (CLUSTER_PAD_POOL_BASE_4K (core % 64 / 8)) * 0x1000 + n * slotBytes

/-! ### Slots (R138, R148) -/

/-- A slot's record, and replacing it. -/
def Device.slot (s : Device) (core n : Nat) : PadSlot := SMap.get {} s.att.slots (core * 128 + n)
def Device.setSlot (s : Device) (core n : Nat) (x : PadSlot) : Device :=
  { s with att := { s.att with slots := SMap.put {} s.att.slots (core * 128 + n) x } }

/-- Replace the record of a pad's slots, from its first. -/
def Device.setSlots (s : Device) (core n : Nat) (x : PadSlot) : Device :=
  if x.wide then (s.setSlot core n x).setSlot core (n + 1) x else s.setSlot core n x

/-- Free a pad's slots. -/
def Device.freeSlot (s : Device) (core n : Nat) : Device :=
  let x := s.slot core n
  if x.wide then (s.setSlot core (n / 2 * 2) {}).setSlot core (n / 2 * 2 + 1) {} else s.setSlot core n {}

/-- The slots of a core's pool. -/
def Device.poolSlots (s : Device) (core : Nat) : Nat := s.rd (core / 64) (CLUSTER_PAD_POOL_SLOTS (core % 64 / 8))

/-- Entries selected by commands in flight: those chosen, and those that took another's place. -/
def Device.selectedEntries (s : Device) : List Nat :=
  s.att.cmds.flatMap fun c => c.rows.flatMap fun r =>
    if r.stage = .ended then [] else r.chosen ++ r.sel.map fun p => s.ptEntryPa c r p.head p.pad

/-- A used slot's pad may be evicted (R148): not selected by a command in flight, not recent, not moving. -/
def Device.evictable (s : Device) (core n : Nat) : Bool :=
  let x := s.slot core n
  let e := fun (i : Nat) => match s.paOf (core / 64) x.job (x.base + 8 * i) with | some a => s.readData a 8 | none => 0
  let filled := (List.range x.cap).filter fun i => peFill (e i) ≠ 0 && peState (e i) ≠ pFREE
  x.st = 1 && peResident (s.readData x.entry 8) && !(recentOf filled).contains x.idx && !s.selectedEntries.contains x.entry &&
  !(s.att.moves.any fun m => m.core = core && m.slot / 2 = n / 2 && (x.wide || m.slot = n))

/-- The places a pad may take in a pool: single slots, or pairs from an even slot. -/
def Device.places (s : Device) (core : Nat) (wide : Bool) : List Nat :=
  if wide then (List.range (s.poolSlots core / 2)).map (2 * ·) else List.range (s.poolSlots core)

/-- The slots of a place. -/
def placeSlots (wide : Bool) (n : Nat) : List Nat := if wide then [n, n + 1] else [n]

/-- Count evictions, promotions, misses of a cluster (R161). -/
def Device.padCount (s : Device) (core : Nat) (f : Nat → Fld) : Device := s.addHold (core / 64) (f (core % 64 / 8)) 1

/-- The mover's compare-and-write of an entry for a home core. -/
def Device.moverCas (s : Device) (core a old new : Nat) : Device × Bool := s.cas (core / 64) mPad a old new

/-- Evict the pad of a slot (R148): a clean one at once, a dirty one by a copy to its LP5X copy. -/
def Device.evict (s : Device) (core n : Nat) (w : Work) : Device :=
  let x := s.slot core n
  let e := s.readData x.entry 8
  let first := if x.wide then n / 2 * 2 else n
  if peState e = pPOND then
    let y := s.moverCas core x.entry e (peWithState e pLP5X)
    if y.2 then (y.1.freeSlot core first).padCount core CLUSTER_PAD_MOVES_EVICTED else y.1
  else
    let e' := peWithState e pEVICTING
    let y := s.moverCas core x.entry e e'
    let s1 := y.1
    if ¬ y.2 then s1
    else
    { s1 with att := { s1.att with moves := s1.att.moves ++
      [⟨core, first, false, w, x.lp + peLslot e * slotBytes, x.entry, e'⟩] } }

/-- What a search for a slot gives. -/
inductive SlotFound where
  | got (n : Nat)
  | evicting
  | none_
  deriving DecidableEq, Repr

/-- Obtain a slot (R148): a FREE one, else that of the least recently selected pad that may be evicted. -/
def Device.obtain (s : Device) (core : Nat) (wide : Bool) (w : Work) : Device × SlotFound :=
  let ps := s.places core wide
  match ps.find? fun n => (placeSlots wide n).all fun k => (s.slot core k).st = 0 with
  | some n => (s, .got n)
  | none =>
    let ok := ps.filter fun n => (placeSlots wide n).all fun k => (s.slot core k).st = 0 || s.evictable core k
    let age := fun (n : Nat) => (placeSlots wide n).foldl (fun a k => max a (s.slot core k).stamp) 0
    match ok.foldl (fun (b : Option Nat) n => match b with | some m => if age n < age m then some n else b | none => some n) none with
    | none => (s, .none_)
    | some n =>
      let s1 := (placeSlots wide n).foldl (fun s k => if (s.slot core k).st = 1 && s.evictable core k then s.evict core k w else s) s
      if (placeSlots wide n).all fun k => (s1.slot core k).st = 0 then (s1, .got n) else (s1, .evicting)

/-- Write a slot's header (R136). -/
def Device.slotHeader (s : Device) (core n job entry epoch : Nat) : Device :=
  (s.writeChk (core / 64) mPad (s.slotAddr core n) 512 (job + entry * 2 ^ 64 + epoch * 2 ^ 128)).1

/-- What a slot's record holds for a want: the slot used, and last used now. -/
def Device.wantSlot (s : Device) (q : PadWant) : PadSlot :=
  { st := 1, entry := q.entry, stamp := s.att.count, job := s.workJob q.work, base := q.base, cap := q.cap, idx := q.idx, ref := q.ref, lp := q.lp
    wide := q.wide }

/-- Try a want (R148): a slot obtained starts the promotion's copy or opens the tail; a promotion that finds none is counted. A pad that is being
evicted waits for that to end. -/
def Device.tryWant (s : Device) (q : PadWant) : Device :=
  let e := s.readData q.entry 8
  if peState e = pEVICTING then { s with att := { s.att with wants := s.att.wants ++ [q] } }
  else if peState e ≠ pLP5X then s
  else
    match s.obtain q.core q.wide q.work with
    | (s1, .none_) => if q.opens then s1 else s1.padCount q.core CLUSTER_PAD_MISSES_NO_SLOT
    | (s1, .evicting) => { s1 with att := { s1.att with wants := s1.att.wants ++ [q] } }
    | (s1, .got n) =>
      let e' := peWithSlot (peWithState e (if q.opens then pDIRTY else pPROMOTING)) n
      let y := s1.moverCas q.core q.entry e e'
      if ¬ y.2 then y.1
      else
        let s2 := y.1.setSlots q.core n (y.1.wantSlot q)
        if q.opens then s2.slotHeader q.core n (s2.workJob q.work) q.entry (peEpoch e)
        else { s2 with att := { s2.att with moves := s2.att.moves ++ [⟨q.core, n, true, q.work, q.lp + peLslot e * slotBytes, q.entry, e'⟩] } }

/-- A want for a pad of a row. -/
def Device.wantFor (s : Device) (c : AttCmd) (r : AttRow) (h i : Nat) (opens : Bool) : PadWant :=
  { core := atHome c.words h i, work := c.issue.work, entry := s.ptEntryPa c r h i
    lp := s.ptLpVa c r
    base := ptEntryVa r (s.ptFirst c r h), cap := s.ptCap c r, idx := i, ref := s.ptRef c r
    wide := decide (s.ptFmt c r = 8), opens := opens }

/-- A pad's promotion or opening is under way. -/
def Device.underWay (s : Device) (entry : Nat) : Bool :=
  (s.att.wants.any fun q => q.entry = entry) || (s.att.moves.any fun m => m.entry = entry && m.promote)

/-- RETIRED slots of a core whose earlier epochs have no walkers return to FREE (R150). -/
def Device.reclaim (s : Device) (core : Nat) : Device :=
  (List.range (s.poolSlots core)).foldl (fun s n =>
    let x := s.slot core n
    if x.st = 2 && ([1, 2, 3].all fun k => s.syncVal (x.ref + (x.tag + 65536 - k) % 4) = 0) then s.setSlot core n {} else s) s

/-! ### Epochs (R150) -/

/-- A walker's increment or decrement of a reference counter, counted by its cluster. -/
def Device.refAdd (s : Device) (c : AttCmd) (r : AttRow) (snap : Nat) (up : Bool) : Device :=
  let s1 := s.syncAddFrom c.die (c.lead % 64) (s.ptRef c r + snap % 4) (if up then 1 else -1)
  s1.addWrap c.die (if up then CLUSTER_PAD_AUDIT_REF_ADDS (c.lead % 64 / 8) else CLUSTER_PAD_AUDIT_REF_SUBS (c.lead % 64 / 8)) 1

/-- The snapshot of a row (R150): `raced` are the values that the host writes to CUR_EPOCH between the two reads of each
try, in turn. None after a fourth change. -/
def Device.snapshot (s : Device) (c : AttCmd) (r : AttRow) (raced : List Nat) : Nat → Device × Option Nat
  | 0 => (s, none)
  | n + 1 =>
    let e := s.ptEpoch c r
    let s1 := s.refAdd c r e true
    match raced with
    | [] => (s1, some e)
    | v :: more =>
      let s2 := match s1.paOf c.die (s1.attJob c) r.table with | some a => s1.writeWords a 2 v | none => s1
      if s2.ptEpoch c r = e then (s2, some e) else (s2.refAdd c r e false).snapshot c r more n

/-- An entry is newer than a snapshot (R151). -/
def newer (e snap : Nat) : Bool := let d := (peEpoch e + 65536 - snap) % 65536; 1 ≤ d && d ≤ 32767

/-! ### Reading queries, keys and values -/

/-- Query heads of a row. -/
def Device.nq (s : Device) (c : AttCmd) (r : AttRow) : Nat := s.ptHeads c r * atQpk c.words

/-- Bytes of a row of `n` values in a format, its scales directly after its elements. -/
def rowBytes (fmt n : Nat) : Nat := packedBytes (fmtBits fmt) n + (if isMx fmt then (n + 31) / 32 else 0)

/-- The values of such a row. -/
def rowVals (fmt n data : Nat) : List FV :=
  (List.range n).map fun j =>
    if isMx fmt then decScaled fmt (elemAt data (fmtBits fmt) j) (bits data (8 * (packedBytes (fmtBits fmt) n + j / 32)) 8)
    else decElem fmt (elemAt data (fmtBits fmt) j)

/-- A row of values as its bytes. -/
def rowData (fmt : Nat) (cv : List Nat × List Nat × Conv) : Nat :=
  packBits (fmtBits fmt) cv.1 + 256 ^ packedBytes (fmtBits fmt) cv.1.length * packBits 8 cv.2.1

/-- The walker's read of `n` bytes of a job's virtual range: status and data. -/
def Device.attRead (s : Device) (c : AttCmd) (va n : Nat) : Device × Nat × Nat := s.vRead c.die (c.lead % 64) (s.attJob c) va n

/-- The query vectors of a row, one of 128 values for each head, with the status of their read. -/
def Device.queries (s : Device) (c : AttCmd) (r : AttRow) : Device × Nat × List (List FV) :=
  let n := 128 * s.nq c r
  let x := s.attRead c (atQ c.words + r.idx * rowBytes (atQFmt c.words) n) (rowBytes (atQFmt c.words) n)
  (x.1, x.2.1, cutList 128 (s.nq c r) (rowVals (atQFmt c.words) n x.2.2))

/-- The summary of a pad: MAX and MEAN of each dimension (R142). -/
def Device.summaryVa (s : Device) (c : AttCmd) (r : AttRow) (h i : Nat) : Nat := s.ptSumVa c r + (s.ptFirst c r h + i) * 1024
def Device.summary (s : Device) (c : AttCmd) (r : AttRow) (h i : Nat) : List Nat × List Nat :=
  let a := s.summaryVa c r h i
  ((List.range 128).map fun j => s.vaLoad c.die (s.attJob c) (a + 4 * j) 4,
   (List.range 128).map fun j => s.vaLoad c.die (s.attJob c) (a + 512 + 4 * j) 4)

/-- A pad's score (R143): the largest over the head's query heads. -/
def Device.score (s : Device) (c : AttCmd) (r : AttRow) (qs : List (List FV)) (h i : Nat) : Nat :=
  let m := s.summary c r h i
  let w := atScoreW c.words
  let one := fun (q : List FV) =>
    let q32 := q.map enc32
    let mean := rowSum ((q32.zip m.2).map fun p => mul32 p.1 p.2)
    let mx := rowSum ((q32.zip m.1).map fun p => mul32 (abs32 p.1) p.2)
    add32 (mul32 (sub32 0x3F800000 w) mean) (mul32 w mx)
  let l := ((qs.drop (h * atQpk c.words)).take (atQpk c.words)).map one
  l.foldl (fun b x => if lt32 b x then x else b) (l.headD 0)

/-- Candidates of a head in order of choice (R146): highest score first, a tie to the higher index. -/
def Device.candidates (s : Device) (c : AttCmd) (r : AttRow) (qs : List (List FV)) (h : Nat) : List Nat :=
  let filled := s.ptFilled c r h
  let cs := (filled.take (filled.length - 4)).map fun i => (i, s.score c r qs h i)
  let ins := fun (l : List (Nat × Nat)) (x : Nat × Nat) =>
    (l.takeWhile fun y => lt32 x.2 y.2 || (!lt32 y.2 x.2 && x.1 < y.1)) ++ [x] ++
    (l.dropWhile fun y => lt32 x.2 y.2 || (!lt32 y.2 x.2 && x.1 < y.1))
  (cs.foldl ins []).map (·.1)

/-! ### Selection (R146, R147) -/

/-- Replace a row of a command in flight. -/
def Device.setRow (s : Device) (lead : Nat) (r : AttRow) : Device :=
  { s with att := { s.att with cmds := s.att.cmds.map fun c =>
      if c.lead = lead then { c with rows := c.rows.map fun x => if x.idx = r.idx then r else x } else c } }

/-- A pad is selected: it becomes the most recently used of its core, whose record names it (R138, R148). -/
def Device.touch (s : Device) (c : AttCmd) (r : AttRow) (h i : Nat) : Device :=
  let s1 : Device := { s with att := { s.att with count := s.att.count + 1 } }
  let q := s1.wantFor c r h i false
  s1.setSlots q.core (peSlot (s1.ptEntry c r h i)) (s1.wantSlot q)

/-- Promote a pad of a row and note it in the row, whose selection so far stands (R148). -/
def Device.promote (s : Device) (c : AttCmd) (r : AttRow) (h i : Nat) : Device × AttRow :=
  let s1 := (s.setRow c.lead r).tryWant (s.wantFor c r h i false)
  (s1, if s1.underWay (s.ptEntryPa c r h i) then { r with promoted := r.promoted + 1 } else r)

/-- Substitute a taken pad by the best resident candidate not already selected, or drop it (R147). An entry that R140 refuses breaks the row. -/
def Device.substitute (s : Device) (c : AttCmd) (r : AttRow) (h : Nat) (cands : List Nat) (taken : List Nat) : Device × AttRow :=
  match cands.find? fun i => !taken.contains i && !(r.sel.any fun p => p.head = h && p.pad = i) && peResident (s.ptEntry c r h i) with
  | some i =>
    let e := s.ptEntry c r h i
    (((s.touch c r h i).padCount (atHome c.words h i) CLUSTER_PAD_MISSES_SUBSTITUTED),
      { r with sel := r.sel ++ [⟨h, i, e, false, false, false⟩], subs := r.subs + 1, broken := r.broken || s.peBad (atHome c.words h i) e })
  | none => (s.padCount (atHome c.words h 0) CLUSTER_PAD_MISSES_DROPPED, { r with drops := r.drops + 1 })

/-- Place one chosen pad of a head (R147): select it if it is resident, wait for its promotion, or substitute it. -/
def Device.place (s : Device) (c : AttCmd) (r : AttRow) (h i : Nat) (recent : Bool) (cands taken : List Nat) : Device × AttRow :=
  let e := s.ptEntry c r h i
  if peResident e then (s.touch c r h i, { r with sel := r.sel ++ [⟨h, i, e, recent, false, false⟩] })
  else
    let used := SMap.get 0 r.promos h
    let may := recent || used < atPromoMax c.words
    let x := if may && !s.underWay (s.ptEntryPa c r h i) then s.promote c r h i else (s, r)
    let r1 := if may && !recent then { x.2 with promos := SMap.put 0 x.2.promos h (used + 1) } else x.2
    if (recent || (may && atPromoWait c.words)) && x.1.underWay (s.ptEntryPa c r h i) then
      (x.1, { r1 with sel := r1.sel ++ [⟨h, i, e, recent, true, false⟩], waited := r1.waited + 1 })
    else x.1.substitute c r1 h cands taken

/-- Select the pads of one head (R146). -/
def Device.selectHead (s : Device) (c : AttCmd) (r : AttRow) (qs : List (List FV)) (h : Nat) : Device × AttRow :=
  let cands := s.candidates c r qs h
  let taken := cands.take (atTopK c.words)
  let s1 := (recentOf (s.ptFilled c r h)).foldl (fun (x : Device × AttRow) i => x.1.place c x.2 h i true cands taken) (s, r)
  taken.foldl (fun (x : Device × AttRow) i => x.1.place c x.2 h i false cands taken) s1

/-! ### Appending (R152) -/

/-- The tail pad of a row. -/
def atTail (r : AttRow) : Nat := r.pos / 512

/-- The position check of every head (R152, step 1 and the first part of step 2): a status, DONE where it passes. DEDUCED (209): a tail past PAD_CAP
has no entry, so that only the first token of a pad meets PAD_FULL there. -/
def Device.tailCheck (s : Device) (c : AttCmd) (r : AttRow) : Nat :=
  let t := atTail r
  if s.ptCap c r ≤ t then (if r.pos % 512 = 0 then stPAD_FULL else stPOS_MISMATCH)
  else
    let es := (List.range (s.ptHeads c r)).map fun h => (h, s.ptEntry c r h t)
    if es.any fun p => s.peBad (atHome c.words p.1 t) p.2 then stBAD_TABLE
    else if es.any fun p => peFill p.2 ≠ r.pos % 512 then stPOS_MISMATCH
    else if es.any fun p => peState p.2 = pFREE then stPAD_FULL
    else stDONE

/-- Bring a row's tail pads in: open new ones, promote those that are not resident (R148, R152). -/
def Device.openTails (s : Device) (c : AttCmd) (r : AttRow) : Device :=
  (List.range (s.ptHeads c r)).foldl (fun s h =>
    let e := s.ptEntry c r h (atTail r)
    if peState e = pLP5X && !s.underWay (s.ptEntryPa c r h (atTail r)) then s.tryWant (s.wantFor c r h (atTail r) (decide (peFill e = 0)))
    else s) s

/-- What stands in the way of the append: 0 nothing, 1 a slot or copy still to come, 2 no slot. -/
def Device.tailsReady (s : Device) (c : AttCmd) (r : AttRow) : Nat :=
  let hs := List.range (s.ptHeads c r)
  let e := fun h => s.ptEntry c r h (atTail r)
  if hs.all fun h => peResident (e h) then 0
  else if hs.any fun h => !peResident (e h) && !s.underWay (s.ptEntryPa c r h (atTail r)) then 2 else 1

/-- Offsets in a pad's slot (R136). -/
def offKeys : Nat := 0x200
def offKeyScales : Nat := 0x10200
def offValues (fmt : Nat) : Nat := if fmt = 8 then 0x20200 else 0x10A00
def offValueScales : Nat := 0x20A00
def offStaging : Nat := 0x21200

/-- Write one token's key (R152, step 3): FP32 patterns converted to the table's format, and the key as stored. The conversion sets its flags (R118). -/
def Device.writeKey (s : Device) (core a fmt t : Nat) (key : List Nat) : (Device × Nat) × List Nat :=
  let cv := convRow fmt true (key.map dec32)
  let s := s.numFlags core cv.2.2
  if fmt = 8 then (s.coreWrites core [(a + offKeys + t * 256, 256, packBits 16 cv.1)], cv.1.map (widen 8))
  else
    (s.coreWrites core [(a + offKeys + t * 128, 128, packBits 8 cv.1), (a + offKeyScales + t * 4, 4, packBits 8 cv.2.1)],
      (cv.1.zipIdx).map fun p => enc32 (decScaled fmt p.1 (wd cv.2.1 (p.2 / 32))))

/-- One dimension's block of 32 staged tokens is converted into the value area. -/
def Device.stageOut (s : Device) (core a fmt t j : Nat) : Device × Nat :=
  let r := s.readChk (core / 64) (core % 64) (a + offStaging + j * 64) 64
  if r.2.1 ≠ stDONE then (r.1, r.2.1)
  else
    let b := convBlock fmt true ((List.range 32).map fun k => decElem 8 (elemAt r.2.2 16 k))
    (r.1.numFlags core b.2.2).coreWrites core
      [(a + offValues fmt + j * 512 + t / 32 * 32, 32, packBits 8 b.2.1), (a + offValueScales + j * 16 + t / 32, 1, b.1)]

/-- Write one token's value (R152, step 4): BF16 to staging, and the 128 token blocks when staging holds 32 tokens. -/
def Device.writeValue (s : Device) (core a fmt t : Nat) (val : List Nat) : Device × Nat :=
  if fmt = 8 then s.coreWrites core ((val.zipIdx).map fun p => (a + offValues 8 + p.2 * 1024 + t * 2, 2, p.1))
  else
    let s1 := s.coreWrites core ((val.zipIdx).map fun p => (a + offStaging + (p.2 * 32 + t % 32) * 2, 2, p.1))
    if t % 32 ≠ 31 then s1
    else
      let s2 := (List.range 128).foldl (fun (x : Device × Nat) j => if x.2 ≠ stDONE then x else x.1.stageOut core a fmt t j) s1
      if s2.2 ≠ stDONE then s2 else s2.1.coreWrites core [(a + offStaging, 8192, 0)]

/-- Update a pad's summary with token number `n`, counted from 1 (R142). -/
def Device.writeSummary (s : Device) (c : AttCmd) (r : AttRow) (h i n : Nat) (key : List Nat) : Device × Nat :=
  let rd := if n = 1 then (s, stDONE, 0) else s.attRead c (s.summaryVa c r h i) 1024
  let old := s.summary c r h i
  let mx := (key.zipIdx).map fun p => if n = 1 then abs32 p.1 else max32 (wd old.1 p.2) (abs32 p.1)
  let mean := (key.zipIdx).map fun p =>
    let o := if n = 1 then 0 else wd old.2 p.2
    add32 o (div32 (sub32 p.1 o) (ofInt32 n))
  if rd.2.1 ≠ stDONE then (rd.1, rd.2.1)
  else rd.1.vWrite c.die (c.lead % 64) (s.attJob c) (s.summaryVa c r h i) 1024 (packBits 32 (mx ++ mean))

/-- Append the row's token to every head's tail pad (R152, steps 3 to 5), with the status of its reads. -/
def Device.appendToken (s : Device) (c : AttCmd) (r : AttRow) : Device × Nat :=
  (List.range (s.ptHeads c r)).foldl (fun x h =>
    let s := x.1
    let t := atTail r
    let core := atHome c.words h t
    let e := s.ptEntry c r h t
    let fmt := s.ptFmt c r
    let k := s.attRead c (r.kv + h * 512) 512
    if x.2 ≠ stDONE ∨ k.2.1 ≠ stDONE then (k.1, if x.2 = stDONE then k.2.1 else x.2)
    else
      let a := s.slotAddr core (peSlot e)
      let keys := (List.range 128).map fun j => widen 8 (elemAt k.2.2 16 j)
      let vals := (List.range 128).map fun j => elemAt k.2.2 16 (128 + j)
      let wk := k.1.writeKey core a fmt (r.pos % 512) keys
      let s1 := if wk.1.2 ≠ stDONE then wk.1 else wk.1.1.writeValue core a fmt (r.pos % 512) vals
      let s2 := if s1.2 ≠ stDONE then s1 else s1.1.writeSummary c r h t (r.pos % 512 + 1) wk.2
      if s2.2 ≠ stDONE then s2
      else ((s2.1.cas (core / 64) (core % 64) (s.ptEntryPa c r h t) e (peWithFill (peWithState e pDIRTY) (r.pos % 512 + 1))).1, stDONE)) (s, stDONE)

/-! ### Partials (R153, R154) -/

/-- 2^`x` by the gate chain of R129, exactly 1 at the greater of two maxima (R154). -/
def exp2g (x : Nat) : Nat := (gateFn 0x09 x).1

/-- Combine two partials (R154). -/
def combine : Option Partial → Option Partial → Option Partial
  | none, b => b
  | a, none => a
  | some a, some b =>
    let m := max32 a.m b.m
    let fa := if a.m = m then 0x3F800000 else exp2g (sub32 a.m m)
    let fb := if b.m = m then 0x3F800000 else exp2g (sub32 b.m m)
    some ⟨m, add32 (mul32 fa a.l) (mul32 fb b.l),
      (a.o.zip b.o).map fun p => add32 (mul32 fa p.1) (mul32 fb p.2)⟩

/-- One level of a pairwise tree of combinations; an odd last one passes up unchanged. -/
def combineUp : List (Option Partial) → List (Option Partial)
  | a :: b :: r => combine a b :: combineUp r
  | l => l

/-- A pairwise tree; `n` bounds its levels. -/
def combineTree : Nat → List (Option Partial) → Option Partial
  | 0, l => l.headD none
  | n + 1, l => if l.length ≤ 1 then l.headD none else combineTree n (combineUp l)

/-- Trees over lists of heads: the nodes' partials, head by head. -/
def combineHeads (nodes : List (List (Option Partial))) (nq : Nat) : List (Option Partial) :=
  (List.range nq).map fun g => combineTree 8 (nodes.map fun l => l.getD g none)

/-- The partial of one query head over one pad (R153): the slot's arrays as read, its fill and format. -/
def padPartial (scale fmt fill : Nat) (q : List FV) (keys kscales vals vscales : Nat) (staged : List Nat) : Option Partial :=
  let mx := isMx fmt
  let kv := fun (t j : Nat) =>
    if mx then decScaled fmt (elemAt keys 8 (t * 128 + j)) (elemAt kscales 8 (t * 4 + j / 32)) else decElem 8 (elemAt keys 16 (t * 128 + j))
  let z := (List.range fill).map fun t =>
    mul32 scale (dotAcc mx 0 (cutList 32 4 (q.zip ((List.range 128).map (kv t)))))
  if z.isEmpty then none
  else
    let m := rowMax z
    let p := z.map fun x => exp2g (sub32 x m)
    let done := if mx then fill / 32 * 32 else fill
    let o := (List.range 128).map fun j =>
      let v := fun (t : Nat) =>
        if mx then decScaled fmt (elemAt vals 8 (j * 512 + t)) (elemAt vscales 8 (j * 16 + t / 32)) else decElem 8 (elemAt vals 16 (j * 512 + t))
      let acc := dotAcc mx 0 (cutList 32 17 (((p.take done).zipIdx).map fun x => (dec32 x.1, v x.2)))
      ((p.drop done).zipIdx).foldl (fun a x => fma32 x.1 (widen 8 (elemAt (wd staged j) 16 x.2)) a) acc
    some ⟨m, rowSum p, o⟩

/-- A home core's reads of one pad of `fill` tokens (R136, R152): keys, key scales, values and value scales, and the values still staged. State, the
first status that is not DONE, and the arrays, with the staged values one dimension each. -/
def Device.readPad (s : Device) (core a fmt fill : Nat) : Device × Nat × List Nat :=
  let parts := if fmt = 8 then [(offKeys, 131072), (offValues 8, 131072)]
    else [(offKeys, 65536), (offKeyScales, 2048), (offValues fmt, 65536), (offValueScales, 2048)] ++
      (if fill % 32 = 0 then [] else (List.range 128).map fun j => (offStaging + j * 64, 2 * (fill % 32)))
  parts.foldl (fun x p =>
    let r := x.1.readChk (core / 64) (core % 64) (a + p.1) p.2
    (r.1, if x.2.1 = stDONE then r.2.1 else x.2.1, x.2.2 ++ [r.2.2])) (s, stDONE, [])

/-- One selected pad's partials for the query heads of its key-value head, with the status of its reads. -/
def Device.attendPad (s : Device) (c : AttCmd) (r : AttRow) (qs : List (List FV)) (h i : Nat) : Device × Nat × List (Option Partial) :=
  let e := s.ptEntry c r h i
  let core := atHome c.words h i
  let fmt := s.ptFmt c r
  let x := s.readPad core (s.slotAddr core (peSlot e)) fmt (peFill e)
  let a := x.2.2
  let mine := (qs.drop (h * atQpk c.words)).take (atQpk c.words)
  let ps := mine.map fun q =>
    if fmt = 8 then padPartial (atScale c.words) 8 (peFill e) q (wd a 0) 0 (wd a 1) 0 []
    else padPartial (atScale c.words) fmt (peFill e) q (wd a 0) (wd a 1) (wd a 2) (wd a 3) (a.drop 4)
  (x.1, x.2.1, ps)

/-- The partials of a row on one home core (R153, R155): its pads of each head in ascending index, left-leaning. -/
def Device.corePartials (s : Device) (c : AttCmd) (r : AttRow) (qs : List (List FV)) (core : Nat) : Device × Nat × List (Option Partial) :=
  (List.range (s.ptHeads c r)).foldl (fun (x : Device × Nat × List (Option Partial)) h =>
    let pads := ((r.sel.filter fun p => p.head = h && atHome c.words h p.pad = core).map (·.pad)).mergeSort
    let y := pads.foldl (fun (y : Device × Nat × List (Option Partial)) i =>
      let z := y.1.attendPad c r qs h i
      (z.1, if y.2.1 = stDONE then z.2.1 else y.2.1, (y.2.2.zip z.2.2).map fun p => combine p.1 p.2)) (x.1, x.2.1, List.replicate (atQpk c.words) none)
    (y.1, y.2.1, x.2.2 ++ y.2.2)) (s, stDONE, [])

/-! ### Ends of rows (R150, R160) -/

/-- The home cores of a command under a node of a merge level: 0 the core itself, 1 its cluster, 2 its die, 3 the package. -/
def underNode (w : List Nat) (level node : Nat) : List Nat :=
  (atHomes w).filter fun k => match level with | 0 => k = node | 1 => k / 8 = node | 2 => k / 64 = node | _ => true

/-- The nodes of a level that a command's home set reaches. -/
def homeNodes (w : List Nat) (level : Nat) : List Nat :=
  ((atHomes w).map fun k => match level with | 0 => k | 1 => k / 8 | 2 => k / 64 | _ => 0).eraseDups

/-- The children of a node: the level below it, in order; absent ones are EMPTY. -/
def childNodes (level node : Nat) : List Nat :=
  match level with
  | 1 => (List.range 8).map (node * 8 + ·)
  | 2 => (List.range 8).map (node * 8 + ·)
  | _ => List.range 4

/-- A row's partial at a node, once it has arrived at the level above. -/
def AttRow.arrived (r : AttRow) (level node : Nat) : Option (List (Option Partial)) :=
  (r.parts.find? fun p => p.1 = level * 256 + node && p.2.1).map (·.2.2)

/-- The clusters' trees of a row that ends with some of its core partials in take the missing ones as EMPTY. DESIGN CHOICE (210): so that R162's
counts agree. -/
def Device.settleTrees (s : Device) (c : AttCmd) (r : AttRow) : Device :=
  (homeNodes c.words 1).foldl (fun s k =>
    let kids := (homeNodes c.words 0).filter fun x => x / 8 = k
    let inn := (kids.filter fun x => (r.arrived 0 x).isSome).length
    if inn = 0 ∨ inn = kids.length then s
    else (s.addWrap (k / 8) (CLUSTER_MERGE_AUDIT_PARTIAL_IN (k % 8)) (8 - inn)).addWrap (k / 8) (CLUSTER_MERGE_AUDIT_PARTIAL_OUT (k % 8)) 1) s

/-- A row ends (R150, R160): its reference is given back, its report is written, and the command takes its status; a row that would end DONE keeps
EPOCH_STALE (R151). An uncorrectable word ends the job (R69). -/
def Device.endRow (s : Device) (c : AttCmd) (r : AttRow) (status : Nat) : Device :=
  let st := if status = stDONE then r.status else status
  let s := if r.stage = .merge then s.settleTrees c r else s
  let s1 := if r.took then s.refAdd c r r.snap false else s
  let rep := packBits 8 [st, min 255 r.selected, min 255 r.subs, min 255 r.drops, min 255 r.reread, min 255 r.promoted, min 255 r.waited, 0] +
    2 ^ 64 * r.snap
  let s2 := s1.opWrite c.lead c.issue.work ⟨0, atReport c.words + 16 * r.idx⟩ 16 rep
  let s3 := if st = stDONE then s2
    else if st = stUNCORRECTABLE then s2.failWork c.issue.work st
    else c.issue.cores.foldl (fun s k => s.cmdStatus k st 0) s2
  s3.setRow c.lead { r with stage := .ended, status := st, took := false }

/-- A row's final partials written as its output (R154): EMPTY heads give zeros and count as dropped. -/
def Device.writeOutput (s : Device) (c : AttCmd) (r : AttRow) (ps : List (Option Partial)) : Device × AttRow :=
  let fmt := atOutFmt c.words
  let vals := ps.flatMap fun p => match p with
    | some x => let k := recip32 x.l; x.o.map fun v => mul32 v k
    | none => List.replicate 128 0
  let cv := convRow fmt true (vals.map dec32)
  let n := rowBytes fmt vals.length
  let s1 := (s.opWrite c.lead c.issue.work ⟨0, atOut c.words + r.idx * n⟩ n (rowData fmt cv)).numFlags c.lead cv.2.2
  let empty := (ps.filter (·.isNone)).length
  let s2 := s1.addHold c.die (CLUSTER_PAD_MISSES_DROPPED (c.lead % 64 / 8)) empty
  (s2, { r with drops := r.drops + empty })

/-! ### Use and merging (R151, R155) -/

/-- Re-read a row's selected pads at use (R151): the row with the pads that remain, its counts, and whether it must wait
for promotions. A newer entry counts as REREAD once. -/
def Device.reuse (s : Device) (c : AttCmd) (r : AttRow) (qs : List (List FV)) : Device × AttRow :=
  r.sel.foldl (fun (x : Device × AttRow) p =>
    let e := x.1.ptEntry c r p.head p.pad
    let core := atHome c.words p.head p.pad
    let nw := newer e r.snap
    let was := p.reread
    if nw && peState e = pFREE then
      (x.1.padCount core CLUSTER_PAD_MISSES_DROPPED, { x.2 with drops := x.2.drops + 1, status := stEPOCH_STALE })
    else
      let p := { p with reread := p.reread || nw }
      let r1 := { x.2 with reread := x.2.reread + (if nw && !was then 1 else 0), broken := x.2.broken || x.1.peBad core e }
      let others := (r.sel.filter fun q => q.head = p.head).map (·.pad)
      if peResident e then (x.1, { r1 with sel := r1.sel ++ [{ p with entry := e, wait := false }] })
      else if p.wait && x.1.underWay (x.1.ptEntryPa c r p.head p.pad) then (x.1, { r1 with sel := r1.sel ++ [p] })
      else if p.wait && (!nw || was) then x.1.substitute c r1 p.head (x.1.candidates c r qs p.head) others
      else
        let y := x.1.place c r1 p.head p.pad p.recent (x.1.candidates c r qs p.head) others
        (y.1, { y.2 with sel := y.2.sel.map fun q => if q.head = p.head ∧ q.pad = p.pad then { q with reread := p.reread } else q }))
    (s, { r with sel := [] })

/-- The core partials of a row, once its pads are all at hand; a word that cannot be corrected ends the row and the job
(R69). With MERGE_SCOPE 0 each core writes its own output and the row ends. -/
def Device.attend (s : Device) (c : AttCmd) (r : AttRow) (qs : List (List FV)) : Device :=
  let x := (atHomes c.words).foldl (fun (x : Device × Nat × List (Nat × Bool × List (Option Partial))) core =>
    let y := x.1.corePartials c r qs core
    (y.1, if x.2.1 = stDONE then y.2.1 else x.2.1, x.2.2 ++ [(core, false, y.2.2)])) (s, stDONE, [])
  let r1 := { r with parts := x.2.2, stage := .merge, selected := r.sel.length }
  if x.2.1 ≠ stDONE then x.1.endRow c r1 x.2.1
  else if atScope c.words = 0 then
    let y := x.2.2.foldl (fun (y : Device × AttRow) p => y.1.writeOutput c y.2 p.2.2) (x.1, r1)
    y.1.endRow c y.2 stDONE
  else x.1.setRow c.lead r1

/-- Pads of a head that its row selects (R146): the recent set, and the taken candidates. -/
def Device.chooses (s : Device) (c : AttCmd) (r : AttRow) (qs : List (List FV)) (h : Nat) : List Nat :=
  recentOf (s.ptFilled c r h) ++ (s.candidates c r qs h).take (atTopK c.words)

/-- The walker's checked reads of several ranges of a job: state, and the first status that is not DONE. -/
def Device.attReads (s : Device) (c : AttCmd) (l : List (Nat × Nat)) : Device × Nat :=
  l.foldl (fun (x : Device × Nat) p => let y := x.1.attRead c p.1 p.2; (y.1, if x.2 = stDONE then y.2.1 else x.2)) (s, stDONE)

/-- What selection reads of a row's table (R143, R146): the entries of its heads, and the summaries of the candidates. -/
def Device.tableReads (s : Device) (c : AttCmd) (r : AttRow) : List (Nat × Nat) :=
  (List.range (s.ptHeads c r)).flatMap fun h =>
    let filled := s.ptFilled c r h
    (ptEntryVa r (s.ptFirst c r h), 8 * s.ptCap c r) :: (filled.take (filled.length - 4)).map fun i => (s.summaryVa c r h i, 1024)

/-- A row's pads at use (R151): their entries are read again; the row waits, ends, or is attended. -/
def Device.useRow (s : Device) (c : AttCmd) (r : AttRow) (qs : List (List FV)) : Device :=
  let y := s.attReads c (r.sel.map fun p => (ptEntryVa r (s.ptFirst c r p.head + p.pad), 8))
  if y.2 ≠ stDONE then y.1.endRow c r y.2
  else
    let x := y.1.reuse c r qs
    if x.2.broken then x.1.endRow c x.2 stBAD_TABLE
    else if x.2.sel.any (·.wait) then x.1.setRow c.lead { x.2 with stage := .wait } else x.1.attend c x.2 qs

/-- Go on with a row (R146 to R153) as far as slots and copies allow. -/
def Device.rowOn (s : Device) (c : AttCmd) (r : AttRow) : Device :=
  match r.stage with
  | .append =>
    let ready := if atAppend c.words then s.tailsReady c r else 0
    if ready = 2 then s.endRow c r stNO_SLOT
    else if ready = 1 then s
    else
      let s1 := if atAppend c.words then s.appendToken c r else (s, stDONE)
      let q := s1.1.queries c r
      let t := q.1.attReads c (q.1.tableReads c r)
      if s1.2 ≠ stDONE then s1.1.endRow c r s1.2
      else if q.2.1 ≠ stDONE then q.1.endRow c r q.2.1
      else if t.2 ≠ stDONE then t.1.endRow c r t.2
      else
        let hs := List.range (s.ptHeads c r)
        let bad := hs.any fun h => (t.1.chooses c r q.2.2 h).any fun i => t.1.peBad (atHome c.words h i) (t.1.ptEntry c r h i)
        if bad then t.1.endRow c r stBAD_TABLE
        else
          let r1 := { r with chosen := hs.flatMap fun h => (t.1.chooses c r q.2.2 h).map fun i => t.1.ptEntryPa c r h i }
          let x := hs.foldl (fun (x : Device × AttRow) h => x.1.selectHead c x.2 q.2.2 h) (t.1.setRow c.lead r1, r1)
          if x.2.broken then x.1.endRow c x.2 stBAD_TABLE
          else if x.2.sel.any (·.wait) then x.1.setRow c.lead { x.2 with stage := .wait } else x.1.useRow c x.2 q.2.2
  | .wait =>
    let q := s.queries c r
    if q.2.1 ≠ stDONE then q.1.endRow c r q.2.1 else q.1.useRow c r q.2.2
  | _ => s

/-- Pads that a row will hold after its append, and the range of a bucket (R157). -/
def Device.padsAfter (s : Device) (c : AttCmd) (r : AttRow) : Nat :=
  (s.ptFilled c r 0).length + (if atAppend c.words && r.pos % 512 = 0 then 1 else 0)
def inBucket (b n : Nat) : Bool := if b = 0 then n = 1 else 2 ^ (b - 1) < n && n ≤ 2 ^ b

/-- Start a row (R139, R150, R152, R157). -/
def Device.rowStart (s : Device) (c : AttCmd) (r : AttRow) (raced : List Nat) : Device :=
  let y := s.attRead c r.table 0x40
  if y.2.1 ≠ stDONE then y.1.endRow c r y.2.1
  else let s := y.1; if ¬ s.ptOk c r then s.endRow c r stBAD_TABLE
  else
    match s.snapshot c r raced 4 with
    | (s1, none) => s1.endRow c r stEPOCH_RETRY
    | (s1, some e) =>
      let r1 := { r with snap := e, took := true }
      let s2 := s1.setRow c.lead r1
      if ¬ inBucket (atBucket c.words) (s2.padsAfter c r1) then s2.endRow c r1 stBUCKET_MISS
      else
        let t := if atAppend c.words then s2.tailCheck c r1 else stDONE
        if t ≠ stDONE then s2.endRow c r1 t
        else
          let s3 := if atAppend c.words then s2.openTails c r1 else s2
          s3.rowOn c r1

/-- Go on with every row that waits. -/
def Device.rowsOn (s : Device) : Device :=
  s.att.cmds.foldl (fun s c => c.rows.foldl (fun s r => if r.stage = .append || r.stage = .wait then s.rowOn c r else s) s) s

/-! ### The command -/

/-- The checks of an attention command (R127, R159). -/
def Device.atChecks (s : Device) (i : Issue) (w : List Nat) : List Check :=
  let ring := match i.work with | .ring g => if g = frameRing then none else some g | .slice _ _ => none
  let model := match ring with
    | some g => let d := (s.ring g).desc; if rdModelVa d = 0 then none else some (s.mdQpk (g / 65536) (rdJob d) (rdModelVa d))
    | none => none
  [⟨1, 1, !(atQFmt w = 3 || atQFmt w = 8) || !(atOutFmt w = 3 || atOutFmt w = 8 || atOutFmt w = 0xA)⟩,
   ⟨2, 6, atRowTab w % 64 ≠ 0⟩, ⟨2, 8, atQ w % 64 ≠ 0⟩, ⟨2, 10, atOut w % 64 ≠ 0⟩, ⟨2, 12, atReport w % 64 ≠ 0⟩,
   ⟨9, 2, bits (wd w 2) 0 8 ≠ 0⟩, ⟨9, 5, bits (wd w 5) 4 12 ≠ 0⟩, ⟨9, 7, bits (wd w 7) 16 16 ≠ 0⟩, ⟨9, 9, bits (wd w 9) 16 16 ≠ 0⟩,
   ⟨9, 11, bits (wd w 11) 16 16 ≠ 0⟩, ⟨9, 13, bits (wd w 13) 16 16 ≠ 0⟩, ⟨9, 14, wd w 14 ≠ 0⟩, ⟨9, 15, wd w 15 ≠ 0⟩,
   ⟨0xA, 1, 64 < atTopK w || 64 < atPromoMax w⟩, ⟨0xA, 3, !(le32 0 (atScoreW w) && le32 (atScoreW w) 0x3F800000)⟩,
   ⟨0xB, 2, 8 < atHomeLog2 w || 256 < atHomeBase w + 2 ^ atHomeLog2 w⟩,
   ⟨0xC, 2, s.workJob i.work ≠ 0 && (atHomes w).any s.reservedCore⟩,
   ⟨0xD, 2, 12 < atBucket w⟩, ⟨0xD, 5, match model with | some q => atQpk w ≠ q | none => false⟩]

/-- The row of the row table with index `k`. -/
def Device.rowOf (s : Device) (die job : Nat) (w : List Nat) (k : Nat) : AttRow :=
  let a := atRowTab w + 32 * k
  { idx := k, table := s.vaLoad die job a 6, kv := s.vaLoad die job (a + 8) 6, pos := s.vaLoad die job (a + 16) 4 }

/-- The pages of a command's row table, queries, outputs and reports, and of its rows' tables, summaries, keys and values
(R102, R159); of a row whose header breaks R139 the header alone. -/
def atPagesFirst (job : Nat) (w : List Nat) : List (Nat × Bool) :=
  ((pagesOf job (atRowTab w) (32 * atRows w)).map fun p => (p, false)) ++
  ((pagesOf job (atReport w) (16 * atRows w)).map fun p => (p, true))
def Device.atPagesRows (s : Device) (c : AttCmd) : List (Nat × Bool) :=
  let job := s.attJob c
  let w := c.words
  (c.rows.flatMap fun r => (pagesOf job r.table 0x40).map fun p => (p, false)) ++
  (c.rows.filter (s.ptHeaderOk c)).flatMap fun r =>
    let n := 128 * s.nq c r
    let qb := rowBytes (atQFmt w) n
    let ob := rowBytes (atOutFmt w) n
    ((pagesOf job (ptEntryVa r (s.ptFirst c r 0)) (8 * s.ptHeads c r * s.ptCap c r)).map fun p => (p, true)) ++
    ((pagesOf job (s.summaryVa c r 0 0) (1024 * s.ptHeads c r * s.ptCap c r)).map fun p => (p, atAppend w)) ++
    (if atAppend w then (pagesOf job r.kv (512 * s.ptHeads c r)).map fun p => (p, false) else []) ++
    ((pagesOf job (atQ w + r.idx * qb) qb).map fun p => (p, false)) ++ ((pagesOf job (atOut w + r.idx * ob) ob).map fun p => (p, true))

/-- Run an attention command that has passed its checks: its home cores reclaim slots, its pages are translated, and its
rows start in order. A query format that does not pair with a row's table is refused (R121). -/
def Device.attRun (s : Device) (i : Issue) (w : List Nat) (raced : List (List Nat)) (coll : Option (Nat × Nat)) : Device :=
  let lead := i.cores.headD 0
  let job := s.workJob i.work
  let s0 := (atHomes w).foldl Device.reclaim s
  let rows := (List.range (atRows w)).map (s0.rowOf (lead / 64) job w)
  let c : AttCmd := { issue := i, words := w, rows := rows, coll := coll }
  let x := s0.openPages lead i (atPagesFirst job w ++ s0.atPagesRows c)
  if ¬ x.2 then x.1
  else if rows.any fun r => x.1.ptOk c r && !pairOk (atQFmt w) (x.1.ptFmt c r) then
    i.cores.foldl (fun s k => s.refuse k i.work ⟨1, 1, true⟩) x.1
  else
    let y := x.1.attRead c (atRowTab w) (32 * atRows w)
    if y.2.1 ≠ stDONE then
      if y.2.1 = stUNCORRECTABLE then y.1.failWork i.work y.2.1 else i.cores.foldl (fun s k => s.cmdStatus k y.2.1 0) y.1
    else
      let s1 : Device := { y.1 with att := { y.1.att with cmds := y.1.att.cmds ++ [c] } }
      (rows.zipIdx).foldl (fun s r => s.rowStart c r.1 (raced.getD r.2 [])) s1

/-! ### The mover's ends (R148, R149) -/

/-- The pad mover's translation of a job's address, which no cache of its own holds (R148): job 0's pinned pages, another job's walk. -/
def Device.moverPa (s : Device) (die job va : Nat) (write : Bool) : Device × XRes :=
  if ¬ s.on 0 XLATE_CTL_EN then (s, .off)
  else if job = 0 then (s, match s.paOf die 0 va with | some a => .pa a | none => .fault fkPIN_MISS 0)
  else match s.walk die mPad job va with
    | (s1, .error r) => (s1, r)
    | (s1, .ok (e, l)) => (s1, match rightsFault (teRd e) (teW e) write with | some k => .fault k 0 | none => .pa (teAddr e + va % 2 ^ l))

/-- What stands in the way of one page of a copy between a job's virtual range and a slot: 0 nothing, else a fault kind. -/
def Device.copyPage (s : Device) (core job va pa n p : Nat) (toVa : Bool) : Device × Nat :=
  let size := if job = 0 then 0x200000 else 0x10000
  let lo := max va p
  let hi := min (va + n) (p + size)
  let x := s.moverPa (core / 64) job lo toVa
  match x.2 with
  | .pa a =>
    let slot := pa + (lo - va)
    let ok := x.1.accessStatus (core / 64) mPad slot (hi - lo) (!toVa) = stDONE ∧ x.1.accessStatus (core / 64) mPad a (hi - lo) toVa = stDONE
    let z := x.1.carried (core / 64) mPad job [(slot, hi - lo), (a, hi - lo)]
    let y := if toVa then z.copyChk slot a (hi - lo) else z.copyChk a slot (hi - lo)
    if ok ∧ ¬ y.2 then (y.1, 0) else (if ok then y.1 else x.1, fkTABLE_UE)
  | .fault k _ => (x.1, k)
  | _ => (x.1, if job = 0 then fkPIN_MISS else fkNOT_PRESENT)

/-- Copy between a job's virtual range and a slot of a core's pool, page by page, up to the first that cannot be copied. -/
def Device.copyVa (s : Device) (core job va pa n : Nat) (toVa : Bool) : Device × Nat :=
  (pagesOf job va n).foldl (fun (x : Device × Nat) p => if x.2 ≠ 0 then x else x.1.copyPage core job va pa n p toVa) (s, 0)

/-- The move that fills or empties a slot. -/
def Device.moveOf (s : Device) (core n : Nat) (promote : Bool) : Option PadMove :=
  s.att.moves.find? fun m => m.core = core && m.slot = n && m.promote = promote

/-- A move is over: wants that waited for a slot of the core are tried again, and rows go on. -/
def Device.afterMove (s : Device) (m : PadMove) : Device :=
  let s1 : Device := { s with att := { s.att with moves := s.att.moves.filter (· ≠ m), wants := s.att.wants.filter (·.core ≠ m.core) } }
  ((s.att.wants.filter (·.core = m.core)).foldl Device.tryWant s1).rowsOn

/-- A terminal fault of the mover (R148). -/
def Device.moverFault (s : Device) (m : PadMove) (kind : Nat) : Device :=
  let s1 := s.raiseFault (m.core / 64) mPad m.work 0 kind m.va false []
  s1.setFaults (s1.xlate.faults.map fun f => if f.unit = mPad && f.stage = .raised then { f with terminal := true } else f)

/-- The body of PAD_COPY_DONE (R148, R149): the promotion's copy is complete. A translation fault or uncorrectable word
returns the entry to LP5X; an entry changed meanwhile discards the work. -/
def padCopyDoneBody (core n : Nat) (upsets : List Upset) (s : Device) : Device :=
  let s := s.arise upsets
  match s.moveOf core n true with
  | none => s
  | some m =>
    let job := s.workJob m.work
    let len := if (s.slot core n).wide then padCopyBytes 8 else padCopyBytes 3
    let x := s.copyVa core job m.va (s.slotAddr core n) len false
    let y := x.1.moverCas core m.entry m.value (peWithState m.value (if x.2 = 0 then pPOND else pLP5X))
    let s1 :=
      if x.2 ≠ 0 then (y.1.freeSlot core n).moverFault m x.2
      else if y.2 then (y.1.slotHeader core n job m.entry (peEpoch m.value)).padCount core CLUSTER_PAD_MOVES_PROMOTED
      else y.1.freeSlot core n
    s1.afterMove m

/-- The body of PAD_EVICTION_ACK (R148, R149): the slot's copy is acknowledged and the entry goes to LP5X; a slot whose
entry was edited meanwhile stays RETIRED. DESIGN CHOICE (211): a copy that meets a translation fault, or a word that cannot be read, raises the mover's
terminal fault as a promotion's does, an uncorrectable word of the slot ends the job (R159), and the pad is given up. -/
def padEvictionAckBody (core n : Nat) (s : Device) : Device :=
  match s.moveOf core n false with
  | none => s
  | some m =>
    let x := s.slot core n
    let len := if x.wide then 2 * slotBytes else slotBytes
    let edited := s.readData m.entry 8 ≠ m.value
    let c := if edited then (s, 0) else s.copyVa core x.job m.va (s.slotAddr core n) len true
    let y := c.1.moverCas core m.entry m.value (peWithState m.value pLP5X)
    let s1 :=
      if ¬ y.2 then y.1.setSlots core n { x with st := 2, tag := peEpoch (y.1.readData m.entry 8) }
      else if c.2 ≠ 0 then
        let t := (y.1.freeSlot core n).moverFault m c.2
        if c.2 = fkTABLE_UE then t.failWork m.work stUNCORRECTABLE else t
      else (y.1.freeSlot core n).padCount core CLUSTER_PAD_MOVES_EVICTED
    s1.afterMove m

/-- The pool and slot that an entry's new value names (R138, R140): in the pool that holds the entry's pad, or else in one of the edited cluster's.
DESIGN CHOICE (212): which of the eight, the block cannot tell, so it is free. -/
def Device.editCore (s : Device) (die k a : Nat) : Device × Nat :=
  match s.att.slots.find? fun x => x.2.entry = a && x.2.st = 1 with
  | some x => (s, x.1 / 128)
  | none => ({ s with fresh := s.fresh + 1 }, die * 64 + k * 8 + Config.freeWord s.fresh % 8)

/-- The slots that follow an edit of the entry at `a` from `old` to `new` (R138, R148): the one that the old value names and the new one does not is
RETIRED under the new value's epoch; the one that the new value names is USED, and its header bears the new epoch (R136). -/
def Device.editSlots (s : Device) (die k a old new : Nat) : Device :=
  let named := fun (e : Nat) => peResident e || peState e = pPROMOTING || peState e = pEVICTING
  let x := if named new then s.editCore die k a else (s, 0)
  let mine := s.att.slots.filter fun x => x.2.entry = a && x.2.st = 1
  let s1 := if named old && !(named new && peSlot new = peSlot old) then
      mine.foldl (fun s x => s.setSlot (x.1 / 128) (x.1 % 128) { x.2 with st := 2, tag := peEpoch new }) x.1
    else x.1
  if ¬ named new then s1
  else
    let n := peSlot new
    let was := s1.slot x.2 n
    let job := if was.entry = a ∧ was.st = 1 then was.job else ((mine.head?.map fun y => y.2.job).getD (s1.readData (s1.slotAddr x.2 n) 2 % 4096))
    (s1.setSlots x.2 n (if was.entry = a ∧ was.st = 1 then was
      else { (mine.head?.map (·.2)).getD {} with st := 1, entry := a, stamp := s1.att.count, job := job })).slotHeader x.2 n job a (peEpoch new)

/-- The body of PAD_EDIT (R141, R149, R161): the host's compare-and-write of an entry. DESIGN CHOICE (208): an entry that cannot be read answers
UNMAPPED. -/
def padEditBody (die k value : Nat) (s : Device) : Device :=
  if ¬ bit value 30 then s
  else if s.on die (CLUSTER_PAD_EDIT_CTL_BUSY k) then s.set die (CLUSTER_PAD_STATUS_RANGE_ERR k)
  else
    let a := (s.rd die (CLUSTER_PAD_EDIT_ADDR_LO_ADDR k) + 2 ^ 32 * (s.rd die (CLUSTER_PAD_EDIT_ADDR_HI_ADDR k) % 65536)) / 8 * 8
    let old := s.rd die (CLUSTER_PAD_EDIT_OLD_LO_VALUE k) + 2 ^ 32 * s.rd die (CLUSTER_PAD_EDIT_OLD_HI_VALUE k)
    let new := s.rd die (CLUSTER_PAD_EDIT_NEW_LO_VALUE k) + 2 ^ 32 * s.rd die (CLUSTER_PAD_EDIT_NEW_HI_VALUE k)
    let result := fun (s : Device) (r : Nat) => s.wr die (CLUSTER_PAD_EDIT_CTL_RESULT k) r
    if 4 * pondDieBytes < a + 8 then result s 3
    else
      let x := s.readChk die mPad a 8
      let e := x.2.2
      if x.2.1 ≠ stDONE then result x.1 3
      else if peState e = pPROMOTING ∨ peState e = pEVICTING then result x.1 2
      else if e ≠ old then
        result ((x.1.wr die (CLUSTER_PAD_EDIT_OLD_LO_VALUE k) e).wr die (CLUSTER_PAD_EDIT_OLD_HI_VALUE k) (e / 2 ^ 32)) 1
      else result ((x.1.writeWords a 8 new).editSlots die k a old new) 0

end Sys2Proof.Machine
end

