-- ==== Sys2Proof/Machine/Recurrent.lean ====
section
/-!
DEFINITION. Recurrent and state-carrying operators (chapter 7): the state block, the chunk command and its barriers, the
step, anchor steps, stops inside a step, and state swaps.
-/
namespace Sys2Proof.Machine

/-! ### The state block (R169) -/

/-- A state block's header as a 512-bit number, as a read returns it. -/
def Device.stHeader (s : Device) (core off : Nat) : Nat := s.readData (coreStoreBase (core / 64) (core % 64) + off) 64

/-- The core's read of it, where the block can lie there: state, and status. -/
def Device.headerRead (s : Device) (core off : Nat) : Device × Nat :=
  if off % 64 = 0 ∧ off + 64 ≤ 0x40000 then
    let r := s.readChk (core / 64) (core % 64) (coreStoreBase (core / 64) (core % 64) + off) 64
    (r.1, r.2.1)
  else (s, stDONE)

/-- `n` bytes of a header from byte `k`. -/
def hb (h k n : Nat) : Nat := bits h (8 * k) (8 * n)

/-- The header's fields. -/
def shGen (h : Nat) : Nat := hb h 0 4
def shResident (h : Nat) : Bool := bit h 32
def shComp (h : Nat) : Bool := bit h 33
def shFeedback (h : Nat) : Bool := bit h 34
def shASrc (h : Nat) : Bool := bit h 35
def shUForm (h : Nat) : Nat := bits h 36 2
def shYForm (h : Nat) : Bool := bit h 38
def shAFmt (h : Nat) : Nat := bits h 40 4
def shBFmt (h : Nat) : Nat := bits h 44 4
def shOutFmt (h : Nat) : Nat := bits h 48 4
def shRows (h : Nat) : Nat := hb h 8 1 + 1
def shWc (h : Nat) : Nat := hb h 10 2
def shKx (h : Nat) : Nat := hb h 12 2
def shAnchorN (h : Nat) : Nat := hb h 14 2
def shStep (h : Nat) : Nat := hb h 16 8
def shBVa (h : Nat) : Nat := hb h 24 6
def shVVa (h : Nat) : Nat := hb h 32 6
def shClamp (h : Nat) : Nat := hb h 40 4
def shSwapVa (h : Nat) : Nat := hb h 44 6
def shClamped (h : Nat) : Nat := hb h 52 4
def shXch (h : Nat) : Nat := hb h 56 4

/-- The reserved bits of a header are 0. -/
def shReservedOk (h : Nat) : Bool :=
  !bit h 39 && bits h 52 4 = 0 && hb h 7 1 = 0 && hb h 9 1 = 0 && hb h 30 2 = 0 && hb h 38 2 = 0 && hb h 50 2 = 0 && hb h 60 4 = 0

/-- The fields that every core of a group must hold alike: all but STEP, B_VA, V_VA, SWAP_VA and CLAMPED. -/
def shShared (h : Nat) : List Nat := [hb h 0 16, hb h 30 2, hb h 38 6, hb h 50 2, hb h 56 8]

/-- Bytes of one array of the body, of the block, and of one exchange slot. -/
def shArray (h : Nat) : Nat := shRows h * shWc h * 4
def shArrays (h : Nat) : Nat := 1 + b2n (shComp h) + b2n (shYForm h)
def shBytes (h : Nat) : Nat := 64 + shArray h * shArrays h
def shXchRow (h w : Nat) : Nat := (rowBytes (shAFmt h) w + 63) / 64 * 64

/-- The number of blocks of the product's columns (R163). -/
def shNb (h : Nat) : Nat := 1 + b2n (shASrc h) + (if shUForm h = 1 then 1 else 0) + b2n (shYForm h)

/-- A cell's K dimension for a group of `n` cores (R166). -/
def shK (h n : Nat) : Nat := shKx h + (if shFeedback h then n * shWc h else 0)

/-- Scale bytes of a B tile (R121). -/
def tileScaleBytes (bf : Nat) : Nat := if is16 bf then 0 else tileK bf / 32 * 16

/-! ### The chunk command (R170) -/

/-- The fields of a chunk command, and of a swap's group (R175). -/
def rcSteps (w : List Nat) : Nat := bits (wd w 1) 16 16 + 1
def rcLog2 (w : List Nat) : Nat := bits (wd w 1) 14 2
def rcBase (w : List Nat) : Nat := bits (wd w 1) 11 3
def rcAnchorEn (w : List Nat) : Bool := bit (wd w 1) 10
def rcMaskEn (w : List Nat) : Bool := bit (wd w 1) 9
def rcGen (w : List Nat) : Nat := wd w 2
def rcOff (w : List Nat) : Nat := wd w 3
def rcX (w : List Nat) : Opnd := opndAt w 4
def rcXStep (w : List Nat) : Nat := 64 * bits (wd w 6) 16 16
def rcXRow (w : List Nat) : Nat := 64 * bits (wd w 6) 0 16
def rcOut (w : List Nat) : Opnd := opndAt w 7
def rcOutStep (w : List Nat) : Nat := 64 * bits (wd w 9) 16 16
def rcOutRow (w : List Nat) : Nat := 64 * bits (wd w 9) 0 16
def rcMask (w : List Nat) : Opnd := opndAt w 10
def rcAnchor (w : List Nat) : Opnd := opndAt w 12

/-- The cores of a group in a core's cluster. -/
def groupCores (core log2 base : Nat) : List Nat := (List.range (2 ^ log2)).map fun g => core / 8 * 8 + base + g

/-- Bytes of one anchor block (R178). -/
def anchorBytes (h w : Nat) : Nat := (32 + shRows h * w * 4 + 63) / 64 * 64

/-- A core belongs to the group that its chunk names, which lies in its cluster (R166). -/
def groupOk (core log2 base : Nat) : Bool := base % 2 ^ log2 = 0 && (groupCores core log2 base).contains core

/-- The limits and rules of R166, R168 and R169 that a core's header and its group break. -/
def Device.rcBad (s : Device) (core : Nat) (w : List Nat) (h : Nat) : Bool :=
  let n := 2 ^ rcLog2 w
  let cores := groupCores core (rcLog2 w) (rcBase w)
  let wTot := n * shWc h
  let k := shK h n
  let t := ((shNb h * shWc h + 15) / 16 + 3) / 4
  !groupOk core (rcLog2 w) (rcBase w) || !(cores.all s.reservedCore || cores.all fun c => !s.reservedCore c) ||
  (cores.any fun c => shShared (s.stHeader c (rcOff w)) ≠ shShared h) || !shReservedOk h || shUForm h = 3 ||
  !pairOk (shAFmt h) (shBFmt h) || !isFmt (shOutFmt h) || shWc h < 16 || 1024 < shWc h || shWc h % 16 ≠ 0 ||
  (isMx (shAFmt h) && shWc h % 32 ≠ 0) || 8192 < shKx h || shKx h % 32 ≠ 0 || k < 32 ||
  32768 < t * ((k + tileK (shBFmt h) - 1) / tileK (shBFmt h)) * (tileK (shBFmt h) * 16 * fmtBits (shBFmt h) / 8 + tileScaleBytes (shBFmt h)) ||
  0x40000 < rcOff w + shBytes h || 0x200000 < shXch h + 2 * shRows h * shXchRow h wTot ||
  !(shClamp h = 0 || (fin32 (shClamp h) && lt32 0 (shClamp h)))

/-- The checks of a chunk command's own fields, in R127's form. -/
def rcFields (w : List Nat) : List Check :=
  let anch := rcAnchorEn w && (rcAnchor w).addr ≠ 0
  [⟨2, 3, rcOff w % 64 ≠ 0⟩, ⟨2, 4, badAddr (rcX w)⟩, ⟨2, 5, badSpace (rcX w)⟩,
   ⟨2, 7, badAddr (rcOut w)⟩, ⟨2, 8, badSpace (rcOut w)⟩, ⟨2, 10, rcMaskEn w && badAddr (rcMask w)⟩,
   ⟨2, 11, rcMaskEn w && badSpace (rcMask w)⟩, ⟨2, 12, anch && badAddr (rcAnchor w)⟩, ⟨2, 13, anch && badSpace (rcAnchor w)⟩,
   ⟨9, 1, bits (wd w 1) 0 9 ≠ 0⟩, ⟨9, 5, bits (wd w 5) 16 14 ≠ 0⟩, ⟨9, 8, bits (wd w 8) 16 14 ≠ 0⟩,
   ⟨9, 11, bits (wd w 11) 16 14 ≠ 0⟩, ⟨9, 13, bits (wd w 13) 16 14 ≠ 0⟩, ⟨9, 14, wd w 14 ≠ 0⟩, ⟨9, 15, wd w 15 ≠ 0⟩]

/-- The checks of a chunk command. -/
def Device.rcChecks (s : Device) (core : Nat) (w : List Nat) : List Check :=
  rcFields w ++ [⟨0xE, 3, s.rcBad core w (s.stHeader core (rcOff w))⟩]

/-- The anchor steps that a chunk will run on a block (R178). -/
def rcAnchors (h : Nat) (w : List Nat) : Nat :=
  if shAnchorN h = 0 then 0 else (shStep h + rcSteps w) / shAnchorN h - shStep h / shAnchorN h

/-- The pages that a chunk names on a core (R171). -/
def Device.rcPages (s : Device) (core job : Nat) (w : List Nat) : List (Nat × Bool) :=
  let h := s.stHeader core (rcOff w)
  let n := 2 ^ rcLog2 w
  let wTot := n * shWc h
  let k := shK h n
  let nt := (shNb h * shWc h + 15) / 16
  let steps := (List.range (rcSteps w))
  ((steps.flatMap fun i => rowPages ((rcX w).add (i * rcXStep w)) job (shRows h) (rcXRow w) (rowBytes (shAFmt h) (shKx h)) false) ++
   (steps.flatMap fun i => rowPages ((rcOut w).add (i * rcOutStep w)) job (shRows h) (rcOutRow w) (rowBytes (shOutFmt h) wTot) true) ++
   (if rcMaskEn w then (rcMask w).pages job (64 * rcSteps w) false else []) ++
   (if rcAnchorEn w && (rcAnchor w).addr ≠ 0 then
      (rcAnchor w).pages job (anchorBytes h wTot * rcAnchors h w) false else []) ++
   ((pagesOf job (shBVa h) (nt * ntileBytes (shBFmt h) k + (if isMx (shBFmt h) then nt * ((k + 31) / 32) * 16 else 0))).map fun p => (p, false)) ++
   (if shASrc h then [] else (pagesOf job (shVVa h) (4 * shWc h)).map fun p => (p, false))).eraseDups

/-- A terminal translation fault of a chunk or swap (R171, R175). -/
def Device.terminalFault (s : Device) (core : Nat) (i : Issue) (r : XRes) (va : Nat) (write : Bool) : Device :=
  match r with
  | .fault kind _ =>
    let s1 := s.raiseFault (core / 64) (core % 64) i.work i.entry kind va write []
    s1.setFaults (s1.xlate.faults.map fun f =>
      if f.die = core / 64 && f.unit = core % 64 && f.stage = .raised then { f with terminal := true } else f)
  | _ => s

/-- The status that a translation result that is no address ends a chunk or swap with. -/
def terminalStatus (r : XRes) : Nat :=
  match r with | .fault k _ => faultStatus k | .ended st => st | _ => stXLATE_FAULT

/-- Count chunks and swaps that met the wrong residency (R180). -/
def Device.recStale (s : Device) (core : Nat) : Device := s.addHold (core / 64) (CLUSTER_REC_COUNT_STALE (core % 64 / 8)) 1

/-- The statuses that STALE counts, once for each chunk or swap. -/
def Device.staleEnd (s : Device) (core status : Nat) : Device := if status = stSTATE_OUT ∨ status = stSTATE_GEN then s.recStale core else s

/-- A core refuses a chunk or swap: the state with the record, the status and the reason. -/
def Device.refuses (s : Device) (core : Nat) (i : Issue) (c : Check) : Device × Nat × Nat :=
  (s.recCmdErr core (s.workJob i.work) c.reason c.word, stBAD_COMMAND, c.reason)

/-- A core's checks of a chunk before its start barrier (R173, step 1): the state with what they record, the status and the
reason. -/
def Device.rcArrive (s : Device) (core : Nat) (i : Issue) (w : List Nat) : Device × Nat × Nat :=
  let y := if (firstFail (rcFields w)).isSome then (s, stDONE) else s.headerRead core (rcOff w)
  if y.2 ≠ stDONE then (y.1, y.2, 0)
  else
  let s := y.1
  match firstFail (s.rcChecks core w) with
  | some c => s.refuses core i c
  | none =>
    let h := s.stHeader core (rcOff w)
    if ¬ shResident h then (s, stSTATE_OUT, 0)
    else if shGen h ≠ rcGen w then (s, stSTATE_GEN, 0)
    else
      match s.translateAll (core / 64) (core % 64) (s.workJob i.work) (s.rcPages core (s.workJob i.work) w) with
      | (s1, none) => (s1, stDONE, 0)
      | (s1, some (r, va, wr)) => (s1.terminalFault core i r va wr, terminalStatus r, 0)

/-- Replace the chunks in flight. -/
def Device.setChunks (s : Device) (l : List Chunk) : Device := { s with chunks := l }

/-- The cores of a chunk. -/
def Chunk.cores (c : Chunk) : List Nat := groupCores c.head (rcLog2 c.words) (rcBase c.words)

/-- The chunk in flight on a core. -/
def Device.chunkOf (s : Device) (core : Nat) : Option Chunk := s.chunks.find? fun c => c.cores.contains core

/-- Count arrivals and releases of a cluster's barriers (R180). -/
def Device.recArrive (s : Device) (core n : Nat) : Device := s.addWrap (core / 64) (CLUSTER_REC_AUDIT_ARRIVE (core % 64 / 8)) n
def Device.recRelease (s : Device) (core n : Nat) : Device := s.addWrap (core / 64) (CLUSTER_REC_AUDIT_RELEASE (core % 64 / 8)) n

/-- The body of RECURRENT_CHUNK (R170, R173): each core of the issue checks the command and arrives at its group's start barrier; a core that no
group of its cluster holds is refused at once. -/
def recurrentChunkBody (i : Issue) (w : List Nat) (s : Device) : Device :=
  s.issue i w fun s => s.onCores i fun core s =>
    let x := s.rcArrive core i w
    if ¬ groupOk core (rcLog2 w) (rcBase w) then x.1.cmdStatus core x.2.1 x.2.2
    else
      let s1 := x.1.recArrive core 1
      match s1.chunkOf core with
      | some c => s1.setChunks (s1.chunks.map fun y => if y = c then { y with arrived := y.arrived ++ [(core, x.2)] } else y)
      | none => s1.setChunks (s1.chunks ++ [{ head := core, issue := i, words := w, arrived := [(core, x.2)] }])

/-- Report the group and the step of a running command (R180). -/
def Device.recStatus (s : Device) (core : Nat) (w : List Nat) (step : Nat) : Device :=
  let d := core / 64
  let k := core % 64 / 8
  ((s.wr d (CLUSTER_REC_STATUS_GROUP_LOG2 k (core % 8)) (rcLog2 w)).wr d (CLUSTER_REC_STATUS_GROUP_BASE k (core % 8)) (rcBase w)).wr d
    (CLUSTER_REC_STATUS_STEP k (core % 8)) step

/-! ### Stops inside a step (R174) -/

/-- Write a header's GEN and RESIDENT. -/
def Device.stMark (s : Device) (core off gen : Nat) (resident : Bool) : Device :=
  let a := coreStoreBase (core / 64) (core % 64) + off
  (s.coreWrites core [(a, 4, gen), (a + 4, 1, setBits (s.readData (a + 4) 1) 0 1 (b2n resident))]).1

/-- A chunk stops (R174): inside a step's write stage, every core's block loses RESIDENT, its GEN goes up and its body is
left undefined; between steps the block stays. DESIGN CHOICE (214): cores that wait at its start barrier are released. -/
def Device.chunkStop (s : Device) (c : Chunk) (inside : Bool) : Device :=
  let s1 := (s.setChunks (s.chunks.filter (· ≠ c))).recRelease c.head (if c.running then 0 else c.arrived.length)
  if c.running && inside then
    c.cores.foldl (fun s core =>
      let h := s.stHeader core (rcOff c.words)
      (s.stMark core (rcOff c.words) (shGen h + 1) false).undefine
        [(coreStoreBase (core / 64) (core % 64) + rcOff c.words + 64, shBytes h - 64)]) s1
  else s1

/-- Stop the chunks that run for a work item's cores. -/
def Device.chunksStop (s : Device) (cores : List Nat) (inside : Bool) : Device :=
  (s.chunks.filter fun c => c.cores.any cores.contains).foldl (fun s c => s.chunkStop c inside) s

/-- A chunk stops with a status of its own (R174): its slice ends with it, or its cores' commands do; an uncorrectable word ends the job. -/
def Device.chunkFail (s : Device) (c : Chunk) (status : Nat) (inside : Bool) : Device :=
  let s1 := s.chunkStop c inside
  match c.issue.work with
  | .slice _ _ => s1.failWork c.issue.work status
  | .ring _ =>
    let s2 := c.cores.foldl (fun s k => s.cmdStatus k status 0) s1
    if status = stUNCORRECTABLE then s2.failWork c.issue.work status else s2

/-! ### The start barrier (R173) -/

/-- The first status that is not DONE. -/
def statusOr (a b : Nat) : Nat := if a = stDONE then b else a

/-- Write a core's part of **y** to an exchange slot: its columns of every row, in A_FMT with their scales (R169, R173). State, and status. -/
def Device.xchWrite (s : Device) (core : Nat) (h n slot : Nat) (rows : List (Nat × List Nat)) : Device × Nat :=
  let w := n * shWc h
  let g := core % n
  let base := clusterStoreBase (core / 64) (core % 64 / 8) + shXch h + slot * (shRows h * shXchRow h w)
  rows.foldl (fun (x : Device × Nat) r =>
    if x.2 ≠ stDONE then x
    else
      let cv := convRow (shAFmt h) true (r.2.map dec32)
      let eb := fmtBits (shAFmt h)
      let a := base + r.1 * shXchRow h w
      (x.1.numFlags core cv.2.2).coreWrites core ((a + eb * g * shWc h / 8, packedBytes eb (shWc h), packBits eb cv.1) ::
        (if isMx (shAFmt h) then [(a + packedBytes eb w + g * shWc h / 32, cv.2.1.length, packBits 8 cv.2.1)] else []))) (s, stDONE)

/-- The body of START_BARRIER (R173, steps 2 and 3): when every core of the group has arrived, all end with the status of the
lowest-numbered failing core if one failed; else each loads its stationary store and writes its part of **y**. -/
def startBarrierBody (core : Nat) (s : Device) : Device :=
  match s.chunkOf core with
  | none => s
  | some c =>
    let cores := c.cores
    if c.running || !(cores.all fun k => c.arrived.any fun a => a.1 = k) then s
    else
      let s1 := s.recRelease core cores.length
      match cores.findSome? fun k => c.arrived.find? fun a => a.1 = k && a.2.1 ≠ stDONE with
      | some a => cores.foldl (fun s k => s.cmdStatus k a.2.1 (if k = a.1 then a.2.2 else 0))
          ((s1.setChunks (s1.chunks.filter (· ≠ c))).staleEnd core a.2.1)
      | none =>
        let w := c.words
        let n := cores.length
        let go := cores.foldl (fun (x : Device × Nat × List (Nat × Nat × Nat × Nat)) k =>
          let h := x.1.stHeader k (rcOff w)
          let kk := shK h n
          let nt := (shNb h * shWc h + 15) / 16
          let bLen := nt * ntileBytes (shBFmt h) kk
          let b := x.1.opRead k c.issue.work ⟨0, shBVa h⟩ bLen
          let bs := if isMx (shBFmt h) then b.1.opRead k c.issue.work ⟨0, shBVa h + bLen⟩ (nt * ((kk + 31) / 32) * 16) else (b.1, 0)
          let v := if shASrc h then (bs.1, 0) else bs.1.opRead k c.issue.work ⟨0, shVVa h⟩ (4 * shWc h)
          let body := coreStoreBase (k / 64) (k % 64) + rcOff w + 64 + (if shYForm h then shArray h * (shArrays h - 1) else 0)
          let y := v.1.readChk (k / 64) (k % 64) body (shArray h)
          let rows := (List.range (shRows h)).map fun r => (r, (List.range (shWc h)).map fun j => elemAt y.2.2 32 (r * shWc h + j))
          let s2 := y.1.xchWrite k h n (shStep h % 2) rows
          (s2.1.recStatus k w 0, statusOr x.2.1 (statusOr (y.1.cmdSt k) (statusOr y.2.1 s2.2)), x.2.2 ++ [(k, b.2, bs.2, v.2)])) (s1, stDONE, [])
        let run := go.1.setChunks (go.1.chunks.map fun y => if y = c then { y with running := true, weights := go.2.2 } else y)
        if go.2.1 = stDONE then run else run.chunkFail { c with running := true, weights := go.2.2 } go.2.1 false

/-! ### The step (R163 to R165, R172, R178) -/

/-- An error-free transformation: the rounded product or sum, and what the rounding lost. -/
def twoProd (a b : Nat) : Nat × Nat :=
  let p := mul32 a b
  (p, enc32 (((dec32 a).mul (dec32 b)).add (dec32 p).neg))
def twoSum (a b : Nat) : Nat × Nat :=
  let t := add32 a b
  (t, enc32 (((dec32 a).add (dec32 b)).add (dec32 t).neg))

/-- The update of a state element (R164): the new *s* and *e*. -/
def cellUpdate (comp : Bool) (a u st e : Nat) : Nat × Nat :=
  if comp then
    let p := twoProd a st
    let t := twoSum p.1 u
    twoSum t.1 (add32 (add32 p.2 t.2) (mul32 a e))
  else (fma32 a st u, 0)

/-- A new *s* that is not finite is replaced (R165). -/
def cellFinite (x : Nat × Nat) : (Nat × Nat) × Conv :=
  if fin32 x.1 then (x, {}) else let c := convFloat 0xA (dec32 x.1); ((c.1, 0), c.2)

/-- A cell's retention, input term, and the output's gate factor (R163), from the product's blocks in their order. -/
def cellTerms (h v : Nat) (p : List Nat) : Nat × Nat × Nat :=
  let sig := fun x => (gateFn 0x05 x).1
  let tanh := fun x => (gateFn 0x06 x).1
  let p1 := wd p 1
  let p2 := wd p (1 + b2n (shASrc h))
  let p3 := wd p (shNb h - 1)
  let a := if shASrc h then sig p1 else v
  let u := match shUForm h with
    | 0 => wd p 0
    | 1 => mul32 (sig p2) (tanh (wd p 0))
    | _ => mul32 (sub32 0x3F800000 a) (tanh (wd p 0))
  (a, u, sig p3)

/-- The output of a cell from its state (R163). -/
def cellOut (h gate st : Nat) : Nat := if shYForm h then mul32 gate (gateFn 0x06 st).1 else st

/-- What one core does with one row in a step: the new *s*, *e* and *y* of its columns, whether its output row is
written, and the report with the count of clamped elements. -/
structure RowStep where
  st   : List Nat
  e    : List Nat
  y    : List Nat
  out  : Bool
  conv : Conv
  clamped : Nat
  deriving DecidableEq, Repr

/-- One row on one core (R163 to R165, R172, R178): `pre` are the product's columns, `old` the row's *s*, *e* and *y*,
`anchor` the anchor values of its columns if the step anchors this row, `clamp` the bound if it clamps it. -/
def rowStep (h : Nat) (run reset : Bool) (pre v : List Nat) (old : List Nat × List Nat × List Nat) (anchor : Option (List Nat))
    (clamp : Option Nat) : RowStep :=
  let zero := List.replicate (shWc h) 0
  let start := if reset then (zero, zero, zero) else old
  if ¬ run then ⟨start.1, start.2.1, if shYForm h then start.2.2 else start.1, false, {}, 0⟩
  else
    let cols := (List.range (shWc h)).map fun j =>
      let p := (List.range (shNb h)).map fun b => wd pre (b * shWc h + j)
      let t := cellTerms h (wd v j) p
      let x := cellFinite (cellUpdate (shComp h) t.1 t.2.1 (wd start.1 j) (wd start.2.1 j))
      match anchor, clamp with
      | some av, _ =>
        let z := cellFinite (wd av j, 0)
        (z.1, cellOut h t.2.2 z.1.1, x.2.join z.2, false)
      | none, some b =>
        if lt32 b (abs32 x.1.1) then
          let z := b + (x.1.1 / 2 ^ 31) * 2 ^ 31
          ((z, 0), cellOut h t.2.2 z, x.2, true)
        else (x.1, cellOut h t.2.2 x.1.1, x.2, false)
      | none, none => (x.1, cellOut h t.2.2 x.1.1, x.2, false)
    ⟨cols.map (·.1.1), cols.map (·.1.2), cols.map (·.2.1), true, cols.foldl (fun c x => c.join x.2.2.1) {},
      (cols.filter (·.2.2.2)).length⟩

/-- What one core reads for a step: its A rows, its state, the masks and anchors. -/
structure StepIn where
  a     : List (List FV)
  old   : List (List Nat × List Nat × List Nat)
  mask  : Nat
  anch  : Nat
  deriving DecidableEq, Repr

/-- A row's bit in a 32-byte plane (R172). -/
def planeBit (v r : Nat) : Bool := bit v r

/-- Read a core's inputs of step `i` (R170, R172, R173): the row's fed-back **y** is zero where the row starts. State, status, inputs. -/
def Device.stepIn (s : Device) (c : Chunk) (core n : Nat) (anchorAt : Option Nat) : Device × Nat × StepIn :=
  let w := c.words
  let h := s.stHeader core (rcOff w)
  let wTot := n * shWc h
  let i := c.step
  let af := shAFmt h
  let xb := rowBytes af (shKx h)
  let x := s.opReadRows core c.issue.work (rowsOf ((rcX w).add (i * rcXStep w)) (shRows h) (rcXRow w)) xb
  let xbase := clusterStoreBase (core / 64) (core % 64 / 8) + shXch h + (shStep h % 2) * (shRows h * shXchRow h wTot)
  let yb := rowBytes af wTot
  let y := if shFeedback h then
      (List.range (shRows h)).foldl (fun (z : Device × Nat × List Nat) r =>
        let t := z.1.readChk (core / 64) (core % 64) (xbase + r * shXchRow h wTot) yb
        (t.1, statusOr z.2.1 t.2.1, z.2.2 ++ [t.2.2])) (x.1, stDONE, [])
    else (x.1, stDONE, [])
  let m := if rcMaskEn w then y.1.opRead core c.issue.work ((rcMask w).add (i * 64)) 64 else (y.1, 2 ^ 512 - 2 ^ 256)
  let an := match anchorAt with
    | some k => if (rcAnchor w).addr ≠ 0 then
        m.1.opRead core c.issue.work ((rcAnchor w).add (k * anchorBytes h wTot)) (32 + shRows h * wTot * 4) else (m.1, 0)
    | none => (m.1, 0)
  let body := coreStoreBase (core / 64) (core % 64) + rcOff w + 64
  let b := an.1.readChk (core / 64) (core % 64) body (shArray h * shArrays h)
  let arr := fun (k r : Nat) => (List.range (shWc h)).map fun j => elemAt b.2.2 32 (k * shRows h * shWc h + r * shWc h + j)
  let rows := List.range (shRows h)
  let a := rows.map fun r =>
    rowVals af (shKx h) (wd x.2 r) ++
    (if shFeedback h then
      (if planeBit m.2 (256 + r) && planeBit m.2 r then List.replicate wTot (.fin false 0 0) else rowVals af wTot (wd y.2.2 r))
     else [])
  let old := rows.map fun r =>
    (arr 0 r, (if shComp h then arr 1 r else List.replicate (shWc h) 0),
      (if shYForm h then arr (shArrays h - 1) r else arr 0 r))
  (b.1, statusOr (b.1.cmdSt core) (statusOr y.2.1 b.2.1), ⟨a, old, m.2, an.2⟩)

/-- The product of a core's rows with its stationary weights (R163, R166, R167). -/
def stepProduct (h n : Nat) (weights scales : Nat) (a : List (List FV)) : List (List Nat) :=
  let k := shK h n
  let kb := (k + 31) / 32
  let bf := shBFmt h
  let cols := (List.range (shNb h * shWc h)).map fun col =>
    (List.range k).map fun j =>
      decScaled bf (bits weights (8 * (col / 16 * ntileBytes bf k) + tileBit bf k j (col % 16)) (fmtBits bf))
        (if isMx bf then elemAt scales 8 ((col / 16 * kb + j / 32) * 16 + col % 16) else 127)
  a.map fun row => cols.map fun col => dotAcc (isMx (shAFmt h)) 0 (cutList 32 kb (row.zip col))

/-- One core's step: its rows' results, from what it read. -/
def stepRows (c : Chunk) (h n g : Nat) (anchored : Bool) (x : StepIn) : List RowStep :=
  let ws := (c.weights.find? fun e => e.1 % n = g).getD (0, 0, 0, 0)
  let wTot := n * shWc h
  let pre := stepProduct h n ws.2.1 ws.2.2.1 x.a
  let v := (List.range (shWc h)).map fun j => elemAt ws.2.2.2 32 j
  (List.range (shRows h)).map fun r =>
    let anchorOn := anchored && (rcAnchor c.words).addr ≠ 0 && planeBit x.anch r
    let av := if anchorOn then some ((List.range (shWc h)).map fun j => bits x.anch (256 + 32 * (r * wTot + g * shWc h + j)) 32) else none
    let clamp := if anchored && !anchorOn && shClamp h ≠ 0 then some (shClamp h) else none
    rowStep h (planeBit x.mask (256 + r)) (planeBit x.mask r) (pre.getD r []) v (x.old.getD r ([], [], [])) av clamp

/-- The *Y* array's values (R169), each finite under R116, with the report of what was replaced. -/
def yStored (rs : List RowStep) : List Nat × Conv :=
  let cs := (rs.flatMap (·.y)).map fun v => convFloat 0xA (dec32 v)
  (cs.map (·.1), cs.foldl (fun k x => k.join x.2) {})

/-- A core's output rows of a step, while its command's status stays DONE. -/
def Device.stepRowsOut (s : Device) (c : Chunk) (core h n : Nat) (rs : List RowStep) : Device :=
  let w := c.words
  let g := core % n
  let eb := fmtBits (shOutFmt h)
  (rs.zipIdx).foldl (fun s r =>
    if r.1.out ∧ s.cmdSt core = stDONE then
      let cv := convRow (shOutFmt h) true (r.1.y.map dec32)
      let o := (rcOut w).add (c.step * rcOutStep w + r.2 * rcOutRow w)
      let t := s.opWrite core c.issue.work (o.add (eb * g * shWc h / 8)) (packedBytes eb (shWc h)) (packBits eb cv.1)
      let t2 := if isMx (shOutFmt h) then
          t.opWrite core c.issue.work (o.add (packedBytes eb (n * shWc h) + g * shWc h / 32)) cv.2.1.length (packBits 8 cv.2.1)
        else t
      t2.numFlags core cv.2.2
    else s) s

/-- Write a core's results (R163, R169, R173): the state arrays in place, **y** to the next exchange slot, the output rows
of rows that run, and the counts. State, and the first status that is not DONE. -/
def Device.stepOut (s : Device) (c : Chunk) (core h n : Nat) (rs : List RowStep) : Device × Nat :=
  let w := c.words
  let a := coreStoreBase (core / 64) (core % 64) + rcOff w
  let arr := fun (l : List (List Nat)) => packBits 32 l.flatten
  let ys := if shYForm h then yStored rs else ([], {})
  let s1 := (s.numFlags core ys.2).coreWrites core ([(a + 64, shArray h, arr (rs.map (·.st)))] ++
    (if shComp h then [(a + 64 + shArray h, shArray h, arr (rs.map (·.e)))] else []) ++
    (if shYForm h then [(a + 64 + shArray h * (shArrays h - 1), shArray h, packBits 32 ys.1)] else []))
  if s1.2 ≠ stDONE then s1
  else
    let s2 := s1.1.xchWrite core h n ((shStep h + 1) % 2) ((rs.zipIdx).map fun r => (r.2, r.1.y))
    if s2.2 ≠ stDONE then s2
    else
      let s3 := s2.1.stepRowsOut c core h n rs
      let clamped := rs.foldl (fun k r => k + r.clamped) 0
      let s4 := (s3.addHold (core / 64) (CLUSTER_REC_COUNT_CLAMPED (core % 64 / 8)) clamped).numFlags core (rs.foldl (fun k r => k.join r.conv) {})
      let s5 := s4.coreWrites core [(a + 52, 4, min (shClamped h + clamped) 0xFFFFFFFF), (a + 16, 8, shStep h + 1)]
      (s5.1, statusOr (s3.cmdSt core) s5.2)

/-- The body of STEP_BARRIER (R163, R173, R178): the group's cores run one step, arrive at the step barrier, and STEP goes
up on every core; the chunk ends with its last step. A read or write that fails stops it inside the step, with its own status (R174). -/
def stepBarrierBody (core : Nat) (s : Device) : Device :=
  match s.chunkOf core with
  | none => s
  | some c =>
    if ¬ c.running then s
    else
      let cores := c.cores
      let n := cores.length
      let h0 := s.stHeader (cores.headD 0) (rcOff c.words)
      let anchored := rcAnchorEn c.words && shAnchorN h0 ≠ 0 && (shStep h0 + 1) % max 1 (shAnchorN h0) = 0
      let at_ := if anchored then some c.anchors else none
      let x := cores.foldl (fun (x : Device × Nat × List (Nat × StepIn)) k =>
        let y := x.1.stepIn c k n at_
        (y.1, statusOr x.2.1 y.2.1, x.2.2 ++ [(k, y.2.2)])) (s, stDONE, [])
      if x.2.1 ≠ stDONE then x.1.chunkFail c x.2.1 true
      else
        let o := x.2.2.foldl (fun (z : Device × Nat) e =>
          let h := z.1.stHeader e.1 (rcOff c.words)
          let fl := inFlagsAll e.2.a.flatten
          let y := (z.1.numFlags e.1 ⟨fl, 0⟩).stepOut c e.1 h n (stepRows c h n (e.1 % n) anchored e.2)
          (y.1, statusOr z.2 y.2)) (x.1, stDONE)
        if o.2 ≠ stDONE then o.1.chunkFail c o.2 true
        else
        let s2 := (o.1.recArrive core n).recRelease core n
        let s3 := if anchored then s2.addHold (core / 64) (CLUSTER_REC_COUNT_ANCHORED (core % 64 / 8)) 1 else s2
        let s4 := cores.foldl (fun s k => s.recStatus k c.words (c.step + 1)) s3
        if c.step + 1 = rcSteps c.words then s4.setChunks (s4.chunks.filter (· ≠ c))
        else s4.setChunks (s4.chunks.map fun y =>
          if y = c then { y with step := y.step + 1, anchors := if anchored then y.anchors + 1 else y.anchors } else y)

/-! ### Swaps (R175, R176) -/

/-- The fields of a swap command that a chunk does not share. -/
def swSignalEn (w : List Nat) : Bool := bit (wd w 1) 30
def swLog2 (w : List Nat) : Nat := bits (wd w 1) 28 2
def swBase (w : List Nat) : Nat := bits (wd w 1) 25 3
def swSync (w : List Nat) : Nat := bits (wd w 4) 0 16
def swAdd (w : List Nat) : Nat := wd w 5

/-- The checks of a swap's own fields (R175). -/
def swFields (core : Nat) (w : List Nat) : List Check :=
  [⟨0xF, 1, bits (wd w 1) 0 25 ≠ 0 || !groupOk core (swLog2 w) (swBase w)⟩, ⟨0xF, 3, rcOff w % 64 ≠ 0⟩, ⟨0xF, 4, bits (wd w 4) 16 16 ≠ 0⟩,
   ⟨0xF, 5, swSignalEn w && swAdd w = 0⟩, ⟨0xF, 6, (w.drop 6).any (· ≠ 0)⟩]

/-- The checks of a swap on a core (R175): its own fields, and that the group matches the header and the block lies in the core store. -/
def Device.swChecks (s : Device) (core : Nat) (w : List Nat) : List Check :=
  let h := s.stHeader core (rcOff w)
  swFields core w ++
  [⟨0xF, 1, (groupCores core (swLog2 w) (swBase w)).any fun c => shShared (s.stHeader c (rcOff w)) ≠ shShared h⟩,
   ⟨0xF, 3, 0x40000 < rcOff w + shBytes h⟩]

/-- What a core finds before a swap moves anything (R175, R176): the state, the status and the reason. The image's header is read where the swap
goes in. -/
def Device.swapLook (s : Device) (core : Nat) (i : Issue) (w : List Nat) (inward : Bool) : Device × Nat × Nat :=
  let y := if (firstFail (swFields core w)).isSome then (s, stDONE) else s.headerRead core (rcOff w)
  if y.2 ≠ stDONE then (y.1, y.2, 0)
  else
    let s := y.1
    match firstFail (s.swChecks core w) with
    | some c => s.refuses core i c
    | none =>
      let h := s.stHeader core (rcOff w)
      let job := s.workJob i.work
      match s.translateAll (core / 64) (core % 64) job ((pagesOf job (shSwapVa h) (shBytes h)).map fun p => (p, !inward)) with
      | (s1, some (r, va, wr)) => (s1.terminalFault core i r va wr).refuses core i ⟨0xF, 3, true⟩
      | (s1, none) =>
        if shResident h = inward then (s1, stSTATE_OUT, 0)
        else if inward then
          let img := s1.opRead core i.work ⟨0, shSwapVa h⟩ 64
          (img.1, if img.1.cmdSt core ≠ stDONE then img.1.cmdSt core else if shGen img.2 ≠ rcGen w then stSTATE_GEN else stDONE, 0)
        else (s1, if shGen h ≠ rcGen w then stSTATE_GEN else stDONE, 0)

/-- One core's swap after its group has looked (R176): out, or in. -/
def Device.swapOne (s : Device) (core : Nat) (i : Issue) (w : List Nat) (inward : Bool) : Device :=
  let h := s.stHeader core (rcOff w)
  let a := coreStoreBase (core / 64) (core % 64) + rcOff w
  if inward then
    let img := s.opRead core i.work ⟨0, shSwapVa h + 64⟩ (shBytes h - 64)
    if ¬ img.1.cmdOk core then img.1
    else
      let x := img.1.coreWrites core [(a + 64, shBytes h - 64, img.2)]
      if x.2 ≠ stDONE then x.1.cmdStatus core x.2 0 else x.1.stMark core (rcOff w) (rcGen w + 1) true
  else
    let blk := s.readChk (core / 64) (core % 64) a (shBytes h)
    if blk.2.1 ≠ stDONE then blk.1.cmdStatus core blk.2.1 0
    else
      let img := setBits (setBits blk.2.2 0 32 (rcGen w + 1)) 32 1 0
      let s2 := blk.1.opWrite core i.work ⟨0, shSwapVa h⟩ (shBytes h) img
      if s2.cmdOk core then s2.stMark core (rcOff w) (rcGen w + 1) false else s2

/-- A swap on the cores of one group: all look before one moves. DEDUCED (215): what stops one core stops the group, as for a chunk (R173). -/
def Device.swapGroup (s : Device) (i : Issue) (w : List Nat) (inward : Bool) (cores : List Nat) : Device :=
  let looks := cores.foldl (fun (x : Device × List (Nat × Nat × Nat)) k =>
    let y := x.1.swapLook k i w inward
    (y.1, x.2 ++ [(k, y.2)])) (s, [])
  match looks.2.find? fun a => a.2.1 ≠ stDONE with
  | some a => cores.foldl (fun s k => s.cmdStatus k a.2.1 a.2.2) (looks.1.staleEnd a.1 a.2.1)
  | none => cores.foldl (fun s k => s.swapOne k i w inward) looks.1

/-- A swap (R175, R176): each group's copies, then the signal, whatever the status. -/
def Device.swapRun (s : Device) (i : Issue) (w : List Nat) (inward : Bool) : Device :=
  let s0 := i.cores.foldl (fun s k => s.recStatus k [0, swLog2 w * 2 ^ 14 + swBase w * 2 ^ 11] 0) s
  let s1 := ((i.cores.map (· / 8)).eraseDups).foldl (fun s k => s.swapGroup i w inward (i.cores.filter (· / 8 = k))) s0
  if swSignalEn w then s1.syncAddFrom (i.cores.headD 0 / 64) (i.cores.headD 0 % 64) (swSync w) (swAdd w) else s1

/-- The bodies of SWAP_OUT and SWAP_IN. -/
def swapOutBody (i : Issue) (w : List Nat) (s : Device) : Device := s.issue i w fun s => s.swapRun i w false
def swapInBody (i : Issue) (w : List Nat) (s : Device) : Device := s.issue i w fun s => s.swapRun i w true

end Sys2Proof.Machine
end

