-- ==== Sys2Proof/Machine/Collective.lean ====
section
/-!
DEFINITION. Collectives, attention merges and segments (chapter 8, R182 to R200; R155): the collective command's kinds,
contributions, timeouts and notices, the attention command's issue and its merge trees, the segment and resolve commands.
-/
namespace Sys2Proof.Machine

/-! ### The collective command (R186) -/

/-- The fields of a collective command. -/
def clKind (w : List Nat) : Nat := bits (wd w 1) 30 2
def clGroupEn (w : List Nat) : Bool := bit (wd w 1) 29
def clResEn (w : List Nat) : Bool := bit (wd w 1) 28
def clNormEn (w : List Nat) : Bool := bit (wd w 1) 27
def clLayer (w : List Nat) : Bool := bit (wd w 1) 26
def clSat (w : List Nat) : Bool := bit (wd w 1) 25
def clOutFmt (w : List Nat) : Nat := bits (wd w 1) 20 4
def clRows (w : List Nat) : Nat := bits (wd w 1) 16 4 + 1
def clLog2 (w : List Nat) : Nat := bits (wd w 1) 12 4
def clBase (w : List Nat) : Nat := bits (wd w 1) 4 8
def clGroup (w : List Nat) : Nat := bits (wd w 2) 16 16
def clUnits (w : List Nat) : Nat := bits (wd w 2) 0 16
def clDstOff (w : List Nat) : Nat := bits (wd w 3) 0 20
def clSrc (w : List Nat) : Opnd := opndAt w 4
def clDst (w : List Nat) : Opnd := opndAt w 6
def clRes (w : List Nat) : Opnd := ⟨(clDst w).space, wdAddr w 8⟩
def clV (w : List Nat) : Opnd := ⟨(clDst w).space, wdAddr w 10⟩
def clEps (w : List Nat) : Nat := wd w 12
def clValue (w : List Nat) : Nat := wd2 w 13

/-- The participating cores of a device. -/
def clCores (w : List Nat) : List Nat := (List.range (2 ^ clLog2 w)).map (clBase w + ·)

/-- A collective's scope: its group, or 1,024 + the die of its first core (R189). -/
def clScope (w : List Nat) : Nat := if clGroupEn w then clGroup w else 1024 + clBase w / 64

/-- The reason a collective is refused for (R190); 0 when it passes. -/
def Device.clReason (s : Device) (die job : Nat) (w : List Nat) : Nat :=
  if bit (wd w 1) 24 || bits (wd w 1) 0 4 ≠ 0 || bits (wd w 3) 20 12 ≠ 0 || bits (wd w 5) 16 14 ≠ 0 || bits (wd w 7) 16 14 ≠ 0 ||
      bits (wd w 9) 16 16 ≠ 0 || bits (wd w 11) 16 16 ≠ 0 || wd w 15 ≠ 0 || !([3, 4, 5, 8, 9, 0xA].contains (clOutFmt w)) ||
      (clDst w).space = 0 || (clDst w).space = 3 || (clSrc w).space = 3 then 1
  else if 8 < clLog2 w || 256 < clBase w + 2 ^ clLog2 w then 2
  else if clGroupEn w && (s.group die job (clGroup w)).isNone then 3
  else if clUnits w = 0 || 4096 < clUnits w || ((clResEn w || clNormEn w) && clKind w ≠ 0) then 4
  else if job ≠ 0 && (clCores w).any s.reservedCore then 5
  else 0

/-- What a participant's KIND, UNITS and ROWS are compared by (R189). -/
def clShape (w : List Nat) : List Nat := [clKind w, clUnits w, bits (wd w 1) 16 4]

/-! ### Trees and results (R187, R188) -/

/-- One level of a pairwise tree over optional vectors; an absent or odd last one passes up unchanged. -/
def vecUp : List (Option (List Nat)) → List (Option (List Nat))
  | some a :: some b :: r => some ((a.zip b).map fun p => add32 p.1 p.2) :: vecUp r
  | a :: none :: r => a :: vecUp r
  | none :: b :: r => b :: vecUp r
  | l => l

/-- A pairwise tree of at most `n` levels. -/
def vecTree : Nat → List (Option (List Nat)) → List Nat
  | 0, l => (l.headD none).getD []
  | n + 1, l => if l.length ≤ 1 then (l.headD none).getD [] else vecTree n (vecUp l)

/-- The package's tree over its 256 cores (R155, R188). -/
def packageTree (parts : List (Nat × List Nat)) : List Nat :=
  vecTree 8 ((List.range 256).map fun k => (parts.find? fun p => p.1 = k).map (·.2))

/-- The members' results in ascending device ID, this device's own among them. -/
def memberOrder (own : Nat) (mine : List Nat) (remote : List Contribution) : List (Option (List Nat)) :=
  (((own, mine) :: remote.map fun c => (c.dev, ((c.data.headD (0, [])).2))).mergeSort fun a b => decide (a.1 ≤ b.1)).map fun x => some x.2

/-- The rows of a flat vector. -/
def rowCut (n rows : Nat) (v : List Nat) : List (List Nat) := (List.range rows).map fun r => (v.drop (r * n)).take n

/-- Normalise a row with given mean and mean square (R129, R187): RMS, or layer normalisation. -/
def normRow (layer : Bool) (row v : List Nat) (eps : Nat) : List Nat :=
  if layer then
    let mean := rowMean row
    let r := (normRoot (rowMean (row.map fun x => mul32 (sub32 x mean) (sub32 x mean))) eps).1
    (row.zip v).map fun p => mul32 (mul32 (sub32 p.1 mean) r) p.2
  else
    let r := (normRoot (rowMean (row.map fun x => mul32 x x)) eps).1
    (row.zip v).map fun p => mul32 (mul32 p.1 r) p.2

/-- Normalise columns of a split row by the totals of the whole (R187, NORM): its sum, sum of squares, and columns. -/
def normSplit (layer : Bool) (row v : List Nat) (eps sum sq n : Nat) : List Nat :=
  let mean := div32 sum (ofInt32 n)
  let msq := div32 sq (ofInt32 n)
  if layer then
    let r := (normRoot (sub32 msq (mul32 mean mean)) eps).1
    (row.zip v).map fun p => mul32 (mul32 (sub32 p.1 mean) r) p.2
  else
    let r := (normRoot msq eps).1
    (row.zip v).map fun p => mul32 (mul32 p.1 r) p.2

/-- One core for each store that a result is written to: every participating core's store, or every participating
cluster's (R186). -/
def clPlaces (w : List Nat) : List Nat :=
  if (clDst w).space = 1 then clCores w
  else (clCores w).foldl (fun l k => if l.any fun x => x / 8 = k / 8 then l else l ++ [k]) []

/-- The parts of a collective, their words and those of a core. -/
def Coll.words (c : Coll) : List Nat := (c.parts.headD { core := 0, issue := ⟨.ring 0, 0, []⟩, words := [], tick := 0, data := [] }).words
def Coll.partOf (c : Coll) (core : Nat) : Option CollPart := c.parts.find? fun p => p.core = core
def Coll.work (c : Coll) : Work := (c.parts.headD { core := 0, issue := ⟨.ring 0, 0, []⟩, words := [], tick := 0, data := [] }).issue.work

/-- This device's own contribution (R189): its package tree, the bytes of its cores, its rows' totals, or its values. -/
def Coll.own (c : Coll) : List (Nat × List Nat) :=
  let w := c.words
  let n := 16 * clUnits w
  match clKind w with
  | 0 => [(0, packageTree (c.parts.map fun p => (p.core, p.data)))]
  | 1 => (clCores w).filterMap fun k => (c.partOf k).map fun p => (clDstOff p.words, p.data)
  | 2 => [(0, packageTree (c.parts.map fun p =>
      (p.core, (rowCut n (clRows w) p.data).flatMap fun r => [rowSum r, rowSum (r.map fun x => mul32 x x)])))]
  | _ => [(0, c.parts.flatMap fun p => [clValue p.words % 2 ^ 32, clValue p.words / 2 ^ 32])]

/-- Write a row of a result with its scales directly after its elements. -/
def Device.placeRow (s : Device) (core : Nat) (w : List Nat) (work : Work) (o : Opnd) (vals : List Nat) : Device :=
  let cv := convRow (clOutFmt w) (clSat w) (vals.map dec32)
  (s.opWrite core work o (rowBytes (clOutFmt w) vals.length) (rowData (clOutFmt w) cv)).numFlags core cv.2.2

/-- The results of a collective whose contributions are all in (R187). -/
def Device.collResult (s : Device) (c : Coll) : Device :=
  let w := c.words
  let n := 16 * clUnits w
  let rows := clRows w
  let work := c.work
  match clKind w with
  | 0 =>
    let sum := rowCut n rows (vecTree 5 (memberOrder s.deviceId ((c.own.headD (0, [])).2) c.remote))
    (clPlaces w).foldl (fun s k =>
      (sum.zipIdx).foldl (fun s r =>
        let old := if clResEn w then s.opRead k work ((clRes w).add (r.2 * 4 * n)) (4 * n) else (s, 0)
        let v := if clResEn w then (r.1.zipIdx).map fun p => add32 (elemAt old.2 32 p.2) p.1 else r.1
        let s1 := if clResEn w then
            let cv := convRow 0xA true (v.map dec32)
            (old.1.opWrite k work ((clRes w).add (r.2 * 4 * n)) (4 * n) (packBits 32 cv.1)).numFlags k cv.2.2
          else old.1
        let g := if clNormEn w then s1.opRead k work (clV w) (4 * n) else (s1, 0)
        let out := if clNormEn w then normRow (clLayer w) v ((List.range n).map fun j => elemAt g.2 32 j) (clEps w) else v
        g.1.placeRow k w work ((clDst w).add (r.2 * rowBytes (clOutFmt w) n)) out) s) s
  | 1 =>
    let all := (((s.deviceId, c.own) :: c.remote.map fun x => (x.dev, x.data)).mergeSort fun a b => decide (a.1 ≤ b.1)).flatMap (·.2)
    let stride := 64 * all.foldl (fun m x => max m (x.1 + clUnits w)) 0
    (clPlaces w).foldl (fun s k =>
      all.foldl (fun s x =>
        ((rowCut n rows x.2).zipIdx).foldl (fun s r =>
          s.opWrite k work ((clDst w).add (r.2 * stride + 64 * x.1)) (4 * n) (packBits 32 r.1)) s) s) s
  | 2 =>
    let tot := vecTree 5 (memberOrder s.deviceId ((c.own.headD (0, [])).2) c.remote)
    let cols := n * 2 ^ clLog2 w * (c.members.length + 1)
    c.parts.foldl (fun s p =>
      ((rowCut n rows p.data).zipIdx).foldl (fun s r =>
        let off := 16 * clDstOff p.words
        let g := s.opRead p.core work ((clV w).add (4 * off)) (4 * n)
        let out := normSplit (clLayer w) r.1 ((List.range n).map fun j => elemAt g.2 32 j) (clEps w) (wd tot (2 * r.2)) (wd tot (2 * r.2 + 1)) cols
        g.1.placeRow p.core w work ((clDst w).add (r.2 * rowBytes (clOutFmt w) cols + packedBytes (fmtBits (clOutFmt w)) off)) out) s) s
  | _ => s

/-- All values of a BARRIER agree (R187). -/
def Coll.agrees (c : Coll) : Bool :=
  let vs := (c.own ++ c.remote.flatMap (·.data)).flatMap fun x => cutList 2 (x.2.length) x.2
  vs.all fun v => v = vs.headD []

/-- Every core of this device has issued the collective. -/
def Coll.full (c : Coll) : Bool := (clCores c.words).all fun k => c.parts.any fun p => p.core = k

/-- Every other member's contribution is in. -/
def Coll.complete (c : Coll) : Bool := c.full && c.members.all fun m => c.remote.any fun x => x.dev = m

/-- A collective that has all it waits for completes: its result is written, or a BARRIER's disagreement abandons it. -/
def Device.collFinish (s : Device) (c : Coll) : Device :=
  if ¬ c.complete then s
  else if clKind c.words = 3 && !c.agrees then s.abandonColl c stCOLL_MISMATCH true
  else (s.closeColl c).collResult c

/-- Replace an open collective. -/
def Device.setColl (s : Device) (c : Coll) : Device :=
  s.setActive (s.coll.active.map fun x => if x.is c.scope c.seq then c else x)

/-- A collective is marked ended for the cores of this device that have not issued it yet (R192). -/
def Device.markDead (s : Device) (c : Coll) (status : Nat) : Device :=
  if c.full then s else s.setActive (s.coll.active ++ [{ c with dead := some (status, s.chorus.tickNo) }])

/-- TIMEOUT in ticks (R191). -/
def Device.collTimeout (s : Device) : Nat := s.rd 0 DISPATCH_COLL_CTL_TIMEOUT

/-- The collective that a core's command belongs to: the oldest of its scope that the core has not joined. -/
def Device.collFor (s : Device) (core scope : Nat) : Option Coll :=
  s.coll.active.find? fun c => c.scope = scope && c.attn.isNone && (clCores c.words).contains core && (c.partOf core).isNone &&
    (match c.dead with | some d => s.chorus.tickNo < d.2 + s.collTimeout | none => true)

/-- A core joins its collective with its input (R189): it opens one, joins one that is open, ends with one that has ended, or
is held while four are open. -/
def Device.collJoin (s : Device) (core : Nat) (i : Issue) (w : List Nat) (data : List Nat) : Device :=
  let part : CollPart := { core := core, issue := i, words := w, tick := s.startTick i.work, data := data }
  let scope := clScope w
  match s.collFor core scope with
  | some c =>
    match c.dead with
    | some d => (s.setColl { c with parts := c.parts ++ [part] }).endByColl core d.1 i.work
    | none =>
      let fresh := !(c.dies.contains (core / 64))
      let s0 := if fresh then s.addWrap (core / 64) DISPATCH_COLL_AUDIT_OPENED 1 else s
      let c1 := { c with parts := c.parts ++ [part] }
      if clShape w ≠ clShape c.words then
        ((s0.setColl c1).abandonColl c1 stCOLL_MISMATCH true).markDead c1 stCOLL_MISMATCH
      else
        let s1 := s0.setColl c1
        let s2 := if c1.full && !c1.members.isEmpty then
            s1.sendWords c1.members 9 [c1.scope, c1.seq, clKind w, clUnits w, bits (wd w 1) 16 4] (c1.own.flatMap fun x => x.1 :: x.2)
          else s1
        s2.collFinish c1
  | none =>
    if 4 ≤ (s.openIn scope).length then
      { s with coll := { s.coll with held := s.coll.held ++ [⟨0x15, { i with cores := [core] }, w, []⟩] } }
    else
      let members := if clGroupEn w then (s.group (core / 64) (s.workJob i.work) (clGroup w)).getD [] else []
      let x := s.openColl scope members part none
      match s.takeNotice scope x.2.seq with
      | some st =>
        let s1 := (x.1.abandonColl x.2 st false).markDead x.2 st
        { s1 with coll := { s1.coll with notices := s1.coll.notices.filter fun n => !(n.1 = scope && n.2.1 = x.2.seq) } }
      | none =>
        if x.2.remote.any fun r => [r.kind, r.units, r.rows] ≠ clShape w then
          (x.1.abandonColl x.2 stCOLL_MISMATCH true).markDead x.2 stCOLL_MISMATCH
        else
          let s1 := if x.2.full && !x.2.members.isEmpty then
              x.1.sendWords x.2.members 9 [scope, x.2.seq, clKind w, clUnits w, bits (wd w 1) 16 4] (x.2.own.flatMap fun y => y.1 :: y.2)
            else x.1
          s1.collFinish x.2

/-- A core issues a collective (R186, R190): its checks, its input's translation and read, then it joins. -/
def Device.collCore (s : Device) (core : Nat) (i : Issue) (w : List Nat) : Device :=
  let job := s.workJob i.work
  let r := s.clReason (core / 64) job w
  if r ≠ 0 then (s.recCollErr core job r).cmdStatus core stBAD_COMMAND r
  else if clKind w = 3 then s.collJoin core i w []
  else
    let n := 64 * clUnits w * clRows w
    let x := s.openPages core i ((clSrc w).pages job n false)
    if ¬ x.2 then x.1
    else
      let d := x.1.opRead core i.work (clSrc w) n
      if d.1.cmdOk core then d.1.collJoin core i w ((List.range (n / 4)).map fun k => elemAt d.2 32 k) else d.1

/-! ### The attention command's issue -/

/-- An attention command after its checks: a group merge takes the next sequence value of its group once its pages are
translated (R189), or is held while four are open, or ends with a notice's status. -/
def Device.attIssue (s : Device) (i : Issue) (w : List Nat) (raced : List (List Nat)) : Device :=
  let lead := i.cores.headD 0
  let job := s.workJob i.work
  if atScope w ≠ 3 then s.attRun i w raced none
  else
    match s.group (lead / 64) job (atGroup w) with
    | none => i.cores.foldl (fun s k => s.cmdStatus k stBAD_COMMAND 3) (s.recCollErr lead job 3)
    | some members =>
      let g := atGroup w
      if 4 ≤ (s.openIn g).length then { s with coll := { s.coll with held := s.coll.held ++ [⟨0x12, i, w, raced⟩] } }
      else
        let seq := SMap.get 0 s.coll.seq g
        match s.takeNotice g seq with
        | some st =>
          let s1 : Device := { s with coll := { s.coll with
            seq := SMap.put 0 s.coll.seq g ((seq + 1) % 2 ^ 32)
            notices := s.coll.notices.filter fun n => !(n.1 = g && n.2.1 = seq) } }
          i.cores.foldl (fun s k => s.endByColl k st i.work) s1
        | none =>
          let s1 := s.attRun i w raced (some (g, seq))
          if s1.att.cmds.any fun c => c.lead = lead then
            (s1.openColl g members { core := lead, issue := i, words := w, tick := s.startTick i.work, data := [] } (some lead)).1
          else s1

/-- The body of ATTENTION (R158, R159): the checks, made alike on every core, then the walker's work. -/
def attentionBody (i : Issue) (w : List Nat) (raced : List (List Nat)) (s : Device) : Device :=
  s.issue i w fun s =>
    match firstFail (s.atChecks i w) with
    | some c => i.cores.foldl (fun s k => s.refuse k i.work c) s
    | none => s.attIssue i w raced

/-- What a held command's scope is. -/
def HeldColl.scope (h : HeldColl) : Nat := if h.opcode = 0x12 then atGroup h.words else clScope h.words

/-- A held command can be issued: a collective of its scope waits for its core, or there is room for another. -/
def Device.heldGoes (s : Device) (h : HeldColl) : Bool :=
  decide ((s.openIn h.scope).length < 4) || (decide (h.opcode ≠ 0x12) && h.issue.cores.any fun k => (s.collFor k h.scope).isSome)

/-- Run what is held at issue in a scope, in order, while it can be issued (R189); `n` bounds the commands. -/
def Device.retryHeldN (s : Device) (scope : Nat) : Nat → Device
  | 0 => s
  | n + 1 =>
    match s.coll.held.find? fun h => decide (h.scope = scope) && s.heldGoes h with
    | none => s
    | some h =>
      let s1 : Device := { s with coll := { s.coll with held := s.coll.held.erase h } }
      Device.retryHeldN (if h.opcode = 0x12 then s1.attIssue h.issue h.words h.raced
        else h.issue.cores.foldl (fun s k => s.collCore k h.issue h.words) s1) scope n
def Device.retryHeld (s : Device) (scope : Nat) : Device := s.retryHeldN scope s.coll.held.length

/-- The body that the four collective commands share: each core of the issue joins, and a collective that closes makes room for what is held. -/
def collBody (i : Issue) (w : List Nat) (s : Device) : Device :=
  s.issue i w fun s => (s.onCores i fun core s => s.collCore core i w).retryHeld (clScope w)

/-- Attention commands whose rows have all ended are over: their collectives close, and held commands take their place. -/
def Device.attSweep (s : Device) : Device :=
  let fin := s.att.cmds.filter fun c => c.rows.all fun r => r.stage = .ended
  let s1 : Device := { s with att := { s.att with cmds := s.att.cmds.filter fun c => !(c.rows.all fun r => r.stage = .ended) } }
  fin.foldl (fun s c =>
    match c.coll with
    | none => s
    | some g => match s.coll.active.find? fun x => x.is g.1 g.2 with
      | some x => (s.closeColl x).retryHeld g.1
      | none => s) s1

/-! ### Merging attention partials (R154, R155) -/

/-- A partial as its 130 words, o then m and l (R155). DESIGN CHOICE (213): an EMPTY one is 130 words of 0; the `l` of any other is at least 1. -/
def partialWords : Option Partial → List Nat
  | none => List.replicate 130 0
  | some p => p.o ++ [p.m, p.l]
def partialOf (l : List Nat) : Option Partial := if l.length = 130 ∧ wd l 129 ≠ 0 then some ⟨wd l 128, wd l 129, l.take 128⟩ else none

/-- The members' package partials of a row, when all are in: in ascending device ID, this device's among them. -/
def Device.groupPartials (s : Device) (x : Coll) (row nq : Nat) (mine : List (Option Partial)) : Option (List (List (Option Partial))) :=
  let of := fun (dev : Nat) => x.remote.findSome? fun c =>
    if c.dev = dev && c.kind = 4 && (c.data.any fun d => d.1 / 256 = row) then
      some ((List.range nq).map fun g => (c.data.find? fun d => d.1 = row * 256 + g).bind fun d => partialOf d.2)
    else none
  let all := ((s.deviceId :: x.members).mergeSort).map fun d => if d = s.deviceId then some mine else of d
  if all.all (·.isSome) then some (all.map fun o => o.getD []) else none

/-- A row's group merge completes when every member's package partial is in (R155). -/
def Device.groupMerge (s : Device) (c : AttCmd) (r : AttRow) : Device :=
  match c.coll.bind fun g => s.coll.active.find? fun x => x.is g.1 g.2, r.arrived 3 0 with
  | some x, some mine =>
    match s.groupPartials x r.idx (s.nq c r) mine with
    | some l => let y := s.writeOutput c r (combineHeads l (s.nq c r)); y.1.endRow c y.2 stDONE
    | none => s
  | _, _ => s

/-- A node's partial of a row has come to a level above, and its parent's is formed if it was the last (R155). -/
def Device.mergeNode (s : Device) (c : AttCmd) (r : AttRow) (level node : Nat) : Device :=
  match r.parts.find? fun p => p.1 = level * 256 + node && !p.2.1 with
  | none => s
  | some p =>
    let r1 := { r with parts := r.parts.map fun x => if x.1 = p.1 then (x.1, true, x.2.2) else x }
    let parent := if level < 2 then node / 8 else 0
    let kids := (homeNodes c.words level).filter fun k => level = 2 || k / 8 = parent
    let done := kids.all fun k => (r1.arrived level k).isSome
    let die := if level = 0 then node / 64 else if level = 1 then node / 8 else node
    let s1 := if level = 0 then
        let k := node / 8 % 8
        let t := s.addWrap die (CLUSTER_MERGE_AUDIT_PARTIAL_IN k) (if done then 1 + (8 - kids.length) else 1)
        if done then t.addWrap die (CLUSTER_MERGE_AUDIT_PARTIAL_OUT k) 1 else t
      else s
    if ¬ done then s1.setRow c.lead r1
    else
      let up := combineHeads ((childNodes (level + 1) parent).map fun k => (r1.arrived level k).getD []) (s.nq c r)
      let r2 := { r1 with parts := r1.parts ++ [((level + 1) * 256 + parent, false, up)] }
      if level = 1 && atScope c.words = 1 then
        let y := s1.writeOutput c r2 up
        let ends := (homeNodes c.words 2).all fun d => r2.parts.any fun x => x.1 = 512 + d
        if ends then y.1.endRow c y.2 stDONE else y.1.setRow c.lead y.2
      else if level = 2 && atScope c.words = 2 then let y := s1.writeOutput c r2 up; y.1.endRow c y.2 stDONE
      else s1.setRow c.lead r2

/-- The package partial of a row goes to the other members of its group (R155). -/
def Device.sendPackage (s : Device) (c : AttCmd) (r : AttRow) : Device :=
  match r.parts.find? fun p => p.1 = 3 * 256 && !p.2.1, c.coll with
  | some p, some g =>
    let r1 := { r with parts := r.parts.map fun x => if x.1 = p.1 then (x.1, true, x.2.2) else x }
    let s1 := (s.setRow c.lead r1).sendWords
      ((s.coll.active.filter fun x => x.is g.1 g.2).flatMap (·.members)) 9 [g.1, g.2, r.idx] (p.2.2.flatMap partialWords)
    s1.groupMerge c r1
  | _, _ => s

/-- The command in flight that a core leads, and a row of it. -/
def Device.attCmd (s : Device) (lead : Nat) : Option AttCmd := s.att.cmds.find? fun c => c.lead = lead
def AttCmd.row (c : AttCmd) (k : Nat) : Option AttRow := c.rows.find? fun r => r.idx = k

/-- A sequence value still to be issued here. -/
def Device.collAhead (s : Device) (scope seq : Nat) : Bool :=
  (seq + 2 ^ 32 - SMap.get 0 s.coll.seq scope) % 2 ^ 32 < 2 ^ 31

/-- A contribution that no open collective takes: kept if its collective is still to be issued here, else dropped and
counted (R193). -/
def Device.strayContribution (s : Device) (die : Nat) (x : Contribution) : Device :=
  if s.collAhead x.group x.seq && (s.takeNotice x.group x.seq).isNone then { s with coll := { s.coll with early := s.coll.early ++ [x] } }
  else s.addHold die DISPATCH_COLL_STATUS_LATE 1

/-- The body of MERGE_PARTIAL (R154, R155, R193). -/
def mergePartialBody (m : MergeFrom) (s : Device) : Device :=
  match m with
  | .node lead row level node =>
    match (s.attCmd lead).bind fun c => (c.row row).map fun r => (c, r) with
    | none => s
    | some (c, r) =>
      if r.stage ≠ .merge then s
      else if level = 3 then (s.sendPackage c r).attSweep
      else (s.mergeNode c r level node).attSweep
  | .member _ die group seq dev row heads =>
    let x : Contribution :=
      { group := group, seq := seq, dev := dev, kind := 4, units := 0, rows := 0
        data := (heads.zipIdx).map fun h => (row * 256 + h.2, h.1) }
    match s.coll.active.find? fun c => c.is group seq && c.attn.isSome && c.dead.isNone with
    | none => s.strayContribution die x
    | some c =>
      let s1 := s.setColl { c with remote := c.remote ++ [x] }
      match (c.attn.bind s1.attCmd).bind fun a => (a.row row).map fun r => (a, r) with
      | some (a, r) => if r.stage = .merge then (s1.groupMerge a r).attSweep else s1
      | none => s1

/-! ### Contributions, timeouts, notices (R189 to R193) -/

/-- Rows of an attention command end with its collective's status and write no output (R191). -/
def Device.attEndAll (s : Device) (lead status : Nat) : Device :=
  match s.attCmd lead with
  | none => s
  | some c => c.rows.foldl (fun s r => if r.stage = .ended then s else s.endRow c r status) s

/-- End an open collective with a status: its rows first, if it is an attention command's. -/
def Device.collEnds (s : Device) (c : Coll) (status : Nat) (notify : Bool) : Device :=
  let s1 := match c.attn with | some l => s.attEndAll l status | none => s
  let s2 := s1.abandonColl c status notify
  let s3 : Device := { s2 with att := { s2.att with cmds := s2.att.cmds.filter fun a => !(a.rows.all fun r => r.stage = .ended) } }
  (if c.attn.isNone then s3.markDead c status else s3).retryHeld c.scope

/-- The body of COLLECTIVE_CONTRIBUTION (R189, R193). -/
def contributionBody (a : Arrival) (s : Device) : Device :=
  let x : Contribution := { group := a.group, seq := a.seq, dev := a.dev, kind := a.kind, units := a.units, rows := a.rows, data := a.data }
  match s.coll.active.find? fun c => c.is a.group a.seq && c.attn.isNone && c.dead.isNone with
  | none => s.strayContribution a.die x
  | some c =>
    if [a.kind, a.units, a.rows] ≠ clShape c.words then s.collEnds c stCOLL_MISMATCH true
    else
      let c1 := { c with remote := c.remote ++ [x] }
      ((s.setColl c1).collFinish c1).retryHeld c.scope

/-- The body of COLLECTIVE_TIMEOUT (R191): a collective open at the deadline of one of its parts ends with COLL_TIMEOUT. -/
def collTimeoutBody (scope seq : Nat) (s : Device) : Device :=
  match s.coll.active.find? fun c => c.is scope seq && c.dead.isNone with
  | some c => if c.parts.any fun p => p.tick + s.collTimeout ≤ s.chorus.tickNo then s.collEnds c stCOLL_TIMEOUT true else s
  | none => s

/-- The body of ABANDON_NOTICE (R192): an open collective ends with the status, one not issued yet is recorded, and one
already complete is counted. -/
def abandonNoticeBody (die group seq status : Nat) (s : Device) : Device :=
  match s.coll.active.find? fun c => c.is group seq && c.dead.isNone with
  | some c => s.collEnds c status false
  | none =>
    if s.collAhead group seq then { s with coll := { s.coll with notices := s.coll.notices ++ [(group, seq, status)] } }
    else if s.coll.gone.contains (group, seq) then s
    else s.addHold die DISPATCH_COLL_STATUS_DONE_ABANDONED 1

/-- A collective waits on a member: its contribution is not in, or, for an attention command, a row's package partial is not. -/
def Device.waitsOn (s : Device) (c : Coll) (dev : Nat) : Bool :=
  c.members.contains dev && match c.attn.bind s.attCmd with
    | none => !(c.remote.any fun x => x.dev = dev)
    | some a => a.rows.any fun r => r.stage ≠ .ended && !(c.remote.any fun x => decide (x.dev = dev) && x.data.any fun d => decide (d.1 / 256 = r.idx))

/-- A member is lost (R193): the collectives that wait on it end with LINK_LOST and are abandoned. -/
def Device.memberLost (s : Device) (dev : Nat) : Device :=
  (s.coll.active.filter fun c => c.dead.isNone && s.waitsOn c dev).foldl
    (fun s c => s.collEnds c stLINK_LOST true) s

/-- A slice's collectives end at its hard limit in the same way (R191). -/
def Device.sliceCollEnds (s : Device) (die idx : Nat) : Device :=
  (s.coll.active.filter fun c => c.dead.isNone && c.work = .slice die idx).foldl (fun s c => s.collEnds c stCOLL_TIMEOUT true) s

/-! ### Segments (R197 to R200) -/

/-- The fields of a segment command (R198). -/
def sgDie (w : List Nat) : Nat := bits (wd w 1) 30 2
def sgTag (w : List Nat) : Nat := bits (wd w 1) 22 8
def sgFirst (w : List Nat) : Nat := bits (wd w 1) 18 4
def sgJoints (w : List Nat) : Nat := bits (wd w 1) 14 4
def sgWps (w : List Nat) : Nat := bits (wd w 1) 11 3
def sgTpw (w : List Nat) : Nat := bits (wd w 1) 7 4
def sgTokens (w : List Nat) : Opnd := opndAt w 2
def sgBins (w : List Nat) : Opnd := opndAt w 4
def sgBase (w : List Nat) : Nat := bits (wd w 6) 16 16
def sgNbins (w : List Nat) : Nat := bits (wd w 6) 0 16

/-- The segment queue of a die. -/
def Device.segs (s : Device) (die : Nat) : List Segment := SMap.get [] s.coll.segs die

/-- The pool's entry `k` in a die's reflex store (R197): the manual does not say where the pool lies, so its place is free. -/
def segAddr (die k : Nat) : Nat := reflexBase die + 64 * (Config.segPlace % ((0x1000000 - 64 * 576) / 64)) + 576 * k

/-- The 576 bytes of an entry (R197), as a number. -/
def Segment.image (x : Segment) : Nat :=
  x.seq % 65536 + x.tag % 256 * 2 ^ 16 + (1 + 2 * b2n x.commit + 4 * b2n x.cancelled) * 2 ^ 24 +
  (x.first % 16 + (x.wps - 1) % 8 * 16) * 2 ^ 32 + (x.joints - 1) % 16 * 2 ^ 40 + x.tStart % 2 ^ 64 * 2 ^ 64 + x.dt % 2 ^ 32 * 2 ^ 128 +
  x.obs % 2 ^ 64 * 2 ^ 192 + packBits 32 x.pos * 2 ^ 512

/-- Replace a die's segment queue, with its entries' bytes (R197) and the counts it shows (R201): an entry that leaves is not VALID. -/
def Device.setSegs (s : Device) (die : Nat) (l : List Segment) : Device :=
  let old := s.segs die
  let s0 := (old.filter fun x => !l.any fun y => decide (y.slot = x.slot)).foldl (fun s x => s.writeWords (segAddr die x.slot + 3) 1 0) s
  let s0 := (l.filter fun x => !old.any fun y => decide (y.slot = x.slot) && decide (y.image = x.image)).foldl
    (fun s x => s.writeWords (segAddr die x.slot) 576 x.image) s0
  let s1 : Device := { s0 with coll := { s0.coll with segs := SMap.put [] s0.coll.segs die l } }
  (s1.wr die DISPATCH_SEG_STATUS_OCCUPIED l.length).wr die DISPATCH_SEG_STATUS_UNCOMMITTED (l.filter fun x => !x.commit).length

/-- The lowest place of a die's pool of 64 that no entry uses. -/
def Device.segPlace (s : Device) (die : Nat) : Nat :=
  ((List.range 64).find? fun k => !(s.segs die).any fun x => x.slot = k).getD 0

/-- The checks of a segment command. -/
def sgChecks (w : List Nat) : List Check :=
  [⟨1, 1, 15 < sgFirst w + sgJoints w || sgTpw w < sgFirst w + sgJoints w⟩, ⟨1, 6, sgNbins w = 0 || 4096 < sgNbins w⟩,
   ⟨2, 3, badSpace (sgTokens w)⟩, ⟨2, 5, badSpace (sgBins w)⟩,
   ⟨7, 2, !(sgTokens w).fits (2 * ((sgWps w + 1) * (sgTpw w + 1)))⟩, ⟨7, 4, !(sgBins w).fits (8 * (sgTpw w + 1))⟩,
   ⟨9, 1, bits (wd w 1) 0 7 ≠ 0⟩, ⟨9, 3, bits (wd w 3) 16 14 ≠ 0⟩, ⟨9, 5, bits (wd w 5) 16 14 ≠ 0⟩, ⟨9, 12, (w.drop 12).any (· ≠ 0)⟩]

/-- What a segment command does after its checks and translations (R198). -/
def segmentRun (core : Nat) (i : Issue) (w : List Nat) (s : Device) : Device :=
  let die := sgDie w
  let tpw := sgTpw w + 1
  let js := (List.range (sgJoints w + 1)).map (sgFirst w + ·)
  let ws := List.range (sgWps w + 1)
  let t := s.opRead core i.work (sgTokens w) (2 * (ws.length * tpw))
  let b := t.1.opRead core i.work (sgBins w) (8 * tpw)
  if ¬ b.1.cmdOk core then b.1
  else
    let tok := fun (k j : Nat) => elemAt t.2 16 (k * tpw + j)
    if ws.any fun k => js.any fun j => tok k j < sgBase w || sgBase w + sgNbins w ≤ tok k j then b.1.cmdStatus core stBAD_ACTION 0
    else if ¬ b.1.routeUp (core / 64) die then
      (b.1.timeoutErr (core / 64) (core % 64) (reflexBase die) false true).cmdStatus core stTIMEOUT 0
    else if 64 ≤ (b.1.segs die).length then b.1.cmdStatus core stQUEUE_FULL 0
    else
      let pos := ws.flatMap fun k => (List.range 16).map fun j =>
        if js.contains j then convFloat 0xA (dec32 (fma32 (ofInt32 ((tok k j : Int) - sgBase w)) (elemAt b.2 32 (2 * j + 1)) (elemAt b.2 32 (2 * j))))
        else (0, {})
      let seq := SMap.get 0 b.1.coll.segSeq die
      let x : Segment := { seq := seq, tag := sgTag w, commit := decide (sgTag w = 0), first := sgFirst w, wps := sgWps w + 1,
                           joints := sgJoints w + 1, tStart := wd2 w 7, dt := wd w 9, obs := wd2 w 10, pos := pos.map (·.1),
                           slot := b.1.segPlace die }
      let s1 := (b.1.numFlags core (pos.foldl (fun c p => c.join p.2) {})).setSegs die (b.1.segs die ++ [x])
      ({ s1 with coll := { s1.coll with segSeq := SMap.put 0 s1.coll.segSeq die ((seq + 1) % 65536) } }).addWrap die
        DISPATCH_SEG_AUDIT_WRITTEN 1

/-- The body of SEGMENT (R198): a gang's command acts once, on its lowest core. -/
def segmentBody (i : Issue) (w : List Nat) (s : Device) : Device :=
  s.issue i w fun s =>
    let core := i.cores.headD 0
    let job := s.workJob i.work
    s.runChecked core i (sgChecks w)
      ((sgTokens w).pages job (2 * ((sgWps w + 1) * (sgTpw w + 1))) false ++ (sgBins w).pages job (8 * (sgTpw w + 1)) false)
      (segmentRun core i w)

/-- The body of RESOLVE (R199): the resolve waits for the next sample edge with the entries written before it. -/
def resolveBody (i : Issue) (w : List Nat) (s : Device) : Device :=
  s.issue i w fun s =>
    let core := i.cores.headD 0
    let bad := bit (wd w 1) 30 || bits (wd w 1) 4 18 ≠ 0 || (w.drop 2).any (· ≠ 0)
    if bad then s.refuse core i.work ⟨9, 1, true⟩
    else
      let dies := bitList (bits (wd w 1) 0 4) 4
      let q : ResolveReq :=
        { tag := bits (wd w 1) 22 8, cancel := bit (wd w 1) 31, dies := dies
          segs := dies.flatMap fun d => (s.segs d).map fun x => (d, x.seq), core := core }
      { s with coll := { s.coll with resolves := s.coll.resolves ++ [q] } }

/-- A resolve's effect on the segment queues at the edge (R199): the count of entries it acts on goes to its completion. -/
def Device.resolveSegs (s : Device) (q : ResolveReq) : Device :=
  let hit := fun (d : Nat) (x : Segment) => x.tag = q.tag && !x.commit && q.segs.contains (d, x.seq)
  let n := q.dies.foldl (fun n d => n + ((s.segs d).filter (hit d)).length) 0
  let s1 := q.dies.foldl (fun s d =>
    let k := ((s.segs d).filter (hit d)).length
    if q.cancel then (s.setSegs d ((s.segs d).filter fun x => !hit d x)).addWrap d DISPATCH_SEG_AUDIT_FREED k
    else s.setSegs d ((s.segs d).map fun x => if hit d x then { x with commit := true } else x)) s
  match s1.cmd q.core with
  | some c => s1.setCmd q.core (some { c with count := n })
  | none => s1

end Sys2Proof.Machine
end

