-- ==== Sys2Proof/Machine/Lend.lean ====
section
/-!
DEFINITION. The lend windows of reserved cores (R212 reason 0x13, R220, R224): the store bytes that a core command names, and the
dispatcher's refusal of a lent kernel's command that names bytes outside its core's window.
-/
namespace Sys2Proof.Machine

/-- Store bytes of rows at a stride. -/
def rowsUse (o : Opnd) (rows stride n : Nat) : Opnd × Nat := (o, (rows - 1) * stride + n)

/-- The store bytes that a core's command names, as operands with lengths (R125, R128, R170, R175, R186, R198). -/
def Device.storeUses (s : Device) (core : Nat) (w next : List Nat) : List (Opnd × Nat) :=
  match hdOpcode w with
  | 0x10 =>
    let nt := (mxN w + 15) / 16
    let nOut := mxOutCols w next
    [rowsUse (mxA w) (mxM w) (mxAStride w) (packedBytes (fmtBits (mxAFmt w)) (mxK w)), (mxB w, nt * ntileBytes (mxBFmt w) (mxK w))] ++
    (if isMx (mxAFmt w) then [(mxAScale w, mxM w * mxKB w)] else []) ++
    (if isMx (mxBFmt w) then [(mxBScale w, nt * mxKB w * 16)] else []) ++
    [rowsUse (mxC w) (mxM w) (mxCStride w) (packedBytes (fmtBits (mxOutFmt w)) nOut)] ++
    (if isMx (mxOutFmt w) then [(mxCScale w, mxM w * ((nOut + 31) / 32))] else [])
  | 0x11 =>
    let ops := gtOps w
    let linked := SMap.get none s.link core
    let rows := match linked with | some m => mxM m.words | none => gtRows w
    let out := gtOutCols w (gtCols w)
    let reds := (ops.filter opReduce).length
    (if ops.any fun o => opSrc o = 1 then [(gtV w, (if bit (wd w 8) 29 then 2 else 4) * out)] else []) ++
    (if linked.isNone then
      [rowsUse (gtX w) rows (64 * bits (wd w 11) 16 16) (fmtBits (gtInFmt w) / 8 * gtCols w),
       rowsUse (gtOut w) rows (64 * bits (wd w 11) 0 16) (fmtBits (gtOutFmt w) / 8 * out)] else []) ++
    (if reds ≠ 0 then [(gtSide w, (rows - 1) * 16 + 4 * reds)] else [])
  | 0x13 =>
    let h := s.stHeader core (rcOff w)
    let wTot := 2 ^ rcLog2 w * shWc h
    [(⟨1, rcOff w⟩, shBytes h), (⟨2, shXch h⟩, 2 * (shRows h * shXchRow h wTot)),
     rowsUse (rcX w) (rcSteps w) (rcXStep w) ((shRows h - 1) * rcXRow w + rowBytes (shAFmt h) (shKx h)),
     rowsUse (rcOut w) (rcSteps w) (rcOutStep w) ((shRows h - 1) * rcOutRow w + rowBytes (shOutFmt h) wTot)] ++
    (if rcMaskEn w then [(rcMask w, 64 * rcSteps w)] else []) ++
    (if rcAnchorEn w ∧ (rcAnchor w).addr ≠ 0 then [(rcAnchor w, anchorBytes h wTot * (rcSteps w / max 1 (shAnchorN h)))] else [])
  | 0x14 => [(⟨1, rcOff w⟩, shBytes (s.stHeader core (rcOff w)))]
  | 0x15 =>
    let n := 16 * clUnits w
    if clKind w = 3 then []
    else
      [(clSrc w, 4 * n * clRows w), (clDst w, clRows w * (if clKind w = 1 then 4 * n else rowBytes (clOutFmt w) n))] ++
      (if clResEn w then [(clRes w, 4 * n * clRows w)] else []) ++ (if clNormEn w ∨ clKind w = 2 then [(clV w, 4 * n)] else [])
  | 0x16 => [(sgTokens w, 2 * ((sgWps w + 1) * (sgTpw w + 1))), (sgBins w, 8 * (sgTpw w + 1))]
  | _ => []

/-- Bytes of a store lie in the lend window of a core (R224). -/
def Device.inWindow (s : Device) (core : Nat) (o : Opnd) (n : Nat) : Bool :=
  let die := core / 64
  let k := core % 64
  let base := if o.space = 1 then s.rd die (DISPATCH_LEND_STORE_BASE_4K k) * 0x1000 else s.rd die (DISPATCH_LEND_CL_BASE_16K k) * 0x4000
  let len := if o.space = 1 then s.rd die (DISPATCH_LEND_STORE_LEN_4K k) * 0x1000 else s.rd die (DISPATCH_LEND_CL_LEN_16K k) * 0x4000
  o.space = 3 || (decide (base ≤ o.addr) && decide (o.addr + n ≤ base + len))

/-- The bytes of a virtual range that lie in the core store or the cluster store of a core, by its job's tables, lie in its lend window (R220). -/
def Device.vaInWindow (s : Device) (core job va n : Nat) : Bool :=
  let own := coreStoreBase (core / 64) (core % 64)
  let cl := clusterStoreBase (core / 64) (core % 64 / 8)
  (pagesOf job va n).all fun p =>
    let lo := max va p
    let m := min (va + n) (p + 0x10000) - lo
    match s.paOf (core / 64) job lo with
    | some a =>
      if own < a + m ∧ a < own + 0x40000 then s.inWindow core ⟨1, a - own⟩ m
      else if cl < a + m ∧ a < cl + 0x200000 then s.inWindow core ⟨2, a - cl⟩ m
      else true
    | none => true

/-- A ring's command names store bytes of a reserved core outside its window. -/
def Device.lendBad (s : Device) (i : Issue) (w next : List Nat) : Bool :=
  match i.work with
  | .slice _ _ => false
  | .ring _ => i.cores.any fun c => s.reservedCore c && (s.storeUses c w next).any fun u =>
      if u.1.space = 0 then !s.vaInWindow c (s.workJob i.work) u.1.addr u.2 else !s.inWindow c u.1 u.2

/-- A core command passes the dispatcher's check of lend windows, and runs; or it is issued and refused (R212). -/
def Device.lent (s : Device) (i : Issue) (w next : List Nat) (body : Device → Device) : Device :=
  if s.lendBad i w next ∧ s.dispatchReason i w = 0 then
    s.issue i w fun (s : Device) =>
      let s1 := match i.work with | .ring g => s.dispatchErr g 0x13 | .slice _ _ => s
      i.cores.foldl (fun (s : Device) k => s.cmdStatus k stBAD_COMMAND 0x13) s1
  else body s

end Sys2Proof.Machine
end

