-- ==== Sys2Proof/Machine/Ingest.lean ====
section
/-!
DEFINITION. Sensor ingest (chapter 11, R236 to R245): camera frames, Ethernet datagrams, IMU and odometry samples, their
checks, the stream states, rectification of camera lines and points of depth cameras.
-/
namespace Sys2Proof.Machine

/-! ### Streams (R236) -/

/-- The kind a slot of a die has, or none where it is reserved or absent. -/
def slotKind (die slot : Nat) : Option Nat :=
  if slot < 24 then some 0
  else if slot < 56 then some 1
  else if die = 0 ∧ slot < 60 then some 2
  else if die = 0 ∧ slot = 60 then some 3
  else none

/-- A stream's run-time and writing it back, by global number. -/
def Device.stream (s : Device) (g : Nat) : Stream := SMap.get {} s.fusion.streams g
def Device.setStream (s : Device) (g : Nat) (x : Stream) : Device :=
  { s with fusion := { s.fusion with streams := SMap.put {} s.fusion.streams g x } }

/-- The fields of the CFG and CHK registers of a slot. -/
def cfgFlds (n : Nat) : List Fld :=
  [INGEST_STREAM_CFG_EN n, INGEST_STREAM_CFG_KIND n, INGEST_STREAM_CFG_MODALITY n, INGEST_STREAM_CFG_SAFETY_SET n,
    INGEST_STREAM_CFG_REDUNDANT n, INGEST_STREAM_CFG_CNT_BITS n, INGEST_STREAM_CFG_ENET_PORT n,
    INGEST_STREAM_CFG_DATA_TYPE n, INGEST_STREAM_CFG_DEPTH_STEP n, INGEST_STREAM_CFG_CALIB n]
def chkFlds (n : Nat) : List Fld :=
  [INGEST_STREAM_CHK_FROZEN_EN n, INGEST_STREAM_CHK_DEPTH_M1 n, INGEST_STREAM_CHK_FROZEN_N n,
    INGEST_STREAM_CHK_STALE_TICKS n, INGEST_STREAM_CHK_SECTORS n]
def rectFlds (n : Nat) : List Fld := [INGEST_STREAM_RECT_RECT_EN n, INGEST_STREAM_RECT_GRID_OFF n]

/-- The word that a die's fields form. -/
def Device.word (s : Device) (die : Nat) (l : List Fld) : Nat := (l.map fun f => s.rd die f * 2 ^ f.lo).foldl (· + ·) 0

/-- The value a field will have after the next sample edge: its latest waiting write, or what is in force. -/
def Device.edgeVal (s : Device) (die : Nat) (f : Fld) : Nat :=
  match s.edgeWrites.reverse.find? fun w => w.1 = f ∧ w.2.1 = die with
  | some w => w.2.2
  | none => s.rd die f

/-- A write of a register's fields that takes effect at the next sample edge. -/
def Device.writeAtEdge (s : Device) (die : Nat) (l : List Fld) (value : Nat) : Device :=
  { s with edgeWrites := s.edgeWrites ++ l.map fun f => (f, die, bits value f.lo f.w) }

/-- Refuse a write to the INGEST block. -/
def Device.ingestRange (s : Device) (die : Nat) : Device := s.set die INGEST_STATUS_RANGE_ERR

/-- A write to a stream register changes a field other than EN while EN is 1 (R244). -/
def Device.streamLocked (s : Device) (die slot : Nat) (l : List Fld) (value : Nat) : Bool :=
  s.on die (INGEST_STREAM_CFG_EN slot) && l.any fun f => decide (f ≠ INGEST_STREAM_CFG_EN slot) && decide (bits value f.lo f.w ≠ s.rd die f)

/-- An EN would give two enabled streams of a die the same Ethernet and UDP port (R239). -/
def Device.portTaken (s : Device) (die slot value : Nat) : Bool :=
  (List.range 64).any fun n =>
    decide (n ≠ slot) && decide (s.edgeVal die (INGEST_STREAM_CFG_EN n) = 1) && decide (s.edgeVal die (INGEST_STREAM_CFG_KIND n) = 1) &&
    decide (s.edgeVal die (INGEST_STREAM_CFG_ENET_PORT n) = bits value 20 1) &&
    decide (s.rd die (INGEST_STREAM_ETH_UDP_PORT n) = s.rd die (INGEST_STREAM_ETH_UDP_PORT slot))

/-- The body of STREAM_CFG_WRITE (R236, R239, R244, R262): a write to a stream's CFG register, or to its CHK register. -/
def streamCfgBody (die slot : Nat) (chk : Bool) (value : Nat) (s : Device) : Device :=
  if chk then
    if bits value 24 4 = 0 ∨ bits value 16 8 = 0 ∨ s.streamLocked die slot (chkFlds slot) value then s.ingestRange die
    else s.writeAtEdge die (chkFlds slot) value
  else
    let refused : Bool := match slotKind die slot with
      | none => bit value 31 || decide (61 ≤ slot) || decide (bits value 28 3 ≠ if slot = 60 then 3 else 2)
      | some k => decide (bits value 28 3 ≠ k) || (bit value 31 && decide (k = 1) && s.portTaken die slot value)
    if refused ∨ bits value 25 3 = 7 ∨ s.streamLocked die slot (cfgFlds slot) value then s.ingestRange die
    else s.writeAtEdge die (cfgFlds slot) value

/-- A stream counts (R244): it is OK and not disputed. -/
def Device.counting (s : Device) (g : Nat) : Bool :=
  s.rd (g / 64) (INGEST_STREAM_STATE_STATE (g % 64)) = 2 && !s.on (g / 64) (INGEST_STREAM_STATE_DISPUTED (g % 64))

/-- Every stream by global number. -/
def allStreams : List Nat := List.range 256

/-! ### Checks and states (R242 to R244) -/

/-- A stream fails with a cause; its run of accepted frames starts again. -/
def Device.streamFails (s : Device) (g cause : Nat) : Device :=
  (((s.wr (g / 64) (INGEST_STREAM_STATE_STATE (g % 64)) 3).wr (g / 64) (INGEST_STREAM_STATE_CAUSE (g % 64)) cause).clr
    (g / 64) (INGEST_STREAM_STATE_RUN (g % 64))).setStream g { s.stream g with bads := 0, reps := 0 }

/-- A bad frame or sample: the third in a row fails a stream that is OK. -/
def Device.streamBad (s : Device) (g : Nat) : Device :=
  let x := s.stream g
  let s1 := ((s.addHold (g / 64) (INGEST_STREAM_COUNT_BAD (g % 64)) 1).clr (g / 64) (INGEST_STREAM_STATE_RUN (g % 64))).setStream g
    { x with bads := x.bads + 1, reps := 0 }
  if s.rd (g / 64) (INGEST_STREAM_STATE_STATE (g % 64)) = 2 ∧ 3 ≤ x.bads + 1 then s1.streamFails g 1 else s1

/-- A repeat: the FROZEN_N-th in a row fails a stream that is OK. -/
def Device.streamRepeat (s : Device) (g frozenN : Nat) : Device :=
  let x := s.stream g
  let s1 := ((s.addHold (g / 64) (INGEST_STREAM_COUNT_REPEAT (g % 64)) 1).clr (g / 64) (INGEST_STREAM_STATE_RUN (g % 64))).setStream g
    { x with reps := x.reps + 1, bads := 0 }
  if s.rd (g / 64) (INGEST_STREAM_STATE_STATE (g % 64)) = 2 ∧ frozenN ≤ x.reps + 1 then s1.streamFails g 2 else s1

/-- An accepted frame or sample: WAIT goes to OK, FAILED to OK after 64 in a row. -/
def Device.streamAccept (s : Device) (g ts : Nat) : Device :=
  let d := g / 64
  let n := g % 64
  let s1 := (s.addHold d (INGEST_STREAM_STATE_RUN n) 1).setStream g
    { s.stream g with bads := 0, reps := 0, acc := true, came := some s.chorus.time, newest := some ts }
  let st := s.rd d (INGEST_STREAM_STATE_STATE n)
  if st = 1 then s1.wr d (INGEST_STREAM_STATE_STATE n) 2
  else if st = 3 ∧ 64 ≤ s1.rd d (INGEST_STREAM_STATE_RUN n) then
    (s1.wr d (INGEST_STREAM_STATE_STATE n) 2).clr d (INGEST_STREAM_STATE_CAUSE n)
  else s1

/-- The step from the last counter to this one (R242); a camera's sequence runs 1 to 65,535 and skips 0. -/
def counterStep (camera : Bool) (w last cnt : Nat) : Nat :=
  if camera then (if cnt = 0 then 0 else (cnt + 65535 - last) % 65535 % 2 ^ w) else (cnt + 2 ^ w - last % 2 ^ w) % 2 ^ w

/-- The width that CNT_BITS gives the counter. -/
def cntWidth (code : Nat) : Nat := if code = 1 then 8 else if code = 2 then 16 else 32

/-- The checks of R242 on a frame or sample of a stream, under the CFG and CHK words given: the state after them and the
outcome, 0 bad, 1 repeat, 2 accepted. -/
def Device.checkSample (s : Device) (g cfg chk : Nat) (bad : Bool) (cnt ts : Nat) (crc : Option Nat) : Device × Nat :=
  let x := s.stream g
  if bad then (s.streamBad g, 0)
  else
    let w := cntWidth (bits cfg 21 2)
    let d := match x.cnt with
      | some l => if bits cfg 21 2 = 0 then 1 else counterStep (bits cfg 28 3 = 0) w l cnt
      | none => 1
    if d = 0 ∨ 2 ^ (w - 1) ≤ d then (s.streamBad g, 0)
    else
      let s1 := s.addHold (g / 64) (INGEST_STREAM_COUNT_DROPPED (g % 64)) (d - 1)
      let early : Bool := match x.last with | some l => decide (ts ≤ l) | none => false
      if early ∨ s.chorus.time + 1000000 < ts then (s1.streamBad g, 0)
      else
        let seen : Bool := match crc with
          | some c => bit chk 31 && (x.crcs.take (bits chk 28 3 + 1)).contains c
          | none => false
        let s2 := s1.setStream g { x with
          cnt := some cnt
          last := some ts
          crcs := match crc with | some c => (c :: x.crcs).take 8 | none => x.crcs }
        if seen then (s2.streamRepeat g (bits chk 24 4), 1) else (s2.streamAccept g ts, 2)

/-- One step of the CRC-32 of IEEE 802.3 over a byte, reflected (R243). -/
def crcByte (c b : Nat) : Nat :=
  (List.range 8).foldl (fun c _ => if c % 2 = 1 then c / 2 ^^^ 0xEDB88320 else c / 2) (c ^^^ b % 256)

/-- The CRC-32 of IEEE 802.3 over bytes. -/
def crc32 (l : List Nat) : Nat := l.foldl crcByte 0xFFFFFFFF ^^^ 0xFFFFFFFF

/-- The timestamp of a sample (R241): its reference time adjusted by ADJ_NS. -/
def Device.adjusted (s : Device) (g ref : Nat) : Nat :=
  ((ref : Int) + sext 32 (s.rd (g / 64) (INGEST_STREAM_ADJ_ADJ_NS (g % 64)))).toNat

/-- The body of STREAM_STALE (R244). -/
def streamStaleBody (die slot : Nat) (s : Device) : Device :=
  let st := s.rd die (INGEST_STREAM_STATE_STATE slot)
  if (st = 1 ∨ st = 2) ∧ s.rd die (INGEST_STREAM_CHK_STALE_TICKS slot) ≤ (s.stream (die * 64 + slot)).ticks then
    s.streamFails (die * 64 + slot) 3
  else s

/-- A stream's part of a sample edge (R244): EN taken into force, and the ticks without an accepted frame counted. -/
def Device.streamEdge (s : Device) (g : Nat) : Device :=
  let d := g / 64
  let n := g % 64
  let st := s.rd d (INGEST_STREAM_STATE_STATE n)
  if ¬ s.on d (INGEST_STREAM_CFG_EN n) then
    if st = 0 then s
    else ((((s.clr d (INGEST_STREAM_STATE_STATE n)).clr d (INGEST_STREAM_STATE_CAUSE n)).clr d (INGEST_STREAM_STATE_RUN n)).setStream g {})
  else if st = 0 then
    (((s.wr d (INGEST_STREAM_STATE_STATE n) 1).clr d (INGEST_STREAM_STATE_CAUSE n)).clr d (INGEST_STREAM_STATE_RUN n)).setStream g {}
  else
    let x := s.stream g
    s.setStream g { x with ticks := if x.acc then 0 else x.ticks + 1, acc := false }

/-! ### The fusion store and the observation buffer -/

/-- The number whose little-endian bytes are `l`. -/
def ofBytes (l : List Nat) : Nat := l.foldr (fun b acc => b % 256 + 256 * acc) 0

/-- The `n` little-endian bytes of `v`. -/
def toBytes (v n : Nat) : List Nat := (List.range n).map fun i => v / 256 ^ i % 256

/-- A fusion unit writes bytes to its own fusion store. -/
def Device.fuWrite (s : Device) (die off : Nat) (l : List Nat) : Device :=
  if l.isEmpty then s else (s.writeChk die mFusion (fusionBase die + off) l.length (ofBytes l)).1

/-- A fusion unit reads words of its own fusion store. -/
def Device.fuWords (s : Device) (die off n : Nat) : Device × List Nat :=
  let r := s.readChk die mFusion (fusionBase die + off) (4 * n)
  (r.1, (List.range n).map fun i => bits r.2.2 (32 * i) 32)

/-- Fusion unit `u` writes bytes at an offset of the buffer being filled, in the copy on die `d`; outside the pair the request
ends UNMAPPED (R261). `true` with it: the write was acknowledged DONE. -/
def Device.obsWriteCopy (s : Device) (u d off : Nat) (l : List Nat) : Device × Bool :=
  let a := s.obsAddr d s.fusion.fill + off
  if l.isEmpty then (s, true)
  else
    let r := s.writeChk u mFusion a l.length (ofBytes l)
    (r.1, decide (r.2 = stDONE))

/-- A copy of the buffer being filled has missed a write: it does not complete (R261). -/
def Device.obsMissed (s : Device) (d : Nat) : Device :=
  { s with fusion := { s.fusion with obsFail := if s.fusion.obsFail.contains d then s.fusion.obsFail else d :: s.fusion.obsFail } }

/-- The same bytes go to all four copies (R66, R261). -/
def Device.obsWrite (s : Device) (u off : Nat) (l : List Nat) : Device :=
  (List.range 4).foldl (fun s d => let x := s.obsWriteCopy u d off l; if x.2 then x.1 else x.1.obsMissed d) s

/-- Calibration entry `n` in force on a die (R246): sixteen FP32 patterns, as a read returns them; and the unit's read of it. -/
def Device.calibration (s : Device) (die n : Nat) : List Nat := s.readWords (fusionBase die + 64 * n) 16
def Device.calRead (s : Device) (die n : Nat) : Device := (s.readChk die mFusion (fusionBase die + 64 * n) 64).1

/-- The rotation, translation and K values of a calibration entry. -/
def calR (c : List Nat) (i j : Nat) : Nat := wd c (3 * i + j)
def calT (c : List Nat) (i : Nat) : Nat := wd c (9 + i)
def calK (c : List Nat) (i : Nat) : Nat := wd c (12 + i)

/-- Place point records in a die's point pool. Where in the pool is not given: a free value draws it. -/
def Device.poolWrite (s : Device) (die : Nat) (records : List (List Nat)) : Device :=
  let n := min records.length 131072
  if n = 0 then s
  else
    let at0 := Config.freeWord s.fresh % (131072 - n + 1)
    let s1 := { s with fresh := s.fresh + 1 }
    ((List.range n).foldl (fun s i => s.fuWrite die (0x300000 + 16 * (at0 + i)) ((records.getD i []).flatMap fun w => toBytes w 4)) s1)

/-! ### Exact arithmetic on FP32 patterns -/

/-- The rational number an FP32 pattern stands for; 0 for a NaN or an infinity. -/
def ratOf (v : Nat) : Rat :=
  match dec32 v with
  | .fin neg m e => (sgn neg m : Rat) * (if 0 ≤ e then ((2 ^ e.toNat : Nat) : Rat) else 1 / ((2 ^ (-e).toNat : Nat) : Rat))
  | _ => 0

/-! ### Cameras (R238, R241 to R243, R247, R248) -/

/-- The long-packet data types of R238, with the bytes of one pixel in the line ring. -/
def pixelBytes (dt : Nat) : Option Nat :=
  if dt = 0x2A ∨ dt = 0x1E ∨ (0x30 ≤ dt ∧ dt ≤ 0x37) then some 1
  else if dt = 0x2B ∨ dt = 0x2C ∨ dt = 0x2E then some 2
  else none

/-- The pixels of a payload, unpacked as CSI-2 packs them. -/
def unpackLine (dt : Nat) (p : List Nat) : List Nat :=
  match dt with
  | 0x2B => (List.range (p.length / 5 * 4)).map fun i => wd p (i / 4 * 5 + i % 4) * 4 + bits (wd p (i / 4 * 5 + 4)) (2 * (i % 4)) 2
  | 0x2C => (List.range (p.length / 3 * 2)).map fun i => wd p (i / 2 * 3 + i % 2) * 16 + bits (wd p (i / 2 * 3 + 2)) (4 * (i % 2)) 4
  | 0x2E => (List.range (p.length / 2)).map fun i => wd p (2 * i) * 256 + wd p (2 * i + 1)
  | _ => p

/-- Lines of `n` bytes that a line ring holds (R238). -/
def linesHeld (n : Nat) : Nat := if n = 0 then 0 else 131072 / n

/-- Replace the frame that a stream is receiving. -/
def Device.setFrame (s : Device) (g : Nat) (f : Option Frame) : Device := s.setStream g { s.stream g with frame := f }

/-- A packet makes the frame that is arriving bad. -/
def Device.frameBad (s : Device) (g : Nat) : Device :=
  match (s.stream g).frame with
  | some f => s.setFrame g (some { f with bad := true })
  | none => s

/-- A camera packet's stream, or none where the packet is dropped: the port is off, the channel above 3 (counted), or the
header's error cannot be corrected, which makes the frame bad. -/
def Device.camStream (s : Device) (die port vc ecc : Nat) : Device × Option Nat :=
  if ¬ s.on die (INGEST_PORT_CFG_EN port) then (s, none)
  else if 2 ≤ ecc then (s.frameBad (die * 64 + port * 4 + vc % 4), none)
  else if 4 ≤ vc then (s.addHold die (INGEST_PORT_CFG_UNKNOWN port) 1, none)
  else (s, some (die * 64 + port * 4 + vc))

/-- The subsample CRC of a camera frame (R243). -/
def frameCrc (f : Frame) : Nat :=
  let h := f.lines.length
  let b := (pixelBytes (bits f.cfg 14 6)).getD 1
  crc32 ((List.range 64).flatMap fun i =>
    let line := f.lines.getD ((2 * i + 1) * h / 128) []
    (List.range 64).flatMap fun j => toBytes (wd line ((2 * j + 1) * line.length / 128)) b)

/-- The body of CAMERA_FRAME_START (R238, R241): a frame whose end is missing is bad; the new frame takes the registers in
force and its timestamp. -/
def frameStartBody (die port vc num ecc : Nat) (s : Device) : Device :=
  match s.camStream die port vc ecc with
  | (s1, none) => s1
  | (s1, some g) =>
    let s2 := match (s1.stream g).frame with
      | some _ => (s1.setFrame g none).streamBad g
      | none => s1
    if s2.on die (INGEST_STREAM_CFG_EN (g % 64)) then
      s2.setFrame g (some { cfg := s2.word die (cfgFlds (g % 64)), chk := s2.word die (chkFlds (g % 64)),
                            rect := s2.word die (rectFlds (g % 64)), num := num, time := s2.adjusted g s2.chorus.time })
    else s2

/-- The source position of output pixel (`px`, `py`) by a remap grid of `w` pixels across (R247): corners are shared, so the
grid holds (w / 16 + 1) points a row; within a block positions are interpolated bilinearly. -/
def Device.gridAt (s : Device) (die grid w px py : Nat) : Rat × Rat :=
  let pt := fun (i j k : Nat) => ratOf (s.readData (fusionBase die + grid + 16 + 8 * (j * (w / 16 + 1) + i) + 4 * k) 4)
  let u : Rat := (px % 16 : Nat) / 16
  let v : Rat := (py % 16 : Nat) / 16
  let i := px / 16
  let j := py / 16
  let mix := fun (k : Nat) =>
    (pt i j k * (1 - u) + pt (i + 1) j k * u) * (1 - v) + (pt i (j + 1) k * (1 - u) + pt (i + 1) (j + 1) k * u) * v
  (mix 0, mix 1)

/-- Source rows that a position needs. -/
def rowsNeeded (y : Rat) : Int × Int := (y.floor, y.ceil)

/-- One output pixel (R247): exact bilinear interpolation of 8-bit luma, rounded up or down as a free value says; other
conversions, which the manual does not state, and positions off the image are free values. -/
def Device.rectPixel (s : Device) (fmt dt : Nat) (lines : List (List Nat)) (x y : Rat) : Nat :=
  let x0 := x.floor
  let y0 := y.floor
  let px := fun (i j : Int) => if i < 0 ∨ j < 0 then none else (lines[j.toNat]?).bind (·[i.toNat]?)
  let u := x - x0
  let v := y - y0
  let i1 := if u = 0 then x0 else x0 + 1
  let j1 := if v = 0 then y0 else y0 + 1
  match fmt, dt, px x0 y0, px i1 y0, px x0 j1, px i1 j1 with
  | 0, 0x2A, some a, some b, some c, some d =>
    let r : Rat := ((a : Rat) * (1 - u) + b * u) * (1 - v) + ((c : Rat) * (1 - u) + d * u) * v
    r.floor.toNat + (if r.den ≠ 1 ∧ Config.roundUp r.num r.den then 1 else 0)
  | _, _, a, b, c, d =>
    Config.rectPixel fmt dt ([a, b, c, d].map (·.getD 0) ++ [(u * 65536).floor.toNat, (v * 65536).floor.toNat, s.fresh])

/-- The unit's reads of a grid's header and of the four corners of one of its blocks; `false` with it: one of them failed. -/
def Device.gridRead (s : Device) (die grid w b : Nat) : Device × Bool :=
  let at0 := fusionBase die + grid
  let corner := fun (i j : Nat) => at0 + 16 + 8 * ((b / (w / 16) + j) * (w / 16 + 1) + b % (w / 16) + i)
  [(at0, 16), (corner 0 0, 8), (corner 1 0, 8), (corner 0 1, 8), (corner 1 1, 8)].foldl (fun (x : Device × Bool) p =>
    let r := x.1.readChk die mFusion p.1 p.2
    (r.1, x.2 && decide (r.2.1 = stDONE))) (s, true)

/-- A line has arrived (R247): every block of the grid whose last source line it is, is computed; one that needs a line no longer held in the ring, or
whose grid entry cannot be read, makes the frame bad. DESIGN CHOICE (221): the pixels are those that arrived, which the ring holds too. -/
def Device.rectLine (s : Device) (die : Nat) (f : Frame) (lineBytes : Nat) : Device × Frame :=
  let grid := bits f.rect 0 23
  let a := fusionBase die + grid
  let w := s.readData (a + 4) 2
  let h := s.readData (a + 6) 2
  let fmt := s.readData (a + 8) 1
  let n : Int := (f.lines.length : Int) - 1
  let nb := if fmt = 0 then 1 else if fmt = 1 then 3 else 2
  (List.range (w / 16 * (h / 16))).foldl (fun (y : Device × Frame) b =>
    let f := y.2
    let pix := (List.range 256).map fun k => (b % (w / 16) * 16 + k % 16, b / (w / 16) * 16 + k / 16)
    let rows := pix.map fun p => rowsNeeded (s.gridAt die grid w p.1 p.2).2
    let lo := rows.foldl (fun m r => min m r.1) (rows.headD (0, 0)).1
    let hi := rows.foldl (fun m r => max m r.2) (rows.headD (0, 0)).2
    if hi ≠ n then y
    else
      let g := y.1.gridRead die grid w b
      if lo ≤ n - linesHeld lineBytes ∨ ¬ g.2 then (g.1, { f with bad := true })
      else
      (g.1, { f with out := f.out ++ pix.flatMap fun p =>
        let q := s.gridAt die grid w p.1 p.2
        let v := s.rectPixel fmt (bits f.cfg 14 6) f.lines q.1 q.2
        (List.range nb).map fun k => (s.readData a 4 + (p.2 * w + p.1) * nb + k, v / 256 ^ k % 256) })) (s, f)

/-- The body of CSI2_LINE_PACKET (R238, R247): `ecc` is the number of bad bits in the header, `crcOk` the payload check. -/
def linePacketBody (die port vc dt ecc : Nat) (crcOk : Bool) (payload : List Nat) (s : Device) : Device :=
  match s.camStream die port vc ecc with
  | (s1, none) => s1
  | (s1, some g) =>
    if dt = 0x12 ∨ dt = 0x02 ∨ dt = 0x03 then s1
    else match pixelBytes dt with
    | none => s1.addHold die (INGEST_PORT_CFG_UNKNOWN port) 1
    | some b =>
      match (s1.stream g).frame with
      | none => s1
      | some f =>
        if bits f.cfg 14 6 ≠ dt then s1.addHold die (INGEST_PORT_CFG_UNKNOWN port) 1
        else
          let px := unpackLine dt payload
          let n := px.length * b
          let held := linesHeld n
          let s2 := if held = 0 then s1
            else s1.fuWrite die (0x500000 + g % 64 * 0x20000 + f.lines.length % held * n) (px.flatMap fun v => toBytes v b)
          let f1 := { f with lines := f.lines ++ [px], bad := f.bad || !crcOk }
          let y := if bit f.rect 31 then s2.rectLine die f1 n else (s2, f1)
          y.1.setFrame g (some y.2)

/-- The point records of a depth frame (R248): pixels at rows and columns that are multiples of DEPTH_STEP, unprojected with
K0 to K3; a depth of 0 is no return. The last word is not given and free. -/
def Device.depthPoints (s : Device) (die : Nat) (f : Frame) : List (List Nat) :=
  let step := bits f.cfg 8 6
  let c := s.calibration die (bits f.cfg 0 8)
  (List.range ((f.lines.length + step - 1) / step)).flatMap fun r =>
    let line := f.lines.getD (r * step) []
    (List.range ((line.length + step - 1) / step)).filterMap fun q =>
      let mm := wd line (q * step)
      if mm = 0 then none
      else
        let d := div32 (ofInt32 mm) (ofInt32 1000)
        some [div32 (mul32 (sub32 (ofInt32 (q * step)) (calK c 2)) d) (calK c 0),
          div32 (mul32 (sub32 (ofInt32 (r * step)) (calK c 3)) d) (calK c 1), d, Config.freeWord (s.fresh + 1 + r * 65536 + q) % 2 ^ 32]

/-- The body of CAMERA_FRAME_END (R242, R247, R248): the frame is checked; an accepted one's rectified output goes into the
observation buffer and its depth points into the pool. -/
def frameEndBody (die port vc ecc : Nat) (s : Device) : Device :=
  match s.camStream die port vc ecc with
  | (s1, none) => s1
  | (s1, some g) =>
    match (s1.stream g).frame with
    | none => s1
    | some f =>
      let x := (s1.setFrame g none).checkSample g f.cfg f.chk f.bad f.num f.time (some (frameCrc f))
      if x.2 ≠ 2 then x.1
      else
        let s1 := f.out.foldl (fun s e => s.obsWrite die e.1 [e.2]) x.1
        let s2 : Device := if bit f.rect 31 then { s1 with fusion := { s1.fusion with planes := SMap.put 0 s1.fusion.planes g (f.time + 1) } } else s1
        if bits f.cfg 8 6 ≠ 0 ∧ bits f.cfg 25 3 = 1 ∧ bits f.cfg 14 6 = 0x2E then
          let ps := s2.depthPoints die f
          let s3 := (s2.calRead die (bits f.cfg 0 8)).poolWrite die ps
          { s3 with fresh := s3.fresh + 65536 * f.lines.length }
        else s2

/-! ### Ethernet sensors, IMUs, odometry (R239 to R241) -/

/-- Payload words 0, 64, 128, … with the counter and timestamp bytes as zero (R243). -/
def datagramCrc (p : List Nat) (cntOff cntBytes tsOff : Nat) : Nat :=
  let q := p.zipIdx.map fun e =>
    if (cntOff ≤ e.2 ∧ e.2 < cntOff + cntBytes) ∨ (tsOff ≤ e.2 ∧ e.2 < tsOff + 8) then 0 else e.1
  crc32 ((List.range ((p.length + 252) / 256)).flatMap fun i => (q.drop (256 * i)).take 4)

/-- The enabled stream that takes a datagram of a die's Ethernet port (R239). -/
def Device.ethStream (s : Device) (die port udp : Nat) : Option Nat :=
  (List.range 64).find? fun n =>
    decide (24 ≤ n) && decide (n < 56) && s.on die (INGEST_STREAM_CFG_EN n) &&
    decide (s.rd die (INGEST_STREAM_CFG_ENET_PORT n) = port) && decide (s.rd die (INGEST_STREAM_ETH_UDP_PORT n) = udp)

/-- A datagram of an Ethernet sensor stream (R239, R242): one sample. Lidar and radar points go to the pool. -/
def Device.ethSample (s : Device) (die slot : Nat) (fragmented : Bool) (p : List Nat) : Device :=
  let g := die * 64 + slot
  let code := s.rd die (INGEST_STREAM_CFG_CNT_BITS slot)
  let cb := if code = 0 then 0 else cntWidth code / 8
  let co := s.rd die (INGEST_STREAM_ETH_CNT_OFF slot)
  let tsOff := s.rd die (INGEST_STREAM_ETH_TS_OFF slot)
  let short := p.length < co + cb ∨ p.length < tsOff + 8
  let x := s.checkSample g (s.word die (cfgFlds slot)) (s.word die (chkFlds slot)) (fragmented || decide short)
    (ofBytes ((p.drop co).take cb)) (s.adjusted g (ofBytes ((p.drop tsOff).take 8))) (some (datagramCrc p co cb tsOff))
  let m := s.rd die (INGEST_STREAM_CFG_MODALITY slot)
  if x.2 = 2 ∧ (m = 2 ∨ m = 3) then
    let pts := p.drop ((tsOff + 8 + 15) / 16 * 16)
    x.1.poolWrite die ((List.range (pts.length / 16)).map fun i =>
      (List.range 4).map fun k => ofBytes ((pts.drop (16 * i + 4 * k)).take 4))
  else x.1

/-- Hand an accepted sample of a counting stream to the ego-motion filter (R244, R251). -/
def Device.egoInput (s : Device) (g src ts : Nat) (vals : List Nat) : Device :=
  if s.counting g then { s with fusion := { s.fusion with inputs := s.fusion.inputs ++ [⟨src, ts, vals, true⟩] } } else s

/-- An IMU's data-ready edge: the reference time of the sample that the SPI read brings (R240, R241). -/
def Device.imuReady (s : Device) (n : Nat) : Device :=
  s.setStream (56 + n) { s.stream (56 + n) with ready := some s.chorus.time }

/-- The 16 bytes of an IMU sample arrive (R240): one that comes less than 125 µs after the last accepted one is bad. -/
def Device.imuSample (s : Device) (n : Nat) (b : List Nat) : Device :=
  let g := 56 + n
  if s.rd 0 (INGEST_STREAM_STATE_STATE g) = 0 then s
  else
    let x := s.stream g
    let fast := match x.came with | some t => decide (s.chorus.time < t + 125000) | none => false
    let ts := s.adjusted g (x.ready.getD s.chorus.time)
    let vals := (List.range 6).map fun i => ofBytes ((b.drop (2 + 2 * i)).take 2)
    let y := s.checkSample g (s.word 0 (cfgFlds g)) (s.word 0 (chkFlds g)) (fast || decide (b.length < 16)) (ofBytes (b.take 2)) ts
      (some (crc32 ((b.drop 2).take 12)))
    if y.2 = 2 then
      let s1 := y.1.egoInput g n ts vals
      { s1 with fusion := { s1.fusion with imu := SMap.put [] s1.fusion.imu n vals } }
    else y.1

/-- The odometry sample of a sample edge (R240): the four counts latched there. -/
def Device.odometrySample (s : Device) (counts : List Nat) : Device :=
  if s.rd 0 (INGEST_STREAM_STATE_STATE 60) = 0 then s
  else
    let y := s.checkSample 60 (setBits (s.word 0 (cfgFlds 60)) 21 2 0) (s.word 0 (chkFlds 60)) false 0 s.chorus.edgeTime none
    if y.2 = 2 then y.1.egoInput 60 4 s.chorus.edgeTime counts else y.1

/-! ### Kicks of the watchdogs (R348) -/

/-- A stage's kick in this tick, with its result time. -/
def Device.kick (s : Device) (die stage unit result : Nat) : Device :=
  { s with safety := { s.safety with
      kicks := s.safety.kicks ++ [(die, stage, unit, s.rc)]
      results := SMap.put 0 s.safety.results ((die * 8 + stage) * 65536 + unit) (result + 1) } }

/-- The result time of a die's ingest stage: the oldest of the newest accepted timestamps of its designated streams, or the
sample edge where it has none. -/
def Device.ingestResult (s : Device) (die : Nat) : Nat :=
  ((List.range 64).filter fun n => s.on die (INGEST_STREAM_CFG_EN n) && s.on die (INGEST_STREAM_CFG_SAFETY_SET n)).foldl
    (fun m n => min m ((s.stream (die * 64 + n)).newest.getD 0)) s.chorus.edgeTime

end Sys2Proof.Machine
end

