-- ==== Sys2Proof/Machine/Fusion.lean ====
section
/-!
DEFINITION. Fusion (chapter 11, R245 to R261): contributions, calibration, PROJECT, the voxel map and NEAR, the ego record,
tracks, contradiction gating, degradation levels and the observation buffers.
-/
namespace Sys2Proof.Machine

/-- Replace the fusion state. -/
def Device.setFusion (s : Device) (x : FusionSt) : Device := { s with fusion := x }

/-! ### The voxel map and NEAR (R249, R250) -/

/-- The cell edge in metres. -/
def Device.cellSize (s : Device) : Rat := (s.rd 0 FUSION_MAP_CELL_CM : Rat) / 100

/-- A point of the base frame in the robot's world frame, by the ego record's attitude quaternion and position. -/
def Device.toWorld (s : Device) (p : Rat × Rat × Rat) : Rat × Rat × Rat :=
  let v := fun i => ratOf (wd s.fusion.ego i)
  let (w, x, y, z) := (v 6, v 7, v 8, v 9)
  let (a, b, c) := p
  (v 0 + (w * w + x * x - y * y - z * z) * a + 2 * (x * y - w * z) * b + 2 * (x * z + w * y) * c,
    v 1 + 2 * (x * y + w * z) * a + (w * w - x * x + y * y - z * z) * b + 2 * (y * z - w * x) * c,
    v 2 + 2 * (x * z - w * y) * a + 2 * (y * z + w * x) * b + (w * w - x * x - y * y + z * z) * c)

/-- The horizontal cell of the base origin. -/
def Device.baseCell (s : Device) : Int × Int :=
  ((ratOf (wd s.fusion.ego 0) / s.cellSize).floor, (ratOf (wd s.fusion.ego 1) / s.cellSize).floor)

/-- A horizontal cell lies in the window around cell (`bx`, `by'`). -/
def cellWithin (bx by' x y : Int) : Bool := bx - 64 ≤ x && x < bx + 64 && by' - 64 ≤ y && y < by' + 64

/-- The map's cell of a point of the base frame: its index in the store, or none outside the window (R249). -/
def Device.cellOf (s : Device) (p : Rat × Rat × Rat) : Option Nat :=
  let w := s.toWorld p
  let x := (w.1 / s.cellSize).floor
  let y := (w.2.1 / s.cellSize).floor
  let z := (p.2.2 / s.cellSize).floor
  let b := s.baseCell
  if cellWithin b.1 b.2 x y ∧ 0 ≤ z ∧ z < 32 then
    some ((z.toNat * 128 + (y % 128).toNat) * 128 + (x % 128).toNat)
  else none

/-- First address of a map cell. -/
def mapAddr (cell : Nat) : Nat := fusionBase 0 + 0x100000 + 2 * cell

/-- A cell's log-odds after `d` is added; it saturates at ±127. -/
def addOdds (v : Nat) (d : Int) : Nat := wrapN 8 (max (-127) (min 127 (sext 8 v + d)))

/-- The modality bit of a MODALITY code: vision, depth, lidar, and radar or proximity; none for the others. -/
def modalityBit (m : Nat) : Nat := if m < 3 then 2 ^ m else if m < 5 then 8 else 0

/-- A point falls in a cell (R249): HIT is added, its modality bit set, the age zeroed. -/
def Device.hitCell (s : Device) (cell modality : Nat) : Device :=
  let r := s.readChk 0 mFusion (mapAddr cell) 2
  let v := r.2.2
  if r.2.1 ≠ stDONE then r.1
  else
  Prod.fst <| r.1.writeChk 0 mFusion (mapAddr cell) 2 (addOdds (v / 256) (s.rd 0 FUSION_MAP_HIT) * 256 + (bits v 4 4 ||| modalityBit modality) * 16)

/-- A cell at a frame boundary (R249): its log-odds move DECAY towards 0, its age rises by 1. -/
def ageCell (decay v : Nat) : Nat :=
  let o := sext 8 (v / 256)
  let o' := if o < 0 then min 0 (o + decay) else max 0 (o - decay)
  wrapN 8 o' * 256 + bits v 4 4 * 16 + min 15 (bits v 0 4 + 1)

/-- The 32 cells of a 64-byte line at a frame boundary. -/
def ageLine (decay v : Nat) : Nat := (List.range 32).foldl (fun acc i => acc + ageCell decay (bits v (16 * i) 16) * 2 ^ (16 * i)) 0

/-- Every cell of the map at a frame boundary, line by line; a line that reads uncorrectable stays as it is. -/
def Device.ageMap (s : Device) : Device :=
  (List.range 16384).foldl (fun s k =>
    let a := fusionBase 0 + 0x100000 + 64 * k
    let r := s.readChk 0 mFusion a 64
    if r.2.1 = stDONE then (r.1.writeChk 0 mFusion a 64 (ageLine (s.rd 0 FUSION_MAP_DECAY) r.2.2)).1 else r.1) s

/-- Cells that enter the window at a sample edge are cleared (R249). -/
def Device.rollMap (s : Device) : Device :=
  let b := s.baseCell
  if b = (s.fusion.cellX, s.fusion.cellY) then s
  else
    let s1 := (List.range 16384).foldl (fun s k =>
      let x := b.1 - 64 + (k % 128 : Nat)
      let y := b.2 - 64 + (k / 128 : Nat)
      if cellWithin s.fusion.cellX s.fusion.cellY x y then s
      else (List.range 32).foldl (fun s z => (s.writeChk 0 mFusion (mapAddr ((z * 128 + (y % 128).toNat) * 128 + (x % 128).toNat)) 2 0).1) s) s
    s1.setFusion { s1.fusion with cellX := b.1, cellY := b.2 }

/-- The sector of a horizontal direction (R250): azimuth in steps of 22.5° anticlockwise from +x. -/
def sectorOf (x y : Rat) : Nat :=
  let (q, a, b) :=
    if 0 < x ∧ 0 ≤ y then (0, x, y) else if x ≤ 0 ∧ 0 < y then (1, y, -x) else if x < 0 ∧ y ≤ 0 then (2, -x, -y) else (3, -y, x)
  if a = 0 ∧ b = 0 then 0
  else
    q * 4 + (if (a + b) * (a + b) < 2 * a * a then 0 else if b < a then 1 else if 2 * b * b < (a + b) * (a + b) then 2 else 3)

/-- Horizontal range in units of 10 mm. -/
def rangeOf (x y : Rat) : Nat := isqrt ((x * x + y * y) * 10000).floor.toNat

/-- NEAR of a stream in a sector (R250). -/
def Device.nearAt (s : Device) (stream k : Nat) : Nat := SMap.get 0xFFFF s.fusion.near (stream * 16 + k)

/-- Lower NEAR at a key. -/
def Device.lowerNear (s : Device) (key v : Nat) : Device :=
  s.setFusion { s.fusion with near := SMap.put 0xFFFF s.fusion.near key (min v (SMap.get 0xFFFF s.fusion.near key)) }

/-- Points discarded (R248, R249): the count holds. -/
def Device.outOfView (s : Device) (n : Nat) : Device := s.addHold 0 FUSION_VIEW_OUT_OF_VIEW n

/-- A stream's MODALITY. -/
def Device.modality (s : Device) (g : Nat) : Nat := s.rd (g / 64) (INGEST_STREAM_CFG_MODALITY (g % 64))

/-- A projected point reaches the map: at once on die 0, with the die's contribution on dies 1 to 3 (R245). -/
def Device.mapPoint (s : Device) (die stream : Nat) (ok : Bool) (p : Rat × Rat × Rat) : Device :=
  match (if ok then s.cellOf p else none) with
  | none => s.outOfView 1
  | some c =>
    let key := stream * 16 + sectorOf p.1 p.2.1
    let r := rangeOf p.1 p.2.1
    if die = 0 then (s.hitCell c (s.modality stream)).lowerNear key r
    else
      let x := SMap.get {} s.fusion.parts die
      let y : FusePart := ⟨x.hits ++ [(c, s.modality stream)], x.near ++ [(key, r)]⟩
      s.setFusion { s.fusion with parts := SMap.put {} s.fusion.parts die y }

/-! ### PROJECT (R248) -/

/-- R **x** + **t** on FP32 patterns, summed in the order of the columns. -/
def toBase (c x : List Nat) : List Nat :=
  (List.range 3).map fun i => add32 (add32 (add32 (mul32 (calR c i 0) (wd x 0)) (mul32 (calR c i 1) (wd x 1))) (mul32 (calR c i 2) (wd x 2))) (calT c i)

/-- R′ᵀ(**p** − **t**′) on FP32 patterns. -/
def toSensor (c p : List Nat) : List Nat :=
  let q := (List.range 3).map fun i => sub32 (wd p i) (calT c i)
  (List.range 3).map fun i => add32 (add32 (mul32 (calR c 0 i) (wd q 0)) (mul32 (calR c 1 i) (wd q 1))) (mul32 (calR c 2 i) (wd q 2))

/-- A pixel with depth, unprojected (R248, mode 2). -/
def unproject (c x : List Nat) : List Nat :=
  [div32 (mul32 (sub32 (wd x 0) (calK c 2)) (wd x 2)) (calK c 0), div32 (mul32 (sub32 (wd x 1) (calK c 3)) (wd x 2)) (calK c 1), wd x 2]

/-- 0.01 as an FP32 pattern. -/
def centimetre : Nat := 0x3C23D70A

/-- The pixel and depth of a point in a camera's image (R248, mode 0), or none outside it. -/
def imagePixel (c p : List Nat) (w h : Nat) : Option (Nat × Nat) :=
  let q := toSensor c p
  if le32 centimetre (wd q 2) then
    let u := ratOf (add32 (div32 (mul32 (calK c 0) (wd q 0)) (wd q 2)) (calK c 2))
    let v := ratOf (add32 (div32 (mul32 (calK c 1) (wd q 1)) (wd q 2)) (calK c 3))
    if 0 ≤ u ∧ u < w ∧ 0 ≤ v ∧ v < h ∧ fin32 (wd q 0) ∧ fin32 (wd q 1) ∧ fin32 (wd q 2) then
      some (v.floor.toNat * w + u.floor.toNat, wd q 2)
    else none
  else none

/-- An FP32 pattern as FP16, to nearest even; the largest value stands for one beyond it. -/
def toHalf (v : Nat) : Nat :=
  match dec32 v with
  | .fin neg m e => encFin 5 10 neg m e
  | .inf n => maxCode 9 n
  | .nan => maxCode 9 false

/-- The image that mode 0 leaves: pixels with their nearest depth, a tie keeping the earlier point. -/
def keepNearest (l : SMap (Option Nat)) (p : Nat × Nat) : SMap (Option Nat) :=
  match SMap.get none l p.1 with
  | some d => if lt32 p.2 d then SMap.put none l p.1 (some p.2) else l
  | none => SMap.put none l p.1 (some p.2)

/-- A PROJECT command's words are well formed: the checks that Eft makes at load (R248). -/
def projectOk (w : List Nat) : Bool :=
  bits (wd w 0) 24 8 = 0x31 && bits (wd w 0) 0 24 = 0 && bits (wd w 1) 30 2 ≠ 3 && bits (wd w 1) 24 6 = 0 &&
  bits (wd w 2) 23 9 = 0 && wd w 2 % 16 = 0 && bits (wd w 3) 18 14 = 0 &&
  decide (wd w 2 + 16 * (wd w 3 + 1) ≤ 0x800000) && (w.drop 6).all (· = 0)

/-- The body of PROJECT on a die's fusion unit: sixteen words, from the command list of a fusion slice. -/
def projectBody (die : Nat) (w : List Nat) (s : Device) : Device :=
  if ¬ projectOk w then s
  else
    let mode := bits (wd w 1) 30 2
    let stream := bits (wd w 1) 0 8
    let src := s.calibration die (bits (wd w 1) 16 8)
    let dst := s.calibration die (bits (wd w 1) 8 8)
    let pw := bits (wd w 5) 16 16
    let ph := bits (wd w 5) 0 16
    let s1 := s.calRead die (bits (wd w 1) 16 8)
    let s0 := if mode = 0 then s1.calRead die (bits (wd w 1) 8 8) else s1
    let x := (List.range (bits (wd w 3) 0 18 + 1)).foldl (fun (x : Device × SMap (Option Nat)) i =>
      let r := x.1.fuWords die (wd w 2 + 16 * i) 4
      let p := toBase src (if mode = 2 then unproject src r.2 else r.2)
      if mode = 0 then
        match imagePixel dst p pw ph with
        | some px => (r.1, keepNearest x.2 px)
        | none => (r.1.outOfView 1, x.2)
      else
        (r.1.mapPoint die stream (p.all fin32) (ratOf (wd p 0), ratOf (wd p 1), ratOf (wd p 2)), x.2)) (s0, [])
    x.2.foldl (fun s e => match e.2 with
      | some d => s.obsWrite die (wd w 4 + 2 * e.1) (toBytes (toHalf d) 2)
      | none => s) x.1

/-! ### Calibration swap and contributions (R246, R245) -/

/-- The body of CAL_SWAP_WRITE (R246): setting CAL_SWAP requests the swap. -/
def calSwapBody (die value : Nat) (s : Device) : Device := if bit value 30 then s.set die FUSION_CTL_CAL_SWAP else s

/-- Where a byte address lies after the two tables of a die have changed places. -/
def swapAddr (die a : Nat) : Nat :=
  if fusionBase die ≤ a ∧ a < fusionBase die + 0x4000 then a + 0x4000
  else if fusionBase die + 0x4000 ≤ a ∧ a < fusionBase die + 0x8000 then a - 0x4000 else a

/-- At a frame boundary the calibration table and its shadow change places where that was requested (R246). -/
def Device.calSwapEdge (s : Device) (die : Nat) : Device :=
  if s.on die FUSION_CTL_CAL_SWAP then
    let a := fusionBase die
    let s1 := (List.range 2048).foldl (fun t i =>
      (t.store (a + 8 * i) (s.load (a + 0x4000 + 8 * i) 8) 8).store (a + 0x4000 + 8 * i) (s.load (a + 8 * i) 8) 8) s
    let s2 := { s1 with pond := { s1.pond with ecc := SMap.insAll (s1.pond.ecc.map fun (e : Nat × Option EccErr) => (swapAddr die (8 * e.1) / 8, e.2)) [] } }
    s2.clr die FUSION_CTL_CAL_SWAP
  else s

/-- Detections enter the queue of 1,024 (R255); the rest are dropped and counted. -/
def Device.queueDets (s : Device) (l : List Detection) : Device :=
  let s1 := s.addWrap 0 FUSION_AUDIT_DET_IN l.length
  let room := 1024 - s.fusion.dets.length
  let over' := l.length - room
  let s2 := (s1.addHold 0 FUSION_COUNT_DET_DROPPED over').addWrap 0 FUSION_AUDIT_DET_TAKEN over'
  s2.setFusion { s2.fusion with dets := s2.fusion.dets ++ l.take room }

/-- D0.FU writes the entries of contributions' detections that it has queued into the detection queue's bytes (R237, R255), from entry `first` on. DESIGN
CHOICE (65): their layout is free. -/
def Device.writeDets (s : Device) (first : Nat) (l : List Detection) : Device :=
  l.zipIdx.foldl (fun (s : Device) d =>
    (s.writeChk 0 mFusion (fusionBase 0 + 0x240000 + 64 * ((first + d.2) % 1024)) 64
      (Config.detectionImage (d.1.time :: d.1.var :: d.1.cls :: d.1.stream :: d.1.pos) % 2 ^ 512)).1) s

/-- A job-0 DMA engine has written 64-byte entries of the detection queue (R255): the entry's layout is not given, so its
fields are free values of its bytes. -/
def Device.dmaDetection (s : Device) (entry : Nat) : Device :=
  let v := s.readData (fusionBase 0 + 0x240000 + 64 * (entry % 1024)) 64
  let f := Config.detectionField v
  s.queueDets [{ time := f 0 % 2 ^ 64, pos := [f 1 % 2 ^ 32, f 2 % 2 ^ 32, f 3 % 2 ^ 32], var := f 4 % 2 ^ 32, cls := f 5 % 256, stream := f 6 % 256 }]

/-- The body of FUSION_CONTRIBUTION (R245): a die's contribution for this tick reaches D0.FU, or is dropped once the merge has
begun. -/
def contributionFuBody (die : Nat) (dets : List Detection) (s : Device) : Device :=
  let s1 := ((s.addWrap die INGEST_AUDIT_SENT 1).addWrap 0 INGEST_AUDIT_RECEIVED 1).kick die 0 0 (s.ingestResult die)
  let part := SMap.get {} s.fusion.parts die
  let s2 := s1.setFusion { s1.fusion with parts := SMap.put {} s1.fusion.parts die {} }
  if s.fusion.merged then s2
  else s2.setFusion { s2.fusion with arrived := SMap.put none s2.fusion.arrived die (some (part, dets)) }

/-! ### Ego-motion (R251 to R254) -/

/-- The median of rational values: the middle one, or the mean of the middle two. -/
def median (l : List Rat) : Rat :=
  let m := l.mergeSort (· ≤ ·)
  let n := m.length
  if n = 0 then 0 else if n % 2 = 1 then m.getD (n / 2) 0 else (m.getD (n / 2 - 1) 0 + m.getD (n / 2) 0) / 2

/-- An IMU's newest gyro vector in the base frame, in rad/s (R246, R251). -/
def Device.gyro (s : Device) (n : Nat) : List Rat :=
  let c := s.calibration 0 (s.rd 0 (INGEST_STREAM_CFG_CALIB (56 + n)))
  let v := SMap.get [] s.fusion.imu n
  (List.range 3).map fun i =>
    ((List.range 3).map fun j => ratOf (calR c i j) * ratOf (calK c 0) * (sext 16 (wd v j) : Int)).foldl (· + ·) 0

/-- The IMUs that count. -/
def Device.countingImus (s : Device) : List Nat := (List.range 4).filter fun n => s.counting (56 + n)

/-- An IMU differs from the median of the counting IMUs by more than IMU_GATE on some axis. -/
def Device.imuOff (s : Device) (n : Nat) : Bool :=
  (List.range 3).any fun i =>
    let d := (s.gyro n).getD i 0 - median (s.countingImus.map fun k => (s.gyro k).getD i 0)
    decide ((s.rd 0 FUSION_EGO_CFG_IMU_GATE : Rat) / 1000 < |d|)

/-- The counting pair of IMUs differs by more than IMU_GATE on some axis. -/
def Device.pairOff (s : Device) (a b : Nat) : Bool :=
  (List.range 3).any fun i => decide ((s.rd 0 FUSION_EGO_CFG_IMU_GATE : Rat) / 1000 < |(s.gyro a).getD i 0 - (s.gyro b).getD i 0|)

/-- An ego input's run outside or inside its gate moves (R251): GATE_K ticks outside dispute it, 64 inside clear it. -/
def Device.egoGate (s : Device) (src slot : Nat) (off : Bool) : Device :=
  let f := s.fusion
  let o := if off then SMap.get 0 f.outRun src + 1 else 0
  let i := if off then 0 else SMap.get 0 f.inRun src + 1
  let s1 := s.setFusion { f with outRun := SMap.put 0 f.outRun src o, inRun := SMap.put 0 f.inRun src i }
  if s.rd 0 FUSION_GATE_GATE_K ≤ o then s1.set 0 (INGEST_STREAM_STATE_DISPUTED slot)
  else if 64 ≤ i then s1.clr 0 (INGEST_STREAM_STATE_DISPUTED slot) else s1

/-- The disputes of the ego inputs in a tick (R251). An IMU that is disputed is held against the median of those that count. -/
def Device.egoDisputes (s : Device) (odoOff : Option Bool) : Device :=
  let c := s.countingImus
  let live := (List.range 4).filter fun n => s.rd 0 (INGEST_STREAM_STATE_STATE (56 + n)) = 2
  let s1 := live.foldl (fun t n =>
    if c.contains n then
      match c with
      | [a, b] => t.egoGate n (56 + n) (s.pairOff a b)
      | [_] => t
      | _ => t.egoGate n (56 + n) (s.imuOff n)
    else if c.isEmpty then
      match live with
      | [a, b] => t.egoGate n (56 + n) (s.pairOff a b)
      | _ => t
    else t.egoGate n (56 + n) (s.imuOff n)) s
  match odoOff with
  | some b => s1.egoGate 4 60 b
  | none => s1

/-- A sample as the filter's operands. -/
def EgoSample.nums (x : EgoSample) : List Nat := x.src :: x.time :: x.vals

/-- Insert a sample in timestamp order, after its equals. -/
def insertSample (x : EgoSample) : List EgoSample → List EgoSample
  | [] => [x]
  | y :: l => if x.time < y.time then x :: y :: l else y :: insertSample x l

/-- The ego record's 64 words (R252). -/
def egoRecord (tov age flags : Nat) (v : List Nat) : List Nat :=
  [tov % 2 ^ 32, tov / 2 ^ 32 % 2 ^ 32, age, flags] ++ (List.range 34).map (wd v) ++ List.replicate 26 0

/-- D0.FU's ego-motion in a tick (R251 to R254): samples older than the history are dropped and counted; the filter runs again
from the edge eight ticks back over every accepted sample up to this tick's edge; late ones are counted; the record is
written to the next slot; the FUSION stage is kicked. -/
def Device.egoTick (s : Device) : Device :=
  let s := (List.range 5).foldl (fun (s : Device) k => if s.counting (56 + k) then s.calRead 0 (s.rd 0 (INGEST_STREAM_CFG_CALIB (56 + k))) else s) s
  let f := s.fusion
  let tov := s.chorus.edgeTime
  let oldest := match f.snaps.getLast? with | some e => if 8 ≤ f.snaps.length then e.1 else 0 | none => 0
  let from' := match f.snaps.getLast? with | some e => e.2 | none => f.ego
  let dropped := f.inputs.filter fun x => x.new && decide (x.time < oldest)
  let usable := f.inputs.filter fun x => decide (oldest ≤ x.time)
  let now := (usable.filter fun x => decide (x.time ≤ tov)).foldl (fun l x => insertSample x l) []
  let fresh := now.filter (·.new)
  let late := fresh.filter fun x => decide (x.time ≤ f.egoTov)
  let ego := (List.range 34).map fun i => Config.egoFilter from' (now.map EgoSample.nums) i % 2 ^ 32
  let age := if fresh.isEmpty then min 0xFFFFFFFF (f.egoAge + (tov - f.egoTov))
    else min 0xFFFFFFFF (tov - fresh.foldl (fun m x => min m x.time) tov)
  let odo := (fresh.find? (·.src = 4)).map fun x => !Config.wheelPasses from' x.vals (s.rd 0 FUSION_EGO_CFG_WHEEL_GATE)
  let s1 := s.addHold 0 FUSION_COUNT_LATE_DROPPED dropped.length
  let s2 := late.foldl (fun s x => s.addHold 0 (INGEST_STREAM_COUNT_LATE (if x.src = 4 then 60 else 56 + x.src)) 1) s1
  let s3 := s2.egoDisputes odo
  let used := (List.range 4).filter fun n => s.counting (56 + n)
  let flags := s.rd 0 FUSION_STATUS_EGO_VALID + 2 * s.rd 0 FUSION_STATUS_EGO_REDUNDANT +
    4 * (used.map (2 ^ ·)).foldl (· + ·) 0 + 64 * b2n (odo = some false) + 256 * min 255 late.length
  let s4 := s3.setFusion { s3.fusion with
    ego := ego
    snaps := (tov, ego) :: f.snaps.take 7
    inputs := usable.map fun x => if x.time ≤ tov then { x with new := false } else x
    egoTov := tov
    egoAge := age
    slot := (f.slot + 1) % 8
    late := f.late + late.length }
  let s5 := s4.fuWrite 0 (0x8000 + 256 * f.slot) ((egoRecord tov age flags ego).flatMap fun w => toBytes w 4)
  let s6 := (s5.writeChk 0 mFusion (fusionBase 0 + 0x8800 + 256 * f.slot) 256 (Config.egoImage (tov :: ego ++ now.flatMap EgoSample.nums) % 2 ^ 2048)).1
  s6.kick 0 1 0 (tov - age)

/-! ### Tracks (R255, R256) -/

/-- The live tracks' slots. -/
def Device.liveTracks (s : Device) : List Nat := (s.fusion.tracks.filter fun e => e.2.st ≠ 0).map (·.1)

/-- The first FREE slot of 4,096. -/
def Device.freeTrack (s : Device) : Option Nat :=
  (List.range 4096).find? fun i => (SMap.get ({} : Track) s.fusion.tracks i).st = 0

/-- A track of a sector is published with the doubt bit (R260): its sector is at F2, or the device at F3 or F4. -/
def Device.doubts (s : Device) (sector : Nat) : Bool :=
  decide (3 ≤ s.rd 0 FUSION_STATUS_LEVEL) || bits (s.rd 0 FUSION_SECTORS_LEVELS) (2 * sector) 2 = 2

/-- What a level lets a reader trust (R260): the ego record below F4; tracks, but for those with the doubt bit, below F4; and the map, NEAR and camera planes
of a sector that is not at F2, below F3. -/
def Device.egoTrusted (s : Device) : Bool := decide (s.rd 0 FUSION_STATUS_LEVEL ≤ 3)
def Device.trackTrusted (s : Device) (x : Track) : Bool := decide (s.rd 0 FUSION_STATUS_LEVEL ≤ 3) && !x.doubt
def Device.mapTrusted (s : Device) (sector : Nat) : Bool :=
  decide (s.rd 0 FUSION_STATUS_LEVEL ≤ 2) && decide (bits (s.rd 0 FUSION_SECTORS_LEVELS) (2 * sector) 2 ≠ 2)

/-- Write a track, with its doubt bit (R260); its record's 64 bytes are free values of its contents, and the four counts follow. -/
def Device.setTrack (s : Device) (i : Nat) (x : Track) : Device :=
  let x : Track := { x with doubt := decide (x.st ≠ 0) && s.doubts x.sector }
  let s1 := s.setFusion { s.fusion with tracks := SMap.put {} s.fusion.tracks i x }
  let n := fun k => (s1.fusion.tracks.filter fun e => e.2.st = k).length
  let s2 := (s1.writeChk 0 mFusion (fusionBase 0 + 0x200000 + 64 * i) 64
    (Config.trackImage ([i, x.gen, x.st, x.hits, x.misses, x.cls, x.tov, x.age, x.sector, x.epoch, b2n x.doubt] ++ x.vals) % 2 ^ 512)).1
  (((s2.wr 0 FUSION_TRACKS_LIVE_COUNT_A (n 1)).wr 0 FUSION_TRACKS_LIVE_COUNT_B (n 2)).wr 0 FUSION_TRACKS_IDLE_COUNT_A (n 3)).wr 0
    FUSION_TRACKS_IDLE_COUNT_B (4096 - n 1 - n 2 - n 3)

/-- A detection's values as operands. -/
def detNums (d : Detection) : List Nat := d.time :: d.var :: d.pos

/-- The candidate pairs of tracks and detections within ASSOC_GATE, as (distance, track, detection). -/
def Device.pairings (s : Device) (dets : List Detection) : List (Nat × Nat × Nat) :=
  s.liveTracks.flatMap fun t => dets.zipIdx.filterMap fun d =>
    let x := Config.trackDistance (SMap.get {} s.fusion.tracks t).vals (detNums d.1)
    if x ≤ s.rd 0 FUSION_TRACK_CFG_ASSOC_GATE then some (x, t, d.2) else none

/-- Greedy pairing in ascending order of distance, ties to the lower track and then the lower detection (R255). -/
def greedy (l : List (Nat × Nat × Nat)) : List (Nat × Nat) :=
  ((l.mergeSort fun a b => a.1 < b.1 || (a.1 = b.1 && (a.2.1 < b.2.1 || (a.2.1 = b.2.1 && a.2.2 ≤ b.2.2)))).foldl
    (fun acc p => if acc.any fun q => q.1 = p.2.1 || q.2 = p.2.2 then acc else acc ++ [(p.2.1, p.2.2)]) [])

/-- The sector of a track's position. -/
def trackSector (vals : List Nat) : Nat := sectorOf (ratOf (wd vals 0)) (ratOf (wd vals 1))

/-- The world epoch in force on die 0 (R268). -/
def Device.worldEpoch (s : Device) : Nat := s.rd 0 REFLEX_COLL_EPOCH_EPOCH

/-- Tracks in a tick (R254, R255): every live track is predicted to the sample edge; detections are paired, update their tracks
(late ones at their own time), or give birth; detections older than the history are dropped. -/
def Device.trackTick (s : Device) : Device :=
  let tov := s.chorus.edgeTime
  let oldest := match s.fusion.snaps.getLast? with | some e => if 8 ≤ s.fusion.snaps.length then e.1 else 0 | none => 0
  let all := s.fusion.dets
  let dets := all.filter fun d => decide (oldest ≤ d.time)
  let s1 := ((s.addWrap 0 FUSION_AUDIT_DET_TAKEN all.length).addHold 0 FUSION_COUNT_LATE_DROPPED (all.length - dets.length))
  let s2 := s1.setFusion { s1.fusion with dets := [] }
  let s3 := s2.liveTracks.foldl (fun s i =>
    let s := (s.readChk 0 mFusion (fusionBase 0 + 0x200000 + 64 * i) 64).1
    let x := SMap.get ({} : Track) s.fusion.tracks i
    let v := (List.range 12).map fun k => Config.trackPredict x.vals (tov - x.tov) k % 2 ^ 32
    s.setTrack i { x with vals := v, age := min 0xFFFFFFFF (x.age + (tov - x.tov)), tov := tov, sector := trackSector v, epoch := s.worldEpoch }) s2
  let pairs := greedy (s3.pairings dets)
  let s4 := pairs.foldl (fun s p =>
    let x := SMap.get ({} : Track) s.fusion.tracks p.1
    let d := dets.getD p.2 ⟨0, [], 0, 0, 0⟩
    let v := (List.range 12).map fun k => Config.trackUpdate x.vals (detNums d) k % 2 ^ 32
    s.setTrack p.1 { x with vals := v, age := min 0xFFFFFFFF (tov - d.time), sector := trackSector v, epoch := s.worldEpoch, paired := true }) s3
  dets.zipIdx.foldl (fun s d =>
    if pairs.any fun p => p.2 = d.2 then s
    else match s.freeTrack with
      | none => s.addHold 0 FUSION_COUNT_TRACK_FULL 1
      | some i =>
        let x := SMap.get ({} : Track) s.fusion.tracks i
        let v := (List.range 12).map fun k => Config.trackUpdate [] (detNums d.1) k % 2 ^ 32
        s.setTrack i { gen := (x.gen + 1) % 16, st := 1, hits := 1, cls := d.1.cls, tov := tov,
                       age := min 0xFFFFFFFF (tov - d.1.time), vals := v, sector := trackSector v, epoch := s.worldEpoch }) s4

/-- A track at a frame's end (R256): a frame with a pairing is a hit, one without a miss; birth's own frame adds no further hit. -/
def Track.frameEnd (x : Track) (confM confN del : Nat) : Track :=
  let y := { x with paired := false, frames := x.frames + 1 }
  match x.st with
  | 1 =>
    let h := if x.paired ∧ 1 ≤ x.frames then x.hits + 1 else x.hits
    if confM ≤ h ∧ x.frames + 1 ≤ confN then { y with st := 2, hits := h, misses := 0 }
    else if confN ≤ x.frames + 1 then { x with st := 0, paired := false }
    else { y with hits := h }
  | 2 => if x.paired then { y with hits := x.hits + 1 } else { y with st := 3, misses := 1 }
  | 3 =>
    if x.paired then { y with st := 2, misses := 0, hits := x.hits + 1 }
    else if x.misses + 1 = del then { x with st := 0, paired := false }
    else { y with misses := x.misses + 1 }
  | _ => y

/-- Every live track at a frame's end. -/
def Device.trackFrame (s : Device) : Device :=
  s.liveTracks.foldl (fun s i => s.setTrack i ((SMap.get ({} : Track) s.fusion.tracks i).frameEnd (s.rd 0 FUSION_TRACK_CFG_CONF_M)
    (s.rd 0 FUSION_TRACK_CFG_CONF_N) (s.rd 0 FUSION_TRACK_CFG_DEL_MISSES))) s

/-! ### The merge slice of D0.FU (R245, R252, R255, R261) -/

/-- The contribution of a die is merged, or its absence recorded (R245). -/
def Device.mergePart (s : Device) (die : Nat) : Device :=
  match SMap.get none s.fusion.arrived die with
  | some (p, dets) =>
    let s1 := p.hits.foldl (fun s h => s.hitCell h.1 h.2) s
    let n := s1.fusion.dets.length
    ((p.near.foldl (fun s n => s.lowerNear n.1 n.2) s1).queueDets dets).writeDets n (dets.take (1024 - n))
  | none =>
    let s1 := s.set 0 INGEST_STATUS_MISSING
    (List.range 64).foldl (fun s n =>
      if (s.stream (die * 64 + n)).acc then s.setStream (die * 64 + n) { s.stream (die * 64 + n) with acc := false } else s) s1

/-- The observation buffer's header (R261) as bytes 0 to 63 with COMPLETE 0. DEDUCED (222): its parts are the ego record, the tracks and the camera planes. -/
def Device.obsHeader (s : Device) : List Nat :=
  let live := s.liveTracks
  let age0 := live.foldl (fun m i => max m (SMap.get ({} : Track) s.fusion.tracks i).age) s.fusion.egoAge
  let age := s.fusion.planes.foldl (fun m e => max m (min 0xFFFFFFFF (s.chorus.edgeTime + 1 - e.2))) age0
  let held := (s.fusion.pairs.map (·.2.held)).foldl (· ||| ·) 0
  toBytes s.chorus.edgeTime 8 ++ toBytes age 4 ++
  [s.rd 0 FUSION_STATUS_LEVEL + 8 * s.rd 0 FUSION_STATUS_EGO_VALID + 16 * s.rd 0 FUSION_STATUS_EGO_REDUNDANT, 0] ++
  toBytes live.length 2 ++ toBytes (s.rd 0 FUSION_SECTORS_LEVELS) 4 ++ toBytes held 2 ++ [0, 0] ++
  toBytes (s.rd 0 CHORUS_FRAME_COUNT_FRAMES) 4 ++ toBytes s.fusion.late 4 ++ List.replicate 32 0

/-- D0.FU finishes the frame's observation buffer (R261): the header and the ego record in each copy, and COMPLETE last, in
the copies whose other writes were acknowledged. -/
def Device.obsFinish (s : Device) : Device :=
  let h := s.obsHeader
  let r := s.readChk 0 mFusion (fusionBase 0 + 0x8000 + 256 * ((s.fusion.slot + 7) % 8)) 256
  let rec' := toBytes r.2.2 256
  (List.range 4).foldl (fun s d =>
    let a := s.obsWriteCopy 0 d 0 h
    let b := a.1.obsWriteCopy 0 d 64 rec'
    if a.2 && b.2 && decide (r.2.1 = stDONE) && !b.1.fusion.obsFail.contains d then (b.1.obsWriteCopy 0 d 12 [wd h 12 + 0x80]).1 else b.1) r.1

/-- The first fusion slice of die 0 that starts in a tick merges (R245, R252, R255); in a frame's last tick it finishes the
observation buffer. -/
def Device.fusionMerge (s : Device) : Device :=
  if s.fusion.merged then s
  else
    let s0 := s.kick 0 0 0 (s.ingestResult 0)
    let s1 := [1, 2, 3].foldl Device.mergePart (s0.setFusion { s0.fusion with merged := true })
    let s2 := s1.setFusion { s1.fusion with arrived := [] }
    let s3 := s2.egoTick.trackTick
    if s3.frameLen ≤ s3.tick + 1 then s3.trackFrame.obsFinish else s3

/-! ### Contradiction gating (R257) -/

/-- Two ranges pass the gate of a pair with range limit `lim`. -/
def Device.gatePasses (s : Device) (lim a b : Nat) : Bool :=
  let x := min a lim
  let y := min b lim
  let d := max x y - min x y
  decide (d ≤ s.rd 0 FUSION_GATE_GATE_ABS) || decide (256 * d ≤ s.rd 0 FUSION_GATE_GATE_REL * min x y)

/-- The sectors a stream covers. -/
def Device.covers (s : Device) (g k : Nat) : Bool := bit (s.rd (g / 64) (INGEST_STREAM_CHK_SECTORS (g % 64))) k

/-- The sectors in which a pair fails. -/
def Device.failSectors (s : Device) (a b lim : Nat) : List Nat :=
  (List.range 16).filter fun k => s.covers a k && s.covers b k && !s.gatePasses lim (s.nearAt a k) (s.nearAt b k)

/-- The sides that a failing sector's resolvers take: bit 0 where one sides with A, bit 1 where one sides with B. -/
def Device.resolverSides (s : Device) (a b lim k : Nat) : Nat :=
  allStreams.foldl (fun m g =>
    if s.counting g && s.covers g k && decide (g ≠ a) && decide (g ≠ b) && decide (s.modality g ≠ s.modality a) && decide (s.modality g ≠ s.modality b) then
      let pa := s.gatePasses lim (s.nearAt g k) (s.nearAt a k)
      let pb := s.gatePasses lim (s.nearAt g k) (s.nearAt b k)
      if pa && !pb then m ||| 1 else if pb && !pa then m ||| 2 else m
    else m) 0

/-- A dispute is settled: the disputed streams (bit 0 A, bit 1 B). -/
def settle (sides : List Nat) : Nat := if sides.all (· = 1) then 2 else if sides.all (· = 2) then 1 else 3

/-- One pair at a frame's last tick. -/
def Device.gatePair (s : Device) (n : Nat) : Device :=
  let x := SMap.get ({} : PairRun) s.fusion.pairs n
  let put := fun (s : Device) (y : PairRun) => s.setFusion { s.fusion with pairs := SMap.put {} s.fusion.pairs n y }
  if ¬ s.on 0 (FUSION_PAIR_EN n) then put s {}
  else
    let a := s.rd 0 (FUSION_PAIR_A n)
    let b := s.rd 0 (FUSION_PAIR_B n)
    let lim := 10 * s.rd 0 (FUSION_PAIR_GATE_RANGE n)
    let bad := s.failSectors a b lim
    if bad.isEmpty then
      let p := x.passes + 1
      if x.side ≠ 0 ∧ s.rd 0 FUSION_GATE_CLEAR_FRAMES ≤ p then put s { passes := p } else put s { x with fails := 0, passes := p }
    else
      let y := { x with fails := x.fails + 1, passes := 0 }
      if x.side = 0 ∧ s.rd 0 FUSION_GATE_GATE_K ≤ y.fails then
        let side := settle (bad.map (s.resolverSides a b lim))
        let held := if side = 3 then ((List.range 16).filter fun k => s.covers a k && s.covers b k).foldl (fun m k => m + 2 ^ k) 0 else 0
        put s { y with side := side, held := held }
      else put s y

/-- A stream is disputed by some pair. -/
def Device.pairDisputes (s : Device) (g : Nat) : Bool :=
  s.fusion.pairs.any fun e => (bit e.2.side 0 && decide (s.rd 0 (FUSION_PAIR_A e.1) = g)) || (bit e.2.side 1 && decide (s.rd 0 (FUSION_PAIR_B e.1) = g))

/-- An ego input is disputed by R251: its GATE_K ticks outside stand, and no 64 inside have come. -/
def Device.egoStream (g : Nat) : Bool := 56 ≤ g && g ≤ 60

/-- Gating at a frame's last tick (R257): every pair, then the DISPUTED flag of every stream a pair names. -/
def Device.gateAll (s : Device) : Device :=
  let s1 := (List.range 32).foldl Device.gatePair s
  let named := (List.range 32).flatMap fun n => [s1.rd 0 (FUSION_PAIR_A n), s1.rd 0 (FUSION_PAIR_B n)]
  named.eraseDups.foldl (fun t g =>
    if s1.pairDisputes g then t.set (g / 64) (INGEST_STREAM_STATE_DISPUTED (g % 64))
    else if s.pairDisputes g ∧ ¬ Device.egoStream g then t.clr (g / 64) (INGEST_STREAM_STATE_DISPUTED (g % 64)) else t) s1

/-! ### Degradation levels (R258, R259) -/

/-- A sector's level by the conditions in force: modality count, holds, redundant streams. -/
def Device.sectorRaw (s : Device) (k : Nat) : Nat :=
  let mods := (allStreams.filter fun g => s.counting g && s.covers g k).map s.modality
  let held := s.fusion.pairs.any fun e => bit e.2.held k
  if mods.eraseDups.length < 2 ∨ held then 2
  else if allStreams.any fun g => s.on (g / 64) (INGEST_STREAM_CFG_EN (g % 64)) && s.on (g / 64) (INGEST_STREAM_CFG_REDUNDANT (g % 64)) &&
      s.covers g k && !s.counting g then 1
  else 0

/-- A level moves (R258): a worse one at once, a better one once its condition has held at the end of HOLD_FRAMES frames. -/
def LevelRun.next (x : LevelRun) (raw hold : Nat) (frameEnd : Bool) : LevelRun :=
  let lvl := if x.lvl ≤ raw then raw else if raw = 0 ∧ hold ≤ x.run0 then 0 else if raw ≤ 1 ∧ hold ≤ x.run1 then max raw 1 else x.lvl
  { lvl := lvl
    run0 := if raw = 0 then (if frameEnd then x.run0 + 1 else x.run0) else 0
    run1 := if raw ≤ 1 then (if frameEnd then x.run1 + 1 else x.run1) else 0 }

/-- The levels at a sample edge (R258). The device's own conditions are F1 without redundancy and F3 by sectors at F2; F4 is
left only by the islands. -/
def Device.levelEdge (s : Device) (frameEnd : Bool) : Device :=
  let hold := s.rd 0 FUSION_CTL_HOLD_FRAMES
  let secs := (List.range 16).map fun k => (SMap.get ({} : LevelRun) s.fusion.sectors k).next (s.sectorRaw k) hold frameEnd
  let f2 := (secs.filter (·.lvl = 2)).length
  let raw := if s.rd 0 FUSION_CTL_F3_SECTORS ≤ f2 then 3 else if s.on 0 FUSION_STATUS_EGO_REDUNDANT then 0 else 1
  let dev := s.fusion.device.next raw hold frameEnd
  let s1 := s.setFusion { s.fusion with
    sectors := secs.zipIdx.foldl (fun m e => SMap.put {} m e.2 e.1) s.fusion.sectors
    device := dev }
  let s2 := s1.wr 0 FUSION_SECTORS_LEVELS (secs.zipIdx.foldl (fun m e => m + min 2 e.1.lvl * 4 ^ e.2) 0)
  if s.rd 0 FUSION_STATUS_LEVEL = 4 then s2
  else s2.wr 0 FUSION_STATUS_LEVEL (secs.foldl (fun m e => max m e.lvl) dev.lvl)

/-- The device level re-enters at F3 (R258, R344, R347). -/
def Device.leaveF4 (s : Device) : Device :=
  ((s.wr 0 FUSION_STATUS_LEVEL 3).clr 0 FUSION_STATUS_F4_CAUSE).setFusion { s.fusion with device := { lvl := 3 } }

/-- EGO_VALID and EGO_REDUNDANT at a sample edge (R251, R259): two edges in a row without a counting IMU end validity, which
raises F4. -/
def Device.egoEdge (s : Device) : Device :=
  let n := s.countingImus.length
  let none' := if n = 0 then s.fusion.noImu + 1 else 0
  let valid := if n = 0 then decide (none' < 2) && s.on 0 FUSION_STATUS_EGO_VALID else true
  let s1 := (s.setFusion { s.fusion with noImu := none' }).wr 0 FUSION_STATUS_EGO_VALID (b2n valid)
  let s2 := s1.wr 0 FUSION_STATUS_EGO_REDUNDANT (b2n (decide (2 ≤ n) && s.counting 60))
  if s.on 0 FUSION_STATUS_EGO_VALID ∧ ¬ valid then s2.raiseF4 1 else s2

/-! ### The frame boundary (R24, R250, R261) -/

/-- Every copy of the buffer being filled is complete. -/
def Device.obsComplete (s : Device) : Bool :=
  s.obsSize ≠ 0 && (List.range 4).all fun d => bit (s.readData (s.obsAddr d s.fusion.fill + 12) 1) 7

/-- The buffers swap at a frame boundary if the one being filled is complete; the next one begins with COMPLETE 0. An unswapped
frame is counted (R24, R261). -/
def Device.obsSwap (s : Device) : Device :=
  let r := if s.obsSize = 0 then s
    else (List.range 4).foldl (fun (s : Device) d => (s.readChk 0 mFusion (s.obsAddr d s.fusion.fill + 12) 1).1) s
  if s.obsComplete then
    let s1 := r.setFusion { r.fusion with fill := 1 - r.fusion.fill, obsFail := [] }
    (List.range 4).foldl (fun s d =>
      (s.obsWriteCopy 0 d 12 [setBits (s.readData (s.obsAddr d s.fusion.fill + 12) 1) 7 1 0]).1) s1
  else (r.setFusion { r.fusion with obsFail := [] }).addHold 0 FUSION_COUNT_UNSWAPPED 1

/-- Fusion's part of a sample edge: streams, ego flags, the map's window, levels, gating at a frame's last tick, and at a frame
boundary the swaps, the map's ageing and NEAR. `boundary` says that this edge is a frame boundary, `first` that no frame has
ended before it. -/
def Device.fusionEdge (s : Device) (boundary first : Bool) (counts : List Nat) : Device :=
  let last := decide (s.frameLen ≤ s.tick + 1)
  let s1 := if boundary && !first then
      let t := (s.obsSwap.ageMap)
      t.setFusion { t.fusion with near := [], late := 0 }
    else s
  let s2 := if boundary then (List.range 4).foldl Device.calSwapEdge s1 else s1
  let s3 := allStreams.foldl Device.streamEdge s2
  let s4 := (s3.setFusion { s3.fusion with merged := false }).odometrySample counts
  let s5 := (s4.egoEdge.rollMap).levelEdge last
  if last then s5.gateAll else s5

end Sys2Proof.Machine
end

