-- ==== Sys2Proof/Machine/Collision.lean ====
section
/-!
DEFINITION. Collision checking and path repair (chapter 12): the world and its hash, UPDATE, CHECK, the roadmap search, plan
slots and PUBLISH.
-/
namespace Sys2Proof.Machine

/-! ### Regions and refusals (R267, R283) -/

/-- First address of region 6, which lies in the reflex store. -/
def Device.regionSix (s : Device) (die : Nat) : Nat := reflexBase die + s.collRegion die 6

/-- The unit that a reflex slice names. -/
def Device.sliceUnit (s : Device) (die idx : Nat) : Nat := bits (wd (s.sliceRec die idx) 3) 0 8

/-- Record a refused collision command (R267, R283) and end it with BAD_COMMAND. -/
def Device.collRefuse (s : Device) (die reason opcode : Nat) : Device :=
  (if s.on die REFLEX_COLL_ERR_VALID then s.set die REFLEX_COLL_ERR_OVERFLOW
    else ((s.set die REFLEX_COLL_ERR_VALID).wr die REFLEX_COLL_ERR_REASON reason).wr die REFLEX_COLL_ERR_OPCODE opcode).answer
    stBAD_COMMAND 0

/-- A command needs the planning sequencer, or checkers; the checkers a slice names (R265). -/
def hasPlanner (u : Nat) : Bool := u = 0x10 || u = 0xFF
def checkersOf (u : Nat) : List Nat := if u = 0xFF then List.range 256 else if u < 16 then (List.range 16).map (16 * u + ·) else []

/-- A reflex unit reads ranges of memory: errors are recorded, and the first status other than DONE is the result. -/
def Device.rxTouch (s : Device) (die : Nat) (l : List (Nat × Nat)) : Device × Nat :=
  l.foldl (fun x p => let r := x.1.readChk die mReflex p.1 p.2; (r.1, if x.2 = stDONE then r.2.1 else x.2)) (s, stDONE)

/-- A reflex command ends with a failed access: its slice ends with that status (R69, R431). -/
def Device.rxFail (s : Device) (die idx status : Nat) : Device := (s.answer status 0).endSlice die idx status

/-! ### Records of the world (R268) -/

/-- Records, bytes and first offset of a table: 0 sphere, 1 box, 2 triangle, 3 mesh tree node. -/
def worldCount (t : Nat) : Nat := if t < 2 then 16384 else if t = 2 then 262144 else 524288
def worldBytes (t : Nat) : Nat := if t = 0 then 16 else if t = 3 then 32 else 48
def worldOff (t : Nat) : Nat := if t = 0 then 0 else if t = 1 then 0x40000 else if t = 2 then 0x100000 else 0xD00000

/-- Address of a record on a die. -/
def Device.worldAddr (s : Device) (die t i : Nat) : Nat := s.collRegion die 0 + worldOff t + i * worldBytes t

/-- The words of a record. -/
def Device.worldRec (s : Device) (die t i : Nat) : List Nat :=
  let v := s.readData (s.worldAddr die t i) (worldBytes t)
  (List.range (worldBytes t / 4)).map fun k => bits v (32 * k) 32

/-- A vector in exact arithmetic. -/
abbrev V3 := Rat × Rat × Rat

/-- Three FP32 words from word `i` on. -/
def vecAt (w : List Nat) (i : Nat) : V3 := (ratOf (wd w i), ratOf (wd w (i + 1)), ratOf (wd w (i + 2)))

/-- Sums and products of vectors. -/
def V3.add (a b : V3) : V3 := (a.1 + b.1, a.2.1 + b.2.1, a.2.2 + b.2.2)
def V3.sub (a b : V3) : V3 := (a.1 - b.1, a.2.1 - b.2.1, a.2.2 - b.2.2)
def V3.scale (k : Rat) (a : V3) : V3 := (k * a.1, k * a.2.1, k * a.2.2)
def V3.dot (a b : V3) : Rat := a.1 * b.1 + a.2.1 * b.2.1 + a.2.2 * b.2.2

/-- The rows of the rotation of a quaternion w, x, y, z. -/
def quatRows (w : List Nat) (i : Nat) : V3 × V3 × V3 :=
  let q := fun k => ratOf (wd w (i + k))
  let (a, b, c, d) := (q 0, q 1, q 2, q 3)
  ((a * a + b * b - c * c - d * d, 2 * (b * c - a * d), 2 * (b * d + a * c)),
    (2 * (b * c + a * d), a * a - b * b + c * c - d * d, 2 * (c * d - a * b)),
    (2 * (b * d - a * c), 2 * (c * d + a * b), a * a - b * b - c * c + d * d))

/-- An axis-aligned box: least and greatest corner. -/
structure Box where
  lo : V3
  hi : V3

/-- The bounding box of a record, or none where it is absent (R268). The manual names VALID = 0 and radius 0; a sphere of negative radius, a
triangle of zeros (as a removal leaves it) and a node with COUNT above 4 are taken as absent too (DESIGN CHOICE, 223). -/
def bounds (t : Nat) (w : List Nat) : Option Box :=
  match t with
  | 0 =>
    let r := ratOf (wd w 3)
    if r ≤ 0 then none else some ⟨(vecAt w 0).sub (r, r, r), (vecAt w 0).add (r, r, r)⟩
  | 1 =>
    if bit (wd w 10) 0 then
      let m := quatRows w 6
      let h := vecAt w 3
      let e := fun (r : V3) => |r.1| * h.1 + |r.2.1| * h.2.1 + |r.2.2| * h.2.2
      let d : V3 := (e m.1, e m.2.1, e m.2.2)
      some ⟨(vecAt w 0).sub d, (vecAt w 0).add d⟩
    else none
  | 2 =>
    let a := vecAt w 0
    let b := vecAt w 3
    let c := vecAt w 6
    if (w.take 9).all (· = 0) then none
    else some ⟨(min a.1 (min b.1 c.1), min a.2.1 (min b.2.1 c.2.1), min a.2.2 (min b.2.2 c.2.2)),
      (max a.1 (max b.1 c.1), max a.2.1 (max b.2.1 c.2.1), max a.2.2 (max b.2.2 c.2.2))⟩
  | _ => if wd w 7 ≤ 4 ∧ 1 ≤ wd w 7 then some ⟨vecAt w 0, vecAt w 3⟩ else none

/-- The type code of a hashed record (R269), or none: triangles and inner nodes are not hashed. -/
def hashType (t : Nat) (w : List Nat) : Option Nat :=
  match t with
  | 0 => some 0
  | 1 => some 1
  | 3 => if 1 ≤ wd w 7 ∧ wd w 7 ≤ 4 then some 2 else none
  | _ => none

/-- A reference of the hash. -/
def refWord (ty i : Nat) : Nat := ty * 2 ^ 30 + i % 2 ^ 20

/-- The record table that a reference's type names. -/
def refTable (r : Nat) : Nat := match r / 2 ^ 30 with | 0 => 0 | 1 => 1 | _ => 3

/-- A reference names a present record. -/
def Device.refPresent (s : Device) (die r : Nat) : Bool :=
  r / 2 ^ 30 < 3 && (bounds (refTable r) (s.worldRec die (refTable r) (r % 2 ^ 20))).isSome

/-! ### The spatial hash (R269) -/

/-- The cells that a box overlaps, at a cell edge. -/
def cellsOf (edge : Rat) (b : Box) : List (Int × Int × Int) :=
  let f := fun (x : Rat) => (x / edge).floor
  let axis := fun (a c : Int) => (List.range (c - a + 1).toNat).map fun k => a + (k : Int)
  (axis (f b.lo.1) (f b.hi.1)).flatMap fun x => (axis (f b.lo.2.1) (f b.hi.2.1)).flatMap fun y =>
    (axis (f b.lo.2.2) (f b.hi.2.2)).map fun z => (x, y, z)

/-- The bucket of a cell: 32-bit two's complement. -/
def bucketOf (c : Int × Int × Int) : Nat :=
  (wrapN 32 (c.1 * 73856093) ^^^ wrapN 32 (c.2.1 * 19349663) ^^^ wrapN 32 (c.2.2 * 83492791)) % 65536

/-- The hash cell's edge in metres. -/
def Device.hashEdge (s : Device) (die : Nat) : Rat := (s.rd die REFLEX_COLL_GEOM_HASH_CELL_CM : Rat) / 100

/-- Address of a bucket, its count, its references, and whether it has overflowed. -/
def Device.bucketAddr (s : Device) (die b : Nat) : Nat := s.collRegion die 1 + 64 * b
def Device.bucketRefs (s : Device) (die b : Nat) : List Nat :=
  let n := min 15 (s.readData (s.bucketAddr die b + 60) 2)
  (List.range n).map fun i => s.readData (s.bucketAddr die b + 4 * i) 4
def Device.bucketOvf (s : Device) (die b : Nat) : Bool := bit (s.readData (s.bucketAddr die b + 62) 1) 0

/-- Write a bucket's references, and its OVF bit. -/
def Device.setBucket (s : Device) (die b : Nat) (l : List Nat) : Device :=
  ((s.rxSets die (s.bucketAddr die b) (l ++ List.replicate (15 - l.length) 0)).rxSet die (s.bucketAddr die b + 60) l.length 2)
def Device.setOvf (s : Device) (die b : Nat) : Device := s.rxSet die (s.bucketAddr die b + 62) 1 1

/-- Address of entry `i` of the overflow list, and the present references it holds. -/
def Device.ovfAddr (s : Device) (die i : Nat) : Nat := s.collRegion die 1 + 0x400000 + 4 * i
def Device.ovfRefs (s : Device) (die : Nat) : List Nat :=
  ((List.range 1024).map fun i => s.readData (s.ovfAddr die i) 4).filter (s.refPresent die)

/-- Put a reference into the overflow list: into the first entry that names no present record, unless it is there. `false` with
it: there is no room. -/
def Device.ovfInsert (s : Device) (die r : Nat) : Device × Bool :=
  let l := (List.range 1024).map fun i => s.readData (s.ovfAddr die i) 4
  if l.contains r ∧ s.refPresent die r then (s, true)
  else match l.findIdx? fun x => !s.refPresent die x with
    | some i => (s.rxSet die (s.ovfAddr die i) r 4, true)
    | none => (s, false)

/-- Take a record's reference out of the hash, by its old bounds. -/
def Device.hashRemove (s : Device) (die r : Nat) (b : Box) : Device :=
  let bs := ((cellsOf (s.hashEdge die) b).map bucketOf).eraseDups
  let s1 := bs.foldl (fun s k => if (s.bucketRefs die k).contains r then s.setBucket die k ((s.bucketRefs die k).filter (· ≠ r)) else s) s
  (List.range 1024).foldl (fun s i => if s.readData (s.ovfAddr die i) 4 = r then s.rxSet die (s.ovfAddr die i) 0xFFFFFFFF 4 else s) s1

/-- Enter a record's reference, by its new bounds: in the buckets of its cells, or in the overflow list where the cells are more
than 16 or a bucket is full. -/
def Device.hashInsert (s : Device) (die r : Nat) (b : Box) : Device × Bool :=
  let cs := cellsOf (s.hashEdge die) b
  let bs := (cs.map bucketOf).eraseDups
  if 16 < cs.length then
    let x := s.ovfInsert die r
    (bs.foldl (fun s k => s.setOvf die k) x.1, x.2)
  else
    bs.foldl (fun (x : Device × Bool) k =>
      if (x.1.bucketRefs die k).length < 15 then (x.1.setBucket die k (x.1.bucketRefs die k ++ [r]), x.2)
      else let y := x.1.ovfInsert die r; (y.1.setOvf die k, x.2 && y.2)) (s, true)

/-- Write a record, with its hash entries. `false` with it: the overflow list is full. -/
def Device.worldWrite (s : Device) (die t i v : Nat) : Device × Bool :=
  let old := s.worldRec die t i
  let s1 := match hashType t old, bounds t old with
    | some ty, some b => s.hashRemove die (refWord ty i) b
    | _, _ => s
  let s2 := s1.rxSet die (s1.worldAddr die t i) v (worldBytes t)
  let new := s2.worldRec die t i
  match hashType t new, bounds t new with
  | some ty, some b => s2.hashInsert die (refWord ty i) b
  | _, _ => (s2, true)

/-! ### Invalidation (R274) -/

/-- The grid's cells that a box overlaps; every boundary cell too where part of it lies outside. -/
def Device.gridCells (s : Device) (die : Nat) (b : Box) : List Nat :=
  let o : V3 := (ratOf (s.rd die REFLEX_COLL_INV_ORIGIN_X_VALUE), ratOf (s.rd die REFLEX_COLL_INV_ORIGIN_Y_VALUE),
    ratOf (s.rd die REFLEX_COLL_INV_ORIGIN_Z_VALUE))
  let e : Rat := (s.rd die REFLEX_COLL_GEOM_INV_CELL_CM : Rat) / 100
  let f := fun (x : Rat) => (x / e).floor
  let lo := b.lo.sub o
  let hi := b.hi.sub o
  let outside := f lo.1 < 0 || f lo.2.1 < 0 || f lo.2.2 < 0 || 32 ≤ f hi.1 || 32 ≤ f hi.2.1 || 16 ≤ f hi.2.2
  (List.range 16384).filter fun c =>
    let x : Int := (c % 32 : Nat)
    let y : Int := (c / 32 % 32 : Nat)
    let z : Int := (c / 1024 : Nat)
    (decide (f lo.1 ≤ x) && decide (x ≤ f hi.1) && decide (f lo.2.1 ≤ y) && decide (y ≤ f hi.2.1) && decide (f lo.2.2 ≤ z) && decide (z ≤ f hi.2.2)) ||
    (outside && (decide (x = 0) || decide (x = 31) || decide (y = 0) || decide (y = 31) || decide (z = 0) || decide (z = 15)))

/-- The edges listed in a cell. -/
def Device.cellEdges (s : Device) (die c : Nat) : List Nat :=
  let d := s.collRegion die 4 + 8 * c
  let off := s.readData d 4
  (List.range (s.readData (d + 4) 4)).map fun i => s.readData (s.collRegion die 5 + off + 4 * i) 4

/-! ### The roadmap (R273) -/

/-- Sizes of the roadmap. -/
def Device.nodeCount (s : Device) (die : Nat) : Nat := s.rd die REFLEX_COLL_ROADMAP_NODES_COUNT_M1 + 1
def Device.edgeCount (s : Device) (die : Nat) : Nat := s.rd die REFLEX_COLL_ROADMAP_EDGES_COUNT_M1 + 1

/-- Addresses of a node and of an edge. -/
def Device.nodeAddr (s : Device) (die n : Nat) : Nat := s.collRegion die 2 + 128 * n
def Device.edgeAddr (s : Device) (die e : Nat) : Nat := s.collRegion die 3 + 16 * e

/-- A node's configuration, and its out-edges. -/
def Device.nodeConfig (s : Device) (die n : Nat) : List Nat := (List.range 16).map fun j => s.readData (s.nodeAddr die n + 4 * j) 4
def Device.outEdges (s : Device) (die n : Nat) : List Nat :=
  let first := bits (s.readData (s.nodeAddr die n + 64) 4) 0 20
  (List.range (s.readData (s.nodeAddr die n + 68) 2)).map (first + ·)

/-- The fields of an edge. -/
def Device.edgeTo (s : Device) (die e : Nat) : Nat := bits (s.readData (s.edgeAddr die e) 4) 0 18
def Device.edgeSamples (s : Device) (die e : Nat) : Nat := bits (s.readData (s.edgeAddr die e) 4) 18 6 + 1
def Device.edgeMargin (s : Device) (die e : Nat) : Nat := bits (s.readData (s.edgeAddr die e) 4) 24 8
def Device.edgeTwin (s : Device) (die e : Nat) : Nat := bits (s.readData (s.edgeAddr die e + 4) 4) 0 20
def Device.edgeCost (s : Device) (die e : Nat) : Nat := s.readData (s.edgeAddr die e + 8) 4

/-- An edge's state, and writing it to the edge and its twin together. -/
def Device.edgeState (s : Device) (die e : Nat) : Nat := bits (s.readData (s.regionSix die + e / 4) 1) (2 * (e % 4)) 2
def Device.setEdge1 (s : Device) (die e st : Nat) : Device :=
  let a := s.regionSix die + e / 4
  s.rxSetByte die a (setBits (s.readData a 1) (2 * (e % 4)) 2 st)
def Device.setEdge (s : Device) (die e st : Nat) : Device := (s.setEdge1 die e st).setEdge1 die (s.edgeTwin die e) st

/-! ### Plan slots (R278) -/

/-- The search of a slot, and writing it back. -/
def Device.search (s : Device) (die slot : Nat) : PlanSearch := SMap.get {} s.collide.search (die * 8 + slot)
def Device.setSearch (s : Device) (die slot : Nat) (x : PlanSearch) : Device :=
  { s with collide := { s.collide with search := SMap.put {} s.collide.search (die * 8 + slot) x } }

/-- Nodes are to be revisited at the next PLAN of every slot that searches. -/
def Device.markDirty (s : Device) (die : Nat) (ns : List Nat) : Device :=
  (List.range 8).foldl (fun s k =>
    if (s.search die k).live then s.setSearch die k { s.search die k with dirty := ((s.search die k).dirty ++ ns).eraseDups } else s) s

/-- A changed edge's nodes: its end and its twin's. -/
def Device.edgeNodes (s : Device) (die e : Nat) : List Nat := [s.edgeTo die e, s.edgeTo die (s.edgeTwin die e)]

/-- Address of a slot's header and of its entries: 0–3 the candidates, 4 CURRENT. -/
def Device.planSlotAddr (s : Device) (die slot : Nat) : Nat := s.regionSix die + 0x40000 + 1664 * slot
def Device.planAddr (s : Device) (die slot k : Nat) : Nat :=
  s.planSlotAddr die slot + 64 + (if k = 4 then 0 else 320 * (k + 1))

/-- The fields of an entry. -/
def Device.plStamp (s : Device) (die slot k : Nat) : Nat := s.readData (s.planAddr die slot k) 4
def Device.plState (s : Device) (die slot k : Nat) : Nat := s.readData (s.planAddr die slot k + 4) 1
def Device.plTag (s : Device) (die slot k : Nat) : Nat := s.readData (s.planAddr die slot k + 5) 1
def Device.plCommit (s : Device) (die slot k : Nat) : Bool := bit (s.readData (s.planAddr die slot k + 6) 1) 0
def Device.plEdges (s : Device) (die slot k : Nat) : List Nat :=
  (List.range (min 64 (s.readData (s.planAddr die slot k + 7) 1))).map fun i => s.readData (s.planAddr die slot k + 64 + 4 * i) 4
def Device.plCost (s : Device) (die slot k : Nat) : Nat := s.readData (s.planAddr die slot k + 8) 4

/-- PUBLISHED of a slot, 0xFF for none. -/
def Device.published (s : Device) (die slot : Nat) : Nat := s.readData (s.planSlotAddr die slot + 1) 1

/-- STOP_REQ (R280, R283): set when a slot becomes STOPPING; a PUBLISH that publishes a candidate, which makes its slot ACTIVE, leaves it set
only where another slot is STOPPING (DEDUCED, 224). -/
def Device.stopReq (s : Device) (die v : Nat) : Device :=
  if v = 3 then s.set die REFLEX_COLL_STATUS_STOP_REQ
  else if v = 1 then
    s.wr die REFLEX_COLL_STATUS_STOP_REQ (b2n ((List.range 8).any fun k => decide (s.rd die (REFLEX_COLL_PLAN_STATUS_STATE k) = 3)))
  else s

/-- Write a slot's STATE, in its header and its register. -/
def Device.setPlanState (s : Device) (die slot v : Nat) : Device :=
  ((s.rxSetByte die (s.planSlotAddr die slot) v).wr die (REFLEX_COLL_PLAN_STATUS_STATE slot) v).stopReq die v

/-- Write PUBLISHED; a different value counts as one more write (R302). -/
def Device.setPublished (s : Device) (die slot v : Nat) : Device :=
  let s1 := (s.rxSetByte die (s.planSlotAddr die slot + 1) v).wr die (REFLEX_COLL_PLAN_STATUS_PUBLISHED slot) (min v 7)
  if s.published die slot = v then s1
  else { s1 with collide := { s1.collide with pubs := SMap.put 0 s1.collide.pubs (die * 8 + slot) (SMap.get 0 s1.collide.pubs (die * 8 + slot) + 1) } }

/-- Write LAST_STATUS. -/
def Device.setLast (s : Device) (die slot v : Nat) : Device :=
  (s.rxSetByte die (s.planSlotAddr die slot + 2) v).wr die (REFLEX_COLL_PLAN_STATUS_LAST_STATUS slot) v

/-- Write an entry (R278). -/
def Device.writePlan (s : Device) (die slot k : Nat) (stamp st tag flags cost first last : Nat) (edges : List Nat) : Device :=
  (s.rxSets die (s.planAddr die slot k)
    ([stamp, st + 256 * tag + 65536 * flags + 2 ^ 24 * edges.length, cost, first, last] ++ List.replicate 11 0 ++ edges ++
      List.replicate (64 - edges.length) 0))

/-- A command that names a plan slot ends refused: its status is the slot's LAST_STATUS (R283). -/
def Device.planRefuse (s : Device) (die slot reason opcode : Nat) : Device :=
  (s.collRefuse die reason opcode).setLast die slot stBAD_COMMAND

/-- The entry that a new candidate takes (R279): the lowest EMPTY one, or else that of highest cost that is not published, the lowest of
those (DESIGN CHOICE, 223). -/
def Device.candidateFor (s : Device) (die slot : Nat) : Nat :=
  match [0, 1, 2, 3].find? fun k => s.plState die slot k = 0 with
  | some k => k
  | none =>
    (([0, 1, 2, 3].filter fun k => decide (s.published die slot ≠ k)).foldl (fun (m : Option Nat) k =>
      match m with
      | none => some k
      | some b => if lt32 (s.plCost die slot b) (s.plCost die slot k) then some k else some b) none).getD 0

/-! ### UPDATE (R266, R270, R271) -/

/-- An update entry's fields: OP, TYPE, INDEX and the record. -/
def Device.updateEntry (s : Device) (a : Nat) : Nat × Nat × Nat × Nat :=
  (s.readData a 1, s.readData (a + 1) 1, s.readData (a + 4) 4, s.readData (a + 16) 48)

/-- An entry that reason 0x21 refuses. -/
def Device.updateBad (s : Device) (die : Nat) (e : Nat × Nat × Nat × Nat) : Bool :=
  decide (1 < e.1) || decide (3 < e.2.1) || decide (worldCount e.2.1 ≤ e.2.2.1) ||
  (decide (die = 0) && s.on 0 REFLEX_COLL_CTL_TRACK_EN && decide (e.2.1 = 0) && decide (12288 ≤ e.2.2.1))

/-- The sphere of a track (R271): its position, and its radius from the largest position variance; zeros where it is FREE or
TENTATIVE. -/
def Device.trackSphere (s : Device) (x : Track) : Nat :=
  if x.st = 2 ∨ x.st = 3 then
    let var := (x.vals.drop 6).take 3 |>.foldl max32 0
    let r := add32 (div32 (ofInt32 (s.rd 0 REFLEX_COLL_TRACK_RADIUS_CM)) (ofInt32 100)) (mul32 (ofInt32 3) (sqrt32 var))
    ofBytes ((x.vals.take 3 ++ [r]).flatMap fun w => toBytes w 4)
  else 0

/-- The tracks that an import visits (R271): up to 256 whose TOV has changed, in ascending index from where the last one ended; a suppressed
track is one of those it visits (DEDUCED, 225). -/
def Device.importTracks (s : Device) : List Nat :=
  (((List.range 4096).map fun k => (s.collide.trackNext + k) % 4096).filter fun t =>
    let x := SMap.get ({} : Track) s.fusion.tracks t
    decide (x ≠ {}) && decide (SMap.get 0 s.collide.trackTov t ≠ x.tov + 1)).take 256

/-- What the prepare phase reads to enter new records (R270): the old records, the buckets of old and new bounds, and the overflow list. -/
def Device.hashReads (s : Device) (die : Nat) (recs : List (Nat × Nat × Nat)) : List (Nat × Nat) :=
  recs.flatMap fun r =>
    let new := (List.range (worldBytes r.1 / 4)).map fun k => bits r.2.2 (32 * k) 32
    (s.worldAddr die r.1 r.2.1, worldBytes r.1) ::
      ((bounds r.1 (s.worldRec die r.1 r.2.1)).toList ++ (bounds r.1 new).toList).flatMap fun b =>
        (((cellsOf (s.hashEdge die) b).map bucketOf).eraseDups.map fun k => (s.bucketAddr die k, 64)) ++ [(s.ovfAddr die 0, 4096)]

/-- What it reads of the invalidation grid (R274): the directory entries of cells, and their lists. -/
def Device.gridReads (s : Device) (die : Nat) (cells : List Nat) : List (Nat × Nat) :=
  cells.flatMap fun c =>
    let d := s.collRegion die 4 + 8 * c
    [(d, 8), (s.collRegion die 5 + s.readData d 4, 4 * s.readData (d + 4) 4)]

/-- The grid's cells that changed records' old and new bounds overlap, `t` holding the new records. -/
def Device.changedCells (s t : Device) (die : Nat) (recs : List (Nat × Nat × Nat)) : List Nat :=
  (recs.flatMap fun r =>
    ((bounds r.1 (s.worldRec die r.1 r.2.1)).toList ++ (bounds r.1 (t.worldRec die r.1 r.2.1)).toList).flatMap (s.gridCells die)).eraseDups

/-- Write new records, with their hash entries. `false` with it: the overflow list is full. -/
def Device.worldWrites (s : Device) (die : Nat) (recs : List (Nat × Nat × Nat)) : Device × Bool :=
  recs.foldl (fun (x : Device × Bool) r =>
    let y := x.1.worldWrite die r.1 r.2.1 (r.2.2 % 256 ^ worldBytes r.1); (y.1, x.2 && y.2)) (s, true)

/-- The prepare phase (R270): it computes what the commit writes, and shows nothing of it, nor of the tracks it visits (R271). A world that
would be full ends the command with WORLD_FULL, and it has no effect. -/
def Device.prepareUpdate (s : Device) (die idx : Nat) (es : List (Nat × Nat × Nat × Nat)) (visit : List Nat) : Device :=
  let track := fun (t : Nat) => SMap.get ({} : Track) s.fusion.tracks t
  let take := visit.filter fun t => decide ((track t).epoch = s.rd die REFLEX_COLL_EPOCH_EPOCH)
  let recs := es.map (fun e => (e.2.1, e.2.2.1, if e.1 = 0 then 0 else e.2.2.2)) ++ take.map fun t => (0, 12288 + t, s.trackSphere (track t))
  match s.rxTouch die (s.hashReads die recs) with
  | (s1, st) =>
    if st ≠ stDONE then s1.rxFail die idx st
    else
      let dry := s1.worldWrites die recs
      if ¬ dry.2 then (s1.set die REFLEX_COLL_STATUS_WORLD_FULL).answer stWORLD_FULL 0
      else
        let cells := s1.changedCells dry.1 die recs
        match s1.rxTouch die (s1.gridReads die cells) with
        | (s2, st) =>
          if st ≠ stDONE then s2.rxFail die idx st
          else
            let edges := (cells.flatMap (s2.cellEdges die)).eraseDups
            let p : WorldPrep :=
              { slice := idx, records := recs, tracks := take.map fun t => (t, (track t).tov), skipped := visit.length - take.length
                next := visit.getLast?.map fun t => (t + 1) % 4096, edges := if 4096 < edges.length then none else some edges }
            ({ s2 with collide := { s2.collide with prep := SMap.put none s2.collide.prep die (some p) } }).answer stDONE 0

/-- The body of UPDATE: its checks, then the prepare phase. -/
def updateBody (die idx : Nat) (w : List Nat) (s : Device) : Device :=
  if ¬ hasPlanner (s.sliceUnit die idx) then s.collRefuse die 0x20 0x40
  else
    let n := bits (wd w 1) 0 10 + 1
    let src := reflexBase die + bits (wd w 2) 0 24
    match s.rxTouch die ((List.range n).map fun i => (src + 64 * i, 64)) with
    | (s1, st) =>
      if st ≠ stDONE then s1.rxFail die idx st
      else
        let es := (List.range n).map fun i => s1.updateEntry (src + 64 * i)
        if es.any (s1.updateBad die) then s1.collRefuse die 0x21 0x40
        else if bit (wd w 1) 31 ∧ ¬ (die = 0 ∧ s1.on 0 REFLEX_COLL_CTL_TRACK_EN) then s1.collRefuse die 0x23 0x40
        else s1.prepareUpdate die idx es (if bit (wd w 1) 31 then s1.importTracks else [])

/-- Every entry of every slot. -/
def allPlans : List (Nat × Nat) := (List.range 8).flatMap fun s => (List.range 5).map fun k => (s, k)

/-- FREE segment results go to UNCHECKED (R277). -/
def Device.uncheckSegs (s : Device) (die : Nat) : Device :=
  let hit := (s.segs die).filter fun x => x.result = 1
  let s1 := hit.foldl (fun s x => s.rxSetByte die (s.regionSix die + 0x44000 + 16 * x.slot + 3) 0) s
  s1.setSegs die ((s1.segs die).map fun x => if x.result = 1 then { x with result := 0 } else x)

/-- The body of UPDATE_COMMIT (R270, R279, R280): records, hash, edge states, stamps, and the epoch, in one step. -/
def updateCommitBody (die : Nat) (s : Device) : Device :=
  match SMap.get none s.collide.prep die with
  | none => s
  | some p =>
    let touched := fun (k : Nat × Nat) => match p.edges with
      | some es => (s.plEdges die k.1 k.2).any (es.contains ·)
      | none => true
    let hits := allPlans.filter touched
    let s1 := (s.worldWrites die p.records).1
    let s2 := match p.edges with
      | some es => es.foldl (fun (s : Device) e => (s.setEdge die e 0).markDirty die (s.edgeNodes die e)) s1
      | none =>
        let s2 := s1.wipeRange (s1.regionSix die) (s1.regionSix die + 0x40000)
        (List.range 8).foldl (fun s k => s.setSearch die k {}) s2
    let epoch := (s2.rd die REFLEX_COLL_EPOCH_EPOCH + 1) % 2 ^ 32
    let s3 := s2.wr die REFLEX_COLL_EPOCH_EPOCH epoch
    let s4 := allPlans.foldl (fun s k => if hits.contains k ∨ s.plState die k.1 k.2 = 0 then s else s.rxSet die (s.planAddr die k.1 k.2) epoch 4) s3
    let s5 := (List.range 8).foldl (fun s k =>
      if hits.any fun h => decide (h.1 = k) && decide (h.2 = s.published die k) then s.setPublished die k 0xFF else s) s4
    let s6 := p.tracks.foldl (fun s t => { s with collide := { s.collide with trackTov := SMap.put 0 s.collide.trackTov t.1 (t.2 + 1) } }) s5
    let s7 := s6.addHold die REFLEX_COLL_COUNT_TRACK_SKIPPED p.skipped
    ({ s7 with collide := { s7.collide with
        prep := SMap.put none s7.collide.prep die none, trackNext := p.next.getD s7.collide.trackNext } }).uncheckSegs die

/-! ### The robot (R272) -/

/-- Quaternion product, and rotation of a vector by a quaternion, in FP32, terms in the order written. -/
def qmul (a b : List Nat) : List Nat :=
  let m := fun i j => mul32 (wd a i) (wd b j)
  [sub32 (sub32 (sub32 (m 0 0) (m 1 1)) (m 2 2)) (m 3 3), sub32 (add32 (add32 (m 0 1) (m 1 0)) (m 2 3)) (m 3 2),
    add32 (add32 (sub32 (m 0 2) (m 1 3)) (m 2 0)) (m 3 1), add32 (sub32 (add32 (m 0 3) (m 1 2)) (m 2 1)) (m 3 0)]

/-- Cross product in FP32. -/
def cross32 (a b : List Nat) : List Nat :=
  let f := fun i j => sub32 (mul32 (wd a i) (wd b j)) (mul32 (wd a j) (wd b i))
  [f 1 2, f 2 0, f 0 1]

/-- A vector rotated by a quaternion. -/
def qrot (q v : List Nat) : List Nat :=
  let u := q.drop 1
  let t := (cross32 u v).map fun x => add32 x x
  let c := cross32 u t
  (List.range 3).map fun i => add32 (add32 (wd v i) (mul32 (wd q 0) (wd t i))) (wd c i)

/-- A pose: quaternion and position. -/
abbrev Pose := List Nat × List Nat

/-- One pose after another. -/
def Pose.then (a b : Pose) : Pose := (qmul a.1 b.1, (List.range 3).map fun i => add32 (wd a.2 i) (wd (qrot a.1 b.2) i))

/-- The pose of the base. -/
def basePose : Pose := ([0x3F800000, 0, 0, 0], [0, 0, 0])

/-- The poses of the links: the base, then each joint's link, in joint order. -/
def Device.links (s : Device) (die : Nat) (q : List Nat) : List Pose :=
  (List.range (s.rd die REFLEX_COLL_CTL_JOINTS_M1 + 1)).foldl (fun l j =>
    let a := s.regionSix die + 0x48000 + 64 * j
    let w := (List.range 10).map fun i => s.readData (a + 4 * i) 4
    let parent := l.getD (s.readData (a + 41) 1) basePose
    let axis := (w.drop 7).take 3
    let motion : Pose :=
      if s.readData (a + 40) 1 = 0 then
        (Config.halfCos (wd q j) % 2 ^ 32 :: axis.map fun x => mul32 x (Config.halfSin (wd q j) % 2 ^ 32), [0, 0, 0])
      else (basePose.1, axis.map fun x => mul32 x (wd q j))
    l ++ [(parent.then (w.take 4, (w.drop 4).take 3)).then motion]) [basePose]

/-- The robot's spheres at a configuration: centre and radius. -/
def Device.robotSpheres (s : Device) (die : Nat) (q : List Nat) : List (V3 × Rat) :=
  let l := s.links die q
  (List.range (s.rd die REFLEX_COLL_CTL_SPHERES_M1 + 1)).map fun k =>
    let a := s.regionSix die + 0x48400 + 32 * k
    let w := (List.range 4).map fun i => s.readData (a + 4 * i) 4
    let p := l.getD (s.readData (a + 16) 1) basePose
    let c := qrot p.1 (w.take 3)
    ((ratOf (add32 (wd p.2 0) (wd c 0)), ratOf (add32 (wd p.2 1) (wd c 1)), ratOf (add32 (wd p.2 2) (wd c 2))), ratOf (wd w 3))

/-! ### Contact (R275) -/

/-- A number clamped between two. -/
def clampRat (lo hi x : Rat) : Rat := max lo (min hi x)

/-- Square of the distance of a point from an axis-aligned box. -/
def boxDist2 (b : Box) (p : V3) : Rat :=
  let d := p.sub (clampRat b.lo.1 b.hi.1 p.1, clampRat b.lo.2.1 b.hi.2.1 p.2.1, clampRat b.lo.2.2 b.hi.2.2 p.2.2)
  d.dot d

/-- Square of the distance of a point from a segment. -/
def segDist2 (a b p : V3) : Rat :=
  let u := b.sub a
  let n := u.dot u
  let t := if n = 0 then 0 else clampRat 0 1 ((p.sub a).dot u / n)
  let d := p.sub (a.add (V3.scale t u))
  d.dot d

/-- Square of the distance of a point from a triangle. -/
def triDist2 (a b c p : V3) : Rat :=
  let u := b.sub a
  let v := c.sub a
  let w := p.sub a
  let (uu, uv, vv, wu, wv) := (u.dot u, u.dot v, v.dot v, w.dot u, w.dot v)
  let det := uu * vv - uv * uv
  let edges := min (segDist2 a b p) (min (segDist2 b c p) (segDist2 c a p))
  if det = 0 then edges
  else
    let x := (vv * wu - uv * wv) / det
    let y := (uu * wv - uv * wu) / det
    if 0 ≤ x ∧ 0 ≤ y ∧ x + y ≤ 1 then
      let d := w.sub ((V3.scale x u).add (V3.scale y v))
      d.dot d
    else edges

/-- An inflated sphere against a reference: whether it touches, and the test units (R275). -/
def Device.touches (s : Device) (die r : Nat) (c : V3) (rad : Rat) : Bool × Nat :=
  let w := s.worldRec die (refTable r) (r % 2 ^ 20)
  match r / 2 ^ 30 with
  | 0 => let d := c.sub (vecAt w 0); (decide (d.dot d ≤ (rad + ratOf (wd w 3)) * (rad + ratOf (wd w 3))), 1)
  | 1 =>
    let m := quatRows w 6
    let d := c.sub (vecAt w 0)
    let loc : V3 :=
      (m.1.1 * d.1 + m.2.1.1 * d.2.1 + m.2.2.1 * d.2.2, m.1.2.1 * d.1 + m.2.1.2.1 * d.2.1 + m.2.2.2.1 * d.2.2,
        m.1.2.2 * d.1 + m.2.1.2.2 * d.2.1 + m.2.2.2.2 * d.2.2)
    let h := vecAt w 3
    (decide (boxDist2 ⟨V3.scale (-1) h, h⟩ loc ≤ rad * rad), 1)
  | _ =>
    if boxDist2 ⟨vecAt w 0, vecAt w 3⟩ c ≤ rad * rad then
      let ts := (List.range (min 4 (wd w 7))).map fun k => s.worldRec die 2 (wd w 6 + k)
      (ts.any fun t => decide (triDist2 (vecAt t 0) (vecAt t 3) (vecAt t 6) c ≤ rad * rad), 1 + 4 * ts.length)
    else (false, 1)

/-- The present references that a sphere is tested against: those in the buckets of its box's cells, and the overflow list where
one of them has overflowed; each once. -/
def Device.nearRefs (s : Device) (die : Nat) (c : V3) (rad : Rat) : List Nat :=
  let bs := ((cellsOf (s.hashEdge die) ⟨c.sub (rad, rad, rad), c.add (rad, rad, rad)⟩).map bucketOf).eraseDups
  let refs := bs.flatMap (s.bucketRefs die) ++ (if bs.any (s.bucketOvf die) then s.ovfRefs die else [])
  (refs.filter (s.refPresent die)).eraseDups

/-- A sample (R275): 0 clear, 1 in contact, 2 more test units than it may take. -/
def Device.sampleResult (s : Device) (die : Nat) (margin : Rat) (q : List Nat) : Nat :=
  let x := (s.robotSpheres die q).foldl (fun (x : Bool × Nat) sp =>
    (s.nearRefs die sp.1 (sp.2 + margin)).foldl (fun (x : Bool × Nat) r =>
      let t := s.touches die r sp.1 (sp.2 + margin)
      (x.1 || t.1, x.2 + t.2)) x) (false, 0)
  if 4 * s.rd die REFLEX_COLL_CTL_TESTS_4 < x.2 then 2 else if x.1 then 1 else 0

/-- The configuration at sample `k` of `n` between two (R275). -/
def between (a b : List Nat) (k n : Nat) : List Nat :=
  let l := if n = 1 then 0 else div32 (ofInt32 k) (ofInt32 ((n : Int) - 1))
  (List.range 16).map fun j => add32 (wd a j) (mul32 l (sub32 (wd b j) (wd a j)))

/-- What the test of an inflated sphere reads: the buckets, the overflow list where one of them has overflowed, the records they name, and
the triangles of a leaf that it overlaps. -/
def Device.sphereReads (s : Device) (die : Nat) (c : V3) (rad : Rat) : List (Nat × Nat) :=
  let bs := ((cellsOf (s.hashEdge die) ⟨c.sub (rad, rad, rad), c.add (rad, rad, rad)⟩).map bucketOf).eraseDups
  bs.map (fun b => (s.bucketAddr die b, 64)) ++ (if bs.any (s.bucketOvf die) then [(s.ovfAddr die 0, 4096)] else []) ++
    (s.nearRefs die c rad).flatMap fun r =>
      let w := s.worldRec die (refTable r) (r % 2 ^ 20)
      (s.worldAddr die (refTable r) (r % 2 ^ 20), worldBytes (refTable r)) ::
        if r / 2 ^ 30 = 2 ∧ boxDist2 ⟨vecAt w 0, vecAt w 3⟩ c ≤ rad * rad then [(s.worldAddr die 2 (wd w 6), 48 * min 4 (wd w 7))] else []

/-- What the samples of a motion read, up to the first that is not clear: the kinematic table, and what each sphere's test reads. -/
def Device.motionReads (s : Device) (die : Nat) (margin : Rat) (a b : List Nat) (n : Nat) : List (Nat × Nat) :=
  let last := ((List.range n).find? fun k => decide (s.sampleResult die margin (between a b k n) ≠ 0)).getD (n - 1)
  (s.regionSix die + 0x48000, 64 * (s.rd die REFLEX_COLL_CTL_JOINTS_M1 + 1)) ::
    (s.regionSix die + 0x48400, 32 * (s.rd die REFLEX_COLL_CTL_SPHERES_M1 + 1)) ::
    (List.range (last + 1)).flatMap fun k =>
      (s.robotSpheres die (between a b k n)).flatMap fun sp => s.sphereReads die sp.1 (sp.2 + margin)

/-- Samples between two configurations: the first result that is not clear, or 0. -/
def Device.motionResult (s : Device) (die : Nat) (margin : Rat) (a b : List Nat) (n : Nat) : Nat :=
  ((List.range n).findSome? fun k =>
    let r := s.sampleResult die margin (between a b k n)
    if r = 0 then none else some r).getD 0

/-- The node an edge starts from: its twin's end. -/
def Device.edgeFrom (s : Device) (die e : Nat) : Nat := s.edgeTo die (s.edgeTwin die e)

/-- An edge's check (R275). -/
def Device.edgeResult (s : Device) (die e : Nat) : Nat :=
  s.motionResult die ((s.edgeMargin die e : Rat) / 1000) (s.nodeConfig die (s.edgeFrom die e)) (s.nodeConfig die (s.edgeTo die e)) (s.edgeSamples die e)

/-- What a check of an edge reads: the edge and both node records, and what its samples read. -/
def Device.edgeReads (s : Device) (die e : Nat) : List (Nat × Nat) :=
  [(s.edgeAddr die e, 16), (s.nodeAddr die (s.edgeFrom die e), 128), (s.nodeAddr die (s.edgeTo die e), 128)] ++
    s.motionReads die ((s.edgeMargin die e : Rat) / 1000) (s.nodeConfig die (s.edgeFrom die e)) (s.nodeConfig die (s.edgeTo die e))
      (s.edgeSamples die e)

/-- A checker finishes an edge: FREE or BLOCKED, for it and its twin; searches revisit its nodes. -/
def Device.finishEdge (s : Device) (die e : Nat) : Device :=
  let r := s.edgeResult die e
  let s1 := (s.setEdge die e (if r = 0 then 1 else 2)).addWrap die REFLEX_COLL_AUDIT_ENDED 1
  let s2 := if r = 2 then s1.addHold die REFLEX_COLL_COUNT_OVERFLOW 1 else s1
  s2.markDirty die (s.edgeNodes die e)

/-! ### CHECK (R276, R277) -/

/-- A slice's CHECK in flight, the one of a die that a checker works for, and those of a die. -/
def Device.checkOf (s : Device) (die idx : Nat) : Option CheckRun := SMap.get none s.collide.checks (die + 4 * idx)
def Device.checksOn (s : Device) (die : Nat) : List CheckRun :=
  s.collide.checks.filterMap fun e => if e.1 % 4 = die then e.2 else none
def Device.checkWith (s : Device) (die checker : Nat) : Option CheckRun :=
  (s.checksOn die).find? fun x => x.busy.any fun b => decide (b.1 = checker)

/-- Replace a slice's CHECK. -/
def Device.setCheck (s : Device) (die idx : Nat) (x : Option CheckRun) : Device :=
  { s with collide := { s.collide with checks := SMap.put none s.collide.checks (die + 4 * idx) x } }

/-- A command of a collision slice's list is still at work: a CHECK, or the prepare phase of an UPDATE. -/
def Device.collBusy (s : Device) (die idx : Nat) : Bool :=
  (s.checkOf die idx).isSome || (SMap.get none s.collide.prep die).any fun p => decide (p.slice = idx)


/-- Deal what waits to the free checkers, lowest first; a group that is halted or about to halt takes none (R455). -/
def Device.deal (s : Device) (die : Nat) (x : CheckRun) : Device :=
  let held := s.probe.halted ++ s.probe.draining
  let free := x.checkers.filter fun c => (!x.busy.any fun b => b.1 = c) && !held.contains (0x1010 + die * 256 + c / 16)
  let n := min free.length x.queue.length
  let y := { x with busy := x.busy ++ (free.take n).zip (x.queue.take n), queue := x.queue.drop n }
  (s.addWrap die REFLEX_COLL_AUDIT_ISSUED n).setCheck die x.slice (if y.busy.isEmpty && y.queue.isEmpty then none else some y)

/-- The body of CHECK_EDGES (R266, R276). -/
def checkEdgesBody (die idx : Nat) (w : List Nat) (s : Device) : Device :=
  let cs := checkersOf (s.sliceUnit die idx)
  if cs.isEmpty then s.collRefuse die 0x20 0x41
  else
    let n := bits (wd w 1) 0 16 + 1
    let src := reflexBase die + bits (wd w 2) 0 24
    match s.rxTouch die ((List.range n).map fun i => (src + 4 * i, 4)) with
    | (s1, st) =>
      if st ≠ stDONE then s1.rxFail die idx st
      else
        let es := (List.range n).map fun i => s1.readData (src + 4 * i) 4
        if es.any fun e => decide (s1.edgeCount die ≤ e) then s1.collRefuse die 0x22 0x41
        else (s1.deal die { slice := idx, checkers := cs, queue := es.map fun e => ⟨false, e, 0⟩, epoch := s1.rd die REFLEX_COLL_EPOCH_EPOCH }).answer stDONE 0

/-- Where a joint's measured position at the sample edge lies, and that position (R277, R317). -/
def Device.jointAddr (s : Device) (die j : Nat) : Nat := reflexBase die + s.rd die REFLEX_CTRL_CTL_REGION * 0x200000 + 0x20800 + 4 * j
def Device.jointPos (s : Device) (die j : Nat) : Nat := s.readData (s.jointAddr die j) 4

/-- A waypoint of a segment as a configuration: joints it does not carry at their measured positions. -/
def Device.waypoint (s : Device) (die : Nat) (x : Segment) (k : Nat) : List Nat :=
  (List.range 16).map fun j => if x.first ≤ j ∧ j < x.first + x.joints then wd x.pos (k * 16 + j) else s.jointPos die j

/-- The entry before a segment in its queue. -/
def Device.prevSeg (s : Device) (die seq : Nat) : Option Segment :=
  ((s.segs die).takeWhile fun x => x.seq ≠ seq).getLast?

/-- The intervals of a segment: 0 from the previous entry's last waypoint, `k` from its own waypoint `k` − 1 to `k`. -/
def Device.segIntervals (s : Device) (die : Nat) (x : Segment) : List Nat :=
  (if (s.prevSeg die x.seq).isSome then [0] else []) ++ (List.range (x.wps - 1)).map (· + 1)

/-- The body of CHECK_SEGMENTS (R277): up to COUNT unchecked entries, in SEQ order. -/
def checkSegmentsBody (die idx : Nat) (w : List Nat) (s : Device) : Device :=
  let cs := checkersOf (s.sliceUnit die idx)
  if cs.isEmpty then s.collRefuse die 0x20 0x41
  else
    let xs := ((s.segs die).filter fun x => x.result = 0).take (bits (wd w 1) 0 16 + 1)
    let items := xs.flatMap fun x => (s.segIntervals die x).map fun k => (⟨true, x.seq, k⟩ : CheckItem)
    let none' := xs.filter fun x => (s.segIntervals die x).isEmpty
    let s1 := s.setSegs die ((s.segs die).map fun x => if none'.contains x then { x with result := 1, epoch := s.rd die REFLEX_COLL_EPOCH_EPOCH } else x)
    let s2 := none'.foldl (fun s x => s.rxSets die (s.regionSix die + 0x44000 + 16 * x.slot)
      [x.seq + 65536 * x.tag + 2 ^ 24, 0, s.rd die REFLEX_COLL_EPOCH_EPOCH, 0]) s1
    (s2.deal die { slice := idx, checkers := cs, queue := items, epoch := s2.rd die REFLEX_COLL_EPOCH_EPOCH
                   segs := (xs.filter fun x => !none'.contains x).map fun x => { seq := x.seq, left := (s2.segIntervals die x).length } }).answer stDONE 0

/-- An interval's samples (R277): one more than the greatest joint step over SEG_DQ. -/
def Device.intervalSamples (s : Device) (die : Nat) (a b : List Nat) : Nat :=
  let dq : Rat := (s.rd die REFLEX_COLL_GEOM_SEG_DQ : Rat) / 1000
  let m := (List.range 16).foldl (fun m j => max m |ratOf (wd b j) - ratOf (wd a j)|) (0 : Rat)
  if dq = 0 then 65 else (m / dq).ceil.toNat + 1

/-- The two configurations of an interval. -/
def Device.intervalEnds (s : Device) (die : Nat) (x : Segment) (k : Nat) : List Nat × List Nat :=
  (if k = 0 then (match s.prevSeg die x.seq with | some p => s.waypoint die p (p.wps - 1) | none => s.waypoint die x 0)
    else s.waypoint die x (k - 1), s.waypoint die x k)

/-- An interval's result and cause: 0 free, 1 contact, 2 OVERFLOW, 3 SAMPLES. -/
def Device.intervalResult (s : Device) (die : Nat) (x : Segment) (k : Nat) : Nat :=
  let (a, b) := s.intervalEnds die x k
  let n := s.intervalSamples die a b
  if 64 < n then 3 else s.motionResult die ((s.rd die REFLEX_COLL_GEOM_SEG_MARGIN_MM : Rat) / 1000) a b n

/-- What a check of an interval reads: the joints' measured positions, and what its samples read. -/
def Device.intervalReads (s : Device) (die : Nat) (x : Segment) (k : Nat) : List (Nat × Nat) :=
  let (a, b) := s.intervalEnds die x k
  let n := s.intervalSamples die a b
  (s.jointAddr die 0, 64) :: if 64 < n then [] else s.motionReads die ((s.rd die REFLEX_COLL_GEOM_SEG_MARGIN_MM : Rat) / 1000) a b n

/-- Write a segment's result (R277), unless it has been freed or cancelled meanwhile. -/
def Device.segResult (s : Device) (die seq epoch : Nat) (hit : Option (Nat × Nat)) : Device :=
  match (s.segs die).find? fun x => x.seq = seq with
  | none => s
  | some x =>
    let r := if hit.isNone then 1 else 2
    let h := hit.getD (0, 0)
    (s.rxSets die (s.regionSix die + 0x44000 + 16 * x.slot) [seq + 65536 * x.tag + 2 ^ 24 * r, h.1 + 256 * h.2, epoch, 0]).setSegs die
      ((s.segs die).map fun y => if y.seq = seq then { y with result := r, epoch := epoch } else y)

/-- The body of EDGE_CHECK_DONE (R275, R276, R277): a checker finishes its edge or interval, and takes what waits next. -/
def edgeCheckDoneBody (die checker : Nat) (s : Device) : Device :=
  match s.checkWith die checker with
  | none => s
  | some x =>
    match x.busy.find? fun b => b.1 = checker with
    | none => s
    | some (_, it) =>
      let y : CheckRun := { x with busy := x.busy.filter fun b => b.1 ≠ checker }
      if ¬ it.seg then
        match s.rxTouch die (s.edgeReads die it.edge) with
        | (s1, st) =>
          if st = stDONE then (s1.finishEdge die it.edge).deal die y
          else ((s1.addWrap die REFLEX_COLL_AUDIT_ENDED (x.busy.length)).setCheck die x.slice none).rxFail die x.slice st
      else
        let s1 := s.addWrap die REFLEX_COLL_AUDIT_ENDED 1
        match (s.segs die).find? fun g => g.seq = it.edge with
        | none => s1.deal die { y with segs := y.segs.filter fun g => g.seq ≠ it.edge }
        | some g =>
         match s1.rxTouch die (s.intervalReads die g it.k) with
         | (s1, st) =>
          if st ≠ stDONE then ((s1.addWrap die REFLEX_COLL_AUDIT_ENDED (x.busy.length - 1)).setCheck die x.slice none).rxFail die x.slice st
          else
          let r := s1.intervalResult die g it.k
          let upd := fun (c : SegCheck) =>
            { c with left := c.left - 1
                     hit := if r = 0 then c.hit else match c.hit with
                       | some h => if it.k < h.1 then some (it.k, r) else some h
                       | none => some (it.k, r) }
          let z : CheckRun := { y with segs := y.segs.map fun c => if c.seq = it.edge then upd c else c }
          match z.segs.find? fun c => c.seq = it.edge with
          | some c =>
            if c.left = 0 then ((s1.segResult die c.seq z.epoch c.hit).deal die { z with segs := z.segs.filter fun g => g.seq ≠ it.edge })
            else s1.deal die z
          | none => s1.deal die z

/-! ### The search (R279) -/

/-- +∞ in FP32. -/
def inf : Nat := 0x7F800000

/-- Address of a node's *g* and *rhs* of a slot. -/
def Device.gAddr (s : Device) (die slot n : Nat) : Nat := s.collRegion die 7 + slot * 0x200000 + 8 * n
def Device.gOf (s : Device) (die slot n : Nat) : Nat := s.readData (s.gAddr die slot n) 4
def Device.rhsOf (s : Device) (die slot n : Nat) : Nat := s.readData (s.gAddr die slot n + 4) 4
def Device.setG (s : Device) (die slot n v : Nat) : Device := s.rxSet die (s.gAddr die slot n) v 4
def Device.setRhs (s : Device) (die slot n v : Nat) : Device := s.rxSet die (s.gAddr die slot n + 4) v 4

/-- The heuristic HEUR_SCALE × ‖*q*n − *q*GOAL‖, in FP32, joints in order. -/
def Device.heuristic (s : Device) (die n goal : Nat) : Nat :=
  let a := s.nodeConfig die n
  let b := s.nodeConfig die goal
  mul32 (s.rd die REFLEX_COLL_HEUR_VALUE) (sqrt32 ((List.range 16).foldl (fun acc j =>
    let d := sub32 (wd a j) (wd b j)
    add32 acc (mul32 d d)) 0))

/-- The smaller of two FP32 values, the first where neither is. -/
def min32 (a b : Nat) : Nat := if lt32 b a then b else a

/-- A node's key. -/
def Device.keyOf (s : Device) (die slot n goal : Nat) : Nat :=
  add32 (min32 (s.gOf die slot n) (s.rhsOf die slot n)) (s.heuristic die n goal)

/-- Insert into an open list in ascending order of key, ties by node. -/
def openInsert (x : Nat × Nat) : List (Nat × Nat) → List (Nat × Nat)
  | [] => [x]
  | y :: l => if lt32 x.1 y.1 || (!lt32 y.1 x.1 && x.2 < y.2) then x :: y :: l else y :: openInsert x l

/-- Replace a slot's open list, in the search and in region 6; an insertion into a full list drops the entry of largest key. -/
def Device.setOpen (s : Device) (die slot : Nat) (l : List (Nat × Nat)) : Device :=
  let l := l.take 4096
  (s.setSearch die slot { s.search die slot with queue := l }).rxSets die (s.regionSix die + 0x4C000 + slot * 0x8000)
    (l.flatMap fun e => [e.1, e.2])

/-- Edges into a node that are not BLOCKED: the twins of its out-edges. -/
def Device.inEdges (s : Device) (die n : Nat) : List Nat :=
  ((s.outEdges die n).map (s.edgeTwin die)).filter fun e => decide (s.edgeState die e ≠ 2)

/-- What a node's revisit reads: its record, its out-edges and their twins with their states, and the records and costs of the nodes they
lead to. -/
def Device.nodeReads (s : Device) (die slot n : Nat) : List (Nat × Nat) :=
  (s.nodeAddr die n, 128) :: (s.gAddr die slot n, 8) :: (s.outEdges die n).flatMap fun e =>
    [(s.edgeAddr die e, 16), (s.edgeAddr die (s.edgeTwin die e), 16), (s.regionSix die + s.edgeTwin die e / 4, 1),
      (s.nodeAddr die (s.edgeTo die e), 128), (s.gAddr die slot (s.edgeTo die e), 8)]

/-- Recompute a node's look-ahead and its place in the open list. -/
def Device.updateNode (s : Device) (die slot start goal n : Nat) : Device :=
  let s := s.rxReads die (s.nodeReads die slot n)
  let s1 := if n = start then s
    else s.setRhs die slot n ((s.inEdges die n).foldl (fun m e => min32 m (add32 (s.gOf die slot (s.edgeFrom die e)) (s.edgeCost die e))) inf)
  let q := (s1.search die slot).queue.filter fun e => e.2 ≠ n
  s1.setOpen die slot (if s1.gOf die slot n = s1.rhsOf die slot n then q else openInsert (s1.keyOf die slot n goal, n) q)

/-- One expansion: the node of least key. -/
def Device.expandNode (s : Device) (die slot start goal : Nat) : Device :=
  match (s.search die slot).queue with
  | [] => s
  | (_, u) :: q =>
    let s1 := (s.rxReads die (s.nodeReads die slot u)).setOpen die slot q
    let next := (s1.outEdges die u).map (s1.edgeTo die)
    if lt32 (s1.rhsOf die slot u) (s1.gOf die slot u) then
      next.foldl (fun s n => s.updateNode die slot start goal n) (s1.setG die slot u (s1.rhsOf die slot u))
    else
      (u :: next).foldl (fun s n => s.updateNode die slot start goal n) (s1.setG die slot u inf)

/-- The search has more to do before the goal's cost stands. -/
def Device.searchOn (s : Device) (die slot goal : Nat) : Bool :=
  match (s.search die slot).queue with
  | [] => false
  | (k, _) :: _ => lt32 k (s.keyOf die slot goal goal) || decide (s.rhsOf die slot goal ≠ s.gOf die slot goal)

/-- Expand while there is more to do and expansions are left: the state and how many are left. -/
def Device.improve (s : Device) (die slot start goal : Nat) : Nat → Device × Nat
  | 0 => (s, 0)
  | n + 1 => if s.searchOn die slot goal then (s.expandNode die slot start goal).improve die slot start goal n else (s, n + 1)

/-- The path to a node, as edges from START, by the least cost-to-come of each step back. -/
def Device.pathTo (s : Device) (die slot start : Nat) (n : Nat) (acc : List Nat) : Nat → List Nat
  | 0 => acc
  | fuel + 1 =>
    if n = start then acc
    else
      let best := (s.inEdges die n).foldl (fun (m : Option (Nat × Nat)) e =>
        let c := add32 (s.gOf die slot (s.edgeFrom die e)) (s.edgeCost die e)
        match m with
        | none => if c = inf then none else some (c, e)
        | some b => if lt32 c b.1 then some (c, e) else some b) none
      match best with
      | none => acc
      | some (_, e) => s.pathTo die slot start (s.edgeFrom die e) (e :: acc) fuel

/-- The reached node nearest to the goal by the heuristic. -/
def Device.bestReached (s : Device) (die slot start goal : Nat) : Nat :=
  (List.range (s.nodeCount die)).foldl (fun b n =>
    if s.gOf die slot n ≠ inf ∧ lt32 (s.heuristic die n goal) (s.heuristic die b goal) then n else b) start

/-- Write a roadmap candidate: TAG 0, COMMIT 1; a path of more than 64 edges is cut and PARTIAL. -/
def Device.writeCandidate (s : Device) (die slot st start cost : Nat) (path : List Nat) : Device :=
  let cut := path.take 64
  s.writePlan die slot (s.candidateFor die slot) (s.rd die REFLEX_COLL_EPOCH_EPOCH) (if 64 < path.length then 3 else st) 0 1 cost start
    ((cut.getLast?.map (s.edgeTo die)).getD start) cut

/-- The checkers of a PLAN's slice check edges of its path. -/
def Device.checkPath (s : Device) (die : Nat) (es : List Nat) : Device :=
  es.foldl (fun s e => ((s.addWrap die REFLEX_COLL_AUDIT_ISSUED 1).rxReads die (s.edgeReads die e)).finishEdge die e) s

/-- The search and its checks (R279), while expansions are left and no access has failed: a path whose UNKNOWN edges all prove FREE becomes a
candidate; a slice without checkers cannot check them (R265). The result is the status. -/
def Device.planLoop (s : Device) (die slot start goal : Nat) (checks : Bool) (left : Nat) : Nat → Device × Nat
  | 0 => (s, stDEADLINE)
  | fuel + 1 =>
    match s.improve die slot start goal left with
    | (s1, left') =>
      if left = 0 then (s, stDEADLINE)
      else if s1.pond.failed.isSome then (s1, s1.pond.failed.getD 0)
      else if s1.searchOn die slot goal then (s1, stDEADLINE)
      else if s1.rhsOf die slot goal = inf then
        let b := s1.bestReached die slot start goal
        ((s1.writeCandidate die slot 3 start (s1.gOf die slot b) (s1.pathTo die slot start b [] 262144)).addHold die REFLEX_COLL_COUNT_NO_PATH 1,
          stNO_PATH)
      else
        let path := s1.pathTo die slot start goal [] 262144
        let unknown := path.filter fun e => decide (s1.edgeState die e = 0)
        if unknown.isEmpty then
          (s1.writeCandidate die slot 2 start (s1.gOf die slot goal) path, stDONE)
        else if ¬ checks then (s1, stBAD_COMMAND)
        else
          let s2 := s1.checkPath die unknown
          let bad := unknown.filter fun e => decide (s2.edgeState die e = 2)
          let s3 := (bad.flatMap (s2.edgeNodes die)).eraseDups.foldl (fun s n => s.updateNode die slot start goal n) s2
          s3.planLoop die slot start goal checks left' fuel

/-- Start a slot's search anew: every *g* and *rhs* infinite but the start's look-ahead. -/
def Device.resetSearch (s : Device) (die slot start goal : Nat) : Device :=
  let s1 := (List.range (s.nodeCount die)).foldl (fun s n => (s.setG die slot n inf).setRhs die slot n inf) s
  let s2 := (s1.setSearch die slot { live := true }).setRhs die slot start 0
  let s3 := (s2.rxSet die (s2.planSlotAddr die slot + 4) start 4).rxSet die (s2.planSlotAddr die slot + 8) goal 4
  s3.updateNode die slot start goal start

/-- The body of PLAN_SEARCH (R279): `limit` is the number of expansions that end before the slice's deadline. -/
def planSearchBody (die idx : Nat) (w : List Nat) (limit : Nat) (s : Device) : Device :=
  let slot := bits (wd w 1) 0 3
  let start := bits (wd w 2) 0 18
  let goal := bits (wd w 3) 0 18
  if ¬ hasPlanner (s.sliceUnit die idx) then s.planRefuse die slot 0x20 0x42
  else if s.nodeCount die ≤ start ∨ s.nodeCount die ≤ goal then s.planRefuse die slot 0x22 0x42
  else
    match s.rxTouch die [(s.nodeAddr die start, 128), (s.nodeAddr die goal, 128), (s.planSlotAddr die slot, 1664)] with
    | (s0, st) =>
      if st ≠ stDONE then (s0.setLast die slot st).rxFail die idx st
      else
        let a := s0.planSlotAddr die slot
        let fresh := bit (wd w 1) 4 || !(s0.search die slot).live || decide (s0.readData (a + 4) 4 ≠ start) || decide (s0.readData (a + 8) 4 ≠ goal)
        let s1 := if fresh then s0.resetSearch die slot start goal else s0
        let s2 := (s1.search die slot).dirty.foldl (fun s n => s.updateNode die slot start goal n) s1
        let s3 := s2.setSearch die slot { s2.search die slot with dirty := [] }
        let checks := !(checkersOf (s.sliceUnit die idx)).isEmpty
        let r := s3.planLoop die slot start goal checks (min limit (bits (wd w 4) 0 16)) (s3.edgeCount die + 2)
        if r.2 = stBAD_COMMAND then r.1.planRefuse die slot 0x20 0x42 else (r.1.setLast die slot r.2).answer r.2 0

/-- The body of PLAN_SEGMENT (R279): a candidate for the oldest entry that has a result and has not been taken. Its COST is not
given and is a free value. -/
def planSegmentBody (die idx : Nat) (w : List Nat) (s : Device) : Device :=
  let slot := bits (wd w 1) 0 3
  if ¬ hasPlanner (s.sliceUnit die idx) then s.planRefuse die slot 0x20 0x42
  else
    let s := s.rxReads die [(s.planSlotAddr die slot, 1664)]
    match (s.segs die).find? fun x => decide (x.result ≠ 0) && !x.taken with
    | none => (s.setLast die slot stDONE).answer stDONE 0
    | some x =>
      let s1 := s.writePlan die slot (s.candidateFor die slot) x.epoch (if x.result = 1 then 2 else 5) x.tag (2 + b2n x.commit)
        (Config.freeWord s.fresh % 2 ^ 32) 0 x.seq []
      let s2 := { s1 with fresh := s1.fresh + 1 }
      ((s2.setSegs die ((s2.segs die).map fun y => if y.seq = x.seq then { y with taken := true } else y)).setLast die slot stDONE).answer stDONE 0

/-! ### PUBLISH (R280, R281) -/

/-- Candidates in rank order: ascending cost, ties to the lower index; EMPTY ones left out. -/
def Device.ranked (s : Device) (die slot : Nat) : List Nat :=
  let ins := fun (l : List Nat) (k : Nat) =>
    (l.takeWhile fun x => !lt32 (s.plCost die slot k) (s.plCost die slot x)) ++ [k] ++
      (l.dropWhile fun x => !lt32 (s.plCost die slot k) (s.plCost die slot x))
  ([0, 1, 2, 3].filter fun k => decide (s.plState die slot k = 2)).foldl ins []

/-- What a PUBLISH of a slot does (R280). -/
def Device.publishSlot (s : Device) (die slot : Nat) : Device :=
  let epoch := s.rd die REFLEX_COLL_EPOCH_EPOCH
  let r := s.ranked die slot
  let stale := r.takeWhile fun k => decide (s.plStamp die slot k ≠ epoch)
  let s1 := (s.addHold die REFLEX_COLL_COUNT_SUPPRESSED stale.length).addHold die (REFLEX_COLL_PLAN_STATUS_SUPPRESSED slot) stale.length
  let s2 := s1.rxSet die (s1.planSlotAddr die slot + 12) epoch 4
  match r.drop stale.length with
  | k :: _ =>
    let s3 := if s2.plCommit die slot k then
        (List.range 80).foldl (fun t i => t.rxSet die (t.planAddr die slot 4 + 4 * i) (s2.readData (s2.planAddr die slot k + 4 * i) 4) 4) s2
      else s2
    let s4 := (((s3.setPublished die slot k).setPlanState die slot 1).setLast die slot stDONE).answer stDONE 0
    s4.kick die 2 slot (s4.chorus.time)
  | [] =>
    if s2.rd die (REFLEX_COLL_PLAN_STATUS_LAST_STATUS slot) = stNO_PATH then
      let s3 := s2.writePlan die slot 4 epoch 4 0 1 0 0 0 []
      (((s3.setPublished die slot 4).setPlanState die slot 2).setLast die slot stNO_PATH).answer stNO_PATH 0
    else if s2.plState die slot 4 ≠ 0 ∧ s2.plStamp die slot 4 = epoch then
      ((s2.setPublished die slot 4).setLast die slot stDEADLINE).answer stDEADLINE 0
    else
      (((s2.setPublished die slot 0xFF).setPlanState die slot 3).setLast die slot stSTOPPED).answer stSTOPPED 0

/-- The body of PUBLISH. -/
def publishBody (die idx : Nat) (w : List Nat) (s : Device) : Device :=
  let slot := bits (wd w 1) 0 3
  if ¬ hasPlanner (s.sliceUnit die idx) then s.planRefuse die slot 0x20 0x43
  else
    match s.rxTouch die [(s.planSlotAddr die slot, 1664)] with
    | (s1, st) => if st ≠ stDONE then (s1.setLast die slot st).rxFail die idx st else s1.publishSlot die slot

/-- A slice's deadline (R50, R270, R276, R280): a prepare phase and checks in progress are abandoned, and FINAL PUBLISH
commands that have not run do so. `rest` holds the commands of the slice's list that have not run. -/
def Device.collisionDeadline (s : Device) (die idx : Nat) (rest : List (List Nat)) : Device :=
  let s1 := match SMap.get none s.collide.prep die with
    | some p => if p.slice = idx then { s with collide := { s.collide with prep := SMap.put none s.collide.prep die none } } else s
    | none => s
  let s2 := match s1.checkOf die idx with
    | some x => (s1.addWrap die REFLEX_COLL_AUDIT_ENDED x.busy.length).setCheck die idx none
    | none => s1
  (rest.filter fun w => bits (wd w 0) 24 8 = 0x43 && bit (wd w 1) 31).foldl (fun s w => publishBody die idx w s) s2

/-- What a slice's command leaves at its end: a write that failed within it ends what the slice has in hand, and the slice, with that status (R65, R431). -/
def Device.settleCollide (s : Device) (die idx : Nat) : Device :=
  match s.pond.failed with
  | none => s
  | some st => ((s.collisionDeadline die idx []).noFail).rxFail die idx st

/-- A cancel frees the candidates of its tag, a commit sets their COMMIT (R199, R281); results of cancelled segments are
discarded (R277). -/
def Device.resolvePlans (s : Device) (die tag : Nat) (cancel : Bool) : Device :=
  allPlans.foldl (fun s k =>
    if k.2 ≠ 4 ∧ s.plState die k.1 k.2 ≠ 0 ∧ s.plTag die k.1 k.2 = tag ∧ ¬ s.plCommit die k.1 k.2 then
      let a := s.planAddr die k.1 k.2
      if cancel then
        let s1 := (s.rxByte die (a + 4) 0).rxByte die (a + 6) (setBits (s.readData (a + 6) 1) 2 1 1)
        if s.published die k.1 = k.2 then
          if s.plState die k.1 4 ≠ 0 ∧ s.plStamp die k.1 4 = s.rd die REFLEX_COLL_EPOCH_EPOCH then s1.setPublished die k.1 4
          else s1.setPublished die k.1 0xFF
        else s1
      else s.rxByte die (a + 6) (setBits (s.readData (a + 6) 1) 0 1 1)
    else s) s

/-- The results of segments that a resolve frees are discarded. -/
def Device.dropResults (s : Device) (die : Nat) (gone : List Segment) : Device :=
  gone.foldl (fun s x => s.rxPuts die (s.regionSix die + 0x44000 + 16 * x.slot) [0, 0, 0, 0]) s

end Sys2Proof.Machine
end

