-- ==== Sys2Proof/Machine/Solver.lean ====
section
/-!
DEFINITION. The sparse solver engines (chapter 13): solve programs, the three methods and their arithmetic, warm records,
publication, and the factor refresh.
-/
namespace Sys2Proof.Machine

/-! ### The solve program (R286, R287) -/

/-- First address of a program's header, and the header's words. -/
def Device.progAddr (s : Device) (die p : Nat) : Nat := reflexBase die + s.rd die (REFLEX_SOLVE_PROG_HDR_OFF p)
def Device.header (s : Device) (die p : Nat) : List Nat := s.readWords (s.progAddr die p) 64

/-- The fields of a header. -/
def shN (h : List Nat) : Nat := wd h 2
def shNnz (h : List Nat) : Nat := wd h 3
def shMethod (h : List Nat) : Nat := bits (wd h 4) 0 8
def shPrec (h : List Nat) : Nat := bits (wd h 4) 8 8
def shBlock (h : List Nat) : Nat := bits (wd h 4) 16 5
def shFactInit (h : List Nat) : Bool := bit (wd h 4) 22
def shPrecSrc (h : List Nat) : Bool := bit (wd h 4) 23
def shEngines (h : List Nat) : Nat := bits (wd h 4) 24 2
def shTIter (h : List Nat) : Nat := wd h 8
def shTRef (h : List Nat) : Nat := wd h 9
def shOutCount (h : List Nat) : Nat := bits (wd h 10) 0 16
def shOutStream (h : List Nat) : Nat := bits (wd h 10) 16 8
def shHash (h : List Nat) : Nat := wd2 h 0
/-- Section `i` of the header's list. -/
def shSec (h : List Nat) (i : Nat) : Nat := wd h (12 + i)

/-- Rows and nonzeros on the first engine. -/
def shN0 (h : List Nat) : Nat := if shEngines h = 2 then wd h 5 else shN h
def shNnz0 (h : List Nat) : Nat := if shEngines h = 2 then wd h 6 else shNnz h

/-- The engines of a program. -/
def shUnits (h : List Nat) : List Nat := if shEngines h = 2 then [0, 1] else [shEngines h % 2]

/-- 32-bit words of a section, and its 16-bit numbers. -/
def Device.secWords (s : Device) (die off n : Nat) : List Nat :=
  (List.range n).map fun i => s.readData (reflexBase die + off + 4 * i) 4
def Device.secHalves (s : Device) (die off n : Nat) : List Nat :=
  (List.range n).map fun i => s.readData (reflexBase die + off + 2 * i) 2

/-- The rows of an engine's nonzeros, read off its step list (R287): from ROW0, one further after each lane that holds the last
nonzero of its row. -/
def beatRows (row stop : Nat) : Nat → Nat → List Nat
  | _, 0 => []
  | l, n + 1 => row :: beatRows (if bit stop l then row + 1 else row) stop (l + 1) n
def Device.engineRows (s : Device) (die off base n : Nat) : List Nat :=
  (List.range ((n + 31) / 32)).flatMap fun k =>
    let v := s.readData (reflexBase die + off + 8 * k) 8
    beatRows (base + bits v 32 15) (bits v 0 32) 0 (min 32 (n - 32 * k))

/-- The global rows of all nonzeros, in COLIDX order. -/
def Device.nnzRows (s : Device) (die : Nat) (h : List Nat) : List Nat :=
  let first := if shEngines h = 1 then 1 else 0
  s.engineRows die (shSec h first) 0 (shNnz0 h) ++
    (if shEngines h = 2 then s.engineRows die (shSec h 1) (shN0 h) (shNnz h - shNnz0 h) else [])

/-! ### Arithmetic (R291) -/

/-- Sum in ascending order, each addition rounded. -/
def sum32 : List Nat → Nat
  | [] => 0
  | a :: l => l.foldl add32 a

/-- The product A *x*. -/
def matVec (n : Nat) (rows cols vals x : List Nat) : List Nat :=
  let prods := rows.zip ((cols.zip vals).map fun c => mul32 c.2 (wd x c.1))
  (List.range n).map fun r => sum32 ((prods.filter fun p => p.1 = r).map (·.2))

/-- The five-level tree over the lanes: neighbours first. -/
def laneTree : Nat → List Nat → Nat
  | 0, l => wd l 0
  | k + 1, l => laneTree k ((List.range (l.length / 2)).map fun i => add64 (wd l (2 * i)) (wd l (2 * i + 1)))

/-- One engine's dot product: exact products, summed lane by lane in ascending index, then over the lanes. -/
def engineDot (x y : List Nat) : Nat :=
  laneTree 5 ((List.range 32).map fun l =>
    ((List.range x.length).filter fun i => i % 32 = l).foldl (fun acc i => add64 acc (mul64 (to64 (wd x i)) (to64 (wd y i)))) 0)

/-- The dot product: SE0's sum before SE1's. -/
def dot64 (n0 : Nat) (x y : List Nat) : Nat :=
  if n0 < x.length then add64 (engineDot (x.take n0) (y.take n0)) (engineDot (x.drop n0) (y.drop n0)) else engineDot x y

/-- A vector plus a coefficient, rounded once to FP32, times another; and a vector times a coefficient. -/
def axpy (y : List Nat) (a : Nat) (x : List Nat) : List Nat := (y.zip x).map fun p => add32 p.1 (mul32 (to32 a) p.2)
def scal (a : Nat) (x : List Nat) : List Nat := x.map (mul32 (to32 a))

/-! ### What a solve works with -/

/-- A program's system at a bank: rows, columns, values, right side, preconditioner and its factor. -/
structure System where
  n    : Nat
  n0   : Nat
  rows : List Nat
  cols : List Nat
  vals : List Nat
  rhs  : List Nat
  prec : Nat
  fact : List Nat
  blocks : List Nat

/-- Entries of BLOCKS (R287): first rows, ascending, as far as the section goes. -/
def ascending : List Nat → List Nat
  | [] => []
  | [a] => [a]
  | a :: b :: l => if a < b then a :: ascending (b :: l) else [a]
def Device.blockRows (s : Device) (die : Nat) (h : List Nat) : List Nat :=
  let off := shSec h 8
  let last := ((List.range 19).map (shSec h)).foldl (fun m x => if off < x ∧ x < m then x else m) 0x1000000
  (ascending (s.secHalves die off (min (shN h) ((last - off) / 2)))).filter fun r => decide (r < shN h)

/-- Rows of block `k`: first and count. -/
def blockSpan (n : Nat) (blocks : List Nat) (k : Nat) : Nat × Nat :=
  (wd blocks k, (if k + 1 < blocks.length then wd blocks (k + 1) else n) - wd blocks k)

/-- The block that holds a row. -/
def blockIndex (blocks : List Nat) (r : Nat) : Nat := (blocks.filter (· ≤ r)).length

/-- The nonzeros that the preconditioner reads (R294), in COLIDX order, as (row, column, place among all nonzeros): the diagonal, those within
a block, or the lower pattern. -/
def Device.precEntries (s : Device) (die : Nat) (h : List Nat) : List (Nat × Nat × Nat) :=
  let blocks := if shPrec h = 2 then s.blockRows die h else []
  let keep := fun (r c : Nat) => match shPrec h with
    | 1 => decide (r = c)
    | 2 => decide (blockIndex blocks r = blockIndex blocks c)
    | _ => decide (c ≤ r)
  let all := (s.nnzRows die h).zip ((s.secHalves die (shSec h 2) (shNnz h)).zip (List.range (shNnz h)))
  (all.filter fun e => keep e.1 e.2.1).map fun e => (e.1, e.2.1, e.2.2)

/-- Words of a program's factor (DESIGN CHOICE, 89): one for each row (Jacobi), each block's inverse row by row (block-Jacobi), one for each
nonzero of the lower pattern (IC(0)). -/
def Device.factWords (s : Device) (die : Nat) (h : List Nat) : Nat :=
  match shPrec h with
  | 1 => shN h
  | 2 =>
    let blocks := s.blockRows die h
    ((List.range blocks.length).map fun k => (blockSpan (shN h) blocks k).2 ^ 2).foldl (· + ·) 0
  | _ => (s.precEntries die h).length

/-- Words of PVAL: the part of A that the preconditioner reads (R294). -/
def Device.pvalWords (s : Device) (die : Nat) (h : List Nat) : Nat := if shPrec h = 1 then shN h else (s.precEntries die h).length

/-- A program's system at a bank and a factor buffer (2: none). -/
def Device.systemOf (s : Device) (die : Nat) (h : List Nat) (bank factor : Nat) : System :=
  let blocks := if shPrec h = 2 then s.blockRows die h else []
  { n := shN h
    n0 := shN0 h
    rows := s.nnzRows die h
    cols := s.secHalves die (shSec h 2) (shNnz h)
    vals := s.secWords die (shSec h (3 + bank)) (shNnz h)
    rhs := s.secWords die (shSec h (5 + bank)) (shN h)
    prec := shPrec h
    fact := if shPrec h = 0 ∨ 1 < factor then [] else s.secWords die (shSec h (9 + factor)) (s.factWords die h)
    blocks := blocks }

/-- The system where the bank has been written while the solve reads it: the results are undefined (R289), from free values. -/
def System.opened (a : System) (f : Nat) : System :=
  { a with vals := (List.range a.vals.length).map fun i => Config.freeWord (f + i) % 2 ^ 32
           rhs := (List.range a.rhs.length).map fun i => Config.freeWord (f + a.vals.length + i) % 2 ^ 32 }

/-- What an iteration of it reads. -/
def Device.systemReads (s : Device) (die : Nat) (h : List Nat) (bank factor : Nat) : List (Nat × Nat) :=
  let a := reflexBase die
  let first := if shEngines h = 1 then 1 else 0
  [(a + shSec h first, 8 * ((shNnz0 h + 31) / 32)), (a + shSec h 2, 2 * shNnz h), (a + shSec h (3 + bank), 4 * shNnz h),
    (a + shSec h (5 + bank), 4 * shN h)] ++
    (if shEngines h = 2 then [(a + shSec h 1, 8 * ((shNnz h - shNnz0 h + 31) / 32))] else []) ++
    (if shPrec h = 2 then [(a + shSec h 8, 2 * (s.blockRows die h).length)] else []) ++
    (if shPrec h = 0 ∨ 1 < factor then [] else [(a + shSec h (9 + factor), 4 * s.factWords die h)])

/-- An IC(0) factor L, as (row, column, value); and L Lᵀ *z* = *r* solved, products and sums as in a row sum of R291 (DESIGN CHOICE, 89). -/
def System.lower (a : System) : List (Nat × Nat × Nat) :=
  (((a.rows.zip a.cols).filter fun e => decide (e.2 ≤ e.1)).zip a.fact).map fun e => (e.1.1, e.1.2, e.2)
def factorAt (l : List (Nat × Nat × Nat)) (i j : Nat) : Option Nat := (l.find? fun e => e.1 = i ∧ e.2.1 = j).map (·.2.2)
def lowerSolve (l : List (Nat × Nat × Nat)) (n : Nat) (r : List Nat) : List Nat :=
  (List.range n).foldl (fun y i =>
    y ++ [div32 ((List.range i).foldl (fun acc j => match factorAt l i j with
      | some v => sub32 acc (mul32 v (wd y j))
      | none => acc) (wd r i)) ((factorAt l i i).getD 0)]) []
def upperSolve (l : List (Nat × Nat × Nat)) (n : Nat) (y : List Nat) : List Nat :=
  (List.range n).reverse.foldl (fun z i =>
    div32 ((List.range (n - 1 - i)).foldl (fun acc j => match factorAt l (i + 1 + j) i with
      | some v => sub32 acc (mul32 v (wd z j))
      | none => acc) (wd y i)) ((factorAt l i i).getD 0) :: z) []

/-- The preconditioner applied (R294). -/
def System.precond (a : System) (r : List Nat) : List Nat :=
  match a.prec with
  | 0 => r
  | 1 => (a.fact.zip r).map fun p => mul32 p.1 p.2
  | 2 =>
    ((List.range a.blocks.length).foldl (fun (x : List Nat × Nat) k =>
      let b := blockSpan a.n a.blocks k
      (x.1 ++ (List.range b.2).map fun i => sum32 ((List.range b.2).map fun j => mul32 (wd a.fact (x.2 + i * b.2 + j)) (wd r (b.1 + j))),
        x.2 + b.2 * b.2)) ([], 0)).1
  | _ => upperSolve a.lower a.n (lowerSolve a.lower a.n r)

/-- A *x*, and a dot product. -/
def System.mv (a : System) (x : List Nat) : List Nat := matVec a.n a.rows a.cols a.vals x
def System.dot (a : System) (x y : List Nat) : Nat := dot64 a.n0 x y

/-! ### The methods (R290) -/

/-- What an iteration gives: the solve after it, its scalars, whether the method broke down, and whether a half step converged. -/
structure IterOut where
  z       : Solve
  scalars : List Nat
  broke   : Bool

/-- 0 and 1 in FP64. -/
def zero64 : Nat := 0
def one64 : Nat := 0x3FF0000000000000

/-- Not above zero, and equal to zero. -/
def le0 (a : Nat) : Bool := !lt64 zero64 a
def isZero64 (a : Nat) : Bool := (dec64 a).isZero

/-- max(RTOL × ρ0, ATOL). -/
def Solve.threshold (z : Solve) : Nat :=
  let a := mul64 (to64 z.rtol) z.rho0
  let b := to64 z.atol
  if lt64 a b then b else a

/-- ρ passes the test. -/
def Solve.passes (z : Solve) (rho : Nat) : Bool := fin64 rho && !lt64 z.threshold rho

/-- Iteration 0: *r*0 = *b* − A*x*0 and the starting vectors. -/
def iterZero (a : System) (method : Nat) (z : Solve) : IterOut :=
  let r := (a.rhs.zip (a.mv z.x)).map fun p => sub32 p.1 p.2
  match method with
  | 0 =>
    let m := a.precond r
    let rz := a.dot r m
    let rr := a.dot r r
    let rho := sqrt64 rr
    ⟨{ z with vecs := [r, m], scalars := [rz], rho := rho, rho0 := rho }, [rz, rr, rho], le0 rz⟩
  | 1 =>
    let m := a.precond r
    let g := a.dot m r
    let gam := sqrt64 g
    let o := List.replicate a.n 0
    ⟨{ z with vecs := [o, r, m, o, o], scalars := [one64, gam, gam, one64, one64, zero64, zero64], rho := gam, rho0 := gam },
      [g, gam], lt64 g zero64⟩
  | _ =>
    let rr := a.dot r r
    let rho := sqrt64 rr
    let o := List.replicate a.n 0
    ⟨{ z with vecs := [r, r, o, o], scalars := [one64, one64, one64], rho := rho, rho0 := rho }, [rr, rho], false⟩

/-- An iteration of PCG: vectors *r* and *p*, scalar *r*·*z*. -/
def iterPcg (a : System) (z : Solve) : IterOut :=
  let r := z.vecs.getD 0 []
  let p := z.vecs.getD 1 []
  let rz := wd z.scalars 0
  let q := a.mv p
  let pq := a.dot p q
  let al := div64 rz pq
  let x := axpy z.x al p
  let r1 := axpy r (neg64 al) q
  let rr := a.dot r1 r1
  let rho := sqrt64 rr
  let m := a.precond r1
  let rz1 := a.dot r1 m
  let be := div64 rz1 rz
  ⟨{ z with x := x, vecs := [r1, axpy m be p], scalars := [rz1], rho := rho }, [pq, al, rr, rho, rz1, be], le0 pq || le0 rz1⟩

/-- An iteration of preconditioned MINRES: vectors *v*old, *v*, *z*, *w*old, *w*; scalars γold, γ, η, cold, c, sold, s. -/
def iterMinres (a : System) (z : Solve) : IterOut :=
  let v := fun i => z.vecs.getD i []
  let k := wd z.scalars
  let zj := scal (div64 one64 (k 1)) (v 2)
  let az := a.mv zj
  let de := a.dot az zj
  let v2 := axpy (axpy az (neg64 (div64 de (k 1))) (v 1)) (neg64 (div64 (k 1) (k 0))) (v 0)
  let z2 := a.precond v2
  let g := a.dot z2 v2
  let gam := sqrt64 g
  let a0 := sub64 (mul64 (k 4) de) (mul64 (mul64 (k 3) (k 6)) (k 1))
  let a1 := sqrt64 (add64 (mul64 a0 a0) (mul64 gam gam))
  let a2 := add64 (mul64 (k 6) de) (mul64 (mul64 (k 3) (k 4)) (k 1))
  let a3 := mul64 (k 5) (k 1)
  let c2 := div64 a0 a1
  let s2 := div64 gam a1
  let w2 := scal (div64 one64 a1) (axpy (axpy zj (neg64 a3) (v 3)) (neg64 a2) (v 4))
  let x := axpy z.x (mul64 c2 (k 2)) w2
  let et := neg64 (mul64 s2 (k 2))
  let rho := abs64 et
  ⟨{ z with x := x, vecs := [v 1, v2, z2, v 4, w2], scalars := [k 1, gam, et, k 4, c2, k 6, s2], rho := rho },
    [de, g, gam, a0, a1, a2, a3, c2, s2, et], lt64 g zero64⟩

/-- An iteration of BiCGSTAB: vectors *r̂*, *r*, *p*, *v*; scalars ρ, α, ω. A half step that passes the test ends it. -/
def iterBicg (a : System) (z : Solve) : IterOut :=
  let v := fun i => z.vecs.getD i []
  let k := wd z.scalars
  let rh := a.dot (v 0) (v 1)
  let be := mul64 (div64 rh (k 0)) (div64 (k 1) (k 2))
  let p := axpy (v 1) be (axpy (v 2) (neg64 (k 2)) (v 3))
  let y := a.precond p
  let q := a.mv y
  let rv := a.dot (v 0) q
  let al := div64 rh rv
  let sv := axpy (v 1) (neg64 al) q
  let ss := a.dot sv sv
  let half := sqrt64 ss
  let x1 := axpy z.x al y
  let first := [rh, be, rv, al, ss, half]
  if isZero64 rh || isZero64 rv || first.any (fun c => !fin64 c) then ⟨z, first, true⟩
  else if z.passes half then ⟨{ z with x := x1, vecs := [v 0, sv, p, q], scalars := [rh, al, k 2], rho := half }, first, false⟩
  else
    let m := a.precond sv
    let t := a.mv m
    let ts := a.dot t sv
    let tt := a.dot t t
    let om := div64 ts tt
    let r1 := axpy sv (neg64 om) t
    let rr := a.dot r1 r1
    let rho := sqrt64 rr
    ⟨{ z with x := axpy x1 om m, vecs := [v 0, r1, p, q], scalars := [rh, al, om], rho := rho }, first ++ [ts, tt, om, rr, rho], isZero64 tt⟩

/-- The iteration that runs. -/
def iterate (a : System) (method : Nat) (z : Solve) : IterOut :=
  if z.done = 0 then iterZero a method z
  else match method with
    | 0 => iterPcg a z
    | 1 => iterMinres a z
    | _ => iterBicg a z

/-- The solve after an iteration, with its counts and its best iterate (R290); and whether it broke down. -/
def Solve.after (a : System) (method : Nat) (z : Solve) : Solve × Bool :=
  let o := iterate a method z
  let y := o.z
  let better := z.done = 0 || method = 1 || lt64 y.rho z.best
  ({ y with done := z.done + 1, cmdDone := z.cmdDone + 1
            best := if better then y.rho else z.best
            bestX := if better then y.x else z.bestX }, o.broke || o.scalars.any fun c => !fin64 c)

/-! ### Time and the slice -/

/-- How far a slice's tick has come, in rc from its own tick's sample edge. -/
def Device.sliceTime (s : Device) (die idx : Nat) : Nat :=
  (match s.findSlice die idx with | some x => x.edges * s.period | none => 0) + s.rc

/-- A slice's deadline, in rc from its own tick's sample edge (R47). -/
def Device.sliceDeadline (s : Device) (die idx : Nat) : Nat := let r := s.sliceRec die idx; slStart r + slBudget r

/-- Something that takes `t` rc can end by the slice's deadline. -/
def Device.endsByDeadline (s : Device) (die idx t : Nat) : Bool := decide (s.sliceTime die idx + t ≤ s.sliceDeadline die idx)

/-! ### Records (R300, R303, R304) -/

/-- A program's solve, and writing it back. -/
def Device.solveOf (s : Device) (die p : Nat) : Option Solve := SMap.get none s.solve.solves (die * 16 + p)
def Device.setSolve (s : Device) (die p : Nat) (z : Option Solve) : Device :=
  { s with solve := { s.solve with solves := SMap.put none s.solve.solves (die * 16 + p) z } }
def Device.refreshOf (s : Device) (die p : Nat) : Option Refresh := SMap.get none s.solve.refresh (die * 16 + p)
def Device.setRefresh (s : Device) (die p : Nat) (x : Option Refresh) : Device :=
  { s with solve := { s.solve with refresh := SMap.put none s.solve.refresh (die * 16 + p) x } }

/-- The engines of a program show what they run (R305). -/
def Device.engines (s : Device) (die p : Nat) (busy refresh : Bool) (iter : Nat) : Device :=
  (shUnits (s.header die p)).foldl (fun s e =>
    (((s.wr die (REFLEX_SOLVE_ENG_STATUS_BUSY e) (b2n busy)).wr die (REFLEX_SOLVE_ENG_STATUS_REFRESH e) (b2n refresh)).wr die
      (REFLEX_SOLVE_ENG_STATUS_PROG e) (if busy then p else 0)).wr die (REFLEX_SOLVE_ENG_STATUS_ITER e) iter) s

/-- The REPORT record, at the end of every solver command. -/
def Device.report (s : Device) (die p status warm factor iters rho thr refPos : Nat) : Device :=
  s.rxSets die (reflexBase die + shSec (s.header die p) 18)
    ([status + 256 * warm + 65536 * factor, iters, rho, thr, refPos] ++ List.replicate 11 0)

/-- Write the warm record of a solve. -/
def Device.writeWarm (s : Device) (die p status : Nat) (z : Solve) (x : List Nat) : Device :=
  let h := s.header die p
  s.rxSets die (reflexBase die + shSec h 15)
    ([wd h 0, wd h 1, shN h, 1 + 256 * status, z.done, to32 z.rho, s.chorus.edgeTime % 2 ^ 32, s.chorus.edgeTime / 2 ^ 32] ++
      List.replicate 8 0 ++ x)

/-- The captured plan entry still stands (R302). -/
def Device.planStands (s : Device) (die : Nat) (z : Solve) : Bool :=
  match z.slot, z.capture with
  | some k, some c => SMap.get 0 s.collide.pubs (die * 8 + k) = c.2.1 && decide (s.plStamp die k c.1 = s.rd die REFLEX_COLL_EPOCH_EPOCH)
  | _, _ => true

/-- Address of entry `k` of a trajectory stream (R308). -/
def Device.streamAddr (s : Device) (die st k : Nat) : Nat :=
  reflexBase die + s.rd die REFLEX_CTRL_CTL_REGION * 0x200000 + 0x100000 + (st * 4 + k) * 0x4000

/-- FLAGS of a stream entry: VALID, COMMIT, CANCELLED, HOLD. -/
def Device.stFlags (s : Device) (die st k : Nat) : Nat := s.readData (s.streamAddr die st k + 17) 1

/-- A publication into a stream (R303, R316): a free entry, VALID last; with none free, it is counted. -/
def Device.publishStream (s : Device) (die st time tag : Nat) (commit hold : Bool) (status : Nat) (elems : List (Nat × Nat)) : Device :=
  match (List.range 4).find? fun k => let f := s.stFlags die st k; !bit f 0 || bit f 2 with
  | none => s.addHold die REFLEX_CTRL_COUNT_STREAM_FULL 1
  | some k =>
    let a := s.streamAddr die st k
    let s1 := s.rxSets die a ([time % 2 ^ 32, time / 2 ^ 32, 1000 * s.rd die (REFLEX_CTRL_STREAM_CFG_DT_US st),
      s.rd die (REFLEX_CTRL_STREAM_CFG_POINTS_M1 st) + 65536 * s.rd die (REFLEX_CTRL_STREAM_CFG_CHANNELS_M1 st), tag, status] ++
      List.replicate 10 0)
    let s2 := elems.foldl (fun (s : Device) e => s.rxSet die (a + 64 + 4 * e.1) e.2 4)
      { s1 with ctrl := { s1.ctrl with order := SMap.put 0 s1.ctrl.order ((die * 16 + st) * 4 + k) s1.ctrl.orderNext, orderNext := s1.ctrl.orderNext + 1 } }
    ((s2.rxSetByte die (a + 17) (1 + 2 * b2n commit + 8 * b2n hold)).rxSetByte die (a + 18) status).addWrap die REFLEX_CTRL_STREAM_AUDIT_WRITTEN 1

/-- Publication (R303): the solution half that is not published, the stream, and SOL_IDX; the SOLVE watchdog's kick (R348). -/
def Device.publishSolve (s : Device) (die p status : Nat) (z : Solve) (x : List Nat) (hold : Bool) : Device :=
  let h := s.header die p
  let idx := s.rd die (REFLEX_SOLVE_PROG_STATE_SOL_IDX p)
  let c := z.capture.getD (0, 0, 0, 0)
  let commit := match z.slot with | some k => s.plCommit die k c.1 | none => true
  let stamp := match z.slot with | some k => s.plStamp die k c.1 | none => 0
  let s1 := s.rxSets die (reflexBase die + shSec h (17 - idx))
    ([status + 256 * (b2n hold + 2 * b2n commit) + 65536 * c.2.2.1 + 2 ^ 24 * z.slot.getD 0xFF, z.done, to32 z.rho, stamp,
      s.chorus.edgeTime % 2 ^ 32, s.chorus.edgeTime / 2 ^ 32] ++ List.replicate 10 0 ++ (if hold then [] else x))
  let map := s1.secWords die (shSec h 14) (shOutCount h)
  let s2 := s1.publishStream die (shOutStream h % 16) z.time c.2.2.1 commit hold status
    (if hold then [] else map.map fun m => (bits m 16 16, wd x (bits m 0 16)))
  (s2.wr die (REFLEX_SOLVE_PROG_STATE_SOL_IDX p) (1 - idx)).kick die 3 p s2.chorus.edgeTime

/-! ### The end of a command (R299, R304) -/

/-- A command of a program ends with a status: LAST_STATUS, the counts, the report and the engines. -/
def Device.solverEnds (s : Device) (die p status : Nat) (z : Solve) : Device :=
  let s1 := s.wr die (REFLEX_SOLVE_PROG_STATE_LAST_STATUS p) status
  let s2 := if status = stDEADLINE then s1.addHold die REFLEX_SOLVE_COUNT_DEADLINE 1
    else if status = stBREAKDOWN then s1.addHold die REFLEX_SOLVE_COUNT_BREAKDOWN 1
    else if status = stFACTOR_FAIL then s1.addHold die REFLEX_SOLVE_COUNT_FACTOR_FAIL 1 else s1
  ((s2.report die p status z.warm z.factor z.done (to32 z.rho) (to32 z.threshold) 0).engines die p false false 0).answer status 0

/-- A solve ends: it is no longer partial, and counts as ended. -/
def Device.solveEnds (s : Device) (die p status : Nat) (z : Solve) : Device :=
  ((((s.setSolve die p none).clr die (REFLEX_SOLVE_PROG_STATE_PARTIAL p)).addWrap die REFLEX_SOLVE_AUDIT_ENDED 1).solverEnds die p
    status z)

/-- A solve ends with an iterate to publish, unless its plan entry no longer stands (R302). -/
def Device.solvePublishes (s : Device) (die p status : Nat) (z : Solve) (x : List Nat) : Device :=
  if s.planStands die z then ((s.writeWarm die p status z x).publishSolve die p status z x false).solveEnds die p status z
  else (s.writeWarm die p stEPOCH_STALE z z.x).solveEnds die p stEPOCH_STALE z

/-- The iterate a solve publishes at MAXITER or DEADLINE: the best one (R290). -/
def Solve.bestIterate (z : Solve) : List Nat := if z.done = 0 then z.x else z.bestX

/-- The next iteration starts, or the solve ends DEADLINE. -/
def Device.nextIteration (s : Device) (die p : Nat) (z : Solve) : Device :=
  if s.endsByDeadline die z.slice (shTIter (s.header die p)) then
    (s.setSolve die p (some { z with running := true })).engines die p true false z.done
  else s.solvePublishes die p stDEADLINE z z.bestIterate

/-- The outcome after an iteration, in the order of R299. -/
def Device.outcome (s : Device) (die p : Nat) (z : Solve) (broke : Bool) : Device :=
  if broke then s.solveEnds die p stBREAKDOWN z
  else if z.passes z.rho then s.solvePublishes die p stDONE z z.x
  else if z.iterMax ≤ z.done then s.solvePublishes die p stMAXITER z z.bestIterate
  else if z.iters ≤ z.cmdDone then
    ((s.setSolve die p (some { z with running := false })).set die (REFLEX_SOLVE_PROG_STATE_PARTIAL p)).solverEnds die p stPARTIAL z
  else s.nextIteration die p z

/-! ### Commands -/

/-- A refused solver command (R297). -/
def Device.solveRefuse (s : Device) (die p reason : Nat) (z : Solve) : Device :=
  let s1 := if s.on die REFLEX_SOLVE_ERR_VALID then s.set die REFLEX_SOLVE_ERR_OVERFLOW
    else ((s.set die REFLEX_SOLVE_ERR_VALID).wr die REFLEX_SOLVE_ERR_REASON reason).wr die REFLEX_SOLVE_ERR_PROG p
  s1.solverEnds die p stBAD_COMMAND z

/-- A pending factor comes into force at a solve's start (R295). -/
def Device.takeFactor (s : Device) (die p : Nat) : Device :=
  if s.on die (REFLEX_SOLVE_PROG_STATE_PENDING p) then
    (s.clr die (REFLEX_SOLVE_PROG_STATE_PENDING p)).wr die (REFLEX_SOLVE_PROG_STATE_FACTOR p)
      (if s.rd die (REFLEX_SOLVE_PROG_STATE_FACTOR p) = 1 then 2 else 1)
  else s

/-- *x*0 and the WARM byte from a warm record (R300). -/
def warmStart (h rec : List Nat) (shift : Nat) : List Nat × Nat :=
  let n := shN h
  if ¬ bit (wd rec 3) 0 then (List.replicate n 0, 0)
  else if wd rec 0 = wd h 0 ∧ wd rec 1 = wd h 1 ∧ wd rec 2 = n then
    ((List.range n).map fun i => wd rec (16 + (if i + shift < n then i + shift else i)), 1)
  else (List.replicate n 0, stREFUSED_WARM)

/-- The values and the right side of a bank. -/
def Device.bankWords (s : Device) (die : Nat) (h : List Nat) (bank : Nat) : List Nat :=
  s.secWords die (shSec h (3 + bank)) (shNnz h) ++ s.secWords die (shSec h (5 + bank)) (shN h)

/-- The body of SOLVE (R299). -/
def solveBody (die idx : Nat) (w : List Nat) (s : Device) : Device :=
  let p := bits (wd w 1) 20 4
  let h := s.header die p
  let s1 := if s.on die (REFLEX_SOLVE_PROG_STATE_PARTIAL p) then
      (s.clr die (REFLEX_SOLVE_PROG_STATE_PARTIAL p)).addWrap die REFLEX_SOLVE_AUDIT_ENDED 1 else s
  let s2 := (s1.setSolve die p none).addWrap die REFLEX_SOLVE_AUDIT_STARTED 1
  let planned := bit (wd w 1) 28
  let k := bits (wd w 1) 25 3
  let pub := s2.published die k
  let open0 := to64 (Config.freeWord s2.fresh % 2 ^ 32)
  let z : Solve :=
    { slice := idx, bank := bits (wd w 1) 24 1, slot := if planned then some k else none, iters := bits (wd w 1) 0 16
      iterMax := bits (wd w 2) 16 16, rtol := wd w 3, atol := wd w 4, factor := 0xFF, warm := 0, rho := open0, rho0 := open0
      capture := if planned then some (pub, SMap.get 0 s2.collide.pubs (die * 8 + k), s2.plTag die k pub, s2.plStamp die k pub) else none
      time := s2.chorus.edgeTime }
  let s3 := { s2 with fresh := s2.fresh + 1 }
  if planned ∧ pub = 0xFF then s3.solveEnds die p stNO_PLAN z
  else if planned ∧ s3.plState die k pub = 4 then (s3.publishSolve die p stDONE z [] true).solveEnds die p stDONE z
  else
    let s4 := s3.takeFactor die p
    let f := s4.rd die (REFLEX_SOLVE_PROG_STATE_FACTOR p)
    let z1 := { z with factor := if shPrec h = 0 ∨ f = 0 then 0xFF else f - 1 }
    if f = 0 ∧ shPrec h ≠ 0 then s4.solveEnds die p stFACTOR_FAIL z1
    else
      let src := bits (wd w 1) 29 2
      let a := reflexBase die + shSec (s4.header die (if src = 1 then p else bits (wd w 1) 16 4)) 15
      match s4.rxTouch die ((s4.progAddr die p, 256) :: if src = 0 then [] else [(a, 64 + 4 * shN h)]) with
      | (s5, st) =>
        if st ≠ stDONE then (s5.solveEnds die p st z1).rxFail die idx st
        else
          let rec' := (List.range (16 + shN h)).map fun i => s5.readData (a + 4 * i) 4
          let x := if src = 0 then (List.replicate (shN h) 0, 0) else warmStart h rec' (bits (wd w 2) 0 16)
          let s6 := if x.2 = stREFUSED_WARM then s5.addHold die REFLEX_SOLVE_COUNT_REFUSED_WARM 1 else s5
          s6.nextIteration die p { z1 with x := x.1, warm := x.2, seen := s6.bankWords die h z1.bank }

/-- The body of SOLVE_CONTINUE (R301, R302): only PROG and ITERS are read. -/
def solveContinueBody (die idx : Nat) (w : List Nat) (s : Device) : Device :=
  let p := bits (wd w 1) 20 4
  match s.solveOf die p with
  | some z =>
    if s.on die (REFLEX_SOLVE_PROG_STATE_PARTIAL p) then
      let y := { z with slice := idx, iters := bits (wd w 1) 0 16, cmdDone := 0 }
      let s1 := s.clr die (REFLEX_SOLVE_PROG_STATE_PARTIAL p)
      if s1.planStands die y then s1.nextIteration die p y
      else (s1.writeWarm die p stEPOCH_STALE y y.x).solveEnds die p stEPOCH_STALE y
    else s.solveRefuse die p 0x32 z
  | none =>
    s.solveRefuse die p 0x32 { slice := idx, bank := 0, slot := none, iters := 0, iterMax := 0, rtol := 0, atol := 0, factor := 0xFF, warm := 0 }

/-- What an iteration computes from: the program's system, or one of free values where its bank has been written since the solve's start. -/
def Device.iterSystem (s : Device) (die : Nat) (h : List Nat) (z : Solve) : Device × System :=
  let a := s.systemOf die h z.bank z.factor
  if a.vals ++ a.rhs = z.seen then (s, a)
  else ({ s with fresh := s.fresh + (a.vals.length + a.rhs.length) }, a.opened s.fresh)

/-- The body of SOLVER_ITERATION_END (R290, R291, R299): the iteration's results, then its outcome. -/
def iterationEndBody (die p : Nat) (s : Device) : Device :=
  match s.solveOf die p with
  | none => s
  | some z =>
    if ¬ z.running then s
    else
      let h := s.header die p
      match s.rxTouch die (s.systemReads die h z.bank z.factor) with
      | (s1, st) =>
        if st ≠ stDONE then (s1.solveEnds die p stUNCORRECTABLE z).rxFail die z.slice stUNCORRECTABLE
        else
          let a := s1.iterSystem die h z
          let r := z.after a.2 (shMethod h)
          a.1.outcome die p r.1 r.2

/-! ### The factor refresh (R294, R295) -/

/-- What the preconditioner reads: A's own values of a bank, or PVAL, which holds that part alone. -/
def Device.precSource (s : Device) (die : Nat) (h : List Nat) (bank : Nat) : List Nat :=
  if shPrecSrc h then s.secWords die (shSec h 7) (s.pvalWords die h)
  else (s.precEntries die h).map fun e => s.readData (reflexBase die + shSec h (3 + bank) + 4 * e.2.2) 4

/-- Where a refresh reads: the program's pattern, and those values. -/
def Device.refreshReads (s : Device) (die p : Nat) (bank : Nat) : List (Nat × Nat) :=
  let h := s.header die p
  let a := reflexBase die
  (s.progAddr die p, 256) :: (a + shSec h 2, 2 * shNnz h) ::
    (if shPrecSrc h then (a + shSec h 7, 4 * s.pvalWords die h) else (a + shSec h (3 + bank), 4 * shNnz h)) ::
    ((if shEngines h = 1 then [] else [(a + shSec h 0, 8 * ((shNnz0 h + 31) / 32))]) ++
      (if shEngines h = 0 then [] else [(a + shSec h 1, 8 * (((if shEngines h = 2 then shNnz h - shNnz0 h else shNnz h) + 31) / 32))]) ++
      (if shPrec h = 2 then [(a + shSec h 8, 2 * (s.blockRows die h).length)] else []))

/-- One step of Gauss–Jordan without pivoting on rows of a matrix beside its inverse (R294): each element is formed in FP64 and rounded once
to FP32. -/
def gaussStep (m : List (List Nat)) (k : Nat) : List (List Nat) :=
  let row := m.getD k []
  let top := row.map fun x => to32 (div64 (to64 x) (to64 (wd row k)))
  (List.range m.length).map fun i =>
    if i = k then top
    else
      let r := m.getD i []
      (r.zip top).map fun x => to32 (sub64 (to64 x.1) (mul64 (to64 (wd r k)) (to64 x.2)))

/-- The inverse of a block, row by row, and whether a pivot fails: one that is 0, or for MINRES one that is not positive. -/
def blockInverse (minres : Bool) (rows : List (List Nat)) : List Nat × Bool :=
  let n := rows.length
  let start := (List.range n).map fun i => rows.getD i [] ++ (List.range n).map fun j => if i = j then 0x3F800000 else 0
  let x := (List.range n).foldl (fun (x : List (List Nat) × Bool) k =>
    let pv := wd (x.1.getD k []) k
    (gaussStep x.1 k, x.2 || decide (abs32 pv = 0) || (minres && !lt32 0 pv))) (start, false)
  (x.1.flatMap fun r => r.drop n, x.2)

/-- An IC(0) factor of entries (row, column, value) in row order, in ascending column along a row, and whether a pivot is not positive:
products and sums as in a row sum of R291 (DESIGN CHOICE, 89). -/
def choleskyZero (n : Nat) (e : List (Nat × Nat × Nat)) : List (Nat × Nat × Nat) × Bool :=
  (List.range n).foldl (fun x i => (List.range (i + 1)).foldl (fun (x : List (Nat × Nat × Nat) × Bool) j =>
    match factorAt e i j with
    | none => x
    | some a =>
      let v := (List.range j).foldl (fun acc k => match factorAt x.1 i k, factorAt x.1 j k with
        | some b, some c => sub32 acc (mul32 b c)
        | _, _ => acc) a
      if i = j then (x.1 ++ [(i, j, sqrt32 v)], x.2 || !lt32 0 v)
      else (x.1 ++ [(i, j, div32 v ((factorAt x.1 j j).getD 0))], x.2)) x) ([], false)

/-- The factor of values that the preconditioner reads (R294), and whether the refresh fails. -/
def Device.factorOf (s : Device) (die : Nat) (h src : List Nat) : List Nat × Bool :=
  let minres := decide (shMethod h = 1)
  let e := ((s.precEntries die h).zip src).map fun x => (x.1.1, x.1.2.1, x.2)
  let f : List Nat × Bool := match shPrec h with
    | 1 => (src.map fun a => div32 0x3F800000 (if minres then abs32 a else a), src.any fun a => decide (abs32 a = 0))
    | 2 =>
      let blocks := s.blockRows die h
      let inv := (List.range blocks.length).map fun k =>
        let b := blockSpan (shN h) blocks k
        blockInverse minres ((List.range b.2).map fun i => (List.range b.2).map fun j => (factorAt e (b.1 + i) (b.1 + j)).getD 0)
      (inv.flatMap (·.1), inv.any (·.2))
    | _ =>
      let x := choleskyZero (shN h) e
      ((s.precEntries die h).map fun y => (factorAt x.1 y.1 y.2.1).getD 0, x.2)
  (f.1, f.2 || f.1.any fun x => !fin32 x)

/-- The factor that a refresh of a program builds, its values free where its bank has been written since it started (R289). -/
def Device.buildFactor (s : Device) (die p : Nat) (bank : Nat) : Device × List Nat × Bool :=
  let h := s.header die p
  let src := s.precSource die h bank
  if src = SMap.get [] s.solve.refSeen (die * 16 + p) then (s, s.factorOf die h src)
  else ({ s with fresh := s.fresh + src.length },
    s.factorOf die h ((List.range src.length).map fun i => Config.freeWord (s.fresh + i) % 2 ^ 32))

/-- Blocks (or beats of rows, or pairs of IC rows) of a whole refresh on the engine that has more of them, and the rc each takes;
0 where REFSCHED gives no time for each. -/
def refBlocks (h : List Nat) : Nat × Nat :=
  let m := max (shN0 h) (shN h - shN0 h)
  match shPrec h with
  | 1 => ((m + 31) / 32, 1)
  | 2 => let b := max 1 (shBlock h); ((m + b - 1) / b, (b ^ 3 + 31) / 32)
  | _ => ((m + 1) / 2, 0)

/-- The body of REFRESH: it resumes a stopped one of the same bank, or starts anew. -/
def refreshBody (die idx : Nat) (w : List Nat) (s : Device) : Device :=
  let p := bits (wd w 1) 20 4
  let bank := bits (wd w 1) 24 1
  let pos := if s.rd die (REFLEX_SOLVE_PROG_STATE_REF_BANK p) = bank then s.rd die (REFLEX_SOLVE_PROG_STATE_REF_POS p) else 0
  let s1 := ((s.clr die (REFLEX_SOLVE_PROG_STATE_PENDING p)).wr die (REFLEX_SOLVE_PROG_STATE_REF_BANK p) bank).wr die
    (REFLEX_SOLVE_PROG_STATE_REF_POS p) pos
  let s2 : Device := if pos = 0 then
      { s1 with solve := { s1.solve with
          refSeen := SMap.put [] s1.solve.refSeen (die * 16 + p) (s1.precSource die (s1.header die p) bank) } }
    else s1
  (s2.setRefresh die p (some { prog := p, slice := idx, bank := bank, pos := pos, start := s2.sliceTime die idx })).engines die p true true 0

/-- A refresh ends with a status: its report, LAST_STATUS, the counts and the engines. -/
def Device.refreshEnds (s : Device) (die p status pos : Nat) : Device :=
  let s1 := (s.setRefresh die p none).wr die (REFLEX_SOLVE_PROG_STATE_LAST_STATUS p) status
  let s2 := if status = stFACTOR_FAIL then s1.addHold die REFLEX_SOLVE_COUNT_FACTOR_FAIL 1 else s1
  let f := s2.rd die (REFLEX_SOLVE_PROG_STATE_FACTOR p)
  ((s2.report die p status 0 (if f = 0 then 0xFF else f - 1) 0 0 0 pos).engines die p false false 0).answer status 0

/-- The body of REFRESH_DONE: the buffer that is not in force is PENDING; a failure leaves the factor in force. -/
def refreshDoneBody (die p : Nat) (s : Device) : Device :=
  match s.refreshOf die p with
  | none => s
  | some x =>
    let h := s.header die p
    match s.rxTouch die (s.refreshReads die p x.bank) with
    | (s0, st) =>
      let s1 := (s0.clr die (REFLEX_SOLVE_PROG_STATE_REF_POS p)).clr die (REFLEX_SOLVE_PROG_STATE_REF_BANK p)
      if st ≠ stDONE then (s1.refreshEnds die p st 0).rxFail die x.slice st
      else
        let (s1, f) := s1.buildFactor die p x.bank
        if f.2 then s1.refreshEnds die p stFACTOR_FAIL 0
        else
          let buf := if s1.rd die (REFLEX_SOLVE_PROG_STATE_FACTOR p) = 1 then 1 else 0
          ((s1.rxSets die (reflexBase die + shSec h (9 + buf)) f.1).set die (REFLEX_SOLVE_PROG_STATE_PENDING p)).refreshEnds die p stDONE 0

/-- A refresh reaches its slice's deadline (R295): whole blocks done stay, the position is kept. For IC(0) how far it came
follows from REFSCHED, whose format is not given: a free value. -/
def Device.refreshStop (s : Device) (die p : Nat) (x : Refresh) : Device :=
  let b := refBlocks (s.header die p)
  let gone := s.sliceDeadline die x.slice - x.start
  let pos := if b.2 = 0 then x.pos + Config.freeWord s.fresh % (b.1 - x.pos + 1) else min b.1 (x.pos + (gone - 32) / b.2)
  let s1 := { s with fresh := s.fresh + (if b.2 = 0 then 1 else 0) }
  (s1.wr die (REFLEX_SOLVE_PROG_STATE_REF_POS p) pos).refreshEnds die p stDEADLINE pos

/-- A solver slice's deadline (R295, R299): its refresh stops; a solve whose iteration has not ended ends DEADLINE. -/
def Device.solverDeadline (s : Device) (die idx : Nat) : Device :=
  let s1 := (List.range 16).foldl (fun s p =>
    match s.refreshOf die p with
    | some x => if x.slice = idx then s.refreshStop die p x else s
    | none => s) s
  (List.range 16).foldl (fun s p =>
    match s.solveOf die p with
    | some z => if z.slice = idx ∧ z.running then s.solvePublishes die p stDEADLINE z z.bestIterate else s
    | none => s) s1

/-- A slice's command on the solver engines at its end: a write that failed within it ends the slice's solves and refreshes, and the slice (R65). -/
def Device.settleSolve (s : Device) (die idx : Nat) : Device :=
  match s.pond.failed with
  | none => s
  | some st =>
    let s1 := (List.range 16).foldl (fun (s : Device) p =>
      let s1 := match s.refreshOf die p with | some x => if x.slice = idx then s.refreshEnds die p st 0 else s | none => s
      match s1.solveOf die p with | some z => if z.slice = idx then s1.solveEnds die p st z else s1 | none => s1) s
    s1.noFail.rxFail die idx st

end Sys2Proof.Machine
end

