-- ==== Sys2Proof/Machine/Lsio.lean ====
section
/-!
DEFINITION. Field I/O of die 0 (R419 to R424, R429): CAN, pulse and analogue inputs, field words, output words, SPI, I²C,
UART and GPIO.
-/
namespace Sys2Proof.Machine

/-- Replace the field I/O's state. -/
def Device.setLsio (s : Device) (x : LsioSt) : Device := { s with lsio := x }

/-- A refused write of the block (R427). -/
def Device.lsioRange (s : Device) : Device := s.set 0 LSIO_CTL_RANGE_ERR

/-- Bytes of a WIDTH code. -/
def widthBytes (w : Nat) : Nat := 2 ^ min w 2

/-- The mode of a GPIO (R429): 0 input, 1 output, 2 PWM. -/
def Device.gpioMode (s : Device) (k : Nat) : Nat := bits (s.rd 0 (LSIO_GPIO_MODE_MODES (k / 16))) (2 * (k % 16)) 2

/-! ### CAN (R419, R429) -/

/-- Output words mapped to a CAN buffer (number channel × 32 + buffer), and to an SPI slot (controller × 16 + slot). -/
def Device.outKind (s : Device) (d : Nat) : Nat := s.rd 0 (LSIO_OUT_MAP_KIND d)
def Device.mapsCan (s : Device) (b d : Nat) : Bool :=
  s.outKind d = 1 && decide (s.rd 0 (LSIO_OUT_MAP_UNIT d) * 32 + s.rd 0 (LSIO_OUT_MAP_BUF d) = b)
def Device.mapsSpi (s : Device) (n d : Nat) : Bool :=
  s.outKind d = 2 && decide (s.rd 0 (LSIO_OUT_MAP_UNIT d) * 16 + s.rd 0 (LSIO_OUT_MAP_BUF d) = n)
def Device.canMapped (s : Device) (b : Nat) : Bool := (List.range 256).any (s.mapsCan b)

/-- TX_CTL.PENDING follows the queue. -/
def Device.canPending (s : Device) (c : Nat) : Device :=
  s.wr 0 (LSIO_CAN_TX_CTL_PENDING c) (b2n (s.lsio.canQ.contains (c * 32 + s.rd 0 (LSIO_CAN_TX_CTL_BUF c))))

/-- A channel is fenced (R436, R438). -/
def Device.canFenced (s : Device) (c : Nat) : Bool := s.isFenced 0 (0x90 + c)

/-- Drop what a channel has queued. -/
def Device.canDrop (s : Device) (c : Nat) : Device :=
  (s.setLsio { s.lsio with canQ := s.lsio.canQ.filter fun b => b / 32 ≠ c }).canPending c

/-- Queue a transmit buffer; one still unsent is overwritten and counted. A fenced channel takes none and counts it as answered FENCED. -/
def Device.canQueue (s : Device) (b : Nat) : Device :=
  if s.canFenced (b / 32) then s.addHold 0 DIE_CTL_ERR_COUNT_FENCED 1
  else
  let s1 := if s.lsio.canQ.contains b then s.addHold 0 (LSIO_CAN_STATUS_OVERWRITE (b / 32)) 1
    else s.setLsio { s.lsio with canQ := s.lsio.canQ ++ [b] }
  s1.canPending (b / 32)

/-- A transmit buffer's bytes: as many as its length says, or as its mapped words reach. -/
def Device.canBytes (s : Device) (b : Nat) : List Nat :=
  let n := if s.canMapped b then
      ((List.range 256).filter (s.mapsCan b)).foldl (fun m d => max m (s.rd 0 (LSIO_OUT_MAP_OFFSET d) + widthBytes (s.rd 0 (LSIO_OUT_MAP_WIDTH d)))) 0
    else SMap.get 0 s.lsio.canLen b
  (List.range n).map fun i => SMap.get 0 s.lsio.canTx (b * 2048 + i)

/-- The lowest enabled filter of a channel that takes a frame. -/
def Device.canFilter (s : Device) (c fmt : Nat) (ext : Bool) (id : Nat) : Option Nat :=
  (List.range 64).find? fun f =>
    let n := c * 64 + f
    s.on 0 (LSIO_CAN_FLT_ID_EN n) && decide (s.on 0 (LSIO_CAN_FLT_ID_EXT n) = ext) &&
      decide (s.on 0 (LSIO_CAN_FLT_ID_XL n) = decide (fmt = 2)) &&
      decide ((id ^^^ s.rd 0 (LSIO_CAN_FLT_ID_ID n)) &&& s.rd 0 (LSIO_CAN_FLT_MASK_MASK n) = 0)

/-- The value a field word takes from a frame (R420), if its field lies in the data. -/
def Device.fieldOf (s : Device) (w : Nat) (data : List Nat) : Option Nat :=
  let o := s.rd 0 (LSIO_IN_MAP_OFFSET w)
  let n := widthBytes (s.rd 0 (LSIO_IN_MAP_WIDTH w))
  if o + n ≤ data.length then
    let v := ofBytes ((data.drop o).take n)
    some (if s.on 0 (LSIO_IN_MAP_SIGNED w) then wrapN 32 (sext (8 * n) v) else v)
  else none

/-- A frame enters its filter's receive buffer and the field words that read it. -/
def Device.canAccept (s : Device) (c fmt : Nat) (ext : Bool) (id : Nat) (data : List Nat) : Device :=
  match s.canFilter c fmt ext id with
  | none => s
  | some f =>
    let s1 := (s.setLsio { s.lsio with canRx := SMap.put none s.lsio.canRx (c * 64 + f) (some ⟨s.chorus.time, fmt, ext, id, data⟩) }).addHold 0
      (LSIO_CAN_STATUS_RX c) 1
    (List.range 256).foldl (fun s w =>
      if s.on 0 (LSIO_IN_MAP_EN w) ∧ s.rd 0 (LSIO_IN_MAP_CHANNEL w) = c ∧ s.rd 0 (LSIO_IN_MAP_FILTER w) = f then
        match s.fieldOf w data with
        | some v => s.setLsio { s.lsio with field := SMap.put 0 s.lsio.field w v }
        | none => s
      else s) s1

/-- A channel handles a format: FD and XL need their enables; XL frames hold at most 64 data bytes. -/
def Device.canTakes (s : Device) (c fmt n : Nat) : Bool :=
  s.on 0 (LSIO_CAN_CFG_EN c) && (fmt = 0 || (fmt = 1 && s.on 0 (LSIO_CAN_CFG_FD_EN c)) || (fmt = 2 && s.on 0 (LSIO_CAN_CFG_XL_EN c))) && decide (n ≤ 64)

/-- The body of CAN_FRAME_RECEIVE; `err` reports a bus error in place of a frame. -/
def canFrameReceiveBody (c : Nat) (err : Bool) (fmt : Nat) (ext : Bool) (id : Nat) (data : List Nat) (s : Device) : Device :=
  if ¬ s.on 0 (LSIO_CAN_CFG_EN c) ∨ s.canFenced c then s
  else if err then s.addHold 0 (LSIO_CAN_STATUS_BUS_ERR c) 1
  else if s.canTakes c fmt data.length ∧ ¬ s.on 0 (LSIO_CAN_CFG_LOOP c) then s.canAccept c fmt ext id data
  else s

/-- The body of CAN_TX_START: a write of LSIO_CAN_TX_CTL. -/
def canTxStartBody (c value : Nat) (s : Device) : Device :=
  let b := c * 32 + bits value 0 5
  if bit value 31 ∧ s.canMapped b then s.lsioRange
  else
    let s1 := s.wr 0 (LSIO_CAN_TX_CTL_BUF c) (bits value 0 5)
    if bit value 31 then s1.canQueue b else s1.canPending c

/-- The body of CAN_FRAME_SENT: the lowest queued buffer of a channel has been sent; a channel in loopback receives it. -/
def canFrameSentBody (c : Nat) (s : Device) : Device :=
  match (List.range 32).find? fun k => s.lsio.canQ.contains (c * 32 + k) with
  | none => s
  | some k =>
    let b := c * 32 + k
    let fmt := s.rd 0 (LSIO_CANTX_HDR_FMT b)
    let data := s.canBytes b
    if s.canTakes c fmt data.length ∧ ¬ s.on 0 (LSIO_CAN_CFG_LISTEN c) then
      let s1 := (s.setLsio { s.lsio with canQ := s.lsio.canQ.filter (· ≠ b) }).canPending c
      let s2 := s1.emit (.can c k (fmt :: s.rd 0 (LSIO_CANTX_HDR_EXT b) :: s.rd 0 (LSIO_CANTX_HDR_ID b) :: data))
      if s2.on 0 (LSIO_CAN_CFG_LOOP c) then s2.canAccept c fmt (s2.on 0 (LSIO_CANTX_HDR_EXT b)) (s2.rd 0 (LSIO_CANTX_HDR_ID b)) data else s2
    else s

/-- The body of CAN_RX_SNAPSHOT: a copy of the selected buffer, of which word 0 is read. -/
def canRxSnapshotBody (s : Device) : Device :=
  let ws := match SMap.get none s.lsio.canRx (s.rd 0 LSIO_CAN_RX_SEL_CHANNEL * 64 + s.rd 0 LSIO_CAN_RX_SEL_FILTER) with
    | none => List.replicate 20 0
    | some f =>
      [f.time % 2 ^ 32, f.time / 2 ^ 32 % 2 ^ 32, 2 ^ 31 + 2 ^ 30 * b2n f.ext + 2 ^ 29 * b2n (f.fmt = 2) + f.id % 2 ^ 29, 2 ^ 30 * f.fmt + f.data.length] ++
        (List.range 16).map fun i => ofBytes ((f.data.drop (4 * i)).take 4)
  ((List.range 20).foldl (fun s i => s.wr 0 (LSIO_CAN_RX_WORD i) (wd ws i)) s).answer stDONE (wd ws 0)

/-! ### SPI (R424, R429) -/

/-- The slot at the head of a controller's queue starts where none runs. -/
def Device.spiNext (s : Device) (n : Nat) : Device :=
  match SMap.get none s.lsio.spiRun n, SMap.get [] s.lsio.spiQ n with
  | none, k :: q =>
    let words := (List.range (s.rd 0 (LSIO_SPI_SLOT_WORDS_M1 (n * 16 + k)) + 1)).map fun i =>
      ofBytes ((List.range 4).map fun j => SMap.get 0 s.lsio.spiTx ((n * 16 + k) * 64 + 4 * i + j))
    (s.setLsio { s.lsio with spiRun := SMap.put none s.lsio.spiRun n (some k), spiQ := SMap.put [] s.lsio.spiQ n q }).emit
      (.field "SPI" n (k :: words))
  | _, _ => s

/-- A slot is triggered: it waits its turn, or is counted in MISSED while it still waits. -/
def Device.spiTrigger (s : Device) (n k : Nat) : Device :=
  if ¬ s.on 0 (LSIO_SPI_CFG_EN n) ∨ ¬ s.on 0 (LSIO_SPI_SLOT_EN (n * 16 + k)) then s
  else if (SMap.get [] s.lsio.spiQ n).contains k then s.addHold 0 (LSIO_SPI_STATUS_MISSED n) 1
  else (s.setLsio { s.lsio with spiQ := SMap.put [] s.lsio.spiQ n (SMap.get [] s.lsio.spiQ n ++ [k]) }).spiNext n

/-- Slots of all controllers with a trigger: every sample edge (2), or a data-ready edge of one controller (1). -/
def Device.spiTriggers (s : Device) (trig : Nat) (ns : List Nat) : Device :=
  ns.foldl (fun s n => (List.range 16).foldl (fun s k =>
    if s.rd 0 (LSIO_SPI_SLOT_TRIG (n * 16 + k)) = trig then s.spiTrigger n k else s) s) s

/-- The body of SPI_SLOT_TRIGGER. -/
def spiSlotTriggerBody (n k : Nat) (s : Device) : Device := s.spiTrigger n k

/-- The body of SPI_GO. -/
def spiGoBody (value : Nat) (s : Device) : Device :=
  let n := bits value 8 3
  let k := bits value 0 4
  let s1 := (s.wr 0 LSIO_SPI_GO_CHANNEL n).wr 0 LSIO_SPI_GO_SLOT k
  if ¬ bit value 31 then s1
  else if s.rd 0 (LSIO_SPI_SLOT_TRIG (n * 16 + k)) ≠ 3 then s.lsioRange else s1.spiTrigger n k

/-- The body of SPI_TRANSACTION_DONE: the receive buffer, the sample of an IMU (R240), and the next slot. -/
def spiDoneBody (n : Nat) (rx : List Nat) (s : Device) : Device :=
  match SMap.get none s.lsio.spiRun n with
  | none => s
  | some k =>
    let len := 4 * (s.rd 0 (LSIO_SPI_SLOT_WORDS_M1 (n * 16 + k)) + 1)
    let rx' := (List.range len).map fun i => wd rx i % 256
    let s1 := s.setLsio { s.lsio with
      spiRx := ((List.range len).zip rx').foldl (fun m e => SMap.put 0 m ((n * 16 + k) * 64 + e.1) e.2) s.lsio.spiRx
      spiRun := SMap.put none s.lsio.spiRun n none }
    let s2 := if n < 4 ∧ k = 0 ∧ s1.on 0 (INGEST_STREAM_CFG_EN (56 + n)) then s1.imuSample n (rx'.drop (len - 16)) else s1
    s2.spiNext n

/-! ### Output words (R421) -/

/-- Write an output word into the place that its map names. `more` says whether a word is still to be written in this tick. -/
def Device.writeOut (s : Device) (d : Nat) (v : Int) (more : Nat → Bool) : Device :=
  let p := wrapN 32 v
  let s1 := s.setLsio { s.lsio with out := SMap.put 0 s.lsio.out d p }
  let unit := s1.rd 0 (LSIO_OUT_MAP_UNIT d)
  let buf := s1.rd 0 (LSIO_OUT_MAP_BUF d)
  let off := s1.rd 0 (LSIO_OUT_MAP_OFFSET d)
  match s1.outKind d with
  | 1 =>
    let b := unit * 32 + buf
    let n := widthBytes (s1.rd 0 (LSIO_OUT_MAP_WIDTH d))
    let s2 := s1.setLsio { s1.lsio with
      canTx := (List.range n).foldl (fun m i => SMap.put 0 m (b * 2048 + off + i) (p / 256 ^ i % 256)) s1.lsio.canTx }
    if (List.range 256).any fun e => s2.mapsCan b e && more e then s2 else s2.canQueue b
  | 2 =>
    let k := unit * 16 + buf
    let s2 := s1.setLsio { s1.lsio with
      spiTx := (List.range 4).foldl (fun m i => SMap.put 0 m (k * 64 + (off + i) % 64) (p / 256 ^ i % 256)) s1.lsio.spiTx }
    if s2.rd 0 (LSIO_SPI_SLOT_TRIG k) ≠ 0 ∨ (List.range 256).any (fun e => s2.mapsSpi k e && more e) then s2 else s2.spiTrigger unit (buf % 16)
  | 3 =>
    let s2 := s1.setLsio { s1.lsio with pwm := SMap.put 0 s1.lsio.pwm unit (p % 65536) }
    if s2.gpioMode unit = 2 then s2.emit (.field "PWM" unit [p % 65536]) else s2
  | _ => s1

/-! ### Pulse and analogue inputs (R422, R423) -/

/-- The body of PULSE_INPUT_EDGE: an edge that counts up or down, or one at which both pins change. -/
def pulseEdgeBody (n : Nat) (up both : Bool) (s : Device) : Device :=
  if ¬ s.on 0 (LSIO_QEI_CFG_EN n) then s
  else if both ∧ ¬ s.on 0 (LSIO_QEI_CFG_MODE n) then s.addHold 0 (LSIO_QEI_CFG_QERR n) 1
  else s.setLsio { s.lsio with pulse := SMap.put 0 s.lsio.pulse n ((SMap.get 0 s.lsio.pulse n + (if up then 1 else 2 ^ 32 - 1)) % 2 ^ 32) }

/-- The body of ANALOGUE_CONVERSION. -/
def analogueBody (n code : Nat) (s : Device) : Device :=
  s.setLsio { s.lsio with conv := SMap.put [] s.lsio.conv n ((code % 16384 :: SMap.get [] s.lsio.conv n).take 256) }

/-- The latched code of an analogue input: the mean of its latest conversions, rounded to nearest, halves up. -/
def Device.analogueCode (s : Device) (n : Nat) : Nat :=
  let l := (SMap.get [] s.lsio.conv n).take (2 ^ s.rd 0 LSIO_CTL_AVG)
  if l.isEmpty then 0 else (2 * l.foldl (· + ·) 0 + l.length) / (2 * l.length)

/-! ### I²C, UART, GPIO (R424, R429) -/

/-- The body of I2C_START: a write of LSIO_I2C_CMD. -/
def i2cStartBody (n value : Nat) (s : Device) : Device :=
  if bit value 30 ∧ s.on 0 (LSIO_I2C_CMD_BUSY n) then s.lsioRange
  else
    let s1 := (((s.wr 0 (LSIO_I2C_CMD_READ n) (bits value 29 1)).wr 0 (LSIO_I2C_CMD_TEN n) (bits value 28 1)).wr 0
      (LSIO_I2C_CMD_LEN_M1 n) (bits value 16 5)).wr 0 (LSIO_I2C_CMD_ADDR n) (bits value 0 10)
    if ¬ bit value 30 ∨ ¬ s1.on 0 (LSIO_I2C_CFG_EN n) then s1
    else
      let len := bits value 16 5 + 1
      (s1.set 0 (LSIO_I2C_CMD_BUSY n)).emit (.field "I2C" n
        ([bits value 0 10, bits value 28 1, bits value 29 1, len] ++ (if bit value 29 then [] else (SMap.get [] s1.lsio.i2cTx n).take len)))

/-- The body of I2C_DONE: RESULT, and the bytes sent or received. -/
def i2cDoneBody (n result : Nat) (bytes : List Nat) (s : Device) : Device :=
  if ¬ s.on 0 (LSIO_I2C_CMD_BUSY n) then s
  else
    let s1 := (s.clr 0 (LSIO_I2C_CMD_BUSY n)).wr 0 (LSIO_I2C_CMD_RESULT n) result
    let len := s1.rd 0 (LSIO_I2C_CMD_LEN_M1 n) + 1
    if s1.on 0 (LSIO_I2C_CMD_READ n) then
      s1.setLsio { s1.lsio with i2cRx := SMap.put [] s1.lsio.i2cRx n ((SMap.get [] s1.lsio.i2cRx n ++ (bytes.take len).map (· % 256)).take 32) }
    else s1.setLsio { s1.lsio with i2cTx := SMap.put [] s1.lsio.i2cTx n ((SMap.get [] s1.lsio.i2cTx n).drop len) }

/-- A write of LSIO_I2C_DATA pushes a byte, where the 32-byte FIFO has room. -/
def i2cPush (n value : Nat) (s : Device) : Device :=
  let q := SMap.get [] s.lsio.i2cTx n
  if 32 ≤ q.length then s.lsioRange else s.setLsio { s.lsio with i2cTx := SMap.put [] s.lsio.i2cTx n (q ++ [value % 256]) }

/-- The body of I2C_DATA_READ: the oldest received byte, with VALID. -/
def i2cDataReadBody (n : Nat) (s : Device) : Device :=
  match SMap.get [] s.lsio.i2cRx n with
  | [] => s.answer stDONE 0
  | b :: q => (s.setLsio { s.lsio with i2cRx := SMap.put [] s.lsio.i2cRx n q }).answer stDONE (256 + b)

/-- The levels of a UART's FIFOs show in its status. -/
def Device.uartLevels (s : Device) (n : Nat) : Device :=
  (s.wr 0 (LSIO_UART_STATUS_TX_LEVEL n) (SMap.get [] s.lsio.uartTx n).length).wr 0 (LSIO_UART_STATUS_RX_LEVEL n)
    (SMap.get [] s.lsio.uartRx n).length

/-- The body of UART_DATA_WRITE. -/
def uartDataWriteBody (n value : Nat) (s : Device) : Device :=
  let q := SMap.get [] s.lsio.uartTx n
  if 64 ≤ q.length then s.lsioRange
  else (s.setLsio { s.lsio with uartTx := SMap.put [] s.lsio.uartTx n (q ++ [value % 256]) }).uartLevels n

/-- The body of UART_DATA_READ. -/
def uartDataReadBody (n : Nat) (s : Device) : Device :=
  match SMap.get [] s.lsio.uartRx n with
  | [] => s.answer stDONE 0
  | b :: q => ((s.setLsio { s.lsio with uartRx := SMap.put [] s.lsio.uartRx n q }).uartLevels n).answer stDONE (256 + b)

/-- The body of UART_BYTE_RECEIVED: into the FIFO, or counted as an overrun, or as a framing or parity error. -/
def uartByteReceivedBody (n b : Nat) (err : Bool) (s : Device) : Device :=
  if ¬ s.on 0 (LSIO_UART_CFG_EN n) then s
  else if err then s.addHold 0 (LSIO_UART_STATUS_FRAME_ERR n) 1
  else
    let q := SMap.get [] s.lsio.uartRx n
    if 64 ≤ q.length then s.addHold 0 (LSIO_UART_STATUS_OVERRUN n) 1
    else
      let v := if s.on 0 (LSIO_UART_CFG_DATA8 n) then b % 256 else b % 128
      (s.setLsio { s.lsio with uartRx := SMap.put [] s.lsio.uartRx n (q ++ [v]) }).uartLevels n

/-- The body of UART_BYTE_SENT. -/
def uartByteSentBody (n : Nat) (s : Device) : Device :=
  match SMap.get [] s.lsio.uartTx n with
  | [] => s
  | b :: q =>
    if s.on 0 (LSIO_UART_CFG_EN n) then
      ((s.setLsio { s.lsio with uartTx := SMap.put [] s.lsio.uartTx n q }).uartLevels n).emit (.field "UART" n [b])
    else s

/-- The body of IMU_DATA_READY (R240, R429): the edge's time, and the slots it triggers. -/
def imuDataReadyBody (n : Nat) (s : Device) : Device := (s.imuReady n).spiTriggers 1 [n]

end Sys2Proof.Machine
end

