-- ==== Sys2Proof/Machine/Control.lean ====
section
/-!
DEFINITION. The control engines (chapter 14): loop slots and their laws, sources, trajectory streams and the segment queue,
groups, limiters, slot changes, the test generator and capture, and the cycle at every sample edge.
-/
namespace Sys2Proof.Machine

/-! ### Fixed point (R310, R313) -/

/-- Saturation to 32 and to 64 bits. -/
def sat32 (x : Int) : Int := max (-2147483648) (min 2147483647 x)
def sat64 (x : Int) : Int := max (-9223372036854775808) (min 9223372036854775807 x)

/-- The terms of an expression, summed in order in 64 bits, and saturated to int32. -/
def sumTerms (l : List Int) : Int := sat32 (l.foldl (fun a b => sat64 (a + b)) 0)

/-- T(c, s, x). -/
def term (c : Int) (s : Nat) (x : Int) : Int := if s = 0 then c * x else (c * x + 2 ^ (s - 1)) / 2 ^ s

/-- An FP32 value as int32 at a scale, to nearest even (R313). -/
def fixed (v scale : Nat) : Int :=
  match dec32 v with
  | .nan => sat32 (sext 32 (Config.nanFixed v scale))
  | .inf n => if n then -2147483648 else 2147483647
  | .fin n m e =>
    let e' := e + scale
    sat32 (sgn n (if 0 ≤ e' then m * pow2 e' else
      let d := pow2 (-e')
      let q := m / d
      let r := m % d
      if d < 2 * r || (2 * r = d && q % 2 = 1) then q + 1 else q))

/-- An integer at a scale. -/
def scaled (v : Int) (scale : Nat) : Int := sat32 (v * 2 ^ scale)

/-! ### Slot descriptors (R308, R309) -/

/-- First address of a die's region, and of a slot's descriptor. -/
def Device.ctrlBase (s : Device) (die : Nat) : Nat := reflexBase die + s.rd die REFLEX_CTRL_CTL_REGION * 0x200000
def Device.descOf (s : Device) (die n : Nat) : Nat := s.ctrlBase die + n * 0x400

/-- A slot's descriptor as 824 bytes, and its fields. -/
def Device.descriptor (s : Device) (die n : Nat) : List Nat := toBytes (s.readData (s.descOf die n) 824) 824
def slLaw (d : List Nat) : Nat := wd d 0
def slEn (d : List Nat) : Bool := bit (wd d 1) 0
def slTail (d : List Nat) : Bool := bit (wd d 1) 1
def slStopEn (d : List Nat) : Bool := bit (wd d 1) 2
def slDiv (d : List Nat) : Nat := wd d 2 + 1
def slOffset (d : List Nat) : Nat := wd d 3
def slPhaseMark (d : List Nat) : Nat := wd d 4
def slSize (d : List Nat) : Nat := bits (wd d 5) 0 3 + 1
def slInputs (d : List Nat) : Nat := if slLaw d = 3 then bits (wd d 6) 0 2 + 1 else 1
def slOutputs (d : List Nat) : Nat := if slLaw d = 3 then bits (wd d 6) 2 2 + 1 else 1
def slGroup (d : List Nat) : Option Nat := if bit (wd d 7) 7 then some (bits (wd d 7) 0 5) else none
/-- Source `i`: 0 the set-point, 1 the feedback, 2 to 4 state-space inputs 1 to 3. -/
def slSrc (d : List Nat) (i : Nat) : Nat := ofBytes ((d.drop (8 + 4 * i)).take 4)
def slOutCh (d : List Nat) (k : Nat) : Nat := wd d (28 + k)
def slDecel (d : List Nat) : Int := sext 32 (ofBytes ((d.drop 32).take 4))
def slSpScale (d : List Nat) : Nat := bits (wd d 36) 0 5
def slFbScale (d : List Nat) : Nat := bits (wd d 37) 0 5
def slCoef (d : List Nat) (i : Nat) : Int := sext 32 (ofBytes ((d.drop (64 + 4 * i)).take 4))
def slShift (d : List Nat) (i : Nat) : Nat := wd d (672 + i)

/-- T with coefficient `i` of a slot. -/
def slTerm (d : List Nat) (i : Nat) (x : Int) : Int := term (slCoef d i) (slShift d i) x

/-- A slot's STATE words: read and written. PID: I, D, *y*f, *r*f, *e*d,prev. Biquad stage *k*: *x*1, *x*2, *y*1, *y*2 from 4*k*.
State-space: the states. -/
def Device.stWord (s : Device) (die n i : Nat) : Int := sext 32 (s.readData (s.descOf die n + 824 + 4 * i) 4)
def Device.setStWord (s : Device) (die n i : Nat) (v : Int) : Device := s.rxPut die (s.descOf die n + 824 + 4 * i) (wrapN 32 v) 4

/-- A slot's run-time values, and writing them back. -/
def Device.loop (s : Device) (die n : Nat) : Loop := SMap.get {} s.ctrl.loops (die * 128 + n)
def Device.setLoop (s : Device) (die n : Nat) (x : Loop) : Device :=
  { s with ctrl := { s.ctrl with loops := SMap.put {} s.ctrl.loops (die * 128 + n) x } }

/-! ### Channels and limiters (R322, R323) -/

/-- The last value a channel's limiter applied. -/
def Device.lastApplied (s : Device) (die c : Nat) : Int := sext 32 (s.rd die (REFLEX_CTRL_LIM_LAST_VALUE c))

/-- A channel's limiter applies a value: the rate bound, then the absolute bounds, which stand. -/
def Device.limit (s : Device) (die c : Nat) (v : Int) : Device × Int :=
  let p := s.lastApplied die c
  let rate : Int := s.rd die (REFLEX_CTRL_LIM_RATE_VALUE c)
  let v1 := max (p - rate) (min (p + rate) v)
  let v2 := max (sext 32 (s.rd die (REFLEX_CTRL_LIM_MIN_VALUE c))) (min (sext 32 (s.rd die (REFLEX_CTRL_LIM_MAX_VALUE c))) v1)
  let s1 := if v2 = v then s else s.addHold die REFLEX_CTRL_COUNT_LIMITED 1
  (s1.wr die (REFLEX_CTRL_LIM_LAST_VALUE c) (wrapN 32 v2), v2)

/-- The channel that a slot drives, or would take over as its Tail slot. -/
def Device.ownChannel (s : Device) (die n : Nat) (d : List Nat) : Option Nat :=
  if slOutCh d 0 < 16 then some (slOutCh d 0)
  else (List.range 16).find? fun c => s.on die (REFLEX_CTRL_CHAN_TAIL_EN c) && decide (s.rd die (REFLEX_CTRL_CHAN_TAIL_SLOT c) = n)

/-! ### Trajectory streams and the segment queue (R315, R316) -/

/-- An entry that a stream reads from: what names it, its start, point spacing in ns, points, hold, committed, its order, and its
values at a point for the slot's channel. -/
structure Entry where
  key    : Nat
  start  : Nat
  dt     : Nat
  points : Nat
  hold   : Bool
  commit : Bool
  order  : Nat
  value  : Nat → Nat

/-- The VALID, uncancelled entries of a trajectory stream. -/
def Device.streamEntries (s : Device) (die st ch : Nat) : List Entry :=
  ((List.range 4).filter fun k => let f := s.stFlags die st k; bit f 0 && !bit f 2).map fun k =>
    let a := s.streamAddr die st k
    let h := s.readData a 24
    let chans := bits h 112 16 + 1
    { key := k, start := bits h 0 64, dt := bits h 64 32, points := bits h 96 16 + 1, hold := bit (s.stFlags die st k) 3
      commit := bit (s.stFlags die st k) 1, order := SMap.get 0 s.ctrl.order ((die * 16 + st) * 4 + k)
      value := fun p => s.readData (a + 64 + 4 * (p * chans + ch)) 4 }

/-- The entries of the segment queue that carry a joint. -/
def Device.queueEntries (s : Device) (die joint : Nat) : List Entry :=
  ((s.segs die).filter fun x => !x.cancelled && decide (x.first ≤ joint) && decide (joint < x.first + x.joints)).map fun x =>
    { key := x.seq, start := x.tStart, dt := x.dt, points := x.wps, hold := false, commit := x.commit, order := x.seq
      value := fun p => wd x.pos (p * 16 + joint) }

/-- The newer of two entries. -/
def newerEntry (a b : Entry) : Entry := if a.start < b.start ∨ (a.start = b.start ∧ a.order < b.order) then b else a
def newestOf : List Entry → Option Entry
  | [] => none
  | a :: l => some (l.foldl newerEntry a)

/-- The entry in use at a time, and whether a newer uncommitted one is passed over. -/
def entryInUse (l : List Entry) (t : Nat) : Option Entry × Bool :=
  let past := l.filter fun e => decide (e.start ≤ t)
  match newestOf (past.filter (·.commit)) with
  | none => (none, past.any fun e => !e.commit)
  | some e => (some e, past.any fun x => !x.commit && decide ((newerEntry e x).key = x.key))

/-- An entry's value and rate at a time for a slot of a divider, in FP32, and whether the run is past its end. -/
def Device.interpolate (s : Device) (e : Entry) (t div : Nat) : Nat × Nat × Bool :=
  let dt := max 1 e.dt
  let p := (t - e.start) / dt
  if e.points ≤ p + 1 then (e.value (e.points - 1), 0, decide ((e.points - 1) * dt < t - e.start))
  else
    let a := e.value p
    let d := sub32 (e.value (p + 1)) a
    (add32 a (mul32 (div32 (ofInt32 ((t - e.start) % dt)) (ofInt32 dt)) d),
      div32 (mul32 (mul32 d (ofInt32 div)) (ofInt32 s.periodNs)) (ofInt32 dt), false)

/-- The entries a STREAM source reads. -/
def Device.sourceEntries (s : Device) (die src : Nat) : List Entry :=
  if bits src 20 8 = 0x10 then s.queueEntries die (bits src 8 12) else s.streamEntries die (bits src 20 8 % 16) (bits src 8 12)

/-- Entries retire at a sample edge (R316): committed ones older than the entry in use. -/
def Device.retireStreams (s : Device) (die : Nat) : Device :=
  (List.range 16).foldl (fun s st =>
    let l := s.streamEntries die st 0
    match (entryInUse l s.chorus.edgeTime).1 with
    | none => s
    | some e =>
      ((l.filter fun x => x.commit && decide (x.key ≠ e.key) && decide ((newerEntry x e).key = e.key)).foldl (fun s x =>
        (s.rxByte die (s.streamAddr die st x.key + 17) (setBits (s.stFlags die st x.key) 0 1 0)).addWrap die REFLEX_CTRL_STREAM_AUDIT_FREED 1) s)) s

/-- A segment is freed once every joint that it carries has a later committed entry in use. -/
def Device.retireSegments (s : Device) (die : Nat) : Device :=
  let done := fun (x : Segment) => (List.range x.joints).all fun j =>
    match (entryInUse (s.queueEntries die (x.first + j)) s.chorus.edgeTime).1 with
    | some e => decide (e.key ≠ x.seq) && (x.tStart < e.start || (x.tStart = e.start && x.seq < e.order))
    | none => false
  let gone := (s.segs die).filter fun x => x.commit && done x
  ((s.setSegs die ((s.segs die).filter fun x => !(x.commit && done x))).addWrap die DISPATCH_SEG_AUDIT_FREED gone.length).dropResults die gone

/-- A commit sets COMMIT on a tag's stream entries, a cancel frees those that are not committed (R199, R316). -/
def Device.resolveStreams (s : Device) (die tag : Nat) (cancel : Bool) : Device :=
  (List.range 64).foldl (fun s i =>
    let f := s.stFlags die (i / 4) (i % 4)
    let a := s.streamAddr die (i / 4) (i % 4)
    if bit f 0 ∧ ¬ bit f 2 ∧ ¬ bit f 1 ∧ s.byte (a + 16) = tag then
      if cancel then (s.rxByte die (a + 17) (setBits f 2 1 1)).addWrap die REFLEX_CTRL_STREAM_AUDIT_FREED 1
      else s.rxByte die (a + 17) (setBits f 1 1 1)
    else s) s

/-! ### Sources (R312 to R314, R317) -/

/-- The values latched at a sample edge, as every die's input mirror holds them: pulse counts, analogue codes, field words. -/
def Device.mirror (s : Device) (die i : Nat) : Int := sext 32 (s.readData (s.ctrlBase die + 0x20000 + 4 * i) 4)

/-- The input mirror and the joint positions, written on every die (R317, R320) that the bridges reach (R434). -/
def Device.latchInputs (s : Device) : Device :=
  let vals := (List.range 32).map (fun i => SMap.get 0 s.lsio.pulse i) ++ (List.range 16).map s.analogueCode ++
    (List.range 256).map fun i => SMap.get 0 s.lsio.field i
  let pos := (List.range 16).map fun j =>
    let src := s.rd 0 (REFLEX_CTRL_JOINT_SRC_VALUE j)
    let a := bits src 20 8
    let raw := match bits src 28 4 with | 2 => wd vals (a % 32) | 3 => wd vals (32 + a % 16) | 6 => wd vals (48 + a) | _ => 0
    add32 (mul32 (ofInt32 (sext 32 raw)) (s.rd 0 (REFLEX_CTRL_JOINT_SCALE_VALUE j))) (s.rd 0 (REFLEX_CTRL_JOINT_OFFSET_VALUE j))
  (List.range 4).foldl (fun s d =>
    if s.routeUp 0 d then (s.rxPuts d (s.ctrlBase d + 0x20000) vals).rxPuts d (s.ctrlBase d + 0x20800) pos else s) s

/-- The value of a SLOT source, read by slot `j` (R314): of the same run below `j`, as its law gives it, else of the previous run. `prev`
holds the loops as they were before this run. -/
def Device.slotValue (s : Device) (die j src : Nat) (prev : Nat → Loop) : Int :=
  let k := bits src 20 7
  match slGroup (s.descriptor die k) with
  | some _ => (prev k).grp
  | none => (if k < j ∧ (s.loop die k).due then (s.loop die k).u else (prev k).outs).getD (bits src 8 2) 0

/-- The value of a source that is no STREAM, in a slot's units. -/
def Device.sourceValue (s : Device) (die j src scale : Nat) (prev : Nat → Loop) : Int :=
  let a := bits src 20 8
  match bits src 28 4 with
  | 2 => scaled (s.mirror die (a % 32)) scale
  | 3 => scaled (s.mirror die (32 + a % 16)) scale
  | 4 => scaled (s.slotValue die j src prev) scale
  | 5 => scaled (sext 32 (s.rd die (REFLEX_CTRL_HOST_SP_VALUE (a % 64)))) scale
  | 6 => scaled (s.mirror die (48 + a)) scale
  | 7 => fixed (s.jointPos die (a % 16)) scale
  | _ => 0

/-- An input other than the set-point: a STREAM input keeps its value where it has no entry, or a HOLD entry. -/
def Device.inputValue (s : Device) (die j src scale div : Nat) (prev : Nat → Loop) (keep : Int) : Int :=
  if bits src 28 4 = 1 then
    match (entryInUse (s.sourceEntries die src) s.chorus.edgeTime).1 with
    | some e => if e.hold then keep else fixed (s.interpolate e s.chorus.edgeTime div).1 scale
    | none => keep
  else s.sourceValue die j src scale prev

/-- What a source reads of the reflex store: the headers of a stream's entries and the points about the time, a word of the input mirror, or a
joint's position. -/
def Device.sourceReads (s : Device) (die src : Nat) : List (Nat × Nat) :=
  let a := bits src 20 8
  match bits src 28 4 with
  | 1 =>
    if a = 0x10 then (s.segs die).map fun x => (segAddr die x.slot, 576)
    else
      let st := a % 16
      (List.range 4).flatMap fun k =>
        let e := s.streamAddr die st k
        let h := s.readData e 24
        let chans := bits h 112 16 + 1
        let p := (s.chorus.edgeTime - bits h 0 64) / max 1 (bits h 64 32)
        if bit (s.stFlags die st k) 0 then
          (e, 64) :: [min (bits h 96 16) p, min (bits h 96 16) (p + 1)].map fun i => (e + 64 + 4 * (i * chans + bits src 8 12), 4)
        else [(e, 64)]
  | 2 => [(s.ctrlBase die + 0x20000 + 4 * (a % 32), 4)]
  | 3 => [(s.ctrlBase die + 0x20000 + 4 * (32 + a % 16), 4)]
  | 6 => [(s.ctrlBase die + 0x20000 + 4 * (48 + a), 4)]
  | 7 => [(s.jointAddr die (a % 16), 4)]
  | _ => []

/-! ### The set-point (R315, R318) -/

/-- A slot follows the stop ramp. -/
def Device.ramping (s : Device) (die : Nat) (d : List Nat) : Bool :=
  (slStopEn d && decide (bits (slSrc d 0) 28 4 = 1) && s.on die REFLEX_COLL_STATUS_STOP_REQ) ||
  (slTail d && s.on die REFLEX_CTRL_STATUS_TAIL_ACTIVE)

/-- A rate moved towards 0 by DECEL, without passing it. -/
def towards0 (r d : Int) : Int := if 0 < r then max 0 (r - d) else min 0 (r + d)

/-- The set-point, its rate and SP_MODE of a slot's run. -/
def Device.setPoint (s : Device) (die n : Nat) (d : List Nat) (x : Loop) (prev : Nat → Loop) : Device × Loop × Nat :=
  let src := slSrc d 0
  if s.ramping die d then
    let r := towards0 x.rate (slDecel d)
    (s, { x with rate := r, sp := sat32 (x.sp + r), ramp := true, held := none }, 2)
  else if bits src 28 4 ≠ 1 then
    (s, { x with sp := s.sourceValue die n src (slSpScale d) prev, rate := 0, ramp := false, held := none }, 0)
  else
    let u := entryInUse (s.sourceEntries die src) s.chorus.edgeTime
    let s1 := if u.2 then s.addHold die REFLEX_CTRL_COUNT_UNCOMMITTED 1 else s
    match u.1 with
    | none => (s1, { x with rate := 0, ramp := false, held := none }, 1)
    | some e =>
      if e.hold then
        let h := match x.held with | some h => if h.1 = e.order then h else (e.order, x.fb) | none => (e.order, x.fb)
        (s1, { x with sp := h.2, rate := 0, ramp := false, held := some h }, 1)
      else
        let v := s1.interpolate e s1.chorus.edgeTime (slDiv d)
        (if v.2.2 then s1.addHold die REFLEX_CTRL_COUNT_HOLD_END 1 else s1,
          { x with sp := fixed v.1 (slSpScale d), rate := fixed v.2.1 (slSpScale d), ramp := false, held := none }, 0)

/-! ### Injection (R327) -/

/-- A die's test units, and writing them back. -/
def Device.testRun (s : Device) (die : Nat) : TestRun := SMap.get {} s.ctrl.test die
def Device.setTestRun (s : Device) (die : Nat) (x : TestRun) : Device :=
  { s with ctrl := { s.ctrl with test := SMap.put {} s.ctrl.test die x } }

/-- The generator's value at its run, and the generator after it. -/
def Device.injection (s : Device) (die : Nat) (t : TestRun) : Int × TestRun :=
  let amp := sext 32 (s.rd die REFLEX_CTRL_TEST_AMP_VALUE)
  let f0 := s.rd die REFLEX_CTRL_TEST_F0_VALUE
  let f1 := s.rd die REFLEX_CTRL_TEST_F1_VALUE
  let len := s.rd die REFLEX_CTRL_TEST_LEN_LEN_M1
  let next := { t with k := t.k + 1 }
  let wave := sat32 (sineNear amp t.phase (sext 32 (Config.testSine (wrapN 32 amp) t.phase)))
  match s.rd die REFLEX_CTRL_TEST_CFG_WAVE with
  | 0 => (amp, next)
  | 1 => (wave, { next with phase := (t.phase + f0) % 2 ^ 32 })
  | 2 => (wave, { next with phase := wrapN 32 (t.phase + sext 32 f0 + (sext 32 f1 - sext 32 f0) * t.k / (max 1 len : Nat)) })
  | _ =>
    let b := bit t.lfsr 14
    let step := (t.k + 1) % (s.rd die REFLEX_CTRL_TEST_CFG_HOLD_M1 + 1) = 0
    (if b then amp else sat32 (-amp),
      { next with lfsr := if step then (2 * t.lfsr + b2n (bit t.lfsr 14 != bit t.lfsr 13)) % 2 ^ 15 else t.lfsr })

/-- The slot under test, and whether its generator injects in this run. -/
def Device.underTest (s : Device) (die n : Nat) : Bool :=
  (s.testRun die).on && decide (s.rd die REFLEX_CTRL_TEST_CFG_SLOT = n) && decide ((s.testRun die).k ≤ s.rd die REFLEX_CTRL_TEST_LEN_LEN_M1)

/-! ### The laws (R311) -/

/-- A law's evaluation: the loop with its outputs, and the STATE words that it changes now. -/
def Device.evalLaw (s : Device) (die n : Nat) (d : List Nat) (x : Loop) : Loop × List (Nat × Int) :=
  let st := s.stWord die n
  let t := slTerm d
  let r := x.used
  let y := x.fb
  match slLaw d with
  | 1 =>
    let yf := sumTerms [st 2, t 8 (sat32 (y - st 2))]
    let rf := sumTerms [st 3, t 9 (sat32 (r - st 3))]
    let ep := sat32 (t 5 rf - yf)
    let ei := sat32 (rf - yf)
    let ed := sat32 (t 6 rf - yf)
    let dd := sumTerms [t 7 (st 1), t 2 (sat32 (ed - st 4))]
    ({ x with u := [sumTerms [t 0 ep, st 0, dd, t 4 x.rate]], ei := ei }, [(1, dd), (2, yf), (3, rf), (4, ed)])
  | 2 =>
    let run := (List.range (slSize d)).foldl (fun (a : Int × List (Int × Int)) k =>
      let o := sumTerms [t (5 * k) a.1, t (5 * k + 1) (st (4 * k)), t (5 * k + 2) (st (4 * k + 1)), -(t (5 * k + 3) (st (4 * k + 2))),
        -(t (5 * k + 4) (st (4 * k + 3)))]
      (o, a.2 ++ [(a.1, o)])) (sat32 (r - y), [])
    ({ x with u := [run.1], ei := sat32 (r - y), bq := run.2 }, [])
  | _ =>
    let w := (sat32 (r - y) :: x.w).take (slInputs d)
    let u := (List.range (slOutputs d)).map fun i => sumTerms ((List.range (slSize d)).map (fun j => t (96 + 8 * i + j) (st j)) ++
      (List.range (slInputs d)).map fun k => t (128 + 4 * i + k) (w.getD k 0))
    ({ x with u := u, ei := sat32 (r - y) }, [])

/-- The update window of a slot (R311, R319): its states, then their conditioning against the value that its channel applied. -/
def Device.updateSlot (s : Device) (die n : Nat) : Device :=
  let x := s.loop die n
  let d := s.descriptor die n
  let st := s.stWord die n
  let t := slTerm d
  let u0 := x.outs.getD 0 0
  let app := match s.ownChannel die n d with | some c => if s.on die (REFLEX_CTRL_CHAN_EN c) then s.lastApplied die c else u0 | none => u0
  let s1 := match slLaw d with
    | 1 => s.setStWord die n 0 (sumTerms [st 0, t 1 x.ei, t 3 (sat32 (app - u0))])
    | 2 =>
      let s1 := (List.range (slSize d)).foldl (fun (a : Device) k =>
        let v := x.bq.getD k (0, 0)
        (((a.setStWord die n (4 * k) v.1).setStWord die n (4 * k + 1) (st (4 * k))).setStWord die n (4 * k + 2) v.2).setStWord die n (4 * k + 3)
          (st (4 * k + 2))) s
      s1.setStWord die n (4 * (slSize d - 1) + 2) app
    | _ =>
      let w := (sat32 (x.used - x.fb) :: x.w).take (slInputs d)
      (List.range (slSize d)).foldl (fun (a : Device) i =>
        let v := sumTerms ((List.range (slSize d)).map (fun j => t (8 * i + j) (st j)) ++ (List.range (slInputs d)).map fun k => t (64 + 4 * i + k) (w.getD k 0))
        a.setStWord die n i (sumTerms [v, t (144 + i) (sat32 (app - u0))])) s
  s1.setLoop die n { s1.loop die n with due := false, grp := app }

/-- The body of CONTROL_UPDATE_WINDOW. -/
def controlUpdateBody (die : Nat) (s : Device) : Device :=
  (List.range 128).foldl (fun s n => if (s.loop die n).due then s.updateSlot die n else s) s

/-! ### Slot changes (R325, R326) -/

/-- Changes that wait on a die. -/
def Device.slotPend (s : Device) (die : Nat) : List SlotChange := SMap.get [] s.ctrl.pend die
def Device.setSlotPend (s : Device) (die : Nat) (l : List SlotChange) : Device :=
  { s with ctrl := { s.ctrl with pend := SMap.put [] s.ctrl.pend die l } }

/-- A slot's state is cleared, and set so that its output does not jump. -/
def Device.clearSlot (s : Device) (die n : Nat) : Device :=
  let s1 := (List.range 50).foldl (fun s i => s.setStWord die n i 0) (s.setLoop die n {})
  let d := s1.descriptor die n
  let v := match s1.ownChannel die n d with | some c => s1.lastApplied die c | none => 0
  match slLaw d with
  | 1 => s1.setStWord die n 0 v
  | 2 => s1.setStWord die n (4 * (slSize d - 1) + 2) v
  | _ => s1

/-- A change is applied at a sample edge. -/
def Device.applyChange (s : Device) (die : Nat) : SlotChange → Device
  | .enable n on => let s1 := s.wr die (REFLEX_CTRL_SLOT_STATUS_EN n) (b2n on); if on then s1.clearSlot die n else s1
  | .load n keep image =>
    let s1 := ((image.take 824).zip (List.range 824)).foldl (fun (s : Device) e =>
      if 32 ≤ e.2 ∧ e.2 < 36 then s else s.rxByte die (s.descOf die n + e.2) e.1) s
    if keep then s1 else s1.clearSlot die n

/-- A refused control command (R326). -/
def Device.ctrlRefuse (s : Device) (die opcode slot reason : Nat) : Device :=
  (if s.on die REFLEX_CTRL_ERR_VALID then s.set die REFLEX_CTRL_ERR_OVERFLOW
    else (((s.set die REFLEX_CTRL_ERR_VALID).wr die REFLEX_CTRL_ERR_REASON reason).wr die REFLEX_CTRL_ERR_OPCODE opcode).wr die
      REFLEX_CTRL_ERR_SLOT slot).answer stBAD_COMMAND 0

/-- Bits of a command's words that are reserved: word 1 outside `m1`, word 2 outside `m2`, and every later word. -/
def reservedSet (w : List Nat) (m1 m2 : Nat) : Bool :=
  decide (wd w 1 &&& (0xFFFFFFFF ^^^ m1) ≠ 0) || decide (wd w 2 &&& (0xFFFFFFFF ^^^ m2) ≠ 0) || (w.drop 3).any (· ≠ 0)

/-- A slot is enabled or disabled at the next edge, unless it is a TAIL slot. -/
def Device.slotSwitch (s : Device) (die : Nat) (w : List Nat) (on : Bool) : Device :=
  let n := bits (wd w 1) 0 7
  if reservedSet w 0x8000007F 0 then s.ctrlRefuse die 0x60 n 0x40
  else if slTail (s.descriptor die n) then s.ctrlRefuse die 0x60 n 0x41
  else (s.setSlotPend die (s.slotPend die ++ [.enable n on])).answer stDONE 0

/-- The bodies of SLOT_ENABLE and SLOT_DISABLE. -/
def slotEnableBody (die : Nat) (w : List Nat) (s : Device) : Device := s.slotSwitch die w true
def slotDisableBody (die : Nat) (w : List Nat) (s : Device) : Device := s.slotSwitch die w false

/-- A source breaks R312 or R314. -/
def Device.sourceBad (s : Device) (die src : Nat) : Bool :=
  let a := bits src 20 8
  let b := bits src 8 12
  decide (bits src 0 8 ≠ 0) ||
  match bits src 28 4 with
  | 0 => decide (a ≠ 0) || decide (b ≠ 0)
  | 1 => if a = 0x10 then decide (15 < b) else decide (0x0F < a) || decide (4079 < b)
  | 2 => decide (31 < a) || decide (b ≠ 0)
  | 3 => decide (15 < a) || decide (b ≠ 0)
  | 4 =>
    let d := s.descriptor die (a % 128)
    decide (127 < a) || decide (3 < b) || decide (slLaw d = 0) || decide (slOutputs d ≤ b)
  | 5 => decide (63 < a) || decide (b ≠ 0)
  | 6 => decide (b ≠ 0)
  | 7 => decide (15 < a) || decide (b ≠ 0)
  | _ => true

/-- The body of SLOT_LOAD: its checks; the image as it is now takes effect at the next edge. -/
def slotLoadBody (die idx : Nat) (w : List Nat) (s : Device) : Device :=
  let n := bits (wd w 1) 0 7
  let src := bits (wd w 2) 0 24
  let keep := bit (wd w 1) 7
  if reservedSet w 0xFF 0xFFFFFF then s.ctrlRefuse die 0x61 n 0x40
  else if slTail (s.descriptor die n) then s.ctrlRefuse die 0x61 n 0x41
  else if src % 64 ≠ 0 ∨ 0x1000000 < src + 824 then s.ctrlRefuse die 0x61 n 0x42
  else
    match s.rxTouch die [(reflexBase die + src, 824)] with
    | (s1, st) =>
      if st ≠ stDONE then s1.rxFail die idx st
      else
        let im := toBytes (s1.readData (reflexBase die + src) 824) 824
        let d := s1.descriptor die n
        let free := fun (i : Nat) => (8 ≤ i && i < 28) || (32 ≤ i && i < 38) || 64 ≤ i
        if (List.range 824).any fun i => !free i && decide (wd im i ≠ wd d i) then s1.ctrlRefuse die 0x61 n 0x42
        else if (List.range 5).any fun i => s1.sourceBad die (slSrc im i) then s1.ctrlRefuse die 0x61 n 0x43
        else (s1.setSlotPend die (s1.slotPend die ++ [.load n keep im])).answer stDONE 0

/-! ### Test generator and capture (R327, R328) -/

/-- A refused write of the block (R329). -/
def Device.ctrlRange (s : Device) (die : Nat) : Device := s.set die REFLEX_CTRL_STATUS_RANGE_ERR

/-- The body of TEST_GENERATOR_START: a write of TEST_CFG. -/
def testStartBody (die value : Nat) (s : Device) : Device :=
  let point := bits value 29 2
  let lc := s.rd 0 EFT_LC_STATE
  if bit value 31 ∧ (3 ≤ point ∨ (point = 2 ∧ lc ≠ 1 ∧ lc ≠ 4) ∨ slTail (s.descriptor die (bits value 0 7))) then s.ctrlRange die
  else
    let s1 := ((((s.wr die REFLEX_CTRL_TEST_CFG_EN (bits value 31 1)).wr die REFLEX_CTRL_TEST_CFG_POINT point).wr die REFLEX_CTRL_TEST_CFG_WAVE
      (bits value 27 2)).wr die REFLEX_CTRL_TEST_CFG_HOLD_M1 (bits value 19 8)).wr die REFLEX_CTRL_TEST_CFG_SLOT (bits value 0 7)
    let t := s1.testRun die
    if bit value 31 then s1.setTestRun die { t with armed := true, on := false, k := 0, phase := 0, lfsr := 0x7FFF }
    else (s1.setTestRun die { t with armed := false, on := false }).clr die REFLEX_CTRL_STATUS_TEST_ACTIVE

/-- The body of TEST_GENERATOR_END. -/
def testEndBody (die : Nat) (s : Device) : Device :=
  let t := s.testRun die
  if t.on ∧ s.rd die REFLEX_CTRL_TEST_LEN_LEN_M1 < t.k then
    ((s.setTestRun die { t with on := false }).clr die REFLEX_CTRL_TEST_CFG_EN).clr die REFLEX_CTRL_STATUS_TEST_ACTIVE
  else s

/-- The body of CAPTURE_START: a write of CAP_CFG. -/
def captureStartBody (die value : Nat) (s : Device) : Device :=
  if bit value 31 ∧ s.on die REFLEX_CTRL_CAP_STATUS_BUSY then s.ctrlRange die
  else
    let s1 := ((((s.wr die REFLEX_CTRL_CAP_CFG_SIG0 (bits value 28 3)).wr die REFLEX_CTRL_CAP_CFG_SIG1 (bits value 25 3)).wr die
      REFLEX_CTRL_CAP_CFG_SIG2 (bits value 22 3)).wr die REFLEX_CTRL_CAP_CFG_SIG3 (bits value 19 3)).wr die REFLEX_CTRL_CAP_CFG_LEN_M1 (bits value 0 14)
    if bit value 31 then
      ((s1.set die REFLEX_CTRL_CAP_STATUS_BUSY).clr die REFLEX_CTRL_CAP_STATUS_COUNT).setTestRun die { s1.testRun die with capOn := true, capK := 0 }
    else s1

/-- The body of CAPTURE_DONE. -/
def captureDoneBody (die : Nat) (s : Device) : Device :=
  if s.on die REFLEX_CTRL_CAP_STATUS_BUSY ∧ s.rd die REFLEX_CTRL_CAP_CFG_LEN_M1 < s.rd die REFLEX_CTRL_CAP_STATUS_COUNT then
    ((s.clr die REFLEX_CTRL_CAP_STATUS_BUSY).set die REFLEX_CTRL_CAP_STATUS_DONE).setTestRun die { s.testRun die with capOn := false }
  else s

/-- A capture signal (R328). -/
def Device.signal (s : Device) (die n code : Nat) (x : Loop) : Int :=
  match code with
  | 0 => x.used
  | 1 => x.fb
  | 2 => x.ei
  | 3 => x.u.getD 0 0
  | 4 => match s.ownChannel die n (s.descriptor die n) with | some c => s.lastApplied die c | none => x.outs.getD 0 0
  | 5 => x.inj
  | 6 => s.stWord die n 0
  | _ => x.outs.getD 1 0

/-- The capture unit's sample of a run, one in DECIM_M1 + 1. -/
def Device.capture (s : Device) (die : Nat) : Device :=
  let n := s.rd die REFLEX_CTRL_TEST_CFG_SLOT
  let t := s.testRun die
  let x := s.loop die n
  if ¬ t.capOn ∨ ¬ x.due then s
  else
    let count := s.rd die REFLEX_CTRL_CAP_STATUS_COUNT
    let s1 := s.setTestRun die { t with capK := t.capK + 1 }
    if s.rd die REFLEX_CTRL_CAP_CFG_LEN_M1 < count ∨ t.capK % (s.rd die REFLEX_CTRL_CAP_DECIM_DECIM_M1 + 1) ≠ 0 then s1
    else
      (s1.rxPuts die (s1.ctrlBase die + 0x40000 + 16 * count)
        ([REFLEX_CTRL_CAP_CFG_SIG0, REFLEX_CTRL_CAP_CFG_SIG1, REFLEX_CTRL_CAP_CFG_SIG2, REFLEX_CTRL_CAP_CFG_SIG3].map fun f =>
          wrapN 32 (s1.signal die n (s1.rd die f) x))).wr die REFLEX_CTRL_CAP_STATUS_COUNT (count + 1)

/-! ### The cycle (R319, R320, R324) -/

/-- A slot is due in the tick (R307, R324): a TAIL slot in every tick. -/
def Device.slotDue (s : Device) (die n : Nat) : Bool :=
  let d := s.descriptor die n
  s.on die (REFLEX_CTRL_SLOT_STATUS_EN n) && decide (1 ≤ slLaw d) && decide (slLaw d ≤ 3) &&
    (slTail d || decide ((s.chorus.tickNo - 1) % slDiv d = slOffset d))

/-- A due slot's run: set-point, feedback and inputs, then its law. An uncorrectable error in its descriptor or in what its sources read leaves
it unfinished. -/
def Device.runSlot (s : Device) (die n : Nat) (prev : Nat → Loop) : Device :=
  match s.rxTouch die ((s.descOf die n, 1024) :: (List.range (slInputs (s.descriptor die n) + 1)).flatMap fun i =>
    s.sourceReads die (slSrc (s.descriptor die n) i)) with
  | (s0, st) =>
    if st ≠ stDONE then s0
    else
      let d := s0.descriptor die n
      let x0 := s0.loop die n
      let fb := s0.inputValue die n (slSrc d 1) (slFbScale d) (slDiv d) prev x0.fb
      let w := (List.range 3).map fun k => s0.inputValue die n (slSrc d (k + 2)) (slFbScale d) (slDiv d) prev (x0.w.getD k 0)
      let p := s0.setPoint die n d { x0 with fb := fb, w := w } prev
      let s1 := p.1.wr die (REFLEX_CTRL_SLOT_STATUS_SP_MODE n) p.2.2
      let active := s1.underTest die n
      let inj := if active then s1.injection die (s1.testRun die) else (0, s1.testRun die)
      let s2 := if active then s1.setTestRun die inj.2 else s1
      let point := s2.rd die REFLEX_CTRL_TEST_CFG_POINT
      let x1 := { p.2.1 with used := if active ∧ point = 0 then sat32 (p.2.1.sp + inj.1) else p.2.1.sp, inj := inj.1, due := true }
      let e := s2.evalLaw die n d x1
      let outs := if active ∧ point = 1 then sat32 (e.1.u.getD 0 0 + inj.1) :: e.1.u.drop 1
        else if active ∧ point = 2 then inj.1 :: e.1.u.drop 1 else e.1.u
      ((e.2.foldl (fun (s : Device) v => s.setStWord die n v.1 v.2) s2).setLoop die n { e.1 with outs := outs }).addWrap die REFLEX_CTRL_AUDIT_RUN 1

/-- Of the due members of a group, the one whose output is least; the lower slot number on a tie. -/
def Device.winner (s : Device) (die g : Nat) (due : List Nat) : Option Nat :=
  (due.filter fun n => slGroup (s.descriptor die n) = some g).foldl (fun (m : Option Nat) n =>
    match m with
    | none => some n
    | some b => if (s.loop die n).u.getD 0 0 < (s.loop die b).u.getD 0 0 then some n else some b) none

/-- What drives a channel in this tick: a value with its mark, or none at mark 255 towards SAFE. -/
def Device.driver (s : Device) (die c : Nat) (due : List Nat) : Option (Nat × Option Int) :=
  if ¬ s.on die (REFLEX_CTRL_CHAN_EN c) then none
  else if s.on die REFLEX_CTRL_STATUS_TAIL_ACTIVE then
    if s.on die (REFLEX_CTRL_CHAN_TAIL_EN c) then
      let n := s.rd die (REFLEX_CTRL_CHAN_TAIL_SLOT c)
      if due.contains n then some (slPhaseMark (s.descriptor die n), some ((s.loop die n).outs.getD 0 0)) else none
    else some (255, none)
  else
    due.findSome? fun n =>
      let d := s.descriptor die n
      match slGroup d with
      | some g => if slOutCh d 0 = c ∧ s.winner die g due = some n then some (slPhaseMark d, some ((s.loop die n).outs.getD 0 0)) else none
      | none => (((List.range (slOutputs d)).find? fun k => decide (slOutCh d k = c)).map fun k => (slPhaseMark d, some ((s.loop die n).outs.getD k 0)))

/-- Outputs of a die that wait for their marks. -/
def Device.waitingOuts (s : Device) (die : Nat) : List (Nat × Nat × Option Int) := SMap.get [] s.ctrl.outs die
def Device.setWaitingOuts (s : Device) (die : Nat) (l : List (Nat × Nat × Option Int)) : Device :=
  { s with ctrl := { s.ctrl with outs := SMap.put [] s.ctrl.outs die l } }

/-- A channel takes its driver's value through its limiter, and waits for its mark. -/
def Device.driveChannel (s : Device) (die : Nat) (due : List Nat) (c : Nat) : Device :=
  match s.driver die c due with
  | none => s
  | some (mark, some v) => let x := s.limit die c v; x.1.setWaitingOuts die (x.1.waitingOuts die ++ [(c, mark, some x.2)])
  | some (mark, none) => s.setWaitingOuts die (s.waitingOuts die ++ [(c, mark, none)])

/-- A slot that reads a stream latches its feedback at the first edge at which a HOLD entry is in use, whether or not it is due (R315). -/
def Device.latchHold (s : Device) (die n : Nat) (prev : Nat → Loop) : Device :=
  let d := s.descriptor die n
  let x := s.loop die n
  if ¬ s.on die (REFLEX_CTRL_SLOT_STATUS_EN n) ∨ slLaw d = 0 ∨ bits (slSrc d 0) 28 4 ≠ 1 then s
  else match (entryInUse (s.sourceEntries die (slSrc d 0)) s.chorus.edgeTime).1 with
    | none => s
    | some e =>
      if e.hold ∧ x.held.map (·.1) ≠ some e.order then
        s.setLoop die n { x with held := some (e.order, s.inputValue die n (slSrc d 1) (slFbScale d) (slDiv d) prev x.fb) }
      else s

/-- The control cycle of a die at a sample edge, up to its results (R320). -/
def Device.controlCycle (s : Device) (die : Nat) : Device :=
  let s1 := (s.slotPend die).foldl (fun s c => s.applyChange die c) s
  let s2 := s1.setSlotPend die []
  let s3 := (List.range 128).foldl (fun s n => if (s.loop die n).due then s.setLoop die n { s.loop die n with due := false } else s) s2
  let due := (List.range 128).filter (s3.slotDue die)
  let prev := s3.loop die
  let t := s3.testRun die
  let first := due.contains (s3.rd die REFLEX_CTRL_TEST_CFG_SLOT)
  let s4 := if t.armed ∧ first then (s3.setTestRun die { t with armed := false, on := true }).set die REFLEX_CTRL_STATUS_TEST_ACTIVE else s3
  let s5 := (List.range 128).foldl (fun s n => if due.contains n then s.runSlot die n prev else s.latchHold die n prev)
    (s4.addWrap die REFLEX_CTRL_AUDIT_DUE due.length)
  let s6 := due.foldl (fun s n =>
    match slGroup (s.descriptor die n) with
    | some g => s.wr die (REFLEX_CTRL_SLOT_STATUS_WON n) (b2n (s.winner die g due = some n))
    | none => s) s5
  let s7 := (List.range 16).foldl (fun s c => s.driveChannel die due c) (s6.setWaitingOuts die [])
  let s8 := s7.wr die REFLEX_CTRL_STATUS_STOP_ACTIVE (b2n ((List.range 128).any fun n => s7.on die (REFLEX_CTRL_SLOT_STATUS_EN n) && (s7.loop die n).ramp))
  let s9 := s8.capture die
  if s9.rd die REFLEX_CTRL_AUDIT_DUE = s9.rd die REFLEX_CTRL_AUDIT_RUN then
    { s9 with safety := { s9.safety with
        kicks := s9.safety.kicks ++ [(die, 4, 0, 2048)]
        results := SMap.put 0 s9.safety.results ((die * 8 + 4) * 65536) (s9.chorus.edgeTime + 1) } }
  else s9

/-- The control engines' part of a sample edge. Resolves have been applied. -/
def Device.controlEdge (s : Device) : Device :=
  (List.range 4).foldl (fun s d => ((s.retireStreams d).retireSegments d).controlCycle d) s.latchInputs

/-! ### Output-phase marks (R42, R321) -/

/-- An output word is still to be written in this tick. -/
def Device.outWaits (s : Device) (d : Nat) : Bool :=
  (List.range 4).any fun die => (s.waitingOuts die).any fun o => decide (s.rd die (REFLEX_CTRL_CHAN_DEST o.1) = d)

/-- A channel's value is written at its mark, if the bridges carry it to die 0 (R320, R434), and the OUTPUT watchdog kicked (R348). -/
def Device.writeChannel (s : Device) (die c : Nat) (v : Option Int) : Device :=
  let x := match v with
    | some v => (s, v)
    | none => s.limit die c (sext 32 (s.rd die (REFLEX_CTRL_LIM_SAFE_VALUE c)))
  if ¬ s.routeUp die 0 then x.1 else
  let s1 := x.1.writeOut (x.1.rd die (REFLEX_CTRL_CHAN_DEST c)) x.2 x.1.outWaits
  if s1.lastApplied die c = x.2 then s1.kick die 5 c s1.chorus.time else s1

/-- The body of OUTPUT_PHASE_MARK: the outputs due at a mark, channel by channel. -/
def outputMarkBody (mark : Nat) (s : Device) : Device :=
  (List.range 4).foldl (fun s die =>
    (List.range 16).foldl (fun s c =>
      match (s.waitingOuts die).find? fun o => decide (o.1 = c) && decide (o.2.1 = mark) with
      | none => s
      | some o => (s.setWaitingOuts die ((s.waitingOuts die).filter fun p => p ≠ o)).writeChannel die c o.2.2) s) s

end Sys2Proof.Machine
end

