-- ==== Sys2Proof/Machine/Islands.lean ====
section
/-!
DEFINITION. The safety islands (chapter 15): lockstep, verdicts, the emergency stop, the Tail's states, resumes, watchdogs and the
age monitor, and golden frames.
-/
namespace Sys2Proof.Machine

/-- The islands that run: on die 0 and die 1. -/
def Device.islands (s : Device) : List Nat := [0, 1].filter fun i => !(s.island i).stopped

/-- Ticks since ready (R333, R349). -/
def Device.readyTick (s : Device) : Nat := s.chorus.tickNo - 1

/-- An island closes its switches on both safe-state outputs, which go high while both islands' are closed (R334). -/
def Device.raiseOut (s : Device) (i : Nat) : Device :=
  let s1 := s.setIsland i { s.island i with closed := true }
  if (s1.island 0).closed ∧ (s1.island 1).closed ∧ ¬ s1.on 0 SAFETY_STATUS_OUT0 then
    (((((s1.set 0 SAFETY_STATUS_OUT0).set 0 SAFETY_STATUS_OUT1).set 1 SAFETY_STATUS_OUT0).set 1 SAFETY_STATUS_OUT1).emit
      (.pin "SAFE_OUT0" 1)).emit (.pin "SAFE_OUT1" 1)
  else s1

/-- The ego speed (R338) is below STILL_MMS: by the velocity of the ego record. -/
def Device.still (s : Device) (i : Nat) : Bool :=
  let v := fun k => ratOf (wd s.fusion.ego k)
  let lim : Rat := (s.rd i SAFETY_TAIL_CFG_STILL_MMS : Rat) / 1000
  decide (v 3 * v 3 + v 4 * v 4 + v 5 * v 5 < lim * lim)

/-! ### Lockstep and the emergency stop (R332, R335) -/

/-- The body of LOCKSTEP_MISMATCH: the island latches the cause, opens its switches, sets TAIL_ACTIVE and stops. -/
def lockstepBody (i : Nat) (s : Device) : Device :=
  if (s.island i).stopped then s
  else
    let s1 := ((s.islandFault i cLOCKSTEP i 0).dropOut i).tailActive
    s1.setIsland i { s1.island i with stopped := true }

/-- The body of ESTOP_SAMPLE: both islands sample the pin; four low samples in a row raise ESTOP. -/
def estopBody (low : Bool) (s : Device) : Device :=
  let s1 := s.islands.foldl (fun s i =>
    (s.setIsland i { s.island i with estopLow := if low then min 4 ((s.island i).estopLow + 1) else 0 }).wr i SAFETY_STATUS_ESTOP (b2n low)) s
  let hit := s1.islands.filter fun i => low && decide ((s.island i).estopLow = 3)
  if hit.isEmpty then s1 else (hit.foldl (fun s i => s.islandFault i cESTOP 0 0) s1).tailActive

/-! ### The Tail (R338, R341, R342) -/

/-- Every Tail slot is at ramp rate 0, every other channel at SAFE, and the robot still. -/
def Device.standstill (s : Device) (i : Nat) : Bool :=
  s.still i && (List.range 4).all fun d =>
    ((List.range 128).all fun n => !(slTail (s.descriptor d n) && s.on d (REFLEX_CTRL_SLOT_STATUS_EN n)) || decide ((s.loop d n).rate = 0)) &&
    (List.range 16).all fun c => !s.on d (REFLEX_CTRL_CHAN_EN c) || s.on d (REFLEX_CTRL_CHAN_TAIL_EN c) ||
      decide (s.rd d (REFLEX_CTRL_LIM_LAST_VALUE c) = s.rd d (REFLEX_CTRL_LIM_SAFE_VALUE c))

/-- Something is nearer than NEAR_MM by a designated radar or proximity stream. -/
def Device.tooNear (s : Device) (i : Nat) : Bool :=
  !s.still i && allStreams.any fun g =>
    s.on (g / 64) (INGEST_STREAM_CFG_SAFETY_SET (g % 64)) && (decide (s.modality g = 3) || decide (s.modality g = 4)) &&
    (List.range 16).any fun k => decide (s.nearAt g k * 10 < s.rd i SAFETY_TAIL_CFG_NEAR_MM)

/-- A stream that SAFETY_STREAM watches is at fault (R342). -/
def Device.streamFault (s : Device) (g : Nat) : Bool :=
  let d := g / 64
  let n := g % 64
  s.on d (INGEST_STREAM_CFG_SAFETY_SET n) && (decide (s.rd d (INGEST_STREAM_STATE_STATE n) = 3) ||
    (s.on d (INGEST_STREAM_STATE_DISPUTED n) && (List.range 16).any fun k =>
      s.covers g k && !allStreams.any fun h =>
        s.counting h && s.on (h / 64) (INGEST_STREAM_CFG_SAFETY_SET (h % 64)) && decide (s.modality h ≠ s.modality g) && s.covers h k))

/-- The Tail's standstill drops both outputs: with SAFE_DROP = 1, and after an emergency stop, of which category 1 is left here (R335). -/
def Device.dropsAtRest (s : Device) (i : Nat) : Bool := s.on i SAFETY_CTL_SAFE_DROP || bit (s.rd i SAFETY_STATUS_CAUSES) (cESTOP - 1)

/-- An island's Tail at a sample edge. -/
def Device.tailEdge (s : Device) (i : Nat) : Device :=
  if s.rd i SAFETY_STATUS_TAIL_STATE = 2 then
    if s.dropsAtRest i then (s.wr i SAFETY_STATUS_TAIL_STATE 3).dropOut i else s
  else if s.rd i SAFETY_STATUS_TAIL_STATE ≠ 1 then s
  else
    let s1 := s.setIsland i { s.island i with stopTicks := (s.island i).stopTicks + 1 }
    if s1.tooNear i then (s1.wr i SAFETY_STATUS_TAIL_STATE 3).dropOut i
    else if s1.standstill i then
      if s1.dropsAtRest i then (s1.wr i SAFETY_STATUS_TAIL_STATE 3).dropOut i else s1.wr i SAFETY_STATUS_TAIL_STATE 2
    else s1

/-- The body of TAIL_STOP_TIMEOUT: STOP_TICKS ticks in STOPPING drop both outputs. -/
def tailTimeoutBody (s : Device) : Device :=
  s.islands.foldl (fun s i =>
    if s.rd i SAFETY_STATUS_TAIL_STATE = 1 ∧ s.rd i SAFETY_CTL_STOP_TICKS ≤ (s.island i).stopTicks then
      (s.wr i SAFETY_STATUS_TAIL_STATE 3).dropOut i
    else s) s

/-! ### Resumes (R344) -/

/-- A partner of this device's SYNC_OP group reports an active Tail, or is lost (R337). -/
def Device.partnerTail (s : Device) : Bool :=
  match s.syncOpGroup with
  | none => false
  | some g => (List.range 4).any fun d =>
      g.2.contains (s.rd d OLINER_STATUS_PARTNER_ID) &&
      (decide (s.rd d OLINER_STATUS_STATE = 3) || (SMap.get ({} : OlPort) s.oliner.ports d).tail)

/-- The condition behind a latched cause is absent on an island. -/
def Device.causeGone (s : Device) (i cause : Nat) : Bool :=
  let wdgs := (List.range 16).filter fun n => s.on i (SAFETY_WDG_CFG_EN n)
  match cause with
  | 3 => wdgs.all fun n => decide (SMap.get 0 (s.island i).misses n ≤ s.rd i (SAFETY_WDG_CFG_TOL n))
  | 4 => wdgs.all fun n => !s.on i (SAFETY_WDG_STATUS_REJECTED n)
  | 6 => !s.on i SAFETY_GOLDEN_STATUS_PENDING
  | 8 => s.on 0 FUSION_STATUS_EGO_VALID
  | 10 => !s.on i SAFETY_STATUS_ESTOP
  | 12 => !s.on 0 DEBUG_STATUS_HALT_PENDING
  | 13 => allStreams.all fun g => !s.on (g / 64) (INGEST_STREAM_CFG_SAFETY_SET (g % 64)) || s.counting g
  | 14 => !s.partnerTail
  | _ => false

/-- A resume's conditions hold. -/
def Device.resumeOk (s : Device) : Bool :=
  [0, 1].all fun i =>
    !(s.island i).stopped && decide (2 ≤ s.rd i SAFETY_STATUS_TAIL_STATE) && s.on i SAFETY_STATUS_RECOVERABLE &&
    (List.range 15).all fun c => !bit (s.rd i SAFETY_STATUS_CAUSES) c || s.causeGone i (c + 1)

/-- A resume request arrives: accepted for the next sample edge, or ignored with RANGE_ERR. -/
def Device.resumeRequest (s : Device) : Device :=
  if s.resumeOk then [0, 1].foldl (fun s i => s.setIsland i { s.island i with resume := true }) s
  else (s.set 0 SAFETY_STATUS_RANGE_ERR)

/-- The body of SAFETY_RESUME: the two keys within one tick. -/
def safetyResumeBody (die value : Nat) (s : Device) : Device :=
  if die ≠ 0 then s
  else
    let k := bits value 0 16
    let x := s.island 0
    if k = 0xA5A5 ∧ x.keyed then
      let s1 := s.setIsland 0 { x with keyed := false }
      if s.on 0 SAFETY_CTL_RESUME_SRC then s1 else s1.resumeRequest
    else s.setIsland 0 { x with keyed := decide (k = 0x5A5A) }

/-- The body of RESUME_GPIO_EDGE. -/
def resumeGpioBody (s : Device) : Device := if s.on 0 SAFETY_CTL_RESUME_SRC then s.resumeRequest else s

/-- An accepted resume takes effect. -/
def Device.resumeEdge (s : Device) : Device :=
  if ¬ (s.island 0).resume then s
  else
    let s1 := [0, 1].foldl (fun s i =>
      let s1 := [SAFETY_STATUS_CAUSES, SAFETY_FAULT_VALID, SAFETY_FAULT_CAUSE, SAFETY_FAULT_DIE, SAFETY_FAULT_DETAIL, SAFETY_FAULT_TIME_LO_TIME,
        SAFETY_FAULT_TIME_HI_TIME].foldl (fun s f => s.clr i f) s
      let s2 := ((s1.set i SAFETY_STATUS_RECOVERABLE).wr i SAFETY_STATUS_MODE 3).wr i SAFETY_STATUS_TAIL_STATE 0
      (s2.setIsland i { s2.island i with resume := false, startTicks := 0, freshTicks := 0 }).raiseOut i) s
    s1.leaveF4

/-! ### Modes (R345 to R347) -/

/-- TAIL_ACTIVE is cleared everywhere (R346). -/
def Device.tailInactive (s : Device) : Device :=
  ((List.range 4).foldl (fun s d => s.clr d REFLEX_CTRL_STATUS_TAIL_ACTIVE) s).clr 0 SAFETY_STATUS_TAIL_ACTIVE |>.clr 1 SAFETY_STATUS_TAIL_ACTIVE

/-- An island in START or RECOVER. -/
def Device.starting (s : Device) (i : Nat) : Bool := let m := s.rd i SAFETY_STATUS_MODE; m = 0 || m = 3

/-- START and RECOVER at a sample edge: a fresh run leaves them, unless a cause has latched meanwhile, which only a resume clears (DEDUCED, 229);
their ticks are counted. -/
def Device.modeEdge (s : Device) : Device :=
  let ok := s.islands.all fun i => s.starting i && decide (s.rd i SAFETY_STATUS_CAUSES = 0) &&
    decide (s.rd i SAFETY_AGE_CFG_FRESH_TICKS ≤ (s.island i).freshTicks)
  if ok ∧ ¬ s.islands.isEmpty then
    s.islands.foldl (fun s i =>
      let s1 := (s.wr i SAFETY_STATUS_TAIL_STATE 0).wr i SAFETY_STATUS_MODE 1
      let s2 := (List.range 16).foldl (fun s n => s.clr i (SAFETY_WDG_STATUS_MISSES n)) s1
      (s2.setIsland i { s2.island i with misses := [], freshTicks := 0, startTicks := 0 }).raiseOut i) s.tailInactive
  else
    s.islands.foldl (fun s i => if s.starting i then s.setIsland i { s.island i with startTicks := (s.island i).startTicks + 1 } else s) s

/-- The body of AGE_TIMEOUT. -/
def ageTimeoutBody (s : Device) : Device :=
  if s.islands.any fun i => s.starting i && decide (s.rd i SAFETY_AGE_CFG_START_TICKS ≤ (s.island i).startTicks) then s.raiseCause cAGE 0 0 else s

/-- F4 ends in START (R347). -/
def Device.startF4 (s : Device) : Device :=
  if s.rd 0 SAFETY_STATUS_MODE = 0 ∧ s.rd 0 FUSION_STATUS_LEVEL = 4 ∧ s.on 0 FUSION_STATUS_EGO_VALID ∧ s.rd 0 FUSION_STATUS_F4_CAUSE = 1 then s.leaveF4 else s

/-- The islands' part of a sample edge. -/
def Device.safetyEdge (s : Device) : Device :=
  let s1 := [0, 1].foldl (fun s i => s.setIsland i { s.island i with keyed := false }) s.resumeEdge
  let s2 := (s1.islands.foldl Device.tailEdge s1).startF4.modeEdge
  if s2.rd 0 SAFETY_STATUS_MODE = 1 ∨ s2.rd 1 SAFETY_STATUS_MODE = 1 then
    match allStreams.find? s2.streamFault with
    | some g => s2.raiseCause cSAFETY_STREAM (g / 64) (g % 64)
    | none => s2
  else s2

/-! ### Watchdogs and the age monitor (R348, R349) -/

/-- The kicks that watchdog `n` of an island sees, in order of arrival. -/
def Device.kicksOf (s : Device) (i n : Nat) : List Nat :=
  let st := s.rd i (SAFETY_WDG_CFG_STAGE n)
  (s.safety.kicks.filter fun k => decide (k.1 = s.rd i (SAFETY_WDG_CFG_DIE n)) && decide (k.2.1 = st) &&
    (st = 0 || st = 1 || st = 4 || decide (k.2.2.1 = s.rd i (SAFETY_WDG_CFG_UNIT n)))).map (·.2.2.2)

/-- A watchdog's verdict in RUN: 0 nothing, 1 kicked in its window, 2 early, extra or undue, 3 missed or late. -/
def Device.wdgVerdict (s : Device) (i n : Nat) : Nat :=
  let ks := s.kicksOf i n
  let opens := 16 * s.rd i (SAFETY_WDG_WIN_OPEN_16 n)
  let closes := 16 * s.rd i (SAFETY_WDG_WIN_CLOSE_16 n)
  if s.readyTick % (s.rd i (SAFETY_WDG_CFG_EVERY_M1 n) + 1) = s.rd i (SAFETY_WDG_CFG_PHASE n) then
    match ks with
    | [] => 3
    | [k] => if k < opens then 2 else if closes < k then 3 else 1
    | _ => 2
  else if ks.isEmpty then 0 else 2

/-- One more miss; past TOL a fault is raised, unless the Tail is active (R343). -/
def Device.wdgMiss (s : Device) (i n cause : Nat) : Device :=
  let m := SMap.get 0 (s.island i).misses n + 1
  let s1 := (s.setIsland i { s.island i with misses := SMap.put 0 (s.island i).misses n m }).wr i (SAFETY_WDG_STATUS_MISSES n) (min 3 m)
  if s.rd i (SAFETY_WDG_CFG_TOL n) < m ∧ ¬ s.on i SAFETY_STATUS_TAIL_ACTIVE then (s1.islandFault i cause (s.rd i (SAFETY_WDG_CFG_DIE n)) n).tailActive
  else s1
def Device.wdgHit (s : Device) (i n : Nat) : Device :=
  (s.setIsland i { s.island i with misses := SMap.put 0 (s.island i).misses n 0 }).clr i (SAFETY_WDG_STATUS_MISSES n)

/-- A stage's latest result is too old, or there is none. -/
def Device.tooOld (s : Device) (i n : Nat) : Bool :=
  let st := s.rd i (SAFETY_WDG_CFG_STAGE n)
  let u := if st = 0 ∨ st = 1 ∨ st = 4 then 0 else s.rd i (SAFETY_WDG_CFG_UNIT n)
  match SMap.get 0 s.safety.results ((s.rd i (SAFETY_WDG_CFG_DIE n) * 8 + st) * 65536 + u) with
  | 0 => true
  | t + 1 => decide (t + 1000 * s.rd i (SAFETY_WDG_AGE_LIMIT_US n) < s.chorus.edgeTime)

/-- Evaluate one watchdog at the safety-window start. -/
def Device.evalWdg (s : Device) (i n : Nat) : Device :=
  if ¬ s.on i (SAFETY_WDG_CFG_EN n) then s
  else
    let ks := s.kicksOf i n
    let s0 := match ks.getLast? with | some k => s.wr i (SAFETY_WDG_STATUS_KICK_RC n) k | none => s
    if s.rd i SAFETY_STATUS_MODE = 1 then
      match s.wdgVerdict i n with
      | 0 => s0
      | 1 => (s0.wr i (SAFETY_WDG_STATUS_LAST n) 1).wdgHit i n
      | v => (s0.wr i (SAFETY_WDG_STATUS_LAST n) v).wdgMiss i n cWATCHDOG
    else
      let old := s.tooOld i n
      let s1 := s0.wr i (SAFETY_WDG_STATUS_REJECTED n) (b2n old)
      if s.rd i SAFETY_STATUS_MODE ≠ 2 then s1 else if old then s1.wdgMiss i n cAGE else s1.wdgHit i n

/-- Every enabled watchdog's stage is healthy: its result is not rejected, and fusion is below F4 in START (R346, R347). -/
def Device.healthy (s : Device) (i : Nat) : Bool :=
  (List.range 16).all fun n => !s.on i (SAFETY_WDG_CFG_EN n) ||
    (!s.on i (SAFETY_WDG_STATUS_REJECTED n) &&
      !(decide (s.rd i (SAFETY_WDG_CFG_STAGE n) = 1) && decide (s.rd i SAFETY_STATUS_MODE = 0) && decide (s.rd 0 FUSION_STATUS_LEVEL = 4)))

/-! ### Golden frames (R350, R351) -/

/-- The tick carries a golden frame: by the schedule, or because one was deferred. -/
def Device.goldenTick (s : Device) : Bool :=
  s.on 0 SAFETY_GOLDEN_STATUS_PENDING ||
  (s.on 0 SAFETY_GOLDEN_CFG_EN && decide (s.tick = s.rd 0 SAFETY_GOLDEN_CFG_TICK) &&
    decide (s.rd 0 CHORUS_FRAME_COUNT_FRAMES % (s.rd 0 SAFETY_GOLDEN_CFG_EVERY_M1 + 1) = 0))

/-- The golden areas of a die (R351). -/
def Device.goldenAreas (s : Device) (die : Nat) : Nat × Nat :=
  (reflexBase die + 0x10000 * s.rd 0 SAFETY_GOLDEN_AREA_REFLEX_64K, fusionBase die + 0x10000 * s.rd 0 SAFETY_GOLDEN_AREA_FUSION_64K)

/-- The golden work of every die reads its areas: errors are met there as by any reader of a store (R65, R69). -/
def Device.goldenReads (s : Device) : Device :=
  if s.pond.ecc = [] then s
  else (List.range 4).foldl (fun (s : Device) d =>
    ((s.readChk d mReflex (s.goldenAreas d).1 0x40000).1.readChk d mFusion (s.goldenAreas d).2 0x40000).1) s

/-- The golden CRC of a stage of a die, from the bytes of its golden areas. -/
def Device.goldenGot (s : Device) (die stage : Nat) : Nat :=
  Config.goldenCrc die stage (s.readWords (s.goldenAreas die).1 65536 ++ s.readWords (s.goldenAreas die).2 65536) % 2 ^ 32

/-- The numbers of SAFETY_GOLD_EXP and SAFETY_GOLD_GOT in use: die × 8 + stage. -/
def goldNums : List Nat := (List.range 32).filter fun n => decide (n % 8 < 6)

/-- The body of GOLDEN_SLOT_START: the golden frame runs, or is deferred by a slice that still runs; a second deferral raises
GOLDEN_DEFER. -/
def goldenSlotBody (s : Device) : Device :=
  if ¬ s.goldenTick then s
  else if s.chorus.slices.any fun x => x.started && decide (1 ≤ x.kind) && decide (x.kind ≤ 4) then
    let second := s.on 0 SAFETY_GOLDEN_STATUS_PENDING
    let s1 := [0, 1].foldl (fun s i => (s.addHold i SAFETY_GOLDEN_STATUS_DEFERRED 1).wr i SAFETY_GOLDEN_STATUS_PENDING (b2n (!second))) s
    if second then s1.raiseCause cGOLDEN_DEFER 0 0 else s1
  else
    let s1 := goldNums.foldl (fun t n => let c := s.goldenGot (n / 8) (n % 8); (t.wr 0 (SAFETY_GOLD_GOT_CRC n) c).wr 1 (SAFETY_GOLD_GOT_CRC n) c) s.goldenReads
    [0, 1].foldl (fun s i =>
      ((s.clr i SAFETY_GOLDEN_STATUS_PENDING).addHold i SAFETY_GOLDEN_STATUS_RUN 1).setIsland i { s.island i with golden := true }) s1

/-- An island compares the golden results of a tick in which a golden frame ran. -/
def Device.goldenCompare (s : Device) (i : Nat) : Device :=
  if ¬ (s.island i).golden then s
  else
    let s1 := s.setIsland i { s.island i with golden := false }
    match goldNums.find? fun n => decide (s.rd i (SAFETY_GOLD_GOT_CRC n) ≠ s.rd i (SAFETY_GOLD_EXP_CRC n)) with
    | none => s1.set i SAFETY_GOLDEN_STATUS_LAST_PASS
    | some n => ((s1.clr i SAFETY_GOLDEN_STATUS_LAST_PASS).islandFault i cGOLDEN_MISMATCH (n / 8) 0).tailActive

/-! ### The safety window (R333, R334) -/

/-- What the digest of a verdict covers: the SAFETY configuration of the island's block and the limiters of all dies. -/
def Device.configWords (s : Device) (i : Nat) : List Nat :=
  [s.word i [SAFETY_CTL_LOCK, SAFETY_CTL_PARTNER_EN, SAFETY_CTL_SAFE_DROP, SAFETY_CTL_ESTOP_CAT, SAFETY_CTL_RESUME_SRC, SAFETY_CTL_RESUME_GPIO,
      SAFETY_CTL_STOP_TICKS],
    s.word i [SAFETY_GOLDEN_CFG_EN, SAFETY_GOLDEN_CFG_EVERY_M1, SAFETY_GOLDEN_CFG_TICK], s.word i [SAFETY_GOLDEN_AREA_REFLEX_64K, SAFETY_GOLDEN_AREA_FUSION_64K],
    s.word i [SAFETY_AGE_CFG_FRESH_TICKS, SAFETY_AGE_CFG_START_TICKS], s.word i [SAFETY_TAIL_CFG_NEAR_MM, SAFETY_TAIL_CFG_STILL_MMS]] ++
  (List.range 32).map (fun n => s.rd i (SAFETY_GOLD_EXP_CRC n)) ++
  (List.range 16).flatMap (fun n =>
    [s.word i [SAFETY_WDG_CFG_EN n, SAFETY_WDG_CFG_STAGE n, SAFETY_WDG_CFG_DIE n, SAFETY_WDG_CFG_TOL n, SAFETY_WDG_CFG_EVERY_M1 n, SAFETY_WDG_CFG_PHASE n,
      SAFETY_WDG_CFG_UNIT n], s.word i [SAFETY_WDG_WIN_OPEN_16 n, SAFETY_WDG_WIN_CLOSE_16 n], s.rd i (SAFETY_WDG_AGE_LIMIT_US n)]) ++
  (List.range 64).flatMap fun k =>
    [REFLEX_CTRL_LIM_MIN_VALUE (k % 16), REFLEX_CTRL_LIM_MAX_VALUE (k % 16), REFLEX_CTRL_LIM_RATE_VALUE (k % 16), REFLEX_CTRL_LIM_SAFE_VALUE (k % 16)].map
      fun f => s.rd (k / 16) f

/-- An island's verdict record, as sixteen words: ticks since ready, MODE and TAIL_STATE, CAUSES, the watchdogs' results, the golden results,
the digest, and zeros. -/
def Device.verdictOf (s : Device) (i : Nat) : List Nat :=
  let wdg := fun lo => (List.range 8).foldl (fun m k =>
    m + 16 ^ k * (s.rd i (SAFETY_WDG_STATUS_LAST (lo + k)) + 4 * s.rd i (SAFETY_WDG_STATUS_REJECTED (lo + k)))) 0
  let gold := goldNums.foldl (fun m n => m + 2 ^ n * b2n (decide (s.rd i (SAFETY_GOLD_GOT_CRC n) = s.rd i (SAFETY_GOLD_EXP_CRC n)))) 0
  let dig := Config.digest (s.configWords i) % 2 ^ 64
  [s.readyTick % 2 ^ 32, s.rd i SAFETY_STATUS_MODE + 256 * s.rd i SAFETY_STATUS_TAIL_STATE, s.rd i SAFETY_STATUS_CAUSES, wdg 0, wdg 8, gold, dig % 2 ^ 32,
    dig / 2 ^ 32] ++ List.replicate 8 0

/-- An output read back against an island's switches. -/
def Device.readBack (s : Device) (i : Nat) (o0 o1 : Bool) : Device :=
  let high := (s.island 0).closed && (s.island 1).closed
  if o0 = high ∧ o1 = high then s else (s.islandFault i cOUT_FEEDBACK 0 0).tailActive

/-- The body of SAFETY_WINDOW_START: `o0` and `o1` are the levels read back at the outputs. -/
def safetyWindowBody (o0 o1 : Bool) (s : Device) : Device :=
  let s1 := s.islands.foldl (fun s i =>
    let s1 := ((s.wr i SAFETY_STATUS_OUT0 (b2n o0)).wr i SAFETY_STATUS_OUT1 (b2n o1)).readBack i o0 o1
    let s2 := ((List.range 16).foldl (fun s n => s.evalWdg i n) s1).goldenCompare i
    s2.setIsland i { s2.island i with freshTicks := if s2.starting i && s2.healthy i then (s2.island i).freshTicks + 1 else 0 }) s
  let s2 := { s1 with safety := { s1.safety with kicks := [] } }
  s2.islands.foldl (fun s i => (s.setIsland i { s.island i with verdict := s.verdictOf i, excused := (s.island i).just, just := 0 }).addWrap i SAFETY_XCHK_SENT 1) s2

/-- The body of VERDICT_RECORD: an island receives the other's record. -/
def verdictRecordBody (i : Nat) (rec : List Nat) (s : Device) : Device :=
  if (s.island i).stopped then s
  else (s.setIsland i { s.island i with received := some rec }).addWrap i SAFETY_XCHK_RECEIVED 1

/-- The body of VERDICT_COMPARE: a difference other than in causes just latched, or a missing record, raises CROSSCHECK. -/
def verdictCompareBody (i : Nat) (s : Device) : Device :=
  if (s.island i).stopped then s
  else
    let mine := (s.island i).verdict
    let excused := (s.island 0).excused ||| (s.island 1).excused
    let mask := fun (l : List Nat) => l.set 2 (wd l 2 &&& (0x7FFF ^^^ (excused &&& 0x7FFF)))
    let same := match (s.island i).received with | some r => decide (mask r = mask mine) | none => false
    let s1 := s.setIsland i { s.island i with received := none }
    if same then s1 else (s1.islandFault i cCROSSCHECK i 0).tailActive

end Sys2Proof.Machine
end

