-- ==== Sys2Proof/Machine/Oliner.lean ====
section
/-!
DEFINITION. Oliner links (chapter 19, R406 to R412): flits received and forwarded, the retry of the link, heartbeats and the
loss of a partner, inbound requests, and the descriptors whose source or destination lies on another device (R100, R101).
-/
namespace Sys2Proof.Machine

/-! ### The link (R407, R408) -/

/-- The device's own ID (R409). -/
def Device.ownId (s : Device) : Nat := s.rd 0 OLINER_DEVICE_ID_ID

/-- The port sends a NAK that names the last good SEQ (R408). -/
def Device.sendNak (s : Device) (die : Nat) : Device := s.emit (.flit die 15 [(s.olPort die).seqIn])

/-- The body of OLINER_CRC_FAIL (R408): the flit is dropped and counted, and a NAK goes back. -/
def olinerCrcBody (die : Nat) (s : Device) : Device :=
  if s.rd die OLINER_STATUS_STATE < olUP then s else (s.addHold die OLINER_ERR_COUNT_CRC_ERR 1).sendNak die

/-- Flits up to `ack` are acknowledged: they leave the replay buffer, and the link has made progress. -/
def Device.acked (s : Device) (die ack : Nat) : Device :=
  let p := s.olPort die
  if p.replay.any (·.1 = ack) then
    s.setOlPort die { p with replay := (p.replay.dropWhile (·.1 ≠ ack)).drop 1, retries := 0 }
  else s

/-- The partner returns credits of a VC and class, at most those held (R407). -/
def Device.credited (s : Device) (die vc cls n : Nat) : Device :=
  let p := s.olPort die
  let k := creditKey vc cls
  let m := min n (SMap.get 0 p.held k)
  ((s.setOlPort die { p with held := SMap.put 0 p.held k (SMap.get 0 p.held k - m) }).addWrap die OLINER_AUDIT_RETURNED m).flush die
    p.wait.length

/-- Resend every flit of the replay buffer, one retry (R408); the eighth in a row without progress starts a retrain. -/
def Device.replayAll (s : Device) (die : Nat) : Device :=
  let p := s.olPort die
  if p.replay.isEmpty then s
  else
    let s1 := s.addHold die OLINER_ERR_COUNT_RETRY 1
    if 8 ≤ p.retries + 1 then
      let s2 := s1.setOlPort die { p with retries := 0, training := true }
      if s2.rd die OLINER_STATUS_STATE = olUP then s2.wr die OLINER_STATUS_STATE olTRAINING else s2
    else
      p.replay.foldl (fun s f => s.emit (.flit die f.2.1 (f.2.2.take 6 ++ [f.1, p.seqIn] ++ f.2.2.drop 6)))
        (s1.setOlPort die { p with retries := p.retries + 1 })

/-- The port takes part in traffic: its link is up, and it does not retrain. -/
def Device.linkOn (s : Device) (die : Nat) : Bool := olUP ≤ s.rd die OLINER_STATUS_STATE && !(s.olPort die).training

/-- The body of NAK (R408): flits up to the last good one are acknowledged, and the rest are resent. -/
def nakBody (die lastGood : Nat) (s : Device) : Device := if s.linkOn die then (s.acked die lastGood).replayAll die else s

/-- The body of FLIT_ACK_TIMEOUT (R408): flits unacknowledged for 1 µs are resent. -/
def flitTimeoutBody (die : Nat) (s : Device) : Device := if s.linkOn die then s.replayAll die else s

/-- The body of IDLE_FLIT (R407). -/
def idleFlitBody (die : Nat) (h : FlitHead) (s : Device) : Device :=
  if s.linkOn die then (s.acked die h.ack).credited die h.crVc h.crCls h.cr else s

/-- A flit to be passed on (R409): dropped with HOPS 0, without FWD_EN, without a route or through a LOST port; HOPS falls by one. -/
def Device.forward (s : Device) (die kind : Nat) (h : FlitHead) (payload : List Nat) : Device :=
  match s.egress h.dst with
  | none => s.addHold die OLINER_ERR_COUNT_DROPPED 1
  | some e =>
    if h.hops = 0 ∨ ¬ s.on die OLINER_CTL_FWD_EN ∨ s.rd e OLINER_STATUS_STATE = olLOST then s.addHold die OLINER_ERR_COUNT_DROPPED 1
    else s.post e kind ([h.dst, h.src, h.cls, b2n h.fixed, b2n h.job0, h.hops - 1] ++ payload)

/-- A flit arrives at a die's port (R406 to R409, R411): out of order, it is treated as a failed one; in order, its acknowledgement and
credits are taken, and it is performed if it is for this device, forwarded otherwise. A LOST port takes only heartbeats and ticks. The
buffer's credit goes back at once, but for requests, whose answer carries it. -/
def Device.receive (s : Device) (die kind : Nat) (h : FlitHead) (payload : List Nat) (perform : Device → Device) : Device :=
  if ¬ s.linkOn die then s
  else if h.seq ≠ ((s.olPort die).seqIn + 1) % 4096 then olinerCrcBody die s
  else
    let p := s.olPort die
    let vc := (flitVc kind).getD 0
    let s1 := ((s.setOlPort die { p with seqIn := h.seq, seen := p.seen || decide (vc = 0) }).acked die h.ack).credited die h.crVc h.crCls h.cr
    if s1.rd die OLINER_STATUS_STATE = olLOST ∧ kind ≠ 7 ∧ kind ≠ 8 then s1.addHold die OLINER_ERR_COUNT_DROPPED 1
    else if h.dst = s1.ownId then
      let s2 := perform s1
      if kind = 1 ∨ kind = 3 then s2 else s2.returnCredit die vc h.cls
    else (s1.forward die kind h payload).returnCredit die vc h.cls

/-! ### Remote sync adds (R412, R435) -/

/-- The remote-add queue takes a resolved add, or the accounting is lost and the auditor finds a mismatch (R435, R443). -/
def Device.raddPush (s : Device) (a : RemoteAdd) (applied : Bool) : Device :=
  let q := SMap.get [] s.err.raddq a.die
  if 64 ≤ q.length then s.noteMismatch a.die 6 0x18
  else { s with err := { s.err with raddq := SMap.put [] s.err.raddq a.die (q ++ [(a.partner, a.sync, a.seq, applied)]) } }

/-- The two ends of a port exchange the numbers of the adds last applied, and the unresolved ones are resolved (R435). -/
def Device.raddResolve (s : Device) (die lastApplied : Nat) : Device :=
  let mine := s.err.radds.filter fun a => a.die = die && a.unresolved
  let s1 : Device := { s with err := { s.err with radds := s.err.radds.filter fun a => !(a.die = die && a.unresolved) } }
  mine.foldl (fun s a => s.raddPush a (decide ((lastApplied + 65536 - a.seq) % 65536 < 32768))) s1

/-- The body of OLINER_SYNC_ADD (R412, R215, R225): applied with SYNC_IN to an object that is not reserved, or for job 0; acknowledged
either way, with FENCED by a fenced port. -/
def syncFlitBody (die : Nat) (h : FlitHead) (sync n seq : Nat) (s : Device) : Device :=
  s.receive die 5 h [sync, n % 2 ^ 32, n / 2 ^ 32, seq] fun s =>
    let s0 := s.addWrap die SYNC_AUDIT_RECEIVED 1
    let s1 : Device := { s0 with err := { s0.err with addsIn := s0.err.addsIn + 1 } }
    let ack := fun (s : Device) st => s.sendFlit h.src 6 h.cls h.fixed h.job0 [seq, st]
    if s.isFenced die mOliner then ack (s1.fencedErr die mOliner 0 true true) stFENCED
    else if s.on die OLINER_CTL_SYNC_IN ∧ (¬ s.syncReserved sync ∨ h.job0) then
      let s2 := s1.syncAddFrom die mOliner sync (sext 64 n)
      ack { s2 with err := { s2.err with raddLast := SMap.put 0 s1.err.raddLast die seq } } (s1.syncAddStatus die sync)
    else ack s1 stUNMAPPED

/-- The body of OLINER_SYNC_ACK (R215, R435): the add is resolved; one that has already timed out drops its acknowledgement. -/
def syncAckBody (die : Nat) (h : FlitHead) (seq status : Nat) (s : Device) : Device :=
  s.receive die 6 h [seq, status] fun s =>
    match s.err.radds.find? fun a => a.die = die ∧ a.partner = h.src ∧ a.seq = seq ∧ ¬ a.unresolved with
    | some a =>
      let s1 : Device := { s with err := { s.err with radds := s.err.radds.erase a } }
      if status = stDONE then s1 else a.cores.foldl (fun (s : Device) c => s.cmdStatus c status 0) s1
    | none => s.addHold die DIE_CTL_ERR_COUNT_LATE_DROP 1

/-! ### Inbound requests (R412) -/

/-- An inbound window grants an access of `n` bytes at `a`. -/
def Device.olWindow (s : Device) (die a n : Nat) (write : Bool) : Bool :=
  (List.range 8).any fun w =>
    let base := s.rd die (OLINER_WIN_LO_BASE w) * 2 ^ 16 + s.rd die (OLINER_WIN_HI_BASE w) * 2 ^ 32
    s.on die (OLINER_WIN_HI_EN w) && (if write then s.on die (OLINER_WIN_HI_WR w) else s.on die (OLINER_WIN_HI_RD w)) &&
    decide (base ≤ a) && decide (a + n ≤ base + 2 ^ s.rd die (OLINER_WIN_HI_LOG2_SIZE w))

/-- The fields of a manifest entry (R394), from its 128 bytes. -/
def byteNum (l : List Nat) (i n : Nat) : Nat := ((l.drop i).take n).foldr (fun b acc => b + 256 * acc) 0
def meKind (e : List Nat) : Nat := byteNum e 0 1
def meFlags (e : List Nat) : Nat := byteNum e 1 1
def meUnit (e : List Nat) : Nat := byteNum e 2 1
def meEntry (e : List Nat) : Nat := byteNum e 4 4
def meFlash (e : List Nat) : Nat := byteNum e 8 8
def meLength (e : List Nat) : Nat := byteNum e 16 8
def meDest (e : List Nat) : Nat := byteNum e 24 8
def meDigest (e : List Nat) : Nat := byteNum e 32 64
def meSrc (e : List Nat) (i : Nat) : List Nat := (e.drop (96 + 16 * i)).take 16

/-- A read falls in the window over the column ranges of a section that this device serves (R397). -/
def Device.serveWindow (s : Device) (a n : Nat) : Bool :=
  match s.region a with
  | .pond _ _ off => s.eft.served.any fun i =>
      let e := s.eft.entries.getD i []
      decide (meDest e ≤ off) && decide (off + n ≤ meDest e + meLength e / 256)
  | _ => false

/-- An inbound request (R100, R412, R436): fenced, outside every window, or performed as master 0x71 under the class it carries. -/
def Device.inbound (s : Device) (die : Nat) (h : FlitHead) (t : TagId) (a n : Nat) (write : Bool) (data : Nat) : Device :=
  let r : Req := { die := die, master := mOliner, home := 0, addr := a, len := n, write := write, data := data, fixed := h.fixed,
                   cls := h.cls, coreWords := [], work := none, remote := [h.src, t.id, t.gen, t.epoch] }
  if s.isFenced die mOliner then (s.fencedErr die mOliner a true write).answerOutside r stFENCED 0
  else if s.olWindow die a n write || (!write && s.serveWindow a n) then s.offer r
  else (s.recordUnmapped (s.homeDie (s.region a)) die mOliner a write).answerOutside r stUNMAPPED 0

/-- The body of OLINER_READ. -/
def olinerReadBody (die : Nat) (h : FlitHead) (t : TagId) (a n : Nat) (upsets : List Upset) (s : Device) : Device :=
  (s.arise upsets).receive die 1 h [t.id, t.gen, t.epoch, a % 2 ^ 32, a / 2 ^ 32, n] fun s => s.inbound die h t a n false 0

/-- The body of OLINER_WRITE. -/
def olinerWriteBody (die : Nat) (h : FlitHead) (t : TagId) (a n data : Nat) (upsets : List Upset) (s : Device) : Device :=
  (s.arise upsets).receive die 3 h [t.id, t.gen, t.epoch, a % 2 ^ 32, a / 2 ^ 32, n, data] fun s => s.inbound die h t a n true data

/-! ### Descriptors with a remote side (R97, R99 to R101) -/

/-- A tag's identity now (R433, R436). -/
def Device.tagNow (s : Device) (die master tag port : Nat) : TagId :=
  let id := (die * 256 + master) * 256 + tag
  { id := id, gen := SMap.get 0 s.err.gen id, epoch := s.tagEpoch die master port }

/-- A request leaves for another device over a port and waits for its answer. -/
def Device.remoteReq (s : Device) (die master tag dev kind a n cls : Nat) (fixed job0 : Bool) (data : List Nat) : Device :=
  match s.egress dev with
  | none => s
  | some port =>
    let t := s.tagNow die master tag port
    let s1 := s.sendFlit dev kind cls fixed job0 ([t.id, t.gen, t.epoch, a % 2 ^ 32, a / 2 ^ 32, n] ++ data)
    { s1 with oliner := { s1.oliner with
        reqs := s1.oliner.reqs ++ [{ die := port, dev := dev, tag := t, kind := kind, addr := a, len := n }] } }

/-- A DMA engine is fenced by a reset (R436), and not by a DISABLE, which lets its descriptor run on (R438). -/
def Device.dmaFenced (s : Device) (die e : Nat) : Bool :=
  s.isFenced die (mDma + e) && !(s.err.drains.any fun x => decide (x.die = die) && decide (x.unit = mDma + e) && decide (x.op = 1))

/-- A DMA engine issues the next unit of a descriptor with a remote side: a read there, or a local read (or the fill pattern) and a
write there. -/
def Device.dmaIssue (s : Device) (die e : Nat) : Device :=
  -- the unit is offered at the engine's port (R230, R232)
  match s.dmaRun die e with
  | some (some w, entry, d) =>
    let job := s.workJob w
    let row := dmDoneRows d
    let off := dmDoneBytes d
    if dmRows d ≤ row then s
    else
      let m := min 64 (dmLength d - off)
      let src := dmSrc d + row * dmSrcStride d + off
      let dst := dmDst d + row * dmDstStride d + off
      let near := if dmSrcRemote d ∨ dmOpcode d = 2 then (s, none) else s.pagesReady die (mDma + e) job src m false
      let n := match near.2 with | some x => x.1 | none => m
      let cls := match w with | .ring g => rdClass (s.ring g).desc | .slice _ _ => 0
      let st := s.sendStatus (dmDev d)
      let out := fun (s : Device) kind a data =>
        let r : Req := ⟨die, mDma + e, 0, a, n, decide (kind = 3), 0, decide (job = 0), cls, [], some w, [dmDev d]⟩
        let low := s.overBudget r && s.lowers r
        if (s.overBudget r ∧ ¬ low) ∨ s.behindHeld r then
          let s1 := if s.overBudget r then (s.set die REGULATE_STATUS_HELD_SEEN).addHold die REGULATE_EVENTS_HELD 1 else s
          { s1 with regul := { s1.regul with held := s1.regul.held ++ [r] } }
        else
        let s := if low then (s.set die REGULATE_STATUS_LOWERED_SEEN).addHold die REGULATE_EVENTS_LOWERED 1 else s
        ((s.counted r).addWrap die DMA_AUDIT_REQ_OUT 1).remoteReq die (mDma + e) 0 (dmDev d) kind a n cls (decide (job = 0)) (decide (job = 0)) data
      if s.dmaFenced die e then (s.fencedErr die (mDma + e) (if dmSrcRemote d then src else dst) true (dmDstRemote d)).dmaEnd die e w entry d stFENCED
      else if st ≠ stDONE then
        (if st = stFENCED then s.fencedErr die (mDma + e) (if dmSrcRemote d then src else dst) true (dmDstRemote d) else s).dmaEnd die e w entry d st
      else if dmSrcRemote d then out s 1 src []
      else if dmOpcode d = 2 then
        out s 3 dst [((List.range n).map fun i => bits (dmPattern d) (8 * ((off + i) % 4)) 8 * 256 ^ i).foldl (· + ·) 0]
      else match near with
        | (s1, some (0, r, va, wr)) => s1.dmaFault die e w entry d r va wr
        | (s1, _) =>
          let r := s1.vRead die (mDma + e) job src n
          if r.2.1 = stDONE then out r.1 3 dst [r.2.2] else r.1.dmaEnd die e w entry d r.2.1
  | _ => s

/-- The bytes at a local destination beyond a descriptor's progress, as physical ranges: those of the pages that translate. -/
def Device.destBeyond (s : Device) (die job : Nat) (d : List Nat) : List (Nat × Nat) :=
  (List.range (dmRows d - dmDoneRows d)).flatMap fun i =>
    let skip := if i = 0 then dmDoneBytes d else 0
    let va := dmDst d + (dmDoneRows d + i) * dmDstStride d + skip
    (pagesOf job va (dmLength d - skip)).filterMap fun p =>
      let size := if job = 0 then 2 ^ 21 else 2 ^ 16
      (s.paOf die job (max p va)).map fun a => (a, min (p + size) (va + (dmLength d - skip)) - max p va)

/-- The first `m` bytes of a remote unit's data go to a local destination; none is no write. -/
def Device.dmaLand (s : Device) (die e job dst m data : Nat) : Device × Nat :=
  if m = 0 then (s, stDONE) else s.vWrite die (mDma + e) job dst m (data % 256 ^ m)

/-- The answer of a DMA engine's remote unit of `n` bytes: a status other than DONE ends the descriptor, and where the partner was lost the bytes beyond
its progress at a local destination are left undefined (R101); data is written, the unit counts as
progress (R99), and the next one is issued. -/
def Device.dmaReply (s : Device) (die e n status data : Nat) : Device :=
  let s := s.subWrap die DMA_AUDIT_REQ_OUT 1
  match s.dmaRun die e with
  | some (some w, entry, d) =>
    let s := match w with | .ring g => heldIssueBody die (mDma + e) (rdClass (s.ring g).desc) s | .slice _ _ => s
    let job := s.workJob w
    let row := dmDoneRows d
    let off := dmDoneBytes d
    let upTo := fun (m : Nat) => if dmLength d ≤ off + m then dmProgress d (row + 1) 0 else dmProgress d row (off + m)
    if status = stLINK_LOST ∧ dmSrcRemote d then ((s.undefine (s.destBeyond die job d))).dmaEnd die e w entry d status
    else if status ≠ stDONE then s.dmaEnd die e w entry d status
    else if dmSrcRemote d then
      let dst := dmDst d + row * dmDstStride d + off
      let x := s.pagesReady die (mDma + e) job dst n true
      let m := (x.2.map (·.1)).getD n
      let r := x.1.dmaLand die e job dst m data
      if r.2 ≠ stDONE then r.1.dmaEnd die e w entry d r.2
      else
        let d1 := if m = 0 then d else upTo m
        match x.2 with
        | some y => r.1.dmaFault die e w entry d1 y.2.1 y.2.2.1 y.2.2.2
        | none => (r.1.setDma die e (some (some w, entry, d1))).dmaIssue die e
    else (s.setDma die e (some (some w, entry, upTo n))).dmaIssue die e
  | _ => s

/-- The engine behind a tag identity, if the requester is one: die and number. -/
def tagEngine (id : Nat) : Option (Nat × Nat) :=
  let m := id / 256 % 256
  if mDma ≤ m ∧ m < mHost then some (id / 65536, m - mDma) else none

/-! ### Heartbeats and the loss of a partner (R410, R411) -/

/-- A heartbeat or tick flit counts (R411): a LOST port returns to UP at the sixteenth in a row, records its partner's ID and
resolves the unresolved adds; an UP port knows its partner. -/
def Device.heartbeat (s : Device) (die src lastApplied : Nat) : Device :=
  let p := s.olPort die
  if s.rd die OLINER_STATUS_STATE = olLOST then
    let s1 := s.setOlPort die { p with beats := p.beats + 1 }
    if 16 ≤ p.beats + 1 then
      (((s1.setOlPort die { p with beats := 0, misses := 0 }).wr die OLINER_STATUS_STATE olUP).wr die OLINER_STATUS_PARTNER_ID src).raddResolve
        die lastApplied
    else s1
  else s.wr die OLINER_STATUS_PARTNER_ID src

/-- Requests of a port that end with the partner's loss or the port's reset: each engine's descriptor ends with the status. -/
def Device.endRemote (s : Device) (die status : Nat) : Device :=
  let mine := s.oliner.reqs.filter (·.die = die)
  let s1 : Device := { s with oliner := { s.oliner with reqs := s.oliner.reqs.filter (·.die ≠ die) } }
  mine.foldl (fun s r => match tagEngine r.tag.id with
    | some (d, e) => s.dmaReply d e r.len status 0
    | none => s) s1

/-- A port's replay buffer, queue, credits and audit counts restart (R411, R436). -/
def Device.restartPort (s : Device) (die : Nat) (dead : List TagId) : Device :=
  let p := s.olPort die
  ((s.setOlPort die { p with seqOut := 0, seqIn := 4095, replay := [], wait := [], held := [], retries := 0, beats := 0, dead := dead }).clr die
    OLINER_AUDIT_SENT).clr die OLINER_AUDIT_RETURNED

/-- Advance the tag epoch of a unit, four bits wide (R411, R436). -/
def Device.bumpEpoch (s : Device) (die unit : Nat) : Device :=
  { s with err := { s.err with
      epoch := SMap.put 0 s.err.epoch (die * 256 + unit) ((SMap.get 0 s.err.epoch (die * 256 + unit) + 1) % 16) } }

/-- A device of this device's SYNC_OP group is lost or reports an active Tail: PARTNER, in each island with PARTNER_EN (R337). -/
def Device.partnerFault (s : Device) (dev die : Nat) : Device :=
  match s.syncOpGroup with
  | none => s
  | some (_, members) =>
    let a := s.on 0 SAFETY_CTL_PARTNER_EN
    let b := s.on 1 SAFETY_CTL_PARTNER_EN
    if ¬ members.contains dev ∨ dev = s.ownId ∨ ¬ (a || b) then s
    else
      let s1 := if a then s.islandFault 0 cPARTNER die 0 else s
      (if b then s1.islandFault 1 cPARTNER die 0 else s1).tailActive

/-- The body of PARTNER_LOST (R411, R410): at the edge that ends the third missed tick in a row, in one rc. -/
def partnerLostBody (die : Nat) (s : Device) : Device :=
  let p := s.olPort die
  let st := s.rd die OLINER_STATUS_STATE
  if ¬ (3 ≤ p.misses ∧ (st = olUP ∨ st = olTRAINING)) then s
  else
    let gone := (s.oliner.reqs.filter (·.die = die)).map (·.tag)
    let partner := s.rd die OLINER_STATUS_PARTNER_ID
    let s1 := (s.wr die OLINER_STATUS_STATE olLOST).set die OLINER_STATUS_LOST_SEEN
    let s2 := (s1.endRemote die stLINK_LOST).memberLost partner
    let s2 := ((s2.err.radds.filter fun a => decide (a.die = die) && !a.unresolved).flatMap (·.cores)).foldl (fun (s : Device) c => s.cmdStatus c stLINK_LOST 0) s2
  let s3 : Device := { s2 with err := { s2.err with
      radds := s2.err.radds.map fun a => if a.die = die then { a with unresolved := true } else a } }
    let s4 := if s3.rd 0 CHORUS_CTL_SOURCE = 1 ∧ s3.rd 0 CHORUS_CTL_OLINER_DIE = die then sourceLostBody s3 else s3
    ((s4.partnerFault partner die).bumpEpoch die mOliner).restartPort die (p.dead ++ gone)

/-- A retrain ends (R408, R435): the link is up again, its ends exchange the numbers of the adds last applied, and what it held is
resent; or the port is DOWN. A LOST port stays LOST until its heartbeats come. -/
def Device.retrained (s : Device) (die : Nat) (ok : Bool) (lastApplied : Nat) : Device :=
  let p := s.olPort die
  if ¬ p.training then s
  else
    let s1 := s.setOlPort die { p with training := false, retries := 0 }
    if s1.rd die OLINER_STATUS_STATE = olLOST then s1
    else if ok then
      let s2 := (s1.wr die OLINER_STATUS_STATE olUP).raddResolve die lastApplied
      let s3 := p.replay.foldl (fun s f => s.emit (.flit die f.2.1 (f.2.2.take 6 ++ [f.1, p.seqIn] ++ f.2.2.drop 6))) s2
      s3.flush die p.wait.length
    else s1.wr die OLINER_STATUS_STATE olDOWN

/-- The body of LINK_TRAIN_RETRY (R408, R411): every 10 ms a port in use that is DOWN or LOST trains again. -/
def trainRetryBody (die : Nat) (s : Device) : Device :=
  let st := s.rd die OLINER_STATUS_STATE
  if ¬ s.on die OLINER_CTL_EN ∨ (s.olPort die).training then s
  else if st = olDOWN then (s.wr die OLINER_STATUS_STATE olTRAINING).setOlPort die { s.olPort die with training := true }
  else if st = olLOST then s.setOlPort die { s.olPort die with training := true }
  else s

/-- At a sample edge (R410): a port counts a miss for a tick in which no VC0 flit came, and each UP port sends a heartbeat with the device
time of the edge, the tick count since ready, the frame position, Bask's grant, TAIL_ACTIVE and the lock state; the source of ticks
of its group sends a tick flit as well, and a follower probes its link's delay once in a frame (R56). -/
def Device.heartbeatEdge (s : Device) (grant : Nat) (agreed : Option Nat) (boundary : Bool) : Device :=
  (List.range 4).foldl (fun (s : Device) d =>
    let p := s.olPort d
    let st := s.rd d OLINER_STATUS_STATE
    let s1 := s.setOlPort d { p with
      seen := false
      misses := if p.seen then 0 else if st = olUP ∨ st = olTRAINING then p.misses + 1 else p.misses
      beats := if p.seen then p.beats else 0 }
    if st ≠ olUP then s1
    else
      let own := s1.ownId
      let partner := s1.rd d OLINER_STATUS_PARTNER_ID
      let head := [partner, own, 0, 1, 1, 15]
      let t := s1.chorus.edgeTime
      let extra := match agreed with | some g => [g] | none => []
      let s2 := s1.post d 8 (head ++ [t % 2 ^ 32, t / 2 ^ 32, s1.readyTick, s1.tick, grant,
        b2n (s1.on 0 SAFETY_STATUS_TAIL_ACTIVE), s1.rd 0 CHORUS_STATUS_LOCK_STATE, SMap.get 0 s1.err.raddLast d] ++ extra)
      if s2.rd 0 CHORUS_CTL_ROLE = 0 ∨ ¬ (s2.rd 0 CHORUS_CTL_SOURCE = 1 ∧ s2.rd 0 CHORUS_CTL_OLINER_DIE = d) then
        s2.post d 7 (head ++ [s2.chorus.edgeTime % 2 ^ 32, s2.chorus.edgeTime / 2 ^ 32, s2.tick])
      else if boundary then s2.post d 11 head
      else s2) s

end Sys2Proof.Machine
end

