-- ==== Sys2Proof/Machine/Crypto.lean ====
section
/-!
DEFINITION. The cryptography of chapter 18 (R1, R390): SHA-512, AES-256 with GCM and key unwrapping, HKDF, and ECDSA over P-521. PRESUMED (entry 140):
the manual names these functions, and their values are those of the standards it names. A key, a digest, an initialisation vector or a tag that
lies in memory as bytes is the little-endian number of these bytes; keys and signatures of P-521 are numbers, read big-endian (R393).
-/
namespace Sys2Proof.Machine

/-- The number of bytes that stand for a big-endian integer. -/
def beNum (l : List Nat) : Nat := l.foldl (fun v b => 256 * v + b) 0

/-- An integer as `n` big-endian bytes. -/
def beBytes (v n : Nat) : List Nat := (toBytes v n).reverse

/-! ### SHA-512 -/

/-- The constants of the 80 rounds, by 20. -/
def sha512K0 : List Nat :=
  [0x428a2f98d728ae22, 0x7137449123ef65cd, 0xb5c0fbcfec4d3b2f, 0xe9b5dba58189dbbc,
   0x3956c25bf348b538, 0x59f111f1b605d019, 0x923f82a4af194f9b, 0xab1c5ed5da6d8118,
   0xd807aa98a3030242, 0x12835b0145706fbe, 0x243185be4ee4b28c, 0x550c7dc3d5ffb4e2,
   0x72be5d74f27b896f, 0x80deb1fe3b1696b1, 0x9bdc06a725c71235, 0xc19bf174cf692694,
   0xe49b69c19ef14ad2, 0xefbe4786384f25e3, 0x0fc19dc68b8cd5b5, 0x240ca1cc77ac9c65]
def sha512K1 : List Nat :=
  [0x2de92c6f592b0275, 0x4a7484aa6ea6e483, 0x5cb0a9dcbd41fbd4, 0x76f988da831153b5,
   0x983e5152ee66dfab, 0xa831c66d2db43210, 0xb00327c898fb213f, 0xbf597fc7beef0ee4,
   0xc6e00bf33da88fc2, 0xd5a79147930aa725, 0x06ca6351e003826f, 0x142929670a0e6e70,
   0x27b70a8546d22ffc, 0x2e1b21385c26c926, 0x4d2c6dfc5ac42aed, 0x53380d139d95b3df,
   0x650a73548baf63de, 0x766a0abb3c77b2a8, 0x81c2c92e47edaee6, 0x92722c851482353b]
def sha512K2 : List Nat :=
  [0xa2bfe8a14cf10364, 0xa81a664bbc423001, 0xc24b8b70d0f89791, 0xc76c51a30654be30,
   0xd192e819d6ef5218, 0xd69906245565a910, 0xf40e35855771202a, 0x106aa07032bbd1b8,
   0x19a4c116b8d2d0c8, 0x1e376c085141ab53, 0x2748774cdf8eeb99, 0x34b0bcb5e19b48a8,
   0x391c0cb3c5c95a63, 0x4ed8aa4ae3418acb, 0x5b9cca4f7763e373, 0x682e6ff3d6b2b8a3,
   0x748f82ee5defb2fc, 0x78a5636f43172f60, 0x84c87814a1f0ab72, 0x8cc702081a6439ec]
def sha512K3 : List Nat :=
  [0x90befffa23631e28, 0xa4506cebde82bde9, 0xbef9a3f7b2c67915, 0xc67178f2e372532b,
   0xca273eceea26619c, 0xd186b8c721c0c207, 0xeada7dd6cde0eb1e, 0xf57d4f7fee6ed178,
   0x06f067aa72176fba, 0x0a637dc5a2c898a6, 0x113f9804bef90dae, 0x1b710b35131c471b,
   0x28db77f523047d84, 0x32caab7b40c72493, 0x3c9ebe0a15c9bebc, 0x431d67c49c100d4c,
   0x4cc5d4becb3e42b6, 0x597f299cfc657e2a, 0x5fcb6fab3ad6faec, 0x6c44198c4a475817]

/-- The constants of the rounds, and the hash before the first block. -/
def sha512K : List Nat := sha512K0 ++ sha512K1 ++ sha512K2 ++ sha512K3
def sha512Init : List Nat :=
  [0x6a09e667f3bcc908, 0xbb67ae8584caa73b, 0x3c6ef372fe94f82b, 0xa54ff53a5f1d36f1,
   0x510e527fade682d1, 0x9b05688c2b3e6c1f, 0x1f83d9abfb41bd6b, 0x5be0cd19137e2179]

/-- A 64-bit word rotated right. -/
def rotr64 (n x : Nat) : Nat := (x / 2 ^ n + x * 2 ^ (64 - n)) % 2 ^ 64

/-- The functions of the schedule and of the rounds. -/
def shaSmall0 (x : Nat) : Nat := Nat.xor (Nat.xor (rotr64 1 x) (rotr64 8 x)) (x / 2 ^ 7)
def shaSmall1 (x : Nat) : Nat := Nat.xor (Nat.xor (rotr64 19 x) (rotr64 61 x)) (x / 2 ^ 6)
def shaBig0 (x : Nat) : Nat := Nat.xor (Nat.xor (rotr64 28 x) (rotr64 34 x)) (rotr64 39 x)
def shaBig1 (x : Nat) : Nat := Nat.xor (Nat.xor (rotr64 14 x) (rotr64 18 x)) (rotr64 41 x)
def shaChoose (e f g : Nat) : Nat := Nat.xor (Nat.land e f) (Nat.land (2 ^ 64 - 1 - e) g)
def shaMajority (a b c : Nat) : Nat := Nat.xor (Nat.xor (Nat.land a b) (Nat.land a c)) (Nat.land b c)

/-- The schedule, newest word first: `n` words more than those of the block. -/
def shaSchedule (w : List Nat) : Nat → List Nat
  | 0 => w
  | n + 1 => shaSchedule ((shaSmall1 (wd w 1) + wd w 6 + shaSmall0 (wd w 14) + wd w 15) % 2 ^ 64 :: w) n

/-- One round on the eight working words, with its constant and its word of the schedule. -/
def shaRound (v : List Nat) (kw : Nat × Nat) : List Nat :=
  let t := wd v 7 + shaBig1 (wd v 4) + shaChoose (wd v 4) (wd v 5) (wd v 6) + kw.1 + kw.2
  [(t + shaBig0 (wd v 0) + shaMajority (wd v 0) (wd v 1) (wd v 2)) % 2 ^ 64, wd v 0, wd v 1, wd v 2, (wd v 3 + t) % 2 ^ 64, wd v 4, wd v 5, wd v 6]

/-- The hash after a block of 128 bytes. -/
def shaBlock (h b : List Nat) : List Nat :=
  let w := (List.range 16).map fun i => beNum ((b.drop (8 * i)).take 8)
  let v := (sha512K.zip (shaSchedule w.reverse 64).reverse).foldl shaRound h
  (h.zip v).map fun e => (e.1 + e.2) % 2 ^ 64

/-- The message padded to whole blocks. -/
def shaPad (l : List Nat) : List Nat := l ++ 0x80 :: List.replicate (127 - (l.length + 16) % 128) 0 ++ beBytes (8 * l.length) 16

/-- The 64 bytes of SHA-512 of bytes, and their little-endian number. -/
def sha512Bytes (l : List Nat) : List Nat :=
  let p := shaPad l
  ((List.range (p.length / 128)).foldl (fun h i => shaBlock h ((p.drop (128 * i)).take 128)) sha512Init).flatMap fun w => beBytes w 8
def sha512 (l : List Nat) : Nat := byteNum (sha512Bytes l) 0 64

/-! ### HKDF with SHA-512 -/

/-- HMAC-SHA-512. -/
def hmacSha512 (key l : List Nat) : List Nat :=
  let k := if 128 < key.length then sha512Bytes key else key
  let pad := fun (x : Nat) => (List.range 128).map fun i => Nat.xor (wd k i) x
  sha512Bytes (pad 0x5C ++ sha512Bytes (pad 0x36 ++ l))

/-- The blocks of HKDF's expansion, from block `i` on. -/
def hkdfExpand (prk info last : List Nat) (i : Nat) : Nat → List Nat
  | 0 => []
  | n + 1 =>
    let t := hmacSha512 prk (last ++ info ++ [i])
    t ++ hkdfExpand prk info t (i + 1) n

/-- HKDF-SHA-512 without a salt: `n` bytes from keying material and an info string. -/
def hkdf (ikm info : List Nat) (n : Nat) : List Nat :=
  (hkdfExpand (hmacSha512 (List.replicate 64 0) ikm) info [] 1 ((n + 63) / 64)).take n

/-! ### AES-256 -/

/-- Twice a byte, and a product, in the field of AES. -/
def gfDouble (a : Nat) : Nat := if a < 128 then 2 * a else Nat.xor (2 * a) 0x11B
def gfMul (a b : Nat) : Nat := (List.range 8).foldl (fun x i => Nat.xor (gfDouble x) (if bit b (7 - i) then a else 0)) 0

/-- The inverse of a byte, 0 for 0: its 254th power. -/
def gfInv (a : Nat) : Nat := ((List.range 7).foldl (fun (x : Nat × Nat) _ => (gfMul x.1 (gfMul x.2 x.2), gfMul x.2 x.2)) (1, a)).1

/-- The substitution of a byte, and its inverse. -/
def aesSub (a : Nat) : Nat :=
  let b := gfInv a
  Nat.xor 0x63 ((List.range 5).foldl (fun x i => Nat.xor x ((b * 2 ^ i + b / 2 ^ (8 - i)) % 256)) 0)
def aesUnsub (b : Nat) : Nat := ((List.range 256).find? fun a => aesSub a = b).getD 0

/-- The words of the key schedule, newest first, each of four bytes: `n` words more, the next being word `i`. -/
def aesSchedule (w : List (List Nat)) (i rcon : Nat) : Nat → List (List Nat)
  | 0 => w
  | n + 1 =>
    let t := w.headD []
    let u := if i % 8 = 0 then (((t.drop 1 ++ t.take 1).map aesSub).zip [rcon, 0, 0, 0]).map fun e => Nat.xor e.1 e.2
      else if i % 8 = 4 then t.map aesSub else t
    aesSchedule ((((w.getD 7 []).zip u).map fun e => Nat.xor e.1 e.2) :: w) (i + 1) (if i % 8 = 0 then gfDouble rcon else rcon) n

/-- The 15 round keys of 16 bytes of a key of 32 bytes. -/
def aesKeys (key : List Nat) : List (List Nat) :=
  let w := (aesSchedule ((List.range 8).map fun i => (key.drop (4 * i)).take 4).reverse 8 1 52).reverse
  (List.range 15).map fun r => ((w.drop (4 * r)).take 4).flatten

/-- A round key added; the rows shifted left by their number times `n`; the columns multiplied by the polynomial with these coefficients. -/
def aesAdd (b k : List Nat) : List Nat := (b.zip k).map fun e => Nat.xor e.1 e.2
def aesShift (n : Nat) (b : List Nat) : List Nat := (List.range 16).map fun i => wd b ((i + 4 * n * (i % 4)) % 16)
def aesMix (m b : List Nat) : List Nat :=
  (List.range 16).map fun i => (List.range 4).foldl (fun x j => Nat.xor x (gfMul (wd m ((j + 4 - i % 4) % 4)) (wd b (i / 4 * 4 + j)))) 0

/-- A block of 16 bytes encrypted, and decrypted, under round keys. -/
def aesEncrypt (ks : List (List Nat)) (b : List Nat) : List Nat :=
  let mid := (List.range 13).foldl (fun b r => aesAdd (aesMix [2, 3, 1, 1] (aesShift 1 (b.map aesSub))) (ks.getD (r + 1) [])) (aesAdd b (ks.getD 0 []))
  aesAdd (aesShift 1 (mid.map aesSub)) (ks.getD 14 [])
def aesDecrypt (ks : List (List Nat)) (b : List Nat) : List Nat :=
  let mid := (List.range 13).foldl (fun b r => aesMix [14, 11, 13, 9] (aesAdd ((aesShift 3 b).map aesUnsub) (ks.getD (13 - r) [])))
    (aesAdd b (ks.getD 14 []))
  aesAdd ((aesShift 3 mid).map aesUnsub) (ks.getD 0 [])

/-! ### GCM -/

/-- The product of two blocks, as big-endian numbers, in the field of GCM. -/
def ghashMul (x y : Nat) : Nat :=
  ((List.range 128).foldl (fun (z : Nat × Nat) i =>
    (if bit x (127 - i) then Nat.xor z.1 z.2 else z.1, if bit z.2 0 then Nat.xor (z.2 / 2) (0xE1 * 2 ^ 120) else z.2 / 2)) (0, y)).1

/-- Bytes padded with zeros to whole blocks, and the hash of whole blocks. -/
def gcmPad (l : List Nat) : List Nat := l ++ List.replicate ((16 - l.length % 16) % 16) 0
def ghash (h : Nat) (l : List Nat) : Nat :=
  (List.range (l.length / 16)).foldl (fun y i => ghashMul (Nat.xor y (beNum ((l.drop (16 * i)).take 16))) h) 0

/-- The key stream's block for a counter, and the plain bytes of a ciphertext (R396). -/
def gcmBlock (ks : List (List Nat)) (iv n : Nat) : List Nat := aesEncrypt ks (toBytes iv 12 ++ beBytes n 4)
def gcmPlain (key iv : Nat) (ct : List Nat) : List Nat :=
  let ks := aesKeys (toBytes key 32)
  (ct.zip ((List.range ((ct.length + 15) / 16)).flatMap fun i => gcmBlock ks iv ((i + 2) % 2 ^ 32))).map fun e => Nat.xor e.1 e.2

/-- The tag over additional data and ciphertext holds (R396). -/
def gcmOk (key iv : Nat) (aad ct : List Nat) (tag : Nat) : Bool :=
  let ks := aesKeys (toBytes key 32)
  let h := beNum (aesEncrypt ks (List.replicate 16 0))
  let s := ghash h (gcmPad aad ++ gcmPad ct ++ beBytes (8 * aad.length) 8 ++ beBytes (8 * ct.length) 8)
  decide (toBytes tag 16 = aesAdd (beBytes s 16) (gcmBlock ks iv 1))

/-- AES key unwrapping of 40 bytes under a key of 32 bytes: the 32 bytes that were wrapped, where the check value holds (R401). -/
def aesUnwrap (kek w : List Nat) : Option (List Nat) :=
  let ks := aesKeys kek
  let x := (List.range 24).foldl (fun (x : List Nat × List Nat) k =>
    let t := 24 - k
    let i := (t - 1) % 4
    let b := aesDecrypt ks (beBytes (Nat.xor (beNum x.1) t) 8 ++ (x.2.drop (8 * i)).take 8)
    (b.take 8, x.2.take (8 * i) ++ b.drop 8 ++ x.2.drop (8 * i + 8))) (w.take 8, w.drop 8)
  if x.1 = List.replicate 8 0xA6 then some x.2 else none

/-! ### P-521 -/

/-- The field's prime, the order of the base point, the curve's constant and the base point. -/
def ecP : Nat := 2 ^ 521 - 1
def ecN : Nat :=
  0x1fffffffffffffffffffffffffffffffffffffffffffffffffffffffffffffffffa51868783bf2f966b7fcc0148f709a5d03bb5c9b8899c47aebb6fb71e91386409
def ecB : Nat :=
  0x51953eb9618e1c9a1f929a21a0b68540eea2da725b99b315f3b8b489918ef109e156193951ec7e937b1652c0bd3bb1bf073573df883d2c34f1ef451fd46b503f00
def ecG : Nat × Nat :=
  (0xc6858e06b70404e9cd9e3ecb662395b4429c648139053fb521f828af606b4d3dbaa14b5e77efe75928fe1dc127a2ffa8de3348b3c1856a429bf97e7e31c2e5bd66,
   0x11839296a789a3bc0045c8a5fb42c7d1bd998f54449579b446817afbd17273e662c97ee72995ef42640c550b9013fad0761353c7086a272c24088be94769fd16650)

/-- A power modulo `m`, for exponents below 2^521, and an inverse modulo a prime. -/
def powMod (m x e : Nat) : Nat :=
  ((List.range 521).foldl (fun (v : Nat × Nat) i => (if bit e i then v.1 * v.2 % m else v.1, v.2 * v.2 % m)) (1, x % m)).1
def invMod (m x : Nat) : Nat := powMod m x (m - 2)

/-- A point lies on the curve. -/
def ecOn (q : Nat × Nat) : Bool :=
  decide (q.1 < ecP) && decide (q.2 < ecP) && decide ((q.2 * q.2 + 3 * q.1) % ecP = (q.1 * q.1 * q.1 + ecB) % ecP)

/-- The line through two points with this slope meets the curve in the sum's mirror image: the sum. -/
def ecMeet (a b : Nat × Nat) (slope : Nat) : Nat × Nat :=
  let x := (slope * slope + 2 * ecP - a.1 - b.1) % ecP
  (x, (slope * (a.1 + ecP - x) + ecP - a.2) % ecP)

/-- The sum of two points; none is the point at infinity. -/
def ecAdd (a b : Option (Nat × Nat)) : Option (Nat × Nat) :=
  match a, b with
  | none, _ => b
  | _, none => a
  | some (p : Nat × Nat), some (q : Nat × Nat) =>
    if p.1 = q.1 then
      if (p.2 + q.2) % ecP = 0 then none else some (ecMeet p q ((3 * p.1 * p.1 + ecP - 3) * invMod ecP (2 * p.2) % ecP))
    else some (ecMeet p q ((q.2 + ecP - p.2) * invMod ecP (q.1 + ecP - p.1) % ecP))

/-- A multiple of a point. -/
def ecMul (k : Nat) (p : Nat × Nat) : Option (Nat × Nat) :=
  ((List.range 521).foldl (fun (v : Option (Nat × Nat) × Option (Nat × Nat)) i => (if bit k i then ecAdd v.1 v.2 else v.1, ecAdd v.2 v.2))
    (none, some p)).1

/-- A public key or a signature as its two numbers of 66 bytes. -/
def ecPair (v : Nat) : Nat × Nat := (v / 2 ^ 528, v % 2 ^ 528)

/-- The integer that a SHA-512 digest stands for in a signature. -/
def ecHash (h : Nat) : Nat := beNum (toBytes h 64)

/-- An ECDSA P-521 signature over a SHA-512 digest holds for a key (R393, R402). -/
def ecdsaOk (key h sig : Nat) : Bool :=
  let q := ecPair key
  let r := (ecPair sig).1
  let s := (ecPair sig).2
  let w := invMod ecN s
  ecOn q && decide (1 ≤ r) && decide (r < ecN) && decide (1 ≤ s) && decide (s < ecN) &&
  match ecAdd (ecMul (ecHash h * w % ecN) ecG) (ecMul (r * w % ecN) q) with
  | some v => decide (v.1 % ecN = r)
  | none => false

/-! ### The identity key (R401, R403) -/

/-- The identity key's number, from HKDF-SHA-512 of the fused secret with the info string "QK7 identity". How a number below the curve's order
comes from it is not stated: a free function. -/
def identityScalar (secret : Nat) : Nat :=
  1 + Config.keyScalar (hkdf (toBytes secret 32) [0x51, 0x4B, 0x37, 0x20, 0x69, 0x64, 0x65, 0x6E, 0x74, 0x69, 0x74, 0x79] 66) % (ecN - 1)

/-- The 132 bytes of the public identity key. -/
def identityKey (secret : Nat) : List Nat :=
  let q := (ecMul (identityScalar secret) ecG).getD (0, 0)
  beBytes q.1 66 ++ beBytes q.2 66

/-- An ECDSA P-521 signature by the identity key; its nonce is free. -/
def ecdsaSign (secret h : Nat) : Nat :=
  let k := 1 + Config.signNonce secret h % (ecN - 1)
  let r := ((ecMul k ecG).getD (0, 0)).1 % ecN
  r * 2 ^ 528 + (ecHash h + r * identityScalar secret) * invMod ecN k % ecN

/-- The owner image key that a CLAIM's 40 wrapped bytes carry, unwrapped under HKDF-SHA-512 of the secret that the identity key shares with the
request's key (R401); none where the key is no point of the curve or the check value fails. The info string is free. -/
def unwrapKey (secret key wrapped : Nat) : Option Nat :=
  let q := ecPair key
  if ecOn q then
    ((ecMul (identityScalar secret) q).bind fun z =>
      aesUnwrap (hkdf (beBytes z.1 66) (Config.wrapInfo.map (· % 256)) 32) (toBytes wrapped 40)).map fun l => byteNum l 0 32
  else none

end Sys2Proof.Machine
end

