-- ==== Sys2Proof/Machine/Errors.lean ====
section
/-!
DEFINITION. Errors, timeouts and recovery (chapter 20): requests that time out, bridges that fail, units that are reset,
disabled and enabled, the remote-add queue, and the conservation audit.
-/
namespace Sys2Proof.Machine

/-! ### Timeouts (R432, R433) -/

/-- A tag's generation advances (R433). -/
def Device.bumpGen (s : Device) (id : Nat) : Device :=
  { s with err := { s.err with gen := SMap.put 0 s.err.gen id ((SMap.get 0 s.err.gen id + 1) % 256) } }

/-- A unit that leaves service has lost an answer (R436, step 4). -/
def Device.drainLost (s : Device) (die u : Nat) : Device :=
  { s with err := { s.err with drains := s.err.drains.map fun d => if d.die = die ∧ d.unit = u then { d with lost := true } else d } }

/-- The body of REQUEST_TIMEOUT (R432, R433, R443): a request that still waits for a queue is withdrawn from its port, where no count holds it (R61, R229); one that was served
and whose reply is lost leaves its path's counts unequal, which the next audit finds. -/
def requestTimeoutBody (r : Req) (tag : Nat) (s : Device) : Device :=
  let s1 :=
    match s.pond.waiting.find? fun x => sameReq x r with
    | some x => ({ s with pond := { s.pond with waiting := s.pond.waiting.erase x } })
    | none => (s.noteMismatch r.die 7 0x60).drainLost r.die r.master
  ((s1.timeoutErr r.die r.master r.addr false r.write).bumpGen ((r.die * 256 + r.master) * 256 + tag)).turnAway r stTIMEOUT

/-- The requester's die and MASTER code behind a tag identity. -/
def tagDie (id : Nat) : Nat := id / 65536
def tagMaster (id : Nat) : Nat := id / 256 % 256

/-- The body of REMOTE_REQUEST_TIMEOUT (R432, R433, R435): a read or write of a tag identity, or a sync add of a port by its sequence number,
that has waited REMOTE_TICKS sample edges ends with TIMEOUT; an add stays unresolved. -/
def remoteTimeoutBody (die id : Nat) (sync : Bool) (s : Device) : Device :=
  let limit := s.rd die DIE_CTL_ERR_CTL_REMOTE_TICKS
  if sync then
    match s.err.radds.find? fun a => a.die = die ∧ a.seq = id ∧ ¬ a.unresolved ∧ limit ≤ a.edges with
    | none => s
    | some a =>
      let s1 : Device := { s with err := { s.err with radds := s.err.radds.map fun x => if x = a then { x with unresolved := true } else x } }
      (a.cores.foldl (fun (s : Device) c => s.cmdStatus c stTIMEOUT 0) s1).timeoutErr die mOliner 0 true true
  else
    match s.oliner.reqs.find? fun r => r.die = die ∧ r.tag.id = id ∧ limit ≤ r.edges with
    | none => s
    | some r =>
      let s1 : Device := { s with oliner := { s.oliner with reqs := s.oliner.reqs.erase r } }
      let s2 := (s1.timeoutErr (tagDie id) (tagMaster id) r.addr true (decide (r.kind = 3))).bumpGen id
      match tagEngine id with
      | some (d, e) => s2.dmaReply d e 0 stTIMEOUT 0
      | none => s2

/-- At a sample edge, requests to other devices have waited one edge more. -/
def Device.remoteEdge (s : Device) : Device :=
  { s with
    oliner := { s.oliner with reqs := s.oliner.reqs.map fun r => { r with edges := r.edges + 1 } }
    err := { s.err with radds := s.err.radds.map fun a => { a with edges := a.edges + 1 } } }

/-! ### Bridges (R434) -/

/-- The body of BRIDGE_LINK_RETRY (R434, R34): a retry of a die's row or column bridge is counted. -/
def bridgeRetryBody (die : Nat) (col : Bool) (s : Device) : Device :=
  s.addHold die (if col then DIE_CTL_BRIDGE_STATUS_COL_RETRY_CNT else DIE_CTL_BRIDGE_STATUS_ROW_RETRY_CNT) 1

/-- The body of BRIDGE_DOWN (R434): both ends of the bridge go down, and their auditors report at the next sample edge; requests routed over
it now end with TIMEOUT. -/
def bridgeDownBody (die : Nat) (col : Bool) (s : Device) : Device :=
  if col then
    (((s.clr die DIE_CTL_BRIDGE_STATUS_COL_UP).clr (colMate die) DIE_CTL_BRIDGE_STATUS_COL_UP).noteMismatch die 0 0x24).noteMismatch (colMate die) 0 0x24
  else
    (((s.clr die DIE_CTL_BRIDGE_STATUS_ROW_UP).clr (rowMate die) DIE_CTL_BRIDGE_STATUS_ROW_UP).noteMismatch die 0 0x20).noteMismatch (rowMate die) 0 0x20

/-! ### Units (R436 to R438, R441) -/

/-- A unit code names something on a die (R35, R441). -/
def unitPresent (die u : Nat) : Bool :=
  u < mHost + 4 || (mReflex ≤ u && u ≤ mFault) || (u = mPcie && die % 2 = 0) || u = mOliner || (u = mDebug && die = 0) ||
  u = 0x80 || u = 0x81 || (0x90 ≤ u && u ≤ 0x9B && die = 0)

/-- A unit that may leave service alone (R436): a core, a DMA engine, a host core, a port or a CAN channel. -/
def unitAlone (u : Nat) : Bool := u < mHost + 4 || u = mPcie || u = mOliner || u = 0x80 || u = 0x81 || 0x90 ≤ u

/-- A port that retrains after its reset (R436 step 3). -/
def unitPort (u : Nat) : Bool := u = mPcie || u = mOliner || u = 0x80 || u = 0x81

/-- Accept or refuse a request of DIE_CTL_UNIT_RESET: a START while BUSY or a code that is not present sets RANGE_ERR and changes
nothing. -/
def Device.unitRequest (s : Device) (die u op : Nat) (run : Device → Device) : Device :=
  if s.on die DIE_CTL_UNIT_RESET_BUSY ∨ ¬ unitPresent die u then s.set die DIE_CTL_ERR_CTL_RANGE_ERR
  else run ((s.wr die DIE_CTL_UNIT_RESET_UNIT u).wr die DIE_CTL_UNIT_RESET_OP op)

/-- A request ends with a RESULT: BUSY and STAGE clear. -/
def Device.unitResult (s : Device) (die r : Nat) : Device :=
  ((s.clr die DIE_CTL_UNIT_RESET_BUSY).clr die DIE_CTL_UNIT_RESET_STAGE).wr die DIE_CTL_UNIT_RESET_RESULT r

/-- A unit is fenced, and its drain begins. -/
def Device.fence (s : Device) (die u op : Nat) : Device :=
  let s1 := ((s.set die DIE_CTL_UNIT_RESET_BUSY).wr die DIE_CTL_UNIT_RESET_STAGE 1).wr die DIE_CTL_UNIT_RESET_RESULT 0
  { s1 with err := { s1.err with
      fenced := if s1.isFenced die u then s1.err.fenced else s1.err.fenced ++ [die * 256 + u]
      drains := s1.err.drains ++ [{ die := die, unit := u, op := op }] } }

/-- A core runs a kernel, or a slice that names it has started. -/
def Device.coreRuns (s : Device) (die core : Nat) : Bool :=
  (s.disp.kernels.any fun k => k.cores.contains (die * 64 + core)) ||
  (s.chorus.slices.any fun x => x.die = die && x.started && x.units.contains core)

/-- Begin to drain a unit: a tensor core is fenced once its kernel or slice has ended (R437, R438), any other unit at once. -/
def Device.leaveService (s : Device) (die u op : Nat) : Device :=
  let s1 := s.fence die u op
  if u < mDma ∧ s.coreRuns die u then
    { s1 with err := { s1.err with fenced := s.err.fenced } }
  else s1

/-- The body of UNIT_RESET (R436, R437). -/
def unitResetBody (die u : Nat) (s : Device) : Device :=
  s.unitRequest die u 0 fun s =>
    if ¬ unitAlone u ∨ (u < mDma ∧ s.reservedCore (die * 64 + u)) then s.unitResult die 3 else s.leaveService die u 0

/-- The body of UNIT_DISABLE (R437, R438). -/
def unitDisableBody (die u : Nat) (s : Device) : Device :=
  s.unitRequest die u 1 fun s => if ¬ unitAlone u then s.unitResult die 3 else s.leaveService die u 1

/-- Set or clear the bit of a core or DMA engine in the registers of R442. -/
def Device.markDisabled (s : Device) (die u v : Nat) : Device :=
  if u < 32 then s.wr die DIE_CTL_DISABLED_LO_CORES (setBits (s.rd die DIE_CTL_DISABLED_LO_CORES) u 1 v)
  else if u < mDma then s.wr die DIE_CTL_DISABLED_HI_CORES (setBits (s.rd die DIE_CTL_DISABLED_HI_CORES) (u - 32) 1 v)
  else if u < mHost then s.wr die DIE_CTL_DISABLED_DMA_ENGINES (setBits (s.rd die DIE_CTL_DISABLED_DMA_ENGINES) (u - mDma) 1 v)
  else s

/-- Requests of a unit that wait somewhere, and those it holds for others: at its own port or in a column's arbiter. -/
def Device.unitReqs (s : Device) (die u : Nat) : List Req :=
  (s.regul.held ++ s.pond.waiting).filter fun r => r.die = die && r.master = u

/-- The bound of a drain (R436 step 2, R438): every request of the unit still unanswered ends with a status, and so do its remote
requests and its descriptor. -/
def Device.endUnitWork (s : Device) (die u status : Nat) : Device :=
  let mine := s.unitReqs die u
  let s1 : Device := { s with
    regul := { s.regul with held := s.regul.held.filter fun r => !(r.die = die && r.master = u) }
    pond := { s.pond with waiting := s.pond.waiting.filter fun r => !(r.die = die && r.master = u) } }
  let s2 := mine.foldl (fun s r =>
    let s := if status = stFENCED then s.fencedErr r.die r.master r.addr false r.write else s
    s.turnAway r status) s1
  let s3 := if u = mOliner then
      ((s2.oliner.reqs.filter fun r => r.die = die).foldl (fun (s : Device) r =>
        s.fencedErr (tagDie r.tag.id) (tagMaster r.tag.id) r.addr true (decide (r.kind = 3))) s2).endRemote die status
    else if 0x90 ≤ u then s2.canDrop (u - 0x90) else s2
  if mDma ≤ u ∧ u < mHost then
    let out := s3.oliner.reqs.filter fun r => tagDie r.tag.id = die && tagMaster r.tag.id = u
    let s4 : Device := { s3 with oliner := { s3.oliner with reqs := s3.oliner.reqs.filter fun r => !(tagDie r.tag.id = die && tagMaster r.tag.id = u) } }
    let s4 := if status = stFENCED then out.foldl (fun (s : Device) r => s.fencedErr die u r.addr true (decide (r.kind = 3))) s4 else s4
    if out.isEmpty then
      match s4.dmaRun die (u - mDma) with
      | some (some w, entry, d) => s4.dmaEnd die (u - mDma) w entry d status
      | _ => s4
    else s4.dmaReply die (u - mDma) 0 status 0
  else s3

/-- A unit has work left at the end of its drain. -/
def Device.unitBusy (s : Device) (die u : Nat) : Bool :=
  !(s.unitReqs die u).isEmpty ||
  (s.oliner.reqs.any fun r => (tagDie r.tag.id = die && tagMaster r.tag.id = u) || (u = mOliner && r.die = die)) ||
  (mDma ≤ u && u < mHost && (s.dmaRun die (u - mDma)).isSome) || (0x90 ≤ u && s.lsio.canQ.any fun b => b / 32 = u - 0x90)

/-- A unit's control state is cleared (R436 step 3) with the counts it shares with its neighbours (step 4): a core's staging, accumulators and
cached translations; an engine's cached translations; a host core's interrupts and clock; a port's link state; a CAN channel's
queue. Stores and Pond columns keep their contents. -/
def Device.clearUnit (s : Device) (die u : Nat) : Device :=
  let s1 := (List.range 16).foldl (fun s c =>
    (s.addWrap die REGULATE_AUDIT_RETIRED (s.outstanding die u c)).setOutstanding die u c 0) s
  if u < mDma then
    { s1 with
      link := SMap.put none s1.link (die * 64 + u) none
      xlate := { s1.xlate with tlb := s1.xlate.tlb.filter fun t => !(t.die = die && t.unit = u) } }
  else if u < mHost then
    { s1 with xlate := { s1.xlate with tlb := s1.xlate.tlb.filter fun t => !(t.die = die && t.unit = u) } }
  else if u < mHost + 4 then
    let h := die * 4 + (u - mHost)
    let s2 := s1.wr die (HOST_HART_CTL_FREQ (u - mHost)) 4
    { s2 with host := { s2.host with
        imsic := s2.host.imsic.filter fun e => e.1 / 512 ≠ h
        timer := (SMap.put 0 (SMap.put 0 s2.host.timer (h * 2) 0) (h * 2 + 1) 0)
        stimecmp := SMap.put (2 ^ 64 - 1) s2.host.stimecmp h (2 ^ 64 - 1) } }
  else if u = mOliner then
    let s2 := s1.restartPort die []
    ((s2.wr die OLINER_STATUS_STATE olTRAINING).setOlPort die { s2.olPort die with training := true, misses := 0 })
  else if u = mPcie then
    ((s1.clr die PCIE_CTL_LINK_UP).clr die PCIE_MBOX_CMD_BUSY)
  else if u = 0x80 ∨ u = 0x81 then s1.clr die (ENET_CTL_LINK_UP (u - 0x80))
  else if 0x90 ≤ u then s1.canDrop (u - 0x90)
  else s1

/-- UNFENCE (R436 step 5): the unit takes requests again. -/
def Device.unfence (s : Device) (die u : Nat) : Device :=
  { s with err := { s.err with fenced := s.err.fenced.filter (· ≠ die * 256 + u) } }

/-- The drain of a die's unit, if it has one. -/
def Device.drainOf (s : Device) (die : Nat) : Option Drain := s.err.drains.find? (·.die = die)

/-- Remove it. -/
def Device.dropDrain (s : Device) (die : Nat) : Device := { s with err := { s.err with drains := s.err.drains.filter (·.die ≠ die) } }

/-- The body of UNIT_DRAIN_END (R436, R438): nothing is left, or the bound of 16,384 rc has come. A core whose kernel or slice still runs waits.
A reset then clears, restores and unfences, but for a port, which first retrains; a disabled function ends what remains and reports
itself disabled. -/
def unitDrainEndBody (die : Nat) (s : Device) : Device :=
  match s.drainOf die with
  | none => s
  | some x =>
    if x.retrain ∨ (x.unit < mDma ∧ s.coreRuns die x.unit) then s
    else if x.op = 0 then
      let bound := s.unitBusy die x.unit
      let s1 := if bound then ((s.endUnitWork die x.unit stFENCED).bumpEpoch die x.unit).wr die DIE_CTL_UNIT_RESET_RESULT 1 else s
      let s2 := s1.clearUnit die x.unit
      if unitPort x.unit then
        let s3 := s2.wr die DIE_CTL_UNIT_RESET_STAGE 3
        { s3 with err := { s3.err with drains := s3.err.drains.map fun d => if d = x then { x with retrain := true } else d } }
      else ((s2.dropDrain die).unfence die x.unit).unitResult die (if x.lost then 2 else b2n bound)
    else
      let status := if x.unit < mHost then stDISABLED else stFENCED
      let s1 := (s.endUnitWork die x.unit status).dropDrain die
      let s2 := if x.unit < mHost then (s1.unfence die x.unit).markDisabled die x.unit 1 else s1
      ({ s2 with err := { s2.err with disabled := (die * 256 + x.unit) :: s2.err.disabled } }).unitResult die 0

/-- A port that was reset has trained its link: RESTORE and UNFENCE follow (R436), and an Oliner port's unresolved adds are resolved (R435). -/
def Device.portBack (s : Device) (die u lastApplied : Nat) : Device :=
  match s.drainOf die with
  | some x =>
    if x.retrain ∧ x.unit = u then
      let s1 := ((s.dropDrain die).unfence die u).unitResult die (if x.lost then 2 else s.rd die DIE_CTL_UNIT_RESET_RESULT)
      if u = mOliner then s1.raddResolve die lastApplied else s1
    else s
  | none => s

/-- The body of RETRAIN_DONE (R408, R436). -/
def retrainDoneBody (die : Nat) (ok : Bool) (lastApplied : Nat) (s : Device) : Device :=
  let s1 := s.retrained die ok lastApplied
  if ok then s1.portBack die mOliner lastApplied else s1

/-- The body of UNIT_ENABLE (R437, R438, R441): a function that software disabled is reset and takes requests again; one that hardware
disabled stays so until reset. -/
def unitEnableBody (die u : Nat) (s : Device) : Device :=
  s.unitRequest die u 2 fun s =>
    if ¬ unitAlone u ∨ (u < mDma ∧ s.coreDisabled (die * 64 + u) ∧ ¬ s.err.disabled.contains (die * 256 + u)) then s.unitResult die 3
    else if s.err.disabled.contains (die * 256 + u) then
      let s1 := ((s.clearUnit die u).markDisabled die u 0).unfence die u
      ({ s1 with err := { s1.err with disabled := s1.err.disabled.filter (· ≠ die * 256 + u) } }).unitResult die 0
    else s.unitResult die 0

/-- Hardware disables a tensor core whose CORE_LOGIC item failed (R363, R438): nothing runs on it, so nothing is left to drain. -/
def Device.disableCore (s : Device) (die core : Nat) : Device := s.markDisabled die core 1

/-- In the rc after its acceptance a request's STAGE is DRAIN (R441). -/
def Device.stageRc (s : Device) : Device :=
  (List.range 4).foldl (fun (s : Device) d => if s.rd d DIE_CTL_UNIT_RESET_STAGE = 1 then s.wr d DIE_CTL_UNIT_RESET_STAGE 2 else s) s

/-! ### The remote-add queue and the error record (R443) -/

/-- What DIE_CTL_RADD_HI and LO show: the oldest entry. -/
def Device.raddHi (s : Device) (die : Nat) : Nat :=
  match SMap.get [] s.err.raddq die with | [] => 0 | a :: _ => 2 ^ 31 + b2n a.2.2.2 * 2 ^ 30 + a.2.2.1 % 65536
def Device.raddLo (s : Device) (die : Nat) : Nat :=
  match SMap.get [] s.err.raddq die with | [] => 0 | a :: _ => a.1 % 65536 * 65536 + a.2.1 % 65536

/-- The body of RADD_POP: a read of DIE_CTL_RADD_HI answers the oldest entry and removes it. -/
def raddPopBody (die : Nat) (s : Device) : Device :=
  ({ s with err := { s.err with raddq := SMap.put [] s.err.raddq die ((SMap.get [] s.err.raddq die).drop 1) } }).answer stDONE (s.raddHi die)

/-- The body of ERR_STATUS_CLEAR: the W1C bits, and an error of the same cycle recorded after the clear: master, address, status,
REMOTE and WRITE. -/
def errClearBody (die value : Nat) (same : Option (Nat × Nat × Nat × Bool × Bool)) (s : Device) : Device :=
  let s1 := if bit value 31 then (s.clr die DIE_CTL_ERR_STATUS_VALID).clr die DIE_CTL_ERR_STATUS_OVERFLOW
    else if bit value 30 then s.clr die DIE_CTL_ERR_STATUS_OVERFLOW else s
  match same with
  | some (m, a, st, remote, write) => s1.recordErr die m a st remote write
  | none => s1

/-- The body of HOST_STORE_ERROR (R450, R443), for stores that are no request of the table, such as write-backs of the caches: each failed store is recorded and counted, the lower address first where several fail in
one cycle, and the hart's M-level file receives HOST_ERR_CFG.ID. -/
def hostStoreErrorBody (die hart : Nat) (fails : List (Nat × Nat)) (s : Device) : Device :=
  let low := fails.foldl (fun (m : Option (Nat × Nat)) f => match m with | some x => if f.1 < x.1 then some f else some x | none => some f) none
  let ordered := match low with | some f => f :: fails.erase f | none => []
  let s1 := ordered.foldl (fun s f => (s.addHold die (HOST_STORE_ERR_COUNT hart) 1).recordErr die (mHost + hart) f.1 f.2 false true) s
  if fails.isEmpty then s1 else s1.setEip die hart 0 (s1.rd die HOST_ERR_CFG_ID)

/-! ### The conservation audit (R439) -/

/-- Two 16-bit counts differ by a number, modulo 65,536. -/
def Device.gap (s : Device) (die : Nat) (a b : Fld) (n : Nat) : Bool :=
  (s.rd die a + 65536 - s.rd die b % 65536) % 65536 = n % 65536

/-- The pairs that fail on a die, as block and offset. -/
def Device.auditDie (s : Device) (d : Nat) : List (Nat × Nat) :=
  let chk := fun (ok : Bool) (blk off : Nat) => if ok then [] else [(blk, off)]
  let here := fun (c : Nat) => c / 64 = d
  let clusters := (List.range 8).flatMap fun k =>
    let mine := fun (c : Nat) => c / 8 = d * 8 + k
    let rows := s.att.cmds.any fun a => a.issue.cores.any mine && a.rows.any fun r => r.stage ≠ .ended
    let chunk := s.chunks.any fun c => mine c.head
    ((List.range 8).flatMap fun n =>
      chk ((List.range 128).all fun i => decide (i < s.rd d (CLUSTER_PAD_POOL_SLOTS k)) || (SMap.get {} s.att.slots ((d * 64 + k * 8 + n) * 128 + i)).st = 0)
        (8 + k) (0x440 + 4 * n)) ++
    chk (rows || s.gap d (CLUSTER_PAD_AUDIT_REF_ADDS k) (CLUSTER_PAD_AUDIT_REF_SUBS k) 0) (8 + k) 0x480 ++
    chk (rows || s.rd d (CLUSTER_MERGE_AUDIT_PARTIAL_IN k) = 8 * s.rd d (CLUSTER_MERGE_AUDIT_PARTIAL_OUT k) % 65536) (8 + k) 0x484 ++
    chk (chunk || s.gap d (CLUSTER_REC_AUDIT_ARRIVE k) (CLUSTER_REC_AUDIT_RELEASE k) 0) (8 + k) 0x224
  let kernels := (s.disp.kernels.any fun k => k.ring / 65536 = d) || s.disp.rings.any fun e => decide (e.1 / 65536 = d) && e.2.fetched
  let dmas := (List.range 16).filter fun e => (s.dmaRun d e).isSome
  let remote := s.oliner.reqs.filter fun r => tagDie r.tag.id = d && (tagEngine r.tag.id).isSome
  let counts := (s.regul.count.filter fun e => e.1 / 4096 = d).foldl (fun n e => n + e.2) 0
  let queues := (List.range 64).map fun c => s.portQueue d c
  let held := (s.olPort d).held.foldl (fun n e => n + e.2) 0
  let solving := (List.range 16).any fun p => match SMap.get none s.solve.solves (d * 16 + p) with | some x => x.running | none => false
  let partials := ((List.range 16).filter fun p => s.on d (REFLEX_SOLVE_PROG_STATE_PARTIAL p)).length
  clusters ++
  chk ((s.coll.active.any fun c => c.parts.any fun p => here p.core) || s.gap d DISPATCH_COLL_AUDIT_OPENED DISPATCH_COLL_AUDIT_CLOSED 0) 5 0x8014 ++
  chk (s.gap d DISPATCH_SEG_AUDIT_WRITTEN DISPATCH_SEG_AUDIT_FREED (s.rd d DISPATCH_SEG_STATUS_OCCUPIED)) 5 0x8024 ++
  chk (kernels || s.gap d DISPATCH_AUDIT_FETCHED DISPATCH_AUDIT_RETIRED 0) 5 0x40 ++
  chk (s.rd d DMA_AUDIT_DESC_OUT = dmas.length && s.rd d DMA_AUDIT_REQ_OUT = remote.length) 4 0x8 ++
  chk (s.gap d REGULATE_AUDIT_ISSUED REGULATE_AUDIT_RETIRED counts) 7 0x60 ++
  chk (s.gap d REGULATE_QUEUE_AUDIT_ADMITTED REGULATE_QUEUE_AUDIT_SERVED (queues.foldl (fun n q => n + q.length) 0) &&
    queues.all fun q => (q.filter (· = false)).length ≤ 24) 7 0x64 ++
  chk (!(s.checksOn d).isEmpty || s.gap d REFLEX_COLL_AUDIT_ISSUED REFLEX_COLL_AUDIT_ENDED 0) 18 0x84 ++
  chk (solving || s.gap d REFLEX_SOLVE_AUDIT_STARTED REFLEX_SOLVE_AUDIT_ENDED partials) 16 0x28 ++
  chk (s.gap d REFLEX_CTRL_AUDIT_DUE REFLEX_CTRL_AUDIT_RUN 0) 17 0xC ++
  chk (s.gap d REFLEX_CTRL_STREAM_AUDIT_WRITTEN REFLEX_CTRL_STREAM_AUDIT_FREED
    ((List.range 64).filter fun i => let f := s.stFlags d (i / 4) (i % 4); bit f 0 && !bit f 2).length) 17 0x10 ++
  chk (s.rd d SELFTEST_STATUS_LANES_BUSY ≠ 0 || s.gap d SELFTEST_AUDIT_HELD SELFTEST_AUDIT_RELEASED 0) 22 0x54 ++
  chk (s.gap d OLINER_AUDIT_SENT OLINER_AUDIT_RETURNED held) 25 0x10 ++
  chk (s.gap d DIE_CTL_BRIDGE_AUDIT_ROW_SENT DIE_CTL_BRIDGE_AUDIT_ROW_RETURNED 0) 0 0x20 ++
  chk (s.gap d DIE_CTL_BRIDGE_AUDIT_COL_SENT DIE_CTL_BRIDGE_AUDIT_COL_RETURNED 0) 0 0x24

/-- The pairs kept on die 0 alone, and the sync adds between dies, less those that left the device or were lost at a bridge, and those that came from other
devices (R218, R225, R245, R264). -/
def Device.auditDevice (s : Device) : List (Nat × Nat) :=
  let clients := (List.range 256).filter fun c =>
    s.rd 0 (DISPATCH_CLIENT_ACTIVE_COUNT c) ≠
      (s.rd 0 (DISPATCH_CLIENT_ADMITTED_COUNT c) + 2 * 2 ^ 32 - s.rd 0 (DISPATCH_CLIENT_COMPLETED_COUNT c) - s.rd 0 (DISPATCH_CLIENT_ENDED_COUNT c)) % 2 ^ 32
  let sent := (s.rd 1 INGEST_AUDIT_SENT + s.rd 2 INGEST_AUDIT_SENT + s.rd 3 INGEST_AUDIT_SENT) % 65536
  let sums := fun (f : Fld) => (List.range 4).foldl (fun n d => n + s.rd d f) 0
  let tracks := s.rd 0 FUSION_TRACKS_LIVE_COUNT_A + s.rd 0 FUSION_TRACKS_LIVE_COUNT_B + s.rd 0 FUSION_TRACKS_IDLE_COUNT_A + s.rd 0 FUSION_TRACKS_IDLE_COUNT_B
  (clients.map fun c => (5, 0x4000 + 16 * c)) ++
  (if sent = s.rd 0 INGEST_AUDIT_RECEIVED then [] else [(20, 0x40)]) ++
  (if (sums SYNC_AUDIT_SENT + s.err.addsIn) % 65536 = (sums SYNC_AUDIT_RECEIVED + s.err.addsOut) % 65536 then [] else [(6, 0x18)]) ++
  (if tracks = 4096 then [] else [(19, 0x24)]) ++
  (if s.fusion.dets ≠ [] ∨ s.gap 0 FUSION_AUDIT_DET_IN FUSION_AUDIT_DET_TAKEN 0 then [] else [(19, 0x2C)])

/-- The snapshot of a sample edge (R43, R439): every pair that does not match, with what was noted before. -/
def Device.auditEdge (s : Device) : Device :=
  let found := ((List.range 4).flatMap fun d => (s.auditDie d).map fun p => (d, p.1, p.2)) ++ (s.auditDevice.map fun p => (0, p.1, p.2))
  { s with err := { s.err with snap := found ++ s.err.mismatch, mismatch := [] } }

/-- The body of CONSERVATION_AUDIT (R439, R443, R264): at rc 1,024 every mismatch of the snapshot is a C3 error: the die's first one since reset is
recorded, the islands receive AUDIT, and one among the fusion counters raises F4 with cause AUDIT. -/
def auditBody (s : Device) : Device :=
  s.err.snap.foldl (fun (s : Device) m =>
    let s1 := if s.on m.1 DIE_CTL_AUDIT_ERR_VALID then s
      else ((s.set m.1 DIE_CTL_AUDIT_ERR_VALID).wr m.1 DIE_CTL_AUDIT_ERR_BLOCK m.2.1).wr m.1 DIE_CTL_AUDIT_ERR_OFFSET m.2.2
    let s2 := s1.raiseCause cAUDIT m.1 0
    if m.2.1 = 19 ∨ m.2.1 = 20 then s2.raiseF4 4 else s2) { s with err := { s.err with snap := [] } }

end Sys2Proof.Machine
end

