-- ==== Sys2Proof/Machine/SelfTest.lean ====
section
/-!
DEFINITION. Self-test and repair (chapter 16): test items, the lanes and their schedule, aborts, restores, and fail records.
A row that a lane holds is served from its save buffer (R360) and every access sees the saved contents, so the model keeps a held
row's contents at the row's own address.
-/
namespace Sys2Proof.Machine

/-! ### Items (R355, R356) -/

/-- The fields of an item record, from its four words. -/
def tiTarget (w : List Nat) : Nat := bits (wd w 0) 0 8
def tiAlgo (w : List Nat) : Nat := bits (wd w 0) 8 8
def tiUnit (w : List Nat) : Nat := bits (wd w 0) 16 8
def tiWhere (w : List Nat) : Nat := bits (wd w 0) 24 8
def tiTier (w : List Nat) : Nat := bits (tiWhere w) 0 2
def tiBank (w : List Nat) : Nat := bits (tiWhere w) 3 3
def tiFirst (w : List Nat) : Nat := wd w 1
def tiRows (w : List Nat) : Nat := bits (wd w 2) 0 16 + 1
def tiTick (w : List Nat) : Nat := bits (wd w 2) 16 16

/-- Bytes and base of a store that an item names by UNIT. -/
def storeBytes (u : Nat) : Nat := if u < 0x40 then 0x40000 else if u < 0x48 then 0x200000 else if u = 0x48 then 0x1000000 else 0x800000
def storeOf (die u : Nat) : Nat :=
  if u < 0x40 then coreStoreBase die u else if u < 0x48 then clusterStoreBase die (u - 0x40)
  else if u = 0x48 then reflexBase die else fusionBase die

/-- An item that no rule of R355 refuses: known codes, a region inside its bank or store, unused bytes 0. -/
def itemOk (w : List Nat) : Bool :=
  wd w 3 = 0 && (tiTick w < 1024 || tiTick w = 0xFFFF) &&
  match tiTarget w with
  | 0 => tiAlgo w ≤ 1 && tiUnit w < 64 && tiTier w ≠ 0 && tiWhere w / 64 = 0 && bits (tiWhere w) 2 1 = 0 && tiRows w ≤ 256 &&
      tiFirst w + tiRows w ≤ 12288
  | 1 => tiAlgo w ≤ 1 && tiUnit w ≤ 0x49 && tiWhere w = 0 && tiRows w ≤ 256 && tiFirst w + tiRows w ≤ storeBytes (tiUnit w) / 64
  | 2 => tiUnit w < 64 && tiWhere w = 0
  | _ => false

/-- An item's budget in rc at a fabric clock (R356). -/
def itemBudget (w : List Nat) (mhz : Nat) : Nat :=
  if tiTarget w = 2 then 32 + (1024 * 600 + mhz - 1) / mhz
  else 32 + (2 + if tiAlgo w = 0 then 10 else 4) * tiRows w

/-- The address of row `i` of an item's region (R60, R64). -/
def itemRow (die : Nat) (w : List Nat) (i : Nat) : Nat :=
  if tiTarget w = 0 then columnBase die (tiUnit w) + (tiTier w - 1) * tierBytes + 64 * (8 * (tiFirst w + i) + tiBank w)
  else storeOf die (tiUnit w) + 64 * (tiFirst w + i)

/-- Two items use the same bank, or the same store (R357). -/
def sameBank (a b : List Nat) : Bool :=
  tiTarget a = tiTarget b && tiTarget a < 2 && tiUnit a = tiUnit b && tiWhere a = tiWhere b

/-! ### The engine -/

/-- A die's engine, and writing it back with what its registers show of it. -/
def Device.tester (s : Device) (die : Nat) : SelfTest := SMap.get {} s.selfTest die
def Device.setTester (s : Device) (die : Nat) (x : SelfTest) : Device :=
  let lanes := ((List.range 8).filter fun n => (SMap.get none x.lanes n).isSome).foldl (fun v n => v + 2 ^ n) 0
  (({ s with selfTest := SMap.put {} s.selfTest die x }).wr die SELFTEST_STATUS_LANES_BUSY lanes).wr die SELFTEST_FAIL_STATUS_COUNT x.queue.length

/-- The lanes in use, and the lowest free one. -/
def SelfTest.inUse (x : SelfTest) : List Lane := (List.range 8).filterMap fun n => SMap.get none x.lanes n
def SelfTest.free (x : SelfTest) : Option Nat := (List.range 8).find? fun n => (SMap.get none x.lanes n).isNone

/-- A word lies in a row that a lane holds saved: the scrubber skips it (R74, R359). -/
def Device.heldWord (s : Device) (die w : Nat) : Bool :=
  (s.tester die).inUse.any fun l => l.save && tiTarget l.item < 2 &&
    (List.range (tiRows l.item)).any fun i => decide (8 * w / 64 = itemRow die l.item i / 64)

/-- No word of a line is in error any more. -/
def Device.clearErr (s : Device) (a : Nat) : Device := (wordsOf a 64).foldl (fun s w => s.setEcc w none) s

/-- A held row is a saved copy: an uncorrectable word before a test is one after it (R360). A destructive item leaves its region free
from its start on: each byte is a free value until the test's final pattern stands there. -/
def Device.scramble (s : Device) (die : Nat) (w : List Nat) : Device :=
  (List.range (tiRows w)).foldl (fun s i => (s.undefine [(itemRow die w i, 64)]).clearErr (itemRow die w i)) s

/-- An item starts on a lane (R357, R359): its rows are held, or a destructive one overwrites them. -/
def Device.startItem (s : Device) (die lane : Nat) (w : List Nat) (pos : Option Nat) (save : Bool) : Device :=
  let x := s.tester die
  let s1 := s.setTester die { x with lanes := SMap.put none x.lanes lane (some { item := w, pos := pos, save := save }) }
  if tiTarget w = 2 then s1
  else if save then s1.addWrap die SELFTEST_AUDIT_HELD (tiRows w)
  else s1.scramble die w

/-- Why an item cannot start now: 1 its tick, 2 no lane, 3 its bank or store is held, 4 its core is busy, 5 it does not fit before the
safety window; 0 where it can (R357, R358). -/
def Device.cannotStart (s : Device) (die : Nat) (w : List Nat) : Nat :=
  let x := s.tester die
  if tiTick w ≠ 0xFFFF ∧ tiTick w ≠ s.tick then 1
  else if x.free.isNone then 2
  else if x.inUse.any fun l => sameBank l.item w then 3
  else if tiTarget w = 2 ∧ (s.coreBusy (die * 64 + tiUnit w) ∨ (s.cmd (die * 64 + tiUnit w)).isSome) then 4
  else if s.safetyStart < s.rc + itemBudget w (s.fabricMHz die) then 5
  else 0

/-- The walk of the sequence (R357): items start in order on free lanes until one cannot; at most `n` of them. -/
def Device.walkItems (s : Device) (die : Nat) : Nat → Device
  | 0 => s
  | n + 1 =>
    let x := s.tester die
    let len := s.rd die SELFTEST_SEQ_LEN
    let pos := s.rd die SELFTEST_SEQ_POS_POS
    match x.seq[pos]? with
    | none => s
    | some w =>
      if len ≤ pos then s
      else
        let why := s.cannotStart die w
        if 4 ≤ why then s.addHold die SELFTEST_COUNT_DEFERRED 1
        else if why ≠ 0 then s
        else
          let s1 := s.startItem die (x.free.getD 0) w (some pos) true
          let s2 := if pos + 1 = len then (s1.clr die SELFTEST_SEQ_POS_POS).addWrap die SELFTEST_PASSES_PASSES 1
            else s1.wr die SELFTEST_SEQ_POS_POS (pos + 1)
          s2.walkItems die n

/-- A manual item that waits takes the first free lane, ahead of the sequence (R357). -/
def Device.walkManual (s : Device) (die : Nat) : Device :=
  let x := s.tester die
  match x.manual with
  | none => s
  | some (w, save) =>
    let why := s.cannotStart die w
    if 4 ≤ why then s.addHold die SELFTEST_COUNT_DEFERRED 1
    else if why ≠ 0 then s
    else (s.setTester die { x with manual := none }).startItem die (x.free.getD 0) w none save

/-- The body of SELFTEST_WALK: in the test window of a ready device, once the scrub burst has ended. RETIRED runs nothing (R354). -/
def selftestWalkBody (die : Nat) (s : Device) : Device :=
  if s.testStart ≤ s.rc ∧ s.rc < s.safetyStart ∧ s.on 0 EFT_BOOT_STATUS_READY ∧ s.rd 0 EFT_LC_STATE ≠ 5 then
    let s1 := (s.setTester die { s.tester die with back := none }).walkManual die
    if s1.on die SELFTEST_CTL_SEQ_EN then s1.walkItems die 9 else s1
  else s

/-! ### The end of an item (R358, R360 to R363) -/

/-- A lane frees; a manual item has completed, with its result, and the islands leave TEST mode (R345, R354). -/
def Device.freeLane (s : Device) (die lane : Nat) (l : Lane) : Device :=
  let x := s.tester die
  let s1 := s.setTester die { x with lanes := SMap.put none x.lanes lane none }
  if l.pos.isSome then s1
  else
    let s2 := (s1.clr die SELFTEST_STATUS_MAN_BUSY).wr die SELFTEST_STATUS_MAN_RESULT x.result
    let s3 := s2.setTester die { s2.tester die with mode := none, result := 0 }
    match x.mode with
    | some m => [0, 1].foldl (fun (s : Device) i => if s.rd i SAFETY_STATUS_MODE = 2 then s.wr i SAFETY_STATUS_MODE m else s) s3
    | none => s3

/-- Note what a manual item's MAN_RESULT will be. -/
def Device.manualResult (s : Device) (die : Nat) (l : Lane) (r : Nat) : Device :=
  if l.pos.isSome then s else s.setTester die { s.tester die with result := r }

/-- An aborted item stays at its sequence position, to be started again (R358): the walk goes back to it, or to one before it that was aborted
in the same window. -/
def Device.setBack (s : Device) (die p : Nat) : Device :=
  let len := s.rd die SELFTEST_SEQ_LEN
  let to' := match (s.tester die).back with
    | some q => if (p + len - q) % len ≤ len / 2 then q else p
    | none => p
  (s.wr die SELFTEST_SEQ_POS_POS to').setTester die { s.tester die with back := some to' }

/-- The body of SELFTEST_GUARD_ABORT (R358): a memory item at its guard point restores its rows, a logic item at the safety window just stops;
a sequence item stays at its position, to be started again. -/
def guardAbortBody (die lane : Nat) (s : Device) : Device :=
  match SMap.get none (s.tester die).lanes lane with
  | none => s
  | some l =>
    let guard := if tiTarget l.item = 2 then s.safetyStart else s.safetyStart - (tiRows l.item + 16)
    if l.restore ∨ s.rc < guard then s
    else
      let s1 := (s.addHold die SELFTEST_COUNT_ABORTED 1).manualResult die l 2
      let s2 := match l.pos with | some p => s1.setBack die p | none => s1
      if tiTarget l.item = 2 ∨ ¬ l.save then s2.freeLane die lane l
      else s2.setTester die { s2.tester die with lanes := SMap.put none (s2.tester die).lanes lane (some { l with restore := true }) }

/-- The body of SELFTEST_RESTORE_DONE (R360): the last restore write is done, and every row is released. -/
def restoreDoneBody (die lane : Nat) (s : Device) : Device :=
  match SMap.get none (s.tester die).lanes lane with
  | none => s
  | some l => if l.restore then (s.addWrap die SELFTEST_AUDIT_RELEASED (tiRows l.item)).freeLane die lane l else s

/-- A fail record enters the queue of 256, or is dropped (R362). -/
def Device.failRecord (s : Device) (die : Nat) (rec : List Nat) : Device :=
  let s1 := s.addHold die SELFTEST_COUNT_FAILS 1
  let x := s1.tester die
  if 256 ≤ x.queue.length then s1.set die SELFTEST_FAIL_STATUS_OVERFLOW else s1.setTester die { x with queue := x.queue ++ [rec] }

/-- The words of a fail record: KIND, INDEX, BIT and BITS beside what the item gives. -/
def Device.failWords (s : Device) (die lane : Nat) (w : List Nat) (kind index bit_ bits_ : Nat) : List Nat :=
  [kind + 256 * die + 65536 * tiUnit w + 2 ^ 24 * tiWhere w, index, bit_ + 65536 * min bits_ 255 + 2 ^ 24 * lane, s.readyTick % 2 ^ 32]

/-- The failing rows of an item, ascending, from its failing bits (row in the region, bit). -/
def failRows (fails : List (Nat × Nat)) (n : Nat) : List Nat := (List.range n).filter fun i => fails.any (·.1 = i)

/-- The bits of a row that fail. -/
def rowBits (fails : List (Nat × Nat)) (i : Nat) : List Nat := ((fails.filter (·.1 = i)).map (·.2)).eraseDups

/-- The bit positions that fail in two or more rows (R362). -/
def bitLines (fails : List (Nat × Nat)) (n : Nat) : List Nat :=
  (List.range 576).filter fun b => 2 ≤ ((List.range n).filter fun i => (rowBits fails i).contains b).length

/-- The records of a memory item's failures (R362): bit lines of a Pond bank, then each row that they do not wholly explain; every failing line
of a store. BITS of a bit line is not stated: a free value. -/
def Device.recordFails (s : Device) (die lane : Nat) (w : List Nat) (fails : List (Nat × Nat)) : Device :=
  let pond := tiTarget w = 0
  let lines := if pond then bitLines fails (tiRows w) else []
  let s1 := lines.foldl (fun (s : Device) b =>
    ({ s with fresh := s.fresh + 1 }).failRecord die (s.failWords die lane w 2 (tiFirst w) b (Config.freeWord s.fresh % 256))) s
  ((failRows fails (tiRows w)).filter fun i => (rowBits fails i).any fun b => !lines.contains b).foldl (fun (s : Device) i =>
    let bs := rowBits fails i
    let s1 := s.failRecord die (s.failWords die lane w (if pond then 1 else 3) (tiFirst w + i) (if bs.length = 1 then bs.headD 0 else 0xFFFF) bs.length)
    if ¬ pond ∧ tiUnit w = 0x48 then s1.raiseCause cSTORE_UE die 0
    else if ¬ pond ∧ tiUnit w = 0x49 then (s1.raiseCause cSTORE_UE die 0).raiseF4 2
    else s1) s1

/-- The final pattern of a destructive item (R354, R355): zeros after MARCH_C; after CHECKER the inverse checkerboard, whose phase
the manual does not state, so the free values stand. -/
def Device.finalPattern (s : Device) (die : Nat) (w : List Nat) : Device :=
  if tiAlgo w = 0 then (List.range (tiRows w)).foldl (fun s i => s.store (itemRow die w i) 0 64) s else s

/-- The body of SELFTEST_ITEM_DONE (R361 to R363): failures are recorded; a memory item begins its restore, a destructive one leaves its final
pattern; a failing core is disabled, and a logic test leaves the engines' staging and accumulators cleared. `fails` are the failing
bits as (row, bit), or for CORE_LOGIC the failing units as (unit, 0). -/
def itemDoneBody (die lane : Nat) (fails : List (Nat × Nat)) (s : Device) : Device :=
  match SMap.get none (s.tester die).lanes lane with
  | none => s
  | some l =>
    if l.restore then s
    else
      let w := l.item
      let s0 := if fails.isEmpty then s else s.manualResult die l 1
      if tiTarget w = 2 then
        let s1 := { s0 with link := SMap.put none s0.link (die * 64 + tiUnit w) none }
        let units := ((List.range 5).filter fun u => fails.any (·.1 = u)).foldl (fun v u => v + 2 ^ u) 0
        let s2 := if units = 0 then s1
          else
            let s2 := ({ s1 with fresh := s1.fresh + 2 }).failRecord die
              (s1.failWords die lane w 4 units (Config.freeWord s1.fresh % 65536) (Config.freeWord (s1.fresh + 1) % 256))
            (s2.set die SELFTEST_STATUS_LOGIC_FAIL).disableCore die (tiUnit w)
        s2.freeLane die lane l
      else
        let s1 := s0.recordFails die lane w fails
        if l.save then
          s1.setTester die { s1.tester die with lanes := SMap.put none (s1.tester die).lanes lane (some { l with restore := true }) }
        else (s1.finalPattern die w).freeLane die lane l

/-! ### Manual items and the fail queue (R354, R364) -/

/-- The life-cycle states that accept manual items (R354). -/
def manualState (st : Nat) : Bool := st = 0 || st = 1 || st = 4

/-- The body of SELFTEST_MAN_START: a write of SELFTEST_MAN_CTL. START is refused while an item waits or runs, or for SAVE = 0 with
WINDOW = 1; an item refused by the life-cycle state or for its fields completes with DONE and no effect, and sets REFUSED. With WINDOW = 0 it
starts at once and the islands are in TEST mode for its duration, where a lane and its bank are free and it fits before the safety window;
else it waits for the next window. -/
def manStartBody (die value : Nat) (s : Device) : Device :=
  let start := bit value 31
  let window := bit value 1
  let save := bit value 0
  if start ∧ (s.on die SELFTEST_STATUS_MAN_BUSY ∨ (¬ save ∧ window)) then s.set die SELFTEST_STATUS_RANGE_ERR
  else
    let s1 := (s.wr die SELFTEST_MAN_CTL_WINDOW (b2n window)).wr die SELFTEST_MAN_CTL_SAVE (b2n save)
    if ¬ start then s1
    else
      let w := (List.range 4).map fun n => s1.rd die (SELFTEST_MAN_ITEM_WORD n)
      if ¬ manualState (s1.rd 0 EFT_LC_STATE) ∨ ¬ itemOk w then
        (s1.set die SELFTEST_STATUS_REFUSED).wr die SELFTEST_STATUS_MAN_RESULT 0
      else
        let s2 := s1.set die SELFTEST_STATUS_MAN_BUSY
        if window ∨ s2.cannotStart die w ≠ 0 then s2.setTester die { s2.tester die with manual := some (w, save) }
        else
          let x := s2.tester die
          let s3 := s2.setTester die { x with mode := some (s2.rd 0 SAFETY_STATUS_MODE) }
          let s4 := [0, 1].foldl (fun (s : Device) i => s.wr i SAFETY_STATUS_MODE 2) s3
          s4.startItem die (x.free.getD 0) w none save

/-- The word that SELFTEST_FAIL_n shows: a word of the oldest record, 0 when the queue is empty. -/
def Device.failWord (s : Device) (die n : Nat) : Nat := wd ((s.tester die).queue.headD []) n

/-- The body of SELFTEST_FAIL_POP: a read of SELFTEST_FAIL_3 answers the record's last word and removes the record. -/
def failPopBody (die : Nat) (s : Device) : Device :=
  let x := s.tester die
  (s.setTester die { x with queue := x.queue.drop 1 }).answer stDONE (s.failWord die 3)

end Sys2Proof.Machine
end

