-- ==== Sys2Proof/Machine/Power.lean ====
section
/-!
DEFINITION. Power, temperature and operating points (chapter 17): the grants of Bask and the changes of point at a sample edge,
temperature, the power estimate, calibration, the cap, and ageing.
-/
namespace Sys2Proof.Machine

/-! ### Operating points (R366, R367) -/

/-- The fabric clock of a point in MHz, and the bounds of its voltage in mV. -/
def opMHz (op : Nat) : Nat := if op = 0 then 0 else 75 * (op + 1)
def opVmin (op : Nat) : Nat := [0, 600, 620, 650, 680, 720, 760, 800].getD op 0
def opVmax (op : Nat) : Nat := [0, 680, 700, 730, 770, 810, 860, 920].getD op 0

/-- The fabric clocks in a tick of `period` rc, `hold` of which the clock is held (R367). -/
def fcInTick (op period hold : Nat) : Nat := (period - hold) * opMHz op / 600

/-- A die's part of Bask, and writing it back. -/
def Device.baskDie (s : Device) (die : Nat) : BaskDie := SMap.get {} s.bask.dies die
def Device.setBaskDie (s : Device) (die : Nat) (x : BaskDie) : Device :=
  { s with bask := { s.bask with dies := SMap.put {} s.bask.dies die x } }

/-- The point in force on a die. -/
def Device.point (s : Device) (die : Nat) : Nat := s.rd die BASK_STATUS_GRANT

/-- Three dies or more are granted OP1 to OP7, and CAL_EN is 1 (R378). -/
def Device.calOn (s : Device) : Bool :=
  s.on 0 BASK_CTL_CAL_EN && decide (3 ≤ ((List.range 4).filter fun d => s.point d ≠ 0).length)

/-- The fields of BASK_STATUS and BASK_PARK that follow from the rest (R386). -/
def Device.baskViews (s : Device) : Device :=
  let s1 := (s.wr 0 BASK_PARK_PARKED (((List.range 16).filter s.bask.parked.contains).foldl (fun v c => v + 2 ^ c) 0)).wr 0
    BASK_STATUS_CAP_LIMITED (b2n (decide (s.rd 0 BASK_STATUS_CAP_CEIL < 7) || !s.bask.parked.isEmpty))
  let s2 := s1.wr 0 BASK_STATUS_CAL_ACTIVE (b2n s1.calOn)
  (List.range 4).foldl (fun (s : Device) d => s.wr d BASK_STATUS_HOT (b2n (decide (s.rd d BASK_STATUS_THERM_CEIL < 7)))) s2

/-! ### Granting (R370, R195) -/

/-- The ceilings over a die's point: the cap's, its thermal one, and OP6 once OP7 is retired; OP0 after the 115 °C trip (R375). -/
def Device.opCeil (s : Device) (die : Nat) : Nat :=
  if s.on 0 BASK_STATUS_TRIP then 0
  else min (min (s.rd 0 BASK_STATUS_CAP_CEIL) (s.rd die BASK_STATUS_THERM_CEIL)) (if s.on 0 BASK_STATUS_OP7_RETIRED then 6 else 7)

/-- Bask's grant on a die for a phase that prefers `op` (R370). -/
def Device.opGrant (s : Device) (die op : Nat) : Nat := min op (s.opCeil die)

/-- The lowest of some points; OP7 for none. -/
def lowest (l : List Nat) : Nat := l.foldl min 7

/-- The phase that begins on a die at a tick: its preferred point. -/
def Device.phaseFrom (s : Device) (die t : Nat) : Option Nat := ((s.phaseAt die t).filter fun w => phFirst w = t).map phOp

/-- The tick `n` ticks after the present one. -/
def Device.tickAfter (s : Device) (n : Nat) : Nat := (s.tick + n) % max 1 s.frameLen

/-- A die's voltage for a point goes to its regulator: as planned, and 550 mV at OP0 (R466). -/
def Device.setVolt (s : Device) (die op : Nat) : Device :=
  let v := if op = 0 then 550 else SMap.get 0 s.bask.volts (die * 8 + op)
  if (s.baskDie die).volt = v then s else (s.setBaskDie die { s.baskDie die with volt := v }).emit (.field "VOUT" die [op, v])

/-- Bask raises the voltage in the tick before a change to a higher point (R371, step 1; R195, step 3). -/
def Device.raiseAhead (s : Device) (die op : Nat) : Device := if s.point die < op then s.setVolt die op else s

/-- The dies on which a phase begins `n` ticks on raise their voltage ahead for an agreed point. -/
def Device.raiseAgreed (s : Device) (g : Nat) : Device :=
  (List.range 4).foldl (fun (s : Device) d => if (s.phaseFrom d (s.tickAfter 1)).isSome then s.raiseAhead d (min g (s.opCeil d)) else s) s

/-- Chorus passes the point of the phase that begins `n` ticks on to Bask, which grants it (R46, R195, R370). -/
def Device.passPhase (s : Device) (n : Nat) : Device :=
  let t := s.tickAfter n
  (List.range 4).foldl (fun (s : Device) d => match s.phaseFrom d t with
    | some op =>
      let s1 := s.setBaskDie d { s.baskDie d with coming := SMap.put none (s.baskDie d).coming t (some (s.opGrant d op)) }
      if n = 1 then s1.raiseAhead d (s1.opGrant d op) else s1
    | none => s) s

/-- This device's grant for the phase at a tick: the lowest among its dies (R370), with what has been lowered since (R196). -/
def Device.ownGrant (s : Device) (t : Nat) : Option Nat :=
  let l := (List.range 4).filterMap fun d => (SMap.get none (s.baskDie d).coming t).map fun g => min g (s.opCeil d)
  if l.isEmpty then none else some (lowest l)

/-- The lowest point in force among the dies, which each heartbeat reports (R195, R410). -/
def Device.pointNow (s : Device) : Nat := lowest ((List.range 4).map s.point)

/-- Words of a heartbeat that carries a grant for the leader, or the agreed point for a member. -/
def Device.opWords (s : Device) (code op : Nat) : List Nat :=
  [s.chorus.edgeTime % 2 ^ 32, s.chorus.edgeTime / 2 ^ 32, s.readyTick, s.tick, s.pointNow, b2n (s.on 0 SAFETY_STATUS_TAIL_ACTIVE),
    s.rd 0 CHORUS_STATUS_LOCK_STATE, code, op]

/-- Agreement at a sample edge (R195): two ticks before a phase each member sends its grant to the leader, and one tick before it the
leader sends the lowest grant it holds, its own included, to every member. -/
def Device.agreeEdge (s : Device) : Device :=
  match s.syncOpGroup with
  | none => s
  | some (_, members) =>
    let own := s.ownId
    let leader := members.headD own
    let s1 := match s.ownGrant (s.tickAfter 2) with
      | some g => if leader = own then s else s.sendFlit leader 8 0 true true (s.opWords 1 g)
      | none => s
    match s1.ownGrant (s1.tickAfter 1) with
    | some g =>
      if leader = own then
        let low := lowest (g :: s1.bask.grants.map (·.2))
        let s2 : Device := { s1 with bask := { s1.bask with grants := [], agreed := some (s1.chorus.tickNo + 1, low) } }
        (members.filter (· ≠ own)).foldl (fun (s : Device) m => s.sendFlit m 8 0 true true (s.opWords 2 low)) (s2.raiseAgreed low)
      else s1
    | none => s1

/-- A member's grant arrives at the leader (R195). -/
def Device.takeGrant (s : Device) (src g : Nat) : Device :=
  { s with bask := { s.bask with grants := (s.bask.grants.filter (·.1 ≠ src)) ++ [(src, g)] } }

/-- The agreed point of the phase that begins at the next edge arrives at a member, whose voltage rises at once where the point does (R195). -/
def Device.takeAgreed (s : Device) (g : Nat) : Device :=
  ({ s with bask := { s.bask with agreed := some (s.chorus.tickNo + 1, g) } } : Device).raiseAgreed g

/-- The point granted to the phase that begins in this tick on a die (R195, R370): its own grant, or in a group with SYNC_OP the agreed
point, or without it the lower of its own and the last agreed one. The ceilings in force bind it in any case. -/
def Device.phaseGrant (s : Device) (die : Nat) : Option Nat :=
  match s.phaseFrom die s.tick with
  | none => none
  | some op =>
    let own := (SMap.get none (s.baskDie die).coming s.tick).getD (s.opGrant die op)
    let g := if s.syncOpGroup.isNone then own
      else match s.bask.agreed with
        | some (t, a) => if t = s.chorus.tickNo then a else min ((s.ownGrant s.tick).getD own) a
        | none => (s.ownGrant s.tick).getD own
    some (min g (s.opCeil die))

/-- A die's point is set (R371): its clock at this edge, and its voltage as planned where it is not there already. -/
def Device.applyPoint (s : Device) (die op : Nat) : Device := (s.wr die BASK_STATUS_GRANT op).setVolt die op

/-- A die's point at a sample edge (R371, R372): the phase's grant, a raise that was late, a lowering that is due and the ceilings merge
into the lowest; a raise whose regulator is late waits for the next edge, and a change holds the fabric clock. A grant of the point in force
takes up a voltage that a re-plan has raised (R384). Lowerings of several causes at one edge count once in EMERG (DESIGN CHOICE, entry 230). -/
def Device.pointEdge (s : Device) (die : Nat) (late : Bool) : Device :=
  let x := s.baskDie die
  let old := s.point die
  let ceil := s.opCeil die
  let wish := [s.phaseGrant die, x.late, x.drop].filterMap id
  let want := lowest (if wish.isEmpty then [old] else wish)
  -- lowered by a ceiling: at once by the cap, at this edge for a lowering noted at the last one
  let emerg := (match x.drop with | some d => decide (d < old) | none => false) || decide (s.rd 0 BASK_STATUS_CAP_CEIL < old)
  let new := min want (if emerg ∨ want ≠ old then ceil else old)
  let s1 := match s.phaseFrom die s.tick with | some op => s.wr die BASK_STATUS_PREF op | none => s
  let s2 := s1.setBaskDie die { x with coming := SMap.put none x.coming s.tick none, late := none, drop := none }
  if old < new ∧ late then
    (s2.setBaskDie die { s2.baskDie die with late := some new }).addHold die BASK_COUNT_LATE_RAISE 1
  else
    let s3 := if emerg ∧ new < old then s2.addHold die BASK_COUNT_EMERG 1 else s2
    if new = old then (if (s.phaseGrant die).isSome then s3.setVolt die old else s3)
    else (s3.applyPoint die new).setBaskDie die { (s3.applyPoint die new).baskDie die with held := true }

/-- The first grant (R370): at ready each die is granted the first phase's point, in force from the first edge without a hold. -/
def Device.firstGrant (s : Device) : Device :=
  (List.range 4).foldl (fun (s : Device) d =>
    let op := ((s.phaseAt d 0).map phOp).getD 0
    (s.applyPoint d (s.opGrant d op)).wr d BASK_STATUS_PREF op) s

/-- The body of CLOCK_HOLD_END (R43, R367): the fabric clocks of the dies that changed their point run again. -/
def clockHoldEndBody (s : Device) : Device :=
  (List.range 4).foldl (fun (s : Device) d => s.setBaskDie d { s.baskDie d with held := false }) s

/-! ### Temperature (R373 to R376) -/

/-- A code in quarters of a degree as a signed number. -/
def tempOf (code : Nat) : Int := sext 16 code

/-- The sensors of a die that are not excluded and have a reading: number and temperature. -/
def Device.readings (s : Device) (die : Nat) : List (Nat × Int) :=
  (List.range 112).filterMap fun k =>
    let x := SMap.get {} s.bask.sensors (die * 128 + k)
    if x.excl then none else x.code.map fun c => (k, tempOf c)

/-- The hottest reading, the lowest-numbered sensor of several. -/
def hottest (l : List (Nat × Int)) : Option (Nat × Int) :=
  l.foldl (fun m e => match m with | some b => if b.2 < e.2 then some e else m | none => some e) none

/-- Excluded sensors of a die. -/
def Device.excluded (s : Device) (die : Nat) : Nat :=
  ((List.range 112).filter fun k => (SMap.get {} s.bask.sensors (die * 128 + k)).excl).length

/-- The thermal ceiling may not rise above this: OP1 with more than 8 sensors excluded (R373). -/
def Device.thermTop (s : Device) (die : Nat) : Nat := if 8 < s.excluded die then 1 else 7

/-- The 115 °C trip (R375): every die's fabric goes to OP0 and its Pond to PARKED (R77), the host cores' clocks stop, and the islands receive THERMAL. -/
def Device.trip (s : Device) (die : Nat) : Device :=
  let s1 := s.set 0 BASK_STATUS_TRIP
  let s2 := (List.range 4).foldl (fun (s : Device) d =>
    let s3 := (s.applyPoint d 0).setBaskDie d { (s.applyPoint d 0).baskDie d with late := none, drop := none }
    if s3.rd d POND_STATUS_MODE = 0 then s3.wr d POND_STATUS_MODE 1 else s3) s1
  s2.baskViews.raiseCause cTHERMAL die 0

/-- One conversion of every sensor of a die (R373): the code, and exclusion for a code out of range or stuck. -/
def Device.convert (s : Device) (die : Nat) (codes : List Nat) : Device :=
  let old := fun k => SMap.get ({} : Sensor) s.bask.sensors (die * 128 + k)
  let changed := (List.range 112).filter fun k => (old k).code.isSome && (old k).code ≠ some (wd codes k % 65536)
  let new := fun (k : Nat) =>
    let o := old k
    let c := wd codes k % 65536
    let same := if o.code = some c then o.same + 1 else 1
    let moved := (if o.code = some c then o.moved else false) || changed.any (· ≠ k)
    { code := some c, same := same, moved := moved,
      excl := o.excl || decide (tempOf c < -220) || decide (600 < tempOf c) || (decide (2000 ≤ same) && moved) : Sensor }
  let fails := (List.range 112).any fun k => (new k).excl && !(old k).excl
  let s1 : Device := { s with bask := { s.bask with
    sensors := (List.range 112).foldl (fun m k => SMap.put {} m (die * 128 + k) (new k)) s.bask.sensors } }
  if fails then s1.set die BASK_STATUS_SENSOR_FAIL else s1

/-- The body of TEMP_CONVERSION (R373, R375, R376): the die's 112 codes, in the order of its sensors. -/
def tempConversionBody (die : Nat) (codes : List Nat) (s : Device) : Device :=
  let before := s.readings die
  let s1 := s.convert die codes
  let now := s1.readings die
  let s2 := s1.wr die BASK_STATUS_COLD (b2n (now.any fun e => e.2 < -160))
  let s3 := match hottest now with
    | some (k, t) => (s2.wr die BASK_TEMP_MAX_SENSOR k).wr die BASK_TEMP_MAX_TEMP (wrapN 16 t)
    | none => s2
  let s4 := if s3.thermTop die < s3.rd die BASK_STATUS_THERM_CEIL then s3.wr die BASK_STATUS_THERM_CEIL 1 else s3
  if ¬ s4.on 0 BASK_STATUS_TRIP ∧ now.any fun e => 460 ≤ e.2 && before.any fun b => b.1 = e.1 && 460 ≤ b.2 then s4.trip die
  else s4.baskViews

/-- A die's thermal ceiling at a sample edge (R374): it falls one point below the point in force at the first hot edge, and by one more
after each further 1 ms of hot edges; it rises by one after each 10 ms of cool edges. A fall applies at the next edge. -/
def Device.thermalEdge (s : Device) (die : Nat) : Device :=
  match hottest (s.readings die) with
  | none => s
  | some (_, t) =>
    let hot : Int := 4 * s.rd 0 BASK_CTL_HOT_C
    let cool : Int := hot - 4 * s.rd 0 BASK_CTL_HYST_C
    let x := s.baskDie die
    let now := s.chorus.edgeTime
    let c := s.rd die BASK_STATUS_THERM_CEIL
    let lower := fun (s : Device) (n hotAt : Nat) =>
      (s.wr die BASK_STATUS_THERM_CEIL n).setBaskDie die { x with hot := some hotAt, cool := none, drop := some n }
    if hot ≤ t then
      match x.hot with
      | none => lower s (min c (s.point die - 1)) (now + 1000000)
      | some h => if h ≤ now then lower s (c - 1) (h + 1000000) else s.setBaskDie die { x with cool := none }
    else if cool ≤ t then s.setBaskDie die { x with hot := none, cool := none }
    else match x.cool with
      | none => s.setBaskDie die { x with hot := none, cool := some (now + 10000000) }
      | some h =>
        if h ≤ now then
          (s.wr die BASK_STATUS_THERM_CEIL (min (c + 1) (s.thermTop die))).setBaskDie die { x with hot := none, cool := some (h + 10000000) }
        else s.setBaskDie die { x with hot := none }

/-! ### The power estimate and calibration (R377, R378) -/

/-- A quotient as a register holds it, where which way it rounds is not stated: an exact one is itself, any other one of its two neighbours. -/
def freeDiv (x n : Nat) : Nat := x / n + b2n (decide (x % n ≠ 0) && Config.roundUp x n)

/-- A power in mW/4,096 as a register of 1/10 W holds it. -/
def toDw (x : Nat) : Nat := freeDiv x 409600

/-- The body of POWER_ESTIMATE (R377): for each die the terms of its domains, as (rail, mW), each multiplied by its rail's gain. -/
def powerEstimateBody (terms : List (List (Nat × Nat))) (s : Device) : Device :=
  let g := fun (e : Nat × Nat) => e.2 * s.rd 0 (BASK_RAIL_GAIN (e.1 % 8))
  let dies := (List.range 4).map fun d => ((terms.getD d []).map g).foldl (· + ·) 0
  let all := dies.foldl (· + ·) 0
  let s1 : Device := { s with bask := { s.bask with
    windows := s.bask.windows ++ [(s.rc, all :: dies)]
    railSum := terms.flatten.foldl (fun m e => SMap.put 0 m (e.1 % 8) (SMap.get 0 m (e.1 % 8) + g e)) s.bask.railSum
    railWins := s.bask.railWins + 1 } }
  (List.range 4).foldl (fun (s : Device) d => s.wr d BASK_DIE_POWER_NOW_DW (toDw (wd dies d))) (s1.wr 0 BASK_POWER_NOW_DW (toDw all))

/-- One rail's reading (R378): the gain moves an eighth of the way to the measured power, within 0.80 and 1.25. Where the estimate is 0
the manual states no gain: a free value within the clamp. -/
def Device.calRail (s : Device) (n : Nat) (read : Option (Nat × Nat)) : Device :=
  match read with
  | none => s.addHold 0 BASK_COUNT_CAL_SKIP 1
  | some (mV, mA) =>
    let s1 := s.wr 0 (BASK_RAIL_P_POWER_DW n) (freeDiv (mV * mA) 100000)
    let g := s.rd 0 (BASK_RAIL_GAIN n)
    let est := SMap.get 0 s.bask.railSum n
    if est = 0 then { (s1.wr 0 (BASK_RAIL_GAIN n) (3277 + Config.freeWord s1.fresh % 1844)) with fresh := s1.fresh + 1 }
    else
      -- P_est in µW is est × 1,000 / (4,096 × windows), and P_meas is mV × mA
      let num := g * (7 * (est * 1000) + mV * mA * 4096 * s.bask.railWins)
      let den := 8 * (est * 1000)
      let v := freeDiv num den
      if v < 3277 ∨ 5120 < v then (s1.wr 0 (BASK_RAIL_GAIN n) (max 3277 (min v 5120))).addHold 0 BASK_COUNT_CAL_CLAMP 1
      else s1.wr 0 (BASK_RAIL_GAIN n) v

/-- The body of CALIBRATION (R378, R468): every 1 ms, the readings of the enabled rails in mV and mA, none for one that failed or did
not fit. -/
def calibrationBody (reads : List (Nat × Option (Nat × Nat))) (s : Device) : Device :=
  let s1 := if s.calOn then
      (List.range 8).foldl (fun (s : Device) n =>
        if s.on 0 (BASK_RAIL_EN n) then s.calRail n ((reads.find? (·.1 = n)).bind (·.2)) else s) s
    else s
  { s1 with bask := { s1.bask with railSum := [], railWins := 0 } }

/-! ### The cap (R379, R380, R387) -/

/-- The body of BASK_CAP_WRITE (R379, R387). -/
def capWriteBody (die value : Nat) (atEdge : Bool) (s : Device) : Device :=
  if die ≠ 0 then s
  else if 200 ≤ bits value 0 11 ∧ bits value 0 11 ≤ 1600 then
    { s with bask := { s.bask with cap := s.bask.cap.write (bits value 0 11) atEdge } }
  else s.set 0 BASK_STATUS_RANGE_ERR

/-- The averages over the tick that ends, of the device and of the dies: of the windows that end 2,400 rc or more before the edge. -/
def Device.tickAverages (s : Device) (len : Nat) : Option (List Nat) :=
  let w := s.bask.windows.filter fun e => e.1 + 2400 ≤ len
  if w.isEmpty then none
  else some ((List.range 5).map fun i => (w.map fun e => wd e.2 i).foldl (· + ·) 0 / w.length)

/-- The classes that have an enabled ring (R204). -/
def Device.ringClasses (s : Device) : List Nat :=
  (List.range 16).filter fun c => s.disp.rings.any fun e => e.2.state = 1 && rdClass e.2.desc = c

/-- The cap's rule at a sample edge (R379): the first action whose condition holds. `cap0` is the cap during the tick that ended, which the
count of low ticks compares with. -/
def Device.capEdge (s : Device) (avg cap0 : Nat) : Device :=
  let cap := s.rd 0 BASK_CAP_CAP_DW * 409600
  let top := (List.range 4).foldl (fun m d => max m (s.point d)) 0
  let below := if 10 * avg < 9 * (cap0 * 409600) then s.bask.below + 1 else 0
  let s1 : Device := { s with bask := { s.bask with below := below } }
  if cap < avg then
    if 1 < top then s1.wr 0 BASK_STATUS_CAP_CEIL (top - 1)
    else match s1.ringClasses.find? fun c => !s1.bask.parked.contains c with
      | some c => { s1 with bask := { s1.bask with parked := c :: s1.bask.parked } }
      | none => s1.set 0 BASK_STATUS_CAP_UNMET
  else if 40 ≤ below then
    let s2 : Device := { (s1.clr 0 BASK_STATUS_CAP_UNMET) with bask := { s1.bask with below := 0, parked := s1.bask.parked.drop 1 } }
    if s1.bask.parked.isEmpty then s2.wr 0 BASK_STATUS_CAP_CEIL (min 7 (s.rd 0 BASK_STATUS_CAP_CEIL + 1)) else s2
  else s1.clr 0 BASK_STATUS_CAP_UNMET

/-- A cap that waits comes into force at a sample edge, or at the next one if it was written in the edge's own rc (R387). -/
def Device.applyCap (s : Device) : Device :=
  let s1 := match s.bask.cap.now with | some v => s.wr 0 BASK_CAP_CAP_DW v | none => s
  { s1 with bask := { s.bask with cap := s.bask.cap.pass } }

/-- Bask at a sample edge (R371 to R374, R379): the new cap, the averages of a tick of `len` rc, the cap's rule, the points of the dies
(`late` are those whose regulator has not reached a raised voltage), the thermal ceilings, and the grants of the phase to come. -/
def Device.powerEdge (s : Device) (len : Nat) (late : List Nat) : Device :=
  let cap0 := s.rd 0 BASK_CAP_CAP_DW
  let s1 := s.applyCap
  let s2 := match s1.tickAverages len with
    | some l =>
      let s2 := (List.range 4).foldl (fun (s : Device) d => s.wr d BASK_DIE_POWER_TICK_DW (toDw (wd l (d + 1))))
        (s1.wr 0 BASK_POWER_TICK_DW (toDw (wd l 0)))
      s2.capEdge (wd l 0) cap0
    | none => s1
  let s3 : Device := { s2 with bask := { s2.bask with windows := [] } }
  let s4 := (List.range 4).foldl (fun (s : Device) d => s.pointEdge d (late.contains d)) s3
  let s5 := (List.range 4).foldl (fun (s : Device) d => if s.on 0 BASK_STATUS_TRIP then s else s.thermalEdge d) s4
  let s6 := s5.passPhase (if s5.syncOpGroup.isSome then 3 else 1)
  let s7 := (List.range 4).foldl (fun (s : Device) d =>
    s.wr d BASK_AGE_HOURS (min 255 ((s.chorus.edgeTime - s.bask.aged) / 3600000000000))) s6
  s7.baskViews

/-! ### Ageing (R384, R385) -/

/-- BASK_OP_n.V_MV: the planned voltage of each point, the highest over the dies. -/
def Device.showVolts (s : Device) : Device :=
  (List.range 8).foldl (fun (s : Device) n =>
    if n = 0 then s
    else s.wr 0 (BASK_OP_V_MV n) ((List.range 4).foldl (fun m d => max m (SMap.get 0 s.bask.volts (d * 8 + n))) 0)) s

/-- A die's voltages are planned from those it needs, in mV by point from OP1 (R384, R385): clamped to the bounds of R366, and only raised
in service; a need above the bound of a point below OP7 sets AGE_LIMIT. -/
def Device.planDie (s : Device) (die : Nat) (need : List Nat) (start : Bool) : Device :=
  let v := fun n => max (opVmin n) (min (wd need (n - 1)) (opVmax n))
  let s1 : Device := { s with bask := { s.bask with
    volts := (List.range 8).foldl (fun m n => if n = 0 then m
      else SMap.put 0 m (die * 8 + n) (if start then v n else max (v n) (SMap.get 0 m (die * 8 + n)))) s.bask.volts } }
  if (List.range 7).any fun n => n ≠ 0 ∧ opVmax n < wd need (n - 1) then s1.set die BASK_STATUS_AGE_LIMIT else s1

/-- OP7 is retired until the next start where a die needs more than 920 mV for it (R385); dies at OP7 drop at the next edge. -/
def Device.retireOp7 (s : Device) : Device :=
  (List.range 4).foldl (fun (s : Device) d => if s.point d = 7 then s.setBaskDie d { s.baskDie d with drop := some (min 6 ((s.baskDie d).drop.getD 6)) } else s)
    ((s.set 0 BASK_STATUS_OP7_RETIRED).set 0 (BASK_OP_RETIRED 7))

/-- A measurement (R384): for each die the least slack at OP7 in ps and the voltage it needs for each point. -/
def Device.measureAge (s : Device) (dies : List (Nat × List Nat)) (start : Bool) : Device :=
  let s1 := (List.range 4).foldl (fun (s : Device) d =>
    let m := dies.getD d (0, [])
    (s.planDie d m.2 start).wr d BASK_AGE_SLACK_PS (min 255 m.1)) s
  let s2 := if dies.any fun m => 920 < wd m.2 6 then s1.retireOp7 else s1
  { s2.showVolts with bask := { s2.showVolts.bask with aged := s2.chorus.time } }

/-- The body of AGEING_MEASURE (R384): at the first test window after every 24 hours of device time since ready. -/
def ageingBody (dies : List (Nat × List Nat)) (s : Device) : Device :=
  let day := 86400000000000
  if (s.chorus.time - s.bask.readyAt) / day ≤ (s.bask.aged - s.bask.readyAt) / day then s
  else
    let s1 := (List.range 4).foldl (fun (s : Device) d => (s.addHold d BASK_AGE_COUNT 1).clr d BASK_AGE_HOURS) (s.measureAge dies false)
    s1.baskViews

/-! ### Writes (R386) -/

/-- A write to BASK_CTL: out-of-range values are refused whole; LOCK locks the block's RWL fields. -/
def baskCtlWrite (die value : Nat) (s : Device) : Device :=
  if die ≠ 0 then s
  else
    let lock := fun (s : Device) => if bit value 31 then s.set 0 BASK_CTL_LOCK else s
    if s.on 0 BASK_CTL_LOCK then s
    else if bits value 8 8 < 85 ∨ 105 < bits value 8 8 ∨ bits value 0 4 = 0 then s.set 0 BASK_STATUS_RANGE_ERR
    else (lock (((s.wr 0 BASK_CTL_CAL_EN (bits value 16 1)).wr 0 BASK_CTL_HOT_C (bits value 8 8)).wr 0 BASK_CTL_HYST_C (bits value 0 4))).baskViews

/-- A write to BASK_TEMP_SEL. -/
def baskTempSelWrite (die value : Nat) (s : Device) : Device :=
  if 111 < bits value 0 7 then s.set die BASK_STATUS_RANGE_ERR else s.wr die BASK_TEMP_SEL_SENSOR (bits value 0 7)

/-- What BASK_TEMP_VAL reads: VALID, EXCLUDED and the reading of the sensor selected. -/
def Device.tempVal (s : Device) (die : Nat) : Nat :=
  let x := SMap.get ({} : Sensor) s.bask.sensors (die * 128 + s.rd die BASK_TEMP_SEL_SENSOR)
  b2n x.code.isSome * 2 ^ 31 + b2n x.excl * 2 ^ 30 + x.code.getD 0

end Sys2Proof.Machine
end

