-- ==== Sys2Proof/Machine/Eft.lean ====
section
/-!
DEFINITION. Reset, the life cycle, attestation and the flash window (chapter 18, R388, R398 to R405), and the unlock request of the debug
port, which Eft checks in the same way (R453).
-/
namespace Sys2Proof.Machine

/-! ### Reset (R388) -/

/-- 64 KiB of flash at an address become free values. -/
def Device.flashUndefine (s : Device) (a n : Nat) : Device :=
  { s with
    eft := { s.eft with flash := (List.range n).foldl (fun m i => SMap.put 0xFF m (a + i) (Config.freeByte (s.fresh + i)).toNat) s.eft.flash }
    fresh := s.fresh + n }

/-- The fuses after a reset: one that cuts a burn of version fuses short leaves FUSE_MIN anywhere between its old and its new value (R398). -/
def Device.burntFuses (s : Device) : Fuses :=
  let f := s.eft.fuses
  match s.eft.burn with
  | some v => { f with version := v + Config.freeWord s.fresh % (f.version - v + 1) }
  | none => f

/-- A full-device reset (R388): every register, memory and queue as after reset, both safe-state outputs low. The fuses and the flash stay,
with the 64 KiB sector of an erase or a program in progress undefined (R399), and so do the debugger's requests to halt on reset (R454). -/
def Device.fullReset (s : Device) : Device :=
  let s1 := match s.eft.flashOp with
    | some (0, _) => s
    | some (_, a) => s.flashUndefine (a / 65536 * 65536) 65536
    | none => s
  { regs := Device.resetRegs, fresh := s1.fresh + b2n s.eft.burn.isSome, out := s.out ++ [.pin "SAFE_OUT0" 0, .pin "SAFE_OUT1" 0]
    eft := { fuses := s1.burntFuses, flash := s1.eft.flash }
    probe := { dm := s.probe.dm.filter fun e => decide (0x2000 ≤ e.1) } }

/-- The islands that run report a robot that may be moving (R388). -/
def Device.moving (s : Device) : Bool :=
  s.islands.any fun i => decide (s.rd i SAFETY_STATUS_MODE = 1) && decide (s.rd i SAFETY_STATUS_TAIL_STATE < 2)

/-- The body of EFT_RESET (R388, R405). -/
def eftResetBody (die value : Nat) (s : Device) : Device :=
  if die ≠ 0 ∨ bits value 0 16 ≠ 0x5E7D then s
  else if s.moving then s.set 0 EFT_STATUS_RANGE_ERR
  else s.fullReset

/-! ### The life cycle (R400 to R402) -/

/-- The codes of EFT_LC.STATE. -/
def lcBLANK : Nat := 0
def lcMANUFACTURE : Nat := 1
def lcPROVISIONED : Nat := 2
def lcDEPLOYED : Nat := 3
def lcSERVICE : Nat := 4
def lcRETIRED : Nat := 5

/-- The life-cycle state that the fuses hold: SERVICE is DEPLOYED with an odd number of service fuses blown (R400). -/
def Fuses.life (f : Fuses) : Nat := if f.state = lcDEPLOYED ∧ f.service % 2 = 1 then lcSERVICE else f.state

/-- The port is open (R452): in BLANK, MANUFACTURE and SERVICE, and in PROVISIONED and DEPLOYED once it is unlocked. -/
def Device.debugOpen (s : Device) : Bool :=
  let l := s.eft.fuses.life
  l = lcBLANK || l = lcMANUFACTURE || l = lcSERVICE || ((l = lcPROVISIONED || l = lcDEPLOYED) && s.on 0 DEBUG_STATUS_OPEN)

/-- EFT_LC, EFT_VERSION.FUSE_MIN and DEBUG_STATUS.OPEN as the fuses say. -/
def Device.showFuses (s : Device) : Device :=
  let f := s.eft.fuses
  ((((s.wr 0 EFT_LC_STATE f.life).wr 0 EFT_LC_OWNER_SET (b2n f.owner.isSome)).wr 0 EFT_LC_SERVICE_LEFT (128 - f.service)).wr 0
    EFT_VERSION_FUSE_MIN f.version).wr 0 DEBUG_STATUS_OPEN (b2n s.debugOpen)

/-- Replace the fuses. -/
def Device.setFuses (s : Device) (f : Fuses) : Device := { s with eft := { s.eft with fuses := f } }

/-- The body of PROGRAM_FUSED_SECRET (R401): through the debug port, and in BLANK only. -/
def fusedSecretBody (secret mfgHash : Nat) (cert : List Nat) (s : Device) : Device :=
  let f := s.eft.fuses
  if f.life = lcBLANK ∧ cert.length ≤ 2048 then
    (s.setFuses { f with state := lcMANUFACTURE, secret := secret, mfgHash := mfgHash, cert := cert }).showFuses
  else s

/-- Draw a challenge of eight words (R402, R453): free values. -/
def Device.drawChallenge (s : Device) (f : Nat → Fld) : Device :=
  { ((List.range 8).foldl (fun (s : Device) n => s.wr 0 (f n) (Config.freeWord (s.fresh + n))) s) with fresh := s.fresh + 8 }

/-- The 360 bytes of a request. -/
def Device.reqBytes (s : Device) (f : Nat → Fld) : List Nat := ((List.range 90).map fun n => toBytes (s.rd 0 (f n)) 4).flatten

/-- The fields of a request (R402). -/
def rqOp (b : List Nat) : Nat := byteNum b 4 1
def rqKey (b : List Nat) : List Nat := (b.drop 48).take 132
def rqWrapped (b : List Nat) : Nat := byteNum b 180 40

/-- The first eight bytes of SHA-512 of the identity public key (R402, R403). -/
def Device.deviceHash (s : Device) : Nat := sha512 (identityKey s.eft.fuses.secret) % 2 ^ 64

/-- The challenge as it reads. -/
def Device.challenge (s : Device) (f : Nat → Fld) : List Nat := ((List.range 8).map fun n => toBytes (s.rd 0 (f n)) 4).flatten

/-- The hash that a request's key must have, none where any key serves; a slot with no owner matches no key (R401, R453). -/
def Device.signer (s : Device) (op : Nat) : Option (Option Nat) :=
  let f := s.eft.fuses
  match op with
  | 0 => some (some f.mfgHash)
  | 1 => none
  | 4 => some (if f.life = lcMANUFACTURE ∨ (f.life = lcPROVISIONED ∧ f.owner.isNone) then some f.mfgHash else f.owner)
  | 5 => some (if f.life = lcPROVISIONED ∧ f.owner.isNone then some f.mfgHash else f.owner)
  | _ => some f.owner

/-- The state admits the operation (R401, R402, R451). -/
def Fuses.admits (f : Fuses) (op : Nat) : Bool :=
  let l := f.life
  match op with
  | 0 => l = lcMANUFACTURE
  | 1 => l = lcPROVISIONED && f.owner.isNone && !f.broken
  | 2 => (l = lcPROVISIONED && f.owner.isSome) || l = lcSERVICE
  | 3 => l = lcDEPLOYED
  | 4 => l = lcMANUFACTURE || l = lcPROVISIONED || l = lcDEPLOYED || l = lcSERVICE
  | 5 => (l = lcPROVISIONED && !f.broken) || l = lcDEPLOYED
  | _ => false

/-- A request's form (R402): FORMAT 1, a known OP, this device's hash, the challenge as read, WRAPPED for a CLAIM only, all other bytes 0. -/
def Device.reqFormOk (s : Device) (b chal : List Nat) (ops : List Nat) : Bool :=
  decide (byteNum b 0 4 = 1) && ops.contains (rqOp b) && decide (byteNum b 5 3 = 0) && decide (byteNum b 8 8 = s.deviceHash) &&
  decide ((b.drop 16).take 32 = chal) && (decide (rqOp b = 1) || decide (rqWrapped b = 0)) && decide (byteNum b 220 8 = 0)

/-- The result of a request's checks up to the state, in the order of the RESULT codes (R402, R405). -/
def Device.reqCheck (s : Device) (b chal : List Nat) (ops : List Nat) : Nat :=
  let op := rqOp b
  let keyOk : Bool := match s.signer op with
    | none => (unwrapKey s.eft.fuses.secret (beNum (rqKey b)) (rqWrapped b)).isSome
    | some (h : Option Nat) => decide (h = some (sha512 (rqKey b)))
  if ¬ s.reqFormOk b chal ops then 1
  else if ¬ keyOk then 2
  else if ¬ ecdsaOk (beNum (rqKey b)) (sha512 (b.take 228)) (beNum (b.drop 228)) then 3
  else if ¬ s.eft.fuses.admits op then 4
  else 0

/-- The fuses after an accepted request (R401). -/
def Fuses.after (f : Fuses) (b : List Nat) : Fuses :=
  match rqOp b with
  | 0 => { f with state := lcPROVISIONED }
  | 1 => { f with owner := some (sha512 (rqKey b)),
                  imageKey := (unwrapKey f.secret (beNum (rqKey b)) (rqWrapped b)).getD 0 }
  | 2 => if f.life = lcSERVICE then { f with service := f.service + 1 } else { f with state := lcDEPLOYED }
  | 3 => { f with service := f.service + 1 }
  | _ => { f with state := lcRETIRED }

/-- A request is at standstill (R402). -/
def Device.atRest (s : Device) : Bool :=
  !s.on 0 EFT_BOOT_STATUS_READY ||
  s.islands.all fun i => decide (2 ≤ s.rd i SAFETY_STATUS_TAIL_STATE) || decide (s.rd i SAFETY_STATUS_MODE = 0)

/-- An operation needs a service fuse, and none is left (R401). -/
def Fuses.spent (f : Fuses) (op : Nat) : Bool := (op = 3 || (op = 2 && f.life = lcSERVICE)) && 128 ≤ f.service

/-- A request ends with a result; its challenge is drawn afresh. -/
def Device.reqResult (s : Device) (r : Nat) : Device :=
  (((s.clr 0 EFT_REQ_CTL_BUSY).wr 0 EFT_REQ_CTL_OP 0).wr 0 EFT_REQ_CTL_RESULT r).drawChallenge EFT_CHALLENGE_WORD

/-- The body of LIFECYCLE_REQUEST (R402): the checks in the order of the RESULT codes; an accepted request blows its fuses, the state fuses
last, and resets the device. Cut short before them, the old state stays, and a CLAIM's owner slot is unusable. -/
def lifecycleBody (die : Nat) (burn : FuseBurn) (s : Device) : Device :=
  if die ≠ 0 then s
  else
    let b := s.reqBytes EFT_REQ_WORD
    let f := s.eft.fuses
    let r := s.reqCheck b (s.challenge EFT_CHALLENGE_WORD) [0, 1, 2, 3, 4]
    if r ≠ 0 then s.reqResult r
    else if ¬ s.atRest then s.reqResult 5
    else if f.spent (rqOp b) then s.reqResult 6
    else match burn with
      | .fail => s.reqResult 7
      | .cut => (s.setFuses (if rqOp b = 1 then { f with broken := true } else f)).fullReset
      | .ok => (s.setFuses (f.after b)).fullReset

/-! ### Attestation (R403, R404) -/

/-- The signed part of a quote: bytes 0 to 215 (R404). -/
def Device.quoteBytes (s : Device) : List Nat :=
  toBytes 1 4 ++ [s.rd 0 EFT_LC_STATE, s.rd 0 DEBUG_STATUS_USED + 2 * s.rd 0 BASK_STATUS_OP7_RETIRED, 0, 0] ++
  toBytes (s.rd 0 EFT_VERSION_IMAGE) 4 ++ toBytes (s.rd 0 EFT_VERSION_FUSE_MIN) 4 ++ toBytes s.chorus.time 8 ++
  toBytes s.eft.digest 64 ++ toBytes s.eft.repair 64 ++ ((List.range 16).map fun n => toBytes (s.rd 0 (EFT_NONCE_WORD n)) 4).flatten

/-- The body of QUOTE (R404): the quote with its signature by the identity key, or NOT_READY. -/
def quoteBody (die : Nat) (s : Device) : Device :=
  if die ≠ 0 then s
  else
    let s1 := (s.wr 0 EFT_REQ_CTL_OP 1).clr 0 EFT_REQ_CTL_BUSY
    if ¬ s.on 0 EFT_BOOT_STATUS_READY then s1.wr 0 EFT_REQ_CTL_RESULT 8
    else
      let q := s.quoteBytes
      let b := q ++ (toBytes (ecdsaSign s.eft.fuses.secret (sha512 q)) 132).reverse
      let s2 := (List.range 87).foldl (fun (s : Device) n => s.wr 0 (EFT_QUOTE_WORD n) (byteNum b (4 * n) 4)) s1
      s2.clr 0 EFT_REQ_CTL_RESULT

/-- A write of EFT_REQ_CTL (R405): OP 2 and 3 and a START while BUSY are refused; START runs the operation. -/
def reqCtlWrite (die value : Nat) (s : Device) : Device :=
  if die ≠ 0 then s
  else if 2 ≤ bits value 28 2 ∨ (bit value 30 ∧ s.on 0 EFT_REQ_CTL_BUSY) then s.set 0 EFT_STATUS_RANGE_ERR
  else if ¬ bit value 30 then s.wr 0 EFT_REQ_CTL_OP (bits value 28 2)
  else if bits value 28 2 = 0 then lifecycleBody 0 .ok s
  else quoteBody 0 s

/-! ### The flash window (R399, R405) -/

/-- A byte of flash, and its bytes. -/
def Device.flashByte (s : Device) (a : Nat) : Nat := SMap.get 0xFF s.eft.flash a
def Device.flashBytes (s : Device) (a n : Nat) : List Nat := (List.range n).map fun i => s.flashByte (a + i)

/-- The window is open: after READY or a failed start, in every state but RETIRED (R399). -/
def Device.flashOpen (s : Device) : Bool :=
  (s.on 0 EFT_BOOT_STATUS_READY || s.on 0 EFT_BOOT_STATUS_FAILED) && s.eft.fuses.life ≠ lcRETIRED

/-- A flash command starts (R405): refused while BUSY; ended at once when the window is closed, the address unaligned or beyond the flash,
or a program meets bytes that are not erased. -/
def flashStart (die op : Nat) (s : Device) : Device :=
  if die ≠ 0 then s
  else if s.on 0 EFT_FLASH_CMD_BUSY then s.set 0 EFT_STATUS_RANGE_ERR
  else
    let s1 := s.wr 0 EFT_FLASH_CMD_OP op
    let a := s.rd 0 EFT_FLASH_ADDR_LO_ADDR + 2 ^ 32 * s.rd 0 EFT_FLASH_ADDR_HI_ADDR
    let n := if op = 1 then 65536 else 4096
    if ¬ s.flashOpen then s1.wr 0 EFT_FLASH_CMD_RESULT 5
    else if a % n ≠ 0 then s1.wr 0 EFT_FLASH_CMD_RESULT 1
    else if s.eft.flashSize < a + n then s1.wr 0 EFT_FLASH_CMD_RESULT 2
    else if op = 2 ∧ (s.flashBytes a 4096).any (· ≠ 0xFF) then s1.wr 0 EFT_FLASH_CMD_RESULT 3
    else { (s1.set 0 EFT_FLASH_CMD_BUSY) with eft := { s1.eft with flashOp := some (op, a) } }

/-- The bodies of FLASH_READ, FLASH_ERASE and FLASH_PROGRAM. -/
def flashReadBody (die : Nat) (s : Device) : Device := flashStart die 0 s
def flashEraseBody (die : Nat) (s : Device) : Device := flashStart die 1 s
def flashProgramBody (die : Nat) (s : Device) : Device := flashStart die 2 s

/-- A write of EFT_FLASH_CMD. -/
def flashCmdWrite (die value : Nat) (s : Device) : Device :=
  if die ≠ 0 then s
  else if bits value 28 2 = 3 then s.set 0 EFT_STATUS_RANGE_ERR
  else if bit value 30 then flashStart 0 (bits value 28 2) s
  else s.wr 0 EFT_FLASH_CMD_OP (bits value 28 2)

/-- Write bytes of flash. -/
def Device.flashPut (s : Device) (a : Nat) (l : List Nat) : Device :=
  { s with eft := { s.eft with flash := (List.range l.length).foldl (fun m i => SMap.put 0xFF m (a + i) (wd l i % 256)) s.eft.flash } }

/-- The body of FLASH_COMMAND_DONE (R405): the command's effect, or DEVICE_ERR, which leaves the sector of an erase or a program undefined. -/
def flashDoneBody (ok : Bool) (s : Device) : Device :=
  match s.eft.flashOp with
  | none => s
  | some (op, a) =>
    let s1 : Device := { (s.clr 0 EFT_FLASH_CMD_BUSY) with eft := { s.eft with flashOp := none } }
    if ¬ ok then
      (if op = 0 then s1 else s1.flashUndefine (a / 65536 * 65536) 65536).wr 0 EFT_FLASH_CMD_RESULT 4
    else
      let s2 := match op with
        | 0 => (List.range 1024).foldl (fun (s : Device) n => s.wr 0 (EFT_FLASH_BUF_WORD n) (byteNum (s.flashBytes (a + 4 * n) 4) 0 4)) s1
        | 1 => { s1 with eft := { s1.eft with flash := s1.eft.flash.filter fun e => !(a ≤ e.1 && e.1 < a + 65536) } }
        | _ => s1.flashPut a ((List.range 1024).map fun n => toBytes (s1.rd 0 (EFT_FLASH_BUF_WORD n)) 4).flatten
      s2.clr 0 EFT_FLASH_CMD_RESULT

/-! ### The unlock of the debug port (R453) -/

/-- The body of DEBUG_UNLOCK: the request is checked in the order of the RESULT codes, without the standstill check; accepted, it opens the
port until reset. A new challenge is drawn after every attempt. -/
def debugUnlockBody (die : Nat) (s : Device) : Device :=
  if die ≠ 0 ∨ s.on 0 DEBUG_UNLOCK_CTL_BUSY then s
  else
    let b := s.reqBytes DEBUG_UNLOCK_REQ_WORD
    let r := s.reqCheck b (s.challenge DEBUG_CHALLENGE_WORD) [5]
    let s1 := (s.wr 0 DEBUG_UNLOCK_CTL_RESULT r).drawChallenge DEBUG_CHALLENGE_WORD
    if r = 0 then s1.set 0 DEBUG_STATUS_OPEN else s1

end Sys2Proof.Machine
end

