-- ==== Sys2Proof/Machine/Ports.lean ====
section
/-!
DEFINITION. PCI Express and Ethernet (chapter 19, R413 to R418, R427, R428): inbound requests through the base address registers, the
message table, the mailbox, received and sent frames, the host rings and the gate control list.
-/
namespace Sys2Proof.Machine

/-! ### PCI Express (R413 to R415, R427) -/

/-- The port of a die is in use; after a failed start die 0's is up as an endpoint (R391). -/
def Device.pcieOn (s : Device) (die : Nat) : Bool :=
  (die = 0 || die = 2) && ((s.on die PCIE_CTL_EN && !s.on 0 EFT_BOOT_STATUS_FAILED) || (die = 0 && s.on 0 EFT_BOOT_STATUS_FAILED))

/-- A completion goes out: status (0 successful, 1 UR, 2 CA) and data. A write is posted and has none. -/
def Device.complete (s : Device) (die tag : Nat) (write : Bool) (status data : Nat) : Device :=
  if write then s else s.emit (.pcie die 1 [tag, status, data])

/-- A vector of a port, and writing it back. -/
def Device.msix (s : Device) (die v : Nat) : Msix := SMap.get {} s.pcie.msix (die * 64 + v)
def Device.setMsix (s : Device) (die v : Nat) (x : Msix) : Device :=
  { s with pcie := { s.pcie with msix := SMap.put {} s.pcie.msix (die * 64 + v) x } }

/-- Word `i` of BAR4: the table of 64 vectors, four words each, and from 0x1000 on the pending bits. -/
def Device.msixWord (s : Device) (die i : Nat) : Nat :=
  if i < 256 then
    let x := s.msix die (i / 4)
    if i % 4 = 0 then x.addr % 2 ^ 32 else if i % 4 = 1 then x.addr / 2 ^ 32 else if i % 4 = 2 then x.data else b2n x.mask
  else if i = 1024 ∨ i = 1025 then
    (List.range 32).foldl (fun v k => v + b2n (s.msix die (32 * (i - 1024) + k)).pend * 2 ^ k) 0
  else 0

/-- A write of a table word; a pending vector is sent when it is unmasked. -/
def Device.msixPut (s : Device) (die i v : Nat) : Device :=
  if 256 ≤ i then s
  else
    let n := i / 4
    let x := s.msix die n
    if i % 4 = 0 then s.setMsix die n { x with addr := setBits x.addr 0 32 v }
    else if i % 4 = 1 then s.setMsix die n { x with addr := setBits x.addr 32 32 v }
    else if i % 4 = 2 then s.setMsix die n { x with data := v % 2 ^ 32 }
    else if x.pend ∧ ¬ bit v 0 then (s.setMsix die n { x with mask := false, pend := false }).emit (.pcie die 0 [x.addr, x.data])
    else s.setMsix die n { x with mask := bit v 0 }

/-- The device address of a BAR2 offset (R414): none outside the slot's window, or where it does not grant the access. -/
def Device.pcieWindow (s : Device) (die off n : Nat) (write : Bool) : Option Nat :=
  let w := off / 2 ^ 33
  let base := s.rd die (PCIE_WIN_LO_BASE w) * 2 ^ 16 + s.rd die (PCIE_WIN_HI_BASE w) * 2 ^ 32
  if w < 8 ∧ s.on die (PCIE_WIN_HI_EN w) ∧ (if write then s.on die (PCIE_WIN_HI_WR w) else s.on die (PCIE_WIN_HI_RD w)) ∧
      off % 2 ^ 33 + n ≤ 2 ^ s.rd die (PCIE_WIN_HI_LOG2_SIZE w) then some (base + off % 2 ^ 33)
  else none

/-- An inbound request that has its device address goes to the port's master 0x70. -/
def Device.pcieRequest (s : Device) (die a n : Nat) (write : Bool) (data tag : Nat) : Device :=
  s.offer { die := die, master := mPcie, home := 0, addr := a, len := n, write := write, data := data, fixed := false, cls := 0,
            coreWords := [], work := none, remote := [tag] }

/-- The body of PCIE_INBOUND_REQUEST (R414): an access of `n` bytes at an offset of a BAR. -/
def pcieInboundBody (die bar off n : Nat) (write : Bool) (data tag : Nat) (upsets : List Upset) (s : Device) : Device :=
  let s := s.arise upsets
  let root := s.on die PCIE_CTL_ROLE
  let failed := s.on 0 EFT_BOOT_STATUS_FAILED
  if ¬ s.pcieOn die then s
  else if s.isFenced die mPcie then (s.fencedErr die mPcie 0 true write).complete die tag write 1 0
  else if bar = 0 ∧ (failed ∨ ¬ root) then
    if 0x10000000 < off + n then s.complete die tag write 1 0
    else if failed ∧ ¬ (0x180000 ≤ off ∧ off + n ≤ 0x190000) then s.complete die tag write 0 0
    else s.pcieRequest die (regBase + off) n write data tag
  else if bar = 2 ∧ ¬ failed then
    match s.pcieWindow die off n write with
    | some a => s.pcieRequest die a n write data tag
    | none => s.complete die tag write 1 0
  else if bar = 4 ∧ ¬ root ∧ off + n ≤ 65536 then
    if write then (List.range (n / 4)).foldl (fun (s : Device) i => s.msixPut die (off / 4 + i) (bits data (32 * i) 32)) s
    else s.complete die tag false 0 ((List.range ((n + 3) / 4)).foldl (fun v i => v + s.msixWord die (off / 4 + i) * 2 ^ (32 * i)) 0)
  else s.complete die tag write 1 0

/-- The body of PCIE_MSIX_TRIGGER (R415); a fenced port sends nothing (R436). -/
def msixTriggerBody (die value : Nat) (s : Device) : Device :=
  if ¬ s.pcieOn die then s
  else if s.isFenced die mPcie then s.fencedErr die mPcie 0 true true
  else s.msixTrigger die (bits value 0 6)

/-- A write of PCIE_MBOX_CMD with an operation (R427): ignored while BUSY; NOT_ROOT on an endpoint; refused before ready (R414); on a fenced port
(R436) it ends as UR, since RESULT has no code for FENCED (DESIGN CHOICE, entry 234). -/
def mboxStart (die op : Nat) (s : Device) : Device :=
  if ¬ (die = 0 ∨ die = 2) ∨ s.on die PCIE_MBOX_CMD_BUSY then s
  else
    let s0 := s.wr die PCIE_MBOX_CMD_OP op
    let s1 : Device := { s0 with pcie := { s0.pcie with mbox := SMap.put 0 s0.pcie.mbox die op } }
    if ¬ s.on die PCIE_CTL_ROLE then s1.wr die PCIE_MBOX_CMD_RESULT 4
    else if ¬ s.on 0 EFT_BOOT_STATUS_READY then s1
    else if s.isFenced die mPcie then (s1.fencedErr die mPcie 0 true (decide (op % 2 = 1))).wr die PCIE_MBOX_CMD_RESULT 1
    else (s1.set die PCIE_MBOX_CMD_BUSY).emit (.pcie die 2 [op, s.rd die PCIE_MBOX_ADDR_LO_ADDR + 2 ^ 32 * s.rd die PCIE_MBOX_ADDR_HI_ADDR,
      if op % 2 = 1 then s.rd die PCIE_MBOX_DATA_DATA else 0])

/-- The bodies of the four mailbox commands. -/
def pcieConfigReadBody (die : Nat) (s : Device) : Device := mboxStart die 0 s
def pcieConfigWriteBody (die : Nat) (s : Device) : Device := mboxStart die 1 s
def pcieMemoryReadBody (die : Nat) (s : Device) : Device := mboxStart die 2 s
def pcieMemoryWriteBody (die : Nat) (s : Device) : Device := mboxStart die 3 s

/-- The mailbox's request ends with a RESULT; a read that is DONE leaves its data. -/
def Device.mboxEnd (s : Device) (die result data : Nat) : Device :=
  if s.on die PCIE_MBOX_CMD_BUSY then
    let s1 := (s.clr die PCIE_MBOX_CMD_BUSY).wr die PCIE_MBOX_CMD_RESULT result
    if result = 0 ∧ SMap.get 0 s.pcie.mbox die % 2 = 0 then s1.wr die PCIE_MBOX_DATA_DATA data else s1
  else s

/-- The body of PCIE_MBOX_COMPLETION: the completion's status is successful, UR or CA. -/
def mboxCompletionBody (die result data : Nat) (s : Device) : Device := s.mboxEnd die (min result 2) data

/-- The body of PCIE_COMPLETION_TIMEOUT (R432). -/
def pcieTimeoutBody (die : Nat) (s : Device) : Device := s.mboxEnd die 3 0

/-- The body of PCIE_LINK_STATE_CHANGE (R413, R427, R436). -/
def pcieLinkBody (die : Nat) (up : Bool) (width speed : Nat) (s : Device) : Device :=
  if ¬ (die = 0 ∨ die = 2) then s
  else if up then (((s.set die PCIE_CTL_LINK_UP).wr die PCIE_CTL_WIDTH width).wr die PCIE_CTL_SPEED speed).portBack die mPcie 0
  else ((s.clr die PCIE_CTL_LINK_UP).clr die PCIE_CTL_WIDTH).clr die PCIE_CTL_SPEED

/-! ### Ethernet frames (R416, R417) -/

/-- The number of two bytes of a frame, the first more significant. -/
def be16 (b : List Nat) (i : Nat) : Nat := 256 * b.getD i 0 + b.getD (i + 1) 0

/-- Offset of a frame's EtherType, past an 802.1Q tag. -/
def ethTypeAt (b : List Nat) : Nat := if be16 b 12 = 0x8100 then 16 else 12

/-- FLAGS of a receive descriptor (R428): whether a tag is present, and its priority code point. -/
def ethFlags (b : List Nat) : Nat := if be16 b 12 = 0x8100 then 1 + 2 * (b.getD 14 0 / 32) else 0

/-- A frame's UDP datagram over IPv4: destination port, whether it is fragmented, and its payload. -/
def udpOf (b : List Nat) : Option (Nat × Bool × List Nat) :=
  let ip := b.drop (ethTypeAt b + 2)
  let ihl := 4 * (ip.getD 0 0 % 16)
  let frag := be16 ip 6 % 0x4000
  if be16 b (ethTypeAt b) = 0x0800 ∧ ip.getD 0 0 / 16 = 4 ∧ 20 ≤ ihl ∧ ip.getD 9 0 = 17 ∧ frag % 0x2000 = 0 ∧ ihl + 8 ≤ ip.length then
    some (be16 ip (ihl + 2), decide (0x2000 ≤ frag), (ip.drop (ihl + 8)).take (be16 ip (ihl + 4) - 8))
  else none

/-- A measured 802.1AS offset in ns (R54, R389): at step 12 device time is stepped once; from ready on it is only slewed, within
±200 ppm, and an offset above 1 ms is refused. -/
def Device.gptpOffset (s : Device) (off : Int) : Device :=
  if s.on 0 EFT_BOOT_STATUS_READY then
    if 1000000 < off.natAbs then s.set 0 CHORUS_STATUS_TIME_STEP_REFUSED
    else { s with chorus := { s.chorus with slewPpm := (Config.freeWord s.fresh % 401 : Nat) - 200 }, fresh := s.fresh + 1 }
  else if s.rd 0 EFT_BOOT_STATUS_STAGE = 12 ∧ ¬ s.eft.stepped then
    let t := (s.chorus.time + off) % (2 ^ 64 : Nat)
    { s with chorus := { s.chorus with time := t.toNat }, eft := { s.eft with stepped := true, released := ((s.eft.released + off) % (2 ^ 64 : Nat)).toNat } }
  else s

/-! ### Host rings (R427, R428) -/

/-- Base address and number of buffers of a port's rings, and the places of its parts. -/
def Device.hqBase (s : Device) (die p : Nat) : Nat :=
  s.rd die (ENET_HQ_BASE_LO_ADDR p) + 2 ^ 32 * (s.rd die (ENET_HQ_BASE_HI_ADDR p) % 2 ^ 16)
def Device.hqN (s : Device) (die p : Nat) : Nat := 2 ^ s.rd die (ENET_HQ_CTL_LOG2 p)
def Device.hqRxBuf (s : Device) (die p i : Nat) : Nat := s.hqBase die p + 9216 * i
def Device.hqTxBuf (s : Device) (die p i : Nat) : Nat := s.hqBase die p + 9216 * (s.hqN die p + i)
def Device.hqRxDesc (s : Device) (die p i : Nat) : Nat := s.hqBase die p + 18432 * s.hqN die p + 16 * i
def Device.hqTxDesc (s : Device) (die p i : Nat) : Nat := s.hqBase die p + 18448 * s.hqN die p + 16 * i

/-- A port's message, if its address is not 0. -/
def Device.hqMsi (s : Device) (die p : Nat) : Device :=
  let a := s.rd die (ENET_HQ_MSI_LO_VALUE p) + 2 ^ 32 * (s.rd die (ENET_HQ_MSI_HI_VALUE p) % 2 ^ 16)
  if a = 0 then s else s.msiWrite die mManage a (s.rd die (ENET_HQ_MSI_DATA_VALUE p))

/-- A port is fenced (R436). -/
def Device.ethFenced (s : Device) (die p : Nat) : Bool := s.isFenced die (0x80 + p)

/-- A frame goes to the host receive ring, or is dropped: a disabled or full ring, or one whose place is not in the Pond or mapped LP5X. -/
def Device.hqReceive (s : Device) (die p : Nat) (b : List Nat) (time : Nat) : Device :=
  let n := s.hqN die p
  let t := s.rd die (ENET_HQ_CTL_RX_TAIL p)
  if ¬ s.on die (ENET_CTL_HQ_EN p) ∨ (t + 1) % n = s.rd die (ENET_HQ_CTL_RX_HEAD p) ∨ ¬ s.inPondOrLp (s.hqBase die p) (18464 * n) ∨ 9212 < b.length then
    s.addHold die (ENET_STATUS_DROPS p) 1
  else
    let s1 := (s.writeChk die mManage (s.hqRxBuf die p t) b.length (ofBytes b)).1
    let s2 := (s1.writeChk die mManage (s.hqRxDesc die p t) 16 (b.length + 2 ^ 16 * ethFlags b + 2 ^ 64 * (time % 2 ^ 64))).1
    (s2.wr die (ENET_HQ_CTL_RX_TAIL p) ((t + 1) % n)).hqMsi die p

/-- A received frame without its check sequence (R417): to Chorus, to a stream, or to the host ring; one of a length that the MAC does not
support (R416) is dropped. -/
def Device.ethFrame (s : Device) (die p : Nat) (b : List Nat) (fcsOk : Bool) (time : Nat) (gptp : Option Int) : Device :=
  if s.ethFenced die p then s
  else if ¬ fcsOk then s.addHold die (ENET_STATUS_FCS_ERR p) 1
  else if b.length < 60 ∨ 9212 < b.length then s.addHold die (ENET_STATUS_DROPS p) 1
  else if be16 b (ethTypeAt b) = 0x88F7 ∧ s.on 0 CHORUS_CTL_GPTP_EN ∧ s.rd 0 CHORUS_CTL_GPTP_PORT = die * 2 + p then
    match gptp with | some off => s.gptpOffset off | none => s
  else
    match udpOf b with
    | some (udp, fragmented, payload) =>
      match s.ethStream die p udp with
      | some slot => s.ethSample die slot fragmented payload
      | none => s.hqReceive die p b time
    | none => s.hqReceive die p b time

/-- The body of ENET_HQ_TX_WRITE (R428). -/
def hqTxWriteBody (die p value : Nat) (s : Device) : Device :=
  if s.hqN die p ≤ bits value 0 12 then s.set die (ENET_CTL_RANGE_ERR p) else s.wr die (ENET_HQ_TX_TX_TAIL p) (bits value 0 12)

/-! ### The gate control list (R418) -/

/-- The class's gate is open from `pos` ns into the cycle for `need` ns: every interval of the list that meets that time is open. -/
def gateOpen (l : List Nat) (tc pos need : Nat) : Bool :=
  l.all (fun e => bit (e / 2 ^ 24) tc) ||
  (decide (need ≤ (l.map (· % 2 ^ 24)).sum) &&
    ((l ++ l).foldl (fun (x : Nat × Bool) e =>
      let n := e % 2 ^ 24
      (x.1 + n, x.2 && (bit (e / 2 ^ 24) tc || decide (x.1 + n ≤ pos) || decide (pos + need ≤ x.1)))) (0, true)).2)

/-- Words of a port's gate control list as its registers hold it. -/
def Device.gclWords (s : Device) (die p : Nat) : List Nat :=
  (List.range 256).map fun e =>
    if p = 0 then s.rd die (ENET_QBV_GCL0_GATES e) * 2 ^ 24 + s.rd die (ENET_QBV_GCL0_NS e)
    else s.rd die (ENET_QBV_GCL1_GATES e) * 2 ^ 24 + s.rd die (ENET_QBV_GCL1_NS e)

/-- The body of QBV_CYCLE_START (R418): the list in the registers takes effect, unless its intervals do not sum to CYCLE_NS. -/
def qbvCycleBody (die p : Nat) (s : Device) : Device :=
  let cyc := s.rd die (ENET_QBV_CYCLE_NS p)
  let base := s.rd die (ENET_QBV_BASE_LO_NS p) + 2 ^ 32 * s.rd die (ENET_QBV_BASE_HI_NS p)
  let l := s.gclWords die p
  if ¬ s.on die (ENET_CTL_QBV_EN p) ∨ s.chorus.time < base then s
  else if (l.map (· % 2 ^ 24)).sum ≠ cyc ∨ cyc = 0 then s.set die (ENET_CTL_RANGE_ERR p)
  else { s with enet := { s.enet with
          gcl := SMap.put [] s.enet.gcl (die * 2 + p) l
          start := SMap.put 0 s.enet.start (die * 2 + p) (s.chorus.time - (s.chorus.time - base) % cyc) } }

/-- A frame of a class may start now: it ends, with preamble and check sequence, before its gate closes. -/
def Device.gateLets (s : Device) (die p tc len : Nat) : Bool :=
  let l := SMap.get [] s.enet.gcl (die * 2 + p)
  let cyc := (l.map (· % 2 ^ 24)).sum
  let rate := if s.on die (ENET_CTL_SPEED p) then 25 else 10
  !s.on die (ENET_CTL_QBV_EN p) || l.isEmpty ||
    gateOpen l tc ((s.chorus.time - SMap.get 0 s.enet.start (die * 2 + p)) % cyc) ((8 * (len + 12) + rate - 1) / rate)

/-- The body of ETH_FRAME_SENT (R428): the entry at TX_HEAD is refused for its LENGTH, or sent under the gate; STATUS and, where it is
asked for, the time are written, and TX_HEAD advances. -/
def ethFrameSentBody (die p : Nat) (s : Device) : Device :=
  let n := s.hqN die p
  let h := s.rd die (ENET_HQ_TX_TX_HEAD p)
  if s.ethFenced die p ∨ ¬ s.on die (ENET_CTL_HQ_EN p) ∨ ¬ s.on die (ENET_CTL_LINK_UP p) ∨ h = s.rd die (ENET_HQ_TX_TX_TAIL p) ∨
      ¬ s.inPondOrLp (s.hqBase die p) (18464 * n) then s
  else
    let d := s.readChk die mManage (s.hqTxDesc die p h) 16
    let len := bits d.2.2 0 16
    let ts := bit d.2.2 16
    let tc := bits d.2.2 17 3
    let put := fun (s : Device) (status : Nat) => (s.writeChk die mManage (s.hqTxDesc die p h + 3) 1 status).1
    let next := fun (s : Device) => s.wr die (ENET_HQ_TX_TX_HEAD p) ((h + 1) % n)
    let stamp := fun (s : Device) =>
      if ts then (s.writeChk die mManage (s.hqTxDesc die p h + 8) 8 s.chorus.time).1 else s
    let tell := fun (s : Device) => if ts then s.hqMsi die p else s
    if len < 14 ∨ 9212 < len then tell (next (put d.1 0x81))
    else if ¬ s.gateLets die p tc (max len 60) then s
    else
      let x := d.1.readChk die mManage (s.hqTxBuf die p h) len
      tell (next (stamp (put (x.1.emit (.eth die p (toBytes x.2.2 (max len 60)))) 0x80)))

/-- The body of ETH_LINK_STATE_CHANGE (R427, R436). -/
def ethLinkBody (die p : Nat) (up : Bool) (s : Device) : Device :=
  if up then (s.set die (ENET_CTL_LINK_UP p)).portBack die (0x80 + p) 0 else s.clr die (ENET_CTL_LINK_UP p)

end Sys2Proof.Machine
end

