-- ==== Sys2Proof/Machine/RegMap.lean ====
section
/-!
DEFINITION. The register map: one row for each register of the manual, with its block, offset, index stride and count,
and each field's access code (R7, R8). A bit in no field is reserved. Rows of one block stand in one list.
-/
namespace Sys2Proof.Machine

/-- Registers of the DIE_CTL block. -/
def regsDieCtlA : List RegRow := [
  ⟨0, 0x000, 0x0, 1, [(DIE_CTL_ID_PART_CODE, .ro), (DIE_CTL_ID_STEPPING, .ro), (DIE_CTL_ID_LEAD, .ro), (DIE_CTL_ID_DIE, .ro)]⟩,
  ⟨0, 0x004, 0x0, 1, [(DIE_CTL_BLOCKS_PRESENT_PRESENT, .ro)]⟩,
  ⟨0, 0x008, 0x0, 1, [(DIE_CTL_BLOCKS_ACTIVE_ACTIVE, .ro)]⟩,
  ⟨0, 0x00C, 0x0, 1, [(DIE_CTL_BRIDGE_STATUS_COL_UP, .ro), (DIE_CTL_BRIDGE_STATUS_ROW_UP, .ro), (DIE_CTL_BRIDGE_STATUS_COL_RETRY_CNT, .rc), (DIE_CTL_BRIDGE_STATUS_ROW_RETRY_CNT, .rc)]⟩,
  ⟨0, 0x010, 0x0, 1, [(DIE_CTL_UNMAPPED_ADDR_LO_ADDR_LO, .ro)]⟩,
  ⟨0, 0x014, 0x0, 1, [(DIE_CTL_UNMAPPED_ADDR_HI_ADDR_HI, .ro)]⟩,
  ⟨0, 0x018, 0x0, 1, [(DIE_CTL_UNMAPPED_STATUS_VALID, .w1c), (DIE_CTL_UNMAPPED_STATUS_OVERFLOW, .w1c), (DIE_CTL_UNMAPPED_STATUS_WRITE, .ro), (DIE_CTL_UNMAPPED_STATUS_SRC_DIE, .ro), (DIE_CTL_UNMAPPED_STATUS_MASTER, .ro)]⟩,
  ⟨0, 0x020, 0x0, 1, [(DIE_CTL_BRIDGE_AUDIT_ROW_SENT, .ro), (DIE_CTL_BRIDGE_AUDIT_ROW_RETURNED, .ro)]⟩,
  ⟨0, 0x024, 0x0, 1, [(DIE_CTL_BRIDGE_AUDIT_COL_SENT, .ro), (DIE_CTL_BRIDGE_AUDIT_COL_RETURNED, .ro)]⟩,
  ⟨0, 0x100, 0x0, 1, [(DIE_CTL_ERR_CTL_LOCK, .w1s), (DIE_CTL_ERR_CTL_RANGE_ERR, .w1c), (DIE_CTL_ERR_CTL_REMOTE_TICKS, .rwl)]⟩,
  ⟨0, 0x104, 0x0, 1, [(DIE_CTL_UNIT_RESET_BUSY, .ro), (DIE_CTL_UNIT_RESET_START, .w1s), (DIE_CTL_UNIT_RESET_OP, .rw), (DIE_CTL_UNIT_RESET_STAGE, .ro), (DIE_CTL_UNIT_RESET_RESULT, .ro), (DIE_CTL_UNIT_RESET_UNIT, .rw)]⟩,
  ⟨0, 0x108, 0x0, 1, [(DIE_CTL_DISABLED_LO_CORES, .ro)]⟩,
  ⟨0, 0x10C, 0x0, 1, [(DIE_CTL_DISABLED_HI_CORES, .ro)]⟩,
  ⟨0, 0x110, 0x0, 1, [(DIE_CTL_DISABLED_DMA_ENGINES, .ro)]⟩,
  ⟨0, 0x114, 0x0, 1, [(DIE_CTL_ERR_COUNT_TIMEOUTS, .rc), (DIE_CTL_ERR_COUNT_FENCED, .rc), (DIE_CTL_ERR_COUNT_LATE_DROP, .rc)]⟩,
  ⟨0, 0x120, 0x0, 1, [(DIE_CTL_ERR_STATUS_VALID, .w1c), (DIE_CTL_ERR_STATUS_OVERFLOW, .w1c), (DIE_CTL_ERR_STATUS_REMOTE, .ro), (DIE_CTL_ERR_STATUS_WRITE, .ro), (DIE_CTL_ERR_STATUS_STATUS, .ro), (DIE_CTL_ERR_STATUS_MASTER, .ro)]⟩]

/-- Registers of the DIE_CTL block. -/
def regsDieCtlB : List RegRow := [
  ⟨0, 0x124, 0x0, 1, [(DIE_CTL_AUDIT_ERR_VALID, .ro), (DIE_CTL_AUDIT_ERR_BLOCK, .ro), (DIE_CTL_AUDIT_ERR_OFFSET, .ro)]⟩,
  ⟨0, 0x128, 0x0, 1, [(DIE_CTL_RADD_STATUS_COUNT, .ro)]⟩,
  ⟨0, 0x12C, 0x0, 1, [(DIE_CTL_RADD_LO_PARTNER_ID, .ro), (DIE_CTL_RADD_LO_SYNC, .ro)]⟩,
  ⟨0, 0x130, 0x0, 1, [(DIE_CTL_RADD_HI_VALID, .ro), (DIE_CTL_RADD_HI_APPLIED, .ro), (DIE_CTL_RADD_HI_SEQ, .ro)]⟩,
  ⟨0, 0x118, 0x0, 1, [(DIE_CTL_ERR_ADDR_LO_ADDR, .ro)]⟩,
  ⟨0, 0x11C, 0x0, 1, [(DIE_CTL_ERR_ADDR_HI_ADDR, .ro)]⟩]

/-- Registers of the CHORUS block. -/
def regsChorusA : List RegRow := [
  ⟨1, 0x000, 0x0, 1, [(CHORUS_CTL_GPTP_PORT, .rwl), (CHORUS_CTL_GPTP_EN, .rwl), (CHORUS_CTL_OUT_EN, .rwl), (CHORUS_CTL_OLINER_DIE, .rwl), (CHORUS_CTL_SOURCE, .rwl), (CHORUS_CTL_ROLE, .rwl)]⟩,
  ⟨1, 0x004, 0x0, 1, [(CHORUS_TICK_PERIOD_PERIOD_RC, .rwl)]⟩,
  ⟨1, 0x008, 0x0, 1, [(CHORUS_FRAME_LEN_TICKS, .rwl)]⟩,
  ⟨1, 0x00C, 0x0, 1, [(CHORUS_WIN_LEN_GOLDEN_LEN, .rwl), (CHORUS_WIN_LEN_TEST_LEN, .rwl), (CHORUS_WIN_LEN_SAFETY_LEN, .rwl)]⟩,
  ⟨1, 0x010, 0x0, 1, [(CHORUS_IN_DELAY_DELAY_NS, .rw)]⟩,
  ⟨1, 0x014, 0x0, 1, [(CHORUS_LOCK_LOCK, .w1s)]⟩,
  ⟨1, 0x020, 0x0, 1, [(CHORUS_STATUS_RANGE_ERR, .w1c), (CHORUS_STATUS_OVERRUN, .w1c), (CHORUS_STATUS_DEADLINE, .w1c), (CHORUS_STATUS_LEAD_LOST, .w1c), (CHORUS_STATUS_TIME_STEP_REFUSED, .w1c), (CHORUS_STATUS_LOCK_STATE, .ro)]⟩,
  ⟨1, 0x024, 0x0, 1, [(CHORUS_POSITION_TICK_IN_FRAME, .ro), (CHORUS_POSITION_RC_IN_TICK, .ro)]⟩,
  ⟨1, 0x028, 0x0, 1, [(CHORUS_FRAME_COUNT_FRAMES, .ro)]⟩,
  ⟨1, 0x030, 0x0, 1, [(CHORUS_TIME_LO_TIME, .ro)]⟩,
  ⟨1, 0x034, 0x0, 1, [(CHORUS_TIME_HI_TIME, .ro)]⟩,
  ⟨1, 0x038, 0x0, 1, [(CHORUS_EDGE_TIME_LO_TIME, .ro)]⟩,
  ⟨1, 0x03C, 0x0, 1, [(CHORUS_EDGE_TIME_HI_TIME, .ro)]⟩,
  ⟨1, 0x040, 0x0, 1, [(CHORUS_OFFSET_OFFSET_NS, .ro)]⟩,
  ⟨1, 0x044, 0x0, 1, [(CHORUS_FP_INFO_PHASES, .ro), (CHORUS_FP_INFO_SLICES, .ro)]⟩,
  ⟨1, 0x048, 0x0, 1, [(CHORUS_OVERRUN_LOG_VALID, .w1c), (CHORUS_OVERRUN_LOG_DEADLINE, .ro), (CHORUS_OVERRUN_LOG_KIND, .ro), (CHORUS_OVERRUN_LOG_TICK, .ro), (CHORUS_OVERRUN_LOG_SLICE, .ro)]⟩]

/-- Registers of the CHORUS block. -/
def regsChorusB : List RegRow := [
  ⟨1, 0x04C, 0x0, 1, [(CHORUS_OVERRUN_COUNT_COUNT, .rc)]⟩]

/-- Registers of the POND block. -/
def regsPond : List RegRow := [
  ⟨2, 0x000, 0x0, 1, [(POND_CTL_LOCK, .w1s), (POND_CTL_RETAIN_REQ, .rw), (POND_CTL_FIX_EN, .rwl), (POND_CTL_SCRUB_EN, .rwl)]⟩,
  ⟨2, 0x004, 0x0, 1, [(POND_STATUS_RANGE_ERR, .w1c), (POND_STATUS_WIPE_DONE, .ro), (POND_STATUS_MODE, .ro)]⟩,
  ⟨2, 0x008, 0x0, 1, [(POND_SCRUB_CTL_LINES, .rwl)]⟩,
  ⟨2, 0x00C, 0x0, 1, [(POND_SCRUB_POS_LINE, .ro)]⟩,
  ⟨2, 0x010, 0x0, 1, [(POND_SCRUB_PASSES_PASSES, .ro)]⟩,
  ⟨2, 0x014, 0x0, 1, [(POND_CE_COUNT_COUNT, .rc)]⟩,
  ⟨2, 0x018, 0x0, 1, [(POND_UE_COUNT_COUNT, .rc)]⟩,
  ⟨2, 0x01C, 0x0, 1, [(POND_FIX_DROPS_COUNT, .rc)]⟩,
  ⟨2, 0x020, 0x0, 1, [(POND_ERR_ADDR_LO_ADDR, .ro)]⟩,
  ⟨2, 0x024, 0x0, 1, [(POND_ERR_ADDR_HI_ADDR, .ro)]⟩,
  ⟨2, 0x028, 0x0, 1, [(POND_ERR_STATUS_VALID, .w1c), (POND_ERR_STATUS_OVERFLOW, .w1c), (POND_ERR_STATUS_UE, .ro), (POND_ERR_STATUS_SOURCE, .ro), (POND_ERR_STATUS_BIT, .ro), (POND_ERR_STATUS_SYNDROME, .ro)]⟩,
  ⟨2, 0x030, 0x0, 1, [(POND_REPAIR_USED_ROWS, .ro), (POND_REPAIR_USED_BITLINES, .ro)]⟩]

/-- Registers of the XLATE block. -/
def regsXlateA : List RegRow := [
  ⟨3, 0x000, 0x0, 1, [(XLATE_CTL_LOCK, .w1s), (XLATE_CTL_EN, .rwl)]⟩,
  ⟨3, 0x004, 0x0, 1, [(XLATE_STATUS_RANGE_ERR, .w1c), (XLATE_STATUS_BAD_RESUME, .w1c), (XLATE_STATUS_INVAL_REFUSED, .w1c), (XLATE_STATUS_PENDING_FULL, .w1c), (XLATE_STATUS_PENDING, .ro)]⟩,
  ⟨3, 0x008, 0x0, 1, [(XLATE_JOBTAB_LO_ADDR, .rwl)]⟩,
  ⟨3, 0x010, 0x0, 1, [(XLATE_SAVE_LO_ADDR, .rwl)]⟩,
  ⟨3, 0x00C, 0x0, 1, [(XLATE_JOBTAB_HI_ADDR, .rwl)]⟩,
  ⟨3, 0x014, 0x0, 1, [(XLATE_SAVE_HI_ADDR, .rwl)]⟩,
  ⟨3, 0x020, 0x0, 1, [(XLATE_INVAL_VA_LO_VA, .rw)]⟩,
  ⟨3, 0x024, 0x0, 1, [(XLATE_INVAL_VA_HI_VA, .rw)]⟩,
  ⟨3, 0x028, 0x0, 1, [(XLATE_INVAL_CTL_BUSY, .ro), (XLATE_INVAL_CTL_START, .w1s), (XLATE_INVAL_CTL_JOB, .rw), (XLATE_INVAL_CTL_PAGES_M1, .rw)]⟩,
  ⟨3, 0x030, 0x0, 1, [(XLATE_RESUME_ABORT, .wo), (XLATE_RESUME_FAULT_ID, .wo)]⟩,
  ⟨3, 0x034, 0x0, 1, [(XLATE_FAULT_COUNT_COUNT, .rc)]⟩,
  ⟨3, 0x040, 0x20, 4, [(XLATE_FQ_BASE_LO_ADDR 0, .rw)]⟩,
  ⟨3, 0x044, 0x20, 4, [(XLATE_FQ_BASE_HI_ADDR 0, .rw)]⟩,
  ⟨3, 0x048, 0x20, 4, [(XLATE_FQ_CTL_EN 0, .rw), (XLATE_FQ_CTL_LOG2_SIZE 0, .rw)]⟩,
  ⟨3, 0x04C, 0x20, 4, [(XLATE_FQ_HEAD_INDEX 0, .rw)]⟩,
  ⟨3, 0x050, 0x20, 4, [(XLATE_FQ_TAIL_INDEX 0, .ro)]⟩]

/-- Registers of the XLATE block. -/
def regsXlateB : List RegRow := [
  ⟨3, 0x054, 0x20, 4, [(XLATE_FQ_MSI_LO_VALUE 0, .rw)]⟩,
  ⟨3, 0x058, 0x20, 4, [(XLATE_FQ_MSI_HI_VALUE 0, .rw)]⟩,
  ⟨3, 0x05C, 0x20, 4, [(XLATE_FQ_MSI_DATA_VALUE 0, .rw)]⟩]

/-- Registers of the DMA block. -/
def regsDma : List RegRow := [
  ⟨4, 0x000, 0x0, 1, [(DMA_CTL_LOCK, .w1s), (DMA_CTL_RSV_MASK, .rwl)]⟩,
  ⟨4, 0x004, 0x0, 1, [(DMA_DONE_COUNT_COUNT, .rc)]⟩,
  ⟨4, 0x008, 0x0, 1, [(DMA_AUDIT_REQ_OUT, .ro), (DMA_AUDIT_DESC_OUT, .ro)]⟩,
  ⟨4, 0x00C, 0x0, 1, [(DMA_ERR_STATUS_VALID, .w1c), (DMA_ERR_STATUS_OVERFLOW, .w1c), (DMA_ERR_STATUS_ENGINE, .ro), (DMA_ERR_STATUS_JOB, .ro), (DMA_ERR_STATUS_STATUS, .ro)]⟩,
  ⟨4, 0x100, 0x4, 16, [(DMA_ENG_STATUS_BUSY 0, .ro), (DMA_ENG_STATUS_RSV 0, .ro), (DMA_ENG_STATUS_PARKING 0, .ro), (DMA_ENG_STATUS_JOB 0, .ro)]⟩]

/-- Registers of the DISPATCH block. -/
def regsDispatchA : List RegRow := [
  ⟨5, 0x8000, 0x0, 1, [(DISPATCH_COLL_TAB_LO_ADDR, .rwl)]⟩,
  ⟨5, 0x8004, 0x0, 1, [(DISPATCH_COLL_TAB_HI_ADDR, .rwl)]⟩,
  ⟨5, 0x8008, 0x0, 1, [(DISPATCH_COLL_CTL_LOCK, .w1s), (DISPATCH_COLL_CTL_TIMEOUT, .rwl)]⟩,
  ⟨5, 0x800C, 0x0, 1, [(DISPATCH_COLL_STATUS_RANGE_ERR, .w1c), (DISPATCH_COLL_STATUS_TIMED_OUT, .w1c), (DISPATCH_COLL_STATUS_MISMATCH, .w1c), (DISPATCH_COLL_STATUS_DONE_ABANDONED, .rc), (DISPATCH_COLL_STATUS_LATE, .rc)]⟩,
  ⟨5, 0x8010, 0x0, 1, [(DISPATCH_COLL_ERR_VALID, .w1c), (DISPATCH_COLL_ERR_OVERFLOW, .w1c), (DISPATCH_COLL_ERR_REASON, .ro), (DISPATCH_COLL_ERR_CORE, .ro), (DISPATCH_COLL_ERR_JOB, .ro)]⟩,
  ⟨5, 0x8014, 0x0, 1, [(DISPATCH_COLL_AUDIT_OPENED, .ro), (DISPATCH_COLL_AUDIT_CLOSED, .ro)]⟩,
  ⟨5, 0x8020, 0x0, 1, [(DISPATCH_SEG_STATUS_UNCOMMITTED, .ro), (DISPATCH_SEG_STATUS_OCCUPIED, .ro)]⟩,
  ⟨5, 0x8024, 0x0, 1, [(DISPATCH_SEG_AUDIT_WRITTEN, .ro), (DISPATCH_SEG_AUDIT_FREED, .ro)]⟩,
  ⟨5, 0x000, 0x0, 1, [(DISPATCH_CTL_LOCK, .w1s), (DISPATCH_CTL_WAIT_TICKS, .rwl), (DISPATCH_CTL_KERNEL_TICKS, .rwl)]⟩,
  ⟨5, 0x004, 0x0, 1, [(DISPATCH_STATUS_RANGE_ERR, .w1c), (DISPATCH_STATUS_BAD_DOORBELL, .w1c)]⟩,
  ⟨5, 0x008, 0x0, 1, [(DISPATCH_RING_TAB_LO_ADDR, .rw)]⟩,
  ⟨5, 0x00C, 0x0, 1, [(DISPATCH_RING_TAB_HI_ADDR, .rw)]⟩,
  ⟨5, 0x010, 0x0, 1, [(DISPATCH_DOORBELL_TAIL, .wo), (DISPATCH_DOORBELL_RING, .wo)]⟩,
  ⟨5, 0x014, 0x0, 1, [(DISPATCH_RING_SEL_RING, .rw)]⟩,
  ⟨5, 0x018, 0x0, 1, [(DISPATCH_RING_CMD_BUSY, .ro), (DISPATCH_RING_CMD_START, .w1s), (DISPATCH_RING_CMD_OP, .rw), (DISPATCH_RING_CMD_RESULT, .ro)]⟩,
  ⟨5, 0x01C, 0x0, 1, [(DISPATCH_RING_STATE_STATE, .ro), (DISPATCH_RING_STATE_WAITING, .ro), (DISPATCH_RING_STATE_RUNNING, .ro), (DISPATCH_RING_STATE_JOB, .ro)]⟩]

/-- Registers of the DISPATCH block. -/
def regsDispatchB : List RegRow := [
  ⟨5, 0x020, 0x0, 1, [(DISPATCH_RING_PTR_TAIL, .ro), (DISPATCH_RING_PTR_HEAD, .ro)]⟩,
  ⟨5, 0x024, 0x0, 1, [(DISPATCH_RING_CQ_CQ_TAIL, .ro), (DISPATCH_RING_CQ_CQ_HEAD, .rw)]⟩,
  ⟨5, 0x030, 0x0, 1, [(DISPATCH_JOB_CTL_BUSY, .ro), (DISPATCH_JOB_CTL_START, .w1s), (DISPATCH_JOB_CTL_OP, .rw), (DISPATCH_JOB_CTL_CLIENT, .rw), (DISPATCH_JOB_CTL_RESULT, .ro), (DISPATCH_JOB_CTL_JOB, .rw)]⟩,
  ⟨5, 0x034, 0x0, 1, [(DISPATCH_JOB_SEL_JOB, .rw)]⟩,
  ⟨5, 0x038, 0x0, 1, [(DISPATCH_JOB_STATE_STATE, .ro), (DISPATCH_JOB_STATE_CLIENT, .ro), (DISPATCH_JOB_STATE_RINGS, .ro)]⟩,
  ⟨5, 0x040, 0x0, 1, [(DISPATCH_AUDIT_FETCHED, .ro), (DISPATCH_AUDIT_RETIRED, .ro)]⟩,
  ⟨5, 0x044, 0x0, 1, [(DISPATCH_ERR_VALID, .w1c), (DISPATCH_ERR_OVERFLOW, .w1c), (DISPATCH_ERR_REASON, .ro), (DISPATCH_ERR_RING, .ro)]⟩,
  ⟨5, 0x1000, 0x4, 64, [(DISPATCH_CORE_MODEL 0, .ro), (DISPATCH_CORE_LOADING 0, .ro), (DISPATCH_CORE_CLAIMED 0, .ro), (DISPATCH_CORE_JOB 0, .ro)]⟩,
  ⟨5, 0x1100, 0x4, 64, [(DISPATCH_LEND_EN 0, .rwl), (DISPATCH_LEND_STORE_LEN_4K 0, .rwl), (DISPATCH_LEND_STORE_BASE_4K 0, .rwl), (DISPATCH_LEND_CL_LEN_16K 0, .rwl), (DISPATCH_LEND_CL_BASE_16K 0, .rwl)]⟩,
  ⟨5, 0x4000, 0x10, 256, [(DISPATCH_CLIENT_ADMITTED_COUNT 0, .ro)]⟩,
  ⟨5, 0x4004, 0x10, 256, [(DISPATCH_CLIENT_ACTIVE_COUNT 0, .ro)]⟩,
  ⟨5, 0x4008, 0x10, 256, [(DISPATCH_CLIENT_COMPLETED_COUNT 0, .ro)]⟩,
  ⟨5, 0x400C, 0x10, 256, [(DISPATCH_CLIENT_ENDED_COUNT 0, .ro)]⟩]

/-- Registers of the SYNC block. -/
def regsSync : List RegRow := [
  ⟨6, 0x000, 0x0, 1, [(SYNC_SEL_INDEX, .rw)]⟩,
  ⟨6, 0x004, 0x0, 1, [(SYNC_VALUE_LO_VALUE, .ro)]⟩,
  ⟨6, 0x008, 0x0, 1, [(SYNC_VALUE_HI_VALUE, .ro)]⟩,
  ⟨6, 0x00C, 0x0, 1, [(SYNC_ADD_HI_ADD, .rw)]⟩,
  ⟨6, 0x010, 0x0, 1, [(SYNC_ADD_LO_ADD, .wo)]⟩,
  ⟨6, 0x014, 0x0, 1, [(SYNC_STATUS_REFUSED, .w1c), (SYNC_STATUS_RESERVED, .ro), (SYNC_STATUS_WAITERS, .ro)]⟩,
  ⟨6, 0x018, 0x0, 1, [(SYNC_AUDIT_SENT, .ro), (SYNC_AUDIT_RECEIVED, .ro)]⟩]

/-- Registers of the REGULATE block. -/
def regsRegulate : List RegRow := [
  ⟨7, 0x000, 0x0, 1, [(REGULATE_CTL_LOCK, .w1s), (REGULATE_CTL_MODE, .rwl)]⟩,
  ⟨7, 0x004, 0x0, 1, [(REGULATE_STATUS_RANGE_ERR, .w1c), (REGULATE_STATUS_HELD_SEEN, .w1c), (REGULATE_STATUS_LOWERED_SEEN, .w1c)]⟩,
  ⟨7, 0x010, 0x4, 4, [(REGULATE_HOST_CLASS_CLASS 0, .rw)]⟩,
  ⟨7, 0x020, 0x0, 1, [(REGULATE_IO_CLASS_DEBUG_CLASS, .rw), (REGULATE_IO_CLASS_PCIE_CLASS, .rw)]⟩,
  ⟨7, 0x040, 0x0, 1, [(REGULATE_SEL_PORT, .rw), (REGULATE_SEL_CLASS, .rw)]⟩,
  ⟨7, 0x044, 0x0, 1, [(REGULATE_OUT_HELD, .ro), (REGULATE_OUT_COUNT, .ro)]⟩,
  ⟨7, 0x050, 0x0, 1, [(REGULATE_EVENTS_HELD, .rc), (REGULATE_EVENTS_LOWERED, .rc)]⟩,
  ⟨7, 0x060, 0x0, 1, [(REGULATE_AUDIT_ISSUED, .ro), (REGULATE_AUDIT_RETIRED, .ro)]⟩,
  ⟨7, 0x064, 0x0, 1, [(REGULATE_QUEUE_AUDIT_ADMITTED, .ro), (REGULATE_QUEUE_AUDIT_SERVED, .ro)]⟩,
  ⟨7, 0x100, 0x4, 16, [(REGULATE_CLASS_LIMIT_IO_LIM_M1 0, .rw), (REGULATE_CLASS_LIMIT_HOST_LIM_M1 0, .rw), (REGULATE_CLASS_LIMIT_DMA_LIM_M1 0, .rw), (REGULATE_CLASS_LIMIT_CORE_LIM_M1 0, .rw)]⟩]

/-- Registers of the CLUSTER block. -/
def regsClusterA : List RegRow := [
  ⟨8, 0x000, 0x0, 1, [(CLUSTER_ID_DIE 0, .ro), (CLUSTER_ID_CLUSTER 0, .ro)]⟩,
  ⟨8, 0x004, 0x0, 1, [(CLUSTER_CORE_RSV_RSV 0, .ro)]⟩,
  ⟨8, 0x100, 0x10, 8, [(CLUSTER_CORE_STATUS_BUSY 0 0, .ro), (CLUSTER_CORE_STATUS_PARKED 0 0, .ro), (CLUSTER_CORE_STATUS_RSV 0 0, .ro), (CLUSTER_CORE_STATUS_OPCODE 0 0, .ro), (CLUSTER_CORE_STATUS_JOB 0 0, .ro)]⟩,
  ⟨8, 0x104, 0x10, 8, [(CLUSTER_NUM_STICKY_GATE_DOMAIN 0 0, .w1c), (CLUSTER_NUM_STICKY_SCALE_SAT 0 0, .w1c), (CLUSTER_NUM_STICKY_SCALE_RAISED 0 0, .w1c), (CLUSTER_NUM_STICKY_OUT_SAT 0 0, .w1c), (CLUSTER_NUM_STICKY_OUT_INF 0 0, .w1c), (CLUSTER_NUM_STICKY_OUT_NAN 0 0, .w1c), (CLUSTER_NUM_STICKY_IN_INF 0 0, .w1c), (CLUSTER_NUM_STICKY_IN_NAN 0 0, .w1c)]⟩,
  ⟨8, 0x108, 0x10, 8, [(CLUSTER_NUM_COUNT_REPLACED 0 0, .rc)]⟩,
  ⟨8, 0x10C, 0x10, 8, [(CLUSTER_CMD_ERR_VALID 0 0, .w1c), (CLUSTER_CMD_ERR_OVERFLOW 0 0, .w1c), (CLUSTER_CMD_ERR_REASON 0 0, .ro), (CLUSTER_CMD_ERR_WORD 0 0, .ro), (CLUSTER_CMD_ERR_JOB 0 0, .ro)]⟩,
  ⟨8, 0x400, 0x0, 1, [(CLUSTER_PAD_POOL_LOCK 0, .w1s), (CLUSTER_PAD_POOL_SLOTS 0, .rwl), (CLUSTER_PAD_POOL_BASE_4K 0, .rwl)]⟩,
  ⟨8, 0x404, 0x0, 1, [(CLUSTER_PAD_STATUS_RANGE_ERR 0, .w1c)]⟩,
  ⟨8, 0x410, 0x0, 1, [(CLUSTER_PAD_EDIT_ADDR_LO_ADDR 0, .rw)]⟩,
  ⟨8, 0x414, 0x0, 1, [(CLUSTER_PAD_EDIT_ADDR_HI_ADDR 0, .rw)]⟩,
  ⟨8, 0x418, 0x0, 1, [(CLUSTER_PAD_EDIT_OLD_LO_VALUE 0, .rw)]⟩,
  ⟨8, 0x41C, 0x0, 1, [(CLUSTER_PAD_EDIT_OLD_HI_VALUE 0, .rw)]⟩,
  ⟨8, 0x420, 0x0, 1, [(CLUSTER_PAD_EDIT_NEW_LO_VALUE 0, .rw)]⟩,
  ⟨8, 0x424, 0x0, 1, [(CLUSTER_PAD_EDIT_NEW_HI_VALUE 0, .rw)]⟩,
  ⟨8, 0x428, 0x0, 1, [(CLUSTER_PAD_EDIT_CTL_BUSY 0, .ro), (CLUSTER_PAD_EDIT_CTL_START 0, .w1s), (CLUSTER_PAD_EDIT_CTL_RESULT 0, .ro)]⟩,
  ⟨8, 0x440, 0x4, 8, [(CLUSTER_PAD_CORE_FREE 0 0, .ro), (CLUSTER_PAD_CORE_USED 0 0, .ro), (CLUSTER_PAD_CORE_RETIRED 0 0, .ro)]⟩]

/-- Registers of the CLUSTER block. -/
def regsClusterB : List RegRow := [
  ⟨8, 0x460, 0x0, 1, [(CLUSTER_PAD_MOVES_PROMOTED 0, .rc), (CLUSTER_PAD_MOVES_EVICTED 0, .rc)]⟩,
  ⟨8, 0x464, 0x0, 1, [(CLUSTER_PAD_MISSES_SUBSTITUTED 0, .rc), (CLUSTER_PAD_MISSES_DROPPED 0, .rc), (CLUSTER_PAD_MISSES_NO_SLOT 0, .rc)]⟩,
  ⟨8, 0x480, 0x0, 1, [(CLUSTER_PAD_AUDIT_REF_ADDS 0, .ro), (CLUSTER_PAD_AUDIT_REF_SUBS 0, .ro)]⟩,
  ⟨8, 0x484, 0x0, 1, [(CLUSTER_MERGE_AUDIT_PARTIAL_IN 0, .ro), (CLUSTER_MERGE_AUDIT_PARTIAL_OUT 0, .ro)]⟩,
  ⟨8, 0x200, 0x4, 8, [(CLUSTER_REC_STATUS_BUSY 0 0, .ro), (CLUSTER_REC_STATUS_SWAP 0 0, .ro), (CLUSTER_REC_STATUS_GROUP_LOG2 0 0, .ro), (CLUSTER_REC_STATUS_GROUP_BASE 0 0, .ro), (CLUSTER_REC_STATUS_STEP 0 0, .ro)]⟩,
  ⟨8, 0x220, 0x0, 1, [(CLUSTER_REC_COUNT_CLAMPED 0, .rc), (CLUSTER_REC_COUNT_STALE 0, .rc), (CLUSTER_REC_COUNT_ANCHORED 0, .rc)]⟩,
  ⟨8, 0x224, 0x0, 1, [(CLUSTER_REC_AUDIT_ARRIVE 0, .ro), (CLUSTER_REC_AUDIT_RELEASE 0, .ro)]⟩]

/-- Registers of the REFLEX_SOLVE block. -/
def regsReflexSolve : List RegRow := [
  ⟨16, 0x000, 0x0, 1, [(REFLEX_SOLVE_CTL_LOCK, .w1s)]⟩,
  ⟨16, 0x010, 0x4, 2, [(REFLEX_SOLVE_ENG_STATUS_BUSY 0, .ro), (REFLEX_SOLVE_ENG_STATUS_REFRESH 0, .ro), (REFLEX_SOLVE_ENG_STATUS_PROG 0, .ro), (REFLEX_SOLVE_ENG_STATUS_ITER 0, .ro)]⟩,
  ⟨16, 0x020, 0x0, 1, [(REFLEX_SOLVE_COUNT_REFUSED_WARM, .rc), (REFLEX_SOLVE_COUNT_DEADLINE, .rc), (REFLEX_SOLVE_COUNT_BREAKDOWN, .rc), (REFLEX_SOLVE_COUNT_FACTOR_FAIL, .rc)]⟩,
  ⟨16, 0x024, 0x0, 1, [(REFLEX_SOLVE_ERR_VALID, .w1c), (REFLEX_SOLVE_ERR_OVERFLOW, .w1c), (REFLEX_SOLVE_ERR_REASON, .ro), (REFLEX_SOLVE_ERR_PROG, .ro)]⟩,
  ⟨16, 0x028, 0x0, 1, [(REFLEX_SOLVE_AUDIT_STARTED, .ro), (REFLEX_SOLVE_AUDIT_ENDED, .ro)]⟩,
  ⟨16, 0x100, 0x8, 16, [(REFLEX_SOLVE_PROG_VALID 0, .rwl), (REFLEX_SOLVE_PROG_HDR_OFF 0, .rwl)]⟩,
  ⟨16, 0x104, 0x8, 16, [(REFLEX_SOLVE_PROG_STATE_SOL_IDX 0, .ro), (REFLEX_SOLVE_PROG_STATE_PARTIAL 0, .ro), (REFLEX_SOLVE_PROG_STATE_FACTOR 0, .ro), (REFLEX_SOLVE_PROG_STATE_PENDING 0, .ro), (REFLEX_SOLVE_PROG_STATE_REF_BANK 0, .ro), (REFLEX_SOLVE_PROG_STATE_LAST_STATUS 0, .ro), (REFLEX_SOLVE_PROG_STATE_REF_POS 0, .ro)]⟩]

/-- Registers of the REFLEX_CTRL block. -/
def regsReflexCtrlA : List RegRow := [
  ⟨17, 0x000, 0x0, 1, [(REFLEX_CTRL_CTL_LOCK, .w1s), (REFLEX_CTRL_CTL_REGION, .rwl)]⟩,
  ⟨17, 0x004, 0x0, 1, [(REFLEX_CTRL_STATUS_RANGE_ERR, .w1c), (REFLEX_CTRL_STATUS_TAIL_ACTIVE, .ro), (REFLEX_CTRL_STATUS_STOP_ACTIVE, .ro), (REFLEX_CTRL_STATUS_TEST_ACTIVE, .ro)]⟩,
  ⟨17, 0x008, 0x0, 1, [(REFLEX_CTRL_COUNT_UNCOMMITTED, .rc), (REFLEX_CTRL_COUNT_HOLD_END, .rc), (REFLEX_CTRL_COUNT_STREAM_FULL, .rc), (REFLEX_CTRL_COUNT_LIMITED, .rc)]⟩,
  ⟨17, 0x00C, 0x0, 1, [(REFLEX_CTRL_AUDIT_DUE, .ro), (REFLEX_CTRL_AUDIT_RUN, .ro)]⟩,
  ⟨17, 0x010, 0x0, 1, [(REFLEX_CTRL_STREAM_AUDIT_WRITTEN, .ro), (REFLEX_CTRL_STREAM_AUDIT_FREED, .ro)]⟩,
  ⟨17, 0x014, 0x0, 1, [(REFLEX_CTRL_ERR_VALID, .w1c), (REFLEX_CTRL_ERR_OVERFLOW, .w1c), (REFLEX_CTRL_ERR_REASON, .ro), (REFLEX_CTRL_ERR_OPCODE, .ro), (REFLEX_CTRL_ERR_SLOT, .ro)]⟩,
  ⟨17, 0x020, 0x0, 1, [(REFLEX_CTRL_TEST_CFG_EN, .rw), (REFLEX_CTRL_TEST_CFG_POINT, .rw), (REFLEX_CTRL_TEST_CFG_WAVE, .rw), (REFLEX_CTRL_TEST_CFG_HOLD_M1, .rw), (REFLEX_CTRL_TEST_CFG_SLOT, .rw)]⟩,
  ⟨17, 0x024, 0x0, 1, [(REFLEX_CTRL_TEST_AMP_VALUE, .rw)]⟩,
  ⟨17, 0x028, 0x0, 1, [(REFLEX_CTRL_TEST_F0_VALUE, .rw)]⟩,
  ⟨17, 0x02C, 0x0, 1, [(REFLEX_CTRL_TEST_F1_VALUE, .rw)]⟩,
  ⟨17, 0x030, 0x0, 1, [(REFLEX_CTRL_TEST_LEN_LEN_M1, .rw)]⟩,
  ⟨17, 0x034, 0x0, 1, [(REFLEX_CTRL_CAP_CFG_START, .w1s), (REFLEX_CTRL_CAP_CFG_LEN_M1, .rw), (REFLEX_CTRL_CAP_CFG_SIG0, .rw), (REFLEX_CTRL_CAP_CFG_SIG1, .rw), (REFLEX_CTRL_CAP_CFG_SIG2, .rw), (REFLEX_CTRL_CAP_CFG_SIG3, .rw)]⟩,
  ⟨17, 0x038, 0x0, 1, [(REFLEX_CTRL_CAP_STATUS_BUSY, .ro), (REFLEX_CTRL_CAP_STATUS_DONE, .w1c), (REFLEX_CTRL_CAP_STATUS_COUNT, .ro)]⟩,
  ⟨17, 0x03C, 0x0, 1, [(REFLEX_CTRL_CAP_DECIM_DECIM_M1, .rw)]⟩,
  ⟨17, 0x040, 0x4, 16, [(REFLEX_CTRL_STREAM_CFG_DT_US 0, .rwl), (REFLEX_CTRL_STREAM_CFG_POINTS_M1 0, .rwl), (REFLEX_CTRL_STREAM_CFG_CHANNELS_M1 0, .rwl)]⟩,
  ⟨17, 0x100, 0x4, 128, [(REFLEX_CTRL_SLOT_STATUS_EN 0, .ro), (REFLEX_CTRL_SLOT_STATUS_WON 0, .ro), (REFLEX_CTRL_SLOT_STATUS_SP_MODE 0, .ro)]⟩]

/-- Registers of the REFLEX_CTRL block. -/
def regsReflexCtrlB : List RegRow := [
  ⟨17, 0x400, 0x4, 64, [(REFLEX_CTRL_HOST_SP_VALUE 0, .rw)]⟩,
  ⟨17, 0x500, 0x20, 16, [(REFLEX_CTRL_CHAN_EN 0, .rwl), (REFLEX_CTRL_CHAN_TAIL_EN 0, .rwl), (REFLEX_CTRL_CHAN_TAIL_SLOT 0, .rwl), (REFLEX_CTRL_CHAN_DEST 0, .rwl)]⟩,
  ⟨17, 0x504, 0x20, 16, [(REFLEX_CTRL_LIM_MIN_VALUE 0, .rwl)]⟩,
  ⟨17, 0x508, 0x20, 16, [(REFLEX_CTRL_LIM_MAX_VALUE 0, .rwl)]⟩,
  ⟨17, 0x50C, 0x20, 16, [(REFLEX_CTRL_LIM_RATE_VALUE 0, .rwl)]⟩,
  ⟨17, 0x510, 0x20, 16, [(REFLEX_CTRL_LIM_SAFE_VALUE 0, .rwl)]⟩,
  ⟨17, 0x514, 0x20, 16, [(REFLEX_CTRL_LIM_LAST_VALUE 0, .ro)]⟩,
  ⟨17, 0x800, 0x10, 16, [(REFLEX_CTRL_JOINT_SRC_VALUE 0, .rwl)]⟩,
  ⟨17, 0x804, 0x10, 16, [(REFLEX_CTRL_JOINT_SCALE_VALUE 0, .rwl)]⟩,
  ⟨17, 0x808, 0x10, 16, [(REFLEX_CTRL_JOINT_OFFSET_VALUE 0, .rwl)]⟩]

/-- Registers of the REFLEX_COLL block. -/
def regsReflexCollA : List RegRow := [
  ⟨18, 0x000, 0x0, 1, [(REFLEX_COLL_CTL_LOCK, .w1s), (REFLEX_COLL_CTL_TRACK_EN, .rwl), (REFLEX_COLL_CTL_TESTS_4, .rwl), (REFLEX_COLL_CTL_JOINTS_M1, .rwl), (REFLEX_COLL_CTL_SPHERES_M1, .rwl)]⟩,
  ⟨18, 0x004, 0x0, 1, [(REFLEX_COLL_STATUS_RANGE_ERR, .w1c), (REFLEX_COLL_STATUS_STOP_REQ, .ro), (REFLEX_COLL_STATUS_WORLD_FULL, .w1c)]⟩,
  ⟨18, 0x008, 0x0, 1, [(REFLEX_COLL_EPOCH_EPOCH, .ro)]⟩,
  ⟨18, 0x00C, 0x0, 1, [(REFLEX_COLL_GEOM_HASH_CELL_CM, .rwl), (REFLEX_COLL_GEOM_INV_CELL_CM, .rwl), (REFLEX_COLL_GEOM_SEG_MARGIN_MM, .rwl), (REFLEX_COLL_GEOM_SEG_DQ, .rwl)]⟩,
  ⟨18, 0x010, 0x0, 1, [(REFLEX_COLL_HEUR_VALUE, .rwl)]⟩,
  ⟨18, 0x018, 0x0, 1, [(REFLEX_COLL_INV_ORIGIN_X_VALUE, .rwl)]⟩,
  ⟨18, 0x01C, 0x0, 1, [(REFLEX_COLL_INV_ORIGIN_Y_VALUE, .rwl)]⟩,
  ⟨18, 0x020, 0x0, 1, [(REFLEX_COLL_INV_ORIGIN_Z_VALUE, .rwl)]⟩,
  ⟨18, 0x014, 0x0, 1, [(REFLEX_COLL_TRACK_RADIUS_CM, .rwl)]⟩,
  ⟨18, 0x024, 0x0, 1, [(REFLEX_COLL_ROADMAP_NODES_COUNT_M1, .rwl)]⟩,
  ⟨18, 0x028, 0x0, 1, [(REFLEX_COLL_ROADMAP_EDGES_COUNT_M1, .rwl)]⟩,
  ⟨18, 0x040, 0x8, 8, [(REFLEX_COLL_REGION_LO_ADDR 0, .rwl)]⟩,
  ⟨18, 0x044, 0x8, 8, [(REFLEX_COLL_REGION_HI_ADDR 0, .rwl)]⟩,
  ⟨18, 0x080, 0x0, 1, [(REFLEX_COLL_COUNT_SUPPRESSED, .rc), (REFLEX_COLL_COUNT_OVERFLOW, .rc), (REFLEX_COLL_COUNT_TRACK_SKIPPED, .rc), (REFLEX_COLL_COUNT_NO_PATH, .rc)]⟩,
  ⟨18, 0x084, 0x0, 1, [(REFLEX_COLL_AUDIT_ISSUED, .ro), (REFLEX_COLL_AUDIT_ENDED, .ro)]⟩,
  ⟨18, 0x088, 0x0, 1, [(REFLEX_COLL_ERR_VALID, .w1c), (REFLEX_COLL_ERR_OVERFLOW, .w1c), (REFLEX_COLL_ERR_REASON, .ro), (REFLEX_COLL_ERR_OPCODE, .ro)]⟩]

/-- Registers of the REFLEX_COLL block. -/
def regsReflexCollB : List RegRow := [
  ⟨18, 0x100, 0x4, 8, [(REFLEX_COLL_PLAN_STATUS_STATE 0, .ro), (REFLEX_COLL_PLAN_STATUS_PUBLISHED 0, .ro), (REFLEX_COLL_PLAN_STATUS_LAST_STATUS 0, .ro), (REFLEX_COLL_PLAN_STATUS_SUPPRESSED 0, .ro)]⟩]

/-- Registers of the FUSION block. -/
def regsFusion : List RegRow := [
  ⟨19, 0x000, 0x0, 1, [(FUSION_CTL_LOCK, .w1s), (FUSION_CTL_CAL_SWAP, .w1s), (FUSION_CTL_HOLD_FRAMES, .rwl), (FUSION_CTL_F3_SECTORS, .rwl)]⟩,
  ⟨19, 0x004, 0x0, 1, [(FUSION_STATUS_RANGE_ERR, .w1c), (FUSION_STATUS_LEVEL, .ro), (FUSION_STATUS_EGO_VALID, .ro), (FUSION_STATUS_EGO_REDUNDANT, .ro), (FUSION_STATUS_F4_CAUSE, .ro)]⟩,
  ⟨19, 0x008, 0x0, 1, [(FUSION_SECTORS_LEVELS, .ro)]⟩,
  ⟨19, 0x00C, 0x0, 1, [(FUSION_GATE_CLEAR_FRAMES, .rwl), (FUSION_GATE_GATE_K, .rwl), (FUSION_GATE_GATE_REL, .rwl), (FUSION_GATE_GATE_ABS, .rwl)]⟩,
  ⟨19, 0x010, 0x0, 1, [(FUSION_MAP_CELL_CM, .rwl), (FUSION_MAP_HIT, .rwl), (FUSION_MAP_DECAY, .rwl)]⟩,
  ⟨19, 0x014, 0x0, 1, [(FUSION_EGO_CFG_IMU_GATE, .rwl), (FUSION_EGO_CFG_WHEEL_GATE, .rwl)]⟩,
  ⟨19, 0x018, 0x0, 1, [(FUSION_TRACK_CFG_CONF_M, .rwl), (FUSION_TRACK_CFG_CONF_N, .rwl), (FUSION_TRACK_CFG_DEL_MISSES, .rwl), (FUSION_TRACK_CFG_ASSOC_GATE, .rwl)]⟩,
  ⟨19, 0x01C, 0x0, 1, [(FUSION_COUNT_LATE_DROPPED, .rc), (FUSION_COUNT_UNSWAPPED, .rc), (FUSION_COUNT_TRACK_FULL, .rc), (FUSION_COUNT_DET_DROPPED, .rc)]⟩,
  ⟨19, 0x020, 0x0, 1, [(FUSION_VIEW_OUT_OF_VIEW, .rc)]⟩,
  ⟨19, 0x024, 0x0, 1, [(FUSION_TRACKS_LIVE_COUNT_A, .ro), (FUSION_TRACKS_LIVE_COUNT_B, .ro)]⟩,
  ⟨19, 0x028, 0x0, 1, [(FUSION_TRACKS_IDLE_COUNT_A, .ro), (FUSION_TRACKS_IDLE_COUNT_B, .ro)]⟩,
  ⟨19, 0x02C, 0x0, 1, [(FUSION_AUDIT_DET_IN, .ro), (FUSION_AUDIT_DET_TAKEN, .ro)]⟩,
  ⟨19, 0x030, 0x0, 1, [(FUSION_OBS_BASE_ADDR, .rwl)]⟩,
  ⟨19, 0x034, 0x0, 1, [(FUSION_OBS_SIZE_SIZE_4K, .rwl)]⟩,
  ⟨19, 0x100, 0x4, 32, [(FUSION_PAIR_EN 0, .rw), (FUSION_PAIR_A 0, .rw), (FUSION_PAIR_B 0, .rw), (FUSION_PAIR_GATE_RANGE 0, .rw)]⟩]

/-- Registers of the INGEST block. -/
def regsIngest : List RegRow := [
  ⟨20, 0x000, 0x0, 1, [(INGEST_CTL_LOCK, .w1s)]⟩,
  ⟨20, 0x004, 0x0, 1, [(INGEST_STATUS_RANGE_ERR, .w1c), (INGEST_STATUS_MISSING, .w1c)]⟩,
  ⟨20, 0x010, 0x4, 6, [(INGEST_PORT_CFG_EN 0, .rwl), (INGEST_PORT_CFG_CPHY 0, .rwl), (INGEST_PORT_CFG_LANES_M1 0, .rwl), (INGEST_PORT_CFG_RATE 0, .rwl), (INGEST_PORT_CFG_UNKNOWN 0, .rc)]⟩,
  ⟨20, 0x040, 0x0, 1, [(INGEST_AUDIT_SENT, .ro), (INGEST_AUDIT_RECEIVED, .ro)]⟩,
  ⟨20, 0x100, 0x20, 64, [(INGEST_STREAM_CFG_EN 0, .rw), (INGEST_STREAM_CFG_KIND 0, .rw), (INGEST_STREAM_CFG_MODALITY 0, .rw), (INGEST_STREAM_CFG_SAFETY_SET 0, .rw), (INGEST_STREAM_CFG_REDUNDANT 0, .rw), (INGEST_STREAM_CFG_CNT_BITS 0, .rw), (INGEST_STREAM_CFG_ENET_PORT 0, .rw), (INGEST_STREAM_CFG_DATA_TYPE 0, .rw), (INGEST_STREAM_CFG_DEPTH_STEP 0, .rw), (INGEST_STREAM_CFG_CALIB 0, .rw)]⟩,
  ⟨20, 0x104, 0x20, 64, [(INGEST_STREAM_CHK_FROZEN_EN 0, .rw), (INGEST_STREAM_CHK_DEPTH_M1 0, .rw), (INGEST_STREAM_CHK_FROZEN_N 0, .rw), (INGEST_STREAM_CHK_STALE_TICKS 0, .rw), (INGEST_STREAM_CHK_SECTORS 0, .rw)]⟩,
  ⟨20, 0x108, 0x20, 64, [(INGEST_STREAM_ETH_UDP_PORT 0, .rw), (INGEST_STREAM_ETH_CNT_OFF 0, .rw), (INGEST_STREAM_ETH_TS_OFF 0, .rw)]⟩,
  ⟨20, 0x10C, 0x20, 64, [(INGEST_STREAM_ADJ_ADJ_NS 0, .rw)]⟩,
  ⟨20, 0x110, 0x20, 64, [(INGEST_STREAM_RECT_RECT_EN 0, .rw), (INGEST_STREAM_RECT_GRID_OFF 0, .rw)]⟩,
  ⟨20, 0x114, 0x20, 64, [(INGEST_STREAM_STATE_STATE 0, .ro), (INGEST_STREAM_STATE_DISPUTED 0, .ro), (INGEST_STREAM_STATE_CAUSE 0, .ro), (INGEST_STREAM_STATE_RUN 0, .ro)]⟩,
  ⟨20, 0x118, 0x20, 64, [(INGEST_STREAM_COUNT_DROPPED 0, .rc), (INGEST_STREAM_COUNT_BAD 0, .rc), (INGEST_STREAM_COUNT_REPEAT 0, .rc), (INGEST_STREAM_COUNT_LATE 0, .rc)]⟩]

/-- Registers of the SAFETY block. -/
def regsSafetyA : List RegRow := [
  ⟨21, 0x000, 0x0, 1, [(SAFETY_CTL_LOCK, .w1s), (SAFETY_CTL_PARTNER_EN, .rwl), (SAFETY_CTL_SAFE_DROP, .rwl), (SAFETY_CTL_ESTOP_CAT, .rwl), (SAFETY_CTL_RESUME_SRC, .rwl), (SAFETY_CTL_RESUME_GPIO, .rwl), (SAFETY_CTL_STOP_TICKS, .rwl)]⟩,
  ⟨21, 0x004, 0x0, 1, [(SAFETY_STATUS_RANGE_ERR, .w1c), (SAFETY_STATUS_TAIL_ACTIVE, .ro), (SAFETY_STATUS_MODE, .ro), (SAFETY_STATUS_TAIL_STATE, .ro), (SAFETY_STATUS_OUT0, .ro), (SAFETY_STATUS_OUT1, .ro), (SAFETY_STATUS_ESTOP, .ro), (SAFETY_STATUS_RECOVERABLE, .ro), (SAFETY_STATUS_CAUSES, .ro)]⟩,
  ⟨21, 0x008, 0x0, 1, [(SAFETY_FAULT_VALID, .ro), (SAFETY_FAULT_CAUSE, .ro), (SAFETY_FAULT_DIE, .ro), (SAFETY_FAULT_DETAIL, .ro)]⟩,
  ⟨21, 0x00C, 0x0, 1, [(SAFETY_FAULT_TIME_LO_TIME, .ro)]⟩,
  ⟨21, 0x010, 0x0, 1, [(SAFETY_FAULT_TIME_HI_TIME, .ro)]⟩,
  ⟨21, 0x014, 0x0, 1, [(SAFETY_RESUME_KEY, .wo)]⟩,
  ⟨21, 0x020, 0x0, 1, [(SAFETY_GOLDEN_CFG_EN, .rwl), (SAFETY_GOLDEN_CFG_EVERY_M1, .rwl), (SAFETY_GOLDEN_CFG_TICK, .rwl)]⟩,
  ⟨21, 0x024, 0x0, 1, [(SAFETY_GOLDEN_STATUS_PENDING, .ro), (SAFETY_GOLDEN_STATUS_LAST_PASS, .ro), (SAFETY_GOLDEN_STATUS_DEFERRED, .rc), (SAFETY_GOLDEN_STATUS_RUN, .rc)]⟩,
  ⟨21, 0x028, 0x0, 1, [(SAFETY_GOLDEN_AREA_REFLEX_64K, .rwl), (SAFETY_GOLDEN_AREA_FUSION_64K, .rwl)]⟩,
  ⟨21, 0x030, 0x0, 1, [(SAFETY_AGE_CFG_FRESH_TICKS, .rwl), (SAFETY_AGE_CFG_START_TICKS, .rwl)]⟩,
  ⟨21, 0x034, 0x0, 1, [(SAFETY_TAIL_CFG_NEAR_MM, .rwl), (SAFETY_TAIL_CFG_STILL_MMS, .rwl)]⟩,
  ⟨21, 0x038, 0x0, 1, [(SAFETY_XCHK_SENT, .ro), (SAFETY_XCHK_RECEIVED, .ro)]⟩,
  ⟨21, 0x040, 0x4, 32, [(SAFETY_GOLD_EXP_CRC 0, .rwl)]⟩,
  ⟨21, 0x0C0, 0x4, 32, [(SAFETY_GOLD_GOT_CRC 0, .ro)]⟩,
  ⟨21, 0x200, 0x10, 16, [(SAFETY_WDG_CFG_EN 0, .rwl), (SAFETY_WDG_CFG_STAGE 0, .rwl), (SAFETY_WDG_CFG_DIE 0, .rwl), (SAFETY_WDG_CFG_TOL 0, .rwl), (SAFETY_WDG_CFG_EVERY_M1 0, .rwl), (SAFETY_WDG_CFG_PHASE 0, .rwl), (SAFETY_WDG_CFG_UNIT 0, .rwl)]⟩,
  ⟨21, 0x204, 0x10, 16, [(SAFETY_WDG_WIN_OPEN_16 0, .rwl), (SAFETY_WDG_WIN_CLOSE_16 0, .rwl)]⟩]

/-- Registers of the SAFETY block. -/
def regsSafetyB : List RegRow := [
  ⟨21, 0x208, 0x10, 16, [(SAFETY_WDG_AGE_LIMIT_US 0, .rwl)]⟩,
  ⟨21, 0x20C, 0x10, 16, [(SAFETY_WDG_STATUS_LAST 0, .ro), (SAFETY_WDG_STATUS_MISSES 0, .ro), (SAFETY_WDG_STATUS_REJECTED 0, .ro), (SAFETY_WDG_STATUS_KICK_RC 0, .ro)]⟩,
  ⟨21, 0x300, 0x0, 1, [(SAFETY_INJ_STATUS_DONE, .ro), (SAFETY_INJ_STATUS_PASS, .ro), (SAFETY_INJ_STATUS_CLASS, .ro), (SAFETY_INJ_STATUS_TIME_100US, .ro)]⟩,
  ⟨21, 0x304, 0x0, 1, [(SAFETY_INJ_DETAIL_INDEX, .ro)]⟩]

/-- Registers of the SELFTEST block. -/
def regsSelftest : List RegRow := [
  ⟨22, 0x000, 0x0, 1, [(SELFTEST_CTL_LOCK, .w1s), (SELFTEST_CTL_SEQ_EN, .rwl)]⟩,
  ⟨22, 0x004, 0x0, 1, [(SELFTEST_STATUS_RANGE_ERR, .w1c), (SELFTEST_STATUS_REFUSED, .w1c), (SELFTEST_STATUS_LOGIC_FAIL, .w1c), (SELFTEST_STATUS_MAN_BUSY, .ro), (SELFTEST_STATUS_MAN_RESULT, .ro), (SELFTEST_STATUS_LANES_BUSY, .ro)]⟩,
  ⟨22, 0x008, 0x0, 1, [(SELFTEST_SEQ_LEN, .rwl)]⟩,
  ⟨22, 0x00C, 0x0, 1, [(SELFTEST_SEQ_POS_POS, .ro)]⟩,
  ⟨22, 0x010, 0x0, 1, [(SELFTEST_PASSES_PASSES, .ro)]⟩,
  ⟨22, 0x014, 0x0, 1, [(SELFTEST_COUNT_ABORTED, .rc), (SELFTEST_COUNT_DEFERRED, .rc), (SELFTEST_COUNT_FAILS, .rc)]⟩,
  ⟨22, 0x020, 0x4, 4, [(SELFTEST_MAN_ITEM_WORD 0, .rw)]⟩,
  ⟨22, 0x030, 0x0, 1, [(SELFTEST_MAN_CTL_START, .w1s), (SELFTEST_MAN_CTL_WINDOW, .rw), (SELFTEST_MAN_CTL_SAVE, .rw)]⟩,
  ⟨22, 0x040, 0x4, 4, [(SELFTEST_FAIL_WORD 0, .ro)]⟩,
  ⟨22, 0x050, 0x0, 1, [(SELFTEST_FAIL_STATUS_OVERFLOW, .w1c), (SELFTEST_FAIL_STATUS_COUNT, .ro)]⟩,
  ⟨22, 0x054, 0x0, 1, [(SELFTEST_AUDIT_HELD, .ro), (SELFTEST_AUDIT_RELEASED, .ro)]⟩]

/-- Registers of the BASK block. -/
def regsBask : List RegRow := [
  ⟨23, 0x000, 0x0, 1, [(BASK_CTL_LOCK, .w1s), (BASK_CTL_CAL_EN, .rwl), (BASK_CTL_HOT_C, .rwl), (BASK_CTL_HYST_C, .rwl)]⟩,
  ⟨23, 0x004, 0x0, 1, [(BASK_STATUS_RANGE_ERR, .w1c), (BASK_STATUS_CAP_UNMET, .ro), (BASK_STATUS_CAP_LIMITED, .ro), (BASK_STATUS_HOT, .ro), (BASK_STATUS_TRIP, .ro), (BASK_STATUS_COLD, .ro), (BASK_STATUS_OP7_RETIRED, .ro), (BASK_STATUS_SENSOR_FAIL, .w1c), (BASK_STATUS_CAL_ACTIVE, .ro), (BASK_STATUS_AGE_LIMIT, .ro), (BASK_STATUS_CAP_CEIL, .ro), (BASK_STATUS_THERM_CEIL, .ro), (BASK_STATUS_PREF, .ro), (BASK_STATUS_GRANT, .ro)]⟩,
  ⟨23, 0x008, 0x0, 1, [(BASK_CAP_CAP_DW, .rw)]⟩,
  ⟨23, 0x00C, 0x0, 1, [(BASK_POWER_TICK_DW, .ro), (BASK_POWER_NOW_DW, .ro)]⟩,
  ⟨23, 0x010, 0x0, 1, [(BASK_DIE_POWER_TICK_DW, .ro), (BASK_DIE_POWER_NOW_DW, .ro)]⟩,
  ⟨23, 0x014, 0x0, 1, [(BASK_PARK_PARKED, .ro)]⟩,
  ⟨23, 0x018, 0x0, 1, [(BASK_COUNT_EMERG, .rc), (BASK_COUNT_LATE_RAISE, .rc), (BASK_COUNT_CAL_SKIP, .rc), (BASK_COUNT_CAL_CLAMP, .rc)]⟩,
  ⟨23, 0x020, 0x0, 1, [(BASK_TEMP_MAX_SENSOR, .ro), (BASK_TEMP_MAX_TEMP, .ro)]⟩,
  ⟨23, 0x024, 0x0, 1, [(BASK_TEMP_SEL_SENSOR, .rw)]⟩,
  ⟨23, 0x028, 0x0, 1, [(BASK_TEMP_VAL_VALID, .ro), (BASK_TEMP_VAL_EXCLUDED, .ro), (BASK_TEMP_VAL_TEMP, .ro)]⟩,
  ⟨23, 0x030, 0x0, 1, [(BASK_AGE_HOURS, .ro), (BASK_AGE_SLACK_PS, .ro), (BASK_AGE_COUNT, .ro)]⟩,
  ⟨23, 0x040, 0x4, 8, [(BASK_OP_RETIRED 0, .ro), (BASK_OP_V_MV 0, .ro)]⟩,
  ⟨23, 0x080, 0x4, 8, [(BASK_RAIL_EN 0, .rwl), (BASK_RAIL_ADDR 0, .rwl), (BASK_RAIL_GAIN 0, .ro)]⟩,
  ⟨23, 0x0A0, 0x4, 8, [(BASK_RAIL_P_POWER_DW 0, .ro)]⟩]

/-- Registers of the EFT block. -/
def regsEftA : List RegRow := [
  ⟨24, 0x000, 0x0, 1, [(EFT_BOOT_STATUS_READY, .ro), (EFT_BOOT_STATUS_FAILED, .ro), (EFT_BOOT_STATUS_UNSTEPPED, .ro), (EFT_BOOT_STATUS_STAGE, .ro), (EFT_BOOT_STATUS_RATE_STEP, .ro), (EFT_BOOT_STATUS_BOOT_MS, .ro)]⟩,
  ⟨24, 0x004, 0x0, 1, [(EFT_BOOT_ERR_VALID, .ro), (EFT_BOOT_ERR_SECTION, .ro), (EFT_BOOT_ERR_REASON, .ro), (EFT_BOOT_ERR_BLOCK, .ro)]⟩,
  ⟨24, 0x008, 0x0, 1, [(EFT_BOOT_ITEM_ITEM, .ro)]⟩,
  ⟨24, 0x00C, 0x0, 1, [(EFT_VERSION_FUSE_MIN, .ro), (EFT_VERSION_IMAGE, .ro)]⟩,
  ⟨24, 0x010, 0x0, 1, [(EFT_LC_SERVICE_LEFT, .ro), (EFT_LC_OWNER_SET, .ro), (EFT_LC_STATE, .ro)]⟩,
  ⟨24, 0x014, 0x0, 1, [(EFT_RESET_KEY, .wo)]⟩,
  ⟨24, 0x018, 0x0, 1, [(EFT_REQ_CTL_BUSY, .ro), (EFT_REQ_CTL_START, .w1s), (EFT_REQ_CTL_OP, .rw), (EFT_REQ_CTL_RESULT, .ro)]⟩,
  ⟨24, 0x01C, 0x0, 1, [(EFT_STATUS_RANGE_ERR, .w1c)]⟩,
  ⟨24, 0x03C, 0x0, 1, [(EFT_CERT_LEN_BYTES, .ro)]⟩,
  ⟨24, 0x040, 0x4, 8, [(EFT_CHALLENGE_WORD 0, .ro)]⟩,
  ⟨24, 0x100, 0x4, 16, [(EFT_NONCE_WORD 0, .rw)]⟩,
  ⟨24, 0x200, 0x4, 87, [(EFT_QUOTE_WORD 0, .ro)]⟩,
  ⟨24, 0x400, 0x4, 90, [(EFT_REQ_WORD 0, .rw)]⟩,
  ⟨24, 0x1000, 0x4, 512, [(EFT_CERT_WORD 0, .ro)]⟩,
  ⟨24, 0x2000, 0x4, 1024, [(EFT_FLASH_BUF_WORD 0, .rw)]⟩,
  ⟨24, 0x800, 0x0, 1, [(EFT_FLASH_ADDR_LO_ADDR, .rw)]⟩]

/-- Registers of the EFT block. -/
def regsEftB : List RegRow := [
  ⟨24, 0x804, 0x0, 1, [(EFT_FLASH_ADDR_HI_ADDR, .rw)]⟩,
  ⟨24, 0x808, 0x0, 1, [(EFT_FLASH_CMD_BUSY, .ro), (EFT_FLASH_CMD_START, .w1s), (EFT_FLASH_CMD_OP, .rw), (EFT_FLASH_CMD_RESULT, .ro)]⟩]

/-- Registers of the OLINER block. -/
def regsOliner : List RegRow := [
  ⟨25, 0x000, 0x0, 1, [(OLINER_CTL_LOCK, .w1s), (OLINER_CTL_SYNC_IN, .rwl), (OLINER_CTL_FWD_EN, .rwl), (OLINER_CTL_EN, .rwl)]⟩,
  ⟨25, 0x004, 0x0, 1, [(OLINER_DEVICE_ID_ID, .rwl)]⟩,
  ⟨25, 0x008, 0x0, 1, [(OLINER_STATUS_RANGE_ERR, .w1c), (OLINER_STATUS_LOST_SEEN, .w1c), (OLINER_STATUS_STATE, .ro), (OLINER_STATUS_PARTNER_ID, .ro)]⟩,
  ⟨25, 0x00C, 0x0, 1, [(OLINER_ERR_COUNT_CRC_ERR, .rc), (OLINER_ERR_COUNT_RETRY, .rc), (OLINER_ERR_COUNT_DROPPED, .rc)]⟩,
  ⟨25, 0x010, 0x0, 1, [(OLINER_AUDIT_SENT, .ro), (OLINER_AUDIT_RETURNED, .ro)]⟩,
  ⟨25, 0x100, 0x8, 256, [(OLINER_ROUTE_LO_HI_ID 0, .rwl), (OLINER_ROUTE_LO_LO_ID 0, .rwl)]⟩,
  ⟨25, 0x104, 0x8, 256, [(OLINER_ROUTE_HI_V 0, .rwl), (OLINER_ROUTE_HI_EGRESS 0, .rwl)]⟩,
  ⟨25, 0x900, 0x8, 8, [(OLINER_WIN_LO_BASE 0, .rwl)]⟩,
  ⟨25, 0x904, 0x8, 8, [(OLINER_WIN_HI_EN 0, .rwl), (OLINER_WIN_HI_WR 0, .rwl), (OLINER_WIN_HI_RD 0, .rwl), (OLINER_WIN_HI_LOG2_SIZE 0, .rwl), (OLINER_WIN_HI_BASE 0, .rwl)]⟩]

/-- Registers of the PCIE block. -/
def regsPcie : List RegRow := [
  ⟨26, 0x000, 0x0, 1, [(PCIE_CTL_LOCK, .w1s), (PCIE_CTL_RANGE_ERR, .w1c), (PCIE_CTL_WIDTH, .ro), (PCIE_CTL_SPEED, .ro), (PCIE_CTL_LINK_UP, .ro), (PCIE_CTL_ROLE, .rwl), (PCIE_CTL_EN, .rwl)]⟩,
  ⟨26, 0x200, 0x0, 1, [(PCIE_MSIX_TRIGGER_VECTOR, .wo)]⟩,
  ⟨26, 0x30C, 0x0, 1, [(PCIE_MBOX_CMD_BUSY, .ro), (PCIE_MBOX_CMD_START, .w1s), (PCIE_MBOX_CMD_OP, .rw), (PCIE_MBOX_CMD_RESULT, .ro)]⟩,
  ⟨26, 0x100, 0x8, 8, [(PCIE_WIN_LO_BASE 0, .rwl)]⟩,
  ⟨26, 0x104, 0x8, 8, [(PCIE_WIN_HI_EN 0, .rwl), (PCIE_WIN_HI_WR 0, .rwl), (PCIE_WIN_HI_RD 0, .rwl), (PCIE_WIN_HI_LOG2_SIZE 0, .rwl), (PCIE_WIN_HI_BASE 0, .rwl)]⟩,
  ⟨26, 0x300, 0x0, 1, [(PCIE_MBOX_ADDR_LO_ADDR, .rw)]⟩,
  ⟨26, 0x304, 0x0, 1, [(PCIE_MBOX_ADDR_HI_ADDR, .rw)]⟩,
  ⟨26, 0x308, 0x0, 1, [(PCIE_MBOX_DATA_DATA, .rw)]⟩]

/-- Registers of the LP5X block. -/
def regsLp5x : List RegRow := [
  ⟨27, 0x000, 0x0, 1, [(LP5X_CTL_LOCK, .w1s), (LP5X_CTL_INTERLEAVE, .rwl), (LP5X_CTL_INLINE_ECC, .rwl), (LP5X_CTL_PATROL_EN, .rwl), (LP5X_CTL_RATE, .rwl)]⟩,
  ⟨27, 0x004, 0x0, 1, [(LP5X_STATUS_RANGE_ERR, .w1c), (LP5X_STATUS_MISMATCH, .ro), (LP5X_STATUS_TRAINED, .ro), (LP5X_STATUS_RATE_ACT, .ro), (LP5X_STATUS_CAP_GIB, .ro)]⟩,
  ⟨27, 0x008, 0x0, 1, [(LP5X_MAPPED_MAPPED_GIB, .ro)]⟩,
  ⟨27, 0x00C, 0x0, 1, [(LP5X_CE_COUNT_COUNT, .rc)]⟩,
  ⟨27, 0x010, 0x0, 1, [(LP5X_UE_COUNT_COUNT, .rc)]⟩,
  ⟨27, 0x014, 0x0, 1, [(LP5X_ERR_ADDR_LO_ADDR, .ro)]⟩,
  ⟨27, 0x018, 0x0, 1, [(LP5X_ERR_ADDR_HI_ADDR, .ro)]⟩,
  ⟨27, 0x01C, 0x0, 1, [(LP5X_ERR_STATUS_VALID, .w1c), (LP5X_ERR_STATUS_OVERFLOW, .w1c), (LP5X_ERR_STATUS_UE, .ro), (LP5X_ERR_STATUS_SOURCE, .ro), (LP5X_ERR_STATUS_SUBCH, .ro), (LP5X_ERR_STATUS_SYNDROME, .ro)]⟩,
  ⟨27, 0x020, 0x0, 1, [(LP5X_TEMP_HOT, .w1c), (LP5X_TEMP_REFRESH_RATE, .ro)]⟩]

/-- Registers of the ENET block. -/
def regsEnet : List RegRow := [
  ⟨28, 0x000, 0x800, 2, [(ENET_CTL_LOCK 0, .w1s), (ENET_CTL_RANGE_ERR 0, .w1c), (ENET_CTL_LINK_UP 0, .ro), (ENET_CTL_HQ_EN 0, .rw), (ENET_CTL_QBV_EN 0, .rwl), (ENET_CTL_SPEED 0, .rwl)]⟩,
  ⟨28, 0x004, 0x800, 2, [(ENET_STATUS_DROPS 0, .rc), (ENET_STATUS_FCS_ERR 0, .rc)]⟩,
  ⟨28, 0x020, 0x800, 2, [(ENET_HQ_TX_TX_HEAD 0, .ro), (ENET_HQ_TX_TX_TAIL 0, .rw)]⟩,
  ⟨28, 0x024, 0x800, 2, [(ENET_HQ_MSI_LO_VALUE 0, .rw)]⟩,
  ⟨28, 0x028, 0x800, 2, [(ENET_HQ_MSI_HI_VALUE 0, .rw)]⟩,
  ⟨28, 0x02C, 0x800, 2, [(ENET_HQ_MSI_DATA_VALUE 0, .rw)]⟩,
  ⟨28, 0x008, 0x800, 2, [(ENET_QBV_BASE_LO_NS 0, .rw)]⟩,
  ⟨28, 0x00C, 0x800, 2, [(ENET_QBV_BASE_HI_NS 0, .rw)]⟩,
  ⟨28, 0x010, 0x800, 2, [(ENET_QBV_CYCLE_NS 0, .rw)]⟩,
  ⟨28, 0x400, 0x4, 256, [(ENET_QBV_GCL0_GATES 0, .rw), (ENET_QBV_GCL0_NS 0, .rw)]⟩,
  ⟨28, 0xC00, 0x4, 256, [(ENET_QBV_GCL1_GATES 0, .rw), (ENET_QBV_GCL1_NS 0, .rw)]⟩,
  ⟨28, 0x014, 0x800, 2, [(ENET_HQ_BASE_LO_ADDR 0, .rw)]⟩,
  ⟨28, 0x018, 0x800, 2, [(ENET_HQ_BASE_HI_ADDR 0, .rw)]⟩,
  ⟨28, 0x01C, 0x800, 2, [(ENET_HQ_CTL_RX_TAIL 0, .ro), (ENET_HQ_CTL_RX_HEAD 0, .rw), (ENET_HQ_CTL_LOG2 0, .rw)]⟩,
  ⟨28, 0x100, 0x0, 1, [(ENET_GPTP_GM_CAPABLE, .rwl), (ENET_GPTP_PRIORITY1, .rwl)]⟩]

/-- Registers of the LSIO block. -/
def regsLsioA : List RegRow := [
  ⟨29, 0x000, 0x0, 1, [(LSIO_CTL_LOCK, .w1s), (LSIO_CTL_RANGE_ERR, .w1c), (LSIO_CTL_AVG, .rwl)]⟩,
  ⟨29, 0x100, 0x4, 256, [(LSIO_IN_MAP_EN 0, .rwl), (LSIO_IN_MAP_SIGNED 0, .rwl), (LSIO_IN_MAP_WIDTH 0, .rwl), (LSIO_IN_MAP_CHANNEL 0, .rwl), (LSIO_IN_MAP_FILTER 0, .rwl), (LSIO_IN_MAP_OFFSET 0, .rwl)]⟩,
  ⟨29, 0x500, 0x4, 256, [(LSIO_OUT_MAP_KIND 0, .rwl), (LSIO_OUT_MAP_WIDTH 0, .rwl), (LSIO_OUT_MAP_UNIT 0, .rwl), (LSIO_OUT_MAP_BUF 0, .rwl), (LSIO_OUT_MAP_OFFSET 0, .rwl)]⟩,
  ⟨29, 0x900, 0x4, 384, [(LSIO_CANTX_HDR_FMT 0, .rwl), (LSIO_CANTX_HDR_EXT 0, .rwl), (LSIO_CANTX_HDR_ID 0, .rwl)]⟩,
  ⟨29, 0xF00, 0x4, 12, [(LSIO_CAN_STATUS_OVERWRITE 0, .rc), (LSIO_CAN_STATUS_BUS_ERR 0, .rc), (LSIO_CAN_STATUS_RX 0, .rc)]⟩,
  ⟨29, 0xF40, 0x4, 32, [(LSIO_QEI_CFG_EN 0, .rwl), (LSIO_QEI_CFG_MODE 0, .rwl), (LSIO_QEI_CFG_QERR 0, .rc)]⟩,
  ⟨29, 0x1000, 0x10, 12, [(LSIO_CAN_CFG_EN 0, .rwl), (LSIO_CAN_CFG_FD_EN 0, .rwl), (LSIO_CAN_CFG_XL_EN 0, .rwl), (LSIO_CAN_CFG_XL_SWITCH 0, .rwl), (LSIO_CAN_CFG_LISTEN 0, .rwl), (LSIO_CAN_CFG_LOOP 0, .rwl)]⟩,
  ⟨29, 0x1004, 0x10, 12, [(LSIO_CAN_NBT_BRP_M1 0, .rwl), (LSIO_CAN_NBT_TSEG1_M1 0, .rwl), (LSIO_CAN_NBT_TSEG2_M1 0, .rwl), (LSIO_CAN_NBT_SJW_M1 0, .rwl)]⟩,
  ⟨29, 0x1008, 0x10, 12, [(LSIO_CAN_DBT_BRP_M1 0, .rwl), (LSIO_CAN_DBT_TSEG1_M1 0, .rwl), (LSIO_CAN_DBT_TSEG2_M1 0, .rwl), (LSIO_CAN_DBT_SJW_M1 0, .rwl)]⟩,
  ⟨29, 0x2000, 0x8, 768, [(LSIO_CAN_FLT_ID_EN 0, .rwl), (LSIO_CAN_FLT_ID_EXT 0, .rwl), (LSIO_CAN_FLT_ID_XL 0, .rwl), (LSIO_CAN_FLT_ID_ID 0, .rwl)]⟩,
  ⟨29, 0x2004, 0x8, 768, [(LSIO_CAN_FLT_MASK_MASK 0, .rwl)]⟩,
  ⟨29, 0x1200, 0x4, 12, [(LSIO_CAN_TX_CTL_START 0, .w1s), (LSIO_CAN_TX_CTL_PENDING 0, .ro), (LSIO_CAN_TX_CTL_BUF 0, .rw)]⟩,
  ⟨29, 0x3800, 0x10, 8, [(LSIO_SPI_CFG_EN 0, .rwl), (LSIO_SPI_CFG_MODE 0, .rwl), (LSIO_SPI_CFG_LSB_FIRST 0, .rwl), (LSIO_SPI_CFG_WORD_M1 0, .rwl), (LSIO_SPI_CFG_DIV_M1 0, .rwl), (LSIO_SPI_CFG_GAP 0, .rwl)]⟩,
  ⟨29, 0x3900, 0x4, 128, [(LSIO_SPI_SLOT_EN 0, .rwl), (LSIO_SPI_SLOT_TRIG 0, .rwl), (LSIO_SPI_SLOT_WORDS_M1 0, .rwl)]⟩,
  ⟨29, 0x3E04, 0x10, 8, [(LSIO_I2C_CMD_BUSY 0, .ro), (LSIO_I2C_CMD_START 0, .w1s), (LSIO_I2C_CMD_READ 0, .rw), (LSIO_I2C_CMD_TEN 0, .rw), (LSIO_I2C_CMD_RESULT 0, .ro), (LSIO_I2C_CMD_LEN_M1 0, .rw), (LSIO_I2C_CMD_ADDR 0, .rw)]⟩,
  ⟨29, 0x3F00, 0x10, 4, [(LSIO_UART_CFG_EN 0, .rwl), (LSIO_UART_CFG_RTSCTS 0, .rwl), (LSIO_UART_CFG_DATA8 0, .rwl), (LSIO_UART_CFG_PARITY 0, .rwl), (LSIO_UART_CFG_STOP2 0, .rwl), (LSIO_UART_CFG_DIV 0, .rwl)]⟩]

/-- Registers of the LSIO block. -/
def regsLsioB : List RegRow := [
  ⟨29, 0x1100, 0x0, 1, [(LSIO_CAN_RX_SEL_CHANNEL, .rw), (LSIO_CAN_RX_SEL_FILTER, .rw)]⟩,
  ⟨29, 0x1140, 0x4, 20, [(LSIO_CAN_RX_WORD 0, .ro)]⟩,
  ⟨29, 0x1190, 0x0, 1, [(LSIO_CAN_TX_SEL_CHANNEL, .rw), (LSIO_CAN_TX_SEL_BUF, .rw)]⟩,
  ⟨29, 0x11A0, 0x4, 17, [(LSIO_CAN_TX_WORD 0, .rw)]⟩,
  ⟨29, 0x3804, 0x10, 8, [(LSIO_SPI_STATUS_MISSED 0, .rc)]⟩,
  ⟨29, 0x3D00, 0x0, 1, [(LSIO_SPI_BUF_SEL_RX, .rw), (LSIO_SPI_BUF_SEL_CHANNEL, .rw), (LSIO_SPI_BUF_SEL_SLOT, .rw)]⟩,
  ⟨29, 0x3D40, 0x4, 16, [(LSIO_SPI_BUF_WORD 0, .rw)]⟩,
  ⟨29, 0x3D80, 0x0, 1, [(LSIO_SPI_GO_START, .w1s), (LSIO_SPI_GO_CHANNEL, .rw), (LSIO_SPI_GO_SLOT, .rw)]⟩,
  ⟨29, 0x3E00, 0x10, 8, [(LSIO_I2C_CFG_EN 0, .rwl), (LSIO_I2C_CFG_SPEED 0, .rwl)]⟩,
  ⟨29, 0x3E08, 0x10, 8, [(LSIO_I2C_DATA_VALID 0, .ro), (LSIO_I2C_DATA_BYTE 0, .rw)]⟩,
  ⟨29, 0x3F04, 0x10, 4, [(LSIO_UART_DATA_VALID 0, .ro), (LSIO_UART_DATA_BYTE 0, .rw)]⟩,
  ⟨29, 0x3F08, 0x10, 4, [(LSIO_UART_STATUS_OVERRUN 0, .rc), (LSIO_UART_STATUS_FRAME_ERR 0, .rc), (LSIO_UART_STATUS_RX_LEVEL 0, .ro), (LSIO_UART_STATUS_TX_LEVEL 0, .ro)]⟩,
  ⟨29, 0x3F80, 0x4, 4, [(LSIO_GPIO_MODE_MODES 0, .rwl)]⟩,
  ⟨29, 0x3F90, 0x0, 1, [(LSIO_GPIO_OUT_LO_PINS, .rw)]⟩,
  ⟨29, 0x3F94, 0x0, 1, [(LSIO_GPIO_OUT_HI_PINS, .rw)]⟩,
  ⟨29, 0x3F98, 0x0, 1, [(LSIO_GPIO_IN_LO_PINS, .ro)]⟩]

/-- Registers of the LSIO block. -/
def regsLsioC : List RegRow := [
  ⟨29, 0x3F9C, 0x0, 1, [(LSIO_GPIO_IN_HI_PINS, .ro)]⟩]

/-- Registers of the HOST block. -/
def regsHost : List RegRow := [
  ⟨30, 0x000, 0x0, 1, [(HOST_STATUS_RANGE_ERR, .w1c), (HOST_STATUS_HALTED, .ro)]⟩,
  ⟨30, 0x004, 0x0, 1, [(HOST_ERR_CFG_ID, .rw)]⟩,
  ⟨30, 0x010, 0x4, 4, [(HOST_HART_CTL_FREQ 0, .rw)]⟩,
  ⟨30, 0x020, 0x4, 4, [(HOST_STORE_ERR_COUNT 0, .rc)]⟩,
  ⟨30, 0x040, 0x8, 4, [(HOST_MTIMECMP_LO_VALUE 0, .rw)]⟩,
  ⟨30, 0x044, 0x8, 4, [(HOST_MTIMECMP_HI_VALUE 0, .rw)]⟩]

/-- Registers of the DEBUG block. -/
def regsDebug : List RegRow := [
  ⟨31, 0x000, 0x0, 1, [(DEBUG_STATUS_OPEN, .ro), (DEBUG_STATUS_USED, .ro), (DEBUG_STATUS_HALT_PENDING, .ro)]⟩,
  ⟨31, 0x004, 0x0, 1, [(DEBUG_UNLOCK_CTL_BUSY, .ro), (DEBUG_UNLOCK_CTL_START, .w1s), (DEBUG_UNLOCK_CTL_RESULT, .ro)]⟩,
  ⟨31, 0x040, 0x4, 8, [(DEBUG_CHALLENGE_WORD 0, .ro)]⟩,
  ⟨31, 0x400, 0x4, 90, [(DEBUG_UNLOCK_REQ_WORD 0, .rw)]⟩]

/-- The rows of a register block, by its index in R32 (the eight CLUSTER blocks share one map). -/
def regRows (blk : Nat) : List RegRow :=
  match (if 8 ≤ blk ∧ blk ≤ 15 then 8 else blk) with
  | 0 => regsDieCtlA ++ regsDieCtlB
  | 1 => regsChorusA ++ regsChorusB
  | 2 => regsPond
  | 3 => regsXlateA ++ regsXlateB
  | 4 => regsDma
  | 5 => regsDispatchA ++ regsDispatchB
  | 6 => regsSync
  | 7 => regsRegulate
  | 8 => regsClusterA ++ regsClusterB
  | 16 => regsReflexSolve
  | 17 => regsReflexCtrlA ++ regsReflexCtrlB
  | 18 => regsReflexCollA ++ regsReflexCollB
  | 19 => regsFusion
  | 20 => regsIngest
  | 21 => regsSafetyA ++ regsSafetyB
  | 22 => regsSelftest
  | 23 => regsBask
  | 24 => regsEftA ++ regsEftB
  | 25 => regsOliner
  | 26 => regsPcie
  | 27 => regsLp5x
  | 28 => regsEnet
  | 29 => regsLsioA ++ regsLsioB ++ regsLsioC
  | 30 => regsHost
  | 31 => regsDebug
  | _ => []

end Sys2Proof.Machine
end

