-- ==== Sys2Proof/Machine/RegBus.lean ====
section
/-!
DEFINITION. Register accesses (R7, R8, R32, R33): the register at an offset, what it reads and what a read does, which writes are refused,
which are commands, the locks, and the requests to registers that a command has brought.
-/
namespace Sys2Proof.Machine

/-! ### Finding a register -/

/-- The register at an offset of a block, and its index. -/
def regFind (blk off : Nat) : Option (RegRow × Nat) :=
  (regRows blk).findSome? fun r =>
    if r.stride = 0 then if off = r.off then some (r, 0) else none
    else if r.off ≤ off ∧ (off - r.off) % r.stride = 0 ∧ (off - r.off) / r.stride < r.count then some (r, (off - r.off) / r.stride)
    else none

/-- A field of a row, in the block and at the offset of the register meant. -/
def Fld.placed (f : Fld) (blk off : Nat) : Fld := { f with blk := blk, off := off }

/-- A block that a die does not have, and the SAFETY blocks of dies 2 and 3 (R32, R33). -/
def regAbsent (die blk : Nat) : Bool :=
  (blk = 26 && die % 2 = 1) || (blk = 29 && die ≠ 0) || (blk = 21 && 2 ≤ die)

/-! ### Reads -/

/-- Status of a core (R134). -/
def Device.coreStatusView (s : Device) (core : Nat) : Nat :=
  let parked := s.xlate.faults.any fun f => f.die = core / 64 && f.unit = core % 64 && !f.dma && (f.heldCore || f.stage = .parked || f.stage = .waiting)
  let rsv := bit (s.rd (core / 64) (CLUSTER_CORE_RSV_RSV (core % 64 / 8))) (core % 8)
  b2n parked * 2 ^ 30 + b2n rsv * 2 ^ 29 +
    match (s.cmd core).filter (!·.ended) with
    | some c => 2 ^ 31 + c.opcode % 256 * 2 ^ 16 + s.workJob c.work % 4096
    | none => 0

/-- Slots of a core's pool in a state (R161). -/
def Device.slotCount (s : Device) (core st : Nat) : Nat :=
  let n := s.rd (core / 64) (CLUSTER_PAD_POOL_SLOTS (core % 64 / 8))
  ((List.range n).filter fun i => (SMap.get {} s.att.slots (core * 128 + i)).st = st).length

/-- A core's chunk or swap (R180). -/
def Device.recBusy (s : Device) (core : Nat) : Nat :=
  let op := match s.cmd core with | some c => if c.ended then 0 else c.opcode | none => 0
  b2n (op = 0x13) * 2 ^ 31 + b2n (op = 0x14) * 2 ^ 30

/-- Waits placed on a sync object and not yet satisfied (R225). -/
def Device.waiters (s : Device) (g : Nat) : Nat :=
  let v := s.syncVal g
  let placed := s.disp.waits.filter fun w => w.1 = g && !waitDone v w.2.1
  let slices := s.chorus.slices.filter fun x =>
    let r := s.sliceRec x.die x.idx
    !x.started && slWaitEn r && x.die * 16384 + slWaitSync r = g && !s.sliceWaitDone x.die r
  let heads := s.disp.rings.filter fun e =>
    s.ringWaits e.1 && hdWaitSync (s.ringEntry e.1 e.2.head) = g
  min 65535 (placed.length + slices.length + heads.length)

/-- What a register of DISPATCH or SYNC reads beyond its stored fields. -/
def Device.dispView (s : Device) (die off : Nat) : Option Nat :=
  let r := s.ring (s.selRing die)
  match off with
  | 0x01C => some (r.state * 2 ^ 30 + b2n (s.ringWaits (s.selRing die)) * 2 ^ 29 + b2n (s.kernelOf (s.selRing die)).isSome * 2 ^ 28 + r.job)
  | 0x020 => some (r.tail * 65536 + r.head)
  | 0x024 => some (r.cqTail * 65536 + r.cqHead)
  | 0x038 =>
    let j := s.rd 0 DISPATCH_JOB_SEL_JOB
    some ((s.job j).state * 2 ^ 29 + (s.job j).client * 2 ^ 20 + (s.disp.rings.filter fun e => e.2.state ≠ 0 && e.2.job = j).length)
  | _ => none

/-- The levels of GPIO pins 32`h` to 32`h` + 31 (R429): an output pin reads what drives it, and any other pin is the world's: a free value. -/
def Device.gpioIn (s : Device) (h : Nat) : Nat :=
  let out := if h = 0 then s.rd 0 LSIO_GPIO_OUT_LO_PINS else s.rd 0 LSIO_GPIO_OUT_HI_PINS
  (List.range 32).foldl (fun v k => v + b2n (if s.gpioMode (32 * h + k) = 1 then bit out k else bit (Config.freeWord s.fresh) k) * 2 ^ k) 0

/-- The number of the CAN buffer, and of the SPI slot, that software has selected. -/
def Device.canSel (s : Device) : Nat := s.rd 0 LSIO_CAN_TX_SEL_CHANNEL * 32 + s.rd 0 LSIO_CAN_TX_SEL_BUF
def Device.spiSel (s : Device) : Nat := s.rd 0 LSIO_SPI_BUF_SEL_CHANNEL * 16 + s.rd 0 LSIO_SPI_BUF_SEL_SLOT

/-- What a register reads that is not a plain sum of its stored fields. -/
def Device.specialView (s : Device) (die blk off : Nat) : Option Nat :=
  match blk with
  | 0 => if off = 0x12C then some (s.raddLo die) else if off = 0x130 then some (s.raddHi die)
    else if off = 0x128 then some (SMap.get [] s.err.raddq die).length else none
  | 1 => match off with
    | 0x30 => some (s.chorus.time % 2 ^ 32)
    | 0x34 => some (SMap.get 0 s.latch (CHORUS_TIME_HI_TIME.key die))
    | 0x38 => some (s.chorus.edgeTime % 2 ^ 32)
    | 0x3C => some (SMap.get 0 s.latch (CHORUS_EDGE_TIME_HI_TIME.key die))
    | _ => none
  | 5 => s.dispView die off
  | 6 => match off with
    | 0x04 => some (s.syncVal (die * 16384 + s.rd die SYNC_SEL_INDEX) % 2 ^ 32)
    | 0x08 => some (SMap.get 0 s.latch (SYNC_VALUE_HI_VALUE.key die))
    | 0x14 =>
      let g := die * 16384 + s.rd die SYNC_SEL_INDEX
      some (s.rd die SYNC_STATUS_REFUSED * 2 ^ 31 + b2n (s.syncReserved g) * 2 ^ 30 + s.waiters g)
    | _ => none
  | 7 =>
    if off = 0x44 then
      let p := s.rd die REGULATE_SEL_PORT
      let c := s.rd die REGULATE_SEL_CLASS
      some (b2n (s.regul.held.any fun r => r.die = die && s.portOf r = p && (s.label r).2 = c) * 2 ^ 31 + min 256 (s.outstanding die p c))
    else none
  | 21 => if off = 0x10 then some (SMap.get 0 s.latch (SAFETY_FAULT_TIME_HI_TIME.key die)) else none
  | 22 => if 0x40 ≤ off ∧ off < 0x50 then some (s.failWord die ((off - 0x40) / 4)) else none
  | 23 => if off = 0x28 then some (s.tempVal die) else none
  | 24 => if off = 0x3C then some s.eft.fuses.cert.length
    else if 0x1000 ≤ off ∧ off < 0x1800 then some (ofBytes ((s.eft.fuses.cert.drop (off - 0x1000)).take 4)) else none
  | 29 =>
    if 0x11A0 ≤ off ∧ off < 0x11E4 then
      let n := (off - 0x11A0) / 4
      some (if n = 0 then SMap.get 0 s.lsio.canLen s.canSel
        else ofBytes ((List.range 4).map fun i => SMap.get 0 s.lsio.canTx (s.canSel * 2048 + 4 * (n - 1) + i)))
    else if 0x3D40 ≤ off ∧ off < 0x3D80 then
      let m := if s.on 0 LSIO_SPI_BUF_SEL_RX then s.lsio.spiRx else s.lsio.spiTx
      some (ofBytes ((List.range 4).map fun i => SMap.get 0 m (s.spiSel * 64 + (off - 0x3D40) + i)))
    else if off = 0x3F98 then some (s.gpioIn 0) else if off = 0x3F9C then some (s.gpioIn 1)
    else none
  | 30 => if off = 0 then
      some (s.rd die HOST_STATUS_RANGE_ERR * 2 ^ 31 + (List.range 4).foldl (fun v n => v + b2n (s.probe.halted.contains (0x10000 + die * 4 + n)) * 2 ^ n) 0)
    else none
  | _ =>
    if 8 ≤ blk ∧ blk < 16 then
      let core := fun (base stride : Nat) => die * 64 + (blk - 8) * 8 + (off - base) / stride
      if 0x100 ≤ off ∧ off < 0x180 ∧ off % 16 = 0 then some (s.coreStatusView (core 0x100 16))
      else if 0x440 ≤ off ∧ off < 0x460 then
        some (s.slotCount (core 0x440 4) 0 * 2 ^ 16 + s.slotCount (core 0x440 4) 1 * 2 ^ 8 + s.slotCount (core 0x440 4) 2)
      else none
    else none

/-- The stored fields of a register, as it reads. -/
def Device.fieldsView (s : Device) (die blk off : Nat) : Nat :=
  match regFind blk off with
  | some (r, _) => r.fields.foldl (fun v f => match f.2 with | .wo => v | _ => v + s.rd die (f.1.placed blk off) * 2 ^ f.1.lo) 0
  | none => 0

/-- What a register reads. -/
def Device.regView (s : Device) (die blk off : Nat) : Nat :=
  if regAbsent die blk then 0
  else match s.specialView die blk off with
    | some v => v
    | none =>
      if 8 ≤ blk ∧ blk < 16 ∧ 0x200 ≤ off ∧ off < 0x220 then
        s.fieldsView die blk off % 2 ^ 30 + s.recBusy (die * 64 + (blk - 8) * 8 + (off - 0x200) / 4)
      else if blk = 4 ∧ 0x100 ≤ off ∧ off < 0x140 then
        setBits (s.fieldsView die blk off) 30 1 (bits (s.rd die DMA_CTL_RSV_MASK) ((off - 0x100) / 4) 1)
      else s.fieldsView die blk off

/-- A read of a low half latches the high half (R58, R225, R353). -/
def Device.latchHigh (s : Device) (die blk off : Nat) : Device :=
  let put := fun (f : Fld) (v : Nat) => { s with latch := SMap.put 0 s.latch (f.key die) (v / 2 ^ 32 % 2 ^ 32) }
  match blk, off with
  | 1, 0x30 => put CHORUS_TIME_HI_TIME s.chorus.time
  | 1, 0x38 => put CHORUS_EDGE_TIME_HI_TIME s.chorus.edgeTime
  | 6, 0x04 => put SYNC_VALUE_HI_VALUE (s.syncVal (die * 16384 + s.rd die SYNC_SEL_INDEX))
  | 21, 0x0C => put SAFETY_FAULT_TIME_HI_TIME (s.rd die SAFETY_FAULT_TIME_HI_TIME * 2 ^ 32)
  | _, _ => s

/-- What a read does: RC fields are cleared (R8), a high half is latched, and the registers whose reading is a command act. -/
def Device.readEffect (s : Device) (die blk off : Nat) : Device :=
  if blk = 0 ∧ off = 0x130 then raddPopBody die s
  else if blk = 22 ∧ off = 0x4C then failPopBody die s
  else if blk = 29 ∧ off = 0x1140 then canRxSnapshotBody s
  else if blk = 29 ∧ 0x3E08 ≤ off ∧ off < 0x3E88 ∧ off % 16 = 8 then i2cDataReadBody ((off - 0x3E08) / 16) s
  else if blk = 29 ∧ 0x3F04 ≤ off ∧ off < 0x3F44 ∧ off % 16 = 4 then uartDataReadBody ((off - 0x3F04) / 16) s
  else if blk = 29 ∧ (off = 0x3F98 ∨ off = 0x3F9C) then { s with fresh := s.fresh + 1 }
  else
    match regFind blk off with
    | some (r, _) => r.fields.foldl (fun (s : Device) f => if f.2 = .rc then s.clr die (f.1.placed blk off) else s) (s.latchHigh die blk off)
    | none => s

/-- A read whose value is what the command it performs answers. -/
def answeredRead (blk off : Nat) : Bool :=
  blk = 29 && (off = 0x1140 || (decide (0x3E08 ≤ off) && decide (off < 0x3E88) && off % 16 = 8) ||
    (decide (0x3F04 ≤ off) && decide (off < 0x3F44) && off % 16 = 4))

/-- Read a register: the state after it, and the value. -/
def Device.regRead (s : Device) (die blk off : Nat) : Device × Nat :=
  if regAbsent die blk then (s, 0)
  else
    let s1 := s.readEffect die blk off
    (s1, if answeredRead blk off then s1.reply.2 else s.regView die blk off)

/-! ### Locks and refusals -/

/-- The locks that hold a register's RWL fields (R8): one for its block, or for the collective registers, or for the register alone. -/
def lockFlds (blk off : Nat) : List Fld :=
  match blk with
  | 0 => [DIE_CTL_ERR_CTL_LOCK]
  | 1 => [CHORUS_LOCK_LOCK]
  | 2 => [POND_CTL_LOCK]
  | 3 => [XLATE_CTL_LOCK]
  | 4 => [DMA_CTL_LOCK]
  | 5 => if 0x8000 ≤ off then [DISPATCH_COLL_CTL_LOCK] else [DISPATCH_CTL_LOCK]
  | 7 => [REGULATE_CTL_LOCK]
  | 16 => [REFLEX_SOLVE_CTL_LOCK]
  | 17 => [REFLEX_CTRL_CTL_LOCK]
  | 18 => [REFLEX_COLL_CTL_LOCK]
  | 19 => [FUSION_CTL_LOCK]
  | 20 => [INGEST_CTL_LOCK]
  | 21 => [SAFETY_CTL_LOCK]
  | 22 => [SELFTEST_CTL_LOCK]
  | 23 => [BASK_CTL_LOCK]
  | 25 => [OLINER_CTL_LOCK]
  | 26 => [PCIE_CTL_LOCK]
  | 27 => [LP5X_CTL_LOCK]
  | 28 => [ENET_CTL_LOCK 0, ENET_CTL_LOCK 1]
  | 29 => [LSIO_CTL_LOCK]
  | _ => if 8 ≤ blk ∧ blk < 16 then [CLUSTER_PAD_POOL_LOCK (blk - 8)] else []

/-- A register's RWL fields are locked. -/
def Device.regLocked (s : Device) (die blk off : Nat) : Bool := (lockFlds blk off).any (s.on die)

/-- The RANGE_ERR that a refused write to a register sets. -/
def rangeFld (blk off : Nat) : Option Fld :=
  match blk with
  | 0 => some DIE_CTL_ERR_CTL_RANGE_ERR
  | 1 => some CHORUS_STATUS_RANGE_ERR
  | 2 => some POND_STATUS_RANGE_ERR
  | 3 => some XLATE_STATUS_RANGE_ERR
  | 5 => some (if 0x8000 ≤ off then DISPATCH_COLL_STATUS_RANGE_ERR else DISPATCH_STATUS_RANGE_ERR)
  | 7 => some REGULATE_STATUS_RANGE_ERR
  | 17 => some REFLEX_CTRL_STATUS_RANGE_ERR
  | 18 => some REFLEX_COLL_STATUS_RANGE_ERR
  | 19 => some FUSION_STATUS_RANGE_ERR
  | 20 => some INGEST_STATUS_RANGE_ERR
  | 21 => some SAFETY_STATUS_RANGE_ERR
  | 22 => some SELFTEST_STATUS_RANGE_ERR
  | 23 => some BASK_STATUS_RANGE_ERR
  | 24 => some EFT_STATUS_RANGE_ERR
  | 25 => some OLINER_STATUS_RANGE_ERR
  | 26 => some PCIE_CTL_RANGE_ERR
  | 27 => some LP5X_STATUS_RANGE_ERR
  | 28 => some (ENET_CTL_RANGE_ERR (off / 0x800))
  | 29 => some LSIO_CTL_RANGE_ERR
  | 30 => some HOST_STATUS_RANGE_ERR
  | _ => if 8 ≤ blk ∧ blk < 16 then some (CLUSTER_PAD_STATUS_RANGE_ERR (blk - 8)) else none

/-- Refuse a write (R7): nothing changes but RANGE_ERR. -/
def Device.refuseWrite (s : Device) (die blk off : Nat) : Device :=
  match rangeFld blk off with | some f => s.set die f | none => s

/-- A window's base and size agree (R425, R427): the base formed by both halves is a multiple of the size, which lies in its range. -/
def windowOk (lo hi most : Nat) : Bool :=
  let size := bits hi 16 6
  let base := bits lo 16 16 * 2 ^ 16 + bits hi 0 16 * 2 ^ 32
  decide (16 ≤ size) && decide (size ≤ most) && base % 2 ^ size = 0

/-- The bit-rate products of R429: NBT at most 1 Mbit/s, DBT at most 10, or 8 with FD; the jump width fits. -/
def canTimingOk (v least : Nat) : Bool :=
  decide (least ≤ (bits v 24 8 + 1) * (3 + bits v 16 8 + bits v 8 7)) && decide (bits v 0 7 ≤ bits v 8 7)

/-- The values in range of a register of chapters 11 to 15. -/
def Device.okReflex (s : Device) (die blk off v : Nat) : Bool :=
  match blk with
  | 17 =>
    let n := (off - 0x500) / 0x20
    if off = 0x3C then !s.on die REFLEX_CTRL_CAP_STATUS_BUSY
    else if 0x40 ≤ off ∧ off < 0x80 then bits v 16 16 ≠ 0
    else if 0x800 ≤ off ∧ off < 0x900 ∧ off % 16 = 0 then [0, 2, 3, 6].contains (bits v 28 4)
    else if 0x500 ≤ off ∧ off < 0x700 then
      let x := sext 32 v
      let lo := sext 32 (s.rd die (REFLEX_CTRL_LIM_MIN_VALUE n))
      let hi := sext 32 (s.rd die (REFLEX_CTRL_LIM_MAX_VALUE n))
      let safe := sext 32 (s.rd die (REFLEX_CTRL_LIM_SAFE_VALUE n))
      match off % 0x20 with
      | 0x04 => decide (x ≤ hi) && decide (x ≤ safe)
      | 0x08 => decide (lo ≤ x) && decide (safe ≤ x)
      | 0x0C => v ≠ 0 && decide (v < 2 ^ 31)
      | 0x10 => decide (lo ≤ x) && decide (x ≤ hi)
      | _ => true
    else true
  | 18 => match off with
    | 0x00 => bits v 16 8 ≠ 0
    | 0x24 => decide (bits v 0 20 ≤ 262143)
    | 0x0C => decide (2 ≤ bits v 24 8) && decide (2 ≤ bits v 16 8) && bits v 0 8 ≠ 0
    | _ => true
  | 19 => match off with
    | 0x00 => bits v 16 8 ≠ 0 && decide (1 ≤ bits v 8 5) && decide (bits v 8 5 ≤ 16)
    | 0x0C => bits v 24 8 ≠ 0 && bits v 16 6 ≠ 0
    | 0x10 => decide (2 ≤ bits v 24 8) && decide (bits v 24 8 ≤ 20) && decide (1 ≤ bits v 16 8) && decide (bits v 16 8 ≤ 127) && decide (bits v 8 8 ≤ 127)
    | 0x14 => bits v 16 16 ≠ 0 && bits v 8 8 ≠ 0
    | 0x18 => bits v 28 4 ≠ 0 && decide (bits v 28 4 ≤ bits v 24 4) && bits v 16 8 ≠ 0
    | _ => if 0x100 ≤ off ∧ off < 0x180 then bits v 0 8 ≠ 0 && !(bit v 31 && bits v 16 8 = bits v 8 8) else true
  | 20 =>
    if 0x10 ≤ off ∧ off < 0x28 then
      decide (bits v 16 12 ≤ if bit v 30 then 600 else 450) && !(bits v 28 2 = 3 && bit v 30)
    else if 0x100 ≤ off ∧ off < 0x900 then !s.on die (INGEST_STREAM_CFG_EN ((off - 0x100) / 0x20))
    else true
  | 21 =>
    if 0x200 ≤ off ∧ off < 0x300 then
      match off % 16 with
      | 0 => decide (bits v 8 8 < bits v 16 8 + 1) && decide (bits v 28 3 < 6)
      | 8 => !(bits v 0 24 = 0 && s.on die (SAFETY_WDG_CFG_EN ((off - 0x200) / 16)))
      | _ => true
    else match off with
      | 0x00 => bits v 0 16 ≠ 0
      | 0x28 => decide (bits v 16 8 ≤ 124)
      | 0x30 => bits v 24 8 ≠ 0 && bits v 0 16 ≠ 0
      | 0x34 => bits v 0 16 ≠ 0
      | _ => true
  | _ => true

/-- The values in range of a register of field I/O (R428, R429). -/
def Device.okLsio (s : Device) (off v : Nat) : Bool :=
  if off = 0 then decide (bits v 0 4 ≤ 8)
  else if 0x100 ≤ off ∧ off < 0x500 then bits v 28 2 ≠ 3 && decide (bits v 24 4 ≤ 11)
  else if 0x500 ≤ off ∧ off < 0x900 then
    bits v 28 2 ≠ 3 && (bits v 30 2 ≠ 1 || decide (bits v 22 6 ≤ 11)) &&
    (bits v 30 2 ≠ 2 || (decide (bits v 22 6 ≤ 7) && decide (bits v 17 5 ≤ 15) && bits v 0 2 = 0 && decide (bits v 0 11 < 64)))
  else if 0x900 ≤ off ∧ off < 0xF00 then bits v 30 2 ≠ 3
  else if 0x1000 ≤ off ∧ off < 0x10C0 then
    match off % 16 with
    | 0 => !bit v 26 || s.eft.fuses.life = lcMANUFACTURE || s.eft.fuses.life = lcSERVICE
    | 4 => canTimingOk v 80
    | 8 => canTimingOk v (if s.on 0 (LSIO_CAN_CFG_FD_EN ((off - 0x1000) / 16)) then 10 else 8)
    | _ => true
  else if 0x3800 ≤ off ∧ off < 0x3880 ∧ off % 16 = 0 then bits v 8 8 ≠ 0 && decide (3 ≤ bits v 23 5)
  else if 0x3900 ≤ off ∧ off < 0x3B00 then !(bits v 29 2 = 1 && decide (4 ≤ (off - 0x3900) / 64))
  else if 0x3E00 ≤ off ∧ off < 0x3E80 ∧ off % 16 = 0 then bits v 0 2 ≠ 3
  else if 0x3F00 ≤ off ∧ off < 0x3F40 ∧ off % 16 = 0 then bits v 27 2 ≠ 3 && decide (100 ≤ bits v 0 24)
  else if 0x3F80 ≤ off ∧ off < 0x3F90 then (List.range 16).all fun k => bits v (2 * k) 2 ≠ 3
  else true

/-- The value is in range for the register (R7): checks are made on the written fields alone, and not on fields that are locked. -/
def Device.regOk (s : Device) (die blk off v : Nat) : Bool :=
  match blk with
  | 0 => if off = 0x100 then decide (1 ≤ bits v 0 5) && decide (bits v 0 5 ≤ 16) else true
  | 1 => if off = 0 then bits v 2 2 ≠ 3 else if off = 0x10 then decide (bits v 0 10 ≤ 1000) else true
  | 2 => if off = 8 then decide (1 ≤ bits v 0 11) && decide (bits v 0 11 ≤ 1024) else true
  | 3 =>
    let save := fun (lo hi : Nat) => s.inLp (lo * 2 ^ 16 + hi * 2 ^ 32) (65 * 2 ^ 20)
    if off = 0x10 then save (bits v 16 16) (s.rd die XLATE_SAVE_HI_ADDR)
    else if off = 0x14 then save (s.rd die XLATE_SAVE_LO_ADDR) (bits v 0 16)
    else if 0x40 ≤ off ∧ off < 0xC0 ∧ off % 0x20 = 8 then decide (4 ≤ bits v 0 5) && decide (bits v 0 5 ≤ 16)
    else true
  | 5 =>
    if off = 0 then bits v 8 8 ≠ 0 && bits v 0 8 ≠ 0
    else if off = 8 ∨ off = 0xC then !(s.disp.rings.any fun e => e.1 / 65536 = die && e.2.state ≠ 0)
    else if 0x1100 ≤ off ∧ off < 0x1200 then
      decide (bits v 16 7 + bits v 24 7 ≤ 64) && decide (bits v 0 8 + bits v 8 8 ≤ 128)
    else if off = 0x8008 then decide (1 ≤ bits v 0 5) && decide (bits v 0 5 ≤ 16)
    else true
  | 7 => if off = 0x40 then regulatedPort die (bits v 8 8) else true
  | 22 => if off = 8 then decide (bits v 0 13 ≤ 4096) else true
  | 25 =>
    if 0x900 ≤ off ∧ off < 0x940 then
      let n := (off - 0x900) / 8
      let hi := s.rd die (OLINER_WIN_HI_LOG2_SIZE n) * 2 ^ 16 + s.rd die (OLINER_WIN_HI_BASE n)
      if off % 8 = 0 then windowOk v hi 38 || s.rd die (OLINER_WIN_HI_LOG2_SIZE n) = 0
      else windowOk (s.rd die (OLINER_WIN_LO_BASE n) * 2 ^ 16) v 38
    else true
  | 26 =>
    if 0x100 ≤ off ∧ off < 0x140 then
      let n := (off - 0x100) / 8
      let hi := s.rd die (PCIE_WIN_HI_LOG2_SIZE n) * 2 ^ 16 + s.rd die (PCIE_WIN_HI_BASE n)
      if off % 8 = 0 then windowOk v hi 33 || s.rd die (PCIE_WIN_HI_LOG2_SIZE n) = 0
      else windowOk (s.rd die (PCIE_WIN_LO_BASE n) * 2 ^ 16) v 33
    else true
  | 27 => if off = 0 then bits v 0 2 ≠ 3 else true
  | 28 =>
    match off % 0x800 with
    | 0x10 => decide (1000 ≤ v) && decide (v ≤ 1000000000)
    | 0x14 => v % 64 = 0
    | 0x1C => decide (4 ≤ bits v 0 4) && decide (bits v 0 4 ≤ 12)
    | _ => true
  | 29 => s.okLsio off v
  | 30 => if off = 4 then bits v 0 8 ≠ 0 else true
  | _ =>
    if 8 ≤ blk ∧ blk < 16 then
      if off = 0x400 then decide (bits v 0 13 * 4096 + bits v 16 7 * slotBytes ≤ columnBytes) else true
    else s.okReflex die blk off v

/-! ### Writes that are commands -/

/-- The clock of a hart in steps of 0.6 GHz (R447): stopped at the 115 °C trip. -/
def Device.hartClock (s : Device) (die n : Nat) : Nat := if s.on 0 BASK_STATUS_TRIP then 0 else s.rd die (HOST_HART_CTL_FREQ n)

/-- The body of HOST_HART_CTL_WRITE (R447, R457). -/
def hartCtlBody (die n value : Nat) (s : Device) : Device :=
  let f := bits value 0 3
  if 5 ≤ f ∨ (f = 0 ∧ die = 0 ∧ n = 0) then s.set die HOST_STATUS_RANGE_ERR else s.wr die (HOST_HART_CTL_FREQ n) f

/-- The compare value of a timer (R449): mtimecmp for level 0, and the hart's stimecmp for level 1. -/
def Device.timeCompare (s : Device) (die n lvl : Nat) : Nat :=
  if lvl = 0 then s.rd die (HOST_MTIMECMP_LO_VALUE n) + 2 ^ 32 * s.rd die (HOST_MTIMECMP_HI_VALUE n)
  else SMap.get (2 ^ 64 - 1) s.host.stimecmp (die * 4 + n)

/-- A timer interrupt is pending exactly while time has reached its compare value. -/
def Device.timerLevel (s : Device) (die n lvl : Nat) : Device :=
  { s with host := { s.host with timer := SMap.put 0 s.host.timer ((die * 4 + n) * 2 + lvl) (b2n (s.timeCompare die n lvl ≤ s.chorus.time)) } }

/-- The body of MTIMECMP_REACHED (R449). -/
def mtimecmpBody (die n lvl : Nat) (s : Device) : Device := s.timerLevel die n (lvl % 2)

/-- The body of SETEIPNUM_WRITE (R448). -/
def setEipBody (die n lvl value : Nat) (s : Device) : Device := s.setEip die n (lvl % 2) value

/-- A write of a ring command (R224), and of a job command: without START it stores OP and the other fields. -/
def ringCmdWrite (die v : Nat) (s : Device) : Device :=
  if ¬ bit v 30 then s.wr die DISPATCH_RING_CMD_OP (bits v 28 2)
  else match bits v 28 2 with
    | 0 => ringEnableBody die s
    | 1 => ringDisableBody die s
    | 2 => ringRestartBody die s
    | _ => s.set die DISPATCH_STATUS_RANGE_ERR
def jobCtlWrite (die v : Nat) (s : Device) : Device :=
  let j := bits v 0 12
  let c := bits v 20 8
  if die ≠ 0 then s
  else if ¬ bit v 30 then ((s.wr 0 DISPATCH_JOB_CTL_OP (bits v 28 2)).wr 0 DISPATCH_JOB_CTL_CLIENT c).wr 0 DISPATCH_JOB_CTL_JOB j
  else match bits v 28 2 with
    | 0 => jobAdmitBody 0 j c s
    | 1 => jobCompleteBody 0 j c s
    | 2 => jobEndBody 0 j c s
    | _ => jobReleaseBody 0 j c s

/-- A write of DIE_CTL_UNIT_RESET (R441). -/
def unitCtlWrite (die v : Nat) (s : Device) : Device :=
  let u := bits v 0 8
  if ¬ bit v 30 then
    (s.wr die DIE_CTL_UNIT_RESET_OP (bits v 28 2)).wr die DIE_CTL_UNIT_RESET_UNIT u
  else match bits v 28 2 with
    | 0 => unitResetBody die u s
    | 1 => unitDisableBody die u s
    | 2 => unitEnableBody die u s
    | _ => s.set die DIE_CTL_ERR_CTL_RANGE_ERR

/-- A write of PCIE_MBOX_CMD (R427). -/
def mboxCmdWrite (die v : Nat) (s : Device) : Device :=
  if bit v 30 then mboxStart die (bits v 28 2) s
  else s.wr die PCIE_MBOX_CMD_OP (bits v 28 2)

/-- The body of CAL_SWAP_WRITE with the rest of FUSION_CTL: its other fields are RWL. -/
def fusionCtlWrite (die v : Nat) (s : Device) : Device :=
  let s1 := calSwapBody die v s
  if s.on die FUSION_CTL_LOCK then s1
  else if ¬ s.okReflex die 19 0 v then s1.refuseWrite die 19 0
  else
    let s2 := (s1.wr die FUSION_CTL_HOLD_FRAMES (bits v 16 8)).wr die FUSION_CTL_F3_SECTORS (bits v 8 5)
    if bit v 31 then s2.set die FUSION_CTL_LOCK else s2

/-- A write of POND_CTL: RETAIN_REQ, and the RWL fields. -/
def pondCtlWrite (die v : Nat) (s : Device) : Device :=
  let s1 := retainReqBody die v s
  if s.on die POND_CTL_LOCK then s1
  else
    let s2 := (s1.wr die POND_CTL_FIX_EN (bits v 1 1)).wr die POND_CTL_SCRUB_EN (bits v 0 1)
    if bit v 31 then s2.set die POND_CTL_LOCK else s2

/-- A write of LP5X_ERR_STATUS: the W1C bits, as for the Pond (R71). -/
def lpErrClear (die v : Nat) (s : Device) : Device :=
  if bit v 31 then (s.clr die LP5X_ERR_STATUS_VALID).clr die LP5X_ERR_STATUS_OVERFLOW
  else if bit v 30 then s.clr die LP5X_ERR_STATUS_OVERFLOW else s

/-- A write of a word of the selected CAN transmit buffer, and of the selected SPI transmit buffer (R429): refused where an output word is
placed there. -/
def canTxWrite (n v : Nat) (s : Device) : Device :=
  let b := s.canSel
  if s.canMapped b then s.lsioRange
  else if n = 0 then s.setLsio { s.lsio with canLen := SMap.put 0 s.lsio.canLen b (bits v 0 7) }
  else s.setLsio { s.lsio with canTx := (List.range 4).foldl (fun m i => SMap.put 0 m (b * 2048 + 4 * (n - 1) + i) (bits v (8 * i) 8)) s.lsio.canTx }
def spiBufWrite (n v : Nat) (s : Device) : Device :=
  if s.on 0 LSIO_SPI_BUF_SEL_RX then s
  else if (List.range 256).any fun d => s.mapsSpi s.spiSel d && s.rd 0 (LSIO_OUT_MAP_OFFSET d) / 4 = n then s.lsioRange
  else s.setLsio { s.lsio with spiTx := (List.range 4).foldl (fun m i => SMap.put 0 m (s.spiSel * 64 + 4 * n + i) (bits v (8 * i) 8)) s.lsio.spiTx }

/-- GPIO pins 32`h` to 32`h` + 31 whose mode is output are driven from their bits (R429): the mask of these pins, and their levels. -/
def Device.drivePins (s : Device) (h : Nat) : Device :=
  let m := (List.range 32).foldl (fun v k => v + b2n (s.gpioMode (32 * h + k) = 1) * 2 ^ k) 0
  s.emit (.field "GPIO" h [m, Nat.land m (if h = 0 then s.rd 0 LSIO_GPIO_OUT_LO_PINS else s.rd 0 LSIO_GPIO_OUT_HI_PINS)])

/-- A write of GPIO output levels drives the pins whose mode is output. -/
def gpioOutWrite (h v : Nat) (s : Device) : Device := (s.wr 0 (if h = 0 then LSIO_GPIO_OUT_LO_PINS else LSIO_GPIO_OUT_HI_PINS) v).drivePins h

/-- The writes of field I/O that are commands. -/
def Device.lsioRoute (s : Device) (off v : Nat) : Option Device :=
  if 0x11A0 ≤ off ∧ off < 0x11E4 then some (canTxWrite ((off - 0x11A0) / 4) v s)
  else if 0x1200 ≤ off ∧ off < 0x1230 then some (canTxStartBody ((off - 0x1200) / 4) v s)
  else if 0x3D40 ≤ off ∧ off < 0x3D80 then some (spiBufWrite ((off - 0x3D40) / 4) v s)
  else if off = 0x3D80 then some (spiGoBody v s)
  else if 0x3E00 ≤ off ∧ off < 0x3E80 ∧ off % 16 = 4 then some (i2cStartBody ((off - 0x3E04) / 16) v s)
  else if 0x3E00 ≤ off ∧ off < 0x3E80 ∧ off % 16 = 8 then some (i2cPush ((off - 0x3E08) / 16) v s)
  else if 0x3F00 ≤ off ∧ off < 0x3F40 ∧ off % 16 = 4 then some (uartDataWriteBody ((off - 0x3F04) / 16) v s)
  else if off = 0x3F90 then some (gpioOutWrite 0 v s)
  else if off = 0x3F94 then some (gpioOutWrite 1 v s)
  else none

/-- A write of REGULATE_CTL (R231, R235): MODE waits for the next sample edge, LOCK is set at once; and the fields of a class's limits, which wait too. -/
def regulCtlWrite (die v : Nat) (s : Device) : Device :=
  if s.on die REGULATE_CTL_LOCK then s
  else
    let s1 := s.writeAtEdge die [REGULATE_CTL_MODE] v
    if bit v 31 then s1.set die REGULATE_CTL_LOCK else s1
def classLimits (c : Nat) : List Fld :=
  [REGULATE_CLASS_LIMIT_IO_LIM_M1 c, REGULATE_CLASS_LIMIT_HOST_LIM_M1 c, REGULATE_CLASS_LIMIT_DMA_LIM_M1 c, REGULATE_CLASS_LIMIT_CORE_LIM_M1 c]

/-- The writes that are commands, or that have a rule of their own. -/
def Device.regRoute (s : Device) (die blk off v : Nat) : Option Device :=
  match blk with
  | 0 => match off with
    | 0x018 => some (unmappedClearBody die v none s)
    | 0x104 => some (unitCtlWrite die v s)
    | 0x120 => some (errClearBody die v none s)
    | _ => none
  | 1 => match off with
    | 0x04 => some (tickPeriodWrite die v false s)
    | 0x08 => some (frameLenWrite die v false s)
    | 0x0C => some (winLenWrite die v false s)
    | 0x14 => some (chorusLockWrite die v s)
    | 0x48 => some (overrunLogClear die v none s)
    | _ => none
  | 2 => match off with
    | 0x00 => some (pondCtlWrite die v s)
    | 0x28 => some (pondErrClearBody die v none s)
    | _ => none
  | 3 => if off = 0x28 then some (invalStartBody die v s)
    else if off = 0x30 then some (if bit v 31 then resumeAbortBody die (bits v 0 16) s else resumeRetryBody die (bits v 0 16) s)
    else if 0x40 ≤ off ∧ off < 0xC0 ∧ off % 0x20 = 0x0C then some (fqHeadBody die ((off - 0x40) / 0x20) v s)
    else none
  | 5 => match off with
    | 0x10 => some (doorbellBody die v s)
    | 0x18 => some (ringCmdWrite die v s)
    | 0x24 => some (cqHeadBody die v s)
    | 0x30 => some (jobCtlWrite die v s)
    | _ => none
  | 6 => if off = 0x10 then some (syncAddLoBody die v s) else none
  | 7 =>
    if off = 0 then some (regulCtlWrite die v s)
    else if 0x100 ≤ off ∧ off < 0x140 then some (s.writeAtEdge die (classLimits ((off - 0x100) / 4)) v)
    else none
  | 17 => match off with
    | 0x20 => some (testStartBody die v s)
    | 0x34 => some (captureStartBody die v s)
    | _ => none
  | 19 => if off = 0 then some (fusionCtlWrite die v s) else none
  | 20 =>
    if 0x100 ≤ off ∧ off < 0x900 ∧ off % 0x20 = 0 then some (streamCfgBody die ((off - 0x100) / 0x20) false v s)
    else if 0x100 ≤ off ∧ off < 0x900 ∧ off % 0x20 = 4 then some (streamCfgBody die ((off - 0x100) / 0x20) true v s)
    else none
  | 21 => if off = 0x14 then some (safetyResumeBody die v s) else none
  | 22 => if off = 0x30 then some (manStartBody die v s) else none
  | 23 => match off with
    | 0x00 => some (baskCtlWrite die v s)
    | 0x08 => some (capWriteBody die v false s)
    | 0x24 => some (baskTempSelWrite die v s)
    | _ => none
  | 24 => match off with
    | 0x14 => some (eftResetBody die v s)
    | 0x18 => some (reqCtlWrite die v s)
    | 0x808 => some (flashCmdWrite die v s)
    | _ => none
  | 26 => match off with
    | 0x200 => some (msixTriggerBody die v s)
    | 0x30C => some (mboxCmdWrite die v s)
    | _ => none
  | 27 => if off = 0x1C then some (lpErrClear die v s) else none
  | 28 => if off % 0x800 = 0x20 then some (hqTxWriteBody die (off / 0x800) v s) else none
  | 29 => s.lsioRoute off v
  | 30 =>
    if 0x10 ≤ off ∧ off < 0x20 then some (hartCtlBody die ((off - 0x10) / 4) v s)
    else if 0x8000 ≤ off ∧ off % 0x1000 = 0 then
      some (s.setEip die (off / 0x1000 % 4) (if off < 0xC000 then 0 else 1) v)
    else none
  | 31 => if off = 4 then some (if bit v 30 then debugUnlockBody die s else s) else none
  | _ =>
    if 8 ≤ blk ∧ blk < 16 ∧ off = 0x428 then some (padEditBody die (blk - 8) v s) else none

/-! ### Writes -/

/-- One field of a register takes its part of a written word (R8). A field that the device keeps once is written on die 0; the W1C flags of
CHORUS_STATUS and XLATE_STATUS are cleared from any die (R58, R109). -/
def Device.fieldWrite (s : Device) (die v : Nat) (locked : Bool) (f : Fld) (a : Acc) : Device :=
  if f.dev ∧ die ≠ 0 ∧ ¬ (a = .w1c ∧ (f.blk = 1 ∨ f.blk = 3)) then s
  else match a with
    | .rw => s.wr die f (bits v f.lo f.w)
    | .rwl => if locked then s else s.wr die f (bits v f.lo f.w)
    | .w1c => if bit v f.lo then s.clr die f else s
    | .w1s => if bit v f.lo then s.set die f else s
    | .ro | .wo | .rc => s

/-- The bits of a register that its rules call reserved inside a field. -/
def regMask (blk off v : Nat) : Nat :=
  if (blk = 3 ∧ 0x40 ≤ off ∧ off < 0xC0 ∧ (off % 0x20 = 4 ∨ off % 0x20 = 0x18)) ∨ (blk = 28 ∧ (off % 0x800 = 0x18 ∨ off % 0x800 = 0x28)) ∨
    (8 ≤ blk ∧ blk < 16 ∧ off = 0x414) then v % 65536
  else v % 2 ^ 32

/-- The error records whose VALID bit, written 1, clears OVERFLOW too (R110, R134, R201, R224, R281, R305, R323, R443). -/
def errRecord (blk off : Nat) : Bool :=
  [(0, 0x120), (4, 0xC), (5, 0x44), (5, 0x8010), (16, 0x24), (17, 0x14), (18, 0x88)].contains (blk, off) ||
  (8 ≤ blk && blk < 16 && 0x10C ≤ off && off < 0x18C && off % 0x10 = 0xC)

/-- A written word whose bit 31 clears bit 30 too where it is that of an error record. -/
def clearBoth (blk off v : Nat) : Nat := if errRecord blk off ∧ bit v 31 then setBits v 30 1 1 else v

/-- Whether a requester's write may act on a register (R336): on a SAFETY block, a write from outside clears flags or asks for a resume only,
and Eft writes until the lock is set. -/
def safetyAllows (eft : Bool) (blk off : Nat) (a : Acc) : Bool := blk ≠ 21 || eft || off = 0x14 || a = .w1c

/-- All fields that a write could change are locked, so that nothing is checked. -/
def Device.allLocked (s : Device) (die blk off : Nat) : Bool :=
  s.regLocked die blk off &&
    match regFind blk off with
    | some (r, _) => r.fields.all fun f => decide (f.2 = .rwl ∨ f.2 = .ro ∨ f.2 = .w1s ∨ f.2 = .rc)
    | none => true

/-- A written word with the fields that the write does not reach, since they are locked, as they stand: a check is made on the written fields
alone (R7, R8). -/
def Device.lockedIn (s : Device) (die blk off v : Nat) (r : RegRow) : Nat :=
  if s.regLocked die blk off then
    r.fields.foldl (fun v f => if f.2 = .rwl then setBits v f.1.lo f.1.w (s.rd die (f.1.placed blk off)) else v) v
  else v

/-- A camera port in C-PHY mode drives its ball D3_N low, and releases it outside that mode (R462). -/
def Device.cphyPin (s old : Device) (die p : Nat) : Device :=
  if s.on die (INGEST_PORT_CFG_CPHY p) = old.on die (INGEST_PORT_CFG_CPHY p) then s
  else s.emit (.field "CSI_D3_N" (die * 6 + p) (if s.on die (INGEST_PORT_CFG_CPHY p) then [0] else []))

/-- Write a register (R7, R8, R33): ignored in an absent block and in a register of die 0 alone; acted on where it is a command; refused out
of range; else its writable fields change. DESIGN CHOICE (183): an offset of a present block that no register has ignores the write, as it reads
0, and such an access ends DONE: the spec speaks of reserved bits and of absent blocks alone. -/
def Device.regWrite (s : Device) (eft : Bool) (die blk off value : Nat) : Device :=
  let v := clearBoth blk off (regMask blk off value)
  if regAbsent die blk then s
  else match s.regRoute die blk off v with
    | some s1 => s1
    | none =>
      match regFind blk off with
      | none => s
      | some (r, _) =>
        if (r.fields.all fun f => f.1.dev) ∧ die ≠ 0 ∧ ¬ (r.fields.any fun f => f.2 = .w1c) then s
        else if blk = 21 ∧ ¬ eft ∧ ¬ (r.fields.any fun f => f.2 = .w1c) then s
        else if s.allLocked die blk off then s
        else if ¬ s.regOk die blk off (s.lockedIn die blk off v r) then s.refuseWrite die blk off
        else
          let locked := s.regLocked die blk off
          let s1 := r.fields.foldl (fun (s : Device) f => if safetyAllows eft blk off f.2 then s.fieldWrite die v locked (f.1.placed blk off) f.2 else s) s
          if blk = 1 ∧ off = 0 ∧ s1.rd 0 CHORUS_CTL_ROLE ≠ s.rd 0 CHORUS_CTL_ROLE then s1.roleChanged
          else if blk = 20 ∧ 0x10 ≤ off ∧ off < 0x28 then s1.cphyPin s die ((off - 0x10) / 4)
          else if blk = 29 ∧ 0x3F80 ≤ off ∧ off < 0x3F90 then s1.drivePins ((off - 0x3F80) / 8)
          else if blk = 30 ∧ 0x40 ≤ off ∧ off < 0x60 then s1.timerLevel die ((off - 0x40) / 8) 0 else s1

/-! ### Requests to registers -/

/-- The 32-bit registers that a request touches, at offset `off` for `n` bytes. -/
def regWords (off n : Nat) : List Nat := (List.range ((off % 4 + n + 3) / 4)).map fun i => off / 4 * 4 + 4 * i

/-- A read of `n` bytes: each register it touches is read once, in order. -/
def Device.regReadReq (s : Device) (die blk off n : Nat) : Device × Nat :=
  let x := (regWords off n).foldl (fun (x : Device × Nat × Nat) o =>
    let y := x.1.regRead die blk o
    (y.1, x.2.1 + y.2 * 2 ^ x.2.2, x.2.2 + 32)) (s, 0, 0)
  (x.1, x.2.1 / 2 ^ (8 * (off % 4)) % 2 ^ (8 * n))

/-- A write of `n` bytes: each register that it covers whole is written, in order. -/
def Device.regWriteReq (s : Device) (eft : Bool) (die blk off n data : Nat) : Device :=
  ((regWords off n).filter fun o => off ≤ o && o + 4 ≤ off + n).foldl (fun (s : Device) o =>
    s.regWrite eft die blk o (bits data (8 * (o - off)) 32)) s

/-- Perform and answer a request that has reached a register: such an access ends with DONE (R33), or with TIMEOUT where a bridge that is down
loses its answer (R434). -/
def Device.regRequest (s : Device) (r : Req) : Device :=
  match s.region r.addr with
  | .reg die blk off =>
    let x := if r.write then ((s.xfer r.die die).regWriteReq (r.master = mManage) die blk off r.len r.data, 0)
      else (s.xfer r.die die).regReadReq die blk off r.len
    let y := x.1.answered r.die r.master die r.addr stDONE r.write
    let v := if y.2 = stDONE then x.2 else 0
    let s1 := (y.1.answer y.2 v).answerOutside r y.2 v
    if y.2 = stDONE then s1 else match r.work with | some w => s1.failWork w y.2 | none => s1
  | _ => s

/-- The body of REGISTER_WRITE: a write of one register by a requester of a die (R30, R31, R33). -/
def registerWriteBody (sender : Sender) (die blk off value : Nat) (s : Device) : Device :=
  let r : Req := ⟨sender.die, sender.master, 0, regBase + die * regDieBytes + blk * 0x10000 + off, 4, true, value, false, 0, [], none, []⟩
  if s.accessStatus sender.die sender.master r.addr 4 true = stDONE then s.regRequest r else s.finishNow r

/-- The requests that DMA engines' ports have let go are sent (R232). -/
def Device.sendLetGo (s : Device) : Device :=
  s.regul.sent.foldl (fun (s : Device) r => s.dmaIssue r.die (r.master - mDma)) { s with regul := { s.regul with sent := [] } }

/-- Perform the requests that have reached registers. -/
def Device.performRegs (s : Device) : Device := s.regReqs.foldl Device.regRequest { s with regReqs := [] }

/-- Send the requests that were let go and perform those that have reached registers; at most `n` rounds, after which none is left. -/
def Device.settle (s : Device) : Nat → Device
  | 0 => { s with regReqs := [], regul := { s.regul with sent := [] } }
  | n + 1 => if s.regReqs.isEmpty && s.regul.sent.isEmpty then s else (s.sendLetGo.performRegs).settle n

/-- The memory in its canonical form. -/
def Device.canon (s : Device) : Device := { s with mem := SMap.norm (0 : Byte) s.mem }

/-- What ends every command: the requests it let go are sent, the register requests it brought are performed, and memory is left in its
canonical form. A round can let go no more requests than are held. -/
def Device.done (s : Device) : Device := (s.settle (4 + s.regul.held.length)).canon

/-- A meaning that changes the device alone: the queue of commands is left to `step`. -/
def State.upd (s : State) (f : Device → Device) : Host.Outcome State Fault Refusal := .next { s with dev := (f s.dev).done }

end Sys2Proof.Machine
end

