-- ==== Sys2Proof/Machine/Debug.lean ====
section
/-!
DEFINITION. The debug port (chapter 21, R451 to R456): the test access port's instructions, the RISC-V debug module, Baltal's transport, and
the halting of host cores, sequencers and reflex units. The debug module's registers have the layout of RISC-V External Debug Support 1.0,
which R444 and R454 name (PRESUMED: notes/assumptions).
-/
namespace Sys2Proof.Machine

def Device.setDebug (s : Device) (x : DebugSt) : Device := { s with probe := x }

/-! ### What is halted (R455, R456) -/

/-- Targets: a BDTM target, a core sequencer by global core or a reflex unit at 0x1000 + die × 256 + unit; or 0x10000 + hart. -/
def hostTarget (t : Nat) : Bool := 0x10000 ≤ t
def coreTarget (t : Nat) : Bool := t < 256
def reflexTarget (t : Nat) : Bool := 0x1000 ≤ t && t < 0x1400 &&
  (t % 256 < 4 || (0x10 ≤ t % 256 && t % 256 < 0x20))
def targetOk (t : Nat) : Bool := coreTarget t || reflexTarget t

/-- The target of a reflex unit, and of one of the units that a slice names (`slUnits`). -/
def unitTarget (die unit : Nat) : Nat := 0x1000 + die * 256 + unit

/-- A target is halted. -/
def Device.isHalted (s : Device) (t : Nat) : Bool := s.probe.halted.contains t

/-- DEBUG_STATUS.HALT_PENDING: a halt is pending or a unit is halted. -/
def Device.showHalts (s : Device) : Device :=
  let d := s.probe
  s.wr 0 DEBUG_STATUS_HALT_PENDING (b2n !(d.halted.isEmpty && d.waiting.isEmpty && d.draining.isEmpty && d.steps.isEmpty))

/-- The control engine halts at SAFE_OFF only; a reserved core and the other reflex units at STANDSTILL or SAFE_OFF; a host core or a free
tensor core at once, outside PROVISIONED and DEPLOYED (R456). -/
def Device.haltNeeds (s : Device) (t : Nat) : Nat :=
  if reflexTarget t ∧ t % 256 = 2 then 3
  else if (hostTarget t ∨ (coreTarget t ∧ ¬ s.reservedCore t)) ∧ s.eft.fuses.life ≠ lcPROVISIONED ∧ s.eft.fuses.life ≠ lcDEPLOYED then 0
  else 2

/-- The Tail is at the state a halt needs, on every island. -/
def Device.tailAt (s : Device) (n : Nat) : Bool := s.islands.all fun i => decide (n ≤ s.rd i SAFETY_STATUS_TAIL_STATE)

/-- A target stands at a stopping point (R455): no command runs on a core, no iteration on an engine, no edge in a group. -/
def Device.atStop (s : Device) (t : Nat) : Bool :=
  let die := t / 256 % 4
  if hostTarget t then true
  else if coreTarget t then (s.cmd t).isNone
  else if t % 256 < 2 then
    !(s.solve.solves.any fun e => decide (e.1 / 16 = die) &&
      match e.2 with | some z => z.running && (slUnits (s.sliceRec die z.slice)).contains (100 + t % 256) | none => false)
  else if 0x10 ≤ t % 256 then
    !((s.checksOn die).any fun x => x.busy.any fun b => decide (b.1 / 16 = t % 16))
  else if t % 256 = 3 then (SMap.get none s.collide.prep die).isNone
  else true

/-- A target halts now. -/
def Device.haltNow (s : Device) (t : Nat) : Device :=
  s.setDebug { s.probe with
    halted := s.probe.halted.filter (· ≠ t) ++ [t], draining := s.probe.draining.filter (· ≠ t), steps := s.probe.steps.filter (· ≠ t) }

/-- Requests whose condition is met wait for their stopping point only; those that stand at one halt (R456). -/
def Device.haltPoll (s : Device) : Device :=
  let ready := s.probe.waiting.filter fun t => s.tailAt (s.haltNeeds t)
  let s1 := s.setDebug { s.probe with
    waiting := s.probe.waiting.filter fun t => !ready.contains t, draining := s.probe.draining ++ ready }
  ((s1.probe.draining.filter s1.atStop).foldl Device.haltNow s1).showHalts

/-- A halt request (R456): DEBUG_HALT is raised unless the target halts at once. -/
def Device.haltReq (s : Device) (t : Nat) : Device :=
  let d := s.probe
  if d.halted.contains t ∨ d.waiting.contains t ∨ d.draining.contains t then s
  else
    let die := if hostTarget t then t % 16 / 4 else if coreTarget t then t / 64 else t / 256 % 4
    let s1 := if s.haltNeeds t = 0 then s else s.raiseCause cDEBUG_HALT die (t % 2 ^ 16)
    (s1.setDebug { s1.probe with waiting := d.waiting ++ [t], steps := d.steps.filter (· ≠ t) }).haltPoll

/-- The registers of a hart that runs are what its program makes them (R444 gives no more of it): none is known. -/
def Device.forgetHart (s : Device) (hart : Nat) : Device :=
  s.setDebug { s.probe with hregs := s.probe.hregs.filter fun e => decide (e.1 / 65536 ≠ hart) }

/-- A resume (R456): a pending request is withdrawn; a core or a hart goes on at once, a reflex unit at the next sample edge. -/
def Device.resumeReq (s : Device) (t : Nat) : Device :=
  let d := s.probe
  let s1 := s.setDebug { d with waiting := d.waiting.filter (· ≠ t), draining := d.draining.filter (· ≠ t), steps := d.steps.filter (· ≠ t) }
  if ¬ d.halted.contains t then s1.showHalts
  else if reflexTarget t then s1.setDebug { s1.probe with resuming := d.resuming.filter (· ≠ t) ++ [t] }
  else
    let s2 := (s1.setDebug { s1.probe with halted := d.halted.filter (· ≠ t) }).showHalts
    if hostTarget t then s2.forgetHart (t - 0x10000) else s2

/-- A step (R455): a halted target goes on to its next stopping point; a hart has executed one instruction and is halted again. -/
def Device.stepReq (s : Device) (t : Nat) : Device :=
  if ¬ s.isHalted t then s
  else if hostTarget t then s.forgetHart (t - 0x10000)
  else s.setDebug { s.probe with halted := s.probe.halted.filter (· ≠ t), steps := s.probe.steps ++ [t] }

/-- An enabled breakpoint names the command of an index. -/
def Device.bpHit (s : Device) (t next : Nat) : Bool :=
  (List.range 4).any fun k =>
    let b := SMap.get 0 s.probe.bp (t * 4 + k)
    bit b 31 && bits b 0 16 = next % 65536

/-- A target's PC. -/
def Device.pcOf (s : Device) (t : Nat) : Nat := SMap.get 0 s.probe.pc t
def Device.setPcOf (s : Device) (t next : Nat) : Device := s.setDebug { s.probe with pc := SMap.put 0 s.probe.pc t (next % 65536) }

/-- A target has come to a stopping point before the command of an index (R455): a step ends there, and a breakpoint asks for a halt. -/
def Device.stopPoint (s : Device) (t next : Nat) : Device :=
  let s0 := s.setPcOf t next
  let s1 := if s0.probe.steps.contains t then s0.haltNow t else s0
  (if s1.bpHit t next then s1.haltReq t else s1).haltPoll

/-- At a sample edge resumed reflex units rejoin their schedules (R456). -/
def Device.rejoinEdge (s : Device) : Device :=
  let d := s.probe
  s.setDebug { d with halted := d.halted.filter fun t => !d.resuming.contains t, resuming := [] }

/-- After the work of a sample edge the control engine's step is over (R455), and halts whose condition has come take effect (R456). -/
def Device.debugEdge (s1 : Device) : Device :=
  ((s1.probe.steps.filter fun t => reflexTarget t && t % 256 = 2).foldl Device.haltNow s1).haltPoll

/-- The target of a unit that a slice names (`slUnits`), for those that halt. -/
def unitHalts (die u : Nat) : Option Nat :=
  if u < 64 then some (die * 64 + u)
  else if 100 ≤ u ∧ u < 102 then some (unitTarget die (u - 100))
  else if 200 ≤ u ∧ u < 300 then some (unitTarget die 2)
  else if u = 316 then some (unitTarget die 3)
  else if 300 ≤ u ∧ u < 316 then some (unitTarget die (u - 300 + 0x10))
  else none

/-- The targets of a slice's units. -/
def Device.sliceTargets (s : Device) (die idx : Nat) : List Nat := (slUnits (s.sliceRec die idx)).filterMap (unitHalts die)

/-- A command of a slice's list, or an event of its engine, is for a unit that is halted; a slice that names the planning sequencer with
every checker group is judged by its command. -/
def Device.sliceHalted (s : Device) (die idx : Nat) : Bool := (s.sliceTargets die idx).any s.isHalted

/-- The planning sequencer of a die is halted. -/
def Device.plannerHalted (s : Device) (die : Nat) : Bool := s.isHalted (unitTarget die 3)

/-! ### The test access port (R451, R452) -/

/-- The life-cycle state allows an instruction; the transports are always there, closed or open. -/
def Device.irAllowed (s : Device) (code : Nat) : Bool :=
  let l := s.eft.fuses.life
  match code with
  | 0x02 => l ≠ lcRETIRED
  | 0x00 => l = lcBLANK || l = lcMANUFACTURE
  | 0x13 => l = lcPROVISIONED || l = lcDEPLOYED
  | _ => true

/-- Select an instruction, or BYPASS where the state does not allow it. -/
def Device.selectIr (s : Device) (code : Nat) : Device := s.setDebug { s.probe with ir := if s.irAllowed code then code else 0x1F }

/-- The body of IDCODE: stepping, part number, Baltal's identity, and 1. -/
def idcodeBody (s : Device) : Device :=
  (s.selectIr 0x01).answer stDONE (s.rd 0 DIE_CTL_ID_STEPPING % 16 * 2 ^ 28 + 0x0007 * 2 ^ 12 + Config.jep106 % 2 ^ 11 * 2 + 1)

/-- The body of BYPASS: a bypass register captures 0. -/
def bypassBody (s : Device) : Device := (s.selectIr 0x1F).answer stDONE 0

/-- The bodies of SAMPLE_PRELOAD and EXTEST: the pins are captured and shifted out, and the boundary register takes what is shifted in;
EXTEST drives the pins from it. -/
def samplePreloadBody (pins data : Nat) (s : Device) : Device :=
  if s.irAllowed 0x02 then
    let s1 := s.selectIr 0x02
    (s1.setDebug { s1.probe with bsr := data }).answer stDONE pins
  else bypassBody s
def extestBody (pins data : Nat) (s : Device) : Device :=
  if s.irAllowed 0x00 then
    let s1 := s.selectIr 0x00
    ((s1.setDebug { s1.probe with bsr := data }).emit (.pin "BOUNDARY" data)).answer stDONE pins
  else bypassBody s

/-- The body of DTMCS: version 1, 7 address bits, and the sticky status of DMI, which bit 16 written clears. It reads normally while the
port is closed. -/
def dtmcsBody (value : Nat) (s : Device) : Device :=
  let stat := SMap.get 0 s.probe.dm 0x1000
  let s1 := s.selectIr 0x10
  let s2 := if bit value 16 ∨ bit value 17 then s1.setDebug { s1.probe with dm := SMap.put 0 s1.probe.dm 0x1000 0 } else s1
  s2.answer stDONE (1 + 7 * 2 ^ 4 + stat * 2 ^ 10)

/-- A DMI or BDTM access that the device accepts sets USED (R452, R458). -/
def Device.used (s : Device) : Device := s.set 0 DEBUG_STATUS_USED

/-! ### The RISC-V debug module (R454) -/

/-- A register of the debug module, and writing it back. -/
def Device.dmReg (s : Device) (a : Nat) : Nat := SMap.get 0 s.probe.dm a
def Device.dmPut (s : Device) (a v : Nat) : Device := s.setDebug { s.probe with dm := SMap.put 0 s.probe.dm a (v % 2 ^ 32) }

/-- The hart that hartsel selects, of 16. -/
def Device.hartsel (s : Device) : Nat := bits (s.dmReg 0x10) 16 10
def Device.hartHalted (s : Device) (h : Nat) : Bool := s.isHalted (0x10000 + h)

/-- dmstatus: version 3, authenticated, with impebreak. -/
def Device.dmstatus (s : Device) : Nat :=
  let h := s.hartsel
  let there := decide (h < 16)
  let halted := there && s.hartHalted h
  let run := there && !s.hartHalted h
  3 + 2 ^ 5 + 2 ^ 7 + 3 * 2 ^ 8 * b2n halted + 3 * 2 ^ 10 * b2n run + 3 * 2 ^ 14 * b2n !there + 3 * 2 ^ 16 * b2n run + 2 ^ 22

/-- A write of dmcontrol. -/
def Device.dmcontrol (s : Device) (v : Nat) : Device :=
  if ¬ bit v 0 then s.setDebug { s.probe with dm := s.probe.dm.filter fun e => decide (0x1000 ≤ e.1) }
  else
    let h := bits v 16 10
    let s1 := s.dmPut 0x10 (h * 2 ^ 16 + 1)
    if 16 ≤ h then s1
    else
      let s2 := if bit v 3 then s1.dmPut (0x2000 + h) 1 else if bit v 2 then s1.dmPut (0x2000 + h) 0 else s1
      if bit v 31 then s2.haltReq (0x10000 + h) else if bit v 30 then s2.resumeReq (0x10000 + h) else s2

/-- A register of a halted hart: x0 is 0, mhartid and time are the device's, stimecmp its timer's, any other what the debugger wrote since
the hart halted, or a free value. -/
def Device.hartReg (s : Device) (h n : Nat) : Device × Nat :=
  if n = 0x1000 then (s, 0)
  else if n = 0xF14 then (s, h)
  else if n = 0xC01 then (s, s.chorus.time)
  else if n = 0x14D then (s, s.timeCompare (h / 4) (h % 4) 1)
  else match SMap.get none s.probe.hregs (h * 65536 + n) with
    | some v => (s, v)
    | none =>
      let v := Config.freeWord s.fresh + 2 ^ 32 * Config.freeWord (s.fresh + 1)
      ({ s with fresh := s.fresh + 2, probe := { s.probe with hregs := SMap.put none s.probe.hregs (h * 65536 + n) (some v) } }, v)
def Device.putHartReg (s : Device) (h n v : Nat) : Device :=
  if n = 0x1000 ∨ n = 0xF14 ∨ n = 0xC01 then s
  else if n = 0x14D then
    ({ s with host := { s.host with stimecmp := SMap.put (2 ^ 64 - 1) s.host.stimecmp h v } }).timerLevel (h / 4) (h % 4) 1
  else s.setDebug { s.probe with hregs := SMap.put none s.probe.hregs (h * 65536 + n) (some v) }

/-- cmderr of abstractcs. -/
def Device.cmderr (s : Device) (e : Nat) : Device := if s.dmReg 0x16 = 0 then s.dmPut 0x16 e else s

/-- An abstract command: Access Register of general registers and CSRs, of 32 or 64 bits; with postexec the hart runs the program buffer,
and its registers become what that program makes them. -/
def Device.abstract (s : Device) (v : Nat) : Device :=
  let h := s.hartsel
  let n := bits v 0 16
  let size := bits v 20 3
  if s.dmReg 0x16 ≠ 0 then s
  else if bits v 24 8 ≠ 0 ∨ (bit v 17 ∧ ((size ≠ 2 ∧ size ≠ 3) ∨ ¬ (n < 0x1020))) then s.cmderr 2
  else if 16 ≤ h ∨ ¬ s.hartHalted h then s.cmderr 4
  else
    let s1 :=
      if ¬ bit v 17 then s
      else if bit v 16 then
        let low := s.dmReg 4
        let old := s.hartReg h n
        if size = 2 then old.1.putHartReg h n (setBits old.2 0 32 low) else s.putHartReg h n (low + 2 ^ 32 * s.dmReg 5)
      else
        let x := s.hartReg h n
        if size = 2 then x.1.dmPut 4 x.2 else (x.1.dmPut 4 x.2).dmPut 5 (x.2 / 2 ^ 32)
    if bit v 18 then s1.forgetHart h else s1

/-- sberror of sbcs. -/
def Device.sberror (s : Device) (e : Nat) : Device := s.dmPut 0x38 (setBits (s.dmReg 0x38) 12 3 e)

/-- A system bus access of `n` bytes as master 0x7F of die 0: to a register, or to memory; after a failed start only to die 0's EFT block
(R452, R454). -/
def Device.sbAccess (s : Device) (a n : Nat) (write : Bool) (data : Nat) : Device × Nat × Nat :=
  match s.region a with
  | .reg die blk off =>
    if s.on 0 EFT_BOOT_STATUS_FAILED ∧ ¬ (die = 0 ∧ blk = 24) then (s, stUNMAPPED, 0)
    else if ¬ s.routeUp 0 die then (s.accessError 0 mDebug a stTIMEOUT write, stTIMEOUT, 0)
    else if write then (s.regWriteReq false die blk off n data, stDONE, 0)
    else
      let x := s.regReadReq die blk off n
      (x.1, stDONE, x.2)
  | _ =>
    if s.on 0 EFT_BOOT_STATUS_FAILED then (s, stUNMAPPED, 0)
    else
      let s1 := (s.addWrap 0 REGULATE_AUDIT_ISSUED 1).addWrap 0 REGULATE_AUDIT_RETIRED 1
      if write then
        let x := s1.writeChk 0 mDebug a n data
        (x.1, x.2, 0)
      else s1.readChk 0 mDebug a n

/-- A system bus access that the registers describe, with its error and the autoincrement. -/
def Device.sbGo (s : Device) (write : Bool) : Device :=
  let cs := s.dmReg 0x38
  let n := 2 ^ bits cs 17 3
  let a := s.dmReg 0x39 + 2 ^ 32 * (s.dmReg 0x3A % 2 ^ 16)
  if bits cs 12 3 ≠ 0 then s
  else if n ≠ 4 ∧ n ≠ 8 then s.sberror 4
  else if a % n ≠ 0 then s.sberror 3
  else
    let x := s.sbAccess a n write (s.dmReg 0x3C + 2 ^ 32 * s.dmReg 0x3D)
    if x.2.1 ≠ stDONE then x.1.sberror (if x.2.1 = stTIMEOUT then 1 else 2)
    else
      let s1 := if write then x.1 else (x.1.dmPut 0x3C x.2.2).dmPut 0x3D (x.2.2 / 2 ^ 32)
      if bit cs 16 then (s1.dmPut 0x39 (a + n)).dmPut 0x3A ((a + n) / 2 ^ 32) else s1

/-- What a register of the debug module reads. -/
def Device.dmView (s : Device) (a : Nat) : Nat :=
  match a with
  | 0x11 => s.dmstatus
  | 0x12 => 0
  | 0x16 => 8 * 2 ^ 24 + s.dmReg 0x16 * 2 ^ 8 + 2
  | 0x38 => 2 ^ 29 + s.dmReg 0x38 + 48 * 2 ^ 5 + 12
  | 0x40 => (List.range 16).foldl (fun v h => v + b2n (s.hartHalted h) * 2 ^ h) 0
  | _ => s.dmReg a

/-- A write of a register of the debug module. -/
def Device.dmWrite (s : Device) (a v : Nat) : Device :=
  match a with
  | 0x10 => s.dmcontrol v
  | 0x04 | 0x05 => s.dmPut a v
  | 0x16 => if bits v 8 3 ≠ 0 then s.dmPut 0x16 0 else s
  | 0x17 => s.abstract v
  | 0x38 =>
    let err := if bits v 12 3 ≠ 0 then 0 else bits (s.dmReg 0x38) 12 3
    s.dmPut 0x38 (bits v 20 1 * 2 ^ 20 + bits v 15 5 * 2 ^ 15 + err * 2 ^ 12)
  | 0x39 =>
    let s1 := s.dmPut 0x39 v
    if bit (s1.dmReg 0x38) 20 then s1.sbGo false else s1
  | 0x3A => s.dmPut 0x3A (v % 2 ^ 16)
  | 0x3C => (s.dmPut 0x3C v).sbGo true
  | 0x3D => s.dmPut 0x3D v
  | _ => if 0x20 ≤ a ∧ a < 0x28 then s.dmPut a v else s

/-- The body of DMI: op 1 reads and op 2 writes a register of the debug module; op 2 (failed) while the port is closed. -/
def dmiBody (op a data : Nat) (s : Device) : Device :=
  let s1 := s.selectIr 0x11
  if ¬ s.debugOpen then (s1.setDebug { s1.probe with dm := SMap.put 0 s1.probe.dm 0x1000 2 }).answer 2 0
  else
    let s2 := s1.used
    if op = 1 then
      let v := s2.dmView a
      let s3 := if a = 0x3C ∧ bit (s2.dmReg 0x38) 15 then s2.sbGo false else s2
      s3.answer 0 v
    else if op = 2 then (s2.dmWrite a data).answer 0 0
    else s2.answer 0 0

/-- The body of UNLOCK: an access to a register of the DEBUG block, where the state allows the instruction. -/
def unlockBody (access : Option (Nat × Bool × Nat)) (s : Device) : Device :=
  if ¬ s.irAllowed 0x13 then bypassBody s
  else
    let s1 := s.selectIr 0x13
    match access with
    | none => s1.answer stDONE 0
    | some (off, true, v) => (s1.regWrite false 0 31 off v).answer stDONE 0
    | some (off, false, _) =>
      let x := s1.regRead 0 31 off
      x.1.answer stDONE x.2

/-! ### Baltal's transport (R455) -/

/-- STATUS of a BDTM scan. -/
def bdOK : Nat := 0
def bdCLOSED : Nat := 2
def bdBAD : Nat := 3

/-- A scan: CLOSED while the port is closed; else it answers the previous scan's status and data, and leaves its own. -/
def Device.bdtm (s : Device) (f : Device → Device × Nat × Nat) : Device :=
  let s1 := s.selectIr 0x12
  if ¬ s.debugOpen then (s1.setDebug { s1.probe with last := (bdCLOSED, 0) }).answer bdCLOSED 0
  else
    let x := f s1.used
    (x.1.setDebug { x.1.probe with last := x.2 }).answer s.probe.last.1 s.probe.last.2

/-- The body of BDTM_NOP; an operation coded 3 is BAD. -/
def bdtmNopBody (op : Nat) (s : Device) : Device := s.bdtm fun s => (s, if op = 3 then bdBAD else bdOK, 0)

/-- The body of BDTM_READ. -/
def bdtmReadBody (t reg : Nat) (s : Device) : Device :=
  s.bdtm fun s =>
    let d := s.probe
    if ¬ targetOk t then (s, bdBAD, 0)
    else match reg with
      | 0 => (s, bdOK, b2n (d.halted.contains t) * 8 + b2n (d.waiting.contains t ∨ d.draining.contains t) * 16)
      | 1 => (s, bdOK, SMap.get 0 d.pc t)
      | _ => if 0x10 ≤ reg ∧ reg < 0x14 then (s, bdOK, SMap.get 0 d.bp (t * 4 + (reg - 0x10))) else (s, bdBAD, 0)

/-- A write of CTL: RESUME goes before HALT_REQ (R456). -/
def Device.ctlWrite (s : Device) (t v : Nat) : Device :=
  if bit v 1 then s.resumeReq t else if bit v 0 then s.haltReq t else if bit v 2 then s.stepReq t else s

/-- The body of BDTM_WRITE. -/
def bdtmWriteBody (t reg data : Nat) (s : Device) : Device :=
  s.bdtm fun s =>
    if ¬ targetOk t then (s, bdBAD, 0)
    else match reg with
      | 0 => (s.ctlWrite t data, bdOK, 0)
      | 1 => (s.setDebug { s.probe with pc := SMap.put 0 s.probe.pc t (data % 65536) }, bdOK, 0)
      | _ =>
        if 0x10 ≤ reg ∧ reg < 0x14 then
          (s.setDebug { s.probe with bp := SMap.put 0 s.probe.bp (t * 4 + (reg - 0x10)) (bits data 31 1 * 2 ^ 31 + bits data 0 16) }, bdOK, 0)
        else (s, bdBAD, 0)

/-- The bodies of HALT_REQ, RESUME and STEP: a write of CTL with that bit alone; for a hart, the request by the debug module. -/
def Device.ctlScan (s : Device) (t v : Nat) : Device :=
  if hostTarget t then
    if ¬ s.debugOpen then s.answer 2 0
    else if t < 0x10010 then (s.used.ctlWrite t v).answer 0 0 else s
  else bdtmWriteBody t 0 v s
def haltReqBody (t : Nat) (s : Device) : Device := s.ctlScan t 1
def resumeBody (t : Nat) (s : Device) : Device := s.ctlScan t 2
def stepBody (t : Nat) (s : Device) : Device := s.ctlScan t 4

end Sys2Proof.Machine
end

