-- ==== Sys2Proof/Machine/Checks.lean ====
section
/-!
DEFINITION. What Eft checks of a spawn image at load (R389, "Every rule that this manual states as Eft refuses"): the frame program
(R49), placement (R66), and the rules of the reflex fabric, the fusion units, safety, self-test and the field pins. A check answers
the index of the slice, slot, program or item that breaks it.
-/
namespace Sys2Proof.Machine

/-- The first of some candidates that is bad. -/
def firstBad (l : List Nat) (bad : Nat → Bool) : Option Nat := l.find? bad

/-! ### The frame program (R44 to R49) -/

/-- The header of a die's section (R45): its period, frame length, window lengths, and counts of phases, slices and commands. -/
def Device.fpHeader (s : Device) (die : Nat) : List Nat := (List.range 6).map fun i => s.schedWord die (4 * i)
def Device.fpPhases (s : Device) (die : Nat) : Nat := wd (s.fpHeader die) 3
def Device.fpSlices (s : Device) (die : Nat) : Nat := wd (s.fpHeader die) 4
def Device.fpCommands (s : Device) (die : Nat) : Nat := wd (s.fpHeader die) 5

/-- A command of a die's command area. -/
def Device.cmdAt (s : Device) (die c : Nat) : List Nat := (List.range 16).map (s.cmdWord die c)

/-- The commands of a slice's list: from its COMMAND to where the next list begins, or to the command count; empty commands fill. -/
def Device.listAt (s : Device) (die i : Nat) : List (List Nat) :=
  let c := slCommand (s.sliceRec die i)
  let stop := ((List.range (s.fpSlices die)).map fun k => slCommand (s.sliceRec die k)).foldl (fun m x => if c < x ∧ x < m then x else m)
    (s.fpCommands die)
  ((List.range (stop - c)).map fun k => s.cmdAt die (c + k)).filter fun w => w.any (· ≠ 0)

/-- The commands of a reflex or fusion slice, without the SET_WAIT that its WAIT_EN asks for. -/
def Device.ownList (s : Device) (die i : Nat) : List (List Nat) :=
  let l := s.listAt die i
  if slWaitEn (s.sliceRec die i) then l.drop 1 else l

/-- The tick after some phases that follow one another from tick `n`. -/
def phasesFrom (n : Nat) : List Nat → Option Nat
  | [] => some n
  | w :: l => if phFirst w = n ∧ n ≤ phLast w then phasesFrom (phLast w + 1) l else none

/-- A recovery branch holds slices `i` and `j`, `i` before `j` (R52). -/
def Device.sameBranch (s : Device) (die i j : Nat) : Bool :=
  (List.range (s.fpSlices die)).any fun k =>
    let r := slRecovery (s.sliceRec die k)
    decide (r ≤ i) && (s.branchSlices die r).contains i && (s.branchSlices die r).contains j

/-- Two slices of one tick name a unit in common, other than the fusion unit, while their budgets overlap (R49). -/
def Device.slicesClash (s : Device) (die i j : Nat) : Bool :=
  let a := s.sliceRec die i
  let b := s.sliceRec die j
  decide (slTick a = slTick b) && decide (slRel a = slRel b) && (!slRel a || s.sameBranch die i j) &&
  decide (slStart a < slStart b + slBudget b) && decide (slStart b < slStart a + slBudget a) &&
  meets ((slUnits a).filter (· ≠ 400)) (slUnits b)

/-- A slice breaks a rule of R49. -/
def Device.sliceBad (s : Device) (die i : Nat) : Bool :=
  let r := s.sliceRec die i
  let stop := slStart r + slBudget r
  decide (s.fpCommands die ≤ slCommand r) || decide (slKind r = 7) || (!slRel r && decide (s.frameLen ≤ slTick r)) ||
  (decide (slKind r < 6) && decide ((if slKind r = 0 ∨ slKind r = 5 then s.period else s.testStart) < stop)) ||
  (decide (slRecovery r ≠ 0xFFFF) && (decide (s.fpSlices die ≤ slRecovery r) || !slRel (s.sliceRec die (slRecovery r)))) ||
  (slWaitEn r && decide (hdOpcode (s.cmdAt die (slCommand r)) ≠ 0x21)) ||
  (List.range i).any fun j => s.slicesClash die j i

/-- The groups that the frame program's sequence slices name on all dies (R185): by collectives, and by attention that merges over a group. -/
def Device.namedGroups (s : Device) : List Nat :=
  ((List.range 4).flatMap fun die => ((List.range (s.fpSlices die)).filter fun i => slKind (s.sliceRec die i) = 0).flatMap fun i =>
    (s.listAt die i).filterMap fun w =>
      if hdOpcode w = 0x15 ∧ clGroupEn w then some (clGroup w)
      else if hdOpcode w = 0x12 ∧ atScope w = 3 then some (atGroup w) else none).eraseDups

/-- A die's section breaks R44, R45 or R49: the slice. -/
def Device.programBad (s : Device) (die : Nat) : Option Nat :=
  if 64 < s.fpPhases die ∨ 32768 < s.fpSlices die ∨ 32768 < s.fpCommands die ∨ 16 < s.namedGroups.length ∨
      (s.fpHeader die).take 3 ≠ (s.fpHeader 0).take 3 ∨
      phasesFrom 0 ((List.range (s.fpPhases die)).map (s.phaseWord die)) ≠ some s.frameLen then some 0
  else firstBad (List.range (s.fpSlices die)) (s.sliceBad die)

/-- The slices of a kind on a die. -/
def Device.kindSlices (s : Device) (die kind : Nat) : List Nat :=
  (List.range (s.fpSlices die)).filter fun i => slKind (s.sliceRec die i) = kind

/-! ### Job 0's pages (R88, R93) -/

/-- Job 0's 2 MiB pages: virtual address and leaf entry. -/
def Device.jobZeroPages (s : Device) : List (Nat × Nat) :=
  if ¬ s.jobEntryOk 0 then []
  else
    let root := jeRoot (s.jobEntry 0)
    (List.range 16384).flatMap fun i =>
      let e1 := s.load (root + 8 * i) 8
      if (s.entryFault 1 (root + 8 * i) e1).isSome then []
      else (List.range 8192).filterMap fun k =>
        let e2 := s.load (teAddr e1 + 8 * k) 8
        if (s.entryFault 2 (teAddr e1 + 8 * k) e2).isSome ∨ ¬ teLeaf e2 then none else some (i * 2 ^ 34 + k * 2 ^ 21, e2)

/-- A pinned translation of a page of job 0. -/
def pinned (die unit : Nat) (p : Nat × Nat) : Tlb :=
  { die := die, unit := unit, job := 0, va := p.1, log2 := 21, pa := teAddr p.2, rd := teRd p.2, wr := teW p.2, pin := true }

/-- Job 0's table as Eft loads it, for the units that hold no cache of their own (DESIGN CHOICE, 205): the dispatcher and the pad movers. -/
def Device.pinTables (s : Device) : Device :=
  let pages := s.jobZeroPages
  { s with xlate := { s.xlate with tlb := s.xlate.tlb ++ (List.range 4).flatMap fun d => pages.map (pinned d mPad) } }

/-- The pages that a command of a slice reaches on a core; `before` and `next` are its neighbours in the list, for linked pairs. -/
def Device.coreReach (s : Device) (die i core : Nat) (before w next : List Nat) : List Nat :=
  let job0 : Issue := ⟨.slice die i, 0, [core]⟩
  (match hdOpcode w with
    | 0x10 => mxPages w 0 (mxOutCols w next)
    | 0x11 => gtPages w (if hdOpcode before = 0x10 ∧ mxLink before then some before else none) 0
    | 0x12 =>
      atPagesFirst 0 w ++ s.atPagesRows { issue := job0, words := w, rows := (List.range (atRows w)).map (s.rowOf die 0 w) }
    | 0x13 => s.rcPages core 0 w
    | 0x14 => let h := s.stHeader core (rcOff w); (pagesOf 0 (shSwapVa h) (shBytes h)).map fun p => (p, false)
    | 0x15 => if clKind w = 3 then [] else (clSrc w).pages 0 (64 * clUnits w * clRows w) false
    | _ => [] : List (Nat × Bool)).map fun p => p.1

/-- The pages that a DMA descriptor of a slice reaches on this device. -/
def dmaReach (d : List Nat) : List Nat :=
  (List.range (dmRows d)).flatMap fun r =>
    (if dmOpcode d = 1 ∧ ¬ dmSrcRemote d then pagesOf 0 (dmSrc d + r * dmSrcStride d) (dmLength d) else []) ++
    (if dmDstRemote d then [] else pagesOf 0 (dmDst d + r * dmDstStride d) (dmLength d))

/-- A list with each element's neighbours, empty at the ends. -/
def withNeighbours : List Nat → List (List Nat) → List (List Nat × List Nat × List Nat)
  | _, [] => []
  | b, w :: l => (b, w, l.headD []) :: withNeighbours w l

/-- The units that slices of the frame program name and whose translations are pinned, with the pages that each of them reaches, in ascending order. -/
def Device.unitReach (s : Device) : List (Nat × Nat × List Nat) :=
  (List.range 4).flatMap fun d =>
    let cores := ((s.kindSlices d 0).flatMap fun i => slUnits (s.sliceRec d i)).eraseDups
    let engines := ((s.kindSlices d 5).flatMap fun i => slUnits (s.sliceRec d i)).eraseDups
    (cores.map fun c => (d, c, (((s.kindSlices d 0).filter fun i => (slUnits (s.sliceRec d i)).contains c).flatMap fun i =>
      (withNeighbours [] (s.listAt d i)).flatMap fun x => s.coreReach d i (d * 64 + c) x.1 x.2.1 x.2.2).eraseDups.mergeSort)) ++
    engines.map fun u => (d, mDma + (u - 500), (((s.kindSlices d 5).filter fun i => (slUnits (s.sliceRec d i)).contains u).flatMap fun i =>
      (s.listAt d i).flatMap dmaReach).eraseDups.mergeSort)

/-- A core's slices reach more than 64 pages, or an engine's more than 16 (R88). -/
def Device.pinsBad (s : Device) : Bool := s.pinTables.unitReach.any fun u => decide ((if u.2.1 < mDma then 64 else 16) < u.2.2.length)

/-- Job 0's translations are loaded into the pinned entries of each unit (R88, R93): those of the pages that its slices reach and that are mapped. -/
def Device.pinPages (s : Device) : Device :=
  let pages := s.jobZeroPages
  let pins := s.pinTables.unitReach.flatMap fun u => (u.2.2.filterMap fun va => pages.find? fun p => decide (p.1 = va)).map (pinned u.1 u.2.1)
  let s1 := s.pinTables
  { s1 with xlate := { s1.xlate with tlb := s1.xlate.tlb ++ pins } }

/-! ### Placement (R66) and the windows of lent cores (R224) -/

/-- A page of job 0 lies in a core's own column. -/
def Device.inOwnColumn (s : Device) (core va : Nat) : Bool :=
  match s.pinTables.paOf (core / 64) 0 va with
  | some a => match s.region a with | .pond d c _ => decide (d = core / 64) && decide (c = core % 64) | _ => false
  | none => false

/-- The ranges of virtual addresses from which a command of a sequence slice reads weights on a core: a matrix command's B with its scales, a recurrent
chunk's weights with theirs (R167). -/
def Device.weightRanges (s : Device) (core : Nat) (w : List Nat) : List (Nat × Nat) :=
  match hdOpcode w with
  | 0x10 =>
    let nt := (mxN w + 15) / 16
    (if (mxB w).space = 0 then [((mxB w).addr, nt * ntileBytes (mxBFmt w) (mxK w))] else []) ++
    (if isMx (mxBFmt w) ∧ (mxBScale w).space = 0 then [((mxBScale w).addr, nt * mxKB w * 16)] else [])
  | 0x13 =>
    let h := s.stHeader core (rcOff w)
    let k := shK h (2 ^ rcLog2 w)
    let nt := (shNb h * shWc h + 15) / 16
    [(shBVa h, nt * ntileBytes (shBFmt h) k + (if isMx (shBFmt h) then nt * ((k + 31) / 32) * 16 else 0))]
  | _ => []

/-- Weights that a command of a sequence slice reads lie outside the column of one of its cores. -/
def Device.weightsAway (s : Device) (die i : Nat) : Bool :=
  (s.listAt die i).any fun w => (slUnits (s.sliceRec die i)).any fun c => (s.weightRanges (die * 64 + c) w).any fun r =>
    (pagesOf 0 r.1 r.2).any fun va => !s.inOwnColumn (die * 64 + c) (max va r.1) || !s.inOwnColumn (die * 64 + c) (min (va + 2 ^ 21) (r.1 + r.2) - 1)

/-- The end of a core's column. -/
def columnEnd (core : Nat) : Nat := columnBase (core / 64) (core % 64) + columnBytes

/-- A pad that an attention command of a sequence slice may select is resident outside the pad slots of its home core's own column (R66, R137): its entry
names a slot that the core does not have. -/
def Device.padsAway (s : Device) (die i : Nat) : Bool :=
  let p := s.pinTables
  (s.listAt die i).any fun w => decide (hdOpcode w = 0x12) &&
    (let lead := die * 64 + (slUnits (s.sliceRec die i)).headD 0
     let c : AttCmd := { issue := ⟨.slice die i, 0, [lead]⟩, words := w, rows := (List.range (atRows w)).map (p.rowOf die 0 w) }
     c.rows.any fun r => (List.range (p.ptHeads c r)).any fun h => (p.ptFilled c r h).any fun k =>
       2 ≤ peState (p.ptEntry c r h k) && (decide (p.poolSlots (atHome w h k) ≤ peSlot (p.ptEntry c r h k)) ||
         decide (columnEnd (atHome w h k) < p.slotAddr (atHome w h k) (peSlot (p.ptEntry c r h k)) + slotBytes)))

/-- The observation pair passes the end of die 0's Pond (R261). -/
def Device.obsBad (s : Device) : Bool := decide (pondDieBytes < s.obsAddr 0 0 + 2 * s.obsSize)

/-- A fusion slice holds a malformed command (R248). -/
def Device.fusionBad (s : Device) (die : Nat) : Option Nat :=
  firstBad (s.kindSlices die 4) fun i => (s.ownList die i).any fun w => !projectOk w

/-! ### Collision checking and planning (R265, R266, R270) -/

/-- A collision slice names a wrong unit, an UPDATE without all units or too late to commit, or a FINAL PUBLISH too late. -/
def Device.collBad (s : Device) (die : Nat) : Option Nat :=
  firstBad (s.kindSlices die 3) fun i =>
    let u := s.sliceUnit die i
    !(decide (u ≤ 0x10) || decide (u = 0xFF)) ||
    (s.ownList die i).any fun w =>
      (decide (hdOpcode w = 0x40) && (decide (u ≠ 0xFF) ||
        decide (s.testStart < s.sliceDeadline die i + 40 * (bits (wd w 1) 0 10 + 1) + 4160))) ||
      (decide (hdOpcode w = 0x43) && bit (wd w 1) 31 && decide (s.testStart < s.sliceDeadline die i + 512))

/-! ### Solve programs and commands (R284 to R303) -/

/-- Rounded up division. -/
def cdiv (a b : Nat) : Nat := (a + b - 1) / b

/-- The greater of the engines' rows, nonzeros, and nonzeros of a lower pattern (R292). -/
def shM (h : List Nat) : Nat := max (shN0 h) (shN h - shN0 h)
def shZ (h : List Nat) : Nat := max (shNnz0 h) (shNnz h - shNnz0 h)
def Device.lowerNnz (s : Device) (die : Nat) (h : List Nat) : Nat :=
  let e := ((s.nnzRows die h).zip (s.secHalves die (shSec h 2) (shNnz h))).filter fun x => decide (x.2 ≤ x.1)
  max (e.filter fun x => decide (x.1 < shN0 h)).length (e.filter fun x => decide (shN0 h ≤ x.1)).length

/-- HALO, LEVELS, and the number of value banks. -/
def shHalo (h : List Nat) : Nat := bits (wd h 7) 0 16
def shLevels (h : List Nat) : Nat := bits (wd h 7) 16 16
def shBanks (h : List Nat) : Nat := bits (wd h 4) 26 1 + 1

/-- The step costs and the iteration time (R292, R293). -/
def Device.iterTime (s : Device) (die : Nat) (h : List Nat) : Nat :=
  let m := shM h
  let tmv := cdiv (shZ h) 32 + cdiv m 32 + 24
  let tx := if shEngines h = 2 then cdiv (shHalo h) 32 + 24 else 0
  let tpc := match shPrec h with
    | 0 => 0
    | 1 => cdiv m 32 + 16
    | 2 => cdiv (m * shBlock h) 32 + 16
    | _ => 2 * (cdiv (s.lowerNnz die h) 32 + 8 * shLevels h)
  let tdot := cdiv m 32 + 40
  let tvec := cdiv m 32 + 4
  match shMethod h with
  | 0 => tmv + tx + tpc + 3 * tdot + 4 * tvec + 32
  | 1 => tmv + tx + tpc + 2 * tdot + 6 * tvec + 32
  | _ => 2 * (tmv + tx) + 2 * tpc + 6 * tdot + 6 * tvec + 64

/-- The refresh time where the header decides it (R295). -/
def refTime (h : List Nat) : Option Nat :=
  match shPrec h with
  | 1 => some (cdiv (shM h) 32 + 32)
  | 2 => some (cdiv (shM h) (max 1 (shBlock h)) * cdiv (shBlock h ^ 3) 32 + 32)
  | _ => none

/-- A program passes a limit of R285 or R315. -/
def Device.progLimits (s : Device) (die : Nat) (h : List Nat) : Bool :=
  let pair := decide (shEngines h = 2)
  let k := if pair then 2 else 1
  let n1 := shN h - shN0 h
  let st := shOutStream h
  decide (k ≤ shN h) && decide (shN h ≤ 32768 * k) && decide (1 ≤ shNnz h) && decide (shNnz h ≤ 524288 * k) &&
  (!pair || (decide (shN0 h ≤ shN h) && decide (shN0 h ≤ 32768) && decide (n1 ≤ 32768) && decide (shNnz0 h ≤ shNnz h) &&
    decide (shNnz0 h ≤ 524288) && decide (shNnz h - shNnz0 h ≤ 524288) && decide (shHalo h ≤ 8192))) &&
  (decide (shPrec h ≠ 2) || (decide (1 ≤ shBlock h) && decide (shBlock h ≤ 16))) &&
  (decide (shPrec h ≠ 3) || (decide (1 ≤ shLevels h) && decide (shLevels h ≤ 4096))) &&
  decide (shMethod h ≤ 2) && decide (shPrec h ≤ 3) && decide (shEngines h ≤ 2) && decide (shOutCount h ≤ 4080) && decide (st < 16) &&
  decide (shOutCount h = (s.rd die (REFLEX_CTRL_STREAM_CFG_POINTS_M1 st) + 1) * (s.rd die (REFLEX_CTRL_STREAM_CFG_CHANNELS_M1 st) + 1))

/-- The end of a section whose length the header does not give: the next section's start. -/
def secEnd (h : List Nat) (off : Nat) : Nat :=
  ((List.range 19).map (shSec h)).foldl (fun m x => if off < x ∧ x < m then x else m) 0x1000000

/-- A program's sections as (offset, bytes), the header first; an offset of 0 is unused (R286, R287). -/
def Device.progParts (s : Device) (die p : Nat) : List (Nat × Nat) :=
  let h := s.header die p
  let two := decide (shEngines h = 2)
  let st0 := 8 * cdiv (shNnz0 h) 32
  let st1 := 8 * cdiv (if two then shNnz h - shNnz0 h else shNnz h) 32
  let fact := 4 * s.factWords die h
  let len : List Nat := [st0, st1, 2 * shNnz h, 4 * shNnz h, 4 * shNnz h, 4 * shN h, 4 * shN h,
    4 * s.pvalWords die h, 2 * (s.blockRows die h).length, fact, fact,
    secEnd h (shSec h 11) - shSec h 11, 2 * shHalo h, 2 * shHalo h, 4 * shOutCount h, 64 + 4 * shN h, 64 + 4 * shN h, 64 + 4 * shN h, 64]
  (s.rd die (REFLEX_SOLVE_PROG_HDR_OFF p), 256) ::
    ((List.range 19).filter fun i => decide (shSec h i ≠ 0)).map fun i => (shSec h i, wd len i)

/-- The bytes that PATTERN_HASH covers, in order (R288). -/
def Device.patternBytes (s : Device) (die p : Nat) : List Nat :=
  let h := s.header die p
  let a := reflexBase die
  let by_ := fun (off n : Nat) => if off = 0 then [] else (List.range n).map fun i => s.readData (a + off + i) 1
  let two := decide (shEngines h = 2)
  by_ (s.rd die (REFLEX_SOLVE_PROG_HDR_OFF p) + 8) 36 ++ by_ (shSec h 0) (8 * cdiv (shNnz0 h) 32) ++
  by_ (shSec h 1) (8 * cdiv (if two then shNnz h - shNnz0 h else shNnz h) 32) ++ by_ (shSec h 2) (2 * shNnz h) ++
  by_ (shSec h 8) (2 * (s.blockRows die h).length) ++ by_ (shSec h 11) (secEnd h (shSec h 11) - shSec h 11) ++
  by_ (shSec h 12) (2 * shHalo h) ++ by_ (shSec h 13) (2 * shHalo h) ++ by_ (shSec h 14) (4 * shOutCount h)

/-- An engine's steps agree with the row pointers they imply: GMR, reserved bits 0, each beat's ROW0 following on, all rows ended (R287). -/
def Device.stepsOk (s : Device) (die off nnz rows : Nat) : Bool :=
  let x := (List.range (cdiv nnz 32)).foldl (fun (x : Bool × Nat) k =>
    let v := s.readData (reflexBase die + off + 8 * k) 8
    let ended := ((List.range (min 32 (nnz - 32 * k))).filter fun l => bit v l).length
    (x.1 && decide (bits v 60 4 = 1) && decide (bits v 47 13 = 0) && decide (bits v 32 15 = x.2) &&
      decide (bits v 0 32 / 2 ^ min 32 (nnz - 32 * k) = 0), x.2 + ended)) (true, 0)
  x.1 && decide (x.2 = rows)

/-- Every column of the other engine's rows that an engine reads is in the halo list of the engine that owns it (R288). -/
def Device.haloOk (s : Device) (die : Nat) (h : List Nat) : Bool :=
  decide (shEngines h ≠ 2) ||
  let e := (s.nnzRows die h).zip (s.secHalves die (shSec h 2) (shNnz h))
  let h0 := s.secHalves die (shSec h 12) (shHalo h)
  let h1 := s.secHalves die (shSec h 13) (shHalo h)
  e.all fun x => if x.1 < shN0 h then decide (x.2 < shN0 h) || h1.contains x.2 else decide (shN0 h ≤ x.2) || h0.contains x.2

/-- A program's vector area: its offset and bytes (R288). -/
def vecArea (h : List Nat) : Nat × Nat :=
  (wd h 11, 4 * max (shM h) (shN h) * (match shMethod h with | 0 => 7 | 1 => 8 | _ => 11))

/-- Two ranges share a byte. -/
def rangesMeet (a b : Nat × Nat) : Bool := decide (a.1 < b.1 + b.2) && decide (b.1 < a.1 + a.2)

/-- A loaded program breaks R285, R288, R294 or R315. -/
def Device.progBad (s : Device) (die p : Nat) : Bool :=
  let h := s.header die p
  let two := decide (shEngines h = 2)
  let first := if shEngines h = 1 then 1 else 0
  let e := (s.nnzRows die h).zip (s.secHalves die (shSec h 2) (shNnz h))
  s.on die (REFLEX_SOLVE_PROG_VALID p) &&
  (!s.progLimits die h || decide (sha512 (s.patternBytes die p) % 2 ^ 64 ≠ shHash h) ||
   !s.stepsOk die (shSec h first) (shNnz0 h) (shN0 h) || (two && !s.stepsOk die (shSec h 1) (shNnz h - shNnz0 h) (shN h - shN0 h)) ||
   ((List.range (shN h)).any fun r => !(e.contains (r, r))) || !s.haloOk die h || decide (shTIter h ≠ s.iterTime die h) ||
   (match refTime h with | some t => decide (shTRef h ≠ t) | none => false) ||
   (decide (shMethod h = 1) && decide (2 ≤ shPrec h) && !shPrecSrc h) || (decide (shMethod h = 2) && decide (shPrec h = 3)) ||
   (List.range p).any fun q =>
    let g := s.header die q
    s.on die (REFLEX_SOLVE_PROG_VALID q) && meets (shUnits g) (shUnits h) && rangesMeet (vecArea g) (vecArea h))

/-- A SOLVE or REFRESH fails a check of R284, R294, R297 or R303. -/
def Device.solveCmdBad (s : Device) (die i : Nat) (w : List Nat) : Bool :=
  let p := bits (wd w 1) 20 4
  let h := s.header die p
  let op := hdOpcode w
  let cont := bit (wd w 1) 31
  let src := bits (wd w 1) 29 2
  let neg := fun (v : Nat) => bit v 31 && decide (v % 2 ^ 31 ≠ 0)
  decide (op ≠ 0x50 ∧ op ≠ 0x51) || !s.on die (REFLEX_SOLVE_PROG_VALID p) || decide (shEngines h ≠ s.sliceUnit die i) ||
  (if op = 0x51 then
    decide (setBits (wd w 1) 20 5 0 ≠ 0) || (w.drop 2).any (· ≠ 0) || decide (shPrec h = 0) ||
    (bit (wd w 1) 24 && decide (shBanks h = 1))
  else
    (w.drop 5).any (· ≠ 0) || decide (bits (wd w 1) 0 16 = 0) ||
    decide (s.testStart < s.sliceDeadline die i + cdiv (shM h) 32 + cdiv (shOutCount h) 32 + 16) ||
    (!cont && (decide (src = 3) || (decide (src = 2) && !s.on die (REFLEX_SOLVE_PROG_VALID (bits (wd w 1) 16 4))) ||
      decide (bits (wd w 2) 16 16 = 0) || decide (shN h ≤ bits (wd w 2) 0 16) || neg (wd w 3) || neg (wd w 4) || !fin32 (wd w 3) ||
      !fin32 (wd w 4) || (bit (wd w 1) 24 && decide (shBanks h = 1)))))

/-- A die's programs and solver slices: the program, then the slice, that breaks a rule. -/
def Device.solverBad (s : Device) (die : Nat) : Option Nat :=
  match firstBad (List.range 16) (s.progBad die) with
  | some p => some p
  | none => firstBad (s.kindSlices die 1) fun i => decide (2 < s.sliceUnit die i) || (s.ownList die i).any (s.solveCmdBad die i)

/-! ### The control engine (R307 to R325, R340) -/

/-- Kinds of a source (R312). -/
def srcKind (src : Nat) : Nat := bits src 28 4

/-- A descriptor breaks R307, R309, R314, R321 or R340. -/
def Device.slotBad (s : Device) (die n : Nat) : Bool :=
  let d := s.descriptor die n
  let fb := srcKind (slSrc d 1)
  let outs := (List.range 4).filter fun k => decide (slOutCh d k ≠ 0xFF)
  let tailSrc := fun (i : Nat) =>
    let x := slSrc d i
    (decide (srcKind x = 1) && decide (i ≠ 0)) || decide (srcKind x = 5) ||
      (decide (srcKind x = 4) && !slTail (s.descriptor die (bits x 20 8 % 128)))
  decide (slLaw d ≠ 0) &&
  (decide (3 < slLaw d) || decide (7 < wd d 1) || decide (slDiv d ≤ slOffset d) || decide (7 < wd d 5) || decide (15 < wd d 6) ||
   decide (bits (wd d 7) 5 2 ≠ 0) || outs.any (fun k => decide (15 < slOutCh d k)) || outs.any (fun k => decide (slOutputs d ≤ k)) ||
   decide (slDecel d ≤ 0) || decide (31 < wd d 36) || decide (31 < wd d 37) || ((d.drop 38).take 26).any (· ≠ 0) ||
   ((d.drop 672).take 152).any (fun v => decide (31 < v)) || (List.range 5).any (fun i => s.sourceBad die (slSrc d i)) ||
   decide (fb = 1) || decide (fb = 5) || decide (s.phaseMark (slPhaseMark d) < 2112) ||
   (slTail d && ((List.range 5).any tailSrc || !slStopEn d)))

/-- A group has a 17th member, or members that differ where R319 lets none differ. -/
def Device.groupBad (s : Device) (die g : Nat) : Bool :=
  let ms := ((List.range 128).map (s.descriptor die)).filter fun d => decide (slLaw d ≠ 0) && decide (slGroup d = some g)
  let key := fun (d : List Nat) => [slDiv d, slOffset d, slPhaseMark d, slOutCh d 0]
  decide (16 < ms.length) || ms.any (fun d => decide (key d ≠ key (ms.headD []))) || ms.any fun d => decide (slLaw d = 3 ∧ slOutputs d ≠ 1)

/-- Slots that drive a channel, one for each group (R322). -/
def Device.driversOf (s : Device) (die c : Nat) : List Nat :=
  ((List.range 128).filterMap fun n =>
    let d := s.descriptor die n
    if slLaw d = 0 ∨ ¬ ((List.range (slOutputs d)).any fun k => slOutCh d k = c) then none
    else match slGroup d with | some g => some (128 + g) | none => some n).eraseDups

/-- Two channels of the device drive one output word (R322). -/
def Device.destTwice (s : Device) (die c : Nat) : Bool :=
  s.on die (REFLEX_CTRL_CHAN_EN c) && (List.range (die * 16 + c)).any fun k =>
    s.on (k / 16) (REFLEX_CTRL_CHAN_EN (k % 16)) && decide (s.rd (k / 16) (REFLEX_CTRL_CHAN_DEST (k % 16)) = s.rd die (REFLEX_CTRL_CHAN_DEST c))

/-- A die's control engine: the slot, group or channel that breaks a rule. -/
def Device.ctrlBad (s : Device) (die : Nat) : Option Nat :=
  (firstBad (List.range 128) (s.slotBad die)).or <| (firstBad (List.range 32) (s.groupBad die)).or <|
  (firstBad (List.range 16) fun c => decide (1 < (s.driversOf die c).length) || s.destTwice die c).or <|
  firstBad (s.kindSlices die 2) fun i => decide (s.sliceUnit die i ≠ 0)

/-- The contents of a die's reflex store that registers and headers name: each solve program's parts, the vector memories if programs
use them, the control region, the collision regions that lie there, and the golden area (R288, R308, R351). -/
def Device.reflexParts (s : Device) (die : Nat) : List (Nat × Nat) :=
  let progs := (List.range 16).filter fun p => s.on die (REFLEX_SOLVE_PROG_VALID p)
  let own := ((List.range 128).any fun n => slLaw (s.descriptor die n) ≠ 0)
  (progs.flatMap (s.progParts die)) ++ [(0xC00000, 0x400000)] ++
  (if own then [(s.rd die REFLEX_CTRL_CTL_REGION * 0x200000, 0x200000)] else []) ++
  (if s.on 0 SAFETY_GOLDEN_CFG_EN then [(s.rd 0 SAFETY_GOLDEN_AREA_REFLEX_64K * 0x10000, 0x40000)] else []) ++
  (if s.collRegion die 6 = 0 then [] else [(s.collRegion die 6, 0x8C000)])

/-- Two contents of the reflex store meet. -/
def Device.partsMeet (s : Device) (die : Nat) : Bool :=
  let l := s.reflexParts die
  (List.range l.length).any fun i => (List.range i).any fun j => rangesMeet (l.getD i (0, 0)) (l.getD j (0, 0))

/-! ### Safety, self-test and field pins (R348, R350, R353, R356, R429) -/

/-- A watchdog breaks R348. -/
def Device.wdgBad (s : Device) (n : Nat) : Bool :=
  s.on 0 (SAFETY_WDG_CFG_EN n) &&
  ((decide (s.rd 0 (SAFETY_WDG_CFG_STAGE n) = 1) && decide (s.rd 0 (SAFETY_WDG_CFG_DIE n) ≠ 0)) ||
   decide (s.rd 0 (SAFETY_WDG_WIN_CLOSE_16 n) ≤ s.rd 0 (SAFETY_WDG_WIN_OPEN_16 n)) ||
   decide (s.safetyStart < 16 * s.rd 0 (SAFETY_WDG_WIN_CLOSE_16 n)))

/-- A stage without an enabled watchdog, as an index beyond the watchdogs. -/
def Device.stageUnwatched (s : Device) (st : Nat) : Bool :=
  !((List.range 16).any fun n => s.on 0 (SAFETY_WDG_CFG_EN n) && decide (s.rd 0 (SAFETY_WDG_CFG_STAGE n) = st))

/-- A tick in which a reflex or fusion slice is budgeted past the golden-slot start. -/
def Device.pastGolden (s : Device) (t : Nat) : Bool :=
  (List.range 4).any fun d => (List.range (s.fpSlices d)).any fun i =>
    let r := s.sliceRec d i
    decide (1 ≤ slKind r) && decide (slKind r ≤ 4) && !slRel r && decide (slTick r = t) && decide (s.goldenStart < slStart r + slBudget r)

/-- The golden frames break R350 or R353. -/
def Device.goldenBad (s : Device) : Bool :=
  let t := s.rd 0 SAFETY_GOLDEN_CFG_TICK
  (!s.on 0 SAFETY_GOLDEN_CFG_EN && decide (s.eft.fuses.life ≠ lcMANUFACTURE)) || decide (s.frameLen ≤ t) ||
  (s.on 0 SAFETY_GOLDEN_CFG_EN && s.pastGolden t && s.pastGolden ((t + 1) % max 1 s.frameLen))

/-- Safety: the watchdog, or 16 plus the stage, or 32 for golden frames. -/
def Device.safetyBad (s : Device) : Option Nat :=
  (firstBad (List.range 16) s.wdgBad).or <| ((firstBad (List.range 6) s.stageUnwatched).map (16 + ·)).or <|
  if s.goldenBad then some 32 else none

/-- An item of a die's in-service sequence breaks R356. -/
def Device.seqItemBad (s : Device) (die : Nat) (w : List Nat) : Bool :=
  let room := 16 * s.rd 0 CHORUS_WIN_LEN_TEST_LEN - 4 * (16 + s.rd die POND_SCRUB_CTL_LINES)
  let c := tiUnit w
  let late := (s.kindSlices die 0).any fun i =>
    let r := s.sliceRec die i
    !slRel r && decide (slTick r = tiTick w) && (slUnits r).contains c && decide (slStart r < s.safetyStart) &&
    decide (s.testStart < slStart r + slBudget r)
  !itemOk w || decide (room < itemBudget w (opMHz 1)) ||
  (decide (tiTarget w = 2) && s.reservedCore (die * 64 + c) && (decide (tiTick w = 0xFFFF) || late))

/-- A die's in-service sequence: the item that breaks R356. -/
def Device.seqBad (s : Device) (die : Nat) : Option Nat :=
  let l := (s.tester die).seq
  if 4096 < l.length then some 4096 else firstBad (List.range l.length) fun i => s.seqItemBad die (l.getD i [])

/-- A GPIO that an IMU stream or the resume input uses is no input (R429): its number. -/
def Device.gpioBad (s : Device) : Option Nat :=
  (firstBad (List.range 4) fun k => s.on 0 (INGEST_STREAM_CFG_EN (56 + k)) && decide (s.gpioMode k ≠ 0)).or <|
  let k := s.rd 0 SAFETY_CTL_RESUME_GPIO
  if s.on 0 SAFETY_CTL_RESUME_SRC ∧ s.gpioMode k ≠ 0 then some k else none

/-! ### All of it -/

/-- What the image breaks at step 10, once its registers are written: the register block whose unit's rule failed, and the item. -/
def Device.contentBad (s : Device) : Option (Nat × Nat) :=
  let dies := fun (blk : Nat) (f : Nat → Option Nat) => ((List.range 4).findSome? f).map fun n => (blk, n)
  (if s.pinsBad then some (3, 0) else none).or <|
  (dies 2 fun d => firstBad (s.kindSlices d 0) (s.weightsAway d)).or <| (dies 2 fun d => firstBad (s.kindSlices d 0) (s.padsAway d)).or <|
  (if s.obsBad then some (19, 0) else none).or <|
  (dies 19 s.fusionBad).or <| (dies 18 s.collBad).or <| (dies 16 s.solverBad).or <| (dies 17 s.ctrlBad).or <|
  (dies 17 fun d => if s.partsMeet d then some d else none).or <|
  (s.safetyBad.map fun n => (21, n)).or <| (dies 22 s.seqBad).or <| s.gpioBad.map fun n => (29, n)

end Sys2Proof.Machine
end

