-- ==== Sys2Proof/Machine/Start.lean ====
section
/-!
DEFINITION. The start sequence (chapter 18, R388 to R398): from reset release to READY, the spawn image's checks and loading, WEIGHTS
sections, the injection pass, and what a failed step leaves.
-/
namespace Sys2Proof.Machine

/-! ### Stages and failure (R389, R391) -/

/-- The step in progress, and going on to a step. -/
def Device.stage (s : Device) : Nat := s.rd 0 EFT_BOOT_STATUS_STAGE
def Device.toStage (s : Device) (n : Nat) : Device := s.wr 0 EFT_BOOT_STATUS_STAGE n

/-- A start is in progress. -/
def Device.inStart (s : Device) : Bool :=
  s.eft.begun && !s.eft.held && !s.on 0 EFT_BOOT_STATUS_READY && !s.on 0 EFT_BOOT_STATUS_FAILED

/-- Replace Eft's own state. -/
def Device.setEft (s : Device) (x : EftSt) : Device := { s with eft := x }

/-- The shed wipe of every memory (R390), after a start that failed once it had begun to load. -/
def Device.shedAll (s : Device) : Device :=
  let s1 := ((List.range 4).foldl Device.wipeDie s).wipeUnits.wipeLp
  { s1 with eft := { s1.eft with island := [] } }

/-- A step fails (R391): its reason, the manifest entry, the register block and the item are recorded, and from step 7 on memory is
wiped again. -/
def Device.startFail (s : Device) (reason sect blk item : Nat) : Device :=
  let s1 := ((((s.set 0 EFT_BOOT_ERR_VALID).wr 0 EFT_BOOT_ERR_SECTION sect).wr 0 EFT_BOOT_ERR_REASON reason).wr 0 EFT_BOOT_ERR_BLOCK blk).wr 0
    EFT_BOOT_ITEM_ITEM item
  let s2 := (s1.set 0 EFT_BOOT_STATUS_FAILED).setEft { s1.eft with weights := none, served := [] }
  if 7 ≤ s2.stage then s2.shedAll else s2

/-- The reasons of EFT_BOOT_ERR. -/
def bxNO_IMAGE : Nat := 1
def bxFORMAT : Nat := 2
def bxKEY : Nat := 3
def bxSIGNATURE : Nat := 4
def bxVERSION : Nat := 5
def bxDIGEST : Nat := 6
def bxTAG : Nat := 7
def bxREPAIR : Nat := 8
def bxLP5X : Nat := 9
def bxCONTENT : Nat := 0xA
def bxWEIGHTS : Nat := 0xB
def bxINJECTION : Nat := 0xC
def bxLIFECYCLE : Nat := 0xD
def bxBRIDGE : Nat := 0xE

/-- No manifest entry, and no block. -/
def noSect : Nat := 0x7FF
def noBlk : Nat := 0xFF

/-! ### Header and manifest (R392 to R396) -/

/-- The header's fields (R393). -/
def ihMagic : List Nat := [0x51, 0x4B, 0x37, 0x53, 0x50, 0x41, 0x57, 0x4E]
def ihSecVersion (h : List Nat) : Nat := byteNum h 12 4
def ihFlags (h : List Nat) : Nat := byteNum h 16 4
def ihSections (h : List Nat) : Nat := byteNum h 20 4
def ihBytes (h : List Nat) : Nat := byteNum h 24 8
def ihDigest (h : List Nat) : Nat := byteNum h 32 64
def ihKey (h : List Nat) : List Nat := (h.drop 128).take 132
def ihSig (h : List Nat) : List Nat := (h.drop 260).take 132

/-- The 64 KiB of a header have the form of R393. -/
def headerOk (h : List Nat) : Bool :=
  decide (h.take 8 = ihMagic) && decide (byteNum h 8 4 = 1) && decide (ihSecVersion h ≤ 64) && decide (ihFlags h ≤ 1) &&
  decide (1 ≤ ihSections h) && decide (ihSections h ≤ 1024) && decide (ihBytes h ≤ 2 ^ 33) && ((h.drop 96).take 32).all (· = 0) &&
  (h.drop 392).all (· = 0)

/-- Sections that a manifest entry takes from the flash: all but WEIGHTS without a flash source. -/
def meInFlash (e : List Nat) : Bool := meKind e ≠ 5 || byteNum (meSrc e 0) 0 1 = 3 || byteNum (meSrc e 1) 0 1 = 3

/-- An entry's ciphertext flag and its SERVE flag. -/
def meEncrypted (e : List Nat) : Bool := bit (meFlags e) 0
def meServe (e : List Nat) : Bool := bit (meFlags e) 1

/-- The bytes that a section writes: a space (0 memory, 1 and 2 the islands' memories, 3 the schedule memory of a die), its first byte and
its length; for WEIGHTS the same range of every column (space 4). -/
def meRange (e : List Nat) : Nat × Nat × Nat :=
  match meKind e with
  | 1 => (meUnit e, meDest e, meLength e)
  | 2 => (3, meUnit e * 0x400000, meLength e)
  | 3 => (0, meDest e, meLength e)
  | 5 => (4, meDest e, meLength e / 256)
  | _ => (5, 0, 0)

/-- Two sections write the same byte. -/
def sameDest (a b : List Nat) : Bool :=
  let x := meRange a
  let y := meRange b
  let columns := fun (w : Nat × Nat) (m : Nat × Nat) =>
    (List.range 256).any fun c => rangesMeet (columnBase (c / 64) (c % 64) + w.1, w.2) m
  if x.1 = y.1 then x.1 ≠ 5 && rangesMeet x.2 y.2
  else if x.1 = 4 ∧ y.1 = 0 then columns x.2 y.2
  else if x.1 = 0 ∧ y.1 = 4 then columns y.2 x.2
  else false

/-- An entry breaks R394, R395 or R396. -/
def entryBad (life : Nat) (h e : List Nat) : Bool :=
  let k := meKind e
  decide (k = 0) || decide (5 < k) || decide (3 < meFlags e) || (meServe e && decide (k ≠ 5)) || decide (byteNum e 3 1 ≠ 0) ||
  decide (meUnit e > (if k = 1 then 2 else if k = 2 then 3 else 0)) || decide (meFlash e % 4096 ≠ 0) ||
  (meEncrypted e && (decide (life = lcMANUFACTURE) || decide (k = 5))) ||
  (meInFlash e && (decide (meFlash e < 0x40000) || decide (ihBytes h < meFlash e + meLength e))) ||
  (decide (k = 5) && (decide (meDest e % 0x10000 ≠ 0) || decide (meLength e % 256 ≠ 0) || decide (columnBytes < meDest e + meLength e / 256)))

/-- The first manifest entry that is refused with FORMAT. -/
def manifestBad (life : Nat) (h : List Nat) (l : List (List Nat)) : Option Nat :=
  firstBad (List.range l.length) fun i =>
    let e := l.getD i []
    entryBad life h e || (List.range i).any fun j =>
      let f := l.getD j []
      (meInFlash e && meInFlash f && rangesMeet (meFlash e, meLength e) (meFlash f, meLength f)) || sameDest e f

/-- The plain bytes of a section, with the reason that its tag or digest fails (R394, R396). -/
def Device.sectionOf (s : Device) (i : Nat) : List Nat × Option Nat :=
  let e := s.eft.entries.getD i []
  let b := s.flashBytes (meFlash e) (meLength e)
  let k := s.eft.fuses.imageKey
  let iv := byteNum e 96 12
  let p := if meEncrypted e then gcmPlain k iv b else b
  (p, if meEncrypted e && !gcmOk k iv (e.take 32) b (byteNum e 108 16) then some bxTAG
      else if sha512 p ≠ meDigest e then some bxDIGEST else none)

/-- The indexes of the sections of a kind. -/
def Device.sections (s : Device) (kind : Nat) : List Nat :=
  (List.range s.eft.entries.length).filter fun i => meKind (s.eft.entries.getD i []) = kind

/-! ### Register writes (R395, step 5 and step 10) -/

/-- The writes of a REGISTERS section: address, value, and the four bytes that must be 0. -/
def regWrites (b : List Nat) : List (Nat × Nat × Nat) :=
  (List.range (b.length / 16)).map fun k => (byteNum b (16 * k) 8, byteNum b (16 * k + 8) 4, byteNum b (16 * k + 12) 4)

/-- A write goes before step 10: those of an OLINER block, and LP5X_CTL (R86). -/
def earlyWrite (blk off : Nat) : Bool := blk = 25 || (blk = 27 && off = 0)

/-- Apply a section's writes of step 5 (`early`) or of step 10; the first that is refused, with its block. -/
def Device.applyWrites (s : Device) (early : Bool) : Nat → List (Nat × Nat × Nat) → Device × Option (Nat × Nat)
  | _, [] => (s, none)
  | k, (a, v, z) :: l =>
    match s.region a with
    | .reg d blk off =>
      if z ≠ 0 ∨ off % 4 ≠ 0 ∨ 2 ^ 48 ≤ a then (if early then s.applyWrites early (k + 1) l else (s, some (noBlk, k)))
      else if earlyWrite blk off ≠ early then s.applyWrites early (k + 1) l
      else
        let s1 := s.regWrite true d blk off v
        if (match rangeFld blk off with | some f => s1.on d f | none => false) then (s1, some (blk, k))
        else s1.applyWrites early (k + 1) l
    | _ => if early then s.applyWrites early (k + 1) l else (s, some (noBlk, k))

/-- Apply every REGISTERS section in manifest order; the section, block and write that is refused. -/
def Device.applySections (s : Device) (early : Bool) : List Nat → Device × Option (Nat × Nat × Nat)
  | [] => (s, none)
  | i :: l =>
    match s.applyWrites early 0 (regWrites (s.sectionOf i).1) with
    | (s1, some (blk, k)) => (s1, some (i, blk, k))
    | (s1, none) => s1.applySections early l

/-- LOCK of every block that has one (R389, step 10). -/
def Device.lockAll (s : Device) : Device :=
  (List.range 4).foldl (fun (s : Device) d => (List.range 32).foldl (fun (s : Device) blk =>
    if regAbsent d blk then s else ((lockFlds blk 0 ++ (if blk = 5 then lockFlds 5 0x8000 else [])).foldl (fun (s : Device) f => s.set d f) s)) s) s

/-! ### Steps 2 to 5 -/

/-- Ports that are enabled train (R389, R408). -/
def Device.trainPorts (s : Device) : Device :=
  (List.range 4).foldl (fun (s : Device) d =>
    if s.on d OLINER_CTL_EN then (s.wr d OLINER_STATUS_STATE olTRAINING).setOlPort d { s.olPort d with training := true } else s) s

/-- Step 5: ageing is measured, the REGISTERS sections' digests are checked, and the writes to OLINER blocks and LP5X_CTL are applied; then
LP5X and the links train. A tag is judged with its section at step 8 (R389 names no TAG here). -/
def Device.stepFive (s : Device) (ages : List (Nat × List Nat)) : Device :=
  let s1 := (s.toStage 5).measureAge ages true
  match (s1.sections 4).find? fun i => sha512 (s1.sectionOf i).1 ≠ meDigest (s1.eft.entries.getD i []) with
  | some i => s1.startFail bxDIGEST i noBlk 0
  | none =>
    match s1.applySections true (s1.sections 4) with
    | (s2, some (i, blk, k)) => s2.startFail bxCONTENT i blk k
    | (s2, none) => s2.trainPorts

/-- Step 4: header, key, signature, version, manifest digest and manifest entries, in that order of reasons. -/
def Device.stepFour (s : Device) (ages : List (Nat × List Nat)) : Device :=
  let s := s.toStage 4
  let raw := s.flashBytes 0 0x10000
  let h := raw.take 392
  let f := s.eft.fuses
  let key := if f.life = lcMANUFACTURE then some f.mfgHash else f.owner
  let man := s.flashBytes 0x20000 (128 * ihSections h)
  let entries := (List.range (ihSections h)).map fun i => (man.drop (128 * i)).take 128
  if ¬ headerOk raw then s.startFail bxFORMAT noSect noBlk 0
  else if key ≠ some (sha512 (ihKey h)) then s.startFail bxKEY noSect noBlk 0
  else if ¬ ecdsaOk (beNum (ihKey h)) (sha512 (h.take 260)) (beNum (ihSig h)) then s.startFail bxSIGNATURE noSect noBlk 0
  else if ihSecVersion h < f.version then s.startFail bxVERSION noSect noBlk 0
  else if sha512 man ≠ ihDigest h then s.startFail bxDIGEST noSect noBlk 0
  else
    let s1 := (s.wr 0 EFT_VERSION_IMAGE (ihSecVersion h)).setEft
      { s.eft with header := h, entries := entries, digest := sha512 (h.take 260) }
    match manifestBad f.life h entries with
    | some i => s1.startFail bxFORMAT i noBlk 0
    | none => s1.stepFive ages

/-- Steps 2 and 3: the fuses and the flash's size. -/
def Device.stepTwo (s : Device) (x : StartIn) : Device :=
  let s1 := (s.toStage 2).showFuses
  let l := s1.eft.fuses.life
  if l = lcBLANK ∨ l = lcRETIRED ∨ (l = lcPROVISIONED ∧ s1.eft.fuses.owner.isNone) then s1.startFail bxLIFECYCLE noSect noBlk 0
  else
    match x.flash with
    | none => (s1.toStage 3).startFail bxNO_IMAGE noSect noBlk 0
    | some n => ((s1.toStage 3).setEft { s1.eft with flashSize := n }).stepFour x.ages

/-- Step 1: the bridges that trained are up; with all four the start goes on. -/
def Device.stepOne (s : Device) (x : StartIn) : Device :=
  let up := fun (i : Nat) => x.bridges.getD i false
  let row := fun (s : Device) (d : Nat) (b : Bool) => s.wr d DIE_CTL_BRIDGE_STATUS_ROW_UP (b2n b)
  let col := fun (s : Device) (d : Nat) (b : Bool) => s.wr d DIE_CTL_BRIDGE_STATUS_COL_UP (b2n b)
  let s1 := row (row (row (row s 0 (up 0)) 1 (up 0)) 2 (up 1)) 3 (up 1)
  let s2 := col (col (col (col s1 0 (up 2)) 2 (up 2)) 1 (up 3)) 3 (up 3)
  if up 0 && up 1 && up 2 && up 3 then s2.stepTwo x else s2

/-- The body of DEVICE_START (R389): reset is released, and the start begins; without REFCLK it is held at step 1 (R470). -/
def deviceStartBody (refclk : Bool) (x : StartIn) (s : Device) : Device :=
  if s.eft.begun then s
  else
    let s1 := ((s.drawChallenge EFT_CHALLENGE_WORD).drawChallenge DEBUG_CHALLENGE_WORD).toStage 1
    let s2 := s1.setEft { s1.eft with begun := true, held := !refclk, released := s1.chorus.time }
    if refclk then s2.stepOne x else s2

/-- The body of REFCLK_PRESENT (R470). -/
def refclkBody (x : StartIn) (s : Device) : Device :=
  if s.eft.begun ∧ s.eft.held then (s.setEft { s.eft with held := false }).stepOne x else s

/-- The body of BRIDGE_TRAIN_TIMEOUT: the first bridge that has not trained is the item. -/
def bridgeTimeoutBody (s : Device) : Device :=
  if s.inStart ∧ s.stage = 1 then
    let up := [s.on 0 DIE_CTL_BRIDGE_STATUS_ROW_UP, s.on 2 DIE_CTL_BRIDGE_STATUS_ROW_UP, s.on 0 DIE_CTL_BRIDGE_STATUS_COL_UP,
      s.on 1 DIE_CTL_BRIDGE_STATUS_COL_UP]
    match firstBad (List.range 4) fun i => !(up.getD i false) with
    | some i => s.startFail bxBRIDGE noSect noBlk i
    | none => s
  else s

/-! ### LP5X training and the repair log (steps 5 and 6, R75, R76, R81) -/

/-- Fields of a repair-log entry (R75). -/
def rlValid (e : Nat) : Bool := bit e 63
def rlKind (e : Nat) : Nat := bits e 62 1
def rlBank (e : Nat) : Nat := bits e 49 13
def rlSpare (e : Nat) : Nat := bits e 44 5

/-- An entry has a field out of range. -/
def repairRange (e : Nat) : Bool :=
  decide (bits e 58 2 = 0) || decide (bits e 30 14 ≠ 0) || decide (bits e 10 6 ≠ 0) ||
  (if rlKind e = 0 then decide (12288 ≤ bits e 16 14) || decide (bits e 0 10 ≠ 0)
   else decide (bits e 16 14 ≠ 0) || decide (576 ≤ bits e 0 10) || decide (3 < rlSpare e))

/-- Two entries use one spare, or repair one row or bit line. -/
def repairClash (a b : Nat) : Bool :=
  decide (rlKind a = rlKind b) && decide (rlBank a = rlBank b) && (decide (rlSpare a = rlSpare b) || decide (bits a 0 30 = bits b 0 30))

/-- The entries in use of the log. -/
def Device.repairLog (s : Device) : List Nat :=
  ((List.range 8192).map fun i => byteNum (s.flashBytes (0x10000 + 8 * i) 8) 0 8).takeWhile rlValid

/-- Step 6, and on to the shed wipe. The area holds 8,192 entries; where all are in use, the 8,193rd is the eight bytes that follow it (R76). -/
def Device.stepSix (s : Device) : Device :=
  let l := s.repairLog
  let more := decide (l.length = 8192) && rlValid (byteNum (s.flashBytes 0x20000 8) 0 8)
  let s1 := (s.toStage 6).setEft { s.eft with repair := sha512 (s.flashBytes 0x10000 0x10000) }
  match firstBad (List.range l.length) fun i => repairRange (wd l i) || (List.range i).any fun j => repairClash (wd l i) (wd l j) with
  | some i => s1.startFail bxREPAIR noSect noBlk i
  | none =>
    if more then s1.startFail bxREPAIR noSect noBlk 8192
    else
    let used := fun (d k : Nat) => (l.filter fun e => decide (bits e 60 2 = d) && decide (rlKind e = k)).length
    let s2 := (List.range 4).foldl (fun (s : Device) d =>
      (s.wr d POND_REPAIR_USED_ROWS (used d 0)).wr d POND_REPAIR_USED_BITLINES (used d 1)) s1
    ({ s2 with pond := { s2.pond with repairs := l } }).toStage 7

/-- The body of LP5X_TRAINING_DONE (R81): failed, the next lower rate is tried, below 6,400 MT/s the start fails; done, with each die's
capacity in GiB, the channels are mapped at the smallest of them, at most 32 GiB each, with the top eighth kept for check bits. -/
def lpTrainingBody (ok : Bool) (caps : List Nat) (s : Device) : Device :=
  if ¬ (s.inStart ∧ s.stage = 5) then s
  else
    let rate := s.rd 0 LP5X_CTL_RATE - s.rd 0 EFT_BOOT_STATUS_RATE_STEP
    if ¬ ok then
      if rate = 0 then s.startFail bxLP5X noSect noBlk 0 else s.addHold 0 EFT_BOOT_STATUS_RATE_STEP 1
    else
      let least := min 32 ((List.range 4).foldl (fun m d => min m (wd caps d)) 32)
      let differ := (List.range 4).any fun d => wd caps d ≠ wd caps 0
      let s1 := (List.range 4).foldl (fun (s : Device) d =>
        (((s.wr d LP5X_STATUS_CAP_GIB (wd caps d)).set d LP5X_STATUS_TRAINED).wr d LP5X_STATUS_RATE_ACT rate).wr d LP5X_STATUS_MISMATCH (b2n differ)) s
      (s1.wr 0 LP5X_MAPPED_MAPPED_GIB (if s1.on 0 LP5X_CTL_INLINE_ECC then 4 * least * 7 / 8 else 4 * least)).stepSix

/-! ### WEIGHTS (step 9, R397) -/

/-- The address of byte `k` of a WEIGHTS section. -/
def weightAddr (e : List Nat) (k : Nat) : Nat :=
  let n := max 1 (meLength e / 256)
  columnBase (k / n / 64) (k / n % 64) + meDest e + k % n

/-- Place bytes of a WEIGHTS section from byte `k`. -/
def Device.weightPut (s : Device) (e : List Nat) (k : Nat) (l : List Nat) : Device :=
  (List.range l.length).foldl (fun (s : Device) i => s.setByte (weightAddr e (k + i)) (wd l i)) s

/-- The section as placed has its digest: SHA-512 of the digests of its 1 MiB chunks. -/
def Device.weightsHold (s : Device) (e : List Nat) : Bool :=
  let chunks := (List.range ((meLength e + 0xFFFFF) / 0x100000)).map fun c =>
    toBytes (sha512 ((List.range (min 0x100000 (meLength e - c * 0x100000))).map fun i => s.byte (weightAddr e (c * 0x100000 + i)))) 64
  decide (sha512 chunks.flatten = meDigest e)

/-- Kind of source `src` of a section, and the last source that it names. -/
def srcOf (e : List Nat) (src : Nat) : Nat := byteNum (meSrc e src) 0 1
def lastSrc (e : List Nat) : Nat := if srcOf e 1 = 0 then 0 else 1

/-- The next remote read of a section from a neighbour, if its port is up (R397, R226). -/
def Device.weightRead (s : Device) (e : List Nat) (src k : Nat) : Device :=
  let dev := byteNum (meSrc e src) 2 2
  let port := byteNum (meSrc e src) 1 1
  let n := min (min 240 (meLength e - k)) (max 1 (meLength e / 256) - k % max 1 (meLength e / 256))
  if s.egress dev = some port ∧ s.rd port OLINER_STATUS_STATE = olUP then
    s.remoteReq 0 mManage 0 dev 1 (weightAddr e k) n 15 false false []
  else s

/-- Try the sources of the WEIGHTS sections from section `idx` and source `src` on: a source of kind 0 is skipped, a flash source waits for
the flash to be read, and a section without a source left fails the start. -/
def Device.weightsGo (s : Device) (idx src : Nat) : Nat → Device
  | 0 => s
  | n + 1 =>
    match s.eft.entries[idx]? with
    | none => s.setEft { s.eft with weights := none }
    | some e =>
      if meKind e ≠ 5 then s.weightsGo (idx + 1) 0 n
      else if 2 ≤ src then (s.toStage 9).startFail bxWEIGHTS idx noBlk (lastSrc e)
      else
        let wait := s.setEft { s.eft with weights := some { idx := idx, src := src } }
        match srcOf e src with
        -- an LBA has 512 or 4,096 bytes, so LENGTH must be a multiple of 512 (R397)
        | 1 => if meLength e % 512 = 0 then wait else s.weightsGo idx (src + 1) n
        | 2 => wait.weightRead e src 0
        | 3 =>
          if ¬ s.eft.loaded then wait
          else
            let s1 := s.weightPut e 0 (s.flashBytes (meFlash e) (meLength e))
            if s1.weightsHold e then
              (s1.setEft { s1.eft with served := if meServe e then s1.eft.served ++ [idx] else s1.eft.served }).weightsGo (idx + 1) 0 n
            else s1.weightsGo idx (src + 1) n
        | _ => s.weightsGo idx (src + 1) n

/-- Steps enough for every source of every section. -/
def Device.weightFuel (s : Device) : Nat := 4 * s.eft.entries.length + 4

/-! ### Steps 8 and 10: sections, registers, marks -/

/-- A section is bound for LP5X. -/
def meForLp (e : List Nat) : Bool := (meKind e = 3 || (meKind e = 1 && meUnit e = 0)) && lpBase ≤ meDest e

/-- `n` bytes at `a` lie in the Pond, mapped LP5X, or one die's stores (R395). -/
def Device.placeOk (s : Device) (a n : Nat) (stores : Bool) : Bool :=
  s.inPondOrLp a n ||
  (stores && match s.region a, s.region (a + n - 1) with
    | .store d _, .store c _ => decide (d = c)
    | _, _ => false)

/-- Place bytes in memory. -/
def Device.putBytes (s : Device) (a : Nat) (l : List Nat) : Device := (List.range l.length).foldl (fun (s : Device) i => s.setByte (a + i) (wd l i)) s

/-- Load section `i` (R395); the reason and item with which it fails. -/
def Device.loadSection (s : Device) (i : Nat) : Device × Option (Nat × Nat) :=
  let e := s.eft.entries.getD i []
  let n := meLength e
  match s.sectionOf i with
  | (_, some r) => (s, some (r, 0))
  | (p, none) =>
    match meKind e with
    | 1 =>
      if meUnit e = 0 then
        if s.placeOk (meDest e) n false ∧ meEntry e < n then
          (let t := s.putBytes (meDest e) p
           { t with host := { t.host with entry := meDest e + meEntry e } }, none)
        else (s, some (bxCONTENT, i))
      else
        let isl := (List.range n).foldl (fun m k => SMap.put 0 m (meUnit e * 2 ^ 40 + meDest e + k) (wd p k)) s.eft.island
        (s.setEft { s.eft with island := isl }, none)
    | 2 =>
      if meDest e ≠ 0 ∨ 0x400000 < n then (s, some (bxCONTENT, i))
      else
        let d := meUnit e
        let s1 := (List.range ((n + 3) / 4)).foldl (fun (s : Device) k => s.schedStore d (4 * k) (byteNum p (4 * k) 4)) s
        ((s1.wr d CHORUS_FP_INFO_PHASES (s1.fpPhases d)).wr d CHORUS_FP_INFO_SLICES (s1.fpSlices d), none)
    | 3 => if s.placeOk (meDest e) n true then (s.putBytes (meDest e) p, none) else (s, some (bxCONTENT, i))
    | _ => (s, none)

/-- Load the sections of step 8 in manifest order; the section that fails with its reason and item. -/
def Device.loadSections (s : Device) : List Nat → Device × Option (Nat × Nat × Nat)
  | [] => (s, none)
  | i :: l =>
    if meKind (s.eft.entries.getD i []) = 5 then s.loadSections l
    else match s.loadSection i with
      | (s1, some (r, k)) => (s1, some (i, r, k))
      | (s1, none) => s1.loadSections l

/-- Eft writes the header's tick layout to Chorus (R45), under the rules of R37, R38 and R41; no tick runs yet, so it is in force at once. -/
def Device.layoutFromHeader (s : Device) : Option Device :=
  let h := s.fpHeader 0
  if periodOk (wd h 0) ∧ wd h 0 < 2 ^ 20 ∧ 1 ≤ wd h 1 ∧ wd h 1 ≤ 1024 ∧ wd h 2 < 2 ^ 30 ∧ winLeast (wd h 2) ∧ winFits (wd h 2) (wd h 0) then
    some (((((s.wr 0 CHORUS_TICK_PERIOD_PERIOD_RC (wd h 0)).wr 0 CHORUS_FRAME_LEN_TICKS (wd h 1)).wr 0 CHORUS_WIN_LEN_GOLDEN_LEN
      (winGolden (wd h 2))).wr 0 CHORUS_WIN_LEN_TEST_LEN (winTest (wd h 2))).wr 0 CHORUS_WIN_LEN_SAFETY_LEN (winSafety (wd h 2)))
  else none

/-- The cores that sequence slices name, and the DMA engines that DMA slices name, are reserved (R47, R96). -/
def Device.markReserved (s : Device) : Device :=
  (List.range 4).foldl (fun (s : Device) d =>
    let named := fun (kind : Nat) => (s.kindSlices d kind).flatMap fun i => slUnits (s.sliceRec d i)
    let cores := named 0
    let dma := named 5
    let mask := fun (l : List Nat) (base n : Nat) => ((List.range n).filter fun k => l.contains (base + k)).foldl (fun v k => v + 2 ^ k) 0
    ((List.range 8).foldl (fun (s : Device) k => s.wr d (CLUSTER_CORE_RSV_RSV k) (mask cores (8 * k) 8)) s).wr d DMA_CTL_RSV_MASK (mask dma 500 16)) s

/-- The entries of the groups that the frame program names are copied into each die's schedule memory (R185). -/
def Device.copyGroups (s : Device) : Device :=
  (List.range 4).foldl (fun (s : Device) d =>
    let gs := s.namedGroups.take 16
    let s1 := (List.range gs.length).foldl (fun (s : Device) k =>
      (List.range 16).foldl (fun (s : Device) j => s.schedStore d (0x400 + 64 * k + 4 * j) (s.load (s.collTab + 64 * wd gs k + 4 * j) 4)) s) s
    { s1 with chorus := { s1.chorus with groups := SMap.put [] s1.chorus.groups d gs } }) s

/-- The sync objects that the frame program names are reserved (R217): waits, signals, and the reference objects of the page tables that
its attention commands name. -/
def Device.reserveSyncs (s : Device) : Device :=
  let named := (List.range 4).flatMap fun d => (List.range (s.fpSlices d)).flatMap fun i =>
    let r := s.sliceRec d i
    (if slWaitEn r then [d * 16384 + slWaitSync r] else []) ++ (if slSignalEn r then [d * 16384 + slSignalSync r] else [])
  let refs := (List.range 4).flatMap fun d => (s.kindSlices d 0).flatMap fun i => (s.listAt d i).flatMap fun w =>
    if hdOpcode w ≠ 0x12 then []
    else (List.range (atRows w)).flatMap fun k =>
      let g := s.vaLoad d 0 ((s.rowOf d 0 w k).table + 0x20) 2
      (List.range 4).map (g + ·)
  { s with chorus := { s.chorus with syncRsv := (named ++ refs).eraseDups } }

/-- Writes of stream registers that wait for an edge are in force: no tick runs yet. -/
def Device.flushEdge (s : Device) : Device :=
  { (s.edgeWrites.foldl (fun (s : Device) w => s.wr w.2.1 w.1 w.2.2) s) with edgeWrites := [] }

/-- Step 10 (R389): the remaining register writes, the marks that follow from the frame program, every "Eft refuses", and the locks; then the
islands' injection pass. -/
def Device.stepTen (s : Device) : Device :=
  match (s.toStage 10).applySections false (s.sections 4) with
  | (s1, some (i, blk, k)) => s1.startFail bxCONTENT i blk k
  | (s1, none) =>
    let s2 := s1.flushEdge.copyGroups
    match s2.contentBad with
    | some (blk, k) => s2.startFail bxCONTENT noSect blk k
    | none => (((s2.reserveSyncs).pinPages).lockAll).toStage 11

/-- Both steps 8 and 9 are done: step 10 follows. -/
def Device.afterLoad (s : Device) : Device :=
  if s.inStart ∧ s.eft.loaded then (if s.eft.weights.isNone then s.stepTen else s.toStage 9) else s

/-- A source of the section that loads has failed. -/
def Device.weightsFail (s : Device) : Device :=
  match s.eft.weights with
  | some w => (s.weightsGo w.idx (w.src + 1) s.weightFuel).afterLoad
  | none => s

/-- Bytes of the section that loads have come from its source. -/
def Device.weightsTake (s : Device) (l : List Nat) : Device :=
  match s.eft.weights with
  | none => s
  | some w =>
    let e := s.eft.entries.getD w.idx []
    let k := min l.length (meLength e - w.done)
    let s1 := s.weightPut e w.done (l.take k)
    let s2 := s1.setEft { s1.eft with weights := some { w with done := w.done + k } }
    if w.done + k < meLength e then (if srcOf e w.src = 2 then s2.weightRead e w.src (w.done + k) else s2)
    else if s2.weightsHold e then
      ((s2.setEft { s2.eft with served := if meServe e then s2.eft.served ++ [w.idx] else s2.eft.served }).weightsGo (w.idx + 1) 0 s2.weightFuel).afterLoad
    else s2.weightsFail

/-- The body of NVME_READ_COMPLETE: a read of up to 128 KiB has ended. -/
def nvmeBody (r : ReadEnd) (s : Device) : Device :=
  match s.eft.weights with
  | some w =>
    if srcOf (s.eft.entries.getD w.idx []) w.src ≠ 1 then s
    else match r with
      | .failed => s.weightsFail
      | .data b => s.weightsTake (b.take 0x20000)
  | none => s

/-- The body of WEIGHTS_SOURCE_TIMEOUT: an NVMe drive or a neighbour has not answered in its time; a source in the flash has no limit (R397). -/
def weightsTimeoutBody (s : Device) : Device :=
  match s.eft.weights with
  | some w => if srcOf (s.eft.entries.getD w.idx []) w.src = 3 then s else s.weightsFail
  | none => s

/-- A neighbour has answered a read of a WEIGHTS section; a neighbour that does not serve it yet is asked again. -/
def Device.weightsReply (s : Device) (n status data : Nat) : Device :=
  match s.eft.weights with
  | some w =>
    let e := s.eft.entries.getD w.idx []
    if srcOf e w.src ≠ 2 then s
    else if status = stDONE then s.weightsTake (toBytes data n)
    else s.weightRead e w.src w.done
  | none => s

/-- A port has come up: the read of a section that waits for it leaves. -/
def Device.weightsPort (s : Device) (die : Nat) : Device :=
  match s.eft.weights with
  | some w =>
    let e := s.eft.entries.getD w.idx []
    if srcOf e w.src = 2 ∧ byteNum (meSrc e w.src) 1 1 = die ∧ ¬ (s.oliner.reqs.any fun r => decide (r.tag.id / 256 % 256 = mManage)) then
      s.weightRead e w.src w.done
    else s
  | none => s

/-- The body of SHED_WIPE_DONE (R79): a die's Pond and stores are wiped; with the last die, the sections begin to load. -/
def shedWipeBody (die : Nat) (s : Device) : Device :=
  if ¬ (s.inStart ∧ s.stage = 7) then s
  else
    let s1 := (s.wipeDie die).wipeUnits
    if (List.range 4).all fun d => s1.on d POND_STATUS_WIPE_DONE then (s1.toStage 8).weightsGo 0 0 s1.weightFuel else s1

/-- The body of LP5X_WIPE_DONE (R84). -/
def lpWipeBody (s : Device) : Device := if s.inStart ∧ 8 ≤ s.stage ∧ ¬ s.pond.lpWiped then s.wipeLp else s

/-- The body of SECTION_LOAD_DONE: the sections of step 8 are in place, with the self-test sequences that the image carries for each die,
and Eft has checked them; a section bound for LP5X waits for the wipe. -/
def sectionLoadBody (seqs : List (List (List Nat))) (s : Device) : Device :=
  if ¬ (s.inStart ∧ s.stage = 8 ∧ ¬ s.eft.loaded) ∨ (s.eft.entries.any meForLp ∧ ¬ s.pond.lpWiped) then s
  else
    match s.loadSections (List.range s.eft.entries.length) with
    | (s1, some (i, r, k)) => s1.startFail r i noBlk k
    | (s1, none) =>
      match s1.layoutFromHeader with
      | none => s1.startFail bxCONTENT ((s1.sections 2).headD noSect) 1 0
      | some s2 =>
        match (List.range 4).find? fun d => (s2.programBad d).isSome with
        | some d => s2.startFail bxCONTENT (((s2.sections 2).find? fun i => meUnit (s2.eft.entries.getD i []) = d).getD noSect) 1
            ((s2.programBad d).getD 0)
        | none =>
          let s3 := s2.markReserved
          let s4 := (List.range 4).foldl (fun (s : Device) d => s.setTester d { s.tester d with seq := seqs.getD d [] }) s3
          let s5 := s4.setEft { s4.eft with loaded := true }
          (match s5.eft.weights with
            | some w => if srcOf (s5.eft.entries.getD w.idx []) w.src = 3 then s5.weightsGo w.idx w.src s5.weightFuel else s5
            | none => s5).afterLoad

/-! ### Steps 11 to 13 -/

/-- Both islands enter START with the Tail active on every die (R345), and fusion is at F4 for want of an ego state (R347). -/
def Device.islandsStart (s : Device) : Device :=
  let s1 := [0, 1].foldl (fun (s : Device) i =>
    (((s.clr i SAFETY_STATUS_MODE).wr i SAFETY_STATUS_TAIL_STATE 3).set i SAFETY_STATUS_TAIL_ACTIVE)) s
  ((s1.tailActive).wr 0 FUSION_STATUS_LEVEL 4).wr 0 FUSION_STATUS_F4_CAUSE 1

/-- At ready a slot is enabled as its descriptor says (R309), a channel's applied value is SAFE (R323), and a program whose image carries a
factor has it in force (R295). -/
def Device.reflexStart (s : Device) : Device :=
  (List.range 4).foldl (fun (s : Device) d =>
    let s1 := (List.range 128).foldl (fun (s : Device) n =>
      let x := s.descriptor d n
      s.wr d (REFLEX_CTRL_SLOT_STATUS_EN n) (b2n (slEn x && decide (slLaw x ≠ 0)))) s
    let s2 := (List.range 16).foldl (fun (s : Device) c => s.wr d (REFLEX_CTRL_LIM_LAST_VALUE c) (s.rd d (REFLEX_CTRL_LIM_SAFE_VALUE c))) s1
    (List.range 16).foldl (fun (s : Device) p =>
      s.wr d (REFLEX_SOLVE_PROG_STATE_FACTOR p) (b2n (s.on d (REFLEX_SOLVE_PROG_VALID p) && shFactInit (s.header d p)))) s2) s

/-- Harts that the debugger holds at reset halt before their first instruction (R454). -/
def Device.haltAtReset (s : Device) : Device :=
  (List.range 16).foldl (fun (s : Device) h => if s.debugOpen ∧ SMap.get 0 s.probe.dm (0x2000 + h) ≠ 0 then s.haltNow (0x10000 + h) else s) s

/-- Step 13 (R389, R370, R398): the first grant, READY, the host cores, the islands' START, and the version fuses that RAISE blows: the
burn lasts to the first sample edge (DESIGN CHOICE, entry 231), and a reset before it leaves FUSE_MIN between the old value and the new one. -/
def Device.becomeReady (s : Device) : Device :=
  let t := s.chorus.time
  let s1 := ((s.toStage 13).firstGrant.set 0 EFT_BOOT_STATUS_READY).wr 0 EFT_BOOT_STATUS_BOOT_MS (min 0xFFFF ((t - s.eft.released) / 1000000))
  let s2 := (s1.islandsStart).reflexStart
  let s3 := ({ s2 with host := { s2.host with started := true }, bask := { s2.bask with readyAt := t, aged := t } }).haltAtReset
  let f := s3.eft.fuses
  if ihFlags s3.eft.header = 1 ∧ f.version < ihSecVersion s3.eft.header then
    (s3.setEft { s3.eft with fuses := { f with version := ihSecVersion s3.eft.header }, burn := some f.version }).wr 0 EFT_VERSION_FUSE_MIN
      (ihSecVersion s3.eft.header)
  else s3

/-- The body of INJECTION_PASS_DONE (R352): the class and checker that stayed silent, if one did, and the time of the pass in 100 µs. -/
def injectionBody (fail : Option (Nat × Nat)) (time : Nat) (s : Device) : Device :=
  if ¬ (s.inStart ∧ s.stage = 11) then s
  else
    let ok := fail.isNone && decide (time ≤ 400)
    let x := fail.getD (0, 0)
    let s1 := [0, 1].foldl (fun (s : Device) i =>
      ((((s.set i SAFETY_INJ_STATUS_DONE).wr i SAFETY_INJ_STATUS_PASS (b2n ok)).wr i SAFETY_INJ_STATUS_CLASS x.1).wr i
        SAFETY_INJ_STATUS_TIME_100US time).wr i SAFETY_INJ_DETAIL_INDEX x.2) s
    if ¬ ok then s1.startFail bxINJECTION noSect noBlk 0
    else if s1.on 0 CHORUS_CTL_GPTP_EN then s1.toStage 12
    else (s1.toStage 12).becomeReady

/-- The body of GPTP_STEP_TIMEOUT (R389, step 12). -/
def gptpTimeoutBody (s : Device) : Device :=
  if s.inStart ∧ s.stage = 12 then (s.set 0 EFT_BOOT_STATUS_UNSTEPPED).becomeReady else s

/-- The body of ETH_FRAME_RECEIVE: the frame, and at step 12 the offset that it completes lets the start end. -/
def ethFrameReceiveBody (die p : Nat) (b : List Nat) (fcsOk : Bool) (time : Nat) (gptp : Option Int) (s : Device) : Device :=
  let s1 := s.ethFrame die p b fcsOk time gptp
  if s1.inStart ∧ s1.stage = 12 ∧ s1.eft.stepped then s1.becomeReady else s1

/-! ### Resets (R388, R468 to R470) -/

/-- The bodies of POWER_ON, RESET_N and RAIL_UNDERVOLTAGE; power-on also takes the debugger's state away. -/
def powerOnBody (s : Device) : Device := { s.fullReset with probe := {} }
def resetNBody (s : Device) : Device := s.fullReset
def railBody (s : Device) : Device := s.fullReset

/-- The body of PMB_ALERT (R468): a fault of an enabled rail resets the device. -/
def pmbAlertBody (faults : List Nat) (s : Device) : Device :=
  if faults.any fun n => decide (n < 8) && s.on 0 (BASK_RAIL_EN n) then s.fullReset else s

/-- The body of MR4_TEMPERATURE_REPORT (R80): a channel's refresh-rate code and whether it reports hot. -/
def mr4Body (die rate : Nat) (hot : Bool) (s : Device) : Device :=
  let s1 := s.wr die LP5X_TEMP_REFRESH_RATE rate
  if hot then s1.set die LP5X_TEMP_HOT else s1

end Sys2Proof.Machine
end

