-- ==== Sys2Proof/Machine/Replies.lean ====
section
/-!
DEFINITION. What arrives over Oliner beside requests: replies and acknowledgements (R406, R432, R433), tick and heartbeat flits
(R56, R195, R410, R411), delay probes, and the contributions, partials and notices of collectives (R155, R189, R192).
-/
namespace Sys2Proof.Machine

/-- An answer that no waiting request takes is dropped and counted (R411, R433): in DROPPED if the loss of the partner ended its request, as a
late drop otherwise. -/
def Device.strayReply (s : Device) (die : Nat) (t : TagId) : Device :=
  if (s.olPort die).dead.contains t then s.addHold die OLINER_ERR_COUNT_DROPPED 1 else s.addHold die DIE_CTL_ERR_COUNT_LATE_DROP 1

/-- The waiting request of a KIND that an answer belongs to (R433, R436): tag, generation and epochs agree. -/
def Device.waitingReq (s : Device) (t : TagId) (kind : Nat) : Option RemoteReq :=
  s.oliner.reqs.find? fun r => r.tag = t ∧ r.kind = kind

/-- A remote request is answered: it waits no more, and its requester goes on: a DMA engine (R99), or Eft's read of a WEIGHTS section
(R397). -/
def Device.takeReply (s : Device) (r : RemoteReq) (status data : Nat) : Device :=
  let s1 : Device := { s with oliner := { s.oliner with reqs := s.oliner.reqs.erase r } }
  match tagEngine r.tag.id with
  | some (d, e) => s1.dmaReply d e r.len status data
  | none => s1.weightsReply r.len status data

/-- The body of OLINER_READ_REPLY (R406, R432, R433). -/
def readReplyBody (die : Nat) (h : FlitHead) (t : TagId) (status data : Nat) (s : Device) : Device :=
  s.receive die 2 h [t.id, t.gen, t.epoch, status, data] fun (s : Device) =>
    match s.waitingReq t 1 with
    | some r => s.takeReply r status (data % 256 ^ r.len)
    | none => s.strayReply die t

/-- The body of OLINER_WRITE_ACK (R406, R432, R433). -/
def writeAckBody (die : Nat) (h : FlitHead) (t : TagId) (status : Nat) (s : Device) : Device :=
  s.receive die 4 h [t.id, t.gen, t.epoch, status] fun (s : Device) =>
    match s.waitingReq t 3 with
    | some r => s.takeReply r status 0
    | none => s.strayReply die t

/-- A heartbeat or tick flit from the port's own partner, which set out with all its hops, counts towards the port's return (R411). -/
def Device.fromPartner (s : Device) (die : Nat) (h : FlitHead) (lastApplied : Nat) : Device :=
  if h.hops = 15 then s.heartbeat die h.src lastApplied else s

/-- A point that goes with a tick or heartbeat flit in a group with SYNC_OP (R195): a member's grant (code 1), which its leader takes, or the
leader's agreed point (code 2), which a member takes. -/
def Device.takeNote (s : Device) (src : Nat) (note : Option (Nat × Nat)) : Device :=
  match s.syncOpGroup, note with
  | some (_, members), some (1, g) =>
    if members.headD 0 = s.ownId ∧ members.contains src ∧ src ≠ s.ownId then s.takeGrant src g else s
  | some (_, members), some (2, g) => if members.headD 0 = src ∧ src ≠ s.ownId then s.takeAgreed g else s
  | _, _ => s

/-- The body of TICK_FLIT (R56, R57, R195, R410): the device time of the source's edge, its frame position, the number of the remote add it applied last (R435), and an agreed point that goes with it. -/
def tickArriveBody (die : Nat) (h : FlitHead) (stamp : TickStamp) (lastApplied : Nat) (note : Option (Nat × Nat)) (s : Device) : Device :=
  s.receive die 7 h ([stamp.time, stamp.pos, lastApplied] ++ (note.elim [] fun x => [x.1, x.2])) fun (s : Device) =>
    (tickFlitBody die stamp (s.fromPartner die h lastApplied)).takeNote h.src note

/-- The body of HEARTBEAT_FLIT (R195, R337, R410, R411, R435): what the partner says of its Tail, its lock state and its point is kept, an active
Tail raises PARTNER, and the remote adds that the partner has applied are resolved when the port returns. -/
def heartbeatBody (die : Nat) (h : FlitHead) (time ticks pos grant : Nat) (tail : Bool) (lock lastApplied : Nat)
    (note : Option (Nat × Nat)) (s : Device) : Device :=
  s.receive die 8 h ([time, ticks, pos, grant, b2n tail, lock, lastApplied] ++ (note.elim [] fun x => [x.1, x.2])) fun (s : Device) =>
    let s1 := if note.isSome then s else s.fromPartner die h lastApplied
    let s2 := if h.hops = 15 then s1.setOlPort die { s1.olPort die with tail := tail, lock := lock % 4, grant := grant } else s1
    let s3 := if tail then s2.partnerFault h.src die else s2
    s3.takeNote h.src note

/-- The body of DELAY_PROBE (R56): the probe of this device's own link delay comes back after a round trip. -/
def probeArriveBody (die : Nat) (h : FlitHead) (roundTripNs : Nat) (s : Device) : Device :=
  s.receive die 11 h [roundTripNs] (delayProbeBody die roundTripNs)

/-- Words that arrive in several flits (R406): all but the last flit only take their places in the order of the link, and the last one
performs. `h` is the last one's header. -/
def Device.receiveWords (s : Device) (die kind : Nat) (h : FlitHead) (head words : List Nat) (perform : Device → Device) : Device :=
  let l := if words.isEmpty then [[]] else flitChunks words
  let n := l.length
  let s1 := ((l.take (n - 1)).zipIdx).foldl (fun (s : Device) x =>
    s.receive die kind { h with seq := (h.seq + 4096 * n + x.2 + 1 - n) % 4096, cr := 0 } (head ++ x.1) id) s
  s1.receive die kind h (head ++ l.getLastD []) perform

/-- The body of COLLECTIVE_CONTRIBUTION (R189, R193, R406). -/
def contributionArriveBody (h : FlitHead) (a : Arrival) (s : Device) : Device :=
  s.receiveWords a.die 9 h [a.group, a.seq, a.kind, a.units, a.rows] (a.data.flatMap fun x => x.1 :: x.2) (contributionBody a)

/-- The body of ABANDON_NOTICE (R192, R406). -/
def noticeArriveBody (die : Nat) (h : FlitHead) (group seq status : Nat) (s : Device) : Device :=
  s.receive die 10 h [group, seq, status] (abandonNoticeBody die group seq status)

/-- The body of MERGE_PARTIAL (R154, R155, R406): a partial of this device's trees, or another member's. -/
def partialArriveBody (m : MergeFrom) (s : Device) : Device :=
  match m with
  | .node _ _ _ _ => mergePartialBody m s
  | .member h die group seq _ row heads => s.receiveWords die 9 h [group, seq, row] heads.flatten (mergePartialBody m)

/-- The body of RETRAIN_DONE (R397, R408, R436): a port that comes up takes a read of WEIGHTS that waits for it. -/
def retrainBody (die : Nat) (ok : Bool) (lastApplied : Nat) (s : Device) : Device :=
  let s1 := retrainDoneBody die ok lastApplied s
  if s1.rd die OLINER_STATUS_STATE = olUP then s1.weightsPort die else s1

end Sys2Proof.Machine
end

