-- ==== Sys2Proof/Machine/Run.lean ====
section
/-!
DEFINITION. The events of slices (R48 to R52), of core ports (R20, R21), of DMA descriptors (R96 to R101), of commands that end (R207) and
of kernels that are stopped (R220, R221), and the opening of the test window (R72).
-/
namespace Sys2Proof.Machine

/-! ### Core ports (R20, R21, R30, R74, R77) -/

/-- What a core port reaches (R20, R30): the core's own column while the Pond's ports run, its own core store, its cluster's store. -/
def Device.portStatus (s : Device) (core a n : Nat) : Nat :=
  let one := fun (x : Nat) => match s.region x with
    | .pond d c _ => if d = core / 64 ∧ c = core % 64 then (if 2 ≤ s.rd d POND_STATUS_MODE then stRETAINED else stDONE) else stUNMAPPED
    | .store d off =>
      if d = core / 64 ∧ (off / 0x40000 = core % 64 ∧ off < 0x1000000 ∨ 0x1000000 ≤ off ∧ off < 0x2000000 ∧ (off - 0x1000000) / 0x200000 = core % 64 / 8)
      then stDONE else stUNMAPPED
    | _ => stUNMAPPED
  if one a = stDONE then one (a + n - 1) else one a

/-- A failed core-port access ends the core's work (R31, R69, R78, R174, R431). -/
def Device.portFails (s : Device) (core : Nat) (w : Work) (status : Nat) (inside : Bool) : Device :=
  let s1 := if status = stUNCORRECTABLE then s.chunksStop [core] inside else s
  s1.failWork w status

/-- One access of a core port: the read of one fc is served before its write (R21). -/
def Device.portRead (s : Device) (core : Nat) (w : Work) (a n : Nat) (inside : Bool) : Device :=
  let st := s.portStatus core a n
  if st = stDONE then
    let r := s.readChk (core / 64) (core % 64) a n
    let s1 := r.1.answer r.2.1 r.2.2
    if r.2.1 = stDONE then s1 else s1.portFails core w r.2.1 inside
  else ((s.accessError (core / 64) (core % 64) a st false).answer st 0).portFails core w st inside

def Device.portWrite (s : Device) (core : Nat) (w : Work) (a n v : Nat) (inside : Bool) : Device :=
  let st := s.portStatus core a n
  if st = stDONE then
    let r := s.writeChk (core / 64) (core % 64) a n v
    if r.2 = stDONE then r.1 else (r.1.answer r.2 0).portFails core w r.2 inside
  else ((s.accessError (core / 64) (core % 64) a st true).answer st 0).portFails core w st inside

/-- The body of CORE_PORT_ACCESS: the read and the write of one fc. At OP0 the core ports stand (R77). `inside` says that a chunk of
the core is in a step's write stage (R174). -/
def corePortBody (core : Nat) (w : Work) (read : Option (Nat × Nat)) (write : Option (Nat × Nat × Nat)) (upsets : List Upset)
    (inside : Bool) (s : Device) : Device :=
  let s := s.arise upsets
  if s.rd (core / 64) POND_STATUS_MODE = 1 then s
  else
    let s1 := match read with | some (a, n) => s.portRead core w a n inside | none => s
    match write with | some (a, n, v) => s1.portWrite core w a n v inside | none => s1

/-! ### The test window (R68, R72 to R74) -/

/-- The body of TEST_WINDOW_START: the fix slot and the scrub burst of every die. -/
def testWindowBody (upsets : List Upset) (s : Device) : Device :=
  (List.range 4).foldl (fun (s : Device) d => (s.fixSlot d).scrubBurst d (s.heldWord d)) (s.arise upsets)

/-! ### Slices (R47 to R52) -/

/-- A unit that a slice names is disabled (R438). -/
def Device.unitOff (s : Device) (die unit : Nat) : Bool :=
  if unit < 64 then s.coreDisabled (die * 64 + unit)
  else if 500 ≤ unit then bit (s.rd die DIE_CTL_DISABLED_DMA_ENGINES) (unit - 500)
  else false

/-- The record of a host notification (R203). -/
def Device.notifyHost (s : Device) (x : SliceRun) : Device :=
  s.cqWrite frameRing (cqRecord x.tick (s.rd 0 CHORUS_FRAME_COUNT_FRAMES) stDONE 0 0 0 (x.die * 256) x.idx)

/-- Lent kernels on cores that a slice takes are stopped (R220). -/
def Device.stopLent (s : Device) (x : SliceRun) (inside : Bool) : Device :=
  (s.disp.kernels.filter fun k => k.cores.any fun c => decide (c / 64 = x.die) && x.units.contains (c % 64)).foldl
    (fun (s : Device) k => (s.chunksStop k.cores inside).stopKernel k) s

/-- The body of SLICE_START (R48): a slice that may start does. A host notification is one message (R203); a slice on a Pond in RETAIN or
WAKING ends RETAINED (R78), one on a disabled unit DISABLED (R438); the fusion slice of die 0 merges the contributions (R245). -/
def sliceStartBody (die idx : Nat) (inside : Bool) (s : Device) : Device :=
  match s.dueSlice die idx with
  | none => s
  | some x =>
    if ¬ s.sliceReady x then s
    else
      let s1 := s.setSlices (s.chorus.slices.map fun y => if y = x then { x with started := true } else y)
      if x.kind = 6 then (s1.notifyHost x).endRun x stDONE
      else if x.kind = 0 ∧ 2 ≤ s.rd die POND_STATUS_MODE then s1.endRun x stRETAINED
      else if x.units.any (s.unitOff die) then s1.endRun x stDISABLED
      else if x.kind = 0 then s1.stopLent x inside
      else if x.kind = 4 ∧ die = 0 then s1.fusionMerge
      else s1

/-- Work of a slice is still in hand: a command on a core, a descriptor on an engine, a solve or a refresh, checks or a prepared
UPDATE. -/
def Device.sliceBusy (s : Device) (die idx : Nat) : Bool :=
  (s.disp.cmds.any fun e => match e.2 with | some c => decide (c.work = .slice die idx) && !c.ended | none => false) ||
  (s.xlate.dma.any fun e => match e.2 with | some (some w, _, _) => decide (w = .slice die idx) | _ => false) ||
  ((List.range 16).any fun p =>
    (match s.solveOf die p with | some z => decide (z.slice = idx) && z.running | none => false) ||
    (match s.refreshOf die p with | some z => decide (z.slice = idx) | none => false)) ||
  s.collBusy die idx

/-- The body of SLICE_END (R47, R48): the slice's work has ended, and its units are free. -/
def sliceEndBody (die idx : Nat) (s : Device) : Device :=
  match s.findSlice die idx with
  | some x => if x.started ∧ ¬ s.sliceBusy die idx then s.endSlice die idx stDONE else s
  | none => s

/-- The body of SLICE_DEADLINE (R50): a slice that has not ended has overrun, and its unit is told: the solver engines and the planning
sequencer act as their chapters say. `rest` holds the commands of a collision slice's list that have not run. -/
def sliceDeadlineBody (die idx : Nat) (rest : List (List Nat)) (s : Device) : Device :=
  match s.chorus.slices.find? fun x => x.die = die ∧ x.idx = idx ∧ x.late = false ∧ ¬ (x.edges = 0 ∧ s.rc < s.sliceDeadline die idx) with
  | none => s
  | some x =>
    if x.kind = 6 then s
    else
      let s1 := s.overrun x
      if ¬ x.started then s1
      else if x.kind = 1 then (s1.solverDeadline die idx).settleSolve die idx
      else if x.kind = 3 then (s1.collisionDeadline die idx rest).settleCollide die idx
      else s1

/-- Commands of a work item are abandoned: its collectives end, the rows of its attention commands end, what waits to be issued is
forgotten, and its cores are free; what they wrote is left undefined. -/
def Device.abandonWork (s : Device) (w : Work) (status collStatus : Nat) : Device :=
  let s1 := (s.coll.active.filter fun c => c.dead.isNone && decide (c.work = w)).foldl (fun (s : Device) c => s.collEnds c collStatus true) s
  let s2 := (s1.att.cmds.filter fun a => a.issue.work = w).foldl (fun (s : Device) a => s.attEndAll a.lead status) s1
  let s3 : Device := { s2 with
    att := { s2.att with cmds := s2.att.cmds.filter fun a => a.issue.work ≠ w }
    coll := { s2.coll with held := s2.coll.held.filter fun h => h.issue.work ≠ w } }
  s3.disp.cmds.foldl (fun (s : Device) e =>
    match e.2 with
    | some c => if c.work = w then (s.undefine c.wrote).setCmd e.1 none else s
    | none => s) s3

/-- A slice's engines stop at its hard limit: a local descriptor has moved some of its units, as many as a free value says (DESIGN CHOICE, 203). Descriptors keep their
progress, and go with it to job 0's fault queue as a record of kind
0x0 (R108), whose address the manual does not give. -/
def Device.stopSliceDma (s : Device) (die idx : Nat) : Device :=
  (List.range 16).foldl (fun (s : Device) e =>
    match s.dmaRun die e with
    | some (some w, entry, d) =>
      if w = .slice die idx then
        let remote := dmSrcRemote d || dmDstRemote d
        let far := if remote then (s, d, none, stDONE)
          else let n := Config.freeWord s.fresh % (dmUnits d + 1); { s with fresh := s.fresh + 1 }.dmaMove die e 0 d (dmRows d) 0 n
        let s : Device := far.1
        let d := far.2.1
        let s1 := s.raiseFault die (mDma + e) w entry 0 (Config.freeWord s.fresh % 2 ^ 48) false (dmStatus d stDEADLINE)
        let s2 : Device := { s1 with
          fresh := s1.fresh + 1
          oliner := { s1.oliner with reqs := s1.oliner.reqs.filter fun r => tagEngine r.tag.id ≠ some (die, e) } }
        (s2.dmaFree die e).dmaErr die e 0 stDEADLINE
      else s
    | _ => s) s

/-- A reflex slice's engines stop at its hard limit (R50). -/
def Device.stopSliceReflex (s : Device) (die idx : Nat) : Device := ((s.solverDeadline die idx).collisionDeadline die idx []).noFail

/-- A slice has reached its hard limit (R50). -/
def Device.atHardLimit (s : Device) (x : SliceRun) : Bool :=
  match x.kind with
  | 0 => 2 ≤ x.edges
  | 5 => 1 ≤ x.edges
  | 6 => false
  | _ => 1 ≤ x.edges || s.testStart ≤ s.rc

/-- The body of SLICE_HARD_LIMIT (R50, R52, R108, R174, R191): the slice is ended with DEADLINE. -/
def hardLimitBody (die idx : Nat) (inside : Bool) (s : Device) : Device :=
  match s.chorus.slices.find? fun x => x.die = die && x.idx = idx && s.atHardLimit x with
  | none => s
  | some x =>
      let s1 := if x.late then s else s.overrun x
      let s2 := if ¬ x.started then s1 else match x.kind with
        | 0 => s1.chunksStop (x.units.map (die * 64 + ·)) inside
        | 5 => s1.stopSliceDma die idx
        | _ => s1.stopSliceReflex die idx
      -- the slice's open collectives end first, and with them the slice, whose branch then waits for their deadline (R191, R192)
      let s3 := if x.kind = 0 ∧ x.started then s2.sliceCollEnds die idx else s2
      let s4 := if s3.chorus.slices.any fun y => y.is x then s3.endRun x stDEADLINE else s3
      if x.kind = 0 ∧ x.started then s4.abandonWork (.slice die idx) stDEADLINE stCOLL_TIMEOUT else s4

/-! ### Kernels that are stopped (R220, R221) -/

/-- A kernel is stopped with DEADLINE, with everything its commands have in flight. -/
def Device.haltKernel (s : Device) (k : Kernel) (inside : Bool) : Device :=
  (((s.chunksStop k.cores inside).stopKernel k).abandonWork (.ring k.ring) stDEADLINE stDEADLINE)

/-- The body of KERNEL_BOUND_STOP (R220): a lent kernel at its bound, or at a recovery slice's start on its core. -/
def kernelBoundBody (ring : Nat) (inside : Bool) (s : Device) : Device :=
  match s.kernelOf ring with
  | some k => if k.lent ∧ s.boundReached k then s.haltKernel k inside else s
  | none => s

/-- The body of KERNEL_TICKS_LIMIT (R221): a kernel on free cores that has run for KERNEL_TICKS ticks. -/
def kernelTicksBody (ring : Nat) (inside : Bool) (s : Device) : Device :=
  match s.kernelOf ring with
  | some k =>
    if ¬ k.lent ∧ s.rd 0 DISPATCH_CTL_KERNEL_TICKS ≤ k.ticks ∧ s.kernelCounts k then s.haltKernel k inside else s
  | none => s

/-! ### DMA descriptors (R96 to R101) -/

/-- The descriptor that an engine may take now (R96, R97, R206, R438): the entry at HEAD of a ring of DMA descriptors that has none in
hand, on an engine that is not reserved; or one of a started DMA slice's list, on its engine. -/
def Device.dmaNext (s : Device) (die e : Nat) (w : Work) (k : Nat) : Option (Nat × List Nat) :=
  if (s.dmaRun die e).isSome ∨ bit (s.rd die DIE_CTL_DISABLED_DMA_ENGINES) e ∨ s.isFenced die (mDma + e) then none
  else match w with
    | .ring g =>
      let r := s.ring g
      if g / 65536 = die ∧ r.state = 1 ∧ rdDma r.desc ∧ ((s.job r.job).state = 1 ∨ (s.job r.job).state = 3) ∧ ¬ s.jobParked r.job ∧ r.head ≠ r.tail ∧
          r.held = [] ∧ ¬ s.ringStarted g ∧ ¬ bit (s.rd die DMA_CTL_RSV_MASK) e ∧ ¬ bit (s.rd 0 BASK_PARK_PARKED) (rdClass r.desc) then
        some (r.head, s.ringEntry g r.head)
      else none
    | .slice d idx =>
      match s.findSlice d idx with
      | some x =>
        if d = die ∧ x.started ∧ x.kind = 5 ∧ x.units.contains (500 + e) then
          some (k, (List.range 16).map (s.cmdWord die (slCommand (s.sliceRec die idx) + k)))
        else none
      | none => none

/-- The body of DMA_DESCRIPTOR_START (R97, R98): the engine takes the descriptor, and a malformed one ends with no access; one of a ring that
would add to a reserved object is refused (R217). -/
def dmaStartBody (die e : Nat) (w : Work) (k : Nat) (s : Device) : Device :=
  match s.dmaNext die e w k with
  | none => s
  | some (entry, d) =>
    let job := s.workJob w
    let s1 := match w with | .ring g => s.fetchHead g | .slice _ _ => s
    let s2 := (((s1.setDma die e (some (some w, entry, d))).set die (DMA_ENG_STATUS_BUSY e)).wr die (DMA_ENG_STATUS_JOB e) job).addWrap
      die DMA_AUDIT_DESC_OUT 1
    let st := match w with | .ring g => (s.headRead g).2 | .slice _ _ => stDONE
    if st ≠ stDONE then s2.dmaEnd die e w entry d st
    else if dmBad s.ownId d then s2.dmaEnd die e w entry d stBAD_DESCRIPTOR
    else if job ≠ 0 ∧ dmSignalEn d ∧ ¬ dmSignalRemote d ∧ s.syncReserved (dmSync d) then
      (match w with | .ring g => s2.dispatchErr g 0x11 | .slice _ _ => s2).dmaEndWith die e w entry d stBAD_COMMAND 0x11
    else if dmSrcRemote d || dmDstRemote d then s2.dmaIssue die e
    else s2

/-- Detections that a descriptor of job 0 has written into the detection queue of die 0's fusion store (R255). -/
def Device.takeDetections (s : Device) (die : Nat) (d : List Nat) (first : Nat) : Device :=
  let base := fusionBase 0 + 0x240000
  let rows := (List.range (dmRows d - first)).filterMap fun i =>
    (s.paOf die 0 (dmDst d + (first + i) * dmDstStride d)).filter fun a => decide (a < base + 0x10000) && decide (base < a + dmLength d)
  rows.foldl (fun (s : Device) a =>
    ((List.range 1024).filter fun k => decide (a ≤ base + 64 * k) && decide (base + 64 * k + 64 ≤ a + dmLength d)).foldl Device.dmaDetection s) s

/-- A descriptor is complete (R99, R100): STATUS DONE is written and SIGNAL_ADD is added, here or on the remote device. -/
def Device.dmaComplete (s : Device) (die e : Nat) (w : Work) (entry : Nat) (d : List Nat) : Device :=
  let job := s.workJob w
  let cls := match w with | .ring g => rdClass (s.ring g).desc | .slice _ _ => 0
  let s1 := s.dmaEnd die e w entry d stDONE
  if ¬ dmSignalEn d then s1
  else if dmSignalRemote d then (s1.remoteAdd die (dmDev d) (dmSync d) (dmAdd d) cls (decide (job = 0)) (decide (job = 0)) []).1
  else s1.syncAddFrom die (mDma + e) (dmSync d) (dmAdd d)

/-- The body of DMA_DESCRIPTOR_DONE (R99, R102): the descriptor's data is moved from its progress words on, and it ends; a fault parks or
ends it, an error ends it, and a fenced engine ends FENCED (R436). One with a remote side ends once its last unit has been answered. -/
def dmaDoneBody (die e : Nat) (upsets : List Upset) (s : Device) : Device :=
  let s := s.arise upsets
  match s.dmaRun die e with
  | some (some w, entry, d) =>
    let job := s.workJob w
    if s.on die (DMA_ENG_STATUS_PARKING e) then s
    else if dmSrcRemote d || dmDstRemote d then
      if dmRows d ≤ dmDoneRows d then s.dmaComplete die e w entry d else s
    else if s.dmaFenced die e then
      (s.fencedErr die (mDma + e) (dmSrc d + dmDoneRows d * dmSrcStride d + dmDoneBytes d) false false).dmaEnd die e w entry d stFENCED
    else match s.dmaMove die e job d (dmRows d) 0 (dmUnits d) with
      | (s1, d1, some (r, va, wr), _) => s1.dmaFault die e w entry d1 r va wr
      | (s1, d1, none, st) =>
        if st ≠ stDONE then s1.dmaEnd die e w entry d1 st
        else
          let s2 := s1.dmaComplete die e w entry d1
          if job = 0 then s2.takeDetections die d (dmDoneRows d) else s2
  | _ => s

/-! ### The end of a core's command (R207) -/

/-- A core's command has work in flight: rows, an open or held collective, a chunk, a model copy, a resolve, or a fault to be parked. -/
def Device.cmdBusy (s : Device) (core : Nat) : Bool :=
  (s.att.cmds.any fun a => a.issue.cores.contains core && a.rows.any fun r => r.stage ≠ .ended) ||
  (s.coll.active.any fun c => c.dead.isNone && c.attn.isNone && c.parts.any fun p => p.core = core) ||
  (s.coll.held.any fun h => h.issue.cores.contains core) || (s.chunks.any fun c => c.cores.contains core) ||
  (s.disp.loads.any fun l => l.2.2.contains core) || (s.err.radds.any fun a => a.cores.contains core && !a.unresolved) || (s.coll.resolves.any fun q => q.core = core) ||
  s.xlate.faults.any fun f => f.die = core / 64 && f.unit = core % 64 && !f.dma && !f.terminal && (f.stage = .raised || f.heldCore)

/-- The body of COMMAND_END (R207, R213, R219, R455): the core has ended its command, whose record is written once every core has; the core then
stands at a stopping point. -/
def commandEndBody (core : Nat) (s : Device) : Device :=
  match s.cmd core with
  | none => s
  | some c => if c.ended ∨ s.cmdBusy core then s else (s.coreEnds core).stopPoint core (c.entry + 1)

end Sys2Proof.Machine
end

