-- ==== Sys2Proof/Machine/Edge.lean ====
section
/-!
DEFINITION. The sample edge (R43): the boundary work of every unit, in the order of R43's table and of the chapters it points to; and one rc
of the reference clock.
-/
namespace Sys2Proof.Machine

/-- Writes that wait for the edge take effect (R244). -/
def Device.edgeWritesEdge (s : Device) : Device :=
  { (s.edgeWrites.foldl (fun (s : Device) w => s.wr w.2.1 w.1 w.2.2) s) with edgeWrites := [] }

/-- One resolve takes effect (R199, R277, R281, R316): on the segment queues, the plans and the streams of its dies. -/
def Device.resolveEdge (s : Device) (q : ResolveReq) : Device :=
  let gone := fun (d : Nat) => (s.segs d).filter fun x => x.tag = q.tag && !x.commit && q.segs.contains (d, x.seq)
  let s1 := s.resolveSegs q
  q.dies.foldl (fun (s : Device) d =>
    let s2 := if q.cancel then s.dropResults d (gone d) else s
    (s2.resolvePlans d q.tag q.cancel).resolveStreams d q.tag q.cancel) s1

/-- All resolves that were issued before the edge, in order. -/
def Device.resolvesEdge (s : Device) : Device :=
  let s1 := s.coll.resolves.foldl Device.resolveEdge s
  { s1 with coll := { s1.coll with resolves := [] } }

/-- The control engines' part of the edge, less those of halted ones (R456). -/
def Device.controlEdges (s : Device) : Device :=
  (List.range 4).foldl (fun (s : Device) d =>
    if s.isHalted (unitTarget d 2) then s else ((s.retireStreams d).retireSegments d).controlCycle d) s.latchInputs

/-- A burn of version fuses that began at READY has ended (R398). -/
def Device.burnEdge (s : Device) : Device := { s with eft := { s.eft with burn := none } }

/-- The body of SAMPLE_EDGE (R43), once the device is ready: `counts` are the four counts of the odometry inputs, `late` the dies whose
regulator has not reached a raised voltage. -/
def sampleEdgeBody (counts late : List Nat) (s : Device) : Device :=
  if ¬ s.on 0 EFT_BOOT_STATUS_READY then s
  else
    let len := ((s.period : Int) + s.chorus.adjust).toNat
    let first := s.chorus.firstEdge
    let e := s.chorusEdge
    let boundary := e.2
    let s1 := ((((e.1.chorusOut boundary).auditEdge).remoteEdge).ringEdge).edgeWritesEdge
    let s2 := s1.powerEdge len late
    let s3 := (List.range 4).foldl Device.retainEdge s2
    let s4 := (s3.heartbeatEdge s3.pointNow none boundary).agreeEdge
    let s5 := s4.resolvesEdge.fusionEdge boundary first counts
    let s6 := (s5.spiTriggers 2 (List.range 8)).rejoinEdge
    ((s6.safetyEdge.controlEdges).debugEdge).burnEdge

/-- One rc passes (R36, R53): device time runs from reset release, and RC_IN_TICK from the first sample edge; a unit's reset
shows its first stage for one rc (R441). -/
def Device.passRc (s : Device) : Device :=
  if ¬ s.eft.begun then s
  else
    let s1 := s.advanceTime
    let s2 := if s1.chorus.firstEdge then s1 else s1.addHold 0 CHORUS_POSITION_RC_IN_TICK 1
    s2.stageRc

end Sys2Proof.Machine
end

