-- ==== Sys2Proof/Machine/Halts.lean ====
section
/-!
DEFINITION. Commands of units that debug can halt (R455, R456): a halted unit takes no command and ends none, PC follows the commands of a
unit's list, and halts, steps and breakpoints take effect at the stopping points.
-/
namespace Sys2Proof.Machine

/-- A command of a core's list: no halted core takes one, and the dispatcher checks the lend windows (R212). -/
def coreCommand (i : Issue) (w next : List Nat) (body : Device → Device) (s : Device) : Device :=
  if i.cores.any s.isHalted then s else s.lent i w next body

/-- The targets that a command of a slice's list is for: the planning sequencer for one of chapter 12 that is its own, the checker groups
for the checks, every unit of the slice for a solver's or a control engine's. -/
def Device.targetsFor (s : Device) (die idx : Nat) (planner : Bool) : List Nat :=
  (s.sliceTargets die idx).filter fun t => (t = unitTarget die 3) = planner

/-- A command of a collision or solver slice's list, taken once the one before it has ended (DEDUCED, 226). -/
def inOrder (die idx : Nat) (body : Device → Device) (s : Device) : Device := if s.sliceBusy die idx then s else body s

/-- A command's body within a slice: a write of it that fails ends the slice (R65). -/
def guarded (die idx : Nat) (body : Device → Device) (s : Device) : Device :=
  ((body s.noFail).settleSolve die idx).settleCollide die idx

/-- A command of a slice's list on its targets: none of them is halted, and their PCs go on. -/
def unitCommand (ts : List Nat) (body : Device → Device) (s : Device) : Device :=
  if ts.any s.isHalted then s
  else ts.foldl (fun (s : Device) t => s.setPcOf t (s.pcOf t + 1)) (body s)

/-- Targets that stand at a stopping point come to it before the command of their PC. -/
def Device.stopsAt (s : Device) (ts : List Nat) : Device :=
  ts.foldl (fun (s : Device) t => if s.atStop t then s.stopPoint t (s.pcOf t) else s) s

/-- A command of the planning sequencer, which stands at a stopping point when it has ended; one of the checker groups, the solver engines or the control engine, which goes
on for a while. -/
def plannerCommand (die idx : Nat) (body : Device → Device) (s : Device) : Device :=
  let ts := s.targetsFor die idx true
  if ts.any s.isHalted then s else (unitCommand ts (guarded die idx body) s).stopsAt ts
def engineCommand (die idx : Nat) (body : Device → Device) (s : Device) : Device :=
  unitCommand (s.targetsFor die idx false) (guarded die idx body) s

/-- A prepared UPDATE commits (R270), its planning sequencer's command ends. -/
def commitOf (die : Nat) (s : Device) : Device :=
  if s.plannerHalted die then s
  else
    let idx := (SMap.get none s.collide.prep die).elim 0 (fun (p : WorldPrep) => p.slice)
    (guarded die idx (updateCommitBody die) s).stopsAt [unitTarget die 3]

/-- The end of a check (R275): its group stands at a stopping point once it has no edge in hand. -/
def checkEndOf (die checker : Nat) (s : Device) : Device :=
  let t := unitTarget die (0x10 + checker / 16 % 16)
  if s.isHalted t then s
  else
    let idx := (s.checkWith die checker).elim 0 (fun (x : CheckRun) => x.slice)
    (guarded die idx (edgeCheckDoneBody die checker) s).stopsAt [t]

/-- The end of an iteration (R299) is a stopping point of the slice's engines (R455), whether or not the solve goes on. -/
def iterationEndOf (die p : Nat) (s : Device) : Device :=
  match s.solveOf die p with
  | none => s
  | some z =>
    let ts := s.targetsFor die z.slice false
    if ts.any s.isHalted then s
    else
      let s1 := (guarded die z.slice (iterationEndBody die p) s).haltPoll
      ((ts.filter fun t => s1.probe.draining.contains t || s1.probe.steps.contains t).foldl Device.haltNow s1).stopsAt ts

/-- A refresh ends on its slice's engines. -/
def refreshEndOf (die p : Nat) (s : Device) : Device :=
  match s.refreshOf die p with
  | none => s
  | some z =>
    let ts := s.targetsFor die z.slice false
    if ts.any s.isHalted then s else (guarded die z.slice (refreshDoneBody die p) s).stopsAt ts

/-- A slice starts: its units' lists begin, and a breakpoint before the first command asks for a halt. -/
def sliceStartOf (die idx : Nat) (inside : Bool) (s : Device) : Device :=
  match s.dueSlice die idx with
  | none => s
  | some x =>
    if ¬ s.sliceReady x then s
    else
      let s1 := sliceStartBody die idx inside s
      (s.sliceTargets die idx).foldl (fun (s : Device) t =>
        let s2 := s.setPcOf t 0
        if s2.bpHit t 0 then s2.haltReq t else s2) s1

/-- A halted core ends no command and takes no kernel. -/
def commandEndOf (core : Nat) (s : Device) : Device := if s.isHalted core then s else commandEndBody core s
def kernelDispatchOf (core : Nat) (s : Device) : Device := if s.isHalted core then s else kernelDispatchBody core s

/-- The control engine's work of a die outside the edge: not while it is halted. -/
def controlOf (die : Nat) (body : Device → Device) (s : Device) : Device := if s.isHalted (unitTarget die 2) then s else body s

end Sys2Proof.Machine
end

