-- ==== Sys2Proof/Machine/ExecChip.lean ====
section
/-!
DEFINITION. Power, host cores, life cycle and flash: the meaning of each command of this family, over the named bodies.
-/
namespace Sys2Proof.Machine

/-- BASK_CAP_WRITE (R379). -/
def execBaskCapWrite (die value : Nat) (atEdge : Bool) (s : State) : Host.Outcome State Fault Refusal :=
  s.upd (capWriteBody die value atEdge)

/-- POWER_ESTIMATE (R377). -/
def execPowerEstimate (terms : List (List (Nat × Nat))) (s : State) : Host.Outcome State Fault Refusal :=
  s.upd (powerEstimateBody terms)

/-- CALIBRATION (R378). -/
def execCalibration (reads : List (Nat × Option (Nat × Nat))) (s : State) : Host.Outcome State Fault Refusal :=
  s.upd (calibrationBody reads)

/-- TEMP_CONVERSION (R373). -/
def execTempConversion (die : Nat) (codes : List Nat) (s : State) : Host.Outcome State Fault Refusal :=
  s.upd (tempConversionBody die codes)

/-- AGEING_MEASURE (R384). -/
def execAgeingMeasure (dies : List (Nat × List Nat)) (s : State) : Host.Outcome State Fault Refusal := s.upd (ageingBody dies)

/-- PMB_ALERT (R468). -/
def execPmbAlert (faults : List Nat) (s : State) : Host.Outcome State Fault Refusal := s.upd (pmbAlertBody faults)

/-- HOST_HART_CTL_WRITE (R447). -/
def execHostHartCtlWrite (die n value : Nat) (s : State) : Host.Outcome State Fault Refusal := s.upd (hartCtlBody die n value)

/-- LIFECYCLE_REQUEST (R402). -/
def execLifecycleRequest (die : Nat) (burn : FuseBurn) (s : State) : Host.Outcome State Fault Refusal := s.upd (lifecycleBody die burn)

/-- QUOTE (R404). -/
def execQuote (die : Nat) (s : State) : Host.Outcome State Fault Refusal := s.upd (quoteBody die)

/-- FLASH_READ (R399). -/
def execFlashRead (die : Nat) (s : State) : Host.Outcome State Fault Refusal := s.upd (flashReadBody die)

/-- FLASH_ERASE (R399). -/
def execFlashErase (die : Nat) (s : State) : Host.Outcome State Fault Refusal := s.upd (flashEraseBody die)

/-- FLASH_PROGRAM (R399). -/
def execFlashProgram (die : Nat) (s : State) : Host.Outcome State Fault Refusal := s.upd (flashProgramBody die)

/-- FLASH_COMMAND_DONE (R399). -/
def execFlashCommandDone (ok : Bool) (s : State) : Host.Outcome State Fault Refusal := s.upd (flashDoneBody ok)

end Sys2Proof.Machine
end

