-- ==== Sys2Proof/Machine/ExecCore.lean ====
section
/-!
DEFINITION. Commands of the cores, and events of theirs: the meaning of each command of this family, over the named bodies.
-/
namespace Sys2Proof.Machine

/-- MATRIX (R125). -/
def execMatrix (i : Issue) (w : List Nat) (next : List Nat) (s : State) : Host.Outcome State Fault Refusal :=
  s.upd (coreCommand i w next (matrixBody i w next))

/-- GATE (R128). -/
def execGate (i : Issue) (w : List Nat) (s : State) : Host.Outcome State Fault Refusal := s.upd (coreCommand i w [] (gateBody i w))

/-- COMMAND_END (R207). -/
def execCommandEnd (core : Nat) (s : State) : Host.Outcome State Fault Refusal := s.upd (commandEndOf core)

/-- CQ_HEAD_WRITE (R207). -/
def execCqHeadWrite (die value : Nat) (s : State) : Host.Outcome State Fault Refusal := s.upd (cqHeadBody die value)

/-- ATTENTION (R158). -/
def execAttention (i : Issue) (w : List Nat) (raced : List (List Nat)) (s : State) : Host.Outcome State Fault Refusal :=
  s.upd (coreCommand i w [] (attentionBody i w raced))

/-- PAD_COPY_DONE (R148). -/
def execPadCopyDone (core n : Nat) (upsets : List Upset) (s : State) : Host.Outcome State Fault Refusal :=
  s.upd (padCopyDoneBody core n upsets)

/-- PAD_EVICTION_ACK (R148). -/
def execPadEvictionAck (core n : Nat) (s : State) : Host.Outcome State Fault Refusal := s.upd (padEvictionAckBody core n)

/-- PAD_EDIT (R141). -/
def execPadEdit (die k value : Nat) (s : State) : Host.Outcome State Fault Refusal := s.upd (padEditBody die k value)

/-- MERGE_PARTIAL (R155). -/
def execMergePartial (m : MergeFrom) (s : State) : Host.Outcome State Fault Refusal := s.upd (partialArriveBody m)

/-- RECURRENT_CHUNK (R170). -/
def execRecurrentChunk (i : Issue) (w : List Nat) (s : State) : Host.Outcome State Fault Refusal :=
  s.upd (coreCommand i w [] (recurrentChunkBody i w))

/-- START_BARRIER (R173). -/
def execStartBarrier (core : Nat) (s : State) : Host.Outcome State Fault Refusal := s.upd (startBarrierBody core)

/-- STEP_BARRIER (R173). -/
def execStepBarrier (core : Nat) (s : State) : Host.Outcome State Fault Refusal := s.upd (stepBarrierBody core)

/-- SWAP_OUT (R176). -/
def execSwapOut (i : Issue) (w : List Nat) (s : State) : Host.Outcome State Fault Refusal :=
  s.upd (coreCommand i w [] (swapOutBody i w))

/-- SWAP_IN (R176). -/
def execSwapIn (i : Issue) (w : List Nat) (s : State) : Host.Outcome State Fault Refusal := s.upd (coreCommand i w [] (swapInBody i w))

/-- COLL_SUM (R187). -/
def execCollSum (i : Issue) (w : List Nat) (s : State) : Host.Outcome State Fault Refusal := s.upd (coreCommand i w [] (collBody i w))

/-- COLL_GATHER (R187). -/
def execCollGather (i : Issue) (w : List Nat) (s : State) : Host.Outcome State Fault Refusal :=
  s.upd (coreCommand i w [] (collBody i w))

/-- COLL_NORM (R187). -/
def execCollNorm (i : Issue) (w : List Nat) (s : State) : Host.Outcome State Fault Refusal := s.upd (coreCommand i w [] (collBody i w))

/-- COLL_BARRIER (R187). -/
def execCollBarrier (i : Issue) (w : List Nat) (s : State) : Host.Outcome State Fault Refusal :=
  s.upd (coreCommand i w [] (collBody i w))

/-- COLLECTIVE_CONTRIBUTION (R189). -/
def execCollectiveContribution (h : FlitHead) (a : Arrival) (s : State) : Host.Outcome State Fault Refusal :=
  s.upd (contributionArriveBody h a)

/-- COLLECTIVE_TIMEOUT (R191). -/
def execCollectiveTimeout (scope seq : Nat) (s : State) : Host.Outcome State Fault Refusal := s.upd (collTimeoutBody scope seq)

/-- ABANDON_NOTICE (R192). -/
def execAbandonNotice (die : Nat) (h : FlitHead) (group seq status : Nat) (s : State) : Host.Outcome State Fault Refusal :=
  s.upd (noticeArriveBody die h group seq status)

/-- SEGMENT (R198). -/
def execSegment (i : Issue) (w : List Nat) (s : State) : Host.Outcome State Fault Refusal :=
  s.upd (coreCommand i w [] (segmentBody i w))

/-- RESOLVE (R199). -/
def execResolve (i : Issue) (w : List Nat) (s : State) : Host.Outcome State Fault Refusal :=
  s.upd (coreCommand i w [] (resolveBody i w))

end Sys2Proof.Machine
end

