-- ==== Sys2Proof/Machine/ExecField.lean ====
section
/-!
DEFINITION. Field input and output, and LP5X temperature: the meaning of each command of this family, over the named bodies.
-/
namespace Sys2Proof.Machine

/-- CAN_FRAME_RECEIVE (R429). -/
def execCanFrameReceive (ch : Nat) (err : Bool) (fmt : Nat) (ext : Bool) (id : Nat) (data : List Nat) (s : State) : Host.Outcome State Fault Refusal :=
  s.upd (canFrameReceiveBody ch err fmt ext id data)

/-- CAN_TX_START (R429). -/
def execCanTxStart (ch value : Nat) (s : State) : Host.Outcome State Fault Refusal := s.upd (canTxStartBody ch value)

/-- CAN_FRAME_SENT (R419). -/
def execCanFrameSent (ch : Nat) (s : State) : Host.Outcome State Fault Refusal := s.upd (canFrameSentBody ch)

/-- CAN_RX_SNAPSHOT (R429). -/
def execCanRxSnapshot (s : State) : Host.Outcome State Fault Refusal := s.upd canRxSnapshotBody

/-- SPI_SLOT_TRIGGER (R429). -/
def execSpiSlotTrigger (n k : Nat) (s : State) : Host.Outcome State Fault Refusal := s.upd (spiSlotTriggerBody n k)

/-- SPI_GO (R429). -/
def execSpiGo (value : Nat) (s : State) : Host.Outcome State Fault Refusal := s.upd (spiGoBody value)

/-- SPI_TRANSACTION_DONE (R429). -/
def execSpiTransactionDone (n : Nat) (rx : List Nat) (s : State) : Host.Outcome State Fault Refusal := s.upd (spiDoneBody n rx)

/-- I2C_START (R429). -/
def execI2cStart (n value : Nat) (s : State) : Host.Outcome State Fault Refusal := s.upd (i2cStartBody n value)

/-- I2C_DONE (R429). -/
def execI2cDone (n result : Nat) (bytes : List Nat) (s : State) : Host.Outcome State Fault Refusal := s.upd (i2cDoneBody n result bytes)

/-- I2C_DATA_READ (R429). -/
def execI2cDataRead (n : Nat) (s : State) : Host.Outcome State Fault Refusal := s.upd (i2cDataReadBody n)

/-- UART_DATA_WRITE (R429). -/
def execUartDataWrite (n value : Nat) (s : State) : Host.Outcome State Fault Refusal := s.upd (uartDataWriteBody n value)

/-- UART_DATA_READ (R429). -/
def execUartDataRead (n : Nat) (s : State) : Host.Outcome State Fault Refusal := s.upd (uartDataReadBody n)

/-- UART_BYTE_RECEIVED (R424). -/
def execUartByteReceived (n byte : Nat) (err : Bool) (s : State) : Host.Outcome State Fault Refusal :=
  s.upd (uartByteReceivedBody n byte err)

/-- PULSE_INPUT_EDGE (R422). -/
def execPulseInputEdge (n : Nat) (up both : Bool) (s : State) : Host.Outcome State Fault Refusal := s.upd (pulseEdgeBody n up both)

/-- ANALOGUE_CONVERSION (R423). -/
def execAnalogueConversion (n code : Nat) (s : State) : Host.Outcome State Fault Refusal := s.upd (analogueBody n code)

/-- UART_BYTE_SENT (R424). -/
def execUartByteSent (n : Nat) (s : State) : Host.Outcome State Fault Refusal := s.upd (uartByteSentBody n)

/-- MR4_TEMPERATURE_REPORT (R80). -/
def execMr4TemperatureReport (die rate : Nat) (hot : Bool) (s : State) : Host.Outcome State Fault Refusal :=
  s.upd (mr4Body die rate hot)

end Sys2Proof.Machine
end

