-- ==== Sys2Proof/Machine/ExecGuard.lean ====
section
/-!
DEFINITION. Safety islands and self-test: the meaning of each command of this family, over the named bodies.
-/
namespace Sys2Proof.Machine

/-- LOCKSTEP_MISMATCH (R332). -/
def execLockstepMismatch (n : Nat) (s : State) : Host.Outcome State Fault Refusal := s.upd (lockstepBody n)

/-- VERDICT_RECORD (R333). -/
def execVerdictRecord (n : Nat) (rec : List Nat) (s : State) : Host.Outcome State Fault Refusal := s.upd (verdictRecordBody n rec)

/-- VERDICT_COMPARE (R333). -/
def execVerdictCompare (n : Nat) (s : State) : Host.Outcome State Fault Refusal := s.upd (verdictCompareBody n)

/-- ESTOP_SAMPLE (R335). -/
def execEstopSample (low : Bool) (s : State) : Host.Outcome State Fault Refusal := s.upd (fun s => (estopBody low s).haltPoll)

/-- TAIL_STOP_TIMEOUT (R338). -/
def execTailStopTimeout (s : State) : Host.Outcome State Fault Refusal := s.upd (fun s => (tailTimeoutBody s).haltPoll)

/-- SAFETY_RESUME (R344). -/
def execSafetyResume (die value : Nat) (s : State) : Host.Outcome State Fault Refusal := s.upd (safetyResumeBody die value)

/-- RESUME_GPIO_EDGE (R344). -/
def execResumeGpioEdge (s : State) : Host.Outcome State Fault Refusal := s.upd resumeGpioBody

/-- AGE_TIMEOUT (R346). -/
def execAgeTimeout (s : State) : Host.Outcome State Fault Refusal := s.upd ageTimeoutBody

/-- SELFTEST_WALK (R357). -/
def execSelftestWalk (die : Nat) (s : State) : Host.Outcome State Fault Refusal := s.upd (selftestWalkBody die)

/-- SELFTEST_ITEM_DONE (R362). -/
def execSelftestItemDone (die lane : Nat) (fails : List (Nat × Nat)) (s : State) : Host.Outcome State Fault Refusal :=
  s.upd (itemDoneBody die lane fails)

/-- SELFTEST_GUARD_ABORT (R358). -/
def execSelftestGuardAbort (die lane : Nat) (s : State) : Host.Outcome State Fault Refusal := s.upd (guardAbortBody die lane)

/-- SELFTEST_RESTORE_DONE (R360). -/
def execSelftestRestoreDone (die lane : Nat) (s : State) : Host.Outcome State Fault Refusal := s.upd (restoreDoneBody die lane)

/-- SELFTEST_MAN_START (R354). -/
def execSelftestManStart (die value : Nat) (s : State) : Host.Outcome State Fault Refusal := s.upd (manStartBody die value)

/-- SELFTEST_FAIL_POP (R364). -/
def execSelftestFailPop (die : Nat) (s : State) : Host.Outcome State Fault Refusal := s.upd (failPopBody die)

end Sys2Proof.Machine
end

