-- ==== Sys2Proof/Machine/ExecIo.lean ====
section
/-!
DEFINITION. PCI Express and Ethernet: the meaning of each command of this family, over the named bodies.
-/
namespace Sys2Proof.Machine

/-- PCIE_INBOUND_REQUEST (R414). -/
def execPcieInboundRequest (die bar off n : Nat) (write : Bool) (data tag : Nat) (upsets : List Upset) (s : State) : Host.Outcome State Fault Refusal :=
  s.upd (pcieInboundBody die bar off n write data tag upsets)

/-- PCIE_MSIX_TRIGGER (R415). -/
def execPcieMsixTrigger (die value : Nat) (s : State) : Host.Outcome State Fault Refusal := s.upd (msixTriggerBody die value)

/-- PCIE_CONFIG_READ (R427). -/
def execPcieConfigRead (die : Nat) (s : State) : Host.Outcome State Fault Refusal := s.upd (pcieConfigReadBody die)

/-- PCIE_CONFIG_WRITE (R427). -/
def execPcieConfigWrite (die : Nat) (s : State) : Host.Outcome State Fault Refusal := s.upd (pcieConfigWriteBody die)

/-- PCIE_MEMORY_READ (R427). -/
def execPcieMemoryRead (die : Nat) (s : State) : Host.Outcome State Fault Refusal := s.upd (pcieMemoryReadBody die)

/-- PCIE_MEMORY_WRITE (R427). -/
def execPcieMemoryWrite (die : Nat) (s : State) : Host.Outcome State Fault Refusal := s.upd (pcieMemoryWriteBody die)

/-- PCIE_MBOX_COMPLETION (R427). -/
def execPcieMboxCompletion (die result data : Nat) (s : State) : Host.Outcome State Fault Refusal :=
  s.upd (mboxCompletionBody die result data)

/-- PCIE_COMPLETION_TIMEOUT (R432). -/
def execPcieCompletionTimeout (die : Nat) (s : State) : Host.Outcome State Fault Refusal := s.upd (pcieTimeoutBody die)

/-- ETH_FRAME_RECEIVE (R417). -/
def execEthFrameReceive (die p : Nat) (bytes : List Nat) (fcsOk : Bool) (time : Nat) (gptp : Option Int) (s : State) : Host.Outcome State Fault Refusal :=
  s.upd (ethFrameReceiveBody die p bytes fcsOk time gptp)

/-- ENET_HQ_TX_WRITE (R428). -/
def execEnetHqTxWrite (die p value : Nat) (s : State) : Host.Outcome State Fault Refusal := s.upd (hqTxWriteBody die p value)

/-- ETH_FRAME_SENT (R428). -/
def execEthFrameSent (die p : Nat) (s : State) : Host.Outcome State Fault Refusal := s.upd (ethFrameSentBody die p)

/-- QBV_CYCLE_START (R418). -/
def execQbvCycleStart (die p : Nat) (s : State) : Host.Outcome State Fault Refusal := s.upd (qbvCycleBody die p)

/-- PCIE_LINK_STATE_CHANGE (R413). -/
def execPcieLinkStateChange (die : Nat) (up : Bool) (width speed : Nat) (s : State) : Host.Outcome State Fault Refusal :=
  s.upd (pcieLinkBody die up width speed)

/-- ETH_LINK_STATE_CHANGE (R427). -/
def execEthLinkStateChange (die p : Nat) (up : Bool) (s : State) : Host.Outcome State Fault Refusal := s.upd (ethLinkBody die p up)

end Sys2Proof.Machine
end

