-- ==== Sys2Proof/Machine/ExecLink.lean ====
section
/-!
DEFINITION. Oliner and the die bridges: the meaning of each command of this family, over the named bodies.
-/
namespace Sys2Proof.Machine

/-- OLINER_READ (R412). -/
def execOlinerRead (die : Nat) (h : FlitHead) (t : TagId) (a n : Nat) (upsets : List Upset) (s : State) : Host.Outcome State Fault Refusal :=
  s.upd (olinerReadBody die h t a n upsets)

/-- OLINER_READ_REPLY (R406). -/
def execOlinerReadReply (die : Nat) (h : FlitHead) (t : TagId) (status data : Nat) (s : State) : Host.Outcome State Fault Refusal :=
  s.upd (readReplyBody die h t status data)

/-- OLINER_WRITE (R412). -/
def execOlinerWrite (die : Nat) (h : FlitHead) (t : TagId) (a n data : Nat) (upsets : List Upset) (s : State) : Host.Outcome State Fault Refusal :=
  s.upd (olinerWriteBody die h t a n data upsets)

/-- OLINER_WRITE_ACK (R406). -/
def execOlinerWriteAck (die : Nat) (h : FlitHead) (t : TagId) (status : Nat) (s : State) : Host.Outcome State Fault Refusal :=
  s.upd (writeAckBody die h t status)

/-- OLINER_SYNC_ADD (R412). -/
def execOlinerSyncAdd (die : Nat) (h : FlitHead) (sync n seq : Nat) (s : State) : Host.Outcome State Fault Refusal :=
  s.upd (syncFlitBody die h sync n seq)

/-- OLINER_SYNC_ACK (R215). -/
def execOlinerSyncAck (die : Nat) (h : FlitHead) (seq status : Nat) (s : State) : Host.Outcome State Fault Refusal :=
  s.upd (syncAckBody die h seq status)

/-- HEARTBEAT_FLIT (R410). -/
def execHeartbeatFlit (die : Nat) (h : FlitHead) (time ticks pos grant : Nat) (tail : Bool) (lock lastApplied : Nat) (note : Option (Nat × Nat)) (s : State) : Host.Outcome State Fault Refusal :=
  s.upd (heartbeatBody die h time ticks pos grant tail lock lastApplied note)

/-- NAK (R408). -/
def execNak (die lastGood : Nat) (s : State) : Host.Outcome State Fault Refusal := s.upd (nakBody die lastGood)

/-- IDLE_FLIT (R407). -/
def execIdleFlit (die : Nat) (h : FlitHead) (s : State) : Host.Outcome State Fault Refusal := s.upd (idleFlitBody die h)

/-- FLIT_ACK_TIMEOUT (R408). -/
def execFlitAckTimeout (die : Nat) (s : State) : Host.Outcome State Fault Refusal := s.upd (flitTimeoutBody die)

/-- RETRAIN_DONE (R408). -/
def execRetrainDone (die : Nat) (ok : Bool) (lastApplied : Nat) (s : State) : Host.Outcome State Fault Refusal :=
  s.upd (retrainBody die ok lastApplied)

/-- LINK_TRAIN_RETRY (R408). -/
def execLinkTrainRetry (die : Nat) (s : State) : Host.Outcome State Fault Refusal := s.upd (trainRetryBody die)

/-- PARTNER_LOST (R411). -/
def execPartnerLost (die : Nat) (s : State) : Host.Outcome State Fault Refusal := s.upd (partnerLostBody die)

/-- BRIDGE_DOWN (R434). -/
def execBridgeDown (die : Nat) (col : Bool) (s : State) : Host.Outcome State Fault Refusal := s.upd (bridgeDownBody die col)

/-- OLINER_CRC_FAIL (R408). -/
def execOlinerCrcFail (die : Nat) (s : State) : Host.Outcome State Fault Refusal := s.upd (olinerCrcBody die)

/-- BRIDGE_LINK_RETRY (R434). -/
def execBridgeLinkRetry (die : Nat) (col : Bool) (s : State) : Host.Outcome State Fault Refusal := s.upd (bridgeRetryBody die col)

end Sys2Proof.Machine
end

