-- ==== Sys2Proof/Machine/ExecLoop.lean ====
section
/-!
DEFINITION. The control engines: the meaning of each command of this family, over the named bodies.
-/
namespace Sys2Proof.Machine

/-- CONTROL_UPDATE_WINDOW (R320). -/
def execControlUpdateWindow (die : Nat) (s : State) : Host.Outcome State Fault Refusal := s.upd (controlOf die (controlUpdateBody die))

/-- SLOT_ENABLE (R325). -/
def execSlotEnable (die : Nat) (w : List Nat) (s : State) : Host.Outcome State Fault Refusal :=
  s.upd (controlOf die (slotEnableBody die w))

/-- SLOT_DISABLE (R325). -/
def execSlotDisable (die : Nat) (w : List Nat) (s : State) : Host.Outcome State Fault Refusal :=
  s.upd (controlOf die (slotDisableBody die w))

/-- SLOT_LOAD (R325). -/
def execSlotLoad (die idx : Nat) (w : List Nat) (s : State) : Host.Outcome State Fault Refusal :=
  s.upd (controlOf die (slotLoadBody die idx w))

/-- TEST_GENERATOR_START (R327). -/
def execTestGeneratorStart (die value : Nat) (s : State) : Host.Outcome State Fault Refusal := s.upd (testStartBody die value)

/-- TEST_GENERATOR_END (R327). -/
def execTestGeneratorEnd (die : Nat) (s : State) : Host.Outcome State Fault Refusal := s.upd (testEndBody die)

/-- CAPTURE_START (R328). -/
def execCaptureStart (die value : Nat) (s : State) : Host.Outcome State Fault Refusal := s.upd (captureStartBody die value)

/-- CAPTURE_DONE (R328). -/
def execCaptureDone (die : Nat) (s : State) : Host.Outcome State Fault Refusal := s.upd (captureDoneBody die)

end Sys2Proof.Machine
end

