-- ==== Sys2Proof/Machine/ExecPlan.lean ====
section
/-!
DEFINITION. World, roadmap and solvers: the meaning of each command of this family, over the named bodies.
-/
namespace Sys2Proof.Machine

/-- UPDATE (R270). -/
def execUpdate (die idx : Nat) (w : List Nat) (s : State) : Host.Outcome State Fault Refusal :=
  s.upd (inOrder die idx (plannerCommand die idx (updateBody die idx w)))

/-- UPDATE_COMMIT (R270). -/
def execUpdateCommit (die : Nat) (s : State) : Host.Outcome State Fault Refusal := s.upd (commitOf die)

/-- CHECK_EDGES (R276). -/
def execCheckEdges (die idx : Nat) (w : List Nat) (s : State) : Host.Outcome State Fault Refusal :=
  s.upd (inOrder die idx (engineCommand die idx (checkEdgesBody die idx w)))

/-- CHECK_SEGMENTS (R277). -/
def execCheckSegments (die idx : Nat) (w : List Nat) (s : State) : Host.Outcome State Fault Refusal :=
  s.upd (inOrder die idx (engineCommand die idx (checkSegmentsBody die idx w)))

/-- EDGE_CHECK_DONE (R275). -/
def execEdgeCheckDone (die checker : Nat) (s : State) : Host.Outcome State Fault Refusal := s.upd (checkEndOf die checker)

/-- PLAN_SEARCH (R279). -/
def execPlanSearch (die idx : Nat) (w : List Nat) (limit : Nat) (s : State) : Host.Outcome State Fault Refusal :=
  s.upd (inOrder die idx (plannerCommand die idx (planSearchBody die idx w limit)))

/-- PLAN_SEGMENT (R279). -/
def execPlanSegment (die idx : Nat) (w : List Nat) (s : State) : Host.Outcome State Fault Refusal :=
  s.upd (inOrder die idx (plannerCommand die idx (planSegmentBody die idx w)))

/-- PUBLISH (R280). -/
def execPublish (die idx : Nat) (w : List Nat) (s : State) : Host.Outcome State Fault Refusal :=
  s.upd (inOrder die idx (plannerCommand die idx (publishBody die idx w)))

/-- SOLVE (R299). -/
def execSolve (die idx : Nat) (w : List Nat) (s : State) : Host.Outcome State Fault Refusal :=
  s.upd (inOrder die idx (engineCommand die idx (solveBody die idx w)))

/-- SOLVE_CONTINUE (R301). -/
def execSolveContinue (die idx : Nat) (w : List Nat) (s : State) : Host.Outcome State Fault Refusal :=
  s.upd (inOrder die idx (engineCommand die idx (solveContinueBody die idx w)))

/-- SOLVER_ITERATION_END (R299). -/
def execSolverIterationEnd (die p : Nat) (s : State) : Host.Outcome State Fault Refusal := s.upd (iterationEndOf die p)

/-- REFRESH (R295). -/
def execRefresh (die idx : Nat) (w : List Nat) (s : State) : Host.Outcome State Fault Refusal :=
  s.upd (inOrder die idx (engineCommand die idx (refreshBody die idx w)))

/-- REFRESH_DONE (R295). -/
def execRefreshDone (die p : Nat) (s : State) : Host.Outcome State Fault Refusal := s.upd (refreshEndOf die p)

end Sys2Proof.Machine
end

