-- ==== Sys2Proof/Machine/ExecProbe.lean ====
section
/-!
DEFINITION. Test access and debug: the meaning of each command of this family, over the named bodies.
-/
namespace Sys2Proof.Machine

/-- IDCODE (R451). -/
def execIdcode (s : State) : Host.Outcome State Fault Refusal := s.upd idcodeBody

/-- BYPASS (R451). -/
def execBypass (s : State) : Host.Outcome State Fault Refusal := s.upd bypassBody

/-- SAMPLE_PRELOAD (R451). -/
def execSamplePreload (pins data : Nat) (s : State) : Host.Outcome State Fault Refusal := s.upd (samplePreloadBody pins data)

/-- EXTEST (R451). -/
def execExtest (pins data : Nat) (s : State) : Host.Outcome State Fault Refusal := s.upd (extestBody pins data)

/-- DTMCS (R452). -/
def execDtmcs (value : Nat) (s : State) : Host.Outcome State Fault Refusal := s.upd (dtmcsBody value)

/-- DMI (R452). -/
def execDmi (op addr data : Nat) (s : State) : Host.Outcome State Fault Refusal := s.upd (dmiBody op addr data)

/-- UNLOCK (R451). -/
def execUnlock (access : Option (Nat × Bool × Nat)) (s : State) : Host.Outcome State Fault Refusal := s.upd (unlockBody access)

/-- DEBUG_UNLOCK (R453). -/
def execDebugUnlock (die : Nat) (s : State) : Host.Outcome State Fault Refusal := s.upd (debugUnlockBody die)

/-- BDTM_NOP (R455). -/
def execBdtmNop (op : Nat) (s : State) : Host.Outcome State Fault Refusal := s.upd (bdtmNopBody op)

/-- BDTM_READ (R455). -/
def execBdtmRead (t reg : Nat) (s : State) : Host.Outcome State Fault Refusal := s.upd (bdtmReadBody t reg)

/-- BDTM_WRITE (R455). -/
def execBdtmWrite (t reg data : Nat) (s : State) : Host.Outcome State Fault Refusal := s.upd (bdtmWriteBody t reg data)

/-- HALT_REQ (R456). -/
def execHaltReq (t : Nat) (s : State) : Host.Outcome State Fault Refusal := s.upd (haltReqBody t)

/-- RESUME (R456). -/
def execResume (t : Nat) (s : State) : Host.Outcome State Fault Refusal := s.upd (resumeBody t)

/-- STEP (R455). -/
def execStep (t : Nat) (s : State) : Host.Outcome State Fault Refusal := s.upd (stepBody t)

end Sys2Proof.Machine
end

