-- ==== Sys2Proof/Machine/ExecQueue.lean ====
section
/-!
DEFINITION. Rings, kernels, jobs and sync objects, and held requests: the meaning of each command of this family, over the named bodies.
-/
namespace Sys2Proof.Machine

/-- RING_ENABLE (R205). -/
def execRingEnable (die : Nat) (s : State) : Host.Outcome State Fault Refusal := s.upd (ringEnableBody die)

/-- RING_DISABLE (R206). -/
def execRingDisable (die : Nat) (s : State) : Host.Outcome State Fault Refusal := s.upd (ringDisableBody die)

/-- RING_RESTART (R206). -/
def execRingRestart (die : Nat) (s : State) : Host.Outcome State Fault Refusal := s.upd (ringRestartBody die)

/-- DOORBELL (R206). -/
def execDoorbell (die value : Nat) (s : State) : Host.Outcome State Fault Refusal := s.upd (doorbellBody die value)

/-- KERNEL_DISPATCH (R222). -/
def execKernelDispatch (core : Nat) (s : State) : Host.Outcome State Fault Refusal := s.upd (kernelDispatchOf core)

/-- NOP (R210). -/
def execNop (i : Issue) (w : List Nat) (s : State) : Host.Outcome State Fault Refusal :=
  s.upd (coreCommand i w [] (fun s => s.issue i w id))

/-- SYNC_ADD (R211). -/
def execSyncAdd (i : Issue) (w : List Nat) (s : State) : Host.Outcome State Fault Refusal :=
  s.upd (coreCommand i w [] (fun s => s.issue i w (syncAddRun i w)))

/-- SET_WAIT (R209). -/
def execSetWait (i : Issue) (w : List Nat) (s : State) : Host.Outcome State Fault Refusal :=
  s.upd (coreCommand i w [] (fun s => s.issue i w (setWaitRun i w)))

/-- MODEL_LOAD (R223). -/
def execModelLoad (i : Issue) (w : List Nat) (s : State) : Host.Outcome State Fault Refusal :=
  s.upd (coreCommand i w [] (fun s => s.issue i w (modelLoadRun i)))

/-- MODEL_LOAD_DONE (R223). -/
def execModelLoadDone (g : Nat) (upsets : List Upset) (s : State) : Host.Outcome State Fault Refusal :=
  s.upd (modelLoadDoneBody g upsets)

/-- KBEGIN (R211). -/
def execKbegin (i : Issue) (w : List Nat) (s : State) : Host.Outcome State Fault Refusal :=
  s.upd (coreCommand i w [] (fun s => s.issue i w (kbeginRun i w)))

/-- WAIT_TIMEOUT (R216). -/
def execWaitTimeout (g : Nat) (s : State) : Host.Outcome State Fault Refusal := s.upd (waitTimeoutBody g)

/-- KERNEL_BOUND_STOP (R220). -/
def execKernelBoundStop (ring : Nat) (inside : Bool) (s : State) : Host.Outcome State Fault Refusal :=
  s.upd (kernelBoundBody ring inside)

/-- KERNEL_TICKS_LIMIT (R221). -/
def execKernelTicksLimit (ring : Nat) (inside : Bool) (s : State) : Host.Outcome State Fault Refusal :=
  s.upd (kernelTicksBody ring inside)

/-- JOB_ADMIT (R218). -/
def execJobAdmit (die job client : Nat) (s : State) : Host.Outcome State Fault Refusal := s.upd (jobAdmitBody die job client)

/-- JOB_COMPLETE (R218). -/
def execJobComplete (die job client : Nat) (s : State) : Host.Outcome State Fault Refusal := s.upd (jobCompleteBody die job client)

/-- JOB_END (R219). -/
def execJobEnd (die job client : Nat) (s : State) : Host.Outcome State Fault Refusal := s.upd (jobEndBody die job client)

/-- JOB_RELEASE (R218). -/
def execJobRelease (die job client : Nat) (s : State) : Host.Outcome State Fault Refusal := s.upd (jobReleaseBody die job client)

/-- JOB_DRAINED (R218). -/
def execJobDrained (job : Nat) (s : State) : Host.Outcome State Fault Refusal := s.upd (jobDrainedBody job)

/-- JOB_ENDING_DONE (R219). -/
def execJobEndingDone (job : Nat) (s : State) : Host.Outcome State Fault Refusal := s.upd (jobEndingBody job)

/-- SYNC_ADD_LO (R225). -/
def execSyncAddLo (die value : Nat) (s : State) : Host.Outcome State Fault Refusal := s.upd (syncAddLoBody die value)

/-- HELD_REQUEST_ISSUE (R230). -/
def execHeldRequestIssue (die port cl : Nat) (s : State) : Host.Outcome State Fault Refusal := s.upd (heldIssueBody die port cl)

end Sys2Proof.Machine
end

