-- ==== Sys2Proof/Machine/ExecSense.lean ====
section
/-!
DEFINITION. Ingest and fusion: the meaning of each command of this family, over the named bodies.
-/
namespace Sys2Proof.Machine

/-- CAMERA_FRAME_START (R241). -/
def execCameraFrameStart (die port vc num ecc : Nat) (s : State) : Host.Outcome State Fault Refusal :=
  s.upd (frameStartBody die port vc num ecc)

/-- CSI2_LINE_PACKET (R238). -/
def execCsi2LinePacket (die port vc dt ecc : Nat) (crcOk : Bool) (payload : List Nat) (s : State) : Host.Outcome State Fault Refusal :=
  s.upd (linePacketBody die port vc dt ecc crcOk payload)

/-- CAMERA_FRAME_END (R242). -/
def execCameraFrameEnd (die port vc ecc : Nat) (s : State) : Host.Outcome State Fault Refusal := s.upd (frameEndBody die port vc ecc)

/-- IMU_DATA_READY (R240). -/
def execImuDataReady (n : Nat) (s : State) : Host.Outcome State Fault Refusal := s.upd (imuDataReadyBody n)

/-- STREAM_STALE (R244). -/
def execStreamStale (die slot : Nat) (s : State) : Host.Outcome State Fault Refusal := s.upd (streamStaleBody die slot)

/-- STREAM_CFG_WRITE (R244). -/
def execStreamCfgWrite (die slot : Nat) (chk : Bool) (value : Nat) (s : State) : Host.Outcome State Fault Refusal :=
  s.upd (streamCfgBody die slot chk value)

/-- FUSION_CONTRIBUTION (R245). -/
def execFusionContribution (die : Nat) (dets : List Detection) (s : State) : Host.Outcome State Fault Refusal :=
  s.upd (contributionFuBody die dets)

/-- PROJECT (R248). -/
def execProject (die : Nat) (w : List Nat) (s : State) : Host.Outcome State Fault Refusal := s.upd (projectBody die w)

/-- CAL_SWAP_WRITE (R246). -/
def execCalSwapWrite (die value : Nat) (s : State) : Host.Outcome State Fault Refusal := s.upd (calSwapBody die value)

end Sys2Proof.Machine
end

