-- ==== Sys2Proof/Machine/ExecStart.lean ====
section
/-!
DEFINITION. Power, reset and the start: the meaning of each command of this family, over the named bodies.
-/
namespace Sys2Proof.Machine

/-- POWER_ON (R388). -/
def execPowerOn (s : State) : Host.Outcome State Fault Refusal := s.upd powerOnBody

/-- RESET_N (R388). -/
def execResetN (s : State) : Host.Outcome State Fault Refusal := s.upd resetNBody

/-- EFT_RESET (R388). -/
def execEftReset (die value : Nat) (s : State) : Host.Outcome State Fault Refusal := s.upd (eftResetBody die value)

/-- RAIL_UNDERVOLTAGE (R469). -/
def execRailUndervoltage (s : State) : Host.Outcome State Fault Refusal := s.upd railBody

/-- REFCLK_PRESENT (R470). -/
def execRefclkPresent (x : StartIn) (s : State) : Host.Outcome State Fault Refusal := s.upd (refclkBody x)

/-- DEVICE_START (R389). -/
def execDeviceStart (refclk : Bool) (x : StartIn) (s : State) : Host.Outcome State Fault Refusal := s.upd (deviceStartBody refclk x)

/-- BRIDGE_TRAIN_TIMEOUT (R389). -/
def execBridgeTrainTimeout (s : State) : Host.Outcome State Fault Refusal := s.upd bridgeTimeoutBody

/-- LP5X_TRAINING_DONE (R81). -/
def execLp5xTrainingDone (ok : Bool) (caps : List Nat) (s : State) : Host.Outcome State Fault Refusal := s.upd (lpTrainingBody ok caps)

/-- SHED_WIPE_DONE (R79). -/
def execShedWipeDone (die : Nat) (s : State) : Host.Outcome State Fault Refusal := s.upd (shedWipeBody die)

/-- LP5X_WIPE_DONE (R84). -/
def execLp5xWipeDone (s : State) : Host.Outcome State Fault Refusal := s.upd lpWipeBody

/-- NVME_READ_COMPLETE (R397). -/
def execNvmeReadComplete (r : ReadEnd) (s : State) : Host.Outcome State Fault Refusal := s.upd (nvmeBody r)

/-- WEIGHTS_SOURCE_TIMEOUT (R397). -/
def execWeightsSourceTimeout (s : State) : Host.Outcome State Fault Refusal := s.upd weightsTimeoutBody

/-- INJECTION_PASS_DONE (R352). -/
def execInjectionPassDone (fail : Option (Nat × Nat)) (time : Nat) (s : State) : Host.Outcome State Fault Refusal :=
  s.upd (injectionBody fail time)

/-- GPTP_STEP_TIMEOUT (R389). -/
def execGptpStepTimeout (s : State) : Host.Outcome State Fault Refusal := s.upd gptpTimeoutBody

/-- SECTION_LOAD_DONE (R389). -/
def execSectionLoadDone (seqs : List (List (List Nat))) (s : State) : Host.Outcome State Fault Refusal := s.upd (sectionLoadBody seqs)

/-- PROGRAM_FUSED_SECRET (R401). -/
def execProgramFusedSecret (secret mfgHash : Nat) (cert : List Nat) (s : State) : Host.Outcome State Fault Refusal :=
  s.upd (fusedSecretBody secret mfgHash cert)

end Sys2Proof.Machine
end

