-- ==== Sys2Proof/Machine/ExecStore.lean ====
section
/-!
DEFINITION. Memory, translation, faults and DMA: the meaning of each command of this family, over the named bodies.
-/
namespace Sys2Proof.Machine

/-- CORE_PORT_ACCESS (R20). -/
def execCorePortAccess (core : Nat) (work : Work) (read : Option (Nat × Nat)) (write : Option (Nat × Nat × Nat)) (upsets : List Upset) (inside : Bool) (s : State) : Host.Outcome State Fault Refusal :=
  s.upd (corePortBody core work read write upsets inside)

/-- SHARED_PORT_REQUEST (R61). -/
def execSharedPortRequest (reqs : List Req) (upsets : List Upset) (s : State) : Host.Outcome State Fault Refusal :=
  s.upd (sharedPortRequestBody reqs upsets)

/-- SHARED_PORT_QUEUE_FREE (R61). -/
def execSharedPortQueueFree (die col : Nat) (s : State) : Host.Outcome State Fault Refusal := s.upd (queueFreeBody die col)

/-- POND_ERR_STATUS_CLEAR (R71). -/
def execPondErrStatusClear (die value : Nat) (same : Option Upset) (s : State) : Host.Outcome State Fault Refusal :=
  s.upd (pondErrClearBody die value same)

/-- UNMAPPED_STATUS_CLEAR (R34). -/
def execUnmappedStatusClear (die value : Nat) (same : Option (Nat × Nat × Nat × Bool)) (s : State) : Host.Outcome State Fault Refusal :=
  s.upd (unmappedClearBody die value same)

/-- RETAIN_REQ (R78). -/
def execRetainReq (die value : Nat) (s : State) : Host.Outcome State Fault Refusal := s.upd (retainReqBody die value)

/-- WAKING_DONE (R78). -/
def execWakingDone (die : Nat) (s : State) : Host.Outcome State Fault Refusal := s.upd (wakingDoneBody die)

/-- LP5X_PATROL (R82). -/
def execLp5xPatrol (die : Nat) (upsets : List Upset) (s : State) : Host.Outcome State Fault Refusal := s.upd (patrolBody die upsets)

/-- WALK_RETURN (R91). -/
def execWalkReturn (die unit : Nat) (work : Work) (entry va : Nat) (write : Bool) (s : State) : Host.Outcome State Fault Refusal :=
  s.upd (walkReturnBody die unit work entry va write)

/-- FAULT_PARK (R103). -/
def execFaultPark (die unit : Nat) (s : State) : Host.Outcome State Fault Refusal := s.upd (faultParkBody die unit)

/-- FAULT_RECORD_WRITE (R106). -/
def execFaultRecordWrite (die unit : Nat) (s : State) : Host.Outcome State Fault Refusal := s.upd (faultRecordBody die unit)

/-- XLATE_FQ_HEAD_WRITE (R106). -/
def execXlateFqHeadWrite (die q value : Nat) (s : State) : Host.Outcome State Fault Refusal := s.upd (fqHeadBody die q value)

/-- INVALIDATION_START (R94). -/
def execInvalidationStart (die value : Nat) (s : State) : Host.Outcome State Fault Refusal := s.upd (invalStartBody die value)

/-- INVALIDATION_DONE (R94). -/
def execInvalidationDone (s : State) : Host.Outcome State Fault Refusal := s.upd invalDoneBody

/-- RESUME_RETRY (R107). -/
def execResumeRetry (die id : Nat) (s : State) : Host.Outcome State Fault Refusal := s.upd (resumeRetryBody die id)

/-- RESUME_ABORT (R107). -/
def execResumeAbort (die id : Nat) (s : State) : Host.Outcome State Fault Refusal := s.upd (resumeAbortBody die id)

/-- DMA_DESCRIPTOR_START (R97). -/
def execDmaDescriptorStart (die e : Nat) (work : Work) (k : Nat) (s : State) : Host.Outcome State Fault Refusal :=
  s.upd (dmaStartBody die e work k)

/-- DMA_DESCRIPTOR_DONE (R99). -/
def execDmaDescriptorDone (die e : Nat) (upsets : List Upset) (s : State) : Host.Outcome State Fault Refusal :=
  s.upd (dmaDoneBody die e upsets)

end Sys2Proof.Machine
end

