-- ==== Sys2Proof/Machine/ExecTick.lean ====
section
/-!
DEFINITION. The tick, its marks and slices, and Chorus: the meaning of each command of this family, over the named bodies.
-/
namespace Sys2Proof.Machine

/-- SAMPLE_EDGE (R43). -/
def execSampleEdge (counts late : List Nat) (s : State) : Host.Outcome State Fault Refusal := s.upd (sampleEdgeBody counts late)

/-- CLOCK_HOLD_END (R367). -/
def execClockHoldEnd (s : State) : Host.Outcome State Fault Refusal := s.upd clockHoldEndBody

/-- OUTPUT_PHASE_MARK (R42). -/
def execOutputPhaseMark (mark : Nat) (s : State) : Host.Outcome State Fault Refusal := s.upd (outputMarkBody mark)

/-- GOLDEN_SLOT_START (R51). -/
def execGoldenSlotStart (s : State) : Host.Outcome State Fault Refusal := s.upd goldenSlotBody

/-- TEST_WINDOW_START (R72). -/
def execTestWindowStart (upsets : List Upset) (s : State) : Host.Outcome State Fault Refusal := s.upd (testWindowBody upsets)

/-- SAFETY_WINDOW_START (R333). -/
def execSafetyWindowStart (o0 o1 : Bool) (s : State) : Host.Outcome State Fault Refusal := s.upd (safetyWindowBody o0 o1)

/-- SLICE_START (R48). -/
def execSliceStart (die idx : Nat) (inside : Bool) (s : State) : Host.Outcome State Fault Refusal := s.upd (sliceStartOf die idx inside)

/-- SLICE_END (R48). -/
def execSliceEnd (die idx : Nat) (s : State) : Host.Outcome State Fault Refusal := s.upd (sliceEndBody die idx)

/-- SLICE_DEADLINE (R50). -/
def execSliceDeadline (die idx : Nat) (rest : List (List Nat)) (s : State) : Host.Outcome State Fault Refusal :=
  s.upd (sliceDeadlineBody die idx rest)

/-- SLICE_HARD_LIMIT (R50). -/
def execSliceHardLimit (die idx : Nat) (inside : Bool) (s : State) : Host.Outcome State Fault Refusal :=
  s.upd (hardLimitBody die idx inside)

/-- TICK_FLIT (R56). -/
def execTickFlit (die : Nat) (h : FlitHead) (stamp : TickStamp) (lastApplied : Nat) (note : Option (Nat × Nat)) (s : State) : Host.Outcome State Fault Refusal :=
  s.upd (tickArriveBody die h stamp lastApplied note)

/-- CHORUS_IN_PULSE (R471). -/
def execChorusInPulse (width riseNs : Nat) (s : State) : Host.Outcome State Fault Refusal := s.upd (chorusInBody width riseNs)

/-- TICK_SOURCE_LOST (R57). -/
def execTickSourceLost (s : State) : Host.Outcome State Fault Refusal := s.upd sourceLostBody

/-- DELAY_PROBE (R56). -/
def execDelayProbe (die : Nat) (h : FlitHead) (roundTripNs : Nat) (s : State) : Host.Outcome State Fault Refusal :=
  s.upd (probeArriveBody die h roundTripNs)

/-- CHORUS_TICK_PERIOD_WRITE (R37). -/
def execChorusTickPeriodWrite (die value : Nat) (atBoundary : Bool) (s : State) : Host.Outcome State Fault Refusal :=
  s.upd (tickPeriodWrite die value atBoundary)

/-- CHORUS_FRAME_LEN_WRITE (R38). -/
def execChorusFrameLenWrite (die value : Nat) (atBoundary : Bool) (s : State) : Host.Outcome State Fault Refusal :=
  s.upd (frameLenWrite die value atBoundary)

/-- CHORUS_WIN_LEN_WRITE (R41). -/
def execChorusWinLenWrite (die value : Nat) (atBoundary : Bool) (s : State) : Host.Outcome State Fault Refusal :=
  s.upd (winLenWrite die value atBoundary)

/-- CHORUS_LOCK (R39). -/
def execChorusLock (die value : Nat) (s : State) : Host.Outcome State Fault Refusal := s.upd (chorusLockWrite die value)

/-- CHORUS_OVERRUN_LOG_CLEAR (R59). -/
def execChorusOverrunLogClear (die value : Nat) (same : Option Nat) (s : State) : Host.Outcome State Fault Refusal :=
  s.upd (overrunLogClear die value same)

end Sys2Proof.Machine
end

