-- ==== Sys2Proof/Machine/ExecUpkeep.lean ====
section
/-!
DEFINITION. Errors, timeouts, units, timers and registers: the meaning of each command of this family, over the named bodies.
-/
namespace Sys2Proof.Machine

/-- REQUEST_TIMEOUT (R432). -/
def execRequestTimeout (r : Req) (tag : Nat) (s : State) : Host.Outcome State Fault Refusal := s.upd (requestTimeoutBody r tag)

/-- REMOTE_REQUEST_TIMEOUT (R432). -/
def execRemoteRequestTimeout (die id : Nat) (sync : Bool) (s : State) : Host.Outcome State Fault Refusal :=
  s.upd (remoteTimeoutBody die id sync)

/-- UNIT_RESET (R436). -/
def execUnitReset (die u : Nat) (s : State) : Host.Outcome State Fault Refusal := s.upd (unitResetBody die u)

/-- UNIT_DISABLE (R438). -/
def execUnitDisable (die u : Nat) (s : State) : Host.Outcome State Fault Refusal := s.upd (unitDisableBody die u)

/-- UNIT_ENABLE (R441). -/
def execUnitEnable (die u : Nat) (s : State) : Host.Outcome State Fault Refusal := s.upd (unitEnableBody die u)

/-- UNIT_DRAIN_END (R436). -/
def execUnitDrainEnd (die : Nat) (s : State) : Host.Outcome State Fault Refusal := s.upd (unitDrainEndBody die)

/-- CONSERVATION_AUDIT (R439). -/
def execConservationAudit (s : State) : Host.Outcome State Fault Refusal := s.upd auditBody

/-- RADD_POP (R443). -/
def execRaddPop (die : Nat) (s : State) : Host.Outcome State Fault Refusal := s.upd (raddPopBody die)

/-- ERR_STATUS_CLEAR (R443). -/
def execErrStatusClear (die value : Nat) (same : Option (Nat × Nat × Nat × Bool × Bool)) (s : State) : Host.Outcome State Fault Refusal :=
  s.upd (errClearBody die value same)

/-- HOST_STORE_ERROR (R450). -/
def execHostStoreError (die hart : Nat) (fails : List (Nat × Nat)) (s : State) : Host.Outcome State Fault Refusal :=
  s.upd (hostStoreErrorBody die hart fails)

/-- SETEIPNUM_WRITE (R448). -/
def execSeteipnumWrite (die n lvl value : Nat) (s : State) : Host.Outcome State Fault Refusal := s.upd (setEipBody die n lvl value)

/-- MTIMECMP_REACHED (R449). -/
def execMtimecmpReached (die n lvl : Nat) (s : State) : Host.Outcome State Fault Refusal := s.upd (mtimecmpBody die n lvl)

/-- REGISTER_WRITE (R7). -/
def execRegisterWrite (sender : Sender) (die blk off value : Nat) (s : State) : Host.Outcome State Fault Refusal :=
  s.upd (registerWriteBody sender die blk off value)

end Sys2Proof.Machine
end

