-- ==== Sys2Proof/Machine/Dispatch.lean ====
section
/-!
DEFINITION. The dispatch: one arm for each command, each one direct call of the command's meaning.
-/
namespace Sys2Proof.Machine

/-- A command's effect on everything but the queue (opcode_table.json). -/
def exec (i : Instr) (s : State) : Host.Outcome State Fault Refusal :=
  match i with
  | .powerOn => Sys2Proof.Machine.execPowerOn s
  | .resetN => Sys2Proof.Machine.execResetN s
  | .eftReset die value => Sys2Proof.Machine.execEftReset die value s
  | .railUndervoltage => Sys2Proof.Machine.execRailUndervoltage s
  | .refclkPresent x => Sys2Proof.Machine.execRefclkPresent x s
  | .deviceStart refclk x => Sys2Proof.Machine.execDeviceStart refclk x s
  | .bridgeTrainTimeout => Sys2Proof.Machine.execBridgeTrainTimeout s
  | .lp5xTrainingDone ok caps => Sys2Proof.Machine.execLp5xTrainingDone ok caps s
  | .shedWipeDone die => Sys2Proof.Machine.execShedWipeDone die s
  | .lp5xWipeDone => Sys2Proof.Machine.execLp5xWipeDone s
  | .nvmeReadComplete r => Sys2Proof.Machine.execNvmeReadComplete r s
  | .weightsSourceTimeout => Sys2Proof.Machine.execWeightsSourceTimeout s
  | .injectionPassDone fail time => Sys2Proof.Machine.execInjectionPassDone fail time s
  | .gptpStepTimeout => Sys2Proof.Machine.execGptpStepTimeout s
  | .sampleEdge counts late => Sys2Proof.Machine.execSampleEdge counts late s
  | .clockHoldEnd => Sys2Proof.Machine.execClockHoldEnd s
  | .outputPhaseMark mark => Sys2Proof.Machine.execOutputPhaseMark mark s
  | .goldenSlotStart => Sys2Proof.Machine.execGoldenSlotStart s
  | .testWindowStart upsets => Sys2Proof.Machine.execTestWindowStart upsets s
  | .safetyWindowStart o0 o1 => Sys2Proof.Machine.execSafetyWindowStart o0 o1 s
  | .sliceStart die idx inside => Sys2Proof.Machine.execSliceStart die idx inside s
  | .sliceEnd die idx => Sys2Proof.Machine.execSliceEnd die idx s
  | .sliceDeadline die idx rest => Sys2Proof.Machine.execSliceDeadline die idx rest s
  | .sliceHardLimit die idx inside => Sys2Proof.Machine.execSliceHardLimit die idx inside s
  | .tickFlit die h stamp lastApplied note => Sys2Proof.Machine.execTickFlit die h stamp lastApplied note s
  | .chorusInPulse width riseNs => Sys2Proof.Machine.execChorusInPulse width riseNs s
  | .tickSourceLost => Sys2Proof.Machine.execTickSourceLost s
  | .delayProbe die h roundTripNs => Sys2Proof.Machine.execDelayProbe die h roundTripNs s
  | .chorusTickPeriodWrite die value atBoundary => Sys2Proof.Machine.execChorusTickPeriodWrite die value atBoundary s
  | .chorusFrameLenWrite die value atBoundary => Sys2Proof.Machine.execChorusFrameLenWrite die value atBoundary s
  | .chorusWinLenWrite die value atBoundary => Sys2Proof.Machine.execChorusWinLenWrite die value atBoundary s
  | .chorusLock die value => Sys2Proof.Machine.execChorusLock die value s
  | .chorusOverrunLogClear die value same => Sys2Proof.Machine.execChorusOverrunLogClear die value same s
  | .corePortAccess core work read write upsets inside => Sys2Proof.Machine.execCorePortAccess core work read write upsets inside s
  | .sharedPortRequest reqs upsets => Sys2Proof.Machine.execSharedPortRequest reqs upsets s
  | .sharedPortQueueFree die col => Sys2Proof.Machine.execSharedPortQueueFree die col s
  | .pondErrStatusClear die value same => Sys2Proof.Machine.execPondErrStatusClear die value same s
  | .unmappedStatusClear die value same => Sys2Proof.Machine.execUnmappedStatusClear die value same s
  | .retainReq die value => Sys2Proof.Machine.execRetainReq die value s
  | .wakingDone die => Sys2Proof.Machine.execWakingDone die s
  | .lp5xPatrol die upsets => Sys2Proof.Machine.execLp5xPatrol die upsets s
  | .walkReturn die unit work entry va write => Sys2Proof.Machine.execWalkReturn die unit work entry va write s
  | .faultPark die unit => Sys2Proof.Machine.execFaultPark die unit s
  | .faultRecordWrite die unit => Sys2Proof.Machine.execFaultRecordWrite die unit s
  | .xlateFqHeadWrite die q value => Sys2Proof.Machine.execXlateFqHeadWrite die q value s
  | .invalidationStart die value => Sys2Proof.Machine.execInvalidationStart die value s
  | .invalidationDone => Sys2Proof.Machine.execInvalidationDone s
  | .resumeRetry die id => Sys2Proof.Machine.execResumeRetry die id s
  | .resumeAbort die id => Sys2Proof.Machine.execResumeAbort die id s
  | .dmaDescriptorStart die e work k => Sys2Proof.Machine.execDmaDescriptorStart die e work k s
  | .dmaDescriptorDone die e upsets => Sys2Proof.Machine.execDmaDescriptorDone die e upsets s
  | .matrix iss w next => Sys2Proof.Machine.execMatrix iss w next s
  | .gate iss w => Sys2Proof.Machine.execGate iss w s
  | .commandEnd core => Sys2Proof.Machine.execCommandEnd core s
  | .cqHeadWrite die value => Sys2Proof.Machine.execCqHeadWrite die value s
  | .attention iss w raced => Sys2Proof.Machine.execAttention iss w raced s
  | .padCopyDone core n upsets => Sys2Proof.Machine.execPadCopyDone core n upsets s
  | .padEvictionAck core n => Sys2Proof.Machine.execPadEvictionAck core n s
  | .padEdit die k value => Sys2Proof.Machine.execPadEdit die k value s
  | .mergePartial m => Sys2Proof.Machine.execMergePartial m s
  | .recurrentChunk iss w => Sys2Proof.Machine.execRecurrentChunk iss w s
  | .startBarrier core => Sys2Proof.Machine.execStartBarrier core s
  | .stepBarrier core => Sys2Proof.Machine.execStepBarrier core s
  | .swapOut iss w => Sys2Proof.Machine.execSwapOut iss w s
  | .swapIn iss w => Sys2Proof.Machine.execSwapIn iss w s
  | .collSum iss w => Sys2Proof.Machine.execCollSum iss w s
  | .collGather iss w => Sys2Proof.Machine.execCollGather iss w s
  | .collNorm iss w => Sys2Proof.Machine.execCollNorm iss w s
  | .collBarrier iss w => Sys2Proof.Machine.execCollBarrier iss w s
  | .collectiveContribution h a => Sys2Proof.Machine.execCollectiveContribution h a s
  | .collectiveTimeout scope seq => Sys2Proof.Machine.execCollectiveTimeout scope seq s
  | .abandonNotice die h group seq status => Sys2Proof.Machine.execAbandonNotice die h group seq status s
  | .segment iss w => Sys2Proof.Machine.execSegment iss w s
  | .resolve iss w => Sys2Proof.Machine.execResolve iss w s
  | .ringEnable die => Sys2Proof.Machine.execRingEnable die s
  | .ringDisable die => Sys2Proof.Machine.execRingDisable die s
  | .ringRestart die => Sys2Proof.Machine.execRingRestart die s
  | .doorbell die value => Sys2Proof.Machine.execDoorbell die value s
  | .kernelDispatch core => Sys2Proof.Machine.execKernelDispatch core s
  | .nop iss w => Sys2Proof.Machine.execNop iss w s
  | .syncAdd iss w => Sys2Proof.Machine.execSyncAdd iss w s
  | .setWait iss w => Sys2Proof.Machine.execSetWait iss w s
  | .modelLoad iss w => Sys2Proof.Machine.execModelLoad iss w s
  | .modelLoadDone g upsets => Sys2Proof.Machine.execModelLoadDone g upsets s
  | .kbegin iss w => Sys2Proof.Machine.execKbegin iss w s
  | .waitTimeout g => Sys2Proof.Machine.execWaitTimeout g s
  | .kernelBoundStop ring inside => Sys2Proof.Machine.execKernelBoundStop ring inside s
  | .kernelTicksLimit ring inside => Sys2Proof.Machine.execKernelTicksLimit ring inside s
  | .jobAdmit die job client => Sys2Proof.Machine.execJobAdmit die job client s
  | .jobComplete die job client => Sys2Proof.Machine.execJobComplete die job client s
  | .jobEnd die job client => Sys2Proof.Machine.execJobEnd die job client s
  | .jobRelease die job client => Sys2Proof.Machine.execJobRelease die job client s
  | .jobDrained job => Sys2Proof.Machine.execJobDrained job s
  | .jobEndingDone job => Sys2Proof.Machine.execJobEndingDone job s
  | .syncAddLo die value => Sys2Proof.Machine.execSyncAddLo die value s
  | .heldRequestIssue die port cl => Sys2Proof.Machine.execHeldRequestIssue die port cl s
  | .cameraFrameStart die port vc num ecc => Sys2Proof.Machine.execCameraFrameStart die port vc num ecc s
  | .csi2LinePacket die port vc dt ecc crcOk payload => Sys2Proof.Machine.execCsi2LinePacket die port vc dt ecc crcOk payload s
  | .cameraFrameEnd die port vc ecc => Sys2Proof.Machine.execCameraFrameEnd die port vc ecc s
  | .imuDataReady n => Sys2Proof.Machine.execImuDataReady n s
  | .streamStale die slot => Sys2Proof.Machine.execStreamStale die slot s
  | .streamCfgWrite die slot chk value => Sys2Proof.Machine.execStreamCfgWrite die slot chk value s
  | .fusionContribution die dets => Sys2Proof.Machine.execFusionContribution die dets s
  | .project die w => Sys2Proof.Machine.execProject die w s
  | .calSwapWrite die value => Sys2Proof.Machine.execCalSwapWrite die value s
  | .update die idx w => Sys2Proof.Machine.execUpdate die idx w s
  | .updateCommit die => Sys2Proof.Machine.execUpdateCommit die s
  | .checkEdges die idx w => Sys2Proof.Machine.execCheckEdges die idx w s
  | .checkSegments die idx w => Sys2Proof.Machine.execCheckSegments die idx w s
  | .edgeCheckDone die checker => Sys2Proof.Machine.execEdgeCheckDone die checker s
  | .planSearch die idx w limit => Sys2Proof.Machine.execPlanSearch die idx w limit s
  | .planSegment die idx w => Sys2Proof.Machine.execPlanSegment die idx w s
  | .publish die idx w => Sys2Proof.Machine.execPublish die idx w s
  | .solve die idx w => Sys2Proof.Machine.execSolve die idx w s
  | .solveContinue die idx w => Sys2Proof.Machine.execSolveContinue die idx w s
  | .solverIterationEnd die p => Sys2Proof.Machine.execSolverIterationEnd die p s
  | .refresh die idx w => Sys2Proof.Machine.execRefresh die idx w s
  | .refreshDone die p => Sys2Proof.Machine.execRefreshDone die p s
  | .controlUpdateWindow die => Sys2Proof.Machine.execControlUpdateWindow die s
  | .slotEnable die w => Sys2Proof.Machine.execSlotEnable die w s
  | .slotDisable die w => Sys2Proof.Machine.execSlotDisable die w s
  | .slotLoad die idx w => Sys2Proof.Machine.execSlotLoad die idx w s
  | .testGeneratorStart die value => Sys2Proof.Machine.execTestGeneratorStart die value s
  | .testGeneratorEnd die => Sys2Proof.Machine.execTestGeneratorEnd die s
  | .captureStart die value => Sys2Proof.Machine.execCaptureStart die value s
  | .captureDone die => Sys2Proof.Machine.execCaptureDone die s
  | .lockstepMismatch n => Sys2Proof.Machine.execLockstepMismatch n s
  | .verdictRecord n rec => Sys2Proof.Machine.execVerdictRecord n rec s
  | .verdictCompare n => Sys2Proof.Machine.execVerdictCompare n s
  | .estopSample low => Sys2Proof.Machine.execEstopSample low s
  | .tailStopTimeout => Sys2Proof.Machine.execTailStopTimeout s
  | .safetyResume die value => Sys2Proof.Machine.execSafetyResume die value s
  | .resumeGpioEdge => Sys2Proof.Machine.execResumeGpioEdge s
  | .ageTimeout => Sys2Proof.Machine.execAgeTimeout s
  | .selftestWalk die => Sys2Proof.Machine.execSelftestWalk die s
  | .selftestItemDone die lane fails => Sys2Proof.Machine.execSelftestItemDone die lane fails s
  | .selftestGuardAbort die lane => Sys2Proof.Machine.execSelftestGuardAbort die lane s
  | .selftestRestoreDone die lane => Sys2Proof.Machine.execSelftestRestoreDone die lane s
  | .selftestManStart die value => Sys2Proof.Machine.execSelftestManStart die value s
  | .selftestFailPop die => Sys2Proof.Machine.execSelftestFailPop die s
  | .baskCapWrite die value atEdge => Sys2Proof.Machine.execBaskCapWrite die value atEdge s
  | .powerEstimate terms => Sys2Proof.Machine.execPowerEstimate terms s
  | .calibration reads => Sys2Proof.Machine.execCalibration reads s
  | .tempConversion die codes => Sys2Proof.Machine.execTempConversion die codes s
  | .ageingMeasure dies => Sys2Proof.Machine.execAgeingMeasure dies s
  | .pmbAlert faults => Sys2Proof.Machine.execPmbAlert faults s
  | .hostHartCtlWrite die n value => Sys2Proof.Machine.execHostHartCtlWrite die n value s
  | .lifecycleRequest die burn => Sys2Proof.Machine.execLifecycleRequest die burn s
  | .quote die => Sys2Proof.Machine.execQuote die s
  | .flashRead die => Sys2Proof.Machine.execFlashRead die s
  | .flashErase die => Sys2Proof.Machine.execFlashErase die s
  | .flashProgram die => Sys2Proof.Machine.execFlashProgram die s
  | .flashCommandDone ok => Sys2Proof.Machine.execFlashCommandDone ok s
  | .olinerRead die h t a n upsets => Sys2Proof.Machine.execOlinerRead die h t a n upsets s
  | .olinerReadReply die h t status data => Sys2Proof.Machine.execOlinerReadReply die h t status data s
  | .olinerWrite die h t a n data upsets => Sys2Proof.Machine.execOlinerWrite die h t a n data upsets s
  | .olinerWriteAck die h t status => Sys2Proof.Machine.execOlinerWriteAck die h t status s
  | .olinerSyncAdd die h sync n seq => Sys2Proof.Machine.execOlinerSyncAdd die h sync n seq s
  | .olinerSyncAck die h seq status => Sys2Proof.Machine.execOlinerSyncAck die h seq status s
  | .heartbeatFlit die h time ticks pos grant tail lock lastApplied note => Sys2Proof.Machine.execHeartbeatFlit die h time ticks pos grant tail lock lastApplied note s
  | .nak die lastGood => Sys2Proof.Machine.execNak die lastGood s
  | .idleFlit die h => Sys2Proof.Machine.execIdleFlit die h s
  | .flitAckTimeout die => Sys2Proof.Machine.execFlitAckTimeout die s
  | .retrainDone die ok lastApplied => Sys2Proof.Machine.execRetrainDone die ok lastApplied s
  | .linkTrainRetry die => Sys2Proof.Machine.execLinkTrainRetry die s
  | .partnerLost die => Sys2Proof.Machine.execPartnerLost die s
  | .bridgeDown die col => Sys2Proof.Machine.execBridgeDown die col s
  | .pcieInboundRequest die bar off n write data tag upsets => Sys2Proof.Machine.execPcieInboundRequest die bar off n write data tag upsets s
  | .pcieMsixTrigger die value => Sys2Proof.Machine.execPcieMsixTrigger die value s
  | .pcieConfigRead die => Sys2Proof.Machine.execPcieConfigRead die s
  | .pcieConfigWrite die => Sys2Proof.Machine.execPcieConfigWrite die s
  | .pcieMemoryRead die => Sys2Proof.Machine.execPcieMemoryRead die s
  | .pcieMemoryWrite die => Sys2Proof.Machine.execPcieMemoryWrite die s
  | .pcieMboxCompletion die result data => Sys2Proof.Machine.execPcieMboxCompletion die result data s
  | .pcieCompletionTimeout die => Sys2Proof.Machine.execPcieCompletionTimeout die s
  | .ethFrameReceive die p bytes fcsOk time gptp => Sys2Proof.Machine.execEthFrameReceive die p bytes fcsOk time gptp s
  | .enetHqTxWrite die p value => Sys2Proof.Machine.execEnetHqTxWrite die p value s
  | .ethFrameSent die p => Sys2Proof.Machine.execEthFrameSent die p s
  | .qbvCycleStart die p => Sys2Proof.Machine.execQbvCycleStart die p s
  | .canFrameReceive ch err fmt ext id data => Sys2Proof.Machine.execCanFrameReceive ch err fmt ext id data s
  | .canTxStart ch value => Sys2Proof.Machine.execCanTxStart ch value s
  | .canFrameSent ch => Sys2Proof.Machine.execCanFrameSent ch s
  | .canRxSnapshot => Sys2Proof.Machine.execCanRxSnapshot s
  | .spiSlotTrigger n k => Sys2Proof.Machine.execSpiSlotTrigger n k s
  | .spiGo value => Sys2Proof.Machine.execSpiGo value s
  | .spiTransactionDone n rx => Sys2Proof.Machine.execSpiTransactionDone n rx s
  | .i2cStart n value => Sys2Proof.Machine.execI2cStart n value s
  | .i2cDone n result bytes => Sys2Proof.Machine.execI2cDone n result bytes s
  | .i2cDataRead n => Sys2Proof.Machine.execI2cDataRead n s
  | .uartDataWrite n value => Sys2Proof.Machine.execUartDataWrite n value s
  | .uartDataRead n => Sys2Proof.Machine.execUartDataRead n s
  | .uartByteReceived n byte err => Sys2Proof.Machine.execUartByteReceived n byte err s
  | .requestTimeout r tag => Sys2Proof.Machine.execRequestTimeout r tag s
  | .remoteRequestTimeout die id sync => Sys2Proof.Machine.execRemoteRequestTimeout die id sync s
  | .unitReset die u => Sys2Proof.Machine.execUnitReset die u s
  | .unitDisable die u => Sys2Proof.Machine.execUnitDisable die u s
  | .unitEnable die u => Sys2Proof.Machine.execUnitEnable die u s
  | .unitDrainEnd die => Sys2Proof.Machine.execUnitDrainEnd die s
  | .conservationAudit => Sys2Proof.Machine.execConservationAudit s
  | .raddPop die => Sys2Proof.Machine.execRaddPop die s
  | .errStatusClear die value same => Sys2Proof.Machine.execErrStatusClear die value same s
  | .hostStoreError die hart fails => Sys2Proof.Machine.execHostStoreError die hart fails s
  | .seteipnumWrite die n lvl value => Sys2Proof.Machine.execSeteipnumWrite die n lvl value s
  | .mtimecmpReached die n lvl => Sys2Proof.Machine.execMtimecmpReached die n lvl s
  | .idcode => Sys2Proof.Machine.execIdcode s
  | .bypass => Sys2Proof.Machine.execBypass s
  | .samplePreload pins data => Sys2Proof.Machine.execSamplePreload pins data s
  | .extest pins data => Sys2Proof.Machine.execExtest pins data s
  | .dtmcs value => Sys2Proof.Machine.execDtmcs value s
  | .dmi op addr data => Sys2Proof.Machine.execDmi op addr data s
  | .unlock access => Sys2Proof.Machine.execUnlock access s
  | .debugUnlock die => Sys2Proof.Machine.execDebugUnlock die s
  | .bdtmNop op => Sys2Proof.Machine.execBdtmNop op s
  | .bdtmRead t reg => Sys2Proof.Machine.execBdtmRead t reg s
  | .bdtmWrite t reg data => Sys2Proof.Machine.execBdtmWrite t reg data s
  | .haltReq t => Sys2Proof.Machine.execHaltReq t s
  | .resume t => Sys2Proof.Machine.execResume t s
  | .step t => Sys2Proof.Machine.execStep t s
  | .registerWrite sender die blk off value => Sys2Proof.Machine.execRegisterWrite sender die blk off value s
  | .sectionLoadDone seqs => Sys2Proof.Machine.execSectionLoadDone seqs s
  | .programFusedSecret secret mfgHash cert => Sys2Proof.Machine.execProgramFusedSecret secret mfgHash cert s
  | .pulseInputEdge n up both => Sys2Proof.Machine.execPulseInputEdge n up both s
  | .analogueConversion n code => Sys2Proof.Machine.execAnalogueConversion n code s
  | .uartByteSent n => Sys2Proof.Machine.execUartByteSent n s
  | .pcieLinkStateChange die up width speed => Sys2Proof.Machine.execPcieLinkStateChange die up width speed s
  | .ethLinkStateChange die p up => Sys2Proof.Machine.execEthLinkStateChange die p up s
  | .olinerCrcFail die => Sys2Proof.Machine.execOlinerCrcFail die s
  | .bridgeLinkRetry die col => Sys2Proof.Machine.execBridgeLinkRetry die col s
  | .mr4TemperatureReport die rate hot => Sys2Proof.Machine.execMr4TemperatureReport die rate hot s

end Sys2Proof.Machine
end

