-- ==== Sys2Proof/Safety.lean ====
section
/-!
DEFINITION. What claims mean by a sound state and by a run that goes on.
-/
namespace Sys2Proof.Machine

/-- The canonical form of memory: addresses strictly rising, and no byte listed that an unlisted address reads as. -/
def Memory.wf (m : List Host.Cell) : Bool := SMap.wf (0 : Byte) m

/-- Memory is in its one canonical form, and no request to a register, and none that a port has let go, is left over from a command. -/
def Device.sound (s : Device) : Prop := Memory.wf s.mem ∧ s.regReqs = [] ∧ s.regul.sent = []

/-- A state is sound if its device is. -/
def State.sound (s : State) : Prop := s.dev.sound

/-- A step answers a next state. -/
def goesOn (o : Host.Outcome State Fault Refusal) : Prop := ∃ t, o = .next t

/-- The state with another device and the same queue. -/
def State.withDev (s : State) (d : Device) : State := { s with dev := d }

/-- A command answers a next state, with the queue as it was and a device that has a property. -/
def runs (c : Instr) (s : State) (P : Device → Prop) : Prop := ∃ t, exec c s = .next t ∧ t.pending = s.pending ∧ P t.dev

/-- Every register field but those named, each on its die, reads as before. -/
def keepsFields (s t : Device) (but : List (Nat × Fld)) : Prop :=
  ∀ (die : Nat) (f : Fld), (∀ x ∈ but, f.key die ≠ x.2.key x.1) → t.rd die f = s.rd die f

/-- Every byte of memory reads as before. -/
def keepsMem (s t : Device) : Prop := ∀ a, t.byte a = s.byte a

/-- A flit comes to an UP port of a die in its order, for this device, with no credit and nothing that it could acknowledge; the port holds
no flit of its own (R406 to R409). -/
def Device.flitComes (s : Device) (die : Nat) (h : FlitHead) : Prop :=
  s.rd die OLINER_STATUS_STATE = olUP ∧ (s.olPort die).training = false ∧ (s.olPort die).replay = [] ∧ (s.olPort die).wait = [] ∧
  h.seq = ((s.olPort die).seqIn + 1) % 4096 ∧ h.cr = 0 ∧ h.dst = s.ownId

/-- The counts of transfers over the bridges between dies (R434), which accesses that cross them move. -/
def bridgeFields : List (Nat × Fld) :=
  (List.range 4).flatMap fun d => [DIE_CTL_BRIDGE_AUDIT_ROW_SENT, DIE_CTL_BRIDGE_AUDIT_ROW_RETURNED, DIE_CTL_BRIDGE_AUDIT_COL_SENT,
    DIE_CTL_BRIDGE_AUDIT_COL_RETURNED].map (d, ·)

/-- A message goes nowhere, to memory, or to a host core's interrupt file (R207, R448), and not to some other register. -/
def Device.plainMsi (s : Device) (a : Nat) : Prop :=
  a = 0 ∨ ∀ die blk off, s.region a = .reg die blk off → blk = 30 ∧ 0x8000 ≤ off ∧ off % 0x1000 = 0

/-- A command of one core that nothing stands in the way of (R206, R209, R212, R224, R455): the core is not halted, the command may be issued,
its entry's read succeeds, it names no store bytes outside a lend window, and it passes the dispatcher's checks. -/
def Device.offers (s : Device) (i : Issue) (w next : List Nat) (core : Nat) : Prop :=
  i.cores = [core] ∧ core < 256 ∧ s.isHalted core = false ∧ s.mayIssue i w = true ∧ s.lendBad i w next = false ∧
  (∀ g, i.work = .ring g → (s.headRead g).2 = stDONE) ∧
  (s.taken i w).dispatchReason i w = 0

/-- The registers that issuing and running a command on a core may write: its numeric flags and count (R133), the count of entries
fetched (R224), and the counts of the bridges that the entry's read crosses. -/
def issueFields (i : Issue) (core : Nat) : List (Nat × Fld) :=
  ((CLUSTER_NUM_COUNT_REPLACED (core % 64 / 8) (core % 8)) :: stickyFlds (core % 64 / 8) (core % 8)).map (fun f => (core / 64, f)) ++
  (match i.work with | .ring g => g / 65536 | .slice d _ => d, DISPATCH_AUDIT_FETCHED) :: bridgeFields

/-- A core's command runs with no error so far. -/
def Device.running (s : Device) (core : Nat) : Prop := ∃ c, s.cmd core = some c ∧ c.status = stDONE ∧ c.ended = false

/-- A collective of one core and one row alone, outside any group, whose input and output lie in the core's store (R186, R189, R190), and
which meets no other collective's contributions or notices. -/
def Device.loneColl (s : Device) (i : Issue) (w : List Nat) (core : Nat) : Prop :=
  s.offers i w [] core ∧ clGroupEn w = false ∧ clLog2 w = 0 ∧ clBase w = core ∧ clRows w = 1 ∧
  (s.taken i w).clReason (core / 64) (s.workJob i.work) w = 0 ∧ s.coll.active = [] ∧ s.coll.notices = [] ∧ s.coll.early = [] ∧
  (clSrc w).space = 1 ∧ (clDst w).space = 1 ∧ (clSrc w).addr + 64 * clUnits w ≤ 0x40000

end Sys2Proof.Machine
end

