-- ==== Sys2Proof/Certificates/Slice0/Obligations.lean ====
section
/-!
DEFINITION. The statements for the provers: what the commands of the block do, and what holds of the whole machine. Each docstring names the
rules of the spec it rests on and, where the model had to choose, the entries of the assumption log.
-/
open Sys2Proof Sys2Proof.Machine

/-- A step takes the command at the front of the queue and runs it with the rest of the queue; on an empty queue one reference cycle passes
(the model's choice, assumption 2), and a command leaves the queue as it finds it. It rests on choices of the model: assumptions 2, 181. -/
def Obligations.StepRunsFrontCommand : Prop :=
  ∀ (s : State) (c : Instr),
    step { s with pending := c :: s.pending } = exec c s ∧
    step { s with pending := [] } = .next { dev := s.dev.passRc.done, pending := [] } ∧
    ∀ t, exec c s = .next t → t.pending = s.pending

/-- Reset (R7, R79, R388): no command waits and memory reads 0; the registers hold the reset values of their tables, of which these are some
that are not 0; a die knows its number; and the state is sound. It rests on choices of the model: assumptions 3, 22, 134, 179, 187. -/
def Obligations.ResetState : Prop :=
  State.reset.sound ∧ State.reset.pending = [] ∧ (∀ a, State.reset.dev.byte a = 0) ∧ State.reset.dev.chorus.time = 0 ∧
  State.reset.dev.out = [] ∧
  ∀ die < 4, let s := State.reset.dev
    s.rd die DIE_CTL_ID_DIE = die ∧ s.rd die DIE_CTL_ID_LEAD = (if die = 0 then 1 else 0) ∧
    s.rd die CHORUS_TICK_PERIOD_PERIOD_RC = 150000 ∧ s.rd die CHORUS_FRAME_LEN_TICKS = 64 ∧ s.rd die CHORUS_WIN_LEN_GOLDEN_LEN = 400 ∧
    s.rd die CHORUS_WIN_LEN_TEST_LEN = 600 ∧ s.rd die CHORUS_WIN_LEN_SAFETY_LEN = 375 ∧ s.rd die CHORUS_STATUS_LOCK_STATE = 2 ∧
    s.rd die POND_SCRUB_CTL_LINES = 1024 ∧ s.rd die LP5X_CTL_INLINE_ECC = 1 ∧ s.rd die LP5X_CTL_RATE = 2 ∧
    (∀ n < 4, s.rd die (XLATE_FQ_CTL_LOG2_SIZE n) = 4 ∧ s.rd die (HOST_HART_CTL_FREQ n) = 4) ∧ s.rd die DISPATCH_CTL_WAIT_TICKS = 64 ∧
    s.rd die DISPATCH_CTL_KERNEL_TICKS = 16 ∧ s.rd die REGULATE_IO_CLASS_PCIE_CLASS = 15 ∧ (∀ c < 16, s.rd die (REGULATE_CLASS_LIMIT_CORE_LIM_M1 c) = 255) ∧
    s.rd die (INGEST_STREAM_CHK_STALE_TICKS 0) = 64 ∧ s.rd die FUSION_STATUS_LEVEL = 4 ∧ s.rd die FUSION_TRACKS_IDLE_COUNT_B = 4096 ∧
    s.rd die REFLEX_COLL_CTL_TESTS_4 = 64 ∧ s.rd die SAFETY_CTL_STOP_TICKS = 4000 ∧ s.rd die SAFETY_STATUS_TAIL_STATE = 3 ∧
    s.rd die SAFETY_STATUS_RECOVERABLE = 1 ∧ s.rd die BASK_CTL_HOT_C = 105 ∧ s.rd die BASK_CAP_CAP_DW = 1600 ∧
    (∀ n < 8, s.rd die (BASK_RAIL_GAIN n) = 4096) ∧ s.rd die EFT_BOOT_STATUS_STAGE = 1 ∧ s.rd die DIE_CTL_ERR_CTL_REMOTE_TICKS = 4 ∧
    (∀ n < 12, s.rd die (LSIO_CAN_NBT_TSEG1_M1 n) = 62) ∧
    ∀ f ∈ [CHORUS_LOCK_LOCK, POND_CTL_LOCK, DISPATCH_CTL_LOCK, REGULATE_CTL_LOCK, EFT_BOOT_STATUS_READY, SAFETY_CTL_LOCK, BASK_STATUS_TRIP,
      DIE_CTL_ERR_STATUS_VALID, POND_ERR_STATUS_VALID, SYNC_STATUS_REFUSED], s.rd die f = 0

/-- Every step keeps a state sound: memory stays in its canonical form, and no register request is left over. It rests on choices of the
model: assumptions 2, 161, 182. -/
def Obligations.EveryStepKeepsSound : Prop :=
 ∀ s t : State, s.sound → step s = .next t → t.sound

/-- Every run goes on: from every state, no step ends in a fault or a refusal; each step takes one command from the front of the queue, so
that the queue is empty after as many steps as it held commands; and from the first step on every state is sound. It rests on choices of
the model: assumption 2. -/
def Obligations.EveryRunGoesOn : Prop :=
  ∀ s : State, ∃ run : Nat → State, run 0 = s ∧
    ∀ n, step (run n) = .next (run (n + 1)) ∧ (run (n + 1)).sound ∧ (run n).pending = s.pending.drop n

/-- Device addresses (R6): the Pond of a die starts at die × 0x0_4800_0000, its register space at 0x3_0000_0000 + die × 0x0400_0000, and a
block lies at its offset there; the CHORUS block of die 2 starts at 0x3_0801_0000. -/
def Obligations.AddressMap : Prop :=
  ∀ (s : Device) (die : Nat), die < 4 →
    (∀ off < 0x48000000, ∃ col o, s.region (die * 0x48000000 + off) = .pond die col o ∧ off = col * columnBytes + o ∧ o < columnBytes) ∧
    (∀ blk off, blk < 32 → off < 0x10000 → s.region (0x300000000 + die * 0x4000000 + blk * 0x10000 + off) = .reg die blk off) ∧
    s.region 0x308010000 = .reg 2 1 0

/-- Device time (R53): it starts at 0, and on a device that has left reset it advances by 5 ns every 3 rc, exactly at every cycle: n rc after
a moment at which its fraction is 0 it has advanced by 5n / 3 ns. Every die reads it. It rests on choices of the model: assumptions 2,
157. -/
def Obligations.DeviceTimeRuns : Prop :=
  State.reset.dev.chorus.time = 0 ∧ State.reset.dev.chorus.frac = 0 ∧
  ∀ run : Nat → State, (∀ n, step (run n) = .next (run (n + 1))) → (run 0).pending = [] → (run 0).sound → (run 0).dev.eft.begun = true →
    (run 0).dev.chorus.slewPpm = 0 → (run 0).dev.chorus.frac = 0 → (run 0).dev.chorus.time < 2 ^ 64 →
    ∀ n, (run n).dev.chorus.time = ((run 0).dev.chorus.time + 5 * n / 3) % 2 ^ 64 ∧
      ∀ die, (run n).dev.regView die 1 0x30 = (run n).dev.chorus.time % 2 ^ 32

/-- A block that is not present on a die reads as 0 throughout, and writes to it by a requester that reaches it are ignored; such accesses end
with DONE and are not recorded as unmapped; the SAFETY block of dies 2 and 3 behaves so too (R33). Which blocks those are
DIE_CTL_BLOCKS_PRESENT tells. -/
def Obligations.AbsentBlocks : Prop :=
  (∀ die < 4, ∀ blk < 32, regAbsent die blk = true ↔
    (bit (State.reset.dev.rd die DIE_CTL_BLOCKS_PRESENT_PRESENT) blk = false ∨ (blk = 21 ∧ 2 ≤ die))) ∧
  ∀ (s : State) (die blk : Nat), s.dev.sound → die < 4 → regAbsent die blk = true →
    (∀ off : Nat, s.dev.regRead die blk off = (s.dev, 0)) ∧
    (∀ master off v : Nat, off < 0x10000 → s.dev.accessStatus die master (regBase + die * regDieBytes + blk * 0x10000 + off) 4 true = stDONE →
      exec (.registerWrite ⟨die, master⟩ die blk off v) s = .next (s.withDev { s.dev with reply := (stDONE, 0) })) ∧
    ∀ (r : Req) (off : Nat), s.dev.region r.addr = .reg die blk off → r.die = die → r.master = mManage → r.work = none → r.remote = [] →
      1 ≤ r.len → s.dev.isFenced die r.master = false → s.dev.accessStatus die r.master r.addr r.len r.write = stDONE →
      runs (.sharedPortRequest [r] []) s fun d => d.reply = (stDONE, 0) ∧ keepsMem s.dev d ∧ keepsFields s.dev d []

/-- TAIL_ACTIVE is set and cleared only by the islands (R336, R343): no write of a register of REFLEX_CTRL or of SAFETY, whoever writes it
from whichever die, changes it on any die. -/
def Obligations.WritesKeepTailActive : Prop :=
  ∀ (s : State) (src master die blk off v k : Nat), s.dev.sound → (blk = 17 ∨ blk = 21) → off < 0x10000 →
    runs (.registerWrite ⟨src, master⟩ die blk off v) s fun d =>
      d.rd k REFLEX_CTRL_STATUS_TAIL_ACTIVE = s.dev.rd k REFLEX_CTRL_STATUS_TAIL_ACTIVE ∧
      d.rd k SAFETY_STATUS_TAIL_ACTIVE = s.dev.rd k SAFETY_STATUS_TAIL_ACTIVE

/-- A host core's class (R227): a write of REGULATE_HOST_CLASS_n gives the new class to requests that are issued after it; a request that
leaves its port is labelled with the class then in force and counts against it; one that has been labelled keeps that class whatever is
written, also while it waits for a queue that is full, where no count holds it; and a retirement of the old class's count moves no other. -/
def Obligations.HostClassAtIssue : Prop :=
  ∀ (s : State) (die n c : Nat), s.dev.sound → die < 4 → n < 4 → c < 16 →
    (∀ master : Nat, s.dev.accessStatus die master (regBase + die * regDieBytes + 7 * 0x10000 + 0x10 + 4 * n) 4 true = stDONE →
      runs (.registerWrite ⟨die, master⟩ die 7 (0x10 + 4 * n) c) s fun d =>
        (∀ r : Req, r.die = die → r.master = mHost + n → r.cls < 16 → d.label r = (false, c)) ∧
        (∀ x : Req, x.master = mHost + n → 16 ≤ x.cls → d.label x = s.dev.label x) ∧ d.regul = s.dev.regul ∧ d.pond = s.dev.pond) ∧
    (∀ (r : Req) (col off : Nat), r.die = die → r.master = mHost + n → r.cls < 16 → r.remote = [] → r.work = none →
      s.dev.label r = (false, c) → s.dev.region r.addr = .pond die col off →
      s.dev.isFenced die r.master = false → s.dev.accessStatus die r.master r.addr r.len r.write = stDONE →
      s.dev.outstanding die (mHost + n) c < s.dev.classLimit die (mHost + n) c → s.dev.regul.held = [] →
      (admits (s.dev.portQueue die col) false = true → runs (.sharedPortRequest [r] []) s fun d =>
        d.pond.waiting = s.dev.pond.waiting ∧ d.portQueue die col = s.dev.portQueue die col ++ [false] ∧
        ∀ k, d.outstanding die (mHost + n) k = s.dev.outstanding die (mHost + n) k + (if k = c then 1 else 0)) ∧
      (32 ≤ (s.dev.portQueue die col).length → runs (.sharedPortRequest [r] []) s fun d =>
        d.pond.waiting = s.dev.pond.waiting ++ [{ r with fixed := false, cls := 16 + c }] ∧ d.regul = s.dev.regul)) ∧
    (s.dev.regul.held = [] → 0 < s.dev.outstanding die (mHost + n) c →
      runs (.heldRequestIssue die (mHost + n) c) s fun d =>
        ∀ k < 16, d.outstanding die (mHost + n) k = s.dev.outstanding die (mHost + n) k - (if k = c then 1 else 0)) ∧
    (∀ x : Req, s.dev.pond.waiting = [x] → x.die = die → x.master = mHost + n → x.cls = 16 + c → x.work = none → x.remote = [] →
      ∀ tag : Nat, runs (.requestTimeout { x with cls := 0 } tag) s fun d => d.pond.waiting = [] ∧ d.regul = s.dev.regul)

/-- Power-on, RESET_N low, a rail below 90 % and an alert of an enabled rail leave the device as after reset, but for the fuses and the flash,
both safe-state outputs low; EFT_RESET does so with its key, and is refused with RANGE_ERR while the robot may move (R388, R468, R469). A
reset that meets no erase and no program of the flash leaves every byte of it; one that meets such a command on the sector of address a
leaves every byte outside that sector (R399). A reset that meets a burn of the version fuses leaves FUSE_MIN no lower than it was before
the burn, and every other fuse (R388, R398). It rests on choices of the model: assumptions 134, 139, 231. Its clauses conclude that exec
answers a next state (`runs c s P`: exec c s = .next t, and P of t) for: resetN, powerOn, railUndervoltage, pmbAlert, eftReset. -/
def Obligations.FullResetKeepsFusesAndFlashOnly : Prop :=
  ∀ s : State,
    (∀ op a : Nat, s.dev.eft.flashOp = some (op, a) → op ≠ 0 →
      runs .resetN s fun d => d.regs = Device.resetRegs ∧ d.mem = [] ∧ d.eft.fuses = s.dev.burntFuses ∧ d.eft.flashOp = none ∧
        ∀ x, ¬ (a / 65536 * 65536 ≤ x ∧ x < a / 65536 * 65536 + 65536) → d.flashByte x = s.dev.flashByte x) ∧
    (∀ v : Nat, s.dev.eft.burn = some v → v ≤ s.dev.eft.fuses.version →
      { s.dev.burntFuses with version := s.dev.eft.fuses.version } = s.dev.eft.fuses ∧
      v ≤ s.dev.burntFuses.version ∧ s.dev.burntFuses.version ≤ s.dev.eft.fuses.version) ∧
    ((s.dev.eft.flashOp = none ∨ ∃ a, s.dev.eft.flashOp = some (0, a)) →
    let d : Device :=
      { regs := Device.resetRegs, fresh := s.dev.fresh + b2n s.dev.eft.burn.isSome, out := s.dev.out ++ [.pin "SAFE_OUT0" 0, .pin "SAFE_OUT1" 0]
        eft := { fuses := if s.dev.eft.burn = none then s.dev.eft.fuses else s.dev.burntFuses, flash := s.dev.eft.flash }
        probe := { dm := s.dev.probe.dm.filter fun e => decide (0x2000 ≤ e.1) } }
    exec .powerOn s = .next (s.withDev ({ d with probe := {} })) ∧
    exec .resetN s = .next (s.withDev (d)) ∧
    exec .railUndervoltage s = .next (s.withDev (d)) ∧
    (∀ (n : Nat) (faults : List Nat), n < 8 → n ∈ faults → s.dev.on 0 (BASK_RAIL_EN n) = true →
      exec (.pmbAlert faults) s = .next (s.withDev (d))) ∧
    (∀ value : Nat, value % 65536 = 0x5E7D → s.dev.moving = false → exec (.eftReset 0 value) s = .next (s.withDev (d))) ∧
    (∀ value : Nat, value % 65536 = 0x5E7D → s.dev.moving = true → s.dev.sound →
      exec (.eftReset 0 value) s = .next (s.withDev (s.dev.set 0 EFT_STATUS_RANGE_ERR))))

/-- The steps of the start (R389, R391, R470, R79, R81, R84, R352, R397): without REFCLK it is held at step 1; with it, a BLANK device fails
with LIFECYCLE at step 2; a bridge that has not trained fails it with BRIDGE; LP5X that trains is shown on its die, and a training that
fails steps the rate down; the wipes leave zeros in what they wipe; a source that ends with bytes places them, and one that times out with
none after it fails the start with WEIGHTS; a failed section fails it with the section's reason; a silent checker fails it with INJECTION;
and without an offset within 2 s the device goes on unstepped and is ready, with both islands in START. It rests on choices of the model:
assumptions 142, 144, 145, 147. Its clauses conclude that exec answers a next state (`runs c s P`: exec c s = .next t, and P of t) for:
deviceStart, refclkPresent, bridgeTrainTimeout, lp5xTrainingDone, shedWipeDone, lp5xWipeDone, nvmeReadComplete, weightsSourceTimeout,
sectionLoadDone, injectionPassDone, gptpStepTimeout. -/
def Obligations.StartSteps : Prop :=
  (∀ s : State, s.dev.sound →
    (∀ x, s.dev.eft.begun = false → runs (.deviceStart false x) s fun d =>
      d.rd 0 EFT_BOOT_STATUS_STAGE = 1 ∧ d.eft.begun = true ∧ d.eft.held = true ∧ keepsMem s.dev d ∧
      d.on 0 EFT_BOOT_STATUS_FAILED = s.dev.on 0 EFT_BOOT_STATUS_FAILED) ∧
    (∀ x, s.dev.eft.begun = true → s.dev.eft.held = true → x.bridges = [true, true, true, true] → s.dev.eft.fuses.life = lcBLANK →
      runs (.refclkPresent x) s fun d =>
        d.rd 0 EFT_BOOT_STATUS_STAGE = 2 ∧ d.on 0 EFT_BOOT_STATUS_FAILED = true ∧ d.rd 0 EFT_BOOT_ERR_REASON = 0xD ∧
        d.eft.held = false ∧ d.on 0 DIE_CTL_BRIDGE_STATUS_ROW_UP = true ∧ keepsMem s.dev d) ∧
    (s.dev.inStart = true → s.dev.rd 0 EFT_BOOT_STATUS_STAGE = 1 → s.dev.on 0 DIE_CTL_BRIDGE_STATUS_ROW_UP = false →
      runs .bridgeTrainTimeout s fun d =>
        d.on 0 EFT_BOOT_STATUS_FAILED = true ∧ d.rd 0 EFT_BOOT_ERR_REASON = 0xE ∧ d.rd 0 EFT_BOOT_ITEM_ITEM = 0 ∧ keepsMem s.dev d) ∧
    (∀ caps, s.dev.inStart = true → s.dev.rd 0 EFT_BOOT_STATUS_STAGE = 5 → ∀ k < 4, wd caps k < 64 →
      runs (.lp5xTrainingDone true caps) s fun d =>
        d.on k LP5X_STATUS_TRAINED = true ∧ d.rd k LP5X_STATUS_CAP_GIB = wd caps k ∧ keepsMem s.dev d) ∧
    (∀ caps, s.dev.inStart = true → s.dev.rd 0 EFT_BOOT_STATUS_STAGE = 5 →
      s.dev.rd 0 EFT_BOOT_STATUS_RATE_STEP < s.dev.rd 0 LP5X_CTL_RATE →
      exec (.lp5xTrainingDone false caps) s = .next (s.withDev (s.dev.addHold 0 EFT_BOOT_STATUS_RATE_STEP 1)))) ∧
  (∀ s : State, s.dev.sound → s.dev.inStart = true →
    (∀ die other : Nat, die < 4 → other < 4 → other ≠ die → s.dev.rd 0 EFT_BOOT_STATUS_STAGE = 7 → s.dev.on other POND_STATUS_WIPE_DONE = false →
      runs (.shedWipeDone die) s fun d =>
        d.on die POND_STATUS_WIPE_DONE = true ∧ d.disp.rings = [] ∧ d.disp.sync = [] ∧ d.xlate.tlb = [] ∧ d.host.l1 = [] ∧ d.host.l2 = [] ∧
        keepsFields s.dev d [(die, POND_STATUS_WIPE_DONE), (die, POND_SCRUB_POS_LINE)] ∧
        ∀ a, d.byte a = if (die * pondDieBytes ≤ a ∧ a < (die + 1) * pondDieBytes) ∨
          (storeBase + die * storeDieBytes ≤ a ∧ a < storeBase + (die + 1) * storeDieBytes) then 0 else s.dev.byte a) ∧
    (8 ≤ s.dev.rd 0 EFT_BOOT_STATUS_STAGE → s.dev.pond.lpWiped = false →
      runs .lp5xWipeDone s fun d =>
        d.pond.lpWiped = true ∧ d.regs = s.dev.regs ∧
        ∀ a, d.byte a = if lpBase ≤ a ∧ a < lpBase + 2 ^ 37 then 0 else s.dev.byte a) ∧
    (∀ (w : WeightLoad) (e b : List Nat), s.dev.eft.weights = some w → s.dev.eft.entries.getD w.idx [] = e → srcOf e w.src = 1 →
      b ≠ [] → b.length ≤ 0x20000 → w.done + b.length < meLength e →
      runs (.nvmeReadComplete (.data b)) s fun d =>
        d.eft.weights = some { w with done := w.done + b.length } ∧ d.regs = s.dev.regs ∧
        d.byte (weightAddr e (w.done + (b.length - 1))) = wd b (b.length - 1) % 256 ∧
        ∀ a, (∀ i < b.length, a ≠ weightAddr e (w.done + i)) → d.byte a = s.dev.byte a) ∧
    (∀ (w : WeightLoad) (e : List Nat), s.dev.eft.weights = some w → s.dev.eft.entries[w.idx]? = some e → meKind e = 5 → w.src = 1 → srcOf e 1 ≠ 3 →
      runs .weightsSourceTimeout s fun d =>
        d.on 0 EFT_BOOT_STATUS_FAILED = true ∧ d.rd 0 EFT_BOOT_ERR_REASON = 0xB ∧ d.rd 0 EFT_BOOT_STATUS_STAGE = 9 ∧ d.eft.weights = none) ∧
    (∀ (seqs : List (List (List Nat))) (i : Nat) (e : List Nat), s.dev.rd 0 EFT_BOOT_STATUS_STAGE = 8 → s.dev.eft.loaded = false →
      s.dev.eft.entries = [e] → i = 0 → meKind e = 1 → meForLp e = false → meEncrypted e = false →
      sha512 (s.dev.flashBytes (meFlash e) (meLength e)) ≠ meDigest e →
      runs (.sectionLoadDone seqs) s fun d =>
        d.on 0 EFT_BOOT_STATUS_FAILED = true ∧ d.rd 0 EFT_BOOT_ERR_REASON = 6 ∧ d.rd 0 EFT_BOOT_ERR_SECTION = 0) ∧
    (∀ (seqs : List (List (List Nat))) (s1 s2 : Device) (w : WeightLoad), s.dev.rd 0 EFT_BOOT_STATUS_STAGE = 8 → s.dev.eft.loaded = false →
      s.dev.eft.entries.any meForLp = false → s.dev.loadSections (List.range s.dev.eft.entries.length) = (s1, none) →
      s1.layoutFromHeader = some s2 → s1.regReqs = [] → s1.inStart = true → (∀ die < 4, s2.programBad die = none) →
      s1.eft.weights = some w → srcOf (s1.eft.entries.getD w.idx []) w.src ≠ 3 →
      runs (.sectionLoadDone seqs) s fun d =>
        d.eft.loaded = true ∧ d.rd 0 EFT_BOOT_STATUS_STAGE = 9 ∧ d.on 0 EFT_BOOT_STATUS_FAILED = false ∧
        ∀ die < 4, (d.tester die).seq = seqs.getD die []) ∧
    (∀ (x : Nat × Nat) (time : Nat), s.dev.rd 0 EFT_BOOT_STATUS_STAGE = 11 →
      runs (.injectionPassDone (some x) time) s fun d =>
        d.on 0 EFT_BOOT_STATUS_FAILED = true ∧ d.rd 0 EFT_BOOT_ERR_REASON = 0xC ∧
        (∀ i < 2, d.on i SAFETY_INJ_STATUS_DONE = true ∧ d.on i SAFETY_INJ_STATUS_PASS = false)) ∧
    (∀ time : Nat, time ≤ 400 → s.dev.rd 0 EFT_BOOT_STATUS_STAGE = 11 → s.dev.on 0 CHORUS_CTL_GPTP_EN = true →
      runs (.injectionPassDone none time) s fun d =>
        d.rd 0 EFT_BOOT_STATUS_STAGE = 12 ∧ d.on 0 EFT_BOOT_STATUS_FAILED = false ∧
        (∀ i < 2, d.on i SAFETY_INJ_STATUS_DONE = true ∧ d.on i SAFETY_INJ_STATUS_PASS = true)) ∧
    (s.dev.rd 0 EFT_BOOT_STATUS_STAGE = 12 →
      runs .gptpStepTimeout s fun d =>
        d.on 0 EFT_BOOT_STATUS_READY = true ∧ d.on 0 EFT_BOOT_STATUS_UNSTEPPED = true ∧ d.rd 0 EFT_BOOT_STATUS_STAGE = 13 ∧
        d.host.started = true ∧ (∀ i < 2, d.rd i SAFETY_STATUS_MODE = 0 ∧ d.rd i SAFETY_STATUS_TAIL_STATE = 3) ∧
        ∀ die < 4, d.on die REFLEX_CTRL_STATUS_TAIL_ACTIVE = true))

/-- The life cycle and attestation (R401 to R404): the fused secret makes a BLANK device MANUFACTURE, and is refused in any other state; a
life-cycle request that fails a check changes no fuse and shows its result, one that passes blows its fuses and resets the device; a quote
before READY is refused, and one after it is over the nonce, signed by the identity key. It rests on choices of the model: assumptions
136, 137, 139, 140. Its clauses conclude that exec answers a next state (`runs c s P`: exec c s = .next t, and P of t) for:
programFusedSecret, lifecycleRequest, quote. -/
def Obligations.LifeCycleAndQuote : Prop :=
  ∀ s : State, s.dev.sound →
    (∀ (secret mfg : Nat) (cert : List Nat), s.dev.eft.fuses.life = lcBLANK → cert.length ≤ 2048 →
      runs (.programFusedSecret secret mfg cert) s fun d =>
        d.rd 0 EFT_LC_STATE = lcMANUFACTURE ∧
        d.eft.fuses = { s.dev.eft.fuses with state := lcMANUFACTURE, secret := secret, mfgHash := mfg, cert := cert } ∧ keepsMem s.dev d) ∧
    (∀ (secret mfg : Nat) (cert : List Nat), s.dev.eft.fuses.life ≠ lcBLANK → exec (.programFusedSecret secret mfg cert) s = .next s) ∧
    (∀ burn : FuseBurn, let b := s.dev.reqBytes EFT_REQ_WORD
      let r := s.dev.reqCheck b (s.dev.challenge EFT_CHALLENGE_WORD) [0, 1, 2, 3, 4]
      (r ≠ 0 → runs (.lifecycleRequest 0 burn) s fun d =>
        d.rd 0 EFT_REQ_CTL_RESULT = r ∧ d.on 0 EFT_REQ_CTL_BUSY = false ∧ d.eft = s.dev.eft ∧ keepsMem s.dev d) ∧
      (r = 0 → s.dev.atRest = true → s.dev.eft.fuses.spent (rqOp b) = false → s.dev.eft.flashOp = none → s.dev.eft.burn = none →
        runs (.lifecycleRequest 0 .ok) s fun d =>
          d.eft = { fuses := s.dev.eft.fuses.after b, flash := s.dev.eft.flash } ∧ d.regs = Device.resetRegs ∧ d.mem = [])) ∧
    (s.dev.on 0 EFT_BOOT_STATUS_READY = false → runs (.quote 0) s fun d => d.rd 0 EFT_REQ_CTL_RESULT = 8 ∧ d.eft = s.dev.eft ∧ keepsMem s.dev d) ∧
    (s.dev.on 0 EFT_BOOT_STATUS_READY = true → runs (.quote 0) s fun d =>
      d.rd 0 EFT_REQ_CTL_RESULT = 0 ∧ d.on 0 EFT_REQ_CTL_BUSY = false ∧ d.eft = s.dev.eft ∧ keepsMem s.dev d ∧
      ∀ n < 87, d.rd 0 (EFT_QUOTE_WORD n) = byteNum (s.dev.quoteBytes ++
        (toBytes (ecdsaSign s.dev.eft.fuses.secret (sha512 s.dev.quoteBytes)) 132).reverse) (4 * n) 4 % 2 ^ 32)

/-- The flash window (R399, R405): a command that the window admits sets BUSY and waits, and nothing else changes; when it is done an erased
sector reads 0xFF, a programmed one holds the buffer, a read one fills it, and every other byte of the flash is as before. It rests on
choices of the model: assumption 138. Its clauses conclude that exec answers a next state (`runs c s P`: exec c s = .next t, and P of t)
for: flashRead, flashErase, flashProgram, flashCommandDone. -/
def Obligations.FlashWindow : Prop :=
  ∀ s : State, s.dev.sound →
    (∀ a : Nat, a = s.dev.rd 0 EFT_FLASH_ADDR_LO_ADDR + 2 ^ 32 * s.dev.rd 0 EFT_FLASH_ADDR_HI_ADDR → s.dev.flashOpen = true →
      s.dev.on 0 EFT_FLASH_CMD_BUSY = false → a % 65536 = 0 → a + 65536 ≤ s.dev.eft.flashSize →
      let busy : Nat → Device := fun op =>
        { (s.dev.wr 0 EFT_FLASH_CMD_OP op).set 0 EFT_FLASH_CMD_BUSY with eft := { s.dev.eft with flashOp := some (op, a) } }
      exec (.flashRead 0) s = .next (s.withDev (busy 0)) ∧
      exec (.flashErase 0) s = .next (s.withDev (busy 1)) ∧
      ((∀ i < 4096, s.dev.flashByte (a + i) = 0xFF) → exec (.flashProgram 0) s = .next (s.withDev (busy 2)))) ∧
    (∀ op a : Nat, s.dev.eft.flashOp = some (op, a) → op < 3 →
      runs (.flashCommandDone true) s fun d =>
        d.on 0 EFT_FLASH_CMD_BUSY = false ∧ d.rd 0 EFT_FLASH_CMD_RESULT = 0 ∧ d.eft.flashOp = none ∧ d.eft.fuses = s.dev.eft.fuses ∧
        keepsMem s.dev d ∧
        (op = 0 → d.eft.flash = s.dev.eft.flash ∧
          ∀ n < 1024, d.rd 0 (EFT_FLASH_BUF_WORD n) = byteNum (s.dev.flashBytes (a + 4 * n) 4) 0 4 % 2 ^ 32) ∧
        (op = 1 → ∀ x, d.flashByte x = if a ≤ x ∧ x < a + 65536 then 0xFF else s.dev.flashByte x) ∧
        (op = 2 → ∀ x, ¬ (a ≤ x ∧ x < a + 4096) → d.flashByte x = s.dev.flashByte x) ∧
        (op = 2 → ∀ i < 4096, d.flashByte (a + i) = s.dev.rd 0 (EFT_FLASH_BUF_WORD (i / 4)) / 256 ^ (i % 4) % 256))

/-- Writes of the tick layout (R37, R38, R39, R41): a legal period, frame length or set of windows waits for the next frame boundary, or,
where it comes in the boundary's own rc, for the one after it; one out of range is refused with RANGE_ERR, and nothing else changes; a
period is held against the windows that the pending writes leave, and the windows against such a period. At a frame boundary what waits
takes effect, and no other sample edge changes the layout. The lock is set by bit 0, and then no such write has any effect. It rests on
choices of the model: assumptions 188, 194. Its clauses conclude that exec answers a next state (exec c s = .next t) for:
chorusTickPeriodWrite, chorusFrameLenWrite, chorusWinLenWrite, chorusLock. -/
def Obligations.TickLayoutWrites : Prop :=
  ∀ (s : State) (v : Nat) (b : Bool), s.dev.sound →
    (let put : TickPend → Nat → TickPend := fun p x => if b then { p with late := some x } else { p with now := some x }
    s.dev.on 0 CHORUS_LOCK_LOCK = false →
      exec (.chorusTickPeriodWrite 0 v b) s = .next (s.withDev (if 37500 ≤ v % 2 ^ 20 ∧ v % 2 ^ 20 ≤ 600000 ∧ v % 2 ^ 20 % 3 = 0 ∧ winFits s.dev.winNext (v % 2 ^ 20) = true then
          { s.dev with chorus := { s.dev.chorus with pendPeriod := put s.dev.chorus.pendPeriod (v % 2 ^ 20) } }
        else s.dev.set 0 CHORUS_STATUS_RANGE_ERR)) ∧
      exec (.chorusFrameLenWrite 0 v b) s = .next (s.withDev (if 1 ≤ v % 2 ^ 11 ∧ v % 2 ^ 11 ≤ 1024 then
          { s.dev with chorus := { s.dev.chorus with pendFrame := put s.dev.chorus.pendFrame (v % 2 ^ 11) } }
        else s.dev.set 0 CHORUS_STATUS_RANGE_ERR)) ∧
      exec (.chorusWinLenWrite 0 v b) s = .next (s.withDev (if 192 ≤ v % 2 ^ 10 ∧ 64 ≤ v / 2 ^ 10 % 2 ^ 10 ∧ 64 ≤ v / 2 ^ 20 % 2 ^ 10 ∧
            32 * (v % 2 ^ 10 + v / 2 ^ 10 % 2 ^ 10 + v / 2 ^ 20 % 2 ^ 10) ≤ s.dev.periodNext b then
          { s.dev with chorus := { s.dev.chorus with pendWin := put s.dev.chorus.pendWin (v % 2 ^ 30) } }
        else s.dev.set 0 CHORUS_STATUS_RANGE_ERR))) ∧
    (s.dev.on 0 CHORUS_LOCK_LOCK = true →
      exec (.chorusTickPeriodWrite 0 v b) s = .next s ∧ exec (.chorusFrameLenWrite 0 v b) s = .next s ∧
      exec (.chorusWinLenWrite 0 v b) s = .next s) ∧
    exec (.chorusLock 0 v) s = .next (s.withDev (if v % 2 = 1 then s.dev.set 0 CHORUS_LOCK_LOCK else s.dev)) ∧
    (let d := s.dev.chorusEdge
    (d.2 = true ↔ s.dev.chorus.firstEdge = true ∨ s.dev.chorus.adopt.isSome = true ∨ s.dev.frameLen ≤ s.dev.tick + 1) ∧
    (∀ x, d.2 = true → s.dev.chorus.pendPeriod.now = some x → d.1.rd 0 CHORUS_TICK_PERIOD_PERIOD_RC = x % 2 ^ 20) ∧
    (∀ x, d.2 = true → s.dev.chorus.pendFrame.now = some x → d.1.rd 0 CHORUS_FRAME_LEN_TICKS = x % 2 ^ 11) ∧
    (d.2 = true → d.1.chorus.pendPeriod = { now := s.dev.chorus.pendPeriod.late, late := none } ∧
      d.1.chorus.pendFrame = { now := s.dev.chorus.pendFrame.late, late := none }) ∧
    (d.2 = false → d.1.period = s.dev.period ∧ d.1.frameLen = s.dev.frameLen ∧ d.1.winInForce = s.dev.winInForce ∧
      d.1.chorus.pendPeriod = s.dev.chorus.pendPeriod))

/-- A follower and its source (R55, R56, R57): a tick flit of the followed port, or a pulse of legal width, publishes the offset and moves the
lock state, and from ACQUIRE and LOCKED steers the next tick towards the source by at most 16 rc; a pulse of another width counts as
missed; a source that is lost leaves HOLDOVER and LEAD_LOST; and a probe's round trip gives the link delay. A lead device takes no notice
of a source. It rests on choices of the model: assumptions 11, 12, 23, 153, 191, 192, 195. Its clauses conclude that exec answers a next
state (`runs c s P`: exec c s = .next t, and P of t) for: tickFlit, chorusInPulse, tickSourceLost, delayProbe. -/
def Obligations.FollowerLocks : Prop :=
  ∀ s : State, s.dev.sound →
    let next : Int → Bool → Nat := fun off boundary =>
      let st := s.dev.rd 0 CHORUS_STATUS_LOCK_STATE
      let near := decide (-50 ≤ off) && decide (off ≤ 50)
      if st = 0 ∨ st = 3 then 1
      else if st = 2 then (if near then 2 else 1)
      else if near && boundary && decide (64 ≤ s.dev.chorus.within) then 2 else 1
    let steer : Int → Int := fun off =>
      if s.dev.rd 0 CHORUS_STATUS_LOCK_STATE = 1 ∨ s.dev.rd 0 CHORUS_STATUS_LOCK_STATE = 2 then max (-16) (min 16 (-((off * 3).tdiv 5))) else 0
    (∀ (die time pos lastApplied : Nat) (h : FlitHead), s.dev.flitComes die h → s.dev.on 0 CHORUS_CTL_ROLE = true →
      s.dev.rd 0 CHORUS_CTL_SOURCE = 1 → s.dev.rd 0 CHORUS_CTL_OLINER_DIE = die →
      let off := wrapPeriod s.dev.periodNs ((s.dev.chorus.edgeTime : Int) - ((s.dev.chorus.time : Int) - s.dev.chorus.linkDelay))
      runs (.tickFlit die h ⟨time, pos⟩ lastApplied none) s fun d =>
        d.rd 0 CHORUS_STATUS_LOCK_STATE = next off (decide (pos = 0)) ∧ d.rd 0 CHORUS_OFFSET_OFFSET_NS = wrapN 32 off ∧
        d.chorus.missed = 0 ∧ d.chorus.srcTime = some time ∧ d.chorus.adjust = steer off ∧ (d.olPort die).seqIn = h.seq ∧ keepsMem s.dev d) ∧
    (∀ width riseNs : Nat, s.dev.on 0 CHORUS_CTL_ROLE = true → s.dev.rd 0 CHORUS_CTL_ROLE = 1 → s.dev.rd 0 CHORUS_CTL_SOURCE = 2 → 32 ≤ width → width ≤ 400 →
      let off := wrapPeriod s.dev.periodNs ((s.dev.chorus.edgeTime : Int) - ((riseNs : Int) - s.dev.rd 0 CHORUS_IN_DELAY_DELAY_NS))
      runs (.chorusInPulse width riseNs) s fun d =>
        d.rd 0 CHORUS_STATUS_LOCK_STATE = next off (decide (160 ≤ width)) ∧ d.rd 0 CHORUS_OFFSET_OFFSET_NS = wrapN 32 off ∧
        d.chorus.missed = 0 ∧ d.chorus.adjust = steer off ∧ keepsMem s.dev d ∧ keepsFields s.dev d [(0, CHORUS_STATUS_LOCK_STATE), (0, CHORUS_OFFSET_OFFSET_NS)]) ∧
    (∀ width riseNs : Nat, s.dev.rd 0 CHORUS_CTL_ROLE = 1 → s.dev.rd 0 CHORUS_CTL_SOURCE = 2 → (width < 32 ∨ 400 < width) →
      exec (.chorusInPulse width riseNs) s = .next (s.withDev ({ s.dev with chorus := { s.dev.chorus with missed := s.dev.chorus.missed + 1 } }))) ∧
    (s.dev.rd 0 CHORUS_CTL_ROLE = 1 → (s.dev.rd 0 CHORUS_STATUS_LOCK_STATE = 1 ∨ s.dev.rd 0 CHORUS_STATUS_LOCK_STATE = 2) →
      runs .tickSourceLost s fun d =>
        d.on 0 CHORUS_STATUS_LEAD_LOST = true ∧ d.rd 0 CHORUS_STATUS_LOCK_STATE = 3 ∧ keepsMem s.dev d ∧
        keepsFields s.dev d [(0, CHORUS_STATUS_LEAD_LOST), (0, CHORUS_STATUS_LOCK_STATE)]) ∧
    (∀ (die rtt : Nat) (h : FlitHead), s.dev.flitComes die h → s.dev.rd 0 CHORUS_CTL_OLINER_DIE = die →
      runs (.delayProbe die h rtt) s fun d =>
        d.chorus = { s.dev.chorus with linkDelay := rtt / 2 } ∧ (d.olPort die).seqIn = h.seq ∧ keepsMem s.dev d)

/-- Slices of a control engine and the overrun log (R47 to R50, R52, R59): a due one starts when it may; its end frees its units and adds its
signal; past its deadline it is logged and counted; at its hard limit it leaves its units with DEADLINE raised; and a clear of the log
frees the record, so that a slice that overruns in the same cycle is recorded after the clear. It rests on choices of the model:
assumptions 13, 15, 173, 189, 190, 193. Its clauses conclude that exec answers a next state (`runs c s P`: exec c s = .next t, and P of t)
for: sliceStart, sliceEnd, sliceDeadline, sliceHardLimit, chorusOverrunLogClear. -/
def Obligations.SlicesAndOverruns : Prop :=
  (∀ (s : State) (x : SliceRun), s.dev.sound →
    let log := fun (d : Device) (deadline : Bool) => d.on x.die CHORUS_OVERRUN_LOG_VALID = true ∧ d.on x.die CHORUS_OVERRUN_LOG_DEADLINE = deadline ∧
      d.rd x.die CHORUS_OVERRUN_LOG_KIND = x.kind % 2 ^ CHORUS_OVERRUN_LOG_KIND.w ∧
      d.rd x.die CHORUS_OVERRUN_LOG_TICK = x.tick % 2 ^ CHORUS_OVERRUN_LOG_TICK.w ∧
      d.rd x.die CHORUS_OVERRUN_LOG_SLICE = x.idx % 2 ^ CHORUS_OVERRUN_LOG_SLICE.w
    let count := fun (d : Device) => d.on x.die CHORUS_STATUS_OVERRUN = true ∧
      d.rd x.die CHORUS_OVERRUN_COUNT_COUNT = min (s.dev.rd x.die CHORUS_OVERRUN_COUNT_COUNT + 1) (2 ^ CHORUS_OVERRUN_COUNT_COUNT.w - 1)
    (s.dev.dueSlice x.die x.idx = some x → s.dev.sliceReady x = true → x.units.any (s.dev.unitOff x.die) = false →
      (x.kind ∈ [1, 2, 3, 5] ∨ (x.kind = 4 ∧ x.die ≠ 0) ∨ (x.kind = 0 ∧ s.dev.rd x.die POND_STATUS_MODE < 2 ∧ s.dev.disp.kernels = [])) → ∀ inside,
      runs (.sliceStart x.die x.idx inside) s fun d =>
        d.chorus.slices = s.dev.chorus.slices.map (fun y => if y = x then { x with started := true } else y) ∧ d.regs = s.dev.regs ∧ keepsMem s.dev d) ∧
    (s.dev.findSlice x.die x.idx = some x → x.started = true → s.dev.sliceBusy x.die x.idx = false →
      runs (.sliceEnd x.die x.idx) s fun d =>
        d.chorus.slices = s.dev.chorus.slices.filter (fun y => !y.is x) ∧ d.regs = s.dev.regs ∧ keepsMem s.dev d ∧
        (∀ g, d.syncVal g = if slSignalEn (s.dev.sliceRec x.die x.idx) = true ∧ g = x.die * 16384 + slSignalSync (s.dev.sliceRec x.die x.idx)
          then wrapN 64 (s.dev.syncVal g + 1) else s.dev.syncVal g)) ∧
    ((s.dev.chorus.slices.find? fun y => y.die = x.die ∧ y.idx = x.idx ∧ y.late = false ∧ ¬ (y.edges = 0 ∧ s.dev.rc < s.dev.sliceDeadline y.die y.idx)) = some x →
      x.kind ≠ 6 → (x.started = true → x.kind ≠ 1 ∧ x.kind ≠ 3) → ∀ rest,
      runs (.sliceDeadline x.die x.idx rest) s fun d =>
        count d ∧ (s.dev.on x.die CHORUS_OVERRUN_LOG_VALID = false → log d false) ∧ keepsMem s.dev d ∧
        d.chorus.slices = s.dev.chorus.slices.map (fun y => if y.is x then { y with late := true } else y)) ∧
    ((s.dev.chorus.slices.find? fun y => y.die = x.die && y.idx = x.idx && s.dev.atHardLimit y) = some x →
      x.started = false ∨ x.kind = 2 ∨ x.kind = 4 → s.dev.solve = {} → s.dev.collide = {} → ∀ inside,
      runs (.sliceHardLimit x.die x.idx inside) s fun d =>
        d.on x.die CHORUS_STATUS_DEADLINE = true ∧ (x.late = false → count d) ∧
        (s.dev.on x.die CHORUS_OVERRUN_LOG_VALID = false → x.idx < 2 ^ CHORUS_OVERRUN_LOG_SLICE.w → x.tick < 2 ^ CHORUS_OVERRUN_LOG_TICK.w → log d true) ∧
        keepsMem s.dev d ∧
        (slRecovery (s.dev.sliceRec x.die x.idx) = 0xFFFF → d.chorus.slices = s.dev.chorus.slices.filter (fun y => !y.is x)) ∧
        (slRecovery (s.dev.sliceRec x.die x.idx) ≠ 0xFFFF → s.dev.rc ≠ 0 →
          d.chorus.slices = s.dev.chorus.slices.filter (fun y => !y.is x) ∧
          ∃ b ∈ d.chorus.branches, b.die = x.die ∧ b.first = slRecovery (s.dev.sliceRec x.die x.idx) ∧ b.base = none ∧ b.units = x.units))) ∧
  (∀ (s : State) (die value : Nat), s.dev.sound → value / 2 ^ 31 % 2 = 1 →
    (runs (.chorusOverrunLogClear die value none) s fun d =>
      d.on die CHORUS_OVERRUN_LOG_VALID = false ∧ d.rd die CHORUS_OVERRUN_LOG_SLICE = 0 ∧ keepsMem s.dev d ∧
      keepsFields s.dev d [(die, CHORUS_OVERRUN_LOG_VALID), (die, CHORUS_OVERRUN_LOG_DEADLINE), (die, CHORUS_OVERRUN_LOG_KIND),
        (die, CHORUS_OVERRUN_LOG_TICK), (die, CHORUS_OVERRUN_LOG_SLICE)]) ∧
    (∀ (idx : Nat) (x : SliceRun), s.dev.findSlice die idx = some x →
      runs (.chorusOverrunLogClear die value (some idx)) s fun d =>
        d.on die CHORUS_OVERRUN_LOG_VALID = true ∧ d.on die CHORUS_OVERRUN_LOG_DEADLINE = false ∧
        d.rd die CHORUS_OVERRUN_LOG_KIND = x.kind % 2 ^ CHORUS_OVERRUN_LOG_KIND.w ∧
        d.rd die CHORUS_OVERRUN_LOG_SLICE = x.idx % 2 ^ CHORUS_OVERRUN_LOG_SLICE.w ∧
        d.rd die CHORUS_OVERRUN_LOG_TICK = x.tick % 2 ^ CHORUS_OVERRUN_LOG_TICK.w ∧
        d.on die CHORUS_STATUS_OVERRUN = true ∧ keepsMem s.dev d))

/-- The device's own times in a tick (R42, R43, R72, R73, R321, R367): an output that waits for a mark is written at it, as its limiter left
it, and waits no more; a clock hold ends for every die, and nothing else changes; and the scrub burst moves each die's position by as many
of its lines as fit into the window, counts the pass that it ends, and where no stored word is bad changes no memory; a correctable word
among those lines is corrected and written back, and no longer bad; the errors that the command brings arise in their words first, and
nothing else changes where no die scrubs. It rests on choices of the model: assumptions 132, 196, 197. Its clauses conclude that exec
answers a next state (`runs c s P`: exec c s = .next t, and P of t) for: outputPhaseMark, clockHoldEnd, testWindowStart. -/
def Obligations.MarksAndWindows : Prop :=
  ∀ s : State, s.dev.sound →
    (∀ (die c mark : Nat) (v : Int), die < 4 → c < 16 → (∀ k < 4, s.dev.waitingOuts k = if k = die then [(c, mark, some v)] else []) →
      s.dev.routeUp die 0 = true →
      runs (.outputPhaseMark mark) s fun d => (∀ k < 4, d.waitingOuts k = []) ∧
        SMap.get 0 d.lsio.out (s.dev.rd die (REFLEX_CTRL_CHAN_DEST c)) = wrapN 32 v ∧
        (∀ e, e ≠ s.dev.rd die (REFLEX_CTRL_CHAN_DEST c) → SMap.get 0 d.lsio.out e = SMap.get 0 s.dev.lsio.out e) ∧ keepsMem s.dev d) ∧
    (runs .clockHoldEnd s fun d =>
      (∀ die < 4, d.baskDie die = { s.dev.baskDie die with held := false }) ∧ d.regs = s.dev.regs ∧ d.chorus = s.dev.chorus ∧ keepsMem s.dev d) ∧
    (let lines := fun (die : Nat) =>
        let left := SMap.get 0 s.dev.pond.scrubLeft die
        min (if left = 0 then s.dev.rd die POND_SCRUB_CTL_LINES else left) (16 * s.dev.rd 0 CHORUS_WIN_LEN_TEST_LEN * s.dev.fabricMHz die / 600 - 16)
    s.dev.pond.fixq = [] →
      (∀ upsets, (∀ die < 4, s.dev.on die POND_CTL_SCRUB_EN = false) →
        exec (.testWindowStart upsets) s = .next (s.withDev (s.dev.arise upsets))) ∧
      (s.dev.pond.ecc = [] → runs (.testWindowStart []) s fun d => keepsMem s.dev d ∧ d.pond.ecc = [] ∧
        ∀ die < 4, s.dev.on die POND_CTL_SCRUB_EN = true → s.dev.rd die POND_STATUS_MODE < 2 →
          d.rd die POND_SCRUB_POS_LINE = (s.dev.rd die POND_SCRUB_POS_LINE + lines die) % 294912 ∧
          d.rd die POND_SCRUB_PASSES_PASSES = (s.dev.rd die POND_SCRUB_PASSES_PASSES +
            if 294912 ≤ s.dev.rd die POND_SCRUB_POS_LINE + lines die then 1 else 0) % 2 ^ POND_SCRUB_PASSES_PASSES.w) ∧
      (∀ (die w : Nat) (e : EccErr), die < 4 → s.dev.pond.ecc = [(w, some e)] → e.ue = false →
        inLines die (s.dev.rd die POND_SCRUB_POS_LINE) (lines die) w = true → s.dev.heldWord die w = false →
        s.dev.on die POND_CTL_SCRUB_EN = true → s.dev.rd die POND_STATUS_MODE < 2 →
        runs (.testWindowStart []) s fun d => d.pond.ecc = [] ∧
          d.rd die POND_CE_COUNT_COUNT = min (s.dev.rd die POND_CE_COUNT_COUNT + 1) (2 ^ POND_CE_COUNT_COUNT.w - 1) ∧
          (∀ i < 8, d.byte (8 * w + i) = s.dev.readWord w / 256 ^ i % 256) ∧
          ∀ a, a / 8 ≠ w → d.byte a = s.dev.byte a))

/-- Every sample edge of a ready device begins exactly one tick, whatever the boundary work does (R43). It rests on choices of the model:
assumption 175. Its clauses conclude that exec answers a next state (`runs c s P`: exec c s = .next t, and P of t) for: sampleEdge. -/
def Obligations.SampleEdgeBeginsOneTick : Prop :=
  ∀ (s : State) (counts late : List Nat), s.dev.sound → s.dev.on 0 EFT_BOOT_STATUS_READY = true →
    runs (.sampleEdge counts late) s fun d =>
      d.chorus.tickNo = s.dev.chorus.tickNo + 1 ∧ d.chorus.edgeTime = s.dev.chorus.time ∧ d.chorus.firstEdge = false ∧
      d.eft.fuses = s.dev.eft.fuses

/-- A core's port (R20, R21, R30): it reaches the core's own column, its own core store and its cluster's store; there the read of an fc is
served before its write, the write's bytes are in place after it, and every other byte is as before; another column answers UNMAPPED with
nothing written; and while the Pond is PARKED nothing moves. It rests on choices of the model: assumption 174. Its clauses conclude that
exec answers a next state (`runs c s P`: exec c s = .next t, and P of t) for: corePortAccess. -/
def Obligations.CorePortReadsBeforeItWrites : Prop :=
  ∀ (s : State) (core a n v : Nat) (work : Work) (inside : Bool), s.dev.sound → core < 256 → 1 ≤ n → v < 256 ^ n →
    let reach := (columnBase (core / 64) (core % 64) ≤ a ∧ a + n ≤ columnBase (core / 64) (core % 64) + columnBytes) ∨
      (coreStoreBase (core / 64) (core % 64) ≤ a ∧ a + n ≤ coreStoreBase (core / 64) (core % 64) + 0x40000) ∨
      (storeBase + core / 64 * storeDieBytes + 0x1000000 + core % 64 / 8 * 0x200000 ≤ a ∧
        a + n ≤ storeBase + core / 64 * storeDieBytes + 0x1000000 + core % 64 / 8 * 0x200000 + 0x200000)
    (s.dev.rd (core / 64) POND_STATUS_MODE = 1 → exec (.corePortAccess core work (some (a, n)) (some (a, n, v)) [] inside) s = .next s) ∧
    (s.dev.rd (core / 64) POND_STATUS_MODE = 0 → s.dev.pond.ecc = [] → reach →
      runs (.corePortAccess core work (some (a, n)) (some (a, n, v)) [] inside) s fun d =>
        d.reply = (stDONE, s.dev.load a n) ∧ d.load a n = v ∧ (∀ b, (b < a ∨ a + n ≤ b) → d.byte b = s.dev.byte b) ∧ d.regs = s.dev.regs) ∧
    (s.dev.rd (core / 64) POND_STATUS_MODE ≠ 1 → a + n ≤ 4 * pondDieBytes → (a + n ≤ columnBase (core / 64) (core % 64) ∨ columnBase (core / 64) (core % 64) + columnBytes ≤ a) →
      runs (.corePortAccess core work none (some (a, n, v)) [] inside) s fun d => d.reply = (stUNMAPPED, 0) ∧ keepsMem s.dev d)

/-- A shared port (R61, R233): a FIXED request that the queue admits is performed and takes an entry; one that meets a full queue waits with
nothing done; when an entry frees with none waiting the queue is one shorter, and where a read waits that the queue then admits it is
answered and takes the entry. It rests on choices of the model: assumptions 6, 219, 220. Its clauses conclude that exec answers a next
state (`runs c s P`: exec c s = .next t, and P of t) for: sharedPortRequest, sharedPortQueueFree. -/
def Obligations.SharedPorts : Prop :=
  (∀ (s : State) (r : Req) (die col off : Nat), s.dev.sound → s.dev.pond.ecc = [] → s.dev.region r.addr = .pond die col off →
    r.die = die → r.master < mHost → (s.dev.label r).1 = true → r.coreWords = [] → r.remote = [] → r.work = none → 1 ≤ r.len →
    s.dev.accessStatus r.die r.master r.addr r.len r.write = stDONE → s.dev.isFenced r.die r.master = false →
    s.dev.ownAccess r.die r.master r.addr = false → s.dev.regul.held = [] →
    ((s.dev.portQueue die col).length < 32 → r.write = true →
      runs (.sharedPortRequest [r] []) s fun d =>
        d.load r.addr r.len = r.data % 256 ^ r.len ∧ d.portQueue die col = s.dev.portQueue die col ++ [true] ∧
        (∀ b, (b < r.addr ∨ r.addr + r.len ≤ b) → d.byte b = s.dev.byte b) ∧ keepsFields s.dev d [(die, REGULATE_QUEUE_AUDIT_ADMITTED)]) ∧
    ((s.dev.portQueue die col).length < 32 → r.write = false →
      runs (.sharedPortRequest [r] []) s fun d =>
        d.reply = (stDONE, s.dev.load r.addr r.len) ∧ d.portQueue die col = s.dev.portQueue die col ++ [true] ∧ keepsMem s.dev d ∧
        keepsFields s.dev d [(die, REGULATE_QUEUE_AUDIT_ADMITTED)]) ∧
    (32 ≤ (s.dev.portQueue die col).length →
      exec (.sharedPortRequest [r] []) s = .next (s.withDev { s.dev with pond := { s.dev.pond with
        waiting := s.dev.pond.waiting ++ [{ r with fixed := true, cls := 16 + (s.dev.label r).2 }] } })) ∧
    (∀ (x : Bool) (q : List Bool), s.dev.portQueue die col = x :: q → q.length < 32 → s.dev.pond.waiting = [r] → r.write = false →
      runs (.sharedPortQueueFree die col) s fun d =>
        d.reply = (stDONE, s.dev.load r.addr r.len) ∧ d.portQueue die col = q ++ [true] ∧ d.pond.waiting = [] ∧ keepsMem s.dev d)) ∧
  (∀ (s : State) (die col : Nat) (x : Bool) (q : List Bool), s.dev.sound → s.dev.portQueue die col = x :: q → s.dev.pond.waiting = [] →
    exec (.sharedPortQueueFree die col) s =
      .next (s.withDev ((s.dev.setPortQueue die col q).addWrap die REGULATE_QUEUE_AUDIT_SERVED 1)))

/-- Error records of memory (R34, R35, R71): the clear frees the record, and what comes in the same cycle is recorded after it. Its clauses
conclude that exec answers a next state (`runs c s P`: exec c s = .next t, and P of t) for: pondErrStatusClear, unmappedStatusClear. -/
def Obligations.MemoryRecordsClearFirst : Prop :=
  ∀ (s : State) (die value : Nat), s.dev.sound → value / 2 ^ 31 % 2 = 1 →
    exec (.pondErrStatusClear die value none) s =
      .next (s.withDev ((s.dev.clr die POND_ERR_STATUS_VALID).clr die POND_ERR_STATUS_OVERFLOW)) ∧
    exec (.unmappedStatusClear die value none) s =
      .next (s.withDev ((s.dev.clr die DIE_CTL_UNMAPPED_STATUS_VALID).clr die DIE_CTL_UNMAPPED_STATUS_OVERFLOW)) ∧
    (∀ (src master a : Nat) (w : Bool), src < 4 → master < 256 → a < 2 ^ 48 →
      runs (.unmappedStatusClear die value (some (src, master, a, w))) s fun d =>
        d.on die DIE_CTL_UNMAPPED_STATUS_VALID = true ∧ d.on die DIE_CTL_UNMAPPED_STATUS_OVERFLOW = false ∧
        d.rd die DIE_CTL_UNMAPPED_STATUS_SRC_DIE = src ∧ d.rd die DIE_CTL_UNMAPPED_STATUS_MASTER = master ∧
        d.rd die DIE_CTL_UNMAPPED_ADDR_LO_ADDR_LO + 2 ^ 32 * d.rd die DIE_CTL_UNMAPPED_ADDR_HI_ADDR_HI = a ∧ keepsMem s.dev d)

/-- Retention of a die (R78) and the patrol scrubber (R82): the request for RETAIN is a bit, its clearing in RETAIN starts WAKING, and WAKING
ends in PARKED at OP0 and in ACTIVE at any other point; the patrol, with no stored word bad, moves on by one line in each sub-channel and
changes nothing else. It rests on choices of the model: assumptions 5, 196. Its clauses conclude that exec answers a next state (`runs c s
P`: exec c s = .next t, and P of t) for: retainReq, wakingDone, lp5xPatrol. -/
def Obligations.RetentionAndPatrol : Prop :=
  (∀ (s : State) (die value : Nat), s.dev.sound →
    exec (.retainReq die value) s = .next (s.withDev
      (let r := s.dev.wr die POND_CTL_RETAIN_REQ (value / 4 % 2)
       if value / 4 % 2 = 0 ∧ s.dev.rd die POND_STATUS_MODE = 2 then r.wr die POND_STATUS_MODE 3 else r)) ∧
    exec (.wakingDone die) s = .next (s.withDev
      (if s.dev.rd die POND_STATUS_MODE = 3 then s.dev.wr die POND_STATUS_MODE (if s.dev.rd die BASK_STATUS_GRANT = 0 then 1 else 0) else s.dev))) ∧
  (∀ (s : State) (die : Nat), s.dev.sound → s.dev.pond.ecc = [] → s.dev.pond.link = [] → s.dev.on 0 LP5X_CTL_INLINE_ECC = true → s.dev.on 0 LP5X_CTL_PATROL_EN = true →
    s.dev.lpBytes ≠ 0 →
    runs (.lp5xPatrol die []) s fun d =>
      keepsMem s.dev d ∧ d.regs = s.dev.regs ∧ d.pond.ecc = [] ∧
      ∀ q < 4, SMap.get 0 d.pond.patrol (die * 4 + q) = (SMap.get 0 s.dev.pond.patrol (die * 4 + q) + 1) % max 1 (s.dev.patrolLines die))

/-- Translation and its faults (R88, R91, R93, R103, R106, R107): a walk that finds an address answers it; an address of job 0 without a
pinned entry is a terminal fault, and nothing is fetched for it; a faulting engine gives up its descriptor and its job is held; the record
of a parked fault goes to the tail of its job's queue under the next FAULT_ID; a head that moves with no record pending is all that
changes; an answer that names no parked fault sets BAD_RESUME; and a retry of the job's last fault releases the job. It rests on choices
of the model: assumptions 14, 20, 198, 202. Its clauses conclude that exec answers a next state (`runs c s P`: exec c s = .next t, and P
of t) for: walkReturn, faultPark, faultRecordWrite, xlateFqHeadWrite, resumeRetry, resumeAbort. -/
def Obligations.WalksAndFaults : Prop :=
  (∀ (s : State) (die unit entry va : Nat) (w : Work) (write : Bool), s.dev.sound →
    (∀ (s1 : Device) (a : Nat), s.dev.translate die unit (s.dev.workJob w) va write = (s1, .pa a) → s1.sound →
      exec (.walkReturn die unit w entry va write) s = .next (s.withDev (s1.answer stDONE a))) ∧
    (∀ sd idx : Nat, w = .slice sd idx → unit < 64 → s.dev.on 0 XLATE_CTL_EN = true → s.dev.tlbHit die unit 0 va = none →
      runs (.walkReturn die unit w entry va write) s fun d =>
        d.reply = (stXLATE_FAULT, 0) ∧ keepsMem s.dev d ∧ d.regs = s.dev.regs ∧
        ∃ f, d.xlate.faults = s.dev.xlate.faults ++ [f] ∧ f.terminal = true ∧ f.kind = fkPIN_MISS ∧ f.va = va ∧ f.job = 0)) ∧
  (∀ s : State, s.dev.sound →
    (∀ (die e : Nat) (f : XFault), s.dev.xlate.faults = [f] → f.die = die → f.unit = mDma + e → f.dma = true → f.terminal = false →
      f.stage = .raised → (s.dev.job f.job).state = 1 →
      runs (.faultPark die (mDma + e)) s fun d =>
        d.xlate.faults = [{ f with stage := .parked, time := s.dev.chorus.time, desc := dmStatus f.desc stPARKED }] ∧
        d.dmaRun die e = none ∧ (d.job f.job).state = 2 ∧ d.on die (DMA_ENG_STATUS_BUSY e) = false ∧ keepsMem s.dev d) ∧
    (∀ (die unit : Nat) (f : XFault), s.dev.xlate.faults = [f] → f.die = die → f.unit = unit → f.dma = false → f.terminal = false →
      f.stage = .raised → die < 4 → unit < 64 → f.slot = 0xFF → s.dev.disp.resumed = [] → s.dev.kernelOf f.ring = none → s.dev.pond.ecc = [] →
      s.dev.pond.link = [] → (s.dev.job f.job).state = 1 → s.dev.saveSlot die unit 0 + 0x41000 ≤ storeBase →
      runs (.faultPark die unit) s fun d =>
        d.xlate.faults = [{ f with stage := .parked, time := s.dev.chorus.time, slot := 0 }] ∧ (d.job f.job).state = 2 ∧
        d.cmd (die * 64 + unit) = none ∧ d.regs = s.dev.regs ∧
        (∀ i < 0x40000, d.byte (s.dev.saveSlot die unit 0 + i) = s.dev.byte (coreStoreBase die unit + i)) ∧
        ∀ a, ¬ (s.dev.saveSlot die unit 0 ≤ a ∧ a < s.dev.saveSlot die unit 0 + 0x41000) → d.byte a = s.dev.byte a) ∧
    (∀ (die unit : Nat) (f : XFault), s.dev.xlate.faults = [f] → f.die = die → f.unit = unit → f.stage = .parked → f.terminal = false → f.queue < 4 →
      s.dev.on 0 (XLATE_FQ_CTL_EN f.queue) = true → s.dev.fqFull f.queue = false →
      let a := s.dev.fqBase f.queue + 128 * s.dev.rd 0 (XLATE_FQ_TAIL_INDEX f.queue)
      let msi := s.dev.rd 0 (XLATE_FQ_MSI_LO_VALUE f.queue) + 2 ^ 32 * (s.dev.rd 0 (XLATE_FQ_MSI_HI_VALUE f.queue) % 65536)
      let g := { f with id := s.dev.xlate.nextId, desc := if f.dma then f.desc.set 14 (setBits (wd f.desc 14) 0 16 s.dev.xlate.nextId) else f.desc }
      s.dev.accessStatus die mFault a 128 true = stDONE → s.dev.routeUp (s.dev.homeDie (s.dev.region a)) die = true → s.dev.pond.ecc = [] →
      s.dev.pond.link = [] → (msi + 4 ≤ a ∨ a + 128 ≤ msi) → s.dev.plainMsi msi →
      runs (.faultRecordWrite die unit) s fun d =>
        d.xlate.faults = [{ g with stage := .recorded }] ∧ (∀ i < 128, d.byte (a + i) = packBits 32 (faultRecord g) / 256 ^ i % 256) ∧
        d.xlate.nextId = (s.dev.xlate.nextId + 1) % 65536 ∧
        d.rd 0 (XLATE_FQ_TAIL_INDEX f.queue) = (s.dev.rd 0 (XLATE_FQ_TAIL_INDEX f.queue) + 1) % s.dev.fqSize f.queue % 2 ^ 16) ∧
    (∀ q value : Nat, q < 4 → s.dev.xlate.faults = [] →
      exec (.xlateFqHeadWrite 0 q value) s = .next (s.withDev (s.dev.wr 0 (XLATE_FQ_HEAD_INDEX q) (value % 65536)))) ∧
    (∀ id : Nat, s.dev.parkedFault id = none →
      exec (.resumeRetry 0 id) s = .next (s.withDev (s.dev.set 0 XLATE_STATUS_BAD_RESUME)) ∧
      exec (.resumeAbort 0 id) s = .next (s.withDev (s.dev.set 0 XLATE_STATUS_BAD_RESUME))) ∧
    (∀ (id : Nat) (f : XFault), s.dev.xlate.faults = [f] → s.dev.parkedFault id = some f → f.dma = false →
      (s.dev.job f.job).state = 2 → s.dev.kernelOf f.ring = none →
      runs (.resumeRetry 0 id) s fun d =>
        d.xlate.faults = [] ∧ (d.job f.job).state = 1 ∧ d.regs = s.dev.regs ∧ keepsMem s.dev d ∧
        d.disp.resumed = s.dev.disp.resumed ++ (if f.heldCore then [] else [(f.die * 64 + f.unit, f.ring, f.slot)])) ∧
    (∀ (id : Nat) (f : XFault), s.dev.parkedFault id = some f → f.ring = frameRing →
      exec (.resumeAbort 0 id) s = .next (s.withDev (s.dev.setFaults (s.dev.xlate.faults.filter (· ≠ f))))))

/-- Invalidation (R94, R95): a write without START stores its fields; one with it is refused while one runs and for job 0; else BUSY is set
and no unpinned entry of the job translates a byte of the range any more, neither then nor when it is done and BUSY clears. It rests on
choices of the model: assumptions 9, 199. Its clauses conclude that exec answers a next state (`runs c s P`: exec c s = .next t, and P of
t) for: invalidationStart, invalidationDone. -/
def Obligations.InvalidationDropsEntries : Prop :=
  ∀ (s : State) (value : Nat), s.dev.sound →
    (value / 2 ^ 30 % 2 = 0 → exec (.invalidationStart 0 value) s = .next (s.withDev ((s.dev.wr 0 XLATE_INVAL_CTL_JOB (value / 2 ^ 16 % 2 ^ 12)).wr 0
      XLATE_INVAL_CTL_PAGES_M1 (value % 2 ^ 16)))) ∧
    (value / 2 ^ 30 % 2 = 1 → s.dev.on 0 XLATE_INVAL_CTL_BUSY = true →
      exec (.invalidationStart 0 value) s = .next (s.withDev (s.dev.set 0 XLATE_STATUS_INVAL_REFUSED))) ∧
    (value / 2 ^ 30 % 2 = 1 → s.dev.on 0 XLATE_INVAL_CTL_BUSY = false → value / 2 ^ 16 % 2 ^ 12 = 0 →
      runs (.invalidationStart 0 value) s fun d =>
        d.on 0 XLATE_STATUS_INVAL_REFUSED = true ∧ d.on 0 XLATE_INVAL_CTL_BUSY = false ∧ d.xlate = s.dev.xlate ∧ keepsMem s.dev d) ∧
    (value / 2 ^ 30 % 2 = 1 → s.dev.on 0 XLATE_INVAL_CTL_BUSY = false → value / 2 ^ 16 % 2 ^ 12 ≠ 0 →
      let lo := s.dev.rd 0 XLATE_INVAL_VA_LO_VA * 2 ^ 16 + s.dev.rd 0 XLATE_INVAL_VA_HI_VA * 2 ^ 32
      let n := (value % 2 ^ 16 + 1) * 2 ^ 16
      runs (.invalidationStart 0 value) s fun d =>
        d.on 0 XLATE_INVAL_CTL_BUSY = true ∧ d.xlate.inval = some (value / 2 ^ 16 % 2 ^ 12, lo, n) ∧ keepsMem s.dev d ∧
        ∀ t ∈ d.xlate.tlb, t.pin = false → t.job = value / 2 ^ 16 % 2 ^ 12 → t.va + 2 ^ t.log2 ≤ lo ∨ lo + n ≤ t.va) ∧
    (∀ j lo n : Nat, s.dev.xlate.inval = some (j, lo, n) →
      runs .invalidationDone s fun d =>
        d.on 0 XLATE_INVAL_CTL_BUSY = false ∧ d.xlate.inval = none ∧ keepsMem s.dev d ∧ keepsFields s.dev d [(0, XLATE_INVAL_CTL_BUSY)] ∧
        ∀ t ∈ d.xlate.tlb, t.pin = false → t.job = j → t.va + 2 ^ t.log2 ≤ lo ∨ lo + n ≤ t.va)

/-- DMA engines (R97 to R100): a descriptor that R98 refuses ends BAD_DESCRIPTOR with no access; a sound one is taken; and a fill or a copy of
one row leaves its pattern, or the bytes of its source, at the destination, byte by byte, and every other byte as it was, and counts as
done. It rests on choices of the model: assumptions 171, 200, 201, 203. Its clauses conclude that exec answers a next state (`runs c s P`:
exec c s = .next t, and P of t) for: dmaDescriptorStart, dmaDescriptorDone. -/
def Obligations.DmaTakesAndFills : Prop :=
  ∀ (s : State) (die e sd idx k entry : Nat) (d : List Nat), s.dev.sound → die < 4 → e < 16 →
    (s.dev.dmaNext die e (.slice sd idx) k = some (entry, d) → dmBad s.dev.ownId d = false → (dmSrcRemote d || dmDstRemote d) = false →
      runs (.dmaDescriptorStart die e (.slice sd idx) k) s fun t =>
        t.dmaRun die e = some (some (.slice sd idx), entry, d) ∧ t.on die (DMA_ENG_STATUS_BUSY e) = true ∧
        t.rd die (DMA_ENG_STATUS_JOB e) = 0 ∧ keepsMem s.dev t ∧
        keepsFields s.dev t [(die, DMA_ENG_STATUS_BUSY e), (die, DMA_ENG_STATUS_JOB e), (die, DMA_AUDIT_DESC_OUT)]) ∧
    (s.dev.dmaNext die e (.slice sd idx) k = some (entry, d) → dmBad s.dev.ownId d = true → s.dev.on die DMA_ERR_STATUS_VALID = false →
      runs (.dmaDescriptorStart die e (.slice sd idx) k) s fun t =>
        t.dmaRun die e = none ∧ t.on die DMA_ERR_STATUS_VALID = true ∧ t.rd die DMA_ERR_STATUS_ENGINE = e ∧
        t.rd die DMA_ERR_STATUS_STATUS = stBAD_DESCRIPTOR ∧ keepsMem s.dev t) ∧
    (∀ (t : Tlb) (b n : Nat), s.dev.dmaRun die e = some (some (.slice sd idx), entry, d) → s.dev.on die (DMA_ENG_STATUS_PARKING e) = false →
      s.dev.isFenced die (mDma + e) = false → (dmOpcode d = 2 ∨ dmOpcode d = 1) → (dmSrcRemote d || dmDstRemote d) = false → dmSignalEn d = false →
      dmRows d = 1 → dmDoneRows d = 0 → dmDoneBytes d = 0 → 14 < d.length → dmLength d = n → 1 ≤ n → n ≤ 64 → dmDst d % 65536 + n ≤ 65536 →
      s.dev.on 0 XLATE_CTL_EN = true → s.dev.tlbHit die (mDma + e) 0 (dmDst d) = some t → t.pin = true → t.wr = true →
      b = t.pa + (dmDst d - t.va) → s.dev.accessStatus die (mDma + e) b n true = stDONE → s.dev.pond.ecc = [] → s.dev.pond.link = [] →
      s.dev.routeUp (s.dev.homeDie (s.dev.region b)) die = true → b + n ≤ fusionBase 0 → s.dev.paOf die 0 (dmDst d) = some b →
      (∀ (c : Nat) (q : Tlb), dmOpcode d = 2 ∨ (dmSrc d % 65536 + n ≤ 65536 ∧ s.dev.tlbHit die (mDma + e) 0 (dmSrc d) = some q ∧ q.pin = true ∧ q.rd = true ∧
        c = q.pa + (dmSrc d - q.va) ∧ s.dev.accessStatus die (mDma + e) c n false = stDONE ∧ s.dev.routeUp (s.dev.homeDie (s.dev.region c)) die = true) →
      runs (.dmaDescriptorDone die e []) s fun u =>
        u.dmaRun die e = none ∧ (∀ i < n, u.byte (b + i) = if dmOpcode d = 2 then dmPattern d / 2 ^ (8 * (i % 4)) % 256 else s.dev.byte (c + i)) ∧
        u.rd die DMA_DONE_COUNT_COUNT = min (s.dev.rd die DMA_DONE_COUNT_COUNT + 1) (2 ^ DMA_DONE_COUNT_COUNT.w - 1) ∧
        ∀ a, (a < b ∨ b + n ≤ a) → u.byte a = s.dev.byte a))

/-- The matrix engine and the gate pipeline (R119, R122, R125, R128 to R133): a product of one row and one column in 16-bit formats is the sum
of R119 in FP32, and a chain of ops on one element writes the chain's value; both leave every other byte as it was. It rests on choices of
the model: assumptions 27, 28, 29, 33, 206. Its clauses conclude that exec answers a next state (`runs c s P`: exec c s = .next t, and P
of t) for: matrix, gate. -/
def Obligations.MatrixAndGate : Prop :=
  ∀ (s : State) (i : Issue) (w next : List Nat) (core : Nat), s.dev.sound → s.dev.pond.ecc = [] →
    let base := coreStoreBase (core / 64) (core % 64)
    (s.dev.offers i w next core → hdOpcode w = 0x10 → firstFail (mxChecks w next) = none → mxLink w = false → mxAcc w = false → mxM w = 1 →
      mxN w = 1 → mxK w ≤ 32 → is16 (mxAFmt w) = true → mxOutFmt w = 0xA → (mxA w).space = 1 → (mxB w).space = 1 → (mxC w).space = 1 →
      let k := mxK w
      let a := s.dev.load (base + (mxA w).addr) (2 * k)
      let b := s.dev.load (base + (mxB w).addr) (ntileBytes (mxBFmt w) k)
      let z := dotAcc false 0 [(List.range k).map fun j =>
        (decElem (mxAFmt w) (elemAt a 16 j), decElem (mxBFmt w) (bits b (tileBit (mxBFmt w) k j 0) 16))]
      runs (.matrix i w next) s fun d =>
        d.load (base + (mxC w).addr) 4 = (convFloat 0xA (dec32 z)).1 % 2 ^ 32 ∧ d.running core ∧
        (∀ x, (x < base + (mxC w).addr ∨ base + (mxC w).addr + 4 ≤ x) → d.byte x = s.dev.byte x) ∧
        keepsFields s.dev d (issueFields i core)) ∧
    (s.dev.offers i w [] core → hdOpcode w = 0x11 → s.dev.linkOf core i.work = none → firstFail (gtChecks w none) = none → gtRows w = 1 →
      gtCols w = 1 → gtInFmt w = 0xA → gtOutFmt w = 0xA → (gtX w).space = 1 → (gtOut w).space = 1 →
      (gtOps w).any (fun o => decide (opSrc o = 1) || opReduce o) = false →
      let x := widen 0xA (s.dev.load (base + (gtX w).addr) 4)
      runs (.gate i w) s fun d =>
        d.load (base + (gtOut w).addr) 4 = (convFloat 0xA (dec32 (wd (gateRow w [] [x]).1 0))).1 % 2 ^ 32 ∧ d.running core ∧
        (∀ y, (y < base + (gtOut w).addr ∨ base + (gtOut w).addr + 4 ≤ y) → d.byte y = s.dev.byte y) ∧
        keepsFields s.dev d (issueFields i core))

/-- The end of a core's command and the completion queues (R207, R213, R224): one of several cores waits for the others; the last core of a
slice's command is free; a ring's command that ended DONE in the middle of its kernel moves HEAD past its entry, writes no record and
keeps its kernel; a completion head that passes the tail sets RANGE_ERR and moves nothing, and another is taken. It rests on choices of
the model: assumptions 7, 17, 204, 206. Its clauses conclude that exec answers a next state (`runs c s P`: exec c s = .next t, and P of t)
for: commandEnd, cqHeadWrite. -/
def Obligations.CommandsComplete : Prop :=
  (∀ (s : State) (core : Nat) (c : CoreCmd), s.dev.sound → s.dev.probe = {} → s.dev.cmd core = some c → c.ended = false → s.dev.cmdBusy core = false →
    (∀ (k : Nat) (y : CoreCmd), k ∈ c.cores → k ≠ core → s.dev.cmd k = some y → y.ended = false →
      runs (.commandEnd core) s fun d => d.cmd core = some { c with ended := true } ∧ d.disp.rings = s.dev.disp.rings ∧ keepsMem s.dev d) ∧
    (∀ sd idx : Nat, c.cores = [core] → c.work = .slice sd idx → c.status = stDONE →
      runs (.commandEnd core) s fun d => d.cmd core = none ∧ d.chorus = s.dev.chorus ∧ keepsMem s.dev d) ∧
    (∀ (g : Nat) (k : Kernel), c.cores = [core] → c.work = .ring g → c.status = stDONE → bit c.header 18 = false → bit c.header 23 = false →
      c.opcode ≠ 0x22 → s.dev.kernelOf g = some k → (s.dev.ring g).state = 1 → (s.dev.ring g).fetched = true →
      (s.dev.job (s.dev.ring g).job).state ≠ 4 →
      runs (.commandEnd core) s fun d =>
        d.cmd core = none ∧ d.ring g = (s.dev.ring g).advance ∧ d.kernelOf g = some { k with entry := k.entry + 1 } ∧
        d.rd (g / 65536) DISPATCH_AUDIT_RETIRED = (s.dev.rd (g / 65536) DISPATCH_AUDIT_RETIRED + 1) % 2 ^ DISPATCH_AUDIT_RETIRED.w ∧ keepsMem s.dev d)) ∧
  (∀ (s : State) (die value : Nat), s.dev.sound →
    let g := s.dev.selRing die
    let r := s.dev.ring g
    let n := 2 ^ rdCqLog2 (if g = frameRing then s.dev.ringDesc g else r.desc)
    let h := value % 2 ^ 16
    ((n ≤ h ∨ (r.cqTail + n - r.cqHead) % n < (h + n - r.cqHead) % n) →
      exec (.cqHeadWrite die value) s = .next (s.withDev (s.dev.set die DISPATCH_STATUS_RANGE_ERR))) ∧
    (h < n → (h + n - r.cqHead) % n ≤ (r.cqTail + n - r.cqHead) % n → r.held = [] →
      exec (.cqHeadWrite die value) s = .next (s.withDev (s.dev.setRing g { r with cqHead := h }))))

/-- Pads (R141, R148, R149, R161): a host's edit of an entry that is being moved is not written and answers 2; of one that differs from OLD
answers 1 and shows its value; one that agrees is written, and nothing else is; a copy whose entry was edited meanwhile is discarded and
its slot is free; one whose entry stands makes it POND and is counted; an eviction whose entry stands frees the slot, and one whose entry
was edited leaves it RETIRED. It rests on choices of the model: assumptions 42, 208, 211, 212. Its clauses conclude that exec answers a
next state (`runs c s P`: exec c s = .next t, and P of t) for: padEdit, padCopyDone, padEvictionAck. -/
def Obligations.PadsAndTheirTable : Prop :=
  (∀ (s : State) (die k value : Nat), s.dev.sound → value / 2 ^ 30 % 2 = 1 → s.dev.on die (CLUSTER_PAD_EDIT_CTL_BUSY k) = false → s.dev.pond.ecc = [] →
    s.dev.pond.link = [] →
    let a := (s.dev.rd die (CLUSTER_PAD_EDIT_ADDR_LO_ADDR k) + 2 ^ 32 * (s.dev.rd die (CLUSTER_PAD_EDIT_ADDR_HI_ADDR k) % 65536)) / 8 * 8
    let old := s.dev.rd die (CLUSTER_PAD_EDIT_OLD_LO_VALUE k) + 2 ^ 32 * s.dev.rd die (CLUSTER_PAD_EDIT_OLD_HI_VALUE k)
    let new := s.dev.rd die (CLUSTER_PAD_EDIT_NEW_LO_VALUE k) + 2 ^ 32 * s.dev.rd die (CLUSTER_PAD_EDIT_NEW_HI_VALUE k)
    let e := s.dev.load a 8
    let moves := fun (e : Nat) => decide (peState e = pPROMOTING) || decide (peState e = pEVICTING)
    let named := fun (e : Nat) => peResident e || moves e
    let but := (die, CLUSTER_PAD_EDIT_CTL_RESULT k) :: bridgeFields
    let pool := (s.dev.editCore die k a).2
    let h := s.dev.slotAddr pool (peSlot new)
    a + 8 ≤ 4 * pondDieBytes → (s.dev.readChk die mPad a 8).2.1 = stDONE →
    (moves e = true → runs (.padEdit die k value) s fun d =>
      d.rd die (CLUSTER_PAD_EDIT_CTL_RESULT k) = 2 ∧ d.att = s.dev.att ∧ keepsMem s.dev d ∧ keepsFields s.dev d but) ∧
    (moves e = false → e ≠ old → runs (.padEdit die k value) s fun d =>
      d.rd die (CLUSTER_PAD_EDIT_CTL_RESULT k) = 1 ∧ d.att = s.dev.att ∧ keepsMem s.dev d ∧
      d.rd die (CLUSTER_PAD_EDIT_OLD_LO_VALUE k) + 2 ^ 32 * d.rd die (CLUSTER_PAD_EDIT_OLD_HI_VALUE k) = e ∧
      keepsFields s.dev d ((die, CLUSTER_PAD_EDIT_OLD_LO_VALUE k) :: (die, CLUSTER_PAD_EDIT_OLD_HI_VALUE k) :: but)) ∧
    (moves e = false → e = old → named new = false → (s.dev.att.slots.Pairwise fun x y => x.1 < y.1) →
      runs (.padEdit die k value) s fun d => d.rd die (CLUSTER_PAD_EDIT_CTL_RESULT k) = 0 ∧ d.load a 8 = new % 2 ^ 64 ∧
        (∀ c n, d.slot c n = let x := s.dev.slot c n
          if x.entry = a ∧ x.st = 1 ∧ named old = true then { x with st := 2, tag := peEpoch new } else x) ∧
        (∀ x, (x < a ∨ a + 8 ≤ x) → d.byte x = s.dev.byte x) ∧ keepsFields s.dev d but) ∧
    (moves e = false → e = old → named new = true → (a + 8 ≤ h ∨ h + 512 ≤ a) →
      runs (.padEdit die k value) s fun d => d.rd die (CLUSTER_PAD_EDIT_CTL_RESULT k) = 0 ∧ d.load a 8 = new % 2 ^ 64 ∧
        (d.slot pool (peSlot new)).st = 1 ∧ (d.slot pool (peSlot new)).entry = a ∧
        ∀ x, (x < a ∨ a + 8 ≤ x) → (x < h ∨ h + 512 ≤ x) → d.byte x = s.dev.byte x)) ∧
  (∀ (s : State) (core n : Nat) (m : PadMove), s.dev.sound → s.dev.att.wants = [] → s.dev.att.cmds = [] → s.dev.pond.link = [] →
    let x := s.dev.slot core n
    let a := s.dev.slotAddr core n
    let count := fun (d : Device) (f : Nat → Fld) => d.rd (core / 64) (f (core % 64 / 8)) =
      min (s.dev.rd (core / 64) (f (core % 64 / 8)) + 1) (2 ^ (f 0).w - 1)
    (let c := s.dev.copyVa core (s.dev.workJob m.work) m.va a (if x.wide then padCopyBytes 8 else padCopyBytes 3) false
     s.dev.moveOf core n true = some m → c.2 = 0 → c.1.pond.ecc = [] → c.1.accessStatus (core / 64) mPad m.entry 8 false = stDONE →
      c.1.routeUp (c.1.homeDie (c.1.region m.entry)) (core / 64) = true →
      (c.1.load m.entry 8 ≠ m.value → runs (.padCopyDone core n []) s fun d =>
        (d.slot core n).st = 0 ∧ d.att.moves = s.dev.att.moves.filter (· ≠ m) ∧ keepsMem c.1 d ∧ keepsFields c.1 d bridgeFields) ∧
      (c.1.load m.entry 8 = m.value → (m.entry + 8 ≤ a ∨ a + 512 ≤ m.entry) → runs (.padCopyDone core n []) s fun d =>
        d.load m.entry 8 = peWithState m.value pPOND % 2 ^ 64 ∧ d.slot core n = x ∧ d.att.moves = s.dev.att.moves.filter (· ≠ m) ∧
        count d CLUSTER_PAD_MOVES_PROMOTED ∧
        ∀ b, (b < m.entry ∨ m.entry + 8 ≤ b) → (b < a ∨ a + 512 ≤ b) → d.byte b = c.1.byte b)) ∧
    (let c := s.dev.copyVa core x.job m.va a (if x.wide then 2 * slotBytes else slotBytes) true
     s.dev.moveOf core n false = some m → s.dev.load m.entry 8 = m.value → c.2 = 0 → s.dev.pond.ecc = [] → c.1.pond.ecc = [] →
      c.1.load m.entry 8 = m.value → c.1.accessStatus (core / 64) mPad m.entry 8 false = stDONE →
      c.1.routeUp (c.1.homeDie (c.1.region m.entry)) (core / 64) = true →
      runs (.padEvictionAck core n) s fun d =>
        d.load m.entry 8 = peWithState m.value pLP5X % 2 ^ 64 ∧ (d.slot core n).st = 0 ∧ d.att.moves = s.dev.att.moves.filter (· ≠ m) ∧
        count d CLUSTER_PAD_MOVES_EVICTED ∧ ∀ b, (b < m.entry ∨ m.entry + 8 ≤ b) → d.byte b = c.1.byte b) ∧
    (s.dev.moveOf core n false = some m → s.dev.load m.entry 8 ≠ m.value → s.dev.pond.ecc = [] →
      s.dev.accessStatus (core / 64) mPad m.entry 8 false = stDONE → s.dev.routeUp (s.dev.homeDie (s.dev.region m.entry)) (core / 64) = true →
      runs (.padEvictionAck core n) s fun d =>
        d.slot core n = { x with st := 2, tag := peEpoch (s.dev.load m.entry 8) } ∧ keepsMem s.dev d ∧ keepsFields s.dev d bridgeFields))

/-- Attention (R150, R155, R158): a command that passes its checks and whose pages translate runs its rows in their order; and a core's
partial of a row that is not its cluster's last is counted, and waits. It rests on choices of the model: assumptions 36, 37, 207, 209,
210, 213. Its clauses conclude that exec answers a next state (`runs c s P`: exec c s = .next t, and P of t) for: attention, mergePartial. -/
def Obligations.AttentionRowsAndMerges : Prop :=
  (∀ (s : State) (i : Issue) (w : List Nat) (raced : List (List Nat)) (core : Nat), s.dev.offers i w [] core → hdOpcode w = 0x12 →
    let s0 := s.dev.taken i w
    let job := s0.workJob i.work
    let row := s0.rowOf (core / 64) job w 0
    let c : AttCmd := { issue := i, words := w, rows := [row], coll := none }
    firstFail (s0.atChecks i w) = none → atScope w ≠ 3 → atRows w = 1 → (atHomes w).foldl Device.reclaim s0 = s0 →
    s0.openPages core i (atPagesFirst job w) = (s0, true) → s0.openPages core i ((pagesOf job row.table 0x40).map fun p => (p, false)) = (s0, true) →
    s0.openPages core i (s0.atPagesRows c) = (s0, true) → s0.ptOk c row = true → pairOk (atQFmt w) (s0.ptFmt c row) = true →
    exec (.attention i w raced) s = .next (s.withDev
      (({ s0 with att := { s0.att with cmds := s0.att.cmds ++ [c] } } : Device).rowStart c row (raced.getD 0 [])).done)) ∧
  (∀ (s : State) (lead row node : Nat) (c : AttCmd) (r : AttRow) (ps : List (Option Partial)), s.dev.sound → s.dev.att.cmds = [c] → c.lead = lead →
    c.row row = some r → r.stage = .merge → (r.parts.find? fun p => p.1 = node && !p.2.1) = some (node, false, ps) → node < 256 →
    (∃ k ∈ homeNodes c.words 0, k / 8 = node / 8 ∧ k ≠ node ∧ r.arrived 0 k = none) →
    runs (.mergePartial (.node lead row 0 node)) s fun d =>
      d.rd (node / 64) (CLUSTER_MERGE_AUDIT_PARTIAL_IN (node / 8 % 8)) =
        (s.dev.rd (node / 64) (CLUSTER_MERGE_AUDIT_PARTIAL_IN (node / 8 % 8)) + 1) % 2 ^ (CLUSTER_MERGE_AUDIT_PARTIAL_IN 0).w ∧
      keepsFields s.dev d [(node / 64, CLUSTER_MERGE_AUDIT_PARTIAL_IN (node / 8 % 8))] ∧ keepsMem s.dev d ∧
      d.att.cmds = [{ c with rows := c.rows.map fun x => if x.idx = r.idx then
        { r with parts := r.parts.map fun x => if x.1 = node then (x.1, true, x.2.2) else x } else x }])

/-- Recurrent chunks and state swaps (R170, R171, R173, R175, R176): a core that issues a chunk arrives at the start barrier with the status
of its checks; the barrier of a group whose cores have all arrived ends the chunk with the failing core's status, or starts it; a step
moves STEP on by one; a block swapped out is no longer resident and its generation is one more; a block swapped in has the image's body
and is resident under the next generation; and the signal is added where it is enabled. It rests on choices of the model: assumptions 43,
45, 214, 215. Its clauses conclude that exec answers a next state (`runs c s P`: exec c s = .next t, and P of t) for: recurrentChunk,
startBarrier, stepBarrier, swapOut, swapIn. -/
def Obligations.ChunksAndSwaps : Prop :=
  (∀ (s : State) (core : Nat), s.dev.sound → s.dev.pond.ecc = [] → core < 256 →
    (∀ (i : Issue) (w : List Nat), s.dev.offers i w [] core → hdOpcode w = 0x13 → s.dev.chunkOf core = none →
      let s0 := s.dev.taken i w
      let h := s0.stHeader core (rcOff w)
      runs (.recurrentChunk i w) s fun d => keepsMem s.dev d ∧
        d.rd (core / 64) (CLUSTER_REC_AUDIT_ARRIVE (core % 64 / 8)) =
          (s.dev.rd (core / 64) (CLUSTER_REC_AUDIT_ARRIVE (core % 64 / 8)) + 1) % 2 ^ (CLUSTER_REC_AUDIT_ARRIVE 0).w ∧
        ∃ st reason, d.chunks = s.dev.chunks ++ [{ issue := i, words := w, arrived := [(core, st, reason)] }] ∧
          (firstFail (s0.rcChecks core w) = none → shResident h = false → st = stSTATE_OUT) ∧
          (firstFail (s0.rcChecks core w) = none → shResident h = true → shGen h ≠ rcGen w → st = stSTATE_GEN) ∧
          (firstFail (s0.rcChecks core w) = none → shResident h = true → shGen h = rcGen w →
            (s0.translateAll (core / 64) (core % 64) (s0.workJob i.work) (s0.rcPages core (s0.workJob i.work) w)).2 = none → st = stDONE)) ∧
    (∀ (c : Chunk) (m : CoreCmd) (st reason : Nat), s.dev.chunkOf core = some c → c.cores = [core] → c.running = false →
      c.arrived = [(core, st, reason)] → s.dev.cmd core = some m → m.status = stDONE → st ≠ stDONE →
      runs (.startBarrier core) s fun d =>
        d.chunks = s.dev.chunks.filter (· ≠ c) ∧ d.cmd core = some { m with status := st, reason := reason } ∧ keepsMem s.dev d) ∧
    (∀ (c : Chunk) (m : CoreCmd) (reason sd idx : Nat), s.dev.chunkOf core = some c → c.cores = [core] → c.running = false →
      c.arrived = [(core, stDONE, reason)] → s.dev.cmd core = some m → m.status = stDONE → c.issue.work = .slice sd idx →
      let h := s.dev.stHeader core (rcOff c.words)
      let n := (shNb h * shWc h + 15) / 16 * ntileBytes (shBFmt h) (shK h 1)
      isMx (shBFmt h) = false → shASrc h = true → rcOff c.words + shBytes h ≤ 0x40000 →
      (∀ p ∈ s.dev.pieces (core / 64) (core % 64) 0 (shBVa h) n, s.dev.accessStatus (core / 64) (core % 64) p.1 p.2 false = stDONE) →
      runs (.startBarrier core) s fun d =>
        (∃ ws, d.chunks = s.dev.chunks.map fun y => if y = c then { y with running := true, weights := ws } else y) ∧
        d.rd (core / 64) (CLUSTER_REC_AUDIT_RELEASE (core % 64 / 8)) =
          (s.dev.rd (core / 64) (CLUSTER_REC_AUDIT_RELEASE (core % 64 / 8)) + 1) % 2 ^ (CLUSTER_REC_AUDIT_RELEASE 0).w) ∧
    (∀ c : Chunk, s.dev.chunkOf core = some c → c.cores = [core] → c.running = true →
      let h := s.dev.stHeader core (rcOff c.words)
      let anchored := rcAnchorEn c.words && shAnchorN h ≠ 0 && (shStep h + 1) % max 1 (shAnchorN h) = 0
      (s.dev.stepIn c core 1 (if anchored then some c.anchors else none)).2.1 = stDONE →
      runs (.stepBarrier core) s fun d =>
        d.load (coreStoreBase (core / 64) (core % 64) + rcOff c.words + 16) 8 = (shStep h + 1) % 2 ^ 64 ∧
        d.chunks = (if c.step + 1 = rcSteps c.words then s.dev.chunks.filter (· ≠ c) else s.dev.chunks.map fun y =>
          if y = c then { y with step := y.step + 1, anchors := if anchored then y.anchors + 1 else y.anchors } else y))) ∧
  (∀ (s : State) (i : Issue) (w : List Nat) (core sd idx : Nat), s.dev.sound → s.dev.pond.ecc = [] → (∀ t ∈ s.dev.xlate.tlb, t.pin = true) →
    s.dev.offers i w [] core → hdOpcode w = 0x14 → i.work = .slice sd idx →
    let s0 := s.dev.taken i w
    let a := coreStoreBase (core / 64) (core % 64) + rcOff w
    let h := s0.stHeader core (rcOff w)
    let sync := if swSignalEn w then wrapN 64 (s.dev.syncVal (swSync w) + swAdd w) else s.dev.syncVal (swSync w)
    firstFail (s0.swChecks core w) = none →
    (shResident h = true → shGen h = rcGen w →
      (s0.translateAll (core / 64) (core % 64) 0 ((pagesOf 0 (shSwapVa h) (shBytes h)).map fun p => (p, true))).2 = none →
      (s0.opWrite core i.work ⟨0, shSwapVa h⟩ (shBytes h)
        (setBits (setBits (s0.load a (shBytes h)) 0 32 (rcGen w + 1)) 32 1 0)).cmdOk core = true →
      runs (.swapOut i w) s fun d =>
        d.load a 4 = (rcGen w + 1) % 2 ^ 32 ∧ d.byte (a + 4) % 2 = 0 ∧ d.syncVal (swSync w) = sync ∧ d.running core) ∧
    (let img := s0.opRead core i.work ⟨0, shSwapVa h⟩ (shBytes h)
     shResident h = false → img.1.cmdOk core = true → shGen img.2 = rcGen w →
      (s0.translateAll (core / 64) (core % 64) 0 ((pagesOf 0 (shSwapVa h) (shBytes h)).map fun p => (p, false))).2 = none →
      runs (.swapIn i w) s fun d =>
        d.load a 4 = (rcGen w + 1) % 2 ^ 32 ∧ d.byte (a + 4) % 2 = 1 ∧
        d.load (a + 64) (shBytes h - 64) = img.2 / 2 ^ 512 % 256 ^ (shBytes h - 64) ∧
        (∀ x, (x < a ∨ a + shBytes h ≤ x) → d.byte x = s.dev.byte x) ∧ d.syncVal (swSync w) = sync ∧ d.running core))

/-- Collectives (R186 to R193): one of one core alone opens and closes at once under the scope's next sequence value; SUM gives its row,
GATHER places it, NORM scales it by its own totals, and BARRIER writes nothing; a contribution from another device joins the collective it
agrees with, is kept for one not issued yet, and is counted as late otherwise; a collective open past its deadline ends its core's command
with COLL_TIMEOUT; a notice for one not issued yet is kept. It rests on choices of the model: assumptions 47, 48, 49, 150. Its clauses
conclude that exec answers a next state (`runs c s P`: exec c s = .next t, and P of t) for: collSum, collGather, collNorm, collBarrier,
collectiveContribution, collectiveTimeout, abandonNotice. -/
def Obligations.Collectives : Prop :=
  (∀ (s : State) (i : Issue) (w : List Nat) (core : Nat), s.dev.sound → s.dev.pond.ecc = [] → s.dev.loneColl i w core →
    let base := coreStoreBase (core / 64) (core % 64)
    let src := fun k => s.dev.load (base + (clSrc w).addr + 4 * k) 4
    let n := 16 * clUnits w
    let closed : Device → Prop := fun d =>
      d.coll.active = [] ∧ SMap.get 0 d.coll.seq (1024 + core / 64) = (SMap.get 0 s.dev.coll.seq (1024 + core / 64) + 1) % 2 ^ 32 ∧
      d.running core
    (clKind w = 0 → clResEn w = false → clNormEn w = false → clOutFmt w = 0xA → (clDst w).addr + 4 * n ≤ 0x40000 →
      runs (.collSum i w) s fun d => closed d ∧
        (∀ k < n, d.load (base + (clDst w).addr + 4 * k) 4 = (convFloat 0xA (dec32 (src k))).1 % 2 ^ 32) ∧
        ∀ x, (x < base + (clDst w).addr ∨ base + (clDst w).addr + 4 * n ≤ x) → d.byte x = s.dev.byte x) ∧
    (clKind w = 1 → (clDst w).addr + 64 * clDstOff w + 4 * n ≤ 0x40000 →
      let o := base + (clDst w).addr + 64 * clDstOff w
      runs (.collGather i w) s fun d => closed d ∧ (∀ k < n, d.load (o + 4 * k) 4 = src k) ∧
        ∀ x, (x < o ∨ o + 4 * n ≤ x) → d.byte x = s.dev.byte x) ∧
    (clKind w = 2 → clOutFmt w = 0xA → (clDst w).addr + 64 * clDstOff w + 4 * n ≤ 0x40000 → (clV w).addr + 64 * clDstOff w + 4 * n ≤ 0x40000 →
      let o := base + (clDst w).addr + 64 * clDstOff w
      let row := (List.range n).map src
      let v := (List.range n).map fun k => s.dev.load (base + (clV w).addr + 64 * clDstOff w + 4 * k) 4
      let out := normSplit (clLayer w) row v (clEps w) (rowSum row) (rowSum (row.map fun x => mul32 x x)) n
      runs (.collNorm i w) s fun d => closed d ∧ (∀ k < n, d.load (o + 4 * k) 4 = (convFloat 0xA (dec32 (wd out k))).1 % 2 ^ 32) ∧
        ∀ x, (x < o ∨ o + 4 * n ≤ x) → d.byte x = s.dev.byte x) ∧
    (clKind w = 3 → runs (.collBarrier i w) s fun d => closed d ∧ keepsMem s.dev d)) ∧
  (∀ s : State, s.dev.sound →
    (∀ (h : FlitHead) (a : Arrival), s.dev.flitComes a.die h → (a.data.flatMap fun x => x.1 :: x.2).length ≤ 60 →
      let x : Contribution := { group := a.group, seq := a.seq, dev := a.dev, kind := a.kind, units := a.units, rows := a.rows, data := a.data }
      (∀ c : Coll, s.dev.coll.active = [c] → c.is a.group a.seq = true → c.attn = none → c.dead = none → s.dev.coll.held = [] →
        [a.kind, a.units, a.rows] = clShape c.words → c.full = false →
        runs (.collectiveContribution h a) s fun d =>
          d.coll.active = [{ c with remote := c.remote ++ [x] }] ∧ (d.olPort a.die).seqIn = h.seq ∧ keepsMem s.dev d) ∧
      (s.dev.coll.active = [] → s.dev.collAhead a.group a.seq = true → s.dev.takeNotice a.group a.seq = none →
        runs (.collectiveContribution h a) s fun d => d.coll = { s.dev.coll with early := s.dev.coll.early ++ [x] } ∧ keepsMem s.dev d) ∧
      (s.dev.coll.active = [] → s.dev.collAhead a.group a.seq = false →
        runs (.collectiveContribution h a) s fun d =>
          d.rd a.die DISPATCH_COLL_STATUS_LATE = min (s.dev.rd a.die DISPATCH_COLL_STATUS_LATE + 1) (2 ^ DISPATCH_COLL_STATUS_LATE.w - 1) ∧
          d.coll = s.dev.coll ∧ keepsMem s.dev d)) ∧
    (∀ (c : Coll) (p : CollPart) (m : CoreCmd) (g : Nat), s.dev.coll.active = [c] → c.parts = [p] → c.members = [] → c.attn = none →
      c.dead = none → c.full = true → s.dev.coll.held = [] → s.dev.att.cmds = [] → p.issue.work = .ring g → s.dev.cmd p.core = some m →
      m.status = stDONE → p.tick + s.dev.collTimeout ≤ s.dev.chorus.tickNo →
      runs (.collectiveTimeout c.scope c.seq) s fun d =>
        d.coll.active = [] ∧ d.on (p.core / 64) DISPATCH_COLL_STATUS_TIMED_OUT = true ∧
        d.cmd p.core = some { m with status := stCOLL_TIMEOUT, reason := 0 } ∧ d.coll.gone = s.dev.coll.gone ++ [(c.scope, c.seq)] ∧
        keepsMem s.dev d) ∧
    (∀ (die group seq status : Nat) (h : FlitHead), s.dev.flitComes die h → s.dev.coll.active = [] → s.dev.collAhead group seq = true →
      runs (.abandonNotice die h group seq status) s fun d =>
        d.coll = { s.dev.coll with notices := s.dev.coll.notices ++ [(group, seq, status)] } ∧ keepsMem s.dev d) ∧
    (∀ (die group seq status : Nat) (h : FlitHead), s.dev.flitComes die h → s.dev.coll.active = [] → s.dev.collAhead group seq = false →
      s.dev.coll.gone.contains (group, seq) = false →
      runs (.abandonNotice die h group seq status) s fun d =>
        d.rd die DISPATCH_COLL_STATUS_DONE_ABANDONED =
          min (s.dev.rd die DISPATCH_COLL_STATUS_DONE_ABANDONED + 1) (2 ^ DISPATCH_COLL_STATUS_DONE_ABANDONED.w - 1) ∧ d.coll = s.dev.coll))

/-- Segments and resolves (R197 to R199): a segment whose tokens lie in their bins goes to the end of its die's queue, with its positions; a
resolve waits for the sample edge with the entries that are in the queues now. It rests on choices of the model: assumptions 50, 51. Its
clauses conclude that exec answers a next state (`runs c s P`: exec c s = .next t, and P of t) for: segment, resolve. -/
def Obligations.SegmentsAndResolves : Prop :=
  ∀ (s : State) (i : Issue) (w : List Nat) (core : Nat), s.dev.sound → s.dev.pond.ecc = [] → s.dev.offers i w [] core →
    let base := coreStoreBase (core / 64) (core % 64)
    let die := core / 64
    let tpw := sgTpw w + 1
    let tok := fun k j => s.dev.load (base + (sgTokens w).addr + 2 * (k * tpw + j)) 2
    let bin := fun j => s.dev.load (base + (sgBins w).addr + 4 * j) 4
    (hdOpcode w = 0x16 → firstFail (sgChecks w) = none → (sgTokens w).space = 1 → (sgBins w).space = 1 → sgDie w = die →
      (∀ k ≤ sgWps w, ∀ j, sgFirst w ≤ j → j ≤ sgFirst w + sgJoints w → sgBase w ≤ tok k j ∧ tok k j < sgBase w + sgNbins w) →
      (s.dev.segs die).length < 64 →
      runs (.segment i w) s fun d => d.running core ∧
        ∃ x : Segment, d.segs die = s.dev.segs die ++ [x] ∧ x.seq = SMap.get 0 s.dev.coll.segSeq die ∧ x.tag = sgTag w ∧
          x.commit = decide (sgTag w = 0) ∧ x.joints = sgJoints w + 1 ∧ x.wps = sgWps w + 1 ∧ x.obs = wd2 w 10 ∧ x.tStart = wd2 w 7 ∧
          x.dt = wd w 9 ∧ x.first = sgFirst w ∧ x.cancelled = false ∧ (∀ k < 576, d.byte (segAddr die x.slot + k) = x.image / 256 ^ k % 256) ∧
          (∀ a, (a < segAddr die x.slot ∨ segAddr die x.slot + 576 ≤ a) → d.byte a = s.dev.byte a) ∧
          (∀ k ≤ sgWps w, ∀ j, sgFirst w ≤ j → j ≤ sgFirst w + sgJoints w → wd x.pos (16 * k + j) =
            (convFloat 0xA (dec32 (fma32 (ofInt32 ((tok k j : Int) - sgBase w)) (bin (2 * j + 1)) (bin (2 * j))))).1) ∧
          d.rd die DISPATCH_SEG_AUDIT_WRITTEN = (s.dev.rd die DISPATCH_SEG_AUDIT_WRITTEN + 1) % 2 ^ DISPATCH_SEG_AUDIT_WRITTEN.w) ∧
    (hdOpcode w = 0x17 → bit (wd w 1) 30 = false → bits (wd w 1) 4 18 = 0 → (w.drop 2).any (· ≠ 0) = false →
      runs (.resolve i w) s fun d => keepsMem s.dev d ∧ keepsFields s.dev d (issueFields i core) ∧
        d.coll = { s.dev.coll with resolves := s.dev.coll.resolves ++
          [{ tag := bits (wd w 1) 22 8, cancel := bit (wd w 1) 31, dies := bitList (bits (wd w 1) 0 4) 4
             segs := (bitList (bits (wd w 1) 0 4) 4).flatMap fun d => (s.dev.segs d).map fun x => (d, x.seq), core := core }] })

/-- The ring requests and the doorbell (R205, R206): each answers the result of its first failing check and changes nothing else; ENABLE reads
the descriptor and the model, DISABLE of a ring with no entries left stops its intake, RESTART goes on from STOPPED; a doorbell moves
TAIL, or sets BAD_DOORBELL. It rests on choices of the model: assumptions 18, 217. Its clauses conclude that exec answers a next state
(exec c s = .next t) for: ringEnable, ringDisable, ringRestart, doorbell. -/
def Obligations.RingRequests : Prop :=
  ∀ (s : State) (die : Nat), s.dev.sound →
    let g := s.dev.selRing die
    let r := s.dev.ring g
    let d := s.dev.ringDesc g
    ((s.dev.readChk die mManage (s.dev.ringTab die + 64 * (g % 65536)) 64).2.1 = stDONE →
    (rdModelVa d = 0 ∨ (s.dev.vaRead die (rdJob d) (rdModelVa d) 64).2 = stDONE ∧ s.dev.modelOk die d = true) →
    exec (.ringEnable die) s = .next (s.withDev
      (if g = frameRing then s.dev.ringResult die 0 4
       else if r.state ≠ 0 ∨ s.dev.ringStarted g = true ∨ r.held ≠ [] then s.dev.ringResult die 0 2
       else if rdShapeOk d = false then s.dev.ringResult die 0 1
       else if (s.dev.job (rdJob d)).state ≠ 1 then s.dev.ringResult die 0 3
       else if s.dev.rangeMapped die (rdJob d) (rdVa d) (64 * 2 ^ rdLog2 d) = false ∨
          s.dev.rangeMapped die (rdJob d) (rdCqVa d) (16 * 2 ^ rdCqLog2 d) = false ∨
          (rdModelVa d ≠ 0 ∧ s.dev.rangeMapped die (rdJob d) (rdModelVa d) 64 = false) then
            (if rdModelVa d = 0 then s.dev else (s.dev.vaRead die (rdJob d) (rdModelVa d) 64).1).ringResult die 0 1
       else (s.dev.setRing g { state := 1, job := rdJob d, desc := d }).ringResult die 0 0))) ∧
    (r.head = r.tail → g ∉ s.dev.disp.claims → exec (.ringDisable die) s = .next (s.withDev
      (if g = frameRing then s.dev.ringResult die 1 4
       else if r.state = 0 then s.dev.ringResult die 1 2
       else (s.dev.setRing g { r with state := 0 }).ringResult die 1 0))) ∧
    exec (.ringRestart die) s = .next (s.withDev
      (if g = frameRing then s.dev.ringResult die 2 4
       else if r.state = 2 then (s.dev.setRing g { r with state := 1 }).ringResult die 2 0
       else s.dev.ringResult die 2 2)) ∧
    ∀ value : Nat,
      let q := die * 65536 + value % 65536
      let t := value / 65536 % 65536
      s.dev.kernelOf q = none → exec (.doorbell die value) s = .next (s.withDev
        (if (s.dev.ring q).state ≠ 0 ∧ t < 2 ^ rdLog2 (s.dev.ring q).desc ∧
            ((s.dev.job (s.dev.ring q).job).state = 1 ∨ (s.dev.job (s.dev.ring q).job).state = 2)
         then s.dev.setRing q { s.dev.ring q with tail := t } else s.dev.set die DISPATCH_STATUS_BAD_DOORBELL))

/-- Kernels (R216, R220 to R222): a free core takes the kernel of the ring ranked highest for it, and DISPATCH_CORE shows the kernel's job; a
first command whose wait has lasted WAIT_TICKS ends with WAIT_TIMEOUT, and its ring stops behind it; a lent kernel at its bound, or one
that has run KERNEL_TICKS ticks, is stopped, its cores are free and its job ends. It rests on choices of the model: assumptions 8, 173,
206, 218. Its clauses conclude that exec answers a next state (`runs c s P`: exec c s = .next t, and P of t) for: kernelDispatch,
waitTimeout, kernelBoundStop, kernelTicksLimit. -/
def Obligations.KernelsStartAndStop : Prop :=
  (∀ (s : State) (core g : Nat), s.dev.sound → s.dev.isHalted core = false → s.dev.coreBusy core = false → s.dev.disp.claims = [] →
    s.dev.disp.parked = [] → s.dev.pickRing core = some g → rdCores (s.dev.ring g).desc = [core] → rdModelVa (s.dev.ring g).desc = 0 →
    s.dev.disp.resumed = [] → (s.dev.headRead g).2 = stDONE → s.dev.coreDisabled core = false → s.dev.reservedCore core = false →
    runs (.kernelDispatch core) s fun d =>
      d.disp.kernels = s.dev.disp.kernels ++
        [{ ring := g, cores := [core], entry := 0, fcBound := 0, ticks := 0, lent := false, startRc := s.dev.rc, startTick := s.dev.chorus.tickNo }] ∧
      d.rd (core / 64) (DISPATCH_CORE_JOB (core % 64)) = (s.dev.ring g).job % 2 ^ (DISPATCH_CORE_JOB 0).w ∧ (d.ring g).waitTicks = 0 ∧ keepsMem s.dev d ∧
      keepsFields s.dev d [(core / 64, DISPATCH_CORE_JOB (core % 64))]) ∧
  (∀ (s : State) (g : Nat), s.dev.sound →
    (let r := s.dev.ring g
     r.state = 1 → r.head ≠ r.tail → s.dev.kernelOf g = none → rdDma r.desc = false → s.dev.plainMsi (rdMsiAddr r.desc) → s.dev.rd 0 DISPATCH_CTL_WAIT_TICKS ≤ r.waitTicks →
      s.dev.cmdWaitDone ⟨.ring g, r.head, []⟩ (s.dev.ringEntry g r.head) = false →
      runs (.waitTimeout g) s fun d => (d.ring g).head = r.advance.head ∧ (d.ring g).state = 2 ∧ (d.ring g).waitTicks = 0) ∧
    (∀ (k : Kernel) (inside : Bool), s.dev.kernelOf g = some k → s.dev.chunks = [] → s.dev.coll.active = [] → s.dev.att.cmds = [] →
      (s.dev.job (s.dev.ring g).job).state = 1 → s.dev.plainMsi (rdMsiAddr (s.dev.ring g).desc) →
      let ended : Device → Prop := fun d =>
        d.kernelOf g = none ∧ (d.job (s.dev.ring g).job).state = 4 ∧ ∀ c ∈ k.cores, d.cmd c = none
      (k.lent = true → s.dev.boundReached k = true → runs (.kernelBoundStop g inside) s ended) ∧
      (k.lent = false → s.dev.rd 0 DISPATCH_CTL_KERNEL_TICKS ≤ k.ticks → s.dev.kernelCounts k = true → runs (.kernelTicksLimit g inside) s ended)))

/-- The commands of rings and lists (R209, R211, R215, R216, R220): NOP only takes its core; SYNC_ADD adds to its object and to no other;
SET_WAIT sets its slot and no other; KBEGIN gives its kernel the bound. It rests on choices of the model: assumptions 7, 170, 185, 206.
Its clauses conclude that exec answers a next state (`runs c s P`: exec c s = .next t, and P of t) for: nop, syncAdd, setWait, kbegin. -/
def Obligations.ListCommands : Prop :=
  ∀ (s : State) (i : Issue) (w : List Nat) (core : Nat), s.dev.sound → s.dev.offers i w [] core →
    (hdOpcode w = 0 → exec (.nop i w) s = .next (s.withDev (s.dev.taken i w))) ∧
    (hdOpcode w = 0x20 → bit (wd w 1) 31 = false → s.dev.syncAddStatus (core / 64) (wd w 1 % 65536) = stDONE →
      runs (.syncAdd i w) s fun d => keepsMem s.dev d ∧ d.running core ∧
        ∀ g, d.syncVal g = if g = wd w 1 % 65536 then wrapN 64 (s.dev.syncVal g + sext 64 (wd2 w 3)) else s.dev.syncVal g) ∧
    (hdOpcode w = 0x20 → bit (wd w 1) 31 = true → ∀ port, s.dev.egress (wd w 2 % 65536) = some port → s.dev.sendStatus (wd w 2 % 65536) = stDONE →
      runs (.syncAdd i w) s fun d => keepsMem s.dev d ∧ d.running core ∧ d.disp.sync = s.dev.disp.sync ∧
        d.err.radds = s.dev.err.radds ++
          [{ die := port, partner := wd w 2 % 65536, sync := wd w 1 % 65536, seq := SMap.get 0 s.dev.err.raddSeq port, cores := [core] }]) ∧
    (∀ g : Nat, hdOpcode w = 0x21 → i.work = .ring g →
      runs (.setWait i w) s fun d => keepsMem s.dev d ∧ d.running core ∧ d.disp.coreSlots = s.dev.disp.coreSlots ∧
        ∀ k, SMap.get 0 d.disp.slots k = if k = g * 8 + wd w 1 % 8 then wd2 w 2 else SMap.get 0 s.dev.disp.slots k) ∧
    (∀ sd idx : Nat, hdOpcode w = 0x21 → i.work = .slice sd idx →
      runs (.setWait i w) s fun d => keepsMem s.dev d ∧ d.running core ∧ d.disp.slots = s.dev.disp.slots ∧
        ∀ k, SMap.get 0 d.disp.coreSlots k = if k = core * 8 + wd w 1 % 8 then wd2 w 2 else SMap.get 0 s.dev.disp.coreSlots k) ∧
    (∀ (g : Nat) (k : Kernel), hdOpcode w = 0x23 → i.work = .ring g → s.dev.kernelOf g = some k →
      runs (.kbegin i w) s fun d => keepsMem s.dev d ∧ d.running core ∧ d.kernelOf g = some { k with fcBound := wd w 1 })

/-- Models (R223): a load takes its cores' model away and shows LOADING; when the copy is done the weights stand in the core's column, MODEL
shows the model, and LOADING is clear. It rests on choices of the model: assumption 7. Its clauses conclude that exec answers a next state
(`runs c s P`: exec c s = .next t, and P of t) for: modelLoad, modelLoadDone. -/
def Obligations.ModelsLoad : Prop :=
  ∀ (s : State) (g core : Nat), s.dev.sound → core < 256 →
    let d := (s.dev.ring g).desc
    (∀ (i : Issue) (w : List Nat), s.dev.offers i w [] core → hdOpcode w = 0x22 → i.work = .ring g → rdCores d = [core] →
      runs (.modelLoad i w) s fun t =>
        t.rd (core / 64) (DISPATCH_CORE_MODEL (core % 64)) = 0 ∧ t.on (core / 64) (DISPATCH_CORE_LOADING (core % 64)) = true ∧
        t.disp.loads = s.dev.disp.loads ++ [(g, s.dev.mdId (g / 65536) (rdJob d) (rdModelVa d), [core])] ∧ keepsMem s.dev t) ∧
    (∀ id a : Nat, s.dev.disp.loads = [(g, id, [core])] → s.dev.pond.ecc = [] → s.dev.pond.link = [] →
      let die := g / 65536
      let src := s.dev.mdSrc die (rdJob d) (rdModelVa d)
      let dst := columnBase (core / 64) (core % 64) + s.dev.mdColOff die (rdJob d) (rdModelVa d)
      let s1 := ({ s.dev with disp := { s.dev.disp with loads := [] } } : Device).clr (core / 64) (DISPATCH_CORE_LOADING (core % 64))
      let c := s1.modelCopy core (rdJob d) src dst (s.dev.mdBytes die (rdJob d) (rdModelVa d))
      (c.2 = (none, stDONE) → runs (.modelLoadDone g []) s fun t =>
        t.rd (core / 64) (DISPATCH_CORE_MODEL (core % 64)) = id % 2 ^ (DISPATCH_CORE_MODEL 0).w ∧
        t.on (core / 64) (DISPATCH_CORE_LOADING (core % 64)) = false ∧ t.disp.loads = [] ∧ keepsMem c.1 t) ∧
      (s.dev.mdBytes die (rdJob d) (rdModelVa d) = 0x10000 → (s.dev.translate (core / 64) (core % 64) (rdJob d) src false).2 = .pa a →
      s.dev.copyStatus core a dst 0x10000 = stDONE →
      runs (.modelLoadDone g []) s fun t =>
        t.rd (core / 64) (DISPATCH_CORE_MODEL (core % 64)) = id % 2 ^ (DISPATCH_CORE_MODEL 0).w ∧
        t.on (core / 64) (DISPATCH_CORE_LOADING (core % 64)) = false ∧ t.disp.loads = [] ∧
        (∀ x < 0x10000, t.byte (dst + x) = s.dev.byte (a + x)) ∧ ∀ x, (x < dst ∨ dst + 0x10000 ≤ x) → t.byte x = s.dev.byte x))

/-- Jobs (R218, R219): each request answers its result on die 0; a job is admitted from FREE with a valid entry, completed from ACTIVE, ended
from ACTIVE, HELD or DRAINING and released from COMPLETED or ENDED; job 0 is refused; a DRAINING job whose rings are empty and idle is
COMPLETED and its rings are DISABLED; an ENDING job with no ring is ENDED; its client's counts move. It rests on choices of the model:
assumption 218. Its clauses conclude that exec answers a next state (`runs c s P`: exec c s = .next t, and P of t) for: jobAdmit,
jobComplete, jobEnd, jobRelease, jobDrained, jobEndingDone. -/
def Obligations.Jobs : Prop :=
  (∀ (s : State) (job client : Nat), s.dev.sound →
    let x := s.dev.job job
    let res : Device → Nat → Nat → Device := fun d op r => d.jobResult op job client r
    exec (.jobAdmit 0 job client) s = .next (s.withDev
      (if job = 0 then res s.dev 0 3 else if x.state ≠ 0 then res s.dev 0 1 else if s.dev.jobEntryOk job = false then res s.dev 0 2
       else res (((s.dev.setJob job { state := 1, client := client }).addWrap 0 (DISPATCH_CLIENT_ADMITTED_COUNT client) 1).addWrap 0
         (DISPATCH_CLIENT_ACTIVE_COUNT client) 1) 0 0)) ∧
    exec (.jobComplete 0 job client) s = .next (s.withDev
      (if job = 0 then res s.dev 1 3 else if x.state = 1 then res (s.dev.setJob job { x with state := 3 }) 1 0 else res s.dev 1 1)) ∧
    exec (.jobEnd 0 job client) s = .next (s.withDev
      (if job = 0 then res s.dev 2 3 else if x.state = 1 ∨ x.state = 2 ∨ x.state = 3 then res (s.dev.setJob job { x with state := 4 }) 2 0
       else res s.dev 2 1)) ∧
    exec (.jobRelease 0 job client) s = .next (s.withDev
      (if job = 0 then res s.dev 3 3 else if x.state = 5 ∨ x.state = 6 then res (s.dev.setJob job {}) 3 0 else res s.dev 3 1))) ∧
  (∀ (s : State) (job : Nat), s.dev.sound →
    let c := (s.dev.job job).client
    ((s.dev.job job).state = 3 → (∀ g ∈ s.dev.jobRings job, (s.dev.ring g).head = (s.dev.ring g).tail ∧ s.dev.kernelOf g = none ∧ s.dev.dmaFlight g = false) →
      runs (.jobDrained job) s fun d =>
        d.job job = { s.dev.job job with state := 5 } ∧ (∀ g ∈ s.dev.jobRings job, d.ring g = { s.dev.ring g with state := 0 }) ∧
        d.rd 0 (DISPATCH_CLIENT_COMPLETED_COUNT c) =
          (s.dev.rd 0 (DISPATCH_CLIENT_COMPLETED_COUNT c) + 1) % 2 ^ (DISPATCH_CLIENT_COMPLETED_COUNT 0).w ∧ keepsMem s.dev d ∧
        keepsFields s.dev d [(0, DISPATCH_CLIENT_COMPLETED_COUNT c), (0, DISPATCH_CLIENT_ACTIVE_COUNT c)]) ∧
    ((s.dev.job job).state = 4 → s.dev.jobRings job = [] → s.dev.xlate.faults = [] →
      runs (.jobEndingDone job) s fun d =>
        d.job job = { s.dev.job job with state := 6 } ∧
        d.rd 0 (DISPATCH_CLIENT_ENDED_COUNT c) = (s.dev.rd 0 (DISPATCH_CLIENT_ENDED_COUNT c) + 1) % 2 ^ (DISPATCH_CLIENT_ENDED_COUNT 0).w ∧
        keepsMem s.dev d ∧ keepsFields s.dev d [(0, DISPATCH_CLIENT_ENDED_COUNT c), (0, DISPATCH_CLIENT_ACTIVE_COUNT c)]))

/-- The SYNC registers (R215, R217): the 64-bit number is added to the selected object of the die, modulo 2^64, and to no other; an object
that the frame program reserves refuses it. It rests on choices of the model: assumption 161. Its clauses conclude that exec answers a
next state (`runs c s P`: exec c s = .next t, and P of t) for: syncAddLo. -/
def Obligations.SyncRegisterAdds : Prop :=
  ∀ (s : State) (die value : Nat), s.dev.sound →
    let g := die * 16384 + s.dev.rd die SYNC_SEL_INDEX
    (s.dev.syncReserved g = true → exec (.syncAddLo die value) s = .next (s.withDev (s.dev.set die SYNC_STATUS_REFUSED))) ∧
    (s.dev.syncReserved g = false → runs (.syncAddLo die value) s fun d =>
      d.regs = s.dev.regs ∧ keepsMem s.dev d ∧
      ∀ k, d.syncVal k = if k = g then
        wrapN 64 (s.dev.syncVal g + sext 64 (value % 2 ^ 32 + 2 ^ 32 * s.dev.rd die SYNC_ADD_HI_ADD)) else s.dev.syncVal k)

/-- Held requests (R230, R231): a transaction that retires leaves its class one outstanding fewer, and the first request held at its port
takes the place it frees. It rests on choices of the model: assumptions 180, 219, 220. Its clauses conclude that exec answers a next state
(`runs c s P`: exec c s = .next t, and P of t) for: heldRequestIssue. -/
def Obligations.HeldRequestsIssue : Prop :=
  ∀ (s : State) (die port cl n : Nat), s.dev.sound → s.dev.outstanding die port cl = n + 1 →
    (s.dev.regul.held = [] → runs (.heldRequestIssue die port cl) s fun d =>
      d.outstanding die port cl = n ∧ d.regul.held = [] ∧ keepsMem s.dev d ∧ keepsFields s.dev d [(die, REGULATE_AUDIT_RETIRED)]) ∧
    (∀ (r : Req) (d0 c0 off : Nat), s.dev.regul.held = [r] → r.die = die → s.dev.portOf r = port → s.dev.label r = (false, cl) → r.remote = [] →
      r.work = none → s.dev.region r.addr = .pond d0 c0 off → admits (s.dev.portQueue d0 c0) false = true → n + 1 ≤ s.dev.classLimit die port cl →
      runs (.heldRequestIssue die port cl) s fun d =>
        d.outstanding die port cl = n + 1 ∧ d.regul.held = [] ∧
        d.rd die REGULATE_AUDIT_RETIRED = (s.dev.rd die REGULATE_AUDIT_RETIRED + 1) % 2 ^ REGULATE_AUDIT_RETIRED.w ∧
        d.rd die REGULATE_AUDIT_ISSUED = (s.dev.rd die REGULATE_AUDIT_ISSUED + 1) % 2 ^ REGULATE_AUDIT_ISSUED.w)

/-- Cameras (R238, R241 to R244, R247): a frame start opens the frame of its enabled stream with the registers in force; a line of the
stream's type joins the frame and the line ring; a frame end takes the frame away, a bad one is counted, and a first good one makes a
waiting stream OK. It rests on choices of the model: assumptions 52, 53, 59, 221. Its clauses conclude that exec answers a next state
(`runs c s P`: exec c s = .next t, and P of t) for: cameraFrameStart, csi2LinePacket, cameraFrameEnd. -/
def Obligations.CameraFrames : Prop :=
  ∀ (s : State) (die port vc ecc : Nat), s.dev.sound → die < 4 → port < 6 → vc < 4 → ecc < 2 → s.dev.on die (INGEST_PORT_CFG_EN port) = true →
    let n := port * 4 + vc
    let g := die * 64 + n
    let x := s.dev.stream g
    (∀ num, x.frame = none → s.dev.on die (INGEST_STREAM_CFG_EN n) = true →
      let f : Frame := { cfg := s.dev.word die (cfgFlds n), chk := s.dev.word die (chkFlds n), rect := s.dev.word die (rectFlds n), num := num
                         time := ((s.dev.chorus.time : Int) + sext 32 (s.dev.rd die (INGEST_STREAM_ADJ_ADJ_NS n))).toNat }
      runs (.cameraFrameStart die port vc num ecc) s fun d => d.regs = s.dev.regs ∧ keepsMem s.dev d ∧
        d.stream g = { x with frame := some f }) ∧
    (∀ (f : Frame) (dt b : Nat) (crcOk : Bool) (payload : List Nat), x.frame = some f → s.dev.pond.ecc = [] → pixelBytes dt = some b →
      bits f.cfg 14 6 = dt → bit f.rect 31 = false →
      let px := unpackLine dt payload
      let bytes := px.flatMap fun v => toBytes v b
      let ring := fusionBase die + 0x500000 + n * 0x20000 + f.lines.length % linesHeld bytes.length * bytes.length
      0 < bytes.length → bytes.length ≤ 131072 →
      runs (.csi2LinePacket die port vc dt ecc crcOk payload) s fun d =>
        d.stream g = { x with frame := some { f with lines := f.lines ++ [px], bad := f.bad || !crcOk } } ∧
        (∀ i < bytes.length, d.byte (ring + i) = wd bytes i) ∧ ∀ a, (a < ring ∨ ring + bytes.length ≤ a) → d.byte a = s.dev.byte a) ∧
    (∀ f : Frame, x.frame = some f → f.bad = true → s.dev.rd die (INGEST_STREAM_STATE_STATE n) ≠ 2 →
      runs (.cameraFrameEnd die port vc ecc) s fun d => keepsMem s.dev d ∧
        d.stream g = { x with frame := none, bads := x.bads + 1, reps := 0 } ∧
        d.rd die (INGEST_STREAM_COUNT_BAD n) = min (s.dev.rd die (INGEST_STREAM_COUNT_BAD n) + 1) (2 ^ (INGEST_STREAM_COUNT_BAD 0).w - 1) ∧
        keepsFields s.dev d [(die, INGEST_STREAM_COUNT_BAD n), (die, INGEST_STREAM_STATE_RUN n)]) ∧
    (∀ f : Frame, x.frame = some f → f.bad = false → x.cnt = none → x.last = none → bit f.chk 31 = false → f.time ≤ s.dev.chorus.time + 1000000 →
      f.out = [] → bits f.cfg 8 6 = 0 → s.dev.rd die (INGEST_STREAM_STATE_STATE n) = 1 →
      runs (.cameraFrameEnd die port vc ecc) s fun d => keepsMem s.dev d ∧ d.rd die (INGEST_STREAM_STATE_STATE n) = 2 ∧
        (d.stream g).frame = none ∧ (d.stream g).cnt = some f.num ∧ (d.stream g).last = some f.time ∧ (d.stream g).acc = true ∧
        keepsFields s.dev d [(die, INGEST_STREAM_STATE_STATE n), (die, INGEST_STREAM_STATE_RUN n), (die, INGEST_STREAM_COUNT_DROPPED n)])

/-- Streams and fusion (R240, R244 to R246, R248): an IMU's edge gives the time of its next sample; a stream with no accepted frame for
STALE_TICKS is FAILED with cause 3; a write of a stream's registers waits for the sample edge, and one out of range is refused; a
contribution arrives before the merge and is dropped after it; a point outside the view is counted; CAL_SWAP is set by its bit. It rests
on choices of the model: assumptions 54, 55, 64, 222. Its clauses conclude that exec answers a next state (`runs c s P`: exec c s = .next
t, and P of t) for: imuDataReady, streamStale, streamCfgWrite, fusionContribution, project, calSwapWrite. -/
def Obligations.StreamsAndFusion : Prop :=
  ∀ (s : State) (die : Nat), s.dev.sound → die < 4 →
    (∀ n < 4, (∀ k < 16, s.dev.rd 0 (LSIO_SPI_SLOT_TRIG (n * 16 + k)) ≠ 1) →
      exec (.imuDataReady n) s = .next (s.withDev (s.dev.setStream (56 + n) { s.dev.stream (56 + n) with ready := some s.dev.chorus.time }))) ∧
    (∀ n < 64, (s.dev.rd die (INGEST_STREAM_STATE_STATE n) = 1 ∨ s.dev.rd die (INGEST_STREAM_STATE_STATE n) = 2) →
      s.dev.rd die (INGEST_STREAM_CHK_STALE_TICKS n) ≤ (s.dev.stream (die * 64 + n)).ticks →
      runs (.streamStale die n) s fun d => keepsMem s.dev d ∧
        d.rd die (INGEST_STREAM_STATE_STATE n) = 3 ∧ d.rd die (INGEST_STREAM_STATE_CAUSE n) = 3 ∧ d.rd die (INGEST_STREAM_STATE_RUN n) = 0 ∧
        keepsFields s.dev d [(die, INGEST_STREAM_STATE_STATE n), (die, INGEST_STREAM_STATE_CAUSE n), (die, INGEST_STREAM_STATE_RUN n)]) ∧
    (∀ n value : Nat, n < 64 → exec (.streamCfgWrite die n true value) s = .next (s.withDev
      (if value / 2 ^ 24 % 2 ^ 4 = 0 ∨ value / 2 ^ 16 % 2 ^ 8 = 0 ∨
          (s.dev.on die (INGEST_STREAM_CFG_EN n) = true ∧ ∃ f ∈ chkFlds n, value / 2 ^ f.lo % 2 ^ f.w ≠ s.dev.rd die f)
       then s.dev.set die INGEST_STATUS_RANGE_ERR
       else { s.dev with edgeWrites := s.dev.edgeWrites ++ (chkFlds n).map fun f => (f, die, value / 2 ^ f.lo % 2 ^ f.w) }))) ∧
    (∀ n value : Nat, n < 24 → value / 2 ^ 28 % 2 ^ 3 ≠ 0 →
      exec (.streamCfgWrite die n false value) s = .next (s.withDev (s.dev.set die INGEST_STATUS_RANGE_ERR))) ∧
    (∀ n value : Nat, n < 24 → value / 2 ^ 28 % 2 ^ 3 = 0 → value / 2 ^ 25 % 2 ^ 3 ≠ 7 → s.dev.on die (INGEST_STREAM_CFG_EN n) = false →
      exec (.streamCfgWrite die n false value) s = .next (s.withDev
        { s.dev with edgeWrites := s.dev.edgeWrites ++ (cfgFlds n).map fun f => (f, die, value / 2 ^ f.lo % 2 ^ f.w) })) ∧
    (∀ dets : List Detection, runs (.fusionContribution die dets) s fun d => keepsMem s.dev d ∧
      SMap.get none d.fusion.arrived die =
        (if s.dev.fusion.merged = true then SMap.get none s.dev.fusion.arrived die else some (SMap.get {} s.dev.fusion.parts die, dets)) ∧
      d.rd die INGEST_AUDIT_SENT = (s.dev.rd die INGEST_AUDIT_SENT + 1) % 2 ^ INGEST_AUDIT_SENT.w ∧
      d.rd 0 INGEST_AUDIT_RECEIVED = (s.dev.rd 0 INGEST_AUDIT_RECEIVED + 1) % 2 ^ INGEST_AUDIT_RECEIVED.w ∧
      keepsFields s.dev d [(die, INGEST_AUDIT_SENT), (0, INGEST_AUDIT_RECEIVED)]) ∧
    (∀ w : List Nat, projectOk w = true → wd w 1 / 2 ^ 30 % 4 = 1 → wd w 3 = 0 → s.dev.pond.ecc = [] →
      let x := s.dev.words (fusionBase die + wd w 2) 4
      let p := toBase (s.dev.calibration die (wd w 1 / 2 ^ 16 % 256)) x
      (p.all fin32 = false ∨ s.dev.cellOf (ratOf (wd p 0), ratOf (wd p 1), ratOf (wd p 2)) = none) →
      runs (.project die w) s fun d => keepsMem s.dev d ∧
        d.rd 0 FUSION_VIEW_OUT_OF_VIEW = min (s.dev.rd 0 FUSION_VIEW_OUT_OF_VIEW + 1) (2 ^ FUSION_VIEW_OUT_OF_VIEW.w - 1) ∧
        d.fusion = s.dev.fusion) ∧
    (∀ w : List Nat, projectOk w = true → wd w 1 / 2 ^ 30 % 4 = 1 → wd w 3 = 0 → s.dev.pond.ecc = [] →
      let x := s.dev.words (fusionBase 0 + wd w 2) 4
      let p := toBase (s.dev.calibration 0 (wd w 1 / 2 ^ 16 % 256)) x
      let q := (ratOf (wd p 0), ratOf (wd p 1), ratOf (wd p 2))
      ∀ c, p.all fin32 = true → s.dev.cellOf q = some c →
      runs (.project 0 w) s fun d =>
        d.byte (mapAddr c + 1) = wrapN 8 (max (-127) (min 127 (sext 8 (s.dev.byte (mapAddr c + 1)) + s.dev.rd 0 FUSION_MAP_HIT))) ∧
        d.byte (mapAddr c) % 16 = 0 ∧
        SMap.get 0xFFFF d.fusion.near (wd w 1 % 256 * 16 + sectorOf q.1 q.2.1) ≤ rangeOf q.1 q.2.1 ∧
        ∀ a, a ≠ mapAddr c → a ≠ mapAddr c + 1 → d.byte a = s.dev.byte a) ∧
    (∀ value, exec (.calSwapWrite die value) s = .next (s.withDev
      (if value / 2 ^ 30 % 2 = 1 then s.dev.set die FUSION_CTL_CAL_SWAP else s.dev)))

/-- UPDATE and its commit (R266, R268, R270, R271): an update of one entry that may be made is prepared and shows nothing of itself, one that
would overfill the world ends WORLD_FULL; the commit makes it visible under the next epoch, and writes to memory only where the world, its
hash, the edge states and the plan entries lie. It rests on choices of the model: assumptions 73, 74, 82, 223, 225, 226. Its clauses
conclude that exec answers a next state (`runs c s P`: exec c s = .next t, and P of t) for: update, updateCommit. -/
def Obligations.WorldUpdates : Prop :=
  ∀ (s : State) (die : Nat), s.dev.sound → s.dev.probe = {} → s.dev.pond.ecc = [] → die < 4 →
    (∀ (idx : Nat) (w : List Nat), hasPlanner (s.dev.sliceUnit die idx) = true → s.dev.sliceBusy die idx = false → wd w 1 % 2 ^ 10 = 0 →
      bit (wd w 1) 31 = false →
      let src := reflexBase die + wd w 2 % 2 ^ 24
      let s1 := (s.dev.rxTouch die [(src, 64)]).1
      let e := s1.updateEntry src
      let v := if e.1 = 0 then 0 else e.2.2.2
      let recs := [(e.2.1, e.2.2.1, v)]
      let s2 := s1.rxTouch die (s1.hashReads die recs)
      let dry := s2.1.worldWrites die recs
      (s.dev.rxTouch die [(src, 64)]).2 = stDONE → e.1 ≤ 1 → e.2.1 ≤ 3 → e.2.2.1 < worldCount e.2.1 →
      (die ≠ 0 ∨ s.dev.on 0 REFLEX_COLL_CTL_TRACK_EN = false ∨ e.2.1 ≠ 0 ∨ e.2.2.1 < 12288) →
      s2.2 = stDONE →
      (dry.2 = true → (s2.1.rxTouch die (s2.1.gridReads die (s2.1.changedCells dry.1 die recs))).2 = stDONE →
        runs (.update die idx w) s fun d => keepsMem s.dev d ∧ d.reply = (stDONE, 0) ∧
          ∃ p, SMap.get none d.collide.prep die = some p ∧ p.slice = idx ∧ p.records = recs ∧ p.tracks = [] ∧ p.skipped = 0 ∧
            p.next = none) ∧
      (dry.2 = false →
        runs (.update die idx w) s fun d => keepsMem s.dev d ∧ d.reply = (stWORLD_FULL, 0) ∧ d.on die REFLEX_COLL_STATUS_WORLD_FULL = true ∧
          d.collide = s.dev.collide)) ∧
    (∀ p : WorldPrep, SMap.get none s.dev.collide.prep die = some p →
      runs (.updateCommit die) s fun d =>
        d.rd die REFLEX_COLL_EPOCH_EPOCH = (s.dev.rd die REFLEX_COLL_EPOCH_EPOCH + 1) % 2 ^ 32 ∧ SMap.get none d.collide.prep die = none ∧
        (p.records = [] → (∀ x ∈ s.dev.segs die, x.result ≠ 1) → (∀ es, p.edges = some es → ∀ e ∈ es, e < 2 ^ 20) →
          ∀ a, (a < s.dev.regionSix die ∨ s.dev.regionSix die + 0x44000 ≤ a) → d.byte a = s.dev.byte a) ∧
        (p.edges = none → ∀ e < 2 ^ 20, d.edgeState die e = 0))

/-- Checks (R265, R275 to R277): CHECK_EDGES gives its edge to the lowest checker; CHECK_SEGMENTS the interval of its unchecked entry; and a
checker that ends an edge makes it and its twin FREE or BLOCKED, as the motion is clear or not. It rests on choices of the model:
assumptions 75, 76, 77, 80, 226. Its clauses conclude that exec answers a next state (`runs c s P`: exec c s = .next t, and P of t) for:
checkEdges, checkSegments, edgeCheckDone. -/
def Obligations.ChecksOfMotion : Prop :=
  ∀ (s : State) (die : Nat), s.dev.sound → s.dev.probe = {} → s.dev.pond.ecc = [] → die < 4 →
    (∀ (idx c : Nat) (w cs : List Nat), checkersOf (s.dev.sliceUnit die idx) = c :: cs → s.dev.sliceBusy die idx = false → wd w 1 % 2 ^ 16 = 0 →
      let src := reflexBase die + wd w 2 % 2 ^ 24
      let e := s.dev.readData src 4
      s.dev.accessStatus die mReflex src 4 false = stDONE → e < s.dev.edgeCount die →
      runs (.checkEdges die idx w) s fun d => keepsMem s.dev d ∧ d.reply = (stDONE, 0) ∧
        d.checkOf die idx = some
          { slice := idx, checkers := c :: cs, busy := [(c, ⟨false, e, 0⟩)], queue := [], epoch := s.dev.rd die REFLEX_COLL_EPOCH_EPOCH } ∧
        d.rd die REFLEX_COLL_AUDIT_ISSUED = (s.dev.rd die REFLEX_COLL_AUDIT_ISSUED + 1) % 2 ^ REFLEX_COLL_AUDIT_ISSUED.w) ∧
    (∀ (idx c : Nat) (w cs : List Nat) (x : Segment), checkersOf (s.dev.sliceUnit die idx) = c :: cs → s.dev.sliceBusy die idx = false → s.dev.segs die = [x] → x.result = 0 →
      x.wps = 2 →
      runs (.checkSegments die idx w) s fun d => keepsMem s.dev d ∧ d.reply = (stDONE, 0) ∧ d.segs die = [x] ∧
        d.checkOf die idx = some
          { slice := idx, checkers := c :: cs, busy := [(c, ⟨true, x.seq, 1⟩)], queue := [], epoch := s.dev.rd die REFLEX_COLL_EPOCH_EPOCH
            segs := [{ seq := x.seq, left := 1 }] } ∧
        d.rd die REFLEX_COLL_AUDIT_ISSUED = (s.dev.rd die REFLEX_COLL_AUDIT_ISSUED + 1) % 2 ^ REFLEX_COLL_AUDIT_ISSUED.w ∧
        keepsFields s.dev d [(die, REFLEX_COLL_AUDIT_ISSUED)]) ∧
    (∀ (x : CheckRun) (c e : Nat), s.dev.checkWith die c = some x → s.dev.checkOf die x.slice = some x → x.busy = [(c, ⟨false, e, 0⟩)] → x.queue = [] → e < 2 ^ 20 →
      s.dev.regionSix die + 0x40000 ≤ reflexBase die + 0x1000000 →
      let t := s.dev.rxTouch die (s.dev.edgeReads die e)
      t.2 = stDONE →
      runs (.edgeCheckDone die c) s fun d =>
        d.edgeState die e = (if t.1.edgeResult die e = 0 then 1 else 2) ∧
        d.edgeState die (t.1.edgeTwin die e) = (if t.1.edgeResult die e = 0 then 1 else 2) ∧
        d.checkOf die x.slice = none ∧
        d.rd die REFLEX_COLL_AUDIT_ENDED = (s.dev.rd die REFLEX_COLL_AUDIT_ENDED + 1) % 2 ^ REFLEX_COLL_AUDIT_ENDED.w ∧
        ∀ a, a ≠ s.dev.regionSix die + e / 4 → a ≠ s.dev.regionSix die + t.1.edgeTwin die e / 4 → d.byte a = s.dev.byte a)

/-- The planning sequencer (R278 to R281): a search ends with one of its four statuses, which LAST_STATUS shows, and its slot's search is
live; a segment with a result becomes a candidate; a PUBLISH publishes the first candidate of the epoch, or, with none and no plan, asks
the robot to stop. It rests on choices of the model: assumptions 78, 79, 81, 223, 224, 226. Its clauses conclude that exec answers a next
state (`runs c s P`: exec c s = .next t, and P of t) for: planSearch, planSegment, publish. -/
def Obligations.PlansPublished : Prop :=
  ∀ (s : State) (die idx : Nat) (w : List Nat), s.dev.sound → s.dev.probe = {} → s.dev.pond.ecc = [] → die < 4 →
    hasPlanner (s.dev.sliceUnit die idx) = true → s.dev.sliceBusy die idx = false →
    let slot := wd w 1 % 8
    let shown : List (Nat × Fld) := [(die, REFLEX_COLL_PLAN_STATUS_LAST_STATUS slot), (die, REFLEX_COLL_PLAN_STATUS_PUBLISHED slot),
      (die, REFLEX_COLL_PLAN_STATUS_STATE slot), (die, REFLEX_COLL_STATUS_STOP_REQ), (die, REFLEX_COLL_PLAN_STATUS_SUPPRESSED slot),
      (die, REFLEX_COLL_COUNT_SUPPRESSED)]
    s.dev.regionSix die + 0x44000 ≤ reflexBase die + 0x1000000 →
    (∀ limit, wd w 2 % 2 ^ 18 < s.dev.nodeCount die → wd w 3 % 2 ^ 18 < s.dev.nodeCount die →
      (s.dev.rxTouch die [(s.dev.nodeAddr die (wd w 2 % 2 ^ 18), 128), (s.dev.nodeAddr die (wd w 3 % 2 ^ 18), 128), (s.dev.planSlotAddr die slot, 1664)]).2 = stDONE →
      runs (.planSearch die idx w limit) s fun d =>
        (d.reply.1 ∈ [stDONE, stNO_PATH, stDEADLINE, stUNCORRECTABLE, stUNMAPPED, stTIMEOUT, stRETAINED] ∨
          checkersOf (s.dev.sliceUnit die idx) = [] ∧ d.reply.1 = stBAD_COMMAND) ∧ d.rd die (REFLEX_COLL_PLAN_STATUS_LAST_STATUS slot) = d.reply.1 ∧
        (d.search die slot).live = true ∧ d.rd die REFLEX_COLL_EPOCH_EPOCH = s.dev.rd die REFLEX_COLL_EPOCH_EPOCH ∧
        ((∀ n ∈ (s.dev.search die slot).dirty, n < 2 ^ 18) → (∀ e ∈ (s.dev.search die slot).queue, e.2 < 2 ^ 18) →
          ∀ a, (a < s.dev.regionSix die ∨ s.dev.regionSix die + 0x8C000 ≤ a) →
            (a < s.dev.gAddr die slot 0 ∨ s.dev.gAddr die slot 0 + 0x200000 ≤ a) → d.byte a = s.dev.byte a)) ∧
    (∀ x : Segment, (s.dev.segs die).find? (fun y => decide (y.result ≠ 0) && !y.taken) = some x →
      let k := s.dev.candidateFor die slot
      runs (.planSegment die idx w) s fun d =>
        d.plState die slot k = (if x.result = 1 then 2 else 5) ∧ d.plTag die slot k = x.tag % 256 ∧ d.plStamp die slot k = x.epoch % 2 ^ 32 ∧
        d.segs die = (s.dev.segs die).map (fun y => if y.seq = x.seq then { y with taken := true } else y) ∧
        d.rd die (REFLEX_COLL_PLAN_STATUS_LAST_STATUS slot) = stDONE ∧ d.reply = (stDONE, 0) ∧
        keepsFields s.dev d [(die, REFLEX_COLL_PLAN_STATUS_LAST_STATUS slot)] ∧
        ∀ a, (a < s.dev.planAddr die slot k ∨ s.dev.planAddr die slot k + 320 ≤ a) → a ≠ s.dev.planSlotAddr die slot + 2 → d.byte a = s.dev.byte a) ∧
    (∀ (k : Nat) (l : List Nat), s.dev.ranked die slot = k :: l → s.dev.plStamp die slot k = s.dev.rd die REFLEX_COLL_EPOCH_EPOCH →
      s.dev.plCommit die slot k = false →
      runs (.publish die idx w) s fun d =>
        d.rd die (REFLEX_COLL_PLAN_STATUS_PUBLISHED slot) = k ∧ d.published die slot = k ∧ d.rd die (REFLEX_COLL_PLAN_STATUS_STATE slot) = 1 ∧
        d.rd die (REFLEX_COLL_PLAN_STATUS_LAST_STATUS slot) = stDONE ∧ d.reply = (stDONE, 0) ∧ keepsFields s.dev d shown ∧
        ∀ a, (a < s.dev.planSlotAddr die slot ∨ s.dev.planSlotAddr die slot + 16 ≤ a) → d.byte a = s.dev.byte a) ∧
    ((∀ k ∈ s.dev.ranked die slot, s.dev.plStamp die slot k ≠ s.dev.rd die REFLEX_COLL_EPOCH_EPOCH) →
      s.dev.rd die (REFLEX_COLL_PLAN_STATUS_LAST_STATUS slot) ≠ stNO_PATH → s.dev.plState die slot 4 = 0 →
      runs (.publish die idx w) s fun d =>
        d.rd die (REFLEX_COLL_PLAN_STATUS_STATE slot) = 3 ∧ d.on die REFLEX_COLL_STATUS_STOP_REQ = true ∧
        d.rd die (REFLEX_COLL_PLAN_STATUS_PUBLISHED slot) = 7 ∧ d.reply = (stSTOPPED, 0) ∧
        d.rd die REFLEX_COLL_COUNT_SUPPRESSED =
          min (s.dev.rd die REFLEX_COLL_COUNT_SUPPRESSED + (s.dev.ranked die slot).length) (2 ^ REFLEX_COLL_COUNT_SUPPRESSED.w - 1) ∧ keepsFields s.dev d shown ∧
        ∀ a, (a < s.dev.planSlotAddr die slot ∨ s.dev.planSlotAddr die slot + 16 ≤ a) → d.byte a = s.dev.byte a)

/-- The solver engines (R290, R295, R297, R299, R301): a SOLVE from zero runs from iteration 0; an iteration that ends neither the solve nor
its ITERS goes on to the next, and one that ends its ITERS leaves the solve PARTIAL; SOLVE_CONTINUE goes on from PARTIAL, and is refused
without it; a REFRESH takes its engines, and its end leaves the new factor PENDING, or a failure. Where a report or a factor is written,
it lies apart from the program's header. It rests on choices of the model: assumptions 86, 91, 92, 94, 96, 226, 227. Its clauses conclude
that exec answers a next state (`runs c s P`: exec c s = .next t, and P of t) for: solve, solveContinue, solverIterationEnd, refresh,
refreshDone. -/
def Obligations.SolvesAndRefreshes : Prop :=
  ∀ (s : State) (die p : Nat), s.dev.sound → s.dev.probe = {} → s.dev.pond.ecc = [] → die < 4 → p < 16 →
    let h := s.dev.header die p
    let fits : Nat → Prop := fun idx => s.dev.endsByDeadline die idx (shTIter h) = true
    let apart : Nat → Nat → Prop := fun a n => a + n ≤ s.dev.progAddr die p ∨ s.dev.progAddr die p + 256 ≤ a
    let shown : List (Nat × Fld) := (List.range 2).flatMap fun e => [REFLEX_SOLVE_ENG_STATUS_BUSY e, REFLEX_SOLVE_ENG_STATUS_REFRESH e,
      REFLEX_SOLVE_ENG_STATUS_PROG e, REFLEX_SOLVE_ENG_STATUS_ITER e].map fun f => (die, f)
    (∀ (idx : Nat) (w : List Nat), wd w 1 / 2 ^ 20 % 16 = p → wd w 1 / 2 ^ 28 % 8 = 0 → shPrec h = 0 → fits idx → s.dev.sliceBusy die idx = false →
      (s.dev.rxTouch die [(s.dev.progAddr die p, 256)]).2 = stDONE →
      s.dev.on die (REFLEX_SOLVE_PROG_STATE_PENDING p) = false → s.dev.on die (REFLEX_SOLVE_PROG_STATE_PARTIAL p) = false →
      runs (.solve die idx w) s fun d => keepsMem s.dev d ∧
        (∃ z, d.solveOf die p = some z ∧ z.slice = idx ∧ z.running = true ∧ z.done = 0 ∧ z.iters = wd w 1 % 2 ^ 16 ∧ z.iterMax = wd w 2 / 2 ^ 16 % 2 ^ 16 ∧
          z.rtol = wd w 3 ∧ z.atol = wd w 4 ∧ z.x = List.replicate (shN h) 0 ∧ z.seen = s.dev.bankWords die h (wd w 1 / 2 ^ 24 % 2)) ∧
        (∀ e ∈ shUnits h, d.on die (REFLEX_SOLVE_ENG_STATUS_BUSY e) = true ∧ d.rd die (REFLEX_SOLVE_ENG_STATUS_PROG e) = p) ∧
        d.rd die REFLEX_SOLVE_AUDIT_STARTED = (s.dev.rd die REFLEX_SOLVE_AUDIT_STARTED + 1) % 2 ^ REFLEX_SOLVE_AUDIT_STARTED.w ∧
        keepsFields s.dev d ((die, REFLEX_SOLVE_AUDIT_STARTED) :: shown)) ∧
    (∀ (idx : Nat) (w : List Nat) (z : Solve), wd w 1 / 2 ^ 20 % 16 = p → s.dev.solveOf die p = some z →
      s.dev.on die (REFLEX_SOLVE_PROG_STATE_PARTIAL p) = true → s.dev.planStands die z = true → fits idx → s.dev.sliceBusy die idx = false →
      runs (.solveContinue die idx w) s fun d => keepsMem s.dev d ∧ d.on die (REFLEX_SOLVE_PROG_STATE_PARTIAL p) = false ∧
        d.solveOf die p = some { z with slice := idx, iters := wd w 1 % 2 ^ 16, cmdDone := 0, running := true } ∧
        keepsFields s.dev d ((die, REFLEX_SOLVE_PROG_STATE_PARTIAL p) :: shown)) ∧
    (∀ (idx : Nat) (w : List Nat), wd w 1 / 2 ^ 20 % 16 = p → s.dev.solveOf die p = none → s.dev.on die REFLEX_SOLVE_ERR_VALID = false →
      s.dev.sliceBusy die idx = false → s.dev.pond.failed = none →
      runs (.solveContinue die idx w) s fun d =>
        d.on die REFLEX_SOLVE_ERR_VALID = true ∧ d.rd die REFLEX_SOLVE_ERR_REASON = 0x32 ∧ d.rd die REFLEX_SOLVE_ERR_PROG = p ∧
        d.reply = (stBAD_COMMAND, 0) ∧ d.solve = s.dev.solve ∧
        ∀ a, (a < reflexBase die + shSec h 18 ∨ reflexBase die + shSec h 18 + 64 ≤ a) → d.byte a = s.dev.byte a) ∧
    (∀ z : Solve, s.dev.solveOf die p = some z → z.running = true →
      let t := s.dev.rxTouch die (s.dev.systemReads die h z.bank z.factor)
      let r := z.after (t.1.iterSystem die h z).2 (shMethod h)
      t.2 = stDONE → r.2 = false → r.1.passes r.1.rho = false → r.1.done < r.1.iterMax →
      (r.1.iters ≤ r.1.cmdDone → apart (reflexBase die + shSec h 18) 64 → runs (.solverIterationEnd die p) s fun d =>
        d.solveOf die p = some { r.1 with running := false } ∧ d.on die (REFLEX_SOLVE_PROG_STATE_PARTIAL p) = true ∧
        d.rd die (REFLEX_SOLVE_PROG_STATE_LAST_STATUS p) = stPARTIAL ∧ d.reply = (stPARTIAL, 0) ∧
        (∀ e ∈ shUnits h, d.on die (REFLEX_SOLVE_ENG_STATUS_BUSY e) = false) ∧
        ∀ a, (a < reflexBase die + shSec h 18 ∨ reflexBase die + shSec h 18 + 64 ≤ a) → d.byte a = s.dev.byte a) ∧
      (r.1.cmdDone < r.1.iters → fits r.1.slice → runs (.solverIterationEnd die p) s fun d => keepsMem s.dev d ∧
        d.solveOf die p = some { r.1 with running := true } ∧
        ∀ e ∈ shUnits h, d.rd die (REFLEX_SOLVE_ENG_STATUS_ITER e) = r.1.done % 2 ^ (REFLEX_SOLVE_ENG_STATUS_ITER 0).w)) ∧
    (∀ (idx : Nat) (w : List Nat), wd w 1 / 2 ^ 20 % 16 = p → s.dev.sliceBusy die idx = false →
      runs (.refresh die idx w) s fun d => keepsMem s.dev d ∧ d.on die (REFLEX_SOLVE_PROG_STATE_PENDING p) = false ∧
        d.rd die (REFLEX_SOLVE_PROG_STATE_REF_BANK p) = wd w 1 / 2 ^ 24 % 2 ∧
        (∃ x, d.refreshOf die p = some x ∧ x.prog = p ∧ x.slice = idx ∧ x.bank = wd w 1 / 2 ^ 24 % 2) ∧
        (∀ e ∈ shUnits h, d.on die (REFLEX_SOLVE_ENG_STATUS_REFRESH e) = true) ∧
        keepsFields s.dev d ((die, REFLEX_SOLVE_PROG_STATE_PENDING p) :: (die, REFLEX_SOLVE_PROG_STATE_REF_BANK p) ::
          (die, REFLEX_SOLVE_PROG_STATE_REF_POS p) :: shown)) ∧
    (∀ x : Refresh, s.dev.refreshOf die p = some x →
      let t := s.dev.rxTouch die (s.dev.refreshReads die p x.bank)
      let f := (t.1.buildFactor die p x.bank).2
      t.2 = stDONE →
      (f.2 = false →
        apart (reflexBase die + shSec h (if s.dev.rd die (REFLEX_SOLVE_PROG_STATE_FACTOR p) = 1 then 10 else 9)) (4 * f.1.length) →
        runs (.refreshDone die p) s fun d =>
        d.on die (REFLEX_SOLVE_PROG_STATE_PENDING p) = true ∧ d.refreshOf die p = none ∧
        d.rd die (REFLEX_SOLVE_PROG_STATE_LAST_STATUS p) = stDONE ∧ d.rd die (REFLEX_SOLVE_PROG_STATE_REF_POS p) = 0 ∧ d.reply = (stDONE, 0) ∧
        ∀ a, let b := reflexBase die + shSec h (if s.dev.rd die (REFLEX_SOLVE_PROG_STATE_FACTOR p) = 1 then 10 else 9)
          (a < b ∨ b + 4 * f.1.length ≤ a) →
          (a < reflexBase die + shSec h 18 ∨ reflexBase die + shSec h 18 + 64 ≤ a) → d.byte a = s.dev.byte a) ∧
      (f.2 = true → runs (.refreshDone die p) s fun d =>
        d.rd die (REFLEX_SOLVE_PROG_STATE_PENDING p) = s.dev.rd die (REFLEX_SOLVE_PROG_STATE_PENDING p) ∧ d.refreshOf die p = none ∧
        d.rd die (REFLEX_SOLVE_PROG_STATE_LAST_STATUS p) = stFACTOR_FAIL ∧ d.rd die REFLEX_SOLVE_COUNT_FACTOR_FAIL =
          min (s.dev.rd die REFLEX_SOLVE_COUNT_FACTOR_FAIL + 1) (2 ^ REFLEX_SOLVE_COUNT_FACTOR_FAIL.w - 1) ∧
        ∀ a, (a < reflexBase die + shSec h 18 ∨ reflexBase die + shSec h 18 + 64 ≤ a) → d.byte a = s.dev.byte a))

/-- The control engines between their edges (R319, R320, R325 to R328): a slot change waits for the edge, and one of a TAIL slot is refused; a
load that passes its checks waits with its image; the test generator and the capture unit are armed, refused and ended; and the update
window gives the one due PID slot its next integrator state. It rests on choices of the model: assumptions 99, 101, 107. Its clauses
conclude that exec answers a next state (`runs c s P`: exec c s = .next t, and P of t) for: slotEnable, slotDisable, slotLoad,
testGeneratorStart, testGeneratorEnd, captureStart, captureDone, controlUpdateWindow. -/
def Obligations.ControlCommands : Prop :=
  ∀ (s : State) (die : Nat), s.dev.sound → s.dev.pond.ecc = [] → die < 4 → s.dev.isHalted (unitTarget die 2) = false →
    (∀ (w : List Nat) (on : Bool), let n := wd w 1 % 128
      reservedSet w 0x8000007F 0 = false →
      (slTail (s.dev.descriptor die n) = false → runs (if on then .slotEnable die w else .slotDisable die w) s fun d =>
        d.slotPend die = s.dev.slotPend die ++ [.enable n on] ∧ d.reply = (stDONE, 0) ∧ d.regs = s.dev.regs ∧ keepsMem s.dev d) ∧
      (slTail (s.dev.descriptor die n) = true → s.dev.on die REFLEX_CTRL_ERR_VALID = false →
        runs (if on then .slotEnable die w else .slotDisable die w) s fun d =>
          d.ctrl = s.dev.ctrl ∧ d.reply = (stBAD_COMMAND, 0) ∧ d.on die REFLEX_CTRL_ERR_VALID = true ∧ d.rd die REFLEX_CTRL_ERR_REASON = 0x41 ∧
          d.rd die REFLEX_CTRL_ERR_SLOT = n ∧ keepsMem s.dev d)) ∧
    (∀ (idx : Nat) (w : List Nat), let n := wd w 1 % 128
      let src := wd w 2 % 2 ^ 24
      let im := toBytes (s.dev.readData (reflexBase die + src) 824) 824
      let x := s.dev.descriptor die n
      reservedSet w 0xFF 0xFFFFFF = false → slTail x = false → src % 64 = 0 → src + 824 ≤ 0x1000000 →
      (∀ i < 824, (i < 8 ∨ (28 ≤ i ∧ i < 32) ∨ (38 ≤ i ∧ i < 64)) → wd im i = wd x i) → (∀ i < 5, s.dev.sourceBad die (slSrc im i) = false) →
      runs (.slotLoad die idx w) s fun d =>
        d.slotPend die = s.dev.slotPend die ++ [.load n (decide (wd w 1 / 128 % 2 = 1)) im] ∧ d.reply = (stDONE, 0) ∧ d.regs = s.dev.regs ∧
        keepsMem s.dev d) ∧
    (∀ value : Nat, let n := value % 128
      let point := value / 2 ^ 29 % 4
      let fields : List (Nat × Fld) := [REFLEX_CTRL_TEST_CFG_EN, REFLEX_CTRL_TEST_CFG_POINT, REFLEX_CTRL_TEST_CFG_WAVE, REFLEX_CTRL_TEST_CFG_HOLD_M1,
        REFLEX_CTRL_TEST_CFG_SLOT, REFLEX_CTRL_STATUS_TEST_ACTIVE].map fun f => (die, f)
      (value / 2 ^ 31 % 2 = 1 → (point = 3 ∨ slTail (s.dev.descriptor die n) = true) →
        exec (.testGeneratorStart die value) s = .next (s.withDev (s.dev.set die REFLEX_CTRL_STATUS_RANGE_ERR))) ∧
      (value / 2 ^ 31 % 2 = 1 → point < 2 → slTail (s.dev.descriptor die n) = false → runs (.testGeneratorStart die value) s fun d =>
        d.testRun die = { s.dev.testRun die with armed := true, on := false, k := 0, phase := 0, lfsr := 0x7FFF } ∧
        d.on die REFLEX_CTRL_TEST_CFG_EN = true ∧ d.rd die REFLEX_CTRL_TEST_CFG_POINT = point ∧ d.rd die REFLEX_CTRL_TEST_CFG_SLOT = n ∧
        keepsFields s.dev d fields ∧ keepsMem s.dev d) ∧
      (value / 2 ^ 31 % 2 = 0 → runs (.testGeneratorStart die value) s fun d =>
        (d.testRun die).armed = false ∧ (d.testRun die).on = false ∧ d.on die REFLEX_CTRL_TEST_CFG_EN = false ∧
        d.on die REFLEX_CTRL_STATUS_TEST_ACTIVE = false ∧ keepsFields s.dev d fields ∧ keepsMem s.dev d)) ∧
    ((s.dev.testRun die).on = true → s.dev.rd die REFLEX_CTRL_TEST_LEN_LEN_M1 < (s.dev.testRun die).k →
      runs (.testGeneratorEnd die) s fun d =>
        d.testRun die = { s.dev.testRun die with on := false } ∧ d.on die REFLEX_CTRL_TEST_CFG_EN = false ∧
        d.on die REFLEX_CTRL_STATUS_TEST_ACTIVE = false ∧
        keepsFields s.dev d [(die, REFLEX_CTRL_TEST_CFG_EN), (die, REFLEX_CTRL_STATUS_TEST_ACTIVE)] ∧ keepsMem s.dev d) ∧
    (∀ value : Nat, value / 2 ^ 31 % 2 = 1 →
      (s.dev.on die REFLEX_CTRL_CAP_STATUS_BUSY = true →
        exec (.captureStart die value) s = .next (s.withDev (s.dev.set die REFLEX_CTRL_STATUS_RANGE_ERR))) ∧
      (s.dev.on die REFLEX_CTRL_CAP_STATUS_BUSY = false → runs (.captureStart die value) s fun d =>
        d.on die REFLEX_CTRL_CAP_STATUS_BUSY = true ∧ d.rd die REFLEX_CTRL_CAP_STATUS_COUNT = 0 ∧
        d.rd die REFLEX_CTRL_CAP_CFG_LEN_M1 = value % 2 ^ 14 ∧ d.testRun die = { s.dev.testRun die with capOn := true, capK := 0 } ∧
        keepsMem s.dev d ∧ keepsFields s.dev d ([REFLEX_CTRL_CAP_CFG_SIG0, REFLEX_CTRL_CAP_CFG_SIG1, REFLEX_CTRL_CAP_CFG_SIG2, REFLEX_CTRL_CAP_CFG_SIG3,
          REFLEX_CTRL_CAP_CFG_LEN_M1, REFLEX_CTRL_CAP_STATUS_BUSY, REFLEX_CTRL_CAP_STATUS_COUNT].map fun f => (die, f)))) ∧
    (s.dev.on die REFLEX_CTRL_CAP_STATUS_BUSY = true → s.dev.rd die REFLEX_CTRL_CAP_CFG_LEN_M1 < s.dev.rd die REFLEX_CTRL_CAP_STATUS_COUNT →
      runs (.captureDone die) s fun d =>
        d.on die REFLEX_CTRL_CAP_STATUS_BUSY = false ∧ d.on die REFLEX_CTRL_CAP_STATUS_DONE = true ∧ (d.testRun die).capOn = false ∧
        keepsFields s.dev d [(die, REFLEX_CTRL_CAP_STATUS_BUSY), (die, REFLEX_CTRL_CAP_STATUS_DONE)] ∧ keepsMem s.dev d) ∧
    (∀ n < 128, (∀ k < 128, (s.dev.loop die k).due = decide (k = n)) → let x := s.dev.descriptor die n
      slLaw x = 1 → s.dev.descOf die n + 1024 ≤ reflexBase die + 0x1000000 →
      let l := s.dev.loop die n
      let u0 := l.outs.getD 0 0
      let app := match s.dev.ownChannel die n x with
        | some c => if s.dev.on die (REFLEX_CTRL_CHAN_EN c) then s.dev.lastApplied die c else u0
        | none => u0
      runs (.controlUpdateWindow die) s fun d =>
        d.stWord die n 0 = sumTerms [s.dev.stWord die n 0, slTerm x 1 l.ei, slTerm x 3 (sat32 (app - u0))] ∧
        d.regs = s.dev.regs ∧ d.loop die n = { l with due := false, grp := app } ∧ (∀ k < 128, k ≠ n → d.loop die k = s.dev.loop die k) ∧
        ∀ a, (a < s.dev.descOf die n + 824 ∨ s.dev.descOf die n + 828 ≤ a) → d.byte a = s.dev.byte a)

/-- Golden frames and the safety window (R333, R334, R346, R348 to R351): a golden frame puts each stage's CRC into both islands; it is
deferred behind a slice that runs, and a second deferral is a cause; a safety window reads the outputs back, judges the watchdogs, counts
a healthy tick and sends each island's verdict; a missed kick is counted, and outputs that do not follow the switches are a cause. It
rests on choices of the model: assumptions 114, 115, 117, 120, 229. Its clauses conclude that exec answers a next state (`runs c s P`:
exec c s = .next t, and P of t) for: goldenSlotStart, safetyWindowStart. -/
def Obligations.GoldenFramesAndWindows : Prop :=
  ∀ s : State, s.dev.sound →
    let runningSlice := s.dev.chorus.slices.any fun x => x.started && decide (1 ≤ x.kind) && decide (x.kind ≤ 4)
    (s.dev.goldenTick = false → exec .goldenSlotStart s = .next s) ∧
    (s.dev.goldenTick = true → runningSlice = false → s.dev.pond.ecc = [] → runs .goldenSlotStart s fun d => keepsMem s.dev d ∧ ∀ i < 2,
      (∀ n ∈ goldNums, d.rd i (SAFETY_GOLD_GOT_CRC n) = s.dev.goldenGot (n / 8) (n % 8)) ∧ d.on i SAFETY_GOLDEN_STATUS_PENDING = false ∧
      d.rd i SAFETY_GOLDEN_STATUS_RUN = min (s.dev.rd i SAFETY_GOLDEN_STATUS_RUN + 1) (2 ^ SAFETY_GOLDEN_STATUS_RUN.w - 1) ∧
      d.island i = { s.dev.island i with golden := true }) ∧
    (s.dev.goldenTick = true → runningSlice = true → s.dev.on 0 SAFETY_GOLDEN_STATUS_PENDING = false → runs .goldenSlotStart s fun d => keepsMem s.dev d ∧
      d.safety = s.dev.safety ∧ ∀ i < 2, d.on i SAFETY_GOLDEN_STATUS_PENDING = true ∧
      d.rd i SAFETY_STATUS_CAUSES = s.dev.rd i SAFETY_STATUS_CAUSES) ∧
    (runningSlice = true → s.dev.on 0 SAFETY_GOLDEN_STATUS_PENDING = true → runs .goldenSlotStart s fun d => keepsMem s.dev d ∧
      (∀ i < 2, (s.dev.island i).stopped = false → bit (d.rd i SAFETY_STATUS_CAUSES) 5 = true) ∧
      ∀ k < 4, d.on k REFLEX_CTRL_STATUS_TAIL_ACTIVE = true) ∧
    (∀ o0 o1 : Bool, let high := (s.dev.island 0).closed && (s.dev.island 1).closed
      (∀ i < 2, (s.dev.island i).stopped = false ∧ (s.dev.island i).golden = false ∧ ∀ n < 16, s.dev.on i (SAFETY_WDG_CFG_EN n) = false) →
      (o0 = high → o1 = high → runs (.safetyWindowStart o0 o1) s fun d => keepsMem s.dev d ∧ d.safety.kicks = [] ∧ ∀ i < 2,
        d.on i SAFETY_STATUS_OUT0 = o0 ∧ d.on i SAFETY_STATUS_OUT1 = o1 ∧ d.rd i SAFETY_STATUS_CAUSES = s.dev.rd i SAFETY_STATUS_CAUSES ∧
        (d.island i).freshTicks = (if s.dev.rd i SAFETY_STATUS_MODE = 0 ∨ s.dev.rd i SAFETY_STATUS_MODE = 3 then (s.dev.island i).freshTicks + 1 else 0) ∧
        (d.island i).verdict.length = 16 ∧ wd (d.island i).verdict 1 = s.dev.rd i SAFETY_STATUS_MODE + 256 * s.dev.rd i SAFETY_STATUS_TAIL_STATE ∧
        wd (d.island i).verdict 2 = s.dev.rd i SAFETY_STATUS_CAUSES ∧
        d.rd i SAFETY_XCHK_SENT = (s.dev.rd i SAFETY_XCHK_SENT + 1) % 2 ^ SAFETY_XCHK_SENT.w) ∧
      ((o0 ≠ high ∨ o1 ≠ high) → runs (.safetyWindowStart o0 o1) s fun d => keepsMem s.dev d ∧
        (∀ i < 2, bit (d.rd i SAFETY_STATUS_CAUSES) 14 = true) ∧ ∀ k < 4, d.on k REFLEX_CTRL_STATUS_TAIL_ACTIVE = true)) ∧
    (∀ n < 16, (∀ i < 2, (s.dev.island i).stopped = false ∧ (s.dev.island i).golden = false ∧ (s.dev.island i).closed = false ∧
        ∀ k < 16, s.dev.on i (SAFETY_WDG_CFG_EN k) = decide (i = 0 ∧ k = n)) →
      s.dev.rd 0 SAFETY_STATUS_MODE = 1 → s.dev.wdgVerdict 0 n = 3 →
      SMap.get 0 (s.dev.island 0).misses n + 1 ≤ s.dev.rd 0 (SAFETY_WDG_CFG_TOL n) →
      runs (.safetyWindowStart false false) s fun d => keepsMem s.dev d ∧
        SMap.get 0 (d.island 0).misses n = SMap.get 0 (s.dev.island 0).misses n + 1 ∧ d.rd 0 (SAFETY_WDG_STATUS_LAST n) = 3 ∧
        d.rd 0 SAFETY_STATUS_CAUSES = s.dev.rd 0 SAFETY_STATUS_CAUSES)

/-- What happens to a running island (R332, R333, R335, R338, R344, R346): a lockstep mismatch stops it with its switches open; a verdict is
received, and compared; the fourth low sample in a row of the emergency stop raises its cause and opens the outputs; a Tail that stops for
too long opens them; a resume by its two keys, or by its pin, is accepted or refused; and too long a start is a cause. It rests on choices
of the model: assumptions 116, 118, 119, 229. Its clauses conclude that exec answers a next state (`runs c s P`: exec c s = .next t, and P
of t) for: lockstepMismatch, verdictRecord, verdictCompare, estopSample, tailStopTimeout, safetyResume, resumeGpioEdge, ageTimeout. -/
def Obligations.IslandEvents : Prop :=
  ∀ s : State, s.dev.sound → s.dev.probe = {} → (∀ i < 2, (s.dev.island i).stopped = false) →
    let tail : Device → Prop := fun d => ∀ k < 4, d.on k REFLEX_CTRL_STATUS_TAIL_ACTIVE = true
    (∀ i < 2, s.dev.on i SAFETY_FAULT_VALID = false → runs (.lockstepMismatch i) s fun d => keepsMem s.dev d ∧ tail d ∧
      (d.island i).stopped = true ∧ (d.island i).closed = false ∧ d.island (1 - i) = s.dev.island (1 - i) ∧
      bit (d.rd i SAFETY_STATUS_CAUSES) 0 = true ∧ d.on i SAFETY_FAULT_VALID = true ∧ d.rd i SAFETY_FAULT_CAUSE = cLOCKSTEP ∧
      d.on i SAFETY_STATUS_RECOVERABLE = false ∧ d.on i SAFETY_STATUS_OUT0 = false ∧ d.on i SAFETY_STATUS_OUT1 = false) ∧
    (∀ (i : Nat) (rec : List Nat), i < 2 → runs (.verdictRecord i rec) s fun d => keepsMem s.dev d ∧
      d.island i = { s.dev.island i with received := some rec } ∧ d.island (1 - i) = s.dev.island (1 - i) ∧
      d.rd i SAFETY_XCHK_RECEIVED = (s.dev.rd i SAFETY_XCHK_RECEIVED + 1) % 2 ^ SAFETY_XCHK_RECEIVED.w ∧
      keepsFields s.dev d [(i, SAFETY_XCHK_RECEIVED)]) ∧
    (∀ i < 2, (s.dev.island i).received = some (s.dev.island i).verdict → runs (.verdictCompare i) s fun d => keepsMem s.dev d ∧
      d.regs = s.dev.regs ∧ d.island i = { s.dev.island i with received := none }) ∧
    (∀ i < 2, ((s.dev.island i).received = none ∨ ∃ r, (s.dev.island i).received = some r ∧ wd r 1 ≠ wd (s.dev.island i).verdict 1) →
      runs (.verdictCompare i) s fun d => keepsMem s.dev d ∧ tail d ∧ bit (d.rd i SAFETY_STATUS_CAUSES) 1 = true) ∧
    (runs (.estopSample false) s fun d => keepsMem s.dev d ∧ ∀ i < 2, d.island i = { s.dev.island i with estopLow := 0 } ∧
      d.on i SAFETY_STATUS_ESTOP = false ∧ d.rd i SAFETY_STATUS_CAUSES = s.dev.rd i SAFETY_STATUS_CAUSES) ∧
    ((∀ i < 2, (s.dev.island i).estopLow < 3) → runs (.estopSample true) s fun d => keepsMem s.dev d ∧ ∀ i < 2,
      d.island i = { s.dev.island i with estopLow := (s.dev.island i).estopLow + 1 } ∧
      d.on i SAFETY_STATUS_ESTOP = true ∧ d.rd i SAFETY_STATUS_CAUSES = s.dev.rd i SAFETY_STATUS_CAUSES) ∧
    ((∀ i < 2, (s.dev.island i).estopLow = 3 ∧ s.dev.on i SAFETY_CTL_ESTOP_CAT = false) → runs (.estopSample true) s fun d =>
      keepsMem s.dev d ∧ tail d ∧ ∀ i < 2, bit (d.rd i SAFETY_STATUS_CAUSES) 9 = true ∧
      (s.dev.rd i SAFETY_STATUS_TAIL_STATE ≤ 2 → d.rd i SAFETY_STATUS_TAIL_STATE = 3 ∧ (d.island i).closed = false)) ∧
    (runs .tailStopTimeout s fun d => keepsMem s.dev d ∧ ∀ i < 2, d.rd i SAFETY_STATUS_TAIL_STATE =
        (if s.dev.rd i SAFETY_STATUS_TAIL_STATE = 1 ∧ s.dev.rd i SAFETY_CTL_STOP_TICKS ≤ (s.dev.island i).stopTicks then 3
         else s.dev.rd i SAFETY_STATUS_TAIL_STATE) ∧
      (s.dev.rd i SAFETY_STATUS_TAIL_STATE = 1 → s.dev.rd i SAFETY_CTL_STOP_TICKS ≤ (s.dev.island i).stopTicks → (d.island i).closed = false)) ∧
    (∀ die value : Nat, die ≠ 0 → exec (.safetyResume die value) s = .next s) ∧
    (∀ value : Nat, value % 65536 = 0x5A5A → runs (.safetyResume 0 value) s fun d => keepsMem s.dev d ∧ d.regs = s.dev.regs ∧
      d.island 0 = { s.dev.island 0 with keyed := true } ∧ d.island 1 = s.dev.island 1) ∧
    (∀ value : Nat, value % 65536 = 0xA5A5 → (s.dev.island 0).keyed = true → s.dev.on 0 SAFETY_CTL_RESUME_SRC = false →
      (s.dev.resumeOk = true → runs (.safetyResume 0 value) s fun d => keepsMem s.dev d ∧ d.regs = s.dev.regs ∧
        d.island 0 = { s.dev.island 0 with keyed := false, resume := true } ∧ d.island 1 = { s.dev.island 1 with resume := true }) ∧
      (s.dev.resumeOk = false → runs (.safetyResume 0 value) s fun d => keepsMem s.dev d ∧ d.on 0 SAFETY_STATUS_RANGE_ERR = true ∧
        (d.island 0).resume = (s.dev.island 0).resume ∧ keepsFields s.dev d [(0, SAFETY_STATUS_RANGE_ERR)])) ∧
    (s.dev.on 0 SAFETY_CTL_RESUME_SRC = false → exec .resumeGpioEdge s = .next s) ∧
    (s.dev.on 0 SAFETY_CTL_RESUME_SRC = true →
      (s.dev.resumeOk = true → runs .resumeGpioEdge s fun d => keepsMem s.dev d ∧ d.regs = s.dev.regs ∧
        ∀ i < 2, d.island i = { s.dev.island i with resume := true }) ∧
      (s.dev.resumeOk = false → exec .resumeGpioEdge s = .next (s.withDev (s.dev.set 0 SAFETY_STATUS_RANGE_ERR)))) ∧
    (∀ i < 2, (s.dev.rd i SAFETY_STATUS_MODE = 0 ∨ s.dev.rd i SAFETY_STATUS_MODE = 3) →
      s.dev.rd i SAFETY_AGE_CFG_START_TICKS ≤ (s.dev.island i).startTicks →
      runs .ageTimeout s fun d => keepsMem s.dev d ∧ tail d ∧ ∀ k < 2, bit (d.rd k SAFETY_STATUS_CAUSES) 3 = true)

/-- Self-test (R354, R357 to R364): the walk starts the next item that can start, on the lowest free lane, and counts a deferral where its
budget does not fit; an item that ends clean begins its restore, one with a failing row is recorded; an abort keeps the item for the next
window; a restore frees its lane; a manual item waits, runs, or is refused; and a read of FAIL_3 takes the oldest record away. It rests on
choices of the model: assumptions 122, 123, 125. Its clauses conclude that exec answers a next state (`runs c s P`: exec c s = .next t,
and P of t) for: selftestWalk, selftestItemDone, selftestGuardAbort, selftestRestoreDone, selftestManStart, selftestFailPop. -/
def Obligations.SelfTests : Prop :=
  ∀ (s : State) (die : Nat), s.dev.sound → die < 4 →
    let x := s.dev.tester die
    (∀ (w : List Nat) (p : Nat), s.dev.testStart ≤ s.dev.rc → s.dev.rc < s.dev.safetyStart → s.dev.on 0 EFT_BOOT_STATUS_READY = true →
      s.dev.rd 0 EFT_LC_STATE ≠ 5 → x.manual = none → s.dev.on die SELFTEST_CTL_SEQ_EN = true → p = s.dev.rd die SELFTEST_SEQ_POS_POS → p + 1 < 2 ^ SELFTEST_SEQ_POS_POS.w →
      x.seq[p]? = some w → s.dev.rd die SELFTEST_SEQ_LEN = p + 2 → x.seq[p + 1]? = none →
      (s.dev.cannotStart die w = 0 → ∀ lane, x.free = some lane → runs (.selftestWalk die) s fun d => keepsMem s.dev d ∧
        SMap.get none (d.tester die).lanes lane = some { item := w, pos := some p, save := true } ∧
        d.rd die SELFTEST_SEQ_POS_POS = p + 1 ∧ d.rd die SELFTEST_COUNT_DEFERRED = s.dev.rd die SELFTEST_COUNT_DEFERRED) ∧
      (4 ≤ s.dev.cannotStart die w → runs (.selftestWalk die) s fun d => keepsMem s.dev d ∧ d.tester die = { x with back := none } ∧
        d.rd die SELFTEST_COUNT_DEFERRED = min (s.dev.rd die SELFTEST_COUNT_DEFERRED + 1) (2 ^ SELFTEST_COUNT_DEFERRED.w - 1) ∧
        keepsFields s.dev d [(die, SELFTEST_COUNT_DEFERRED)])) ∧
    (∀ (lane : Nat) (l : Lane), SMap.get none x.lanes lane = some l → lane < 8 →
      (l.restore = false → tiTarget l.item < 2 → l.save = true → runs (.selftestItemDone die lane []) s fun d => keepsMem s.dev d ∧
        d.tester die = { x with lanes := SMap.put none x.lanes lane (some { l with restore := true }) } ∧
        keepsFields s.dev d [(die, SELFTEST_STATUS_LANES_BUSY), (die, SELFTEST_FAIL_STATUS_COUNT)]) ∧
      (∀ k b : Nat, l.restore = false → tiTarget l.item = 1 → tiUnit l.item < 0x48 → l.save = true → k < tiRows l.item → x.queue.length < 256 →
        l.pos ≠ none →
        runs (.selftestItemDone die lane [(k, b)]) s fun d => keepsMem s.dev d ∧
          (∃ r, (d.tester die).queue = x.queue ++ [r] ∧ wd r 0 % 256 = 3 ∧ wd r 0 / 65536 % 256 = tiUnit l.item ∧ wd r 1 = tiFirst l.item + k) ∧
          d.rd die SELFTEST_COUNT_FAILS = min (s.dev.rd die SELFTEST_COUNT_FAILS + 1) (2 ^ SELFTEST_COUNT_FAILS.w - 1)) ∧
      (∀ p, l.restore = false → l.save = true → tiTarget l.item < 2 → l.pos = some p → x.back = none → s.dev.safetyStart - (tiRows l.item + 16) ≤ s.dev.rc →
        runs (.selftestGuardAbort die lane) s fun d => keepsMem s.dev d ∧
          d.rd die SELFTEST_COUNT_ABORTED = min (s.dev.rd die SELFTEST_COUNT_ABORTED + 1) (2 ^ SELFTEST_COUNT_ABORTED.w - 1) ∧
          d.rd die SELFTEST_SEQ_POS_POS = p % 2 ^ SELFTEST_SEQ_POS_POS.w ∧
          SMap.get none (d.tester die).lanes lane = some { l with restore := true }) ∧
      (∀ p, l.restore = true → l.pos = some p → runs (.selftestRestoreDone die lane) s fun d => keepsMem s.dev d ∧
        SMap.get none (d.tester die).lanes lane = none ∧
        d.rd die SELFTEST_AUDIT_RELEASED = (s.dev.rd die SELFTEST_AUDIT_RELEASED + tiRows l.item) % 2 ^ SELFTEST_AUDIT_RELEASED.w)) ∧
    (∀ value : Nat, value / 2 ^ 31 % 2 = 1 →
      let w := (List.range 4).map fun n => s.dev.rd die (SELFTEST_MAN_ITEM_WORD n)
      ((s.dev.on die SELFTEST_STATUS_MAN_BUSY = true ∨ value % 4 = 2) →
        exec (.selftestManStart die value) s = .next (s.withDev (s.dev.set die SELFTEST_STATUS_RANGE_ERR))) ∧
      (s.dev.on die SELFTEST_STATUS_MAN_BUSY = false → value % 4 ≠ 2 → (manualState (s.dev.rd 0 EFT_LC_STATE) = false ∨ itemOk w = false) →
        runs (.selftestManStart die value) s fun d => keepsMem s.dev d ∧ d.on die SELFTEST_STATUS_REFUSED = true ∧
          d.on die SELFTEST_STATUS_MAN_BUSY = false ∧ d.selfTest = s.dev.selfTest) ∧
      (s.dev.on die SELFTEST_STATUS_MAN_BUSY = false → value % 4 = 3 → manualState (s.dev.rd 0 EFT_LC_STATE) = true → itemOk w = true →
        runs (.selftestManStart die value) s fun d => keepsMem s.dev d ∧ d.on die SELFTEST_STATUS_MAN_BUSY = true ∧
          d.tester die = { x with manual := some (w, true) }) ∧
      (s.dev.on die SELFTEST_STATUS_MAN_BUSY = false → value % 4 = 1 → manualState (s.dev.rd 0 EFT_LC_STATE) = true → itemOk w = true →
        s.dev.cannotStart die w = 0 → ∀ lane, x.free = some lane → runs (.selftestManStart die value) s fun d => keepsMem s.dev d ∧
          d.on die SELFTEST_STATUS_MAN_BUSY = true ∧ SMap.get none (d.tester die).lanes lane = some { item := w, pos := none, save := true } ∧
          (d.tester die).mode = some (s.dev.rd 0 SAFETY_STATUS_MODE) ∧ ∀ i < 2, d.rd i SAFETY_STATUS_MODE = 2)) ∧
    (∀ (r : List Nat) (q : List (List Nat)), x.queue = r :: q → runs (.selftestFailPop die) s fun d => keepsMem s.dev d ∧
      d.reply = (stDONE, wd r 3) ∧ d.tester die = { x with queue := q } ∧
      d.rd die SELFTEST_FAIL_STATUS_COUNT = q.length % 2 ^ SELFTEST_FAIL_STATUS_COUNT.w)

/-- What a link brings (R56, R99, R195, R215, R406, R407, R410, R412, R432, R435): a read or a write that an inbound window admits is
performed, and one outside every window is recorded and answered UNMAPPED with nothing done; a reply and an acknowledgement go to the DMA
engine that waits for them; a sync add adds, and its acknowledgement resolves it; a heartbeat shows the partner; and an idle flit returns
credits. It rests on choices of the model: assumptions 149, 150, 151, 153, 185, 192. Its clauses conclude that exec answers a next state
(`runs c s P`: exec c s = .next t, and P of t) for: olinerWrite, olinerRead, olinerWriteAck, olinerReadReply, olinerSyncAdd,
olinerSyncAck, heartbeatFlit, idleFlit. -/
def Obligations.FlitsArrive : Prop :=
  ∀ (s : State) (die : Nat) (h : FlitHead), s.dev.sound → s.dev.pond.ecc = [] → s.dev.pond.link = [] → die < 4 →
    let taken : Device → Prop := fun d => (d.olPort die).seqIn = h.seq
    (s.dev.flitComes die h →
      (∀ (t : TagId) (a n k col off v : Nat) (write : Bool),
        let r : Req := { die := die, master := mOliner, home := 0, addr := a, len := n, write := write, data := v, fixed := false, cls := h.cls
                         coreWords := [], work := none, remote := [h.src, t.id, t.gen, t.epoch] }
        let c : Instr := if write then .olinerWrite die h t a n v [] else .olinerRead die h t a n []
        1 ≤ n → v < 256 ^ n → s.dev.isFenced die mOliner = false →
        (s.dev.olWindow die a n write = true → s.dev.region a = .pond k col off → s.dev.accessStatus die mOliner a n write = stDONE →
          s.dev.routeUp k die = true →
          s.dev.overBudget r = false → s.dev.behindHeld r = false → admits (s.dev.portQueue k col) (s.dev.label r).1 = true →
          runs c s fun d => taken d ∧ d.reply = (stDONE, if write then 0 else s.dev.load a n) ∧
            (write = true → d.load a n = v) ∧ ∀ b, (write = false ∨ b < a ∨ a + n ≤ b) → d.byte b = s.dev.byte b) ∧
        (s.dev.olWindow die a n write = false → s.dev.serveWindow a n = false → s.dev.region a = .pond k col off →
          s.dev.on k DIE_CTL_UNMAPPED_STATUS_VALID = false →
          runs c s fun d => taken d ∧ keepsMem s.dev d ∧ d.on k DIE_CTL_UNMAPPED_STATUS_VALID = true ∧
            d.rd k DIE_CTL_UNMAPPED_STATUS_SRC_DIE = die ∧ d.rd k DIE_CTL_UNMAPPED_STATUS_MASTER = mOliner)) ∧
      (∀ (t : TagId) (r : RemoteReq) (k e entry sd idx : Nat) (x : List Nat), tagEngine t.id = some (k, e) →
        s.dev.dmaRun k e = some (some (.slice sd idx), entry, x) → 14 < x.length → dmRows x = 1 → dmDoneRows x = 0 →
        let next := dmProgress x 1 0
        (s.dev.waitingReq t 3 = some r → dmSrcRemote x = false → dmLength x ≤ dmDoneBytes x + 64 →
          runs (.olinerWriteAck die h t stDONE) s fun d => taken d ∧ keepsMem s.dev d ∧ d.oliner.reqs = s.dev.oliner.reqs.erase r ∧
            d.dmaRun k e = some (some (.slice sd idx), entry, next)) ∧
        (∀ (y : Tlb) (b n v : Nat), s.dev.waitingReq t 1 = some r → dmSrcRemote x = true → dmDoneBytes x = 0 → dmLength x = n → 1 ≤ n → n ≤ 64 → r.len = n →
          dmDst x % 65536 + n ≤ 65536 → s.dev.on 0 XLATE_CTL_EN = true → s.dev.tlbHit k (mDma + e) 0 (dmDst x) = some y → y.pin = true → y.wr = true →
          b = y.pa + (dmDst x - y.va) → s.dev.accessStatus k (mDma + e) b n true = stDONE →
          s.dev.routeUp (s.dev.homeDie (s.dev.region b)) k = true →
          runs (.olinerReadReply die h t stDONE v) s fun d => taken d ∧ d.oliner.reqs = s.dev.oliner.reqs.erase r ∧
            d.dmaRun k e = some (some (.slice sd idx), entry, next) ∧ (∀ i < n, d.byte (b + i) = v / 256 ^ i % 256) ∧
            ∀ a, (a < b ∨ b + n ≤ a) → d.byte a = s.dev.byte a)) ∧
      (∀ sync n seq : Nat, s.dev.isFenced die mOliner = false → s.dev.on die OLINER_CTL_SYNC_IN = true → s.dev.syncReserved sync = false →
        s.dev.routeUp die (sync / 16384) = true → s.dev.routeUp (sync / 16384) die = true →
        runs (.olinerSyncAdd die h sync n seq) s fun d => taken d ∧ keepsMem s.dev d ∧ SMap.get 0 d.err.raddLast die = seq ∧
          ∀ g, d.syncVal g = if g = sync then wrapN 64 (s.dev.syncVal g + sext 64 n) else s.dev.syncVal g) ∧
      (∀ (seq status : Nat) (a : RemoteAdd), (s.dev.err.radds.find? fun a => a.die = die ∧ a.partner = h.src ∧ a.seq = seq ∧ ¬ a.unresolved) = some a →
        runs (.olinerSyncAck die h seq status) s fun d => taken d ∧ keepsMem s.dev d ∧ d.err.radds = s.dev.err.radds.erase a) ∧
      (∀ (time ticks pos grant lock lastApplied : Nat) (tail : Bool), h.hops = 15 → h.src < 65536 → (tail = false ∨ s.dev.syncOpGroup = none) →
        runs (.heartbeatFlit die h time ticks pos grant tail lock lastApplied none) s fun d => taken d ∧ keepsMem s.dev d ∧
          d.rd die OLINER_STATUS_PARTNER_ID = h.src ∧ (d.olPort die).tail = tail ∧ (d.olPort die).lock = lock % 4 ∧ (d.olPort die).grant = grant ∧
          keepsFields s.dev d [(die, OLINER_STATUS_PARTNER_ID), (die, OLINER_AUDIT_RETURNED)])) ∧
    (s.dev.linkOn die = true → (s.dev.olPort die).replay = [] → (s.dev.olPort die).wait = [] →
      let p := s.dev.olPort die
      let k := creditKey h.crVc h.crCls
      let m := min h.cr (SMap.get 0 p.held k)
      runs (.idleFlit die h) s fun d => keepsMem s.dev d ∧ d.olPort die = { p with held := SMap.put 0 p.held k (SMap.get 0 p.held k - m) } ∧
        d.rd die OLINER_AUDIT_RETURNED = (s.dev.rd die OLINER_AUDIT_RETURNED + m) % 2 ^ OLINER_AUDIT_RETURNED.w ∧
        keepsFields s.dev d [(die, OLINER_AUDIT_RETURNED)])

/-- The links themselves (R408, R410, R411, R434): a flit that fails its check is counted and answered with a NAK; a NAK acknowledges up to
the last good flit; flits unacknowledged are sent again, and after the eighth time the link retrains; a retrain leaves the port UP or
DOWN; a partner that is silent for three ticks is LOST, its port's numbers start anew and its tags advance; and a bridge goes down at both
ends. It rests on choices of the model: assumptions 149, 152. Its clauses conclude that exec answers a next state (`runs c s P`: exec c s
= .next t, and P of t) for: olinerCrcFail, nak, flitAckTimeout, retrainDone, linkTrainRetry, partnerLost, bridgeDown, bridgeLinkRetry. -/
def Obligations.LinksRetryAndFail : Prop :=
  ∀ (s : State) (die : Nat), s.dev.sound → die < 4 →
    let p := s.dev.olPort die
    let st := s.dev.rd die OLINER_STATUS_STATE
    let again : List Msg := p.replay.map fun f => .flit die f.2.1 (f.2.2.take 6 ++ [f.1, p.seqIn] ++ f.2.2.drop 6)
    (2 ≤ st → exec (.olinerCrcFail die) s = .next (s.withDev
      { s.dev.addHold die OLINER_ERR_COUNT_CRC_ERR 1 with out := s.dev.out ++ [.flit die 15 [p.seqIn]] })) ∧
    (st < 2 → exec (.olinerCrcFail die) s = .next s) ∧
    (∀ (f : Nat × Nat × List Nat), s.dev.linkOn die = true → p.replay = [f] →
      runs (.nak die f.1) s fun d => d.olPort die = { p with replay := [], retries := 0 } ∧ d.regs = s.dev.regs ∧ d.out = s.dev.out ∧ keepsMem s.dev d) ∧
    (s.dev.linkOn die = true → p.replay ≠ [] → p.retries + 1 < 8 →
      let resent : Device → Prop := fun d => d.olPort die = { p with retries := p.retries + 1 } ∧ d.out = s.dev.out ++ again ∧
        d.rd die OLINER_ERR_COUNT_RETRY = min (s.dev.rd die OLINER_ERR_COUNT_RETRY + 1) (2 ^ OLINER_ERR_COUNT_RETRY.w - 1) ∧
        keepsMem s.dev d ∧ keepsFields s.dev d [(die, OLINER_ERR_COUNT_RETRY)]
      runs (.flitAckTimeout die) s resent ∧ (∀ n, (∀ f ∈ p.replay, f.1 ≠ n) → runs (.nak die n) s resent)) ∧
    (st = 2 → p.training = false → p.replay ≠ [] → 7 ≤ p.retries →
      runs (.flitAckTimeout die) s fun d => d.olPort die = { p with retries := 0, training := true } ∧ d.rd die OLINER_STATUS_STATE = 1 ∧
        d.out = s.dev.out ∧ keepsMem s.dev d) ∧
    (∀ n : Nat, p.training = true → st ≠ 3 → p.replay = [] → p.wait = [] → s.dev.err.radds = [] → s.dev.drainOf die = none → s.dev.eft.weights = none →
      (runs (.retrainDone die true n) s fun d => d.rd die OLINER_STATUS_STATE = 2 ∧ d.olPort die = { p with training := false, retries := 0 } ∧
        keepsMem s.dev d ∧ keepsFields s.dev d [(die, OLINER_STATUS_STATE)]) ∧
      runs (.retrainDone die false n) s fun d => d.rd die OLINER_STATUS_STATE = 0 ∧ d.olPort die = { p with training := false, retries := 0 } ∧
        keepsMem s.dev d ∧ keepsFields s.dev d [(die, OLINER_STATUS_STATE)]) ∧
    (s.dev.on die OLINER_CTL_EN = true → p.training = false → st = 0 ∨ st = 3 →
      runs (.linkTrainRetry die) s fun d => d.olPort die = { p with training := true } ∧ d.rd die OLINER_STATUS_STATE = (if st = 0 then 1 else 3) ∧
        keepsMem s.dev d ∧ keepsFields s.dev d [(die, OLINER_STATUS_STATE)]) ∧
    (3 ≤ p.misses → st = 1 ∨ st = 2 → s.dev.oliner.reqs = [] → s.dev.coll.active = [] → s.dev.rd 0 CHORUS_CTL_SOURCE ≠ 1 → s.dev.syncOpGroup = none →
      runs (.partnerLost die) s fun d => d.rd die OLINER_STATUS_STATE = 3 ∧ d.on die OLINER_STATUS_LOST_SEEN = true ∧
        d.olPort die = { p with seqOut := 0, seqIn := 4095, replay := [], wait := [], held := [], retries := 0, beats := 0 } ∧
        (∀ a ∈ d.err.radds, a.die = die → a.unresolved = true) ∧
        SMap.get 0 d.err.epoch (die * 256 + mOliner) = (SMap.get 0 s.dev.err.epoch (die * 256 + mOliner) + 1) % 16 ∧ keepsMem s.dev d) ∧
    (∀ col : Bool, let mate := if col then colMate die else rowMate die
      let up := if col then DIE_CTL_BRIDGE_STATUS_COL_UP else DIE_CTL_BRIDGE_STATUS_ROW_UP
      let count := if col then DIE_CTL_BRIDGE_STATUS_COL_RETRY_CNT else DIE_CTL_BRIDGE_STATUS_ROW_RETRY_CNT
      (runs (.bridgeDown die col) s fun d => d.on die up = false ∧ d.on mate up = false ∧ keepsMem s.dev d ∧
        keepsFields s.dev d [(die, up), (mate, up)] ∧
        d.err.mismatch = s.dev.err.mismatch ++ [(die, 0, if col then 0x24 else 0x20), (mate, 0, if col then 0x24 else 0x20)]) ∧
      exec (.bridgeLinkRetry die col) s = .next (s.withDev (s.dev.addHold die count 1)))

/-- PCI Express (R413 to R415, R427, R432): an inbound request that its window grants is performed, a write of the message table changes its
word and unmasking a pending vector sends it; a vector is sent, or pends while it is masked; a mailbox command goes out over a ready root
port, and its completion or its timeout ends it; and the link's state is shown. It rests on choices of the model: assumptions 19, 154,
155, 234. Its clauses conclude that exec answers a next state (`runs c s P`: exec c s = .next t, and P of t) for: pcieInboundRequest,
pcieMsixTrigger, pcieConfigRead, pcieConfigWrite, pcieMemoryRead, pcieMemoryWrite, pcieMboxCompletion, pcieCompletionTimeout,
pcieLinkStateChange. -/
def Obligations.PcieCommands : Prop :=
  ∀ (s : State) (die : Nat), s.dev.sound → s.dev.pond.ecc = [] → s.dev.pond.link = [] → die = 0 ∨ die = 2 →
    (s.dev.pcieOn die = true → s.dev.on 0 EFT_BOOT_STATUS_FAILED = false →
      (∀ (off a n k col o v tag : Nat) (write : Bool),
        let r : Req := { die := die, master := mPcie, home := 0, addr := a, len := n, write := write, data := v, fixed := false, cls := 0
                         coreWords := [], work := none, remote := [tag] }
        1 ≤ n → v < 256 ^ n → s.dev.isFenced die mPcie = false → s.dev.region a = .pond k col o → s.dev.accessStatus die mPcie a n write = stDONE →
        s.dev.routeUp k die = true →
        s.dev.overBudget r = false → s.dev.behindHeld r = false → admits (s.dev.portQueue k col) (s.dev.label r).1 = true →
        s.dev.pcieWindow die off n write = some a →
        runs (.pcieInboundRequest die 2 off n write v tag []) s fun d =>
          d.reply = (stDONE, if write then 0 else s.dev.load a n) ∧
          d.out = s.dev.out ++ (if write then [] else [.pcie die 1 [tag, 0, s.dev.load a n]]) ∧
          (write = true → d.load a n = v) ∧ ∀ b, (write = false ∨ b < a ∨ a + n ≤ b) → d.byte b = s.dev.byte b) ∧
      (∀ off n v tag : Nat, ∀ write : Bool, s.dev.pcieWindow die off n write = none →
        exec (.pcieInboundRequest die 2 off n write v tag []) s =
          .next (s.withDev (if write then s.dev else { s.dev with out := s.dev.out ++ [.pcie die 1 [tag, 1, 0]] }))) ∧
      (∀ v x tag : Nat, v < 64 → s.dev.on die PCIE_CTL_ROLE = false →
        (runs (.pcieInboundRequest die 4 (16 * v + 8) 4 true x tag []) s fun d =>
          d.msix die v = { s.dev.msix die v with data := x % 2 ^ 32 } ∧ d.regs = s.dev.regs ∧ d.out = s.dev.out ∧ keepsMem s.dev d) ∧
        ((s.dev.msix die v).pend = true → x % 2 = 0 → runs (.pcieInboundRequest die 4 (16 * v + 12) 4 true x tag []) s fun d =>
          d.msix die v = { s.dev.msix die v with mask := false, pend := false } ∧
          d.out = s.dev.out ++ [.pcie die 0 [(s.dev.msix die v).addr, (s.dev.msix die v).data]] ∧ keepsMem s.dev d)) ∧
      (∀ value : Nat, let x := s.dev.msix die (value % 64)
        runs (.pcieMsixTrigger die value) s fun d => d.regs = s.dev.regs ∧ keepsMem s.dev d ∧
          d.msix die (value % 64) = (if x.mask then { x with pend := true } else x) ∧
          d.out = s.dev.out ++ (if x.mask then [] else [.pcie die 0 [x.addr, x.data]]))) ∧
    (∀ (op : Nat) (c : Instr), (op, c) ∈ [(0, .pcieConfigRead die), (1, .pcieConfigWrite die), (2, .pcieMemoryRead die), (3, .pcieMemoryWrite die)] →
      (s.dev.on die PCIE_MBOX_CMD_BUSY = true → exec c s = .next s) ∧
      (s.dev.on die PCIE_MBOX_CMD_BUSY = false → s.dev.on die PCIE_CTL_ROLE = false → runs c s fun d =>
        d.rd die PCIE_MBOX_CMD_RESULT = 4 ∧ d.on die PCIE_MBOX_CMD_BUSY = false ∧ d.out = s.dev.out ∧ keepsMem s.dev d) ∧
      (s.dev.on die PCIE_MBOX_CMD_BUSY = false → s.dev.on die PCIE_CTL_ROLE = true → s.dev.on 0 EFT_BOOT_STATUS_READY = true → runs c s fun d =>
        d.on die PCIE_MBOX_CMD_BUSY = true ∧ d.rd die PCIE_MBOX_CMD_OP = op ∧ keepsMem s.dev d ∧
        keepsFields s.dev d [(die, PCIE_MBOX_CMD_BUSY), (die, PCIE_MBOX_CMD_OP)] ∧
        d.out = s.dev.out ++ [.pcie die 2 [op, s.dev.rd die PCIE_MBOX_ADDR_LO_ADDR + 2 ^ 32 * s.dev.rd die PCIE_MBOX_ADDR_HI_ADDR,
          if op = 1 ∨ op = 3 then s.dev.rd die PCIE_MBOX_DATA_DATA else 0]])) ∧
    (s.dev.on die PCIE_MBOX_CMD_BUSY = true →
      (∀ result x : Nat, runs (.pcieMboxCompletion die result x) s fun d =>
        d.on die PCIE_MBOX_CMD_BUSY = false ∧ d.rd die PCIE_MBOX_CMD_RESULT = min result 2 ∧ keepsMem s.dev d ∧
        d.rd die PCIE_MBOX_DATA_DATA =
          (if result = 0 ∧ SMap.get 0 s.dev.pcie.mbox die % 2 = 0 then x % 2 ^ 32 else s.dev.rd die PCIE_MBOX_DATA_DATA)) ∧
      runs (.pcieCompletionTimeout die) s fun d =>
        d.on die PCIE_MBOX_CMD_BUSY = false ∧ d.rd die PCIE_MBOX_CMD_RESULT = 3 ∧ keepsMem s.dev d ∧
        keepsFields s.dev d [(die, PCIE_MBOX_CMD_BUSY), (die, PCIE_MBOX_CMD_RESULT)]) ∧
    (∀ width speed : Nat, s.dev.drainOf die = none → width < 4 → speed < 16 →
      (runs (.pcieLinkStateChange die true width speed) s fun d => d.on die PCIE_CTL_LINK_UP = true ∧ d.rd die PCIE_CTL_WIDTH = width ∧
        d.rd die PCIE_CTL_SPEED = speed ∧ keepsMem s.dev d ∧
        keepsFields s.dev d [(die, PCIE_CTL_LINK_UP), (die, PCIE_CTL_WIDTH), (die, PCIE_CTL_SPEED)]) ∧
      runs (.pcieLinkStateChange die false width speed) s fun d => d.on die PCIE_CTL_LINK_UP = false ∧ d.rd die PCIE_CTL_WIDTH = 0 ∧
        d.rd die PCIE_CTL_SPEED = 0 ∧ keepsMem s.dev d)

/-- Ethernet (R417, R418, R427, R428): a frame with a bad check sequence is counted, one that no stream takes goes to the host receive ring
with its descriptor, or is dropped and counted where the ring is full; the transmit tail is a place of the ring; a frame is sent under the
gates, and its descriptor says so; a gate control list that fits its cycle takes effect; and the link's state is shown. It rests on
choices of the model: assumptions 156, 232, 233. Its clauses conclude that exec answers a next state (`runs c s P`: exec c s = .next t,
and P of t) for: ethFrameReceive, enetHqTxWrite, ethFrameSent, qbvCycleStart, ethLinkStateChange. -/
def Obligations.EthernetCommands : Prop :=
  ∀ (s : State) (die p : Nat), s.dev.sound → s.dev.pond.ecc = [] → s.dev.pond.link = [] → die < 4 → p < 2 →
    let may : Nat → Nat → Bool → Prop := fun a n write =>
      s.dev.accessStatus die mManage a n write = stDONE ∧ s.dev.routeUp (s.dev.homeDie (s.dev.region a)) die = true
    let n := s.dev.hqN die p
    let t := s.dev.rd die (ENET_HQ_CTL_RX_TAIL p)
    let h := s.dev.rd die (ENET_HQ_TX_TX_HEAD p)
    let silent := s.dev.rd die (ENET_HQ_MSI_LO_VALUE p) = 0 ∧ s.dev.rd die (ENET_HQ_MSI_HI_VALUE p) = 0
    (∀ (b : List Nat) (time : Nat), s.dev.ethFenced die p = false → s.dev.inStart = false →
      (∀ g, exec (.ethFrameReceive die p b false time g) s = .next (s.withDev (s.dev.addHold die (ENET_STATUS_FCS_ERR p) 1))) ∧
      (b.length < 60 ∨ 9212 < b.length →
        exec (.ethFrameReceive die p b true time none) s = .next (s.withDev (s.dev.addHold die (ENET_STATUS_DROPS p) 1))) ∧
      (s.dev.on 0 CHORUS_CTL_GPTP_EN = false → udpOf b = none → s.dev.on die (ENET_CTL_HQ_EN p) = true → 60 ≤ b.length → b.length ≤ 9212 → t < n →
        s.dev.inPondOrLp (s.dev.hqBase die p) (18464 * n) = true →
        ((t + 1) % n = s.dev.rd die (ENET_HQ_CTL_RX_HEAD p) →
          exec (.ethFrameReceive die p b true time none) s = .next (s.withDev (s.dev.addHold die (ENET_STATUS_DROPS p) 1))) ∧
        ((t + 1) % n ≠ s.dev.rd die (ENET_HQ_CTL_RX_HEAD p) → silent →
          may (s.dev.hqRxBuf die p t) b.length true → may (s.dev.hqRxDesc die p t) 16 true →
          runs (.ethFrameReceive die p b true time none) s fun d =>
            (∀ i < b.length, d.byte (s.dev.hqRxBuf die p t + i) = wd b i % 256) ∧ d.load (s.dev.hqRxDesc die p t) 2 = b.length ∧
            d.load (s.dev.hqRxDesc die p t + 8) 8 = time % 2 ^ 64 ∧ d.rd die (ENET_HQ_CTL_RX_TAIL p) = (t + 1) % n % 2 ^ 12 ∧
            ∀ a, (a < s.dev.hqRxBuf die p t ∨ s.dev.hqRxBuf die p t + b.length ≤ a) →
              (a < s.dev.hqRxDesc die p t ∨ s.dev.hqRxDesc die p t + 16 ≤ a) → d.byte a = s.dev.byte a))) ∧
    (∀ value : Nat, exec (.enetHqTxWrite die p value) s = .next (s.withDev
      (if value % 2 ^ 12 < n then s.dev.wr die (ENET_HQ_TX_TX_TAIL p) (value % 2 ^ 12) else s.dev.set die (ENET_CTL_RANGE_ERR p)))) ∧
    (s.dev.ethFenced die p = false → s.dev.on die (ENET_CTL_HQ_EN p) = true → s.dev.on die (ENET_CTL_LINK_UP p) = true →
      h ≠ s.dev.rd die (ENET_HQ_TX_TX_TAIL p) → h < n → s.dev.inPondOrLp (s.dev.hqBase die p) (18464 * n) = true →
      may (s.dev.hqTxDesc die p h) 16 false → may (s.dev.hqTxDesc die p h + 3) 1 true →
      let word := s.dev.readData (s.dev.hqTxDesc die p h) 16
      let len := word % 2 ^ 16
      word / 2 ^ 16 % 2 = 0 → 14 ≤ len → len ≤ 9212 → s.dev.gateLets die p (word / 2 ^ 17 % 8) (max len 60) = true →
      may (s.dev.hqTxBuf die p h) len false →
      runs (.ethFrameSent die p) s fun d =>
        d.out = s.dev.out ++ [.eth die p (toBytes (s.dev.readData (s.dev.hqTxBuf die p h) len) (max len 60))] ∧
        d.byte (s.dev.hqTxDesc die p h + 3) = 0x80 ∧ d.rd die (ENET_HQ_TX_TX_HEAD p) = (h + 1) % n % 2 ^ 12 ∧
        ∀ a, a ≠ s.dev.hqTxDesc die p h + 3 → d.byte a = s.dev.byte a) ∧
    (s.dev.on die (ENET_CTL_QBV_EN p) = true →
      let cyc := s.dev.rd die (ENET_QBV_CYCLE_NS p)
      let base := s.dev.rd die (ENET_QBV_BASE_LO_NS p) + 2 ^ 32 * s.dev.rd die (ENET_QBV_BASE_HI_NS p)
      let l := s.dev.gclWords die p
      base ≤ s.dev.chorus.time →
      ((l.map (· % 2 ^ 24)).sum = cyc → 0 < cyc → runs (.qbvCycleStart die p) s fun d =>
        SMap.get [] d.enet.gcl (die * 2 + p) = l ∧ SMap.get 0 d.enet.start (die * 2 + p) = s.dev.chorus.time - (s.dev.chorus.time - base) % cyc ∧
        d.regs = s.dev.regs ∧ keepsMem s.dev d) ∧
      ((l.map (· % 2 ^ 24)).sum ≠ cyc → exec (.qbvCycleStart die p) s = .next (s.withDev (s.dev.set die (ENET_CTL_RANGE_ERR p))))) ∧
    (s.dev.drainOf die = none → ∀ up : Bool, runs (.ethLinkStateChange die p up) s fun d => d.on die (ENET_CTL_LINK_UP p) = up ∧ keepsMem s.dev d ∧
      keepsFields s.dev d [(die, ENET_CTL_LINK_UP p)])

/-- Field input and output and the LP5X temperature (R80, R419, R420, R422 to R424, R429): a frame that a filter takes enters its buffer; a
transmit buffer is queued, overwritten or refused, and sent lowest first; SPI slots wait their turn, miss it, or run; I2C and UART move
their bytes through their FIFOs; pulses and conversions are kept; and a report of MR4 is shown, its HOT bit staying set. It rests on
choices of the model: assumptions 112, 113, 233. Its clauses conclude that exec answers a next state (`runs c s P`: exec c s = .next t,
and P of t) for: canFrameReceive, canTxStart, canFrameSent, canRxSnapshot, spiSlotTrigger, spiGo, spiTransactionDone, i2cStart, i2cDone,
i2cDataRead, uartDataWrite, uartDataRead, uartByteReceived, uartByteSent, pulseInputEdge, analogueConversion, mr4TemperatureReport. -/
def Obligations.FieldCommands : Prop :=
  ∀ (s : State) (n k : Nat), s.dev.sound →
    let l := s.dev.lsio
    (s.dev.on 0 (LSIO_CAN_CFG_EN n) = true → s.dev.canFenced n = false →
      (∀ fmt ext id data, exec (.canFrameReceive n true fmt ext id data) s = .next (s.withDev (s.dev.addHold 0 (LSIO_CAN_STATUS_BUS_ERR n) 1))) ∧
      (∀ (fmt f id : Nat) (ext : Bool) (data : List Nat), s.dev.canTakes n fmt data.length = true → s.dev.on 0 (LSIO_CAN_CFG_LOOP n) = false →
        s.dev.canFilter n fmt ext id = some f → runs (.canFrameReceive n false fmt ext id data) s fun d => keepsMem s.dev d ∧
          SMap.get none d.lsio.canRx (n * 64 + f) = some ⟨s.dev.chorus.time, fmt, ext, id, data⟩ ∧
          d.rd 0 (LSIO_CAN_STATUS_RX n) = min (s.dev.rd 0 (LSIO_CAN_STATUS_RX n) + 1) (2 ^ (LSIO_CAN_STATUS_RX 0).w - 1) ∧
          keepsFields s.dev d [(0, LSIO_CAN_STATUS_RX n)])) ∧
    (∀ value : Nat, value / 2 ^ 31 % 2 = 1 → let b := n * 32 + value % 32
      (s.dev.canMapped b = true → exec (.canTxStart n value) s = .next (s.withDev s.dev.lsioRange)) ∧
      (s.dev.canMapped b = false → l.canQ.contains b = false → s.dev.canFenced n = false → runs (.canTxStart n value) s fun d => keepsMem s.dev d ∧
        d.lsio = { l with canQ := l.canQ ++ [b] } ∧ d.on 0 (LSIO_CAN_TX_CTL_PENDING n) = true ∧ d.rd 0 (LSIO_CAN_TX_CTL_BUF n) = value % 32)) ∧
    ((∀ j < k, l.canQ.contains (n * 32 + j) = false) → k < 32 → l.canQ.contains (n * 32 + k) = true → s.dev.on 0 (LSIO_CAN_CFG_LISTEN n) = false →
      s.dev.on 0 (LSIO_CAN_CFG_LOOP n) = false → s.dev.canTakes n (s.dev.rd 0 (LSIO_CANTX_HDR_FMT (n * 32 + k))) (s.dev.canBytes (n * 32 + k)).length = true →
      runs (.canFrameSent n) s fun d => keepsMem s.dev d ∧ d.lsio.canQ = l.canQ.filter (· ≠ n * 32 + k) ∧
        d.out = s.dev.out ++ [.can n k (s.dev.rd 0 (LSIO_CANTX_HDR_FMT (n * 32 + k)) :: s.dev.rd 0 (LSIO_CANTX_HDR_EXT (n * 32 + k)) ::
          s.dev.rd 0 (LSIO_CANTX_HDR_ID (n * 32 + k)) :: s.dev.canBytes (n * 32 + k))]) ∧
    (∀ f : CanFrame, SMap.get none l.canRx (s.dev.rd 0 LSIO_CAN_RX_SEL_CHANNEL * 64 + s.dev.rd 0 LSIO_CAN_RX_SEL_FILTER) = some f →
      runs .canRxSnapshot s fun d => keepsMem s.dev d ∧ d.lsio = l ∧ d.rd 0 (LSIO_CAN_RX_WORD 0) = f.time % 2 ^ 32 ∧ d.reply = (stDONE, f.time % 2 ^ 32) ∧
        (f.data.length ≤ 64 → f.fmt < 4 → d.rd 0 (LSIO_CAN_RX_WORD 3) = 2 ^ 30 * f.fmt + f.data.length)) ∧
    (s.dev.on 0 (LSIO_SPI_CFG_EN n) = true → s.dev.on 0 (LSIO_SPI_SLOT_EN (n * 16 + k)) = true → k < 16 →
      (SMap.get none l.spiRun n ≠ none → (SMap.get [] l.spiQ n).contains k = false → runs (.spiSlotTrigger n k) s fun d => keepsMem s.dev d ∧
        SMap.get [] d.lsio.spiQ n = SMap.get [] l.spiQ n ++ [k] ∧ d.regs = s.dev.regs ∧ d.out = s.dev.out) ∧
      ((SMap.get [] l.spiQ n).contains k = true →
        exec (.spiSlotTrigger n k) s = .next (s.withDev (s.dev.addHold 0 (LSIO_SPI_STATUS_MISSED n) 1))) ∧
      (SMap.get none l.spiRun n = none → SMap.get [] l.spiQ n = [] → n < 8 → s.dev.rd 0 (LSIO_SPI_SLOT_TRIG (n * 16 + k)) = 3 →
        runs (.spiGo (2 ^ 31 + 256 * n + k)) s fun d => keepsMem s.dev d ∧ SMap.get none d.lsio.spiRun n = some k ∧ SMap.get [] d.lsio.spiQ n = [] ∧
          d.out = s.dev.out ++ [.field "SPI" n (k :: (List.range (s.dev.rd 0 (LSIO_SPI_SLOT_WORDS_M1 (n * 16 + k)) + 1)).map fun i =>
            ofBytes ((List.range 4).map fun j => SMap.get 0 l.spiTx ((n * 16 + k) * 64 + 4 * i + j)))])) ∧
    (∀ rx : List Nat, SMap.get none l.spiRun n = some k → k < 16 → (4 ≤ n ∨ k ≠ 0) → SMap.get [] l.spiQ n = [] →
      s.dev.rd 0 (LSIO_SPI_SLOT_WORDS_M1 (n * 16 + k)) < 16 →
      runs (.spiTransactionDone n rx) s fun d => keepsMem s.dev d ∧ d.regs = s.dev.regs ∧ SMap.get none d.lsio.spiRun n = none ∧
        ∀ i < 4 * (s.dev.rd 0 (LSIO_SPI_SLOT_WORDS_M1 (n * 16 + k)) + 1), SMap.get 0 d.lsio.spiRx ((n * 16 + k) * 64 + i) = wd rx i % 256) ∧
    (∀ value : Nat, value / 2 ^ 30 % 2 = 1 →
      (s.dev.on 0 (LSIO_I2C_CMD_BUSY n) = true → exec (.i2cStart n value) s = .next (s.withDev s.dev.lsioRange)) ∧
      (s.dev.on 0 (LSIO_I2C_CMD_BUSY n) = false → s.dev.on 0 (LSIO_I2C_CFG_EN n) = true → runs (.i2cStart n value) s fun d => keepsMem s.dev d ∧
        d.on 0 (LSIO_I2C_CMD_BUSY n) = true ∧ d.rd 0 (LSIO_I2C_CMD_ADDR n) = value % 1024 ∧ d.rd 0 (LSIO_I2C_CMD_LEN_M1 n) = value / 2 ^ 16 % 32 ∧ d.lsio = l)) ∧
    (∀ (result : Nat) (bytes : List Nat), s.dev.on 0 (LSIO_I2C_CMD_BUSY n) = true → runs (.i2cDone n result bytes) s fun d => keepsMem s.dev d ∧
      d.on 0 (LSIO_I2C_CMD_BUSY n) = false ∧ d.rd 0 (LSIO_I2C_CMD_RESULT n) = result % 2 ^ (LSIO_I2C_CMD_RESULT 0).w ∧
      (let len := s.dev.rd 0 (LSIO_I2C_CMD_LEN_M1 n) + 1
       if s.dev.on 0 (LSIO_I2C_CMD_READ n) = true then
        SMap.get [] d.lsio.i2cRx n = (SMap.get [] l.i2cRx n ++ (bytes.take len).map (· % 256)).take 32 ∧ d.lsio.i2cTx = l.i2cTx
       else SMap.get [] d.lsio.i2cTx n = (SMap.get [] l.i2cTx n).drop len ∧ d.lsio.i2cRx = l.i2cRx)) ∧
    (∀ (b : Nat) (q : List Nat), SMap.get [] l.i2cRx n = b :: q → runs (.i2cDataRead n) s fun d => keepsMem s.dev d ∧ d.regs = s.dev.regs ∧
      d.reply = (stDONE, 256 + b) ∧ SMap.get [] d.lsio.i2cRx n = q) ∧
    (∀ value : Nat, (64 ≤ (SMap.get [] l.uartTx n).length → exec (.uartDataWrite n value) s = .next (s.withDev s.dev.lsioRange)) ∧
      ((SMap.get [] l.uartTx n).length < 64 → runs (.uartDataWrite n value) s fun d => keepsMem s.dev d ∧
        SMap.get [] d.lsio.uartTx n = SMap.get [] l.uartTx n ++ [value % 256] ∧ d.rd 0 (LSIO_UART_STATUS_TX_LEVEL n) = (SMap.get [] l.uartTx n).length + 1)) ∧
    (∀ (b : Nat) (q : List Nat), SMap.get [] l.uartRx n = b :: q → q.length < 64 → runs (.uartDataRead n) s fun d => keepsMem s.dev d ∧
      d.reply = (stDONE, 256 + b) ∧ SMap.get [] d.lsio.uartRx n = q ∧ d.rd 0 (LSIO_UART_STATUS_RX_LEVEL n) = q.length) ∧
    (s.dev.on 0 (LSIO_UART_CFG_EN n) = true →
      (∀ b, exec (.uartByteReceived n b true) s = .next (s.withDev (s.dev.addHold 0 (LSIO_UART_STATUS_FRAME_ERR n) 1))) ∧
      (∀ b, 64 ≤ (SMap.get [] l.uartRx n).length →
        exec (.uartByteReceived n b false) s = .next (s.withDev (s.dev.addHold 0 (LSIO_UART_STATUS_OVERRUN n) 1))) ∧
      (∀ b, (SMap.get [] l.uartRx n).length < 64 → runs (.uartByteReceived n b false) s fun d => keepsMem s.dev d ∧ SMap.get [] d.lsio.uartRx n =
        SMap.get [] l.uartRx n ++ [if s.dev.on 0 (LSIO_UART_CFG_DATA8 n) = true then b % 256 else b % 128]) ∧
      ∀ (b : Nat) (q : List Nat), SMap.get [] l.uartTx n = b :: q → runs (.uartByteSent n) s fun d => keepsMem s.dev d ∧
        SMap.get [] d.lsio.uartTx n = q ∧ d.out = s.dev.out ++ [.field "UART" n [b]]) ∧
    (∀ up both : Bool, s.dev.on 0 (LSIO_QEI_CFG_EN n) = true →
      (both = true → s.dev.on 0 (LSIO_QEI_CFG_MODE n) = false →
        exec (.pulseInputEdge n up both) s = .next (s.withDev (s.dev.addHold 0 (LSIO_QEI_CFG_QERR n) 1))) ∧
      ((both = false ∨ s.dev.on 0 (LSIO_QEI_CFG_MODE n) = true) → runs (.pulseInputEdge n up both) s fun d => keepsMem s.dev d ∧ d.regs = s.dev.regs ∧
        SMap.get 0 d.lsio.pulse n = (SMap.get 0 l.pulse n + (if up = true then 1 else 2 ^ 32 - 1)) % 2 ^ 32)) ∧
    (∀ code : Nat, runs (.analogueConversion n code) s fun d => keepsMem s.dev d ∧ d.regs = s.dev.regs ∧
      SMap.get [] d.lsio.conv n = (code % 16384 :: SMap.get [] l.conv n).take 256) ∧
    (∀ (die rate : Nat) (hot : Bool), runs (.mr4TemperatureReport die rate hot) s fun d => keepsMem s.dev d ∧
      d.rd die LP5X_TEMP_REFRESH_RATE = rate % 2 ^ LP5X_TEMP_REFRESH_RATE.w ∧ d.on die LP5X_TEMP_HOT = (hot || s.dev.on die LP5X_TEMP_HOT) ∧
      keepsFields s.dev d [(die, LP5X_TEMP_REFRESH_RATE), (die, LP5X_TEMP_HOT)])

/-- Power and temperature (R366, R373, R375, R377 to R379, R384, R387, R447): a cap in range waits for the next sample edge and any other is
refused; an estimate adds its window; calibration moves each enabled rail's gain an eighth of the way to the measured power, within its
clamp, and counts a rail it cannot read; a conversion shows the hottest sensor, and the second reading of one sensor at 115 °C trips every
die; ageing is measured once a day, and a re-plan only raises a voltage; and a host core's FREQ is set from 0 to 4, but never to 0 for H0
of die 0. It rests on choices of the model: assumptions 127, 129, 130, 230. Its clauses conclude that exec answers a next state (`runs c s
P`: exec c s = .next t, and P of t) for: baskCapWrite, powerEstimate, calibration, tempConversion, ageingMeasure, hostHartCtlWrite. -/
def Obligations.PowerCommands : Prop :=
  ∀ s : State, s.dev.sound →
    (∀ (die v : Nat) (atEdge : Bool), (die ≠ 0 → exec (.baskCapWrite die v atEdge) s = .next s) ∧
      (200 ≤ v % 2048 → v % 2048 ≤ 1600 → exec (.baskCapWrite 0 v atEdge) s =
        .next (s.withDev { s.dev with bask := { s.dev.bask with
          cap := if atEdge then { s.dev.bask.cap with late := some (v % 2048) } else { s.dev.bask.cap with now := some (v % 2048) } } })) ∧
      ((v % 2048 < 200 ∨ 1600 < v % 2048) → exec (.baskCapWrite 0 v atEdge) s = .next (s.withDev (s.dev.set 0 BASK_STATUS_RANGE_ERR)))) ∧
    (∀ terms : List (List (Nat × Nat)),
      let power := fun d => ((terms.getD d []).map fun e => e.2 * s.dev.rd 0 (BASK_RAIL_GAIN (e.1 % 8))).foldl (· + ·) 0
      let all := power 0 + power 1 + power 2 + power 3
      runs (.powerEstimate terms) s fun d => keepsMem s.dev d ∧
        d.bask.windows = s.dev.bask.windows ++ [(s.dev.rc, [all, power 0, power 1, power 2, power 3])] ∧ d.bask.railWins = s.dev.bask.railWins + 1 ∧
        d.rd 0 BASK_POWER_NOW_DW = toDw all % 2 ^ BASK_POWER_NOW_DW.w ∧
        (∀ k < 4, d.rd k BASK_DIE_POWER_NOW_DW = toDw (power k) % 2 ^ BASK_DIE_POWER_NOW_DW.w) ∧
        keepsFields s.dev d ((0, BASK_POWER_NOW_DW) :: (List.range 4).map fun k => (k, BASK_DIE_POWER_NOW_DW))) ∧
    (∀ reads : List (Nat × Option (Nat × Nat)), s.dev.calOn = false → runs (.calibration reads) s fun d => keepsMem s.dev d ∧
      d.regs = s.dev.regs ∧ d.bask.railSum = [] ∧ d.bask.railWins = 0) ∧
    (∀ k < 8, s.dev.calOn = true → (∀ n < 8, s.dev.on 0 (BASK_RAIL_EN n) = decide (n = k)) →
      (runs (.calibration []) s fun d => keepsMem s.dev d ∧ d.bask.railSum = [] ∧ d.bask.railWins = 0 ∧
        d.rd 0 BASK_COUNT_CAL_SKIP = min (s.dev.rd 0 BASK_COUNT_CAL_SKIP + 1) (2 ^ BASK_COUNT_CAL_SKIP.w - 1) ∧
        keepsFields s.dev d [(0, BASK_COUNT_CAL_SKIP)]) ∧
      ∀ mV mA : Nat, SMap.get 0 s.dev.bask.railSum k ≠ 0 → runs (.calibration [(k, some (mV, mA))]) s fun d => keepsMem s.dev d ∧
        d.bask.railSum = [] ∧ d.bask.railWins = 0 ∧
        (let est := SMap.get 0 s.dev.bask.railSum k * 1000
         let num := s.dev.rd 0 (BASK_RAIL_GAIN k) * (7 * est + mV * mA * 4096 * s.dev.bask.railWins)
         (3277 * (8 * est) ≤ num → num + 8 * est ≤ 5120 * (8 * est) →
            num < (d.rd 0 (BASK_RAIL_GAIN k) + 1) * (8 * est) ∧ d.rd 0 (BASK_RAIL_GAIN k) * (8 * est) < num + 8 * est ∧
            d.rd 0 BASK_COUNT_CAL_CLAMP = s.dev.rd 0 BASK_COUNT_CAL_CLAMP) ∧
         (5121 * (8 * est) ≤ num → d.rd 0 (BASK_RAIL_GAIN k) = 5120 ∧
            d.rd 0 BASK_COUNT_CAL_CLAMP = min (s.dev.rd 0 BASK_COUNT_CAL_CLAMP + 1) (2 ^ BASK_COUNT_CAL_CLAMP.w - 1)) ∧
         (num + 8 * est ≤ 3277 * (8 * est) → d.rd 0 (BASK_RAIL_GAIN k) = 3277 ∧
            d.rd 0 BASK_COUNT_CAL_CLAMP = min (s.dev.rd 0 BASK_COUNT_CAL_CLAMP + 1) (2 ^ BASK_COUNT_CAL_CLAMP.w - 1)))) ∧
    (∀ (die c : Nat) (codes : List Nat), die < 4 → c < 460 → (∃ k < 112, wd codes k = c) →
      (∀ k < 112, wd codes k ≤ c ∧ SMap.get {} s.dev.bask.sensors (die * 128 + k) = {}) →
      runs (.tempConversion die codes) s fun d => keepsMem s.dev d ∧
        (∀ k < 112, SMap.get {} d.bask.sensors (die * 128 + k) = { code := some (wd codes k), same := 1, moved := false, excl := false }) ∧
        d.rd die BASK_TEMP_MAX_TEMP = c ∧ wd codes (d.rd die BASK_TEMP_MAX_SENSOR) = c ∧ (∀ k < d.rd die BASK_TEMP_MAX_SENSOR, wd codes k < c) ∧
        d.on die BASK_STATUS_SENSOR_FAIL = s.dev.on die BASK_STATUS_SENSOR_FAIL ∧ d.on die BASK_STATUS_COLD = false ∧
        d.on 0 BASK_STATUS_TRIP = s.dev.on 0 BASK_STATUS_TRIP ∧ ∀ k < 4, d.rd k BASK_STATUS_GRANT = s.dev.rd k BASK_STATUS_GRANT) ∧
    (∀ (die k : Nat) (codes : List Nat), die < 4 → k < 112 → 460 ≤ wd codes k → wd codes k ≤ 600 →
      (∃ c x, SMap.get {} s.dev.bask.sensors (die * 128 + k) = x ∧ x.code = some c ∧ x.excl = false ∧ x.same = 1 ∧ 460 ≤ c ∧ c ≤ 600) →
      s.dev.on 0 BASK_STATUS_TRIP = false → (∀ i < 2, (s.dev.island i).stopped = false) →
      runs (.tempConversion die codes) s fun d => keepsMem s.dev d ∧ d.on 0 BASK_STATUS_TRIP = true ∧
        (∀ i < 2, bit (d.rd i SAFETY_STATUS_CAUSES) 10 = true) ∧ ∀ j < 4, d.rd j BASK_STATUS_GRANT = 0 ∧ (d.baskDie j).volt = 550 ∧
          d.rd j POND_STATUS_MODE = (if s.dev.rd j POND_STATUS_MODE = 0 then 1 else s.dev.rd j POND_STATUS_MODE)) ∧
    (∀ dies : List (Nat × List Nat), let day := 86400000000000
      ((s.dev.chorus.time - s.dev.bask.readyAt) / day ≤ (s.dev.bask.aged - s.dev.bask.readyAt) / day → exec (.ageingMeasure dies) s = .next s) ∧
      ((s.dev.bask.aged - s.dev.bask.readyAt) / day < (s.dev.chorus.time - s.dev.bask.readyAt) / day → (∀ m ∈ dies, m.1 ≤ 255 ∧ wd m.2 6 ≤ 920) →
        runs (.ageingMeasure dies) s fun d => keepsMem s.dev d ∧ d.bask.aged = s.dev.chorus.time ∧ ∀ k < 4,
          d.rd k BASK_AGE_COUNT = min (s.dev.rd k BASK_AGE_COUNT + 1) (2 ^ BASK_AGE_COUNT.w - 1) ∧ d.rd k BASK_AGE_HOURS = 0 ∧
          d.rd k BASK_AGE_SLACK_PS = (dies.getD k (0, [])).1 ∧
          (∀ n < 8, 1 ≤ n → SMap.get 0 d.bask.volts (k * 8 + n) =
            max (max (opVmin n) (min (wd (dies.getD k (0, [])).2 (n - 1)) (opVmax n))) (SMap.get 0 s.dev.bask.volts (k * 8 + n))) ∧
          d.rd 0 BASK_STATUS_OP7_RETIRED = s.dev.rd 0 BASK_STATUS_OP7_RETIRED)) ∧
    (∀ die n v : Nat, let refused := 5 ≤ v % 8 ∨ (v % 8 = 0 ∧ die = 0 ∧ n = 0)
      (refused → exec (.hostHartCtlWrite die n v) s = .next (s.withDev (s.dev.set die HOST_STATUS_RANGE_ERR))) ∧
      (¬ refused → exec (.hostHartCtlWrite die n v) s = .next (s.withDev (s.dev.wr die (HOST_HART_CTL_FREQ n) (v % 8)))))

/-- Units that are reset, disabled and enabled alone (R436 to R438, R441): a request while one runs, or for a unit that is not present, is
refused with RANGE_ERR; a unit that may not leave service alone, or a reset of a reserved core, ends with REFUSED; any other is fenced and
drains, a core that runs only once it has ended; a drain that ends with nothing left returns the unit after a reset, or reports it
disabled; at its bound what is left ends with FENCED and the epoch advances; and an enabled unit takes requests again. It rests on choices
of the model: assumptions 163, 164, 234, 235. Its clauses conclude that exec answers a next state (`runs c s P`: exec c s = .next t, and P
of t) for: unitReset, unitDisable, unitEnable, unitDrainEnd. -/
def Obligations.UnitsLeaveAndReturn : Prop :=
  ∀ (s : State) (die u : Nat), s.dev.sound →
    let ctl := [(die, DIE_CTL_UNIT_RESET_BUSY), (die, DIE_CTL_UNIT_RESET_STAGE), (die, DIE_CTL_UNIT_RESET_RESULT), (die, DIE_CTL_UNIT_RESET_UNIT),
      (die, DIE_CTL_UNIT_RESET_OP)]
    let refused := s.dev.on die DIE_CTL_UNIT_RESET_BUSY = true ∨ unitPresent die u = false
    let core := u < mDma
    let out : Device → Bool := fun d =>
      if u < 32 then bit (d.rd die DIE_CTL_DISABLED_LO_CORES) u
      else if u < 64 then bit (d.rd die DIE_CTL_DISABLED_HI_CORES) (u - 32) else bit (d.rd die DIE_CTL_DISABLED_DMA_ENGINES) (u - 64)
    let drains : Nat → Device → Prop := fun op d => keepsMem s.dev d ∧ keepsFields s.dev d ctl ∧ d.on die DIE_CTL_UNIT_RESET_BUSY = true ∧
      d.rd die DIE_CTL_UNIT_RESET_STAGE = 1 ∧ d.rd die DIE_CTL_UNIT_RESET_RESULT = 0 ∧ d.rd die DIE_CTL_UNIT_RESET_OP = op ∧
      d.err.drains = s.dev.err.drains ++ [{ die := die, unit := u, op := op }]
    (refused → ∀ c ∈ [Instr.unitReset die u, .unitDisable die u, .unitEnable die u],
      exec c s = .next (s.withDev (s.dev.set die DIE_CTL_ERR_CTL_RANGE_ERR))) ∧
    (¬ refused → unitAlone u = false → ∀ c ∈ [Instr.unitReset die u, .unitDisable die u, .unitEnable die u], runs c s fun d =>
      keepsMem s.dev d ∧ d.err = s.dev.err ∧ keepsFields s.dev d ctl ∧ d.rd die DIE_CTL_UNIT_RESET_RESULT = 3 ∧ d.on die DIE_CTL_UNIT_RESET_BUSY = false) ∧
    (¬ refused → core → s.dev.reservedCore (die * 64 + u) = true → runs (.unitReset die u) s fun d =>
      keepsMem s.dev d ∧ d.err = s.dev.err ∧ keepsFields s.dev d ctl ∧ d.rd die DIE_CTL_UNIT_RESET_RESULT = 3 ∧ d.on die DIE_CTL_UNIT_RESET_BUSY = false) ∧
    (¬ refused → unitAlone u = true → (core → s.dev.coreRuns die u = false) →
      ((core → s.dev.reservedCore (die * 64 + u) = false) → runs (.unitReset die u) s fun d => drains 0 d ∧ d.isFenced die u = true) ∧
      runs (.unitDisable die u) s fun d => drains 1 d ∧ d.isFenced die u = true) ∧
    (¬ refused → core → s.dev.coreRuns die u = true →
      (s.dev.reservedCore (die * 64 + u) = false → runs (.unitReset die u) s fun d => drains 0 d ∧ d.err.fenced = s.dev.err.fenced) ∧
      runs (.unitDisable die u) s fun d => drains 1 d ∧ d.err.fenced = s.dev.err.fenced) ∧
    (∀ op : Nat, s.dev.drainOf die = some { die := die, unit := u, op := op } →
      let ended : Device → Prop := fun d => keepsMem s.dev d ∧ d.drainOf die = none ∧ d.on die DIE_CTL_UNIT_RESET_BUSY = false ∧
        d.rd die DIE_CTL_UNIT_RESET_STAGE = 0
      (core → s.dev.coreRuns die u = true → exec (.unitDrainEnd die) s = .next s) ∧
      ((core → s.dev.coreRuns die u = false) → s.dev.unitBusy die u = false →
        (op = 0 → unitPort u = false → runs (.unitDrainEnd die) s fun d => ended d ∧ d.isFenced die u = false ∧ d.rd die DIE_CTL_UNIT_RESET_RESULT = 0 ∧
          (u < mHost → keepsFields s.dev d ((die, REGULATE_AUDIT_RETIRED) :: ctl) ∧ ∀ t ∈ d.xlate.tlb, ¬ (t.die = die ∧ t.unit = u)) ∧
          (mHost ≤ u → u < mHost + 4 → d.rd die (HOST_HART_CTL_FREQ (u - mHost)) = 4)) ∧
        (op = 0 → unitPort u = true → u ≠ mOliner → runs (.unitDrainEnd die) s fun d => keepsMem s.dev d ∧
          d.drainOf die = some { die := die, unit := u, op := 0, retrain := true } ∧ d.rd die DIE_CTL_UNIT_RESET_STAGE = 3 ∧
          d.err.fenced = s.dev.err.fenced ∧ (u = mPcie → d.on die PCIE_CTL_LINK_UP = false)) ∧
        (op = 1 → u < mHost → runs (.unitDrainEnd die) s fun d => ended d ∧ d.isFenced die u = false ∧ d.rd die DIE_CTL_UNIT_RESET_RESULT = 0 ∧
          out d = true ∧ d.err.disabled = (die * 256 + u) :: s.dev.err.disabled) ∧
        (op = 1 → mHost ≤ u → u ≠ mOliner → runs (.unitDrainEnd die) s fun d => ended d ∧ d.err.fenced = s.dev.err.fenced ∧
          d.err.disabled = (die * 256 + u) :: s.dev.err.disabled)) ∧
      (∀ r : Req, op = 0 → core → s.dev.coreRuns die u = false → s.dev.unitReqs die u = [r] → r.work = none → r.remote = [] →
        runs (.unitDrainEnd die) s fun d => ended d ∧ d.isFenced die u = false ∧ d.rd die DIE_CTL_UNIT_RESET_RESULT = 1 ∧ d.reply = (stFENCED, 0) ∧
          SMap.get 0 d.err.epoch (die * 256 + u) = (SMap.get 0 s.dev.err.epoch (die * 256 + u) + 1) % 16 ∧
          d.rd die DIE_CTL_ERR_COUNT_FENCED = min (s.dev.rd die DIE_CTL_ERR_COUNT_FENCED + 1) (2 ^ DIE_CTL_ERR_COUNT_FENCED.w - 1))) ∧
    (¬ refused → unitAlone u = true → s.dev.err.disabled.contains (die * 256 + u) = true → runs (.unitEnable die u) s fun d => keepsMem s.dev d ∧
      d.rd die DIE_CTL_UNIT_RESET_RESULT = 0 ∧ d.on die DIE_CTL_UNIT_RESET_BUSY = false ∧ d.isFenced die u = false ∧
      d.err.disabled = s.dev.err.disabled.filter (· ≠ die * 256 + u) ∧ (u < mHost → out d = false)) ∧
    (¬ refused → core → s.dev.coreDisabled (die * 64 + u) = true → s.dev.err.disabled.contains (die * 256 + u) = false →
      runs (.unitEnable die u) s fun d => keepsMem s.dev d ∧ d.err = s.dev.err ∧ keepsFields s.dev d ctl ∧ d.rd die DIE_CTL_UNIT_RESET_RESULT = 3)

/-- Timeouts, the error record, the audit and the host cores' interrupts (R432, R433, R439, R443, R448 to R450): a request that times out
retires with TIMEOUT, and its tag's generation advances; a mismatch of the audit's snapshot is recorded once per die and is a cause; the
oldest entry of the remote-add queue is read and removed; an error of the same cycle is recorded after a clear; failed stores are counted;
an identity written becomes pending; and a timer's interrupt follows its compare value; a SYNC_ADD that waits for a timed-out remote add
takes TIMEOUT. It rests on choices of the model: assumptions 162, 185, 236. Its clauses conclude that exec answers a next state (`runs c s
P`: exec c s = .next t, and P of t) for: requestTimeout, remoteRequestTimeout, conservationAudit, raddPop, errStatusClear, hostStoreError,
seteipnumWrite, mtimecmpReached. -/
def Obligations.ErrorsAndTimers : Prop :=
  ∀ s : State, s.dev.sound →
    let count : Device → Nat → Fld → Prop := fun d die f => d.rd die f = min (s.dev.rd die f + 1) (2 ^ f.w - 1)
    let record : Device → Nat → Nat → Nat → Nat → Bool → Bool → Prop := fun d die master a status remote write =>
      d.on die DIE_CTL_ERR_STATUS_VALID = true ∧ d.rd die DIE_CTL_ERR_STATUS_MASTER = master ∧ d.rd die DIE_CTL_ERR_STATUS_STATUS = status ∧
      d.rd die DIE_CTL_ERR_ADDR_LO_ADDR = a % 2 ^ 32 ∧ d.on die DIE_CTL_ERR_STATUS_REMOTE = remote ∧ d.on die DIE_CTL_ERR_STATUS_WRITE = write
    (∀ (r : Req) (tag : Nat), r.work = none → r.remote = [] → r.master < 256 → s.dev.on r.die DIE_CTL_ERR_STATUS_VALID = false →
      runs (.requestTimeout r tag) s fun d => keepsMem s.dev d ∧ d.reply = (stTIMEOUT, 0) ∧ count d r.die DIE_CTL_ERR_COUNT_TIMEOUTS ∧
        record d r.die r.master r.addr stTIMEOUT false r.write ∧
        (let id := (r.die * 256 + r.master) * 256 + tag
         SMap.get 0 d.err.gen id = (SMap.get 0 s.dev.err.gen id + 1) % 256) ∧
        (∀ x, s.dev.pond.waiting = [x] → sameReq x r = true → d.pond.waiting = [] ∧ d.err.mismatch = s.dev.err.mismatch ∧ d.regul = s.dev.regul) ∧
        (s.dev.pond.waiting = [] → d.pond = s.dev.pond ∧ d.err.mismatch = s.dev.err.mismatch ++ [(r.die, 7, 0x60)] ∧
          ∀ x ∈ d.err.drains, x.die = r.die → x.unit = r.master → x.lost = true)) ∧
    (∀ die id : Nat,
      (∀ a, s.dev.err.radds = [a] → a.die = die → a.seq = id → a.unresolved = false → s.dev.rd die DIE_CTL_ERR_CTL_REMOTE_TICKS ≤ a.edges →
        runs (.remoteRequestTimeout die id true) s fun d => keepsMem s.dev d ∧ d.err.radds = [{ a with unresolved := true }] ∧
          count d die DIE_CTL_ERR_COUNT_TIMEOUTS ∧
          ∀ c ∈ a.cores, (s.dev.cmd c).map (·.status) = some stDONE → (d.cmd c).map (·.status) = some stTIMEOUT) ∧
      (∀ r, s.dev.oliner.reqs = [r] → r.die = die → r.tag.id = id → s.dev.rd die DIE_CTL_ERR_CTL_REMOTE_TICKS ≤ r.edges → tagEngine id = none →
        runs (.remoteRequestTimeout die id false) s fun d => keepsMem s.dev d ∧ d.oliner.reqs = [] ∧ count d (tagDie id) DIE_CTL_ERR_COUNT_TIMEOUTS ∧
          SMap.get 0 d.err.gen id = (SMap.get 0 s.dev.err.gen id + 1) % 256)) ∧
    (s.dev.err.snap = [] → exec .conservationAudit s = .next s) ∧
    (∀ die blk off : Nat, s.dev.err.snap = [(die, blk, off)] → blk < 32 → off < 65536 → (∀ i < 2, (s.dev.island i).stopped = false) →
      runs .conservationAudit s fun d => keepsMem s.dev d ∧ d.err.snap = [] ∧ (∀ i < 2, bit (d.rd i SAFETY_STATUS_CAUSES) 8 = true) ∧
        d.on die DIE_CTL_AUDIT_ERR_VALID = true ∧ (s.dev.on die DIE_CTL_AUDIT_ERR_VALID = false →
          d.rd die DIE_CTL_AUDIT_ERR_BLOCK = blk ∧ d.rd die DIE_CTL_AUDIT_ERR_OFFSET = off)) ∧
    (∀ (die a b n : Nat) (w : Bool) (q : List (Nat × Nat × Nat × Bool)), SMap.get [] s.dev.err.raddq die = (a, b, n, w) :: q →
      runs (.raddPop die) s fun d => keepsMem s.dev d ∧ d.regs = s.dev.regs ∧ d.reply = (stDONE, 2 ^ 31 + b2n w * 2 ^ 30 + n % 65536) ∧
        SMap.get [] d.err.raddq die = q) ∧
    (∀ die value : Nat,
      (bit value 31 = true → runs (.errStatusClear die value none) s fun d => keepsMem s.dev d ∧ d.on die DIE_CTL_ERR_STATUS_VALID = false ∧
        d.on die DIE_CTL_ERR_STATUS_OVERFLOW = false ∧ keepsFields s.dev d [(die, DIE_CTL_ERR_STATUS_VALID), (die, DIE_CTL_ERR_STATUS_OVERFLOW)]) ∧
      (∀ (m a st : Nat) (remote write : Bool), m < 256 → st < 256 → bit value 31 = true →
        runs (.errStatusClear die value (some (m, a, st, remote, write))) s fun d => keepsMem s.dev d ∧ d.on die DIE_CTL_ERR_STATUS_OVERFLOW = false ∧
          record d die m a st remote write) ∧
      (bit value 31 = false → bit value 30 = true → exec (.errStatusClear die value none) s =
        .next (s.withDev (s.dev.clr die DIE_CTL_ERR_STATUS_OVERFLOW)))) ∧
    (∀ die hart a st : Nat, hart < 4 → st < 256 → s.dev.on die DIE_CTL_ERR_STATUS_VALID = false →
      let id := s.dev.rd die HOST_ERR_CFG_ID
      runs (.hostStoreError die hart [(a, st)]) s fun d => keepsMem s.dev d ∧ count d die (HOST_STORE_ERR_COUNT hart) ∧
        record d die (mHost + hart) a st false true ∧
        (1 ≤ id → id ≤ 255 → SMap.get 0 d.host.imsic (((die * 4 + hart) * 2) * 256 + id) = 1)) ∧
    (∀ die n lvl v : Nat, lvl < 2 →
      ((v = 0 ∨ 255 < v) → exec (.seteipnumWrite die n lvl v) s = .next s) ∧
      (1 ≤ v → v ≤ 255 → runs (.seteipnumWrite die n lvl v) s fun d => keepsMem s.dev d ∧ d.regs = s.dev.regs ∧
        ∀ k, SMap.get 0 d.host.imsic k = if k = ((die * 4 + n) * 2 + lvl) * 256 + v then 1 else SMap.get 0 s.dev.host.imsic k) ∧
      runs (.mtimecmpReached die n lvl) s fun d => keepsMem s.dev d ∧ d.regs = s.dev.regs ∧
        SMap.get 0 d.host.timer ((die * 4 + n) * 2 + lvl) = b2n (decide (s.dev.timeCompare die n lvl ≤ s.dev.chorus.time)))

/-- A write of a register (R7, R8, R30, R31) by any requester: one that does not reach the register is answered with its error and changes no
register; of those that reach it, whose answer returns over the bridges, one with RW fields takes them, MODE of REGULATE_CTL at the next
edge; one that is read-only, or whose fields are locked, ignores it; a flag that is cleared by writing 1 is cleared so; a value out of
range changes nothing but RANGE_ERR; and a block that a die does not have ignores it. It rests on choices of the model: assumptions 158,
183, 228. Its clauses conclude that exec answers a next state (`runs c s P`: exec c s = .next t, and P of t) for: registerWrite. -/
def Obligations.RegisterWrites : Prop :=
  ∀ (s : State) (src master die v : Nat), s.dev.sound → v < 2 ^ 32 → src < 4 → die < 4 →
    let at' := fun (blk off : Nat) => regBase + die * regDieBytes + blk * 0x10000 + off
    let reach := fun (blk off : Nat) => s.dev.accessStatus src master (at' blk off) 4 true = stDONE ∧ s.dev.routeUp die src = true
    let b := ((s.dev.xfer src die).xfer die src).answer stDONE 0
    (∀ blk off : Nat, blk < 32 → off < 0x10000 → (master < mHost ∨ mHost + 4 ≤ master) → s.dev.accessStatus src master (at' blk off) 4 true = stUNMAPPED →
      exec (.registerWrite ⟨src, master⟩ die blk off v) s =
        .next (s.withDev ((s.dev.recordUnmapped die src master (at' blk off) true).answer stUNMAPPED 0))) ∧
    (reach 6 0x00 → runs (.registerWrite ⟨src, master⟩ die 6 0x00 v) s fun d => keepsMem s.dev d ∧ d.rd die SYNC_SEL_INDEX = v % 2 ^ SYNC_SEL_INDEX.w ∧
      keepsFields b d [(die, SYNC_SEL_INDEX)] ∧ d.reply = (stDONE, 0)) ∧
    (∀ off ∈ [0x00, 0x04], reach 0 off → exec (.registerWrite ⟨src, master⟩ die 0 off v) s = .next (s.withDev b)) ∧
    (∀ blk off : Nat, ((blk = 26 ∧ die % 2 = 1) ∨ (blk = 29 ∧ die ≠ 0) ∨ (blk = 21 ∧ 2 ≤ die)) → off < 0x10000 → reach blk off →
      exec (.registerWrite ⟨src, master⟩ die blk off v) s = .next (s.withDev b)) ∧
    (s.dev.on die REGULATE_CTL_LOCK = true → reach 7 0x00 → exec (.registerWrite ⟨src, master⟩ die 7 0x00 v) s = .next (s.withDev b)) ∧
    (s.dev.on die REGULATE_CTL_LOCK = false → reach 7 0x00 → runs (.registerWrite ⟨src, master⟩ die 7 0x00 v) s fun d => keepsMem s.dev d ∧
      d.edgeWrites = s.dev.edgeWrites ++ [(REGULATE_CTL_MODE, die, bits v REGULATE_CTL_MODE.lo REGULATE_CTL_MODE.w)] ∧
      d.on die REGULATE_CTL_LOCK = bit v 31 ∧ keepsFields b d [(die, REGULATE_CTL_LOCK)] ∧ d.reply = (stDONE, 0)) ∧
    (reach 7 0x04 → exec (.registerWrite ⟨src, master⟩ die 7 0x04 (2 ^ 30)) s = .next (s.withDev (b.clr die REGULATE_STATUS_HELD_SEEN))) ∧
    (s.dev.on 0 LP5X_CTL_LOCK = false → v % 4 = 3 → die = 0 → reach 27 0x00 →
      exec (.registerWrite ⟨src, master⟩ 0 27 0x00 v) s = .next (s.withDev (b.set 0 LP5X_STATUS_RANGE_ERR)))

/-- The test access port (R451 to R453): each instruction that the life-cycle state allows is selected and answers, and one that it does not
allow selects BYPASS; a DMI scan fails while the port is closed and otherwise reads or writes a register of the debug module and is marked
as use; and an unlock request shows its result, opens the port if it passes, and draws a new challenge. It rests on choices of the model:
assumptions 165, 166, 167, 169. Its clauses conclude that exec answers a next state (`runs c s P`: exec c s = .next t, and P of t) for:
idcode, bypass, samplePreload, extest, dtmcs, dmi, unlock, debugUnlock. -/
def Obligations.TestPort : Prop :=
  ∀ s : State, s.dev.sound →
    let life := s.dev.eft.fuses.life
    let answers : Device → Nat → Nat → Nat → Prop := fun d ir st v => keepsMem s.dev d ∧ d.regs = s.dev.regs ∧ d.eft = s.dev.eft ∧ d.probe.ir = ir ∧
      d.probe.halted = s.dev.probe.halted ∧ d.reply = (st, v)
    runs .idcode s (fun d => answers d 0x01 stDONE (s.dev.rd 0 DIE_CTL_ID_STEPPING % 16 * 2 ^ 28 + 0x7000 + Config.jep106 % 2 ^ 11 * 2 + 1)) ∧
    runs .bypass s (fun d => answers d 0x1F stDONE 0) ∧
    (∀ pins data : Nat,
      (life ≠ lcRETIRED → runs (.samplePreload pins data) s fun d => answers d 0x02 stDONE pins ∧ d.probe.bsr = data ∧ d.out = s.dev.out) ∧
      (life = lcRETIRED → runs (.samplePreload pins data) s fun d => answers d 0x1F stDONE 0 ∧ d.probe.bsr = s.dev.probe.bsr) ∧
      ((life = lcBLANK ∨ life = lcMANUFACTURE) → runs (.extest pins data) s fun d => answers d 0x00 stDONE pins ∧ d.probe.bsr = data ∧
        d.out = s.dev.out ++ [.pin "BOUNDARY" data]) ∧
      (life ≠ lcBLANK → life ≠ lcMANUFACTURE → runs (.extest pins data) s fun d => answers d 0x1F stDONE 0 ∧ d.out = s.dev.out)) ∧
    (∀ v : Nat, let stat := SMap.get 0 s.dev.probe.dm 0x1000
      runs (.dtmcs v) s fun d => answers d 0x10 stDONE (1 + 7 * 16 + stat * 1024) ∧
        SMap.get 0 d.probe.dm 0x1000 = if bit v 16 = true ∨ bit v 17 = true then 0 else stat) ∧
    (∀ op a data : Nat, s.dev.debugOpen = false → runs (.dmi op a data) s fun d => answers d 0x11 2 0 ∧ SMap.get 0 d.probe.dm 0x1000 = 2) ∧
    (∀ op a data : Nat, s.dev.debugOpen = true → (a = 0x04 ∨ a = 0x05 ∨ (0x20 ≤ a ∧ a < 0x28)) →
      runs (.dmi op a data) s fun d => keepsMem s.dev d ∧ d.probe.ir = 0x11 ∧ d.on 0 DEBUG_STATUS_USED = true ∧
        keepsFields s.dev d [(0, DEBUG_STATUS_USED)] ∧ d.reply = (0, if op = 1 then s.dev.dmReg a else 0) ∧
        ∀ k, d.dmReg k = if op = 2 ∧ k = a then data % 2 ^ 32 else s.dev.dmReg k) ∧
    (∀ access, life ≠ lcPROVISIONED → life ≠ lcDEPLOYED → runs (.unlock access) s fun d => answers d 0x1F stDONE 0) ∧
    ((life = lcPROVISIONED ∨ life = lcDEPLOYED) →
      (runs (.unlock none) s fun d => answers d 0x13 stDONE 0) ∧
      (∀ n v : Nat, n < 90 → runs (.unlock (some (0x400 + 4 * n, true, v))) s fun d => keepsMem s.dev d ∧ d.probe.ir = 0x13 ∧
        d.rd 0 (DEBUG_UNLOCK_REQ_WORD n) = v % 2 ^ 32 ∧ keepsFields s.dev d [(0, DEBUG_UNLOCK_REQ_WORD n)]) ∧
      (∀ n : Nat, n < 8 → runs (.unlock (some (0x40 + 4 * n, false, 0))) s fun d => answers d 0x13 stDONE (s.dev.rd 0 (DEBUG_CHALLENGE_WORD n)))) ∧
    (∀ die : Nat, (die ≠ 0 ∨ s.dev.on 0 DEBUG_UNLOCK_CTL_BUSY = true) → exec (.debugUnlock die) s = .next s) ∧
    (s.dev.on 0 DEBUG_UNLOCK_CTL_BUSY = false →
      let r := s.dev.reqCheck (s.dev.reqBytes DEBUG_UNLOCK_REQ_WORD) (s.dev.challenge DEBUG_CHALLENGE_WORD) [5]
      runs (.debugUnlock 0) s fun d => keepsMem s.dev d ∧ d.eft = s.dev.eft ∧ d.rd 0 DEBUG_UNLOCK_CTL_RESULT = r ∧
        d.on 0 DEBUG_STATUS_OPEN = (decide (r = 0) || s.dev.on 0 DEBUG_STATUS_OPEN) ∧
        ∀ n < 8, d.rd 0 (DEBUG_CHALLENGE_WORD n) = Config.freeWord (s.dev.fresh + n) % 2 ^ 32)

/-- Baltal's transport and halts (R455, R456): every scan of a closed port answers CLOSED, and one of an open port answers the result of the
scan before it; PC and breakpoints are read and written; a halt that needs no standstill takes effect at once, any other raises DEBUG_HALT
and waits; a resume lets a core or hart go on at once and a reflex unit at the next sample edge; and a step lets a halted target go on to
its next stopping point. It rests on choices of the model: assumptions 166, 167, 168. Its clauses conclude that exec answers a next state
(`runs c s P`: exec c s = .next t, and P of t) for: bdtmNop, bdtmRead, bdtmWrite, haltReq, resume, step. -/
def Obligations.HaltsAndSteps : Prop :=
  ∀ (s : State) (t : Nat), s.dev.sound →
    let b := s.dev.probe
    let scan : Device → Nat × Nat → Prop := fun d res => keepsMem s.dev d ∧ d.probe.ir = 0x12 ∧ d.reply = b.last ∧ d.probe.last = res
    let quiet := b.waiting = [] ∧ b.draining = [] ∧ b.steps = []
    let hart := 0x10000 ≤ t ∧ t < 0x10010
    (s.dev.debugOpen = false → (∀ op reg data : Nat,
        ∀ c ∈ [Instr.bdtmNop op, .bdtmRead t reg, .bdtmWrite t reg data], runs c s fun d => keepsMem s.dev d ∧ d.regs = s.dev.regs ∧
          d.probe = { b with ir := 0x12, last := (2, 0) } ∧ d.reply = (2, 0)) ∧
      ∀ c ∈ [Instr.haltReq t, .resume t, .step t], runs c s fun d => keepsMem s.dev d ∧ d.regs = s.dev.regs ∧ d.reply = (2, 0) ∧
        d.probe.halted = b.halted ∧ d.probe.waiting = b.waiting) ∧
    (s.dev.debugOpen = true →
      (∀ op : Nat, runs (.bdtmNop op) s fun d => scan d (if op = 3 then 3 else 0, 0) ∧ d.on 0 DEBUG_STATUS_USED = true ∧
        keepsFields s.dev d [(0, DEBUG_STATUS_USED)]) ∧
      (targetOk t = false → ∀ reg data : Nat, (runs (.bdtmRead t reg) s fun d => scan d (3, 0)) ∧ runs (.bdtmWrite t reg data) s fun d => scan d (3, 0)) ∧
      (targetOk t = true →
        (runs (.bdtmRead t 0) s fun d => scan d (0, (if b.halted.contains t = true then 8 else 0) +
          (if b.waiting.contains t = true ∨ b.draining.contains t = true then 16 else 0))) ∧
        (runs (.bdtmRead t 1) s fun d => scan d (0, s.dev.pcOf t)) ∧
        (∀ data : Nat, runs (.bdtmWrite t 1 data) s fun d => scan d (0, 0) ∧ d.pcOf t = data % 65536 ∧ ∀ u, u ≠ t → d.pcOf u = s.dev.pcOf u) ∧
        ∀ k data : Nat, k < 4 → (runs (.bdtmRead t (0x10 + k)) s fun d => scan d (0, SMap.get 0 b.bp (t * 4 + k))) ∧
          runs (.bdtmWrite t (0x10 + k) data) s fun d => scan d (0, 0) ∧
            ∀ x, SMap.get 0 d.probe.bp x = if x = t * 4 + k then data / 2 ^ 31 % 2 * 2 ^ 31 + data % 65536 else SMap.get 0 b.bp x) ∧
      (quiet → b.halted.contains t = false →
        (s.dev.haltNeeds t = 0 → (hart ∨ (t < 256 ∧ s.dev.cmd t = none)) → runs (.haltReq t) s fun d => keepsMem s.dev d ∧
          d.probe.halted = b.halted ++ [t] ∧ d.probe.waiting = [] ∧ d.probe.draining = [] ∧ d.on 0 DEBUG_STATUS_HALT_PENDING = true ∧
          keepsFields s.dev d [(0, DEBUG_STATUS_USED), (0, DEBUG_STATUS_HALT_PENDING)] ∧ (hart → d.reply = (0, 0))) ∧
        (s.dev.haltNeeds t ≠ 0 → (hart ∨ targetOk t = true) → (∀ i < 2, (s.dev.island i).stopped = false ∧ s.dev.rd i SAFETY_STATUS_TAIL_STATE < 2) →
          runs (.haltReq t) s fun d => keepsMem s.dev d ∧ d.probe.halted = b.halted ∧ d.probe.waiting = [t] ∧
            (∀ i < 2, bit (d.rd i SAFETY_STATUS_CAUSES) 11 = true) ∧ (∀ k < 4, d.on k REFLEX_CTRL_STATUS_TAIL_ACTIVE = true) ∧
            d.on 0 DEBUG_STATUS_HALT_PENDING = true)) ∧
      (quiet → b.halted = [t] →
        ((hart ∨ t < 256) → runs (.resume t) s fun d => keepsMem s.dev d ∧ d.probe.halted = [] ∧ d.on 0 DEBUG_STATUS_HALT_PENDING = false) ∧
        (reflexTarget t = true → runs (.resume t) s fun d => keepsMem s.dev d ∧ d.probe.halted = [t] ∧ t ∈ d.probe.resuming) ∧
        (targetOk t = true → runs (.step t) s fun d => keepsMem s.dev d ∧ d.probe.halted = [] ∧ d.probe.steps = [t]) ∧
        (hart → runs (.step t) s fun d => keepsMem s.dev d ∧ d.probe.halted = [t] ∧ ∀ e ∈ d.probe.hregs, e.1 / 65536 ≠ t - 0x10000)))
end

