-- ==== Sys2Proof/Laws/Store.lean ====
section
/-!
SUPPORT. Laws of sparse maps: a read after a write, and the canonical form, which writes keep and which normalising gives.
-/
namespace Sys2Proof.Machine

variable {V : Type}

@[simp] theorem SMap.get_nil (d : V) (k : Nat) : SMap.get d [] k = d := rfl

theorem SMap.get_ins_same (d : V) (m : SMap V) (k : Nat) (v : V) : SMap.get d (SMap.ins k v m) k = v := by
  induction m with
  | nil => simp [SMap.ins, SMap.get]
  | cons e r ih =>
    obtain ⟨a, x⟩ := e
    simp only [SMap.ins]
    split
    · simp [SMap.get]
    · split
      · simp [SMap.get]
      · rename_i h; simp [SMap.get, h, ih]

theorem SMap.get_ins_ne (d : V) (m : SMap V) {k j : Nat} (v : V) (h : j ≠ k) : SMap.get d (SMap.ins k v m) j = SMap.get d m j := by
  induction m with
  | nil => simp [SMap.ins, SMap.get, Ne.symm h]
  | cons e r ih =>
    obtain ⟨a, x⟩ := e
    simp only [SMap.ins]
    split
    · simp [SMap.get, Ne.symm h]
    · split
      · rename_i h1 h2; subst h2; simp [SMap.get, Ne.symm h]
      · simp [SMap.get, ih]

theorem SMap.get_erase_same (d : V) (m : SMap V) (k : Nat) : SMap.get d (SMap.erase k m) k = d := by
  induction m with
  | nil => rfl
  | cons e r ih =>
    obtain ⟨a, x⟩ := e
    by_cases h : a = k <;> simp_all [SMap.erase, List.filter, SMap.get]

theorem SMap.get_erase_ne (d : V) (m : SMap V) {k j : Nat} (h : j ≠ k) : SMap.get d (SMap.erase k m) j = SMap.get d m j := by
  induction m with
  | nil => rfl
  | cons e r ih =>
    obtain ⟨a, x⟩ := e
    by_cases h1 : a = k
    · subst h1; simp_all [SMap.erase, List.filter, SMap.get, Ne.symm h]
    · by_cases h2 : a = j <;> simp_all [SMap.erase, List.filter, SMap.get]

/-- A read after a write of the same key gives the value written. -/
@[simp] theorem SMap.get_put_same [DecidableEq V] (d : V) (m : SMap V) (k : Nat) (v : V) : SMap.get d (SMap.put d m k v) k = v := by
  unfold SMap.put
  split
  · rename_i h; rw [SMap.get_erase_same, h]
  · exact SMap.get_ins_same d m k v

/-- A write leaves every other key alone, whatever default each has. -/
theorem SMap.get_put_ne [DecidableEq V] (d d' : V) (m : SMap V) {k j : Nat} (v : V) (h : j ≠ k) :
    SMap.get d' (SMap.put d m k v) j = SMap.get d' m j := by
  unfold SMap.put
  split
  · exact SMap.get_erase_ne d' m h
  · exact SMap.get_ins_ne d' m v h

theorem SMap.get_put [DecidableEq V] (d : V) (m : SMap V) (k j : Nat) (v : V) :
    SMap.get d (SMap.put d m k v) j = if j = k then v else SMap.get d m j := by
  split
  · rename_i h; subst h; simp
  · exact SMap.get_put_ne d d m v ‹_›

/-- Normalising changes no read. -/
@[simp] theorem SMap.get_norm [DecidableEq V] (d : V) (m : SMap V) (k : Nat) : SMap.get d (SMap.norm d m) k = SMap.get d m k := by
  induction m with
  | nil => rfl
  | cons e r ih =>
    obtain ⟨a, x⟩ := e
    have h : SMap.norm d ((a, x) :: r) = SMap.put d (SMap.norm d r) a x := rfl
    rw [h, SMap.get_put, ih]
    by_cases h1 : k = a
    · subst h1; simp [SMap.get]
    · simp [SMap.get, h1, Ne.symm h1]

/-! ### The canonical form -/

/-- Keys of a sorted map's tail lie above its head. -/
theorem SMap.sorted_head {a : Nat} {x : V} {r : SMap V} (h : SMap.sorted ((a, x) :: r) = true) : ∀ e ∈ r, a < e.1 := by
  induction r generalizing a x with
  | nil => simp
  | cons e r ih =>
    obtain ⟨b, y⟩ := e
    simp only [SMap.sorted, Bool.and_eq_true, decide_eq_true_eq] at h
    intro e he
    rcases List.mem_cons.1 he with rfl | he
    · exact h.1
    · exact Nat.lt_trans h.1 (ih h.2 e he)

theorem SMap.sorted_tail {e : Nat × V} {r : SMap V} (h : SMap.sorted (e :: r) = true) : SMap.sorted r = true := by
  cases r with
  | nil => rfl
  | cons f r => simp only [SMap.sorted, Bool.and_eq_true] at h; exact h.2

theorem SMap.sorted_cons {a : Nat} {x : V} {r : SMap V} (hr : SMap.sorted r = true) (h : ∀ e ∈ r, a < e.1) :
    SMap.sorted ((a, x) :: r) = true := by
  cases r with
  | nil => rfl
  | cons f r => simp only [SMap.sorted, Bool.and_eq_true, decide_eq_true_eq]; exact ⟨h f (by simp), hr⟩

theorem SMap.mem_ins {k : Nat} {v : V} {m : SMap V} {e : Nat × V} (h : e ∈ SMap.ins k v m) : e = (k, v) ∨ e ∈ m := by
  induction m with
  | nil => simp [SMap.ins] at h; exact .inl h
  | cons f r ih =>
    obtain ⟨a, x⟩ := f
    simp only [SMap.ins] at h
    split at h
    · rcases List.mem_cons.1 h with h | h
      · exact .inl h
      · exact .inr h
    · split at h
      · rcases List.mem_cons.1 h with h | h
        · exact .inl h
        · exact .inr (List.mem_cons_of_mem _ h)
      · rcases List.mem_cons.1 h with h | h
        · exact .inr (by simp [h])
        · rcases ih h with h | h
          · exact .inl h
          · exact .inr (List.mem_cons_of_mem _ h)

theorem SMap.sorted_ins (k : Nat) (v : V) (m : SMap V) (h : SMap.sorted m = true) : SMap.sorted (SMap.ins k v m) = true := by
  induction m with
  | nil => rfl
  | cons e r ih =>
    obtain ⟨a, x⟩ := e
    simp only [SMap.ins]
    split
    · rename_i hk
      refine SMap.sorted_cons h fun e he => ?_
      rcases List.mem_cons.1 he with rfl | he
      · exact hk
      · exact Nat.lt_trans hk (SMap.sorted_head h e he)
    · split
      · rename_i _ hk; subst hk
        exact SMap.sorted_cons (SMap.sorted_tail h) (SMap.sorted_head h)
      · rename_i h1 h2
        refine SMap.sorted_cons (ih (SMap.sorted_tail h)) fun e he => ?_
        rcases SMap.mem_ins he with rfl | he
        · simp; omega
        · exact SMap.sorted_head h e he

theorem SMap.sorted_erase (k : Nat) (m : SMap V) (h : SMap.sorted m = true) : SMap.sorted (SMap.erase k m) = true := by
  induction m with
  | nil => rfl
  | cons e r ih =>
    obtain ⟨a, x⟩ := e
    have hr := ih (SMap.sorted_tail h)
    by_cases h1 : a = k
    · simpa [SMap.erase, List.filter, h1] using hr
    · have : SMap.erase k ((a, x) :: r) = (a, x) :: SMap.erase k r := by simp [SMap.erase, List.filter, h1]
      rw [this]
      exact SMap.sorted_cons hr fun e he => SMap.sorted_head h e (List.mem_of_mem_filter he)

/-- A write keeps the canonical form. -/
theorem SMap.wf_put [DecidableEq V] (d : V) (m : SMap V) (k : Nat) (v : V) (h : SMap.wf d m = true) : SMap.wf d (SMap.put d m k v) = true := by
  simp only [SMap.wf, Bool.and_eq_true, List.all_eq_true, decide_eq_true_eq] at h ⊢
  unfold SMap.put
  split
  · exact ⟨SMap.sorted_erase k m h.1, fun e he => h.2 e (List.mem_of_mem_filter he)⟩
  · rename_i hv
    refine ⟨SMap.sorted_ins k v m h.1, fun e he => ?_⟩
    rcases SMap.mem_ins he with rfl | he
    · exact hv
    · exact h.2 e he

/-- Normalising gives the canonical form, whatever the map. -/
theorem SMap.wf_norm [DecidableEq V] (d : V) (m : SMap V) : SMap.wf d (SMap.norm d m) = true := by
  induction m with
  | nil => rfl
  | cons e r ih => exact SMap.wf_put d _ e.1 e.2 ih

/-- A canonical map is its own normal form. -/
theorem SMap.norm_wf [DecidableEq V] (d : V) (m : SMap V) (h : SMap.wf d m = true) : SMap.norm d m = m := by
  induction m with
  | nil => rfl
  | cons e r ih =>
    obtain ⟨a, x⟩ := e
    simp only [SMap.wf, Bool.and_eq_true, List.all_eq_true, decide_eq_true_eq] at h ih
    have hr := ih ⟨SMap.sorted_tail h.1, fun e he => h.2 e (List.mem_cons_of_mem _ he)⟩
    have h1 : SMap.norm d ((a, x) :: r) = SMap.put d (SMap.norm d r) a x := rfl
    rw [h1, hr]
    have hx : x ≠ d := h.2 (a, x) (by simp)
    simp only [SMap.put, hx, if_false]
    cases r with
    | nil => rfl
    | cons f r => have := SMap.sorted_head h.1 f (by simp); simp [SMap.ins, this]

end Sys2Proof.Machine
end

