-- ==== Sys2Proof/Laws/State.lean ====
section
/-!
SUPPORT. What each update of one part of the device leaves of every other part, by `rfl`; and reads of register fields and bytes after
writes of them.
-/
namespace Sys2Proof.Machine

@[simp] theorem Device.wr_mem (s : Device) (d : Nat) (f : Fld) (v : Nat) : (s.wr d f v).mem = s.mem := rfl
@[simp] theorem Device.wr_chorus (s : Device) (d : Nat) (f : Fld) (v : Nat) : (s.wr d f v).chorus = s.chorus := rfl
@[simp] theorem Device.wr_pond (s : Device) (d : Nat) (f : Fld) (v : Nat) : (s.wr d f v).pond = s.pond := rfl
@[simp] theorem Device.wr_xlate (s : Device) (d : Nat) (f : Fld) (v : Nat) : (s.wr d f v).xlate = s.xlate := rfl
@[simp] theorem Device.wr_disp (s : Device) (d : Nat) (f : Fld) (v : Nat) : (s.wr d f v).disp = s.disp := rfl
@[simp] theorem Device.wr_regul (s : Device) (d : Nat) (f : Fld) (v : Nat) : (s.wr d f v).regul = s.regul := rfl
@[simp] theorem Device.wr_err (s : Device) (d : Nat) (f : Fld) (v : Nat) : (s.wr d f v).err = s.err := rfl
@[simp] theorem Device.wr_edgeWrites (s : Device) (d : Nat) (f : Fld) (v : Nat) : (s.wr d f v).edgeWrites = s.edgeWrites := rfl
@[simp] theorem Device.wr_reply (s : Device) (d : Nat) (f : Fld) (v : Nat) : (s.wr d f v).reply = s.reply := rfl
@[simp] theorem Device.wr_out (s : Device) (d : Nat) (f : Fld) (v : Nat) : (s.wr d f v).out = s.out := rfl
@[simp] theorem Device.wr_fresh (s : Device) (d : Nat) (f : Fld) (v : Nat) : (s.wr d f v).fresh = s.fresh := rfl
@[simp] theorem Device.wr_safety (s : Device) (d : Nat) (f : Fld) (v : Nat) : (s.wr d f v).safety = s.safety := rfl
@[simp] theorem Device.wr_pcie (s : Device) (d : Nat) (f : Fld) (v : Nat) : (s.wr d f v).pcie = s.pcie := rfl
@[simp] theorem Device.wr_host (s : Device) (d : Nat) (f : Fld) (v : Nat) : (s.wr d f v).host = s.host := rfl
@[simp] theorem Device.wr_latch (s : Device) (d : Nat) (f : Fld) (v : Nat) : (s.wr d f v).latch = s.latch := rfl
@[simp] theorem Device.wr_link (s : Device) (d : Nat) (f : Fld) (v : Nat) : (s.wr d f v).link = s.link := rfl
@[simp] theorem Device.wr_att (s : Device) (d : Nat) (f : Fld) (v : Nat) : (s.wr d f v).att = s.att := rfl
@[simp] theorem Device.wr_chunks (s : Device) (d : Nat) (f : Fld) (v : Nat) : (s.wr d f v).chunks = s.chunks := rfl
@[simp] theorem Device.wr_coll (s : Device) (d : Nat) (f : Fld) (v : Nat) : (s.wr d f v).coll = s.coll := rfl
@[simp] theorem Device.wr_fusion (s : Device) (d : Nat) (f : Fld) (v : Nat) : (s.wr d f v).fusion = s.fusion := rfl
@[simp] theorem Device.wr_collide (s : Device) (d : Nat) (f : Fld) (v : Nat) : (s.wr d f v).collide = s.collide := rfl
@[simp] theorem Device.wr_solve (s : Device) (d : Nat) (f : Fld) (v : Nat) : (s.wr d f v).solve = s.solve := rfl
@[simp] theorem Device.wr_ctrl (s : Device) (d : Nat) (f : Fld) (v : Nat) : (s.wr d f v).ctrl = s.ctrl := rfl
@[simp] theorem Device.wr_lsio (s : Device) (d : Nat) (f : Fld) (v : Nat) : (s.wr d f v).lsio = s.lsio := rfl
@[simp] theorem Device.wr_oliner (s : Device) (d : Nat) (f : Fld) (v : Nat) : (s.wr d f v).oliner = s.oliner := rfl
@[simp] theorem Device.wr_selfTest (s : Device) (d : Nat) (f : Fld) (v : Nat) : (s.wr d f v).selfTest = s.selfTest := rfl
@[simp] theorem Device.wr_bask (s : Device) (d : Nat) (f : Fld) (v : Nat) : (s.wr d f v).bask = s.bask := rfl
@[simp] theorem Device.wr_eft (s : Device) (d : Nat) (f : Fld) (v : Nat) : (s.wr d f v).eft = s.eft := rfl
@[simp] theorem Device.wr_probe (s : Device) (d : Nat) (f : Fld) (v : Nat) : (s.wr d f v).probe = s.probe := rfl
@[simp] theorem Device.wr_enet (s : Device) (d : Nat) (f : Fld) (v : Nat) : (s.wr d f v).enet = s.enet := rfl
@[simp] theorem Device.wr_regReqs (s : Device) (d : Nat) (f : Fld) (v : Nat) : (s.wr d f v).regReqs = s.regReqs := rfl

@[simp] theorem Device.set_mem (s : Device) (d : Nat) (f : Fld) : (s.set d f).mem = s.mem := rfl
@[simp] theorem Device.set_chorus (s : Device) (d : Nat) (f : Fld) : (s.set d f).chorus = s.chorus := rfl
@[simp] theorem Device.set_pond (s : Device) (d : Nat) (f : Fld) : (s.set d f).pond = s.pond := rfl
@[simp] theorem Device.set_xlate (s : Device) (d : Nat) (f : Fld) : (s.set d f).xlate = s.xlate := rfl
@[simp] theorem Device.set_disp (s : Device) (d : Nat) (f : Fld) : (s.set d f).disp = s.disp := rfl
@[simp] theorem Device.set_regul (s : Device) (d : Nat) (f : Fld) : (s.set d f).regul = s.regul := rfl
@[simp] theorem Device.set_err (s : Device) (d : Nat) (f : Fld) : (s.set d f).err = s.err := rfl
@[simp] theorem Device.set_edgeWrites (s : Device) (d : Nat) (f : Fld) : (s.set d f).edgeWrites = s.edgeWrites := rfl
@[simp] theorem Device.set_reply (s : Device) (d : Nat) (f : Fld) : (s.set d f).reply = s.reply := rfl
@[simp] theorem Device.set_out (s : Device) (d : Nat) (f : Fld) : (s.set d f).out = s.out := rfl
@[simp] theorem Device.set_fresh (s : Device) (d : Nat) (f : Fld) : (s.set d f).fresh = s.fresh := rfl
@[simp] theorem Device.set_safety (s : Device) (d : Nat) (f : Fld) : (s.set d f).safety = s.safety := rfl
@[simp] theorem Device.set_pcie (s : Device) (d : Nat) (f : Fld) : (s.set d f).pcie = s.pcie := rfl
@[simp] theorem Device.set_host (s : Device) (d : Nat) (f : Fld) : (s.set d f).host = s.host := rfl
@[simp] theorem Device.set_latch (s : Device) (d : Nat) (f : Fld) : (s.set d f).latch = s.latch := rfl
@[simp] theorem Device.set_link (s : Device) (d : Nat) (f : Fld) : (s.set d f).link = s.link := rfl
@[simp] theorem Device.set_att (s : Device) (d : Nat) (f : Fld) : (s.set d f).att = s.att := rfl
@[simp] theorem Device.set_chunks (s : Device) (d : Nat) (f : Fld) : (s.set d f).chunks = s.chunks := rfl
@[simp] theorem Device.set_coll (s : Device) (d : Nat) (f : Fld) : (s.set d f).coll = s.coll := rfl
@[simp] theorem Device.set_fusion (s : Device) (d : Nat) (f : Fld) : (s.set d f).fusion = s.fusion := rfl
@[simp] theorem Device.set_collide (s : Device) (d : Nat) (f : Fld) : (s.set d f).collide = s.collide := rfl
@[simp] theorem Device.set_solve (s : Device) (d : Nat) (f : Fld) : (s.set d f).solve = s.solve := rfl
@[simp] theorem Device.set_ctrl (s : Device) (d : Nat) (f : Fld) : (s.set d f).ctrl = s.ctrl := rfl
@[simp] theorem Device.set_lsio (s : Device) (d : Nat) (f : Fld) : (s.set d f).lsio = s.lsio := rfl
@[simp] theorem Device.set_oliner (s : Device) (d : Nat) (f : Fld) : (s.set d f).oliner = s.oliner := rfl
@[simp] theorem Device.set_selfTest (s : Device) (d : Nat) (f : Fld) : (s.set d f).selfTest = s.selfTest := rfl
@[simp] theorem Device.set_bask (s : Device) (d : Nat) (f : Fld) : (s.set d f).bask = s.bask := rfl
@[simp] theorem Device.set_eft (s : Device) (d : Nat) (f : Fld) : (s.set d f).eft = s.eft := rfl
@[simp] theorem Device.set_probe (s : Device) (d : Nat) (f : Fld) : (s.set d f).probe = s.probe := rfl
@[simp] theorem Device.set_enet (s : Device) (d : Nat) (f : Fld) : (s.set d f).enet = s.enet := rfl
@[simp] theorem Device.set_regReqs (s : Device) (d : Nat) (f : Fld) : (s.set d f).regReqs = s.regReqs := rfl

@[simp] theorem Device.clr_mem (s : Device) (d : Nat) (f : Fld) : (s.clr d f).mem = s.mem := rfl
@[simp] theorem Device.clr_chorus (s : Device) (d : Nat) (f : Fld) : (s.clr d f).chorus = s.chorus := rfl
@[simp] theorem Device.clr_pond (s : Device) (d : Nat) (f : Fld) : (s.clr d f).pond = s.pond := rfl
@[simp] theorem Device.clr_xlate (s : Device) (d : Nat) (f : Fld) : (s.clr d f).xlate = s.xlate := rfl
@[simp] theorem Device.clr_disp (s : Device) (d : Nat) (f : Fld) : (s.clr d f).disp = s.disp := rfl
@[simp] theorem Device.clr_regul (s : Device) (d : Nat) (f : Fld) : (s.clr d f).regul = s.regul := rfl
@[simp] theorem Device.clr_err (s : Device) (d : Nat) (f : Fld) : (s.clr d f).err = s.err := rfl
@[simp] theorem Device.clr_edgeWrites (s : Device) (d : Nat) (f : Fld) : (s.clr d f).edgeWrites = s.edgeWrites := rfl
@[simp] theorem Device.clr_reply (s : Device) (d : Nat) (f : Fld) : (s.clr d f).reply = s.reply := rfl
@[simp] theorem Device.clr_out (s : Device) (d : Nat) (f : Fld) : (s.clr d f).out = s.out := rfl
@[simp] theorem Device.clr_fresh (s : Device) (d : Nat) (f : Fld) : (s.clr d f).fresh = s.fresh := rfl
@[simp] theorem Device.clr_safety (s : Device) (d : Nat) (f : Fld) : (s.clr d f).safety = s.safety := rfl
@[simp] theorem Device.clr_pcie (s : Device) (d : Nat) (f : Fld) : (s.clr d f).pcie = s.pcie := rfl
@[simp] theorem Device.clr_host (s : Device) (d : Nat) (f : Fld) : (s.clr d f).host = s.host := rfl
@[simp] theorem Device.clr_latch (s : Device) (d : Nat) (f : Fld) : (s.clr d f).latch = s.latch := rfl
@[simp] theorem Device.clr_link (s : Device) (d : Nat) (f : Fld) : (s.clr d f).link = s.link := rfl
@[simp] theorem Device.clr_att (s : Device) (d : Nat) (f : Fld) : (s.clr d f).att = s.att := rfl
@[simp] theorem Device.clr_chunks (s : Device) (d : Nat) (f : Fld) : (s.clr d f).chunks = s.chunks := rfl
@[simp] theorem Device.clr_coll (s : Device) (d : Nat) (f : Fld) : (s.clr d f).coll = s.coll := rfl
@[simp] theorem Device.clr_fusion (s : Device) (d : Nat) (f : Fld) : (s.clr d f).fusion = s.fusion := rfl
@[simp] theorem Device.clr_collide (s : Device) (d : Nat) (f : Fld) : (s.clr d f).collide = s.collide := rfl
@[simp] theorem Device.clr_solve (s : Device) (d : Nat) (f : Fld) : (s.clr d f).solve = s.solve := rfl
@[simp] theorem Device.clr_ctrl (s : Device) (d : Nat) (f : Fld) : (s.clr d f).ctrl = s.ctrl := rfl
@[simp] theorem Device.clr_lsio (s : Device) (d : Nat) (f : Fld) : (s.clr d f).lsio = s.lsio := rfl
@[simp] theorem Device.clr_oliner (s : Device) (d : Nat) (f : Fld) : (s.clr d f).oliner = s.oliner := rfl
@[simp] theorem Device.clr_selfTest (s : Device) (d : Nat) (f : Fld) : (s.clr d f).selfTest = s.selfTest := rfl
@[simp] theorem Device.clr_bask (s : Device) (d : Nat) (f : Fld) : (s.clr d f).bask = s.bask := rfl
@[simp] theorem Device.clr_eft (s : Device) (d : Nat) (f : Fld) : (s.clr d f).eft = s.eft := rfl
@[simp] theorem Device.clr_probe (s : Device) (d : Nat) (f : Fld) : (s.clr d f).probe = s.probe := rfl
@[simp] theorem Device.clr_enet (s : Device) (d : Nat) (f : Fld) : (s.clr d f).enet = s.enet := rfl
@[simp] theorem Device.clr_regReqs (s : Device) (d : Nat) (f : Fld) : (s.clr d f).regReqs = s.regReqs := rfl

@[simp] theorem Device.addWrap_mem (s : Device) (d : Nat) (f : Fld) (n : Nat) : (s.addWrap d f n).mem = s.mem := rfl
@[simp] theorem Device.addWrap_chorus (s : Device) (d : Nat) (f : Fld) (n : Nat) : (s.addWrap d f n).chorus = s.chorus := rfl
@[simp] theorem Device.addWrap_pond (s : Device) (d : Nat) (f : Fld) (n : Nat) : (s.addWrap d f n).pond = s.pond := rfl
@[simp] theorem Device.addWrap_xlate (s : Device) (d : Nat) (f : Fld) (n : Nat) : (s.addWrap d f n).xlate = s.xlate := rfl
@[simp] theorem Device.addWrap_disp (s : Device) (d : Nat) (f : Fld) (n : Nat) : (s.addWrap d f n).disp = s.disp := rfl
@[simp] theorem Device.addWrap_regul (s : Device) (d : Nat) (f : Fld) (n : Nat) : (s.addWrap d f n).regul = s.regul := rfl
@[simp] theorem Device.addWrap_err (s : Device) (d : Nat) (f : Fld) (n : Nat) : (s.addWrap d f n).err = s.err := rfl
@[simp] theorem Device.addWrap_edgeWrites (s : Device) (d : Nat) (f : Fld) (n : Nat) : (s.addWrap d f n).edgeWrites = s.edgeWrites := rfl
@[simp] theorem Device.addWrap_reply (s : Device) (d : Nat) (f : Fld) (n : Nat) : (s.addWrap d f n).reply = s.reply := rfl
@[simp] theorem Device.addWrap_out (s : Device) (d : Nat) (f : Fld) (n : Nat) : (s.addWrap d f n).out = s.out := rfl
@[simp] theorem Device.addWrap_fresh (s : Device) (d : Nat) (f : Fld) (n : Nat) : (s.addWrap d f n).fresh = s.fresh := rfl
@[simp] theorem Device.addWrap_safety (s : Device) (d : Nat) (f : Fld) (n : Nat) : (s.addWrap d f n).safety = s.safety := rfl
@[simp] theorem Device.addWrap_pcie (s : Device) (d : Nat) (f : Fld) (n : Nat) : (s.addWrap d f n).pcie = s.pcie := rfl
@[simp] theorem Device.addWrap_host (s : Device) (d : Nat) (f : Fld) (n : Nat) : (s.addWrap d f n).host = s.host := rfl
@[simp] theorem Device.addWrap_latch (s : Device) (d : Nat) (f : Fld) (n : Nat) : (s.addWrap d f n).latch = s.latch := rfl
@[simp] theorem Device.addWrap_link (s : Device) (d : Nat) (f : Fld) (n : Nat) : (s.addWrap d f n).link = s.link := rfl
@[simp] theorem Device.addWrap_att (s : Device) (d : Nat) (f : Fld) (n : Nat) : (s.addWrap d f n).att = s.att := rfl
@[simp] theorem Device.addWrap_chunks (s : Device) (d : Nat) (f : Fld) (n : Nat) : (s.addWrap d f n).chunks = s.chunks := rfl
@[simp] theorem Device.addWrap_coll (s : Device) (d : Nat) (f : Fld) (n : Nat) : (s.addWrap d f n).coll = s.coll := rfl
@[simp] theorem Device.addWrap_fusion (s : Device) (d : Nat) (f : Fld) (n : Nat) : (s.addWrap d f n).fusion = s.fusion := rfl
@[simp] theorem Device.addWrap_collide (s : Device) (d : Nat) (f : Fld) (n : Nat) : (s.addWrap d f n).collide = s.collide := rfl
@[simp] theorem Device.addWrap_solve (s : Device) (d : Nat) (f : Fld) (n : Nat) : (s.addWrap d f n).solve = s.solve := rfl
@[simp] theorem Device.addWrap_ctrl (s : Device) (d : Nat) (f : Fld) (n : Nat) : (s.addWrap d f n).ctrl = s.ctrl := rfl
@[simp] theorem Device.addWrap_lsio (s : Device) (d : Nat) (f : Fld) (n : Nat) : (s.addWrap d f n).lsio = s.lsio := rfl
@[simp] theorem Device.addWrap_oliner (s : Device) (d : Nat) (f : Fld) (n : Nat) : (s.addWrap d f n).oliner = s.oliner := rfl
@[simp] theorem Device.addWrap_selfTest (s : Device) (d : Nat) (f : Fld) (n : Nat) : (s.addWrap d f n).selfTest = s.selfTest := rfl
@[simp] theorem Device.addWrap_bask (s : Device) (d : Nat) (f : Fld) (n : Nat) : (s.addWrap d f n).bask = s.bask := rfl
@[simp] theorem Device.addWrap_eft (s : Device) (d : Nat) (f : Fld) (n : Nat) : (s.addWrap d f n).eft = s.eft := rfl
@[simp] theorem Device.addWrap_probe (s : Device) (d : Nat) (f : Fld) (n : Nat) : (s.addWrap d f n).probe = s.probe := rfl
@[simp] theorem Device.addWrap_enet (s : Device) (d : Nat) (f : Fld) (n : Nat) : (s.addWrap d f n).enet = s.enet := rfl
@[simp] theorem Device.addWrap_regReqs (s : Device) (d : Nat) (f : Fld) (n : Nat) : (s.addWrap d f n).regReqs = s.regReqs := rfl

@[simp] theorem Device.addHold_mem (s : Device) (d : Nat) (f : Fld) (n : Nat) : (s.addHold d f n).mem = s.mem := rfl
@[simp] theorem Device.addHold_chorus (s : Device) (d : Nat) (f : Fld) (n : Nat) : (s.addHold d f n).chorus = s.chorus := rfl
@[simp] theorem Device.addHold_pond (s : Device) (d : Nat) (f : Fld) (n : Nat) : (s.addHold d f n).pond = s.pond := rfl
@[simp] theorem Device.addHold_xlate (s : Device) (d : Nat) (f : Fld) (n : Nat) : (s.addHold d f n).xlate = s.xlate := rfl
@[simp] theorem Device.addHold_disp (s : Device) (d : Nat) (f : Fld) (n : Nat) : (s.addHold d f n).disp = s.disp := rfl
@[simp] theorem Device.addHold_regul (s : Device) (d : Nat) (f : Fld) (n : Nat) : (s.addHold d f n).regul = s.regul := rfl
@[simp] theorem Device.addHold_err (s : Device) (d : Nat) (f : Fld) (n : Nat) : (s.addHold d f n).err = s.err := rfl
@[simp] theorem Device.addHold_edgeWrites (s : Device) (d : Nat) (f : Fld) (n : Nat) : (s.addHold d f n).edgeWrites = s.edgeWrites := rfl
@[simp] theorem Device.addHold_reply (s : Device) (d : Nat) (f : Fld) (n : Nat) : (s.addHold d f n).reply = s.reply := rfl
@[simp] theorem Device.addHold_out (s : Device) (d : Nat) (f : Fld) (n : Nat) : (s.addHold d f n).out = s.out := rfl
@[simp] theorem Device.addHold_fresh (s : Device) (d : Nat) (f : Fld) (n : Nat) : (s.addHold d f n).fresh = s.fresh := rfl
@[simp] theorem Device.addHold_safety (s : Device) (d : Nat) (f : Fld) (n : Nat) : (s.addHold d f n).safety = s.safety := rfl
@[simp] theorem Device.addHold_pcie (s : Device) (d : Nat) (f : Fld) (n : Nat) : (s.addHold d f n).pcie = s.pcie := rfl
@[simp] theorem Device.addHold_host (s : Device) (d : Nat) (f : Fld) (n : Nat) : (s.addHold d f n).host = s.host := rfl
@[simp] theorem Device.addHold_latch (s : Device) (d : Nat) (f : Fld) (n : Nat) : (s.addHold d f n).latch = s.latch := rfl
@[simp] theorem Device.addHold_link (s : Device) (d : Nat) (f : Fld) (n : Nat) : (s.addHold d f n).link = s.link := rfl
@[simp] theorem Device.addHold_att (s : Device) (d : Nat) (f : Fld) (n : Nat) : (s.addHold d f n).att = s.att := rfl
@[simp] theorem Device.addHold_chunks (s : Device) (d : Nat) (f : Fld) (n : Nat) : (s.addHold d f n).chunks = s.chunks := rfl
@[simp] theorem Device.addHold_coll (s : Device) (d : Nat) (f : Fld) (n : Nat) : (s.addHold d f n).coll = s.coll := rfl
@[simp] theorem Device.addHold_fusion (s : Device) (d : Nat) (f : Fld) (n : Nat) : (s.addHold d f n).fusion = s.fusion := rfl
@[simp] theorem Device.addHold_collide (s : Device) (d : Nat) (f : Fld) (n : Nat) : (s.addHold d f n).collide = s.collide := rfl
@[simp] theorem Device.addHold_solve (s : Device) (d : Nat) (f : Fld) (n : Nat) : (s.addHold d f n).solve = s.solve := rfl
@[simp] theorem Device.addHold_ctrl (s : Device) (d : Nat) (f : Fld) (n : Nat) : (s.addHold d f n).ctrl = s.ctrl := rfl
@[simp] theorem Device.addHold_lsio (s : Device) (d : Nat) (f : Fld) (n : Nat) : (s.addHold d f n).lsio = s.lsio := rfl
@[simp] theorem Device.addHold_oliner (s : Device) (d : Nat) (f : Fld) (n : Nat) : (s.addHold d f n).oliner = s.oliner := rfl
@[simp] theorem Device.addHold_selfTest (s : Device) (d : Nat) (f : Fld) (n : Nat) : (s.addHold d f n).selfTest = s.selfTest := rfl
@[simp] theorem Device.addHold_bask (s : Device) (d : Nat) (f : Fld) (n : Nat) : (s.addHold d f n).bask = s.bask := rfl
@[simp] theorem Device.addHold_eft (s : Device) (d : Nat) (f : Fld) (n : Nat) : (s.addHold d f n).eft = s.eft := rfl
@[simp] theorem Device.addHold_probe (s : Device) (d : Nat) (f : Fld) (n : Nat) : (s.addHold d f n).probe = s.probe := rfl
@[simp] theorem Device.addHold_enet (s : Device) (d : Nat) (f : Fld) (n : Nat) : (s.addHold d f n).enet = s.enet := rfl
@[simp] theorem Device.addHold_regReqs (s : Device) (d : Nat) (f : Fld) (n : Nat) : (s.addHold d f n).regReqs = s.regReqs := rfl

@[simp] theorem Device.emit_regs (s : Device) (m : Msg) : (s.emit m).regs = s.regs := rfl
@[simp] theorem Device.emit_mem (s : Device) (m : Msg) : (s.emit m).mem = s.mem := rfl
@[simp] theorem Device.emit_chorus (s : Device) (m : Msg) : (s.emit m).chorus = s.chorus := rfl
@[simp] theorem Device.emit_pond (s : Device) (m : Msg) : (s.emit m).pond = s.pond := rfl
@[simp] theorem Device.emit_xlate (s : Device) (m : Msg) : (s.emit m).xlate = s.xlate := rfl
@[simp] theorem Device.emit_disp (s : Device) (m : Msg) : (s.emit m).disp = s.disp := rfl
@[simp] theorem Device.emit_regul (s : Device) (m : Msg) : (s.emit m).regul = s.regul := rfl
@[simp] theorem Device.emit_err (s : Device) (m : Msg) : (s.emit m).err = s.err := rfl
@[simp] theorem Device.emit_edgeWrites (s : Device) (m : Msg) : (s.emit m).edgeWrites = s.edgeWrites := rfl
@[simp] theorem Device.emit_reply (s : Device) (m : Msg) : (s.emit m).reply = s.reply := rfl
@[simp] theorem Device.emit_fresh (s : Device) (m : Msg) : (s.emit m).fresh = s.fresh := rfl
@[simp] theorem Device.emit_safety (s : Device) (m : Msg) : (s.emit m).safety = s.safety := rfl
@[simp] theorem Device.emit_pcie (s : Device) (m : Msg) : (s.emit m).pcie = s.pcie := rfl
@[simp] theorem Device.emit_host (s : Device) (m : Msg) : (s.emit m).host = s.host := rfl
@[simp] theorem Device.emit_latch (s : Device) (m : Msg) : (s.emit m).latch = s.latch := rfl
@[simp] theorem Device.emit_link (s : Device) (m : Msg) : (s.emit m).link = s.link := rfl
@[simp] theorem Device.emit_att (s : Device) (m : Msg) : (s.emit m).att = s.att := rfl
@[simp] theorem Device.emit_chunks (s : Device) (m : Msg) : (s.emit m).chunks = s.chunks := rfl
@[simp] theorem Device.emit_coll (s : Device) (m : Msg) : (s.emit m).coll = s.coll := rfl
@[simp] theorem Device.emit_fusion (s : Device) (m : Msg) : (s.emit m).fusion = s.fusion := rfl
@[simp] theorem Device.emit_collide (s : Device) (m : Msg) : (s.emit m).collide = s.collide := rfl
@[simp] theorem Device.emit_solve (s : Device) (m : Msg) : (s.emit m).solve = s.solve := rfl
@[simp] theorem Device.emit_ctrl (s : Device) (m : Msg) : (s.emit m).ctrl = s.ctrl := rfl
@[simp] theorem Device.emit_lsio (s : Device) (m : Msg) : (s.emit m).lsio = s.lsio := rfl
@[simp] theorem Device.emit_oliner (s : Device) (m : Msg) : (s.emit m).oliner = s.oliner := rfl
@[simp] theorem Device.emit_selfTest (s : Device) (m : Msg) : (s.emit m).selfTest = s.selfTest := rfl
@[simp] theorem Device.emit_bask (s : Device) (m : Msg) : (s.emit m).bask = s.bask := rfl
@[simp] theorem Device.emit_eft (s : Device) (m : Msg) : (s.emit m).eft = s.eft := rfl
@[simp] theorem Device.emit_probe (s : Device) (m : Msg) : (s.emit m).probe = s.probe := rfl
@[simp] theorem Device.emit_enet (s : Device) (m : Msg) : (s.emit m).enet = s.enet := rfl
@[simp] theorem Device.emit_regReqs (s : Device) (m : Msg) : (s.emit m).regReqs = s.regReqs := rfl

@[simp] theorem Device.answer_regs (s : Device) (a b : Nat) : (s.answer a b).regs = s.regs := rfl
@[simp] theorem Device.answer_mem (s : Device) (a b : Nat) : (s.answer a b).mem = s.mem := rfl
@[simp] theorem Device.answer_chorus (s : Device) (a b : Nat) : (s.answer a b).chorus = s.chorus := rfl
@[simp] theorem Device.answer_pond (s : Device) (a b : Nat) : (s.answer a b).pond = s.pond := rfl
@[simp] theorem Device.answer_xlate (s : Device) (a b : Nat) : (s.answer a b).xlate = s.xlate := rfl
@[simp] theorem Device.answer_disp (s : Device) (a b : Nat) : (s.answer a b).disp = s.disp := rfl
@[simp] theorem Device.answer_regul (s : Device) (a b : Nat) : (s.answer a b).regul = s.regul := rfl
@[simp] theorem Device.answer_err (s : Device) (a b : Nat) : (s.answer a b).err = s.err := rfl
@[simp] theorem Device.answer_edgeWrites (s : Device) (a b : Nat) : (s.answer a b).edgeWrites = s.edgeWrites := rfl
@[simp] theorem Device.answer_out (s : Device) (a b : Nat) : (s.answer a b).out = s.out := rfl
@[simp] theorem Device.answer_fresh (s : Device) (a b : Nat) : (s.answer a b).fresh = s.fresh := rfl
@[simp] theorem Device.answer_safety (s : Device) (a b : Nat) : (s.answer a b).safety = s.safety := rfl
@[simp] theorem Device.answer_pcie (s : Device) (a b : Nat) : (s.answer a b).pcie = s.pcie := rfl
@[simp] theorem Device.answer_host (s : Device) (a b : Nat) : (s.answer a b).host = s.host := rfl
@[simp] theorem Device.answer_latch (s : Device) (a b : Nat) : (s.answer a b).latch = s.latch := rfl
@[simp] theorem Device.answer_link (s : Device) (a b : Nat) : (s.answer a b).link = s.link := rfl
@[simp] theorem Device.answer_att (s : Device) (a b : Nat) : (s.answer a b).att = s.att := rfl
@[simp] theorem Device.answer_chunks (s : Device) (a b : Nat) : (s.answer a b).chunks = s.chunks := rfl
@[simp] theorem Device.answer_coll (s : Device) (a b : Nat) : (s.answer a b).coll = s.coll := rfl
@[simp] theorem Device.answer_fusion (s : Device) (a b : Nat) : (s.answer a b).fusion = s.fusion := rfl
@[simp] theorem Device.answer_collide (s : Device) (a b : Nat) : (s.answer a b).collide = s.collide := rfl
@[simp] theorem Device.answer_solve (s : Device) (a b : Nat) : (s.answer a b).solve = s.solve := rfl
@[simp] theorem Device.answer_ctrl (s : Device) (a b : Nat) : (s.answer a b).ctrl = s.ctrl := rfl
@[simp] theorem Device.answer_lsio (s : Device) (a b : Nat) : (s.answer a b).lsio = s.lsio := rfl
@[simp] theorem Device.answer_oliner (s : Device) (a b : Nat) : (s.answer a b).oliner = s.oliner := rfl
@[simp] theorem Device.answer_selfTest (s : Device) (a b : Nat) : (s.answer a b).selfTest = s.selfTest := rfl
@[simp] theorem Device.answer_bask (s : Device) (a b : Nat) : (s.answer a b).bask = s.bask := rfl
@[simp] theorem Device.answer_eft (s : Device) (a b : Nat) : (s.answer a b).eft = s.eft := rfl
@[simp] theorem Device.answer_probe (s : Device) (a b : Nat) : (s.answer a b).probe = s.probe := rfl
@[simp] theorem Device.answer_enet (s : Device) (a b : Nat) : (s.answer a b).enet = s.enet := rfl
@[simp] theorem Device.answer_regReqs (s : Device) (a b : Nat) : (s.answer a b).regReqs = s.regReqs := rfl

@[simp] theorem Device.setByte_regs (s : Device) (a v : Nat) : (s.setByte a v).regs = s.regs := rfl
@[simp] theorem Device.setByte_chorus (s : Device) (a v : Nat) : (s.setByte a v).chorus = s.chorus := rfl
@[simp] theorem Device.setByte_pond (s : Device) (a v : Nat) : (s.setByte a v).pond = s.pond := rfl
@[simp] theorem Device.setByte_xlate (s : Device) (a v : Nat) : (s.setByte a v).xlate = s.xlate := rfl
@[simp] theorem Device.setByte_disp (s : Device) (a v : Nat) : (s.setByte a v).disp = s.disp := rfl
@[simp] theorem Device.setByte_regul (s : Device) (a v : Nat) : (s.setByte a v).regul = s.regul := rfl
@[simp] theorem Device.setByte_err (s : Device) (a v : Nat) : (s.setByte a v).err = s.err := rfl
@[simp] theorem Device.setByte_edgeWrites (s : Device) (a v : Nat) : (s.setByte a v).edgeWrites = s.edgeWrites := rfl
@[simp] theorem Device.setByte_reply (s : Device) (a v : Nat) : (s.setByte a v).reply = s.reply := rfl
@[simp] theorem Device.setByte_out (s : Device) (a v : Nat) : (s.setByte a v).out = s.out := rfl
@[simp] theorem Device.setByte_fresh (s : Device) (a v : Nat) : (s.setByte a v).fresh = s.fresh := rfl
@[simp] theorem Device.setByte_safety (s : Device) (a v : Nat) : (s.setByte a v).safety = s.safety := rfl
@[simp] theorem Device.setByte_pcie (s : Device) (a v : Nat) : (s.setByte a v).pcie = s.pcie := rfl
@[simp] theorem Device.setByte_host (s : Device) (a v : Nat) : (s.setByte a v).host = s.host := rfl
@[simp] theorem Device.setByte_latch (s : Device) (a v : Nat) : (s.setByte a v).latch = s.latch := rfl
@[simp] theorem Device.setByte_link (s : Device) (a v : Nat) : (s.setByte a v).link = s.link := rfl
@[simp] theorem Device.setByte_att (s : Device) (a v : Nat) : (s.setByte a v).att = s.att := rfl
@[simp] theorem Device.setByte_chunks (s : Device) (a v : Nat) : (s.setByte a v).chunks = s.chunks := rfl
@[simp] theorem Device.setByte_coll (s : Device) (a v : Nat) : (s.setByte a v).coll = s.coll := rfl
@[simp] theorem Device.setByte_fusion (s : Device) (a v : Nat) : (s.setByte a v).fusion = s.fusion := rfl
@[simp] theorem Device.setByte_collide (s : Device) (a v : Nat) : (s.setByte a v).collide = s.collide := rfl
@[simp] theorem Device.setByte_solve (s : Device) (a v : Nat) : (s.setByte a v).solve = s.solve := rfl
@[simp] theorem Device.setByte_ctrl (s : Device) (a v : Nat) : (s.setByte a v).ctrl = s.ctrl := rfl
@[simp] theorem Device.setByte_lsio (s : Device) (a v : Nat) : (s.setByte a v).lsio = s.lsio := rfl
@[simp] theorem Device.setByte_oliner (s : Device) (a v : Nat) : (s.setByte a v).oliner = s.oliner := rfl
@[simp] theorem Device.setByte_selfTest (s : Device) (a v : Nat) : (s.setByte a v).selfTest = s.selfTest := rfl
@[simp] theorem Device.setByte_bask (s : Device) (a v : Nat) : (s.setByte a v).bask = s.bask := rfl
@[simp] theorem Device.setByte_eft (s : Device) (a v : Nat) : (s.setByte a v).eft = s.eft := rfl
@[simp] theorem Device.setByte_probe (s : Device) (a v : Nat) : (s.setByte a v).probe = s.probe := rfl
@[simp] theorem Device.setByte_enet (s : Device) (a v : Nat) : (s.setByte a v).enet = s.enet := rfl
@[simp] theorem Device.setByte_regReqs (s : Device) (a v : Nat) : (s.setByte a v).regReqs = s.regReqs := rfl

@[simp] theorem Device.canon_regs (s : Device) : s.canon.regs = s.regs := rfl
@[simp] theorem Device.canon_chorus (s : Device) : s.canon.chorus = s.chorus := rfl
@[simp] theorem Device.canon_pond (s : Device) : s.canon.pond = s.pond := rfl
@[simp] theorem Device.canon_xlate (s : Device) : s.canon.xlate = s.xlate := rfl
@[simp] theorem Device.canon_disp (s : Device) : s.canon.disp = s.disp := rfl
@[simp] theorem Device.canon_regul (s : Device) : s.canon.regul = s.regul := rfl
@[simp] theorem Device.canon_err (s : Device) : s.canon.err = s.err := rfl
@[simp] theorem Device.canon_edgeWrites (s : Device) : s.canon.edgeWrites = s.edgeWrites := rfl
@[simp] theorem Device.canon_reply (s : Device) : s.canon.reply = s.reply := rfl
@[simp] theorem Device.canon_out (s : Device) : s.canon.out = s.out := rfl
@[simp] theorem Device.canon_fresh (s : Device) : s.canon.fresh = s.fresh := rfl
@[simp] theorem Device.canon_safety (s : Device) : s.canon.safety = s.safety := rfl
@[simp] theorem Device.canon_pcie (s : Device) : s.canon.pcie = s.pcie := rfl
@[simp] theorem Device.canon_host (s : Device) : s.canon.host = s.host := rfl
@[simp] theorem Device.canon_latch (s : Device) : s.canon.latch = s.latch := rfl
@[simp] theorem Device.canon_link (s : Device) : s.canon.link = s.link := rfl
@[simp] theorem Device.canon_att (s : Device) : s.canon.att = s.att := rfl
@[simp] theorem Device.canon_chunks (s : Device) : s.canon.chunks = s.chunks := rfl
@[simp] theorem Device.canon_coll (s : Device) : s.canon.coll = s.coll := rfl
@[simp] theorem Device.canon_fusion (s : Device) : s.canon.fusion = s.fusion := rfl
@[simp] theorem Device.canon_collide (s : Device) : s.canon.collide = s.collide := rfl
@[simp] theorem Device.canon_solve (s : Device) : s.canon.solve = s.solve := rfl
@[simp] theorem Device.canon_ctrl (s : Device) : s.canon.ctrl = s.ctrl := rfl
@[simp] theorem Device.canon_lsio (s : Device) : s.canon.lsio = s.lsio := rfl
@[simp] theorem Device.canon_oliner (s : Device) : s.canon.oliner = s.oliner := rfl
@[simp] theorem Device.canon_selfTest (s : Device) : s.canon.selfTest = s.selfTest := rfl
@[simp] theorem Device.canon_bask (s : Device) : s.canon.bask = s.bask := rfl
@[simp] theorem Device.canon_eft (s : Device) : s.canon.eft = s.eft := rfl
@[simp] theorem Device.canon_probe (s : Device) : s.canon.probe = s.probe := rfl
@[simp] theorem Device.canon_enet (s : Device) : s.canon.enet = s.enet := rfl
@[simp] theorem Device.canon_regReqs (s : Device) : s.canon.regReqs = s.regReqs := rfl

@[simp] theorem Device.setIsland_regs (s : Device) (i : Nat) (x : Island) : (s.setIsland i x).regs = s.regs := rfl
@[simp] theorem Device.setIsland_mem (s : Device) (i : Nat) (x : Island) : (s.setIsland i x).mem = s.mem := rfl
@[simp] theorem Device.setIsland_chorus (s : Device) (i : Nat) (x : Island) : (s.setIsland i x).chorus = s.chorus := rfl
@[simp] theorem Device.setIsland_pond (s : Device) (i : Nat) (x : Island) : (s.setIsland i x).pond = s.pond := rfl
@[simp] theorem Device.setIsland_xlate (s : Device) (i : Nat) (x : Island) : (s.setIsland i x).xlate = s.xlate := rfl
@[simp] theorem Device.setIsland_disp (s : Device) (i : Nat) (x : Island) : (s.setIsland i x).disp = s.disp := rfl
@[simp] theorem Device.setIsland_regul (s : Device) (i : Nat) (x : Island) : (s.setIsland i x).regul = s.regul := rfl
@[simp] theorem Device.setIsland_err (s : Device) (i : Nat) (x : Island) : (s.setIsland i x).err = s.err := rfl
@[simp] theorem Device.setIsland_edgeWrites (s : Device) (i : Nat) (x : Island) : (s.setIsland i x).edgeWrites = s.edgeWrites := rfl
@[simp] theorem Device.setIsland_reply (s : Device) (i : Nat) (x : Island) : (s.setIsland i x).reply = s.reply := rfl
@[simp] theorem Device.setIsland_out (s : Device) (i : Nat) (x : Island) : (s.setIsland i x).out = s.out := rfl
@[simp] theorem Device.setIsland_fresh (s : Device) (i : Nat) (x : Island) : (s.setIsland i x).fresh = s.fresh := rfl
@[simp] theorem Device.setIsland_pcie (s : Device) (i : Nat) (x : Island) : (s.setIsland i x).pcie = s.pcie := rfl
@[simp] theorem Device.setIsland_host (s : Device) (i : Nat) (x : Island) : (s.setIsland i x).host = s.host := rfl
@[simp] theorem Device.setIsland_latch (s : Device) (i : Nat) (x : Island) : (s.setIsland i x).latch = s.latch := rfl
@[simp] theorem Device.setIsland_link (s : Device) (i : Nat) (x : Island) : (s.setIsland i x).link = s.link := rfl
@[simp] theorem Device.setIsland_att (s : Device) (i : Nat) (x : Island) : (s.setIsland i x).att = s.att := rfl
@[simp] theorem Device.setIsland_chunks (s : Device) (i : Nat) (x : Island) : (s.setIsland i x).chunks = s.chunks := rfl
@[simp] theorem Device.setIsland_coll (s : Device) (i : Nat) (x : Island) : (s.setIsland i x).coll = s.coll := rfl
@[simp] theorem Device.setIsland_fusion (s : Device) (i : Nat) (x : Island) : (s.setIsland i x).fusion = s.fusion := rfl
@[simp] theorem Device.setIsland_collide (s : Device) (i : Nat) (x : Island) : (s.setIsland i x).collide = s.collide := rfl
@[simp] theorem Device.setIsland_solve (s : Device) (i : Nat) (x : Island) : (s.setIsland i x).solve = s.solve := rfl
@[simp] theorem Device.setIsland_ctrl (s : Device) (i : Nat) (x : Island) : (s.setIsland i x).ctrl = s.ctrl := rfl
@[simp] theorem Device.setIsland_lsio (s : Device) (i : Nat) (x : Island) : (s.setIsland i x).lsio = s.lsio := rfl
@[simp] theorem Device.setIsland_oliner (s : Device) (i : Nat) (x : Island) : (s.setIsland i x).oliner = s.oliner := rfl
@[simp] theorem Device.setIsland_selfTest (s : Device) (i : Nat) (x : Island) : (s.setIsland i x).selfTest = s.selfTest := rfl
@[simp] theorem Device.setIsland_bask (s : Device) (i : Nat) (x : Island) : (s.setIsland i x).bask = s.bask := rfl
@[simp] theorem Device.setIsland_eft (s : Device) (i : Nat) (x : Island) : (s.setIsland i x).eft = s.eft := rfl
@[simp] theorem Device.setIsland_probe (s : Device) (i : Nat) (x : Island) : (s.setIsland i x).probe = s.probe := rfl
@[simp] theorem Device.setIsland_enet (s : Device) (i : Nat) (x : Island) : (s.setIsland i x).enet = s.enet := rfl
@[simp] theorem Device.setIsland_regReqs (s : Device) (i : Nat) (x : Island) : (s.setIsland i x).regReqs = s.regReqs := rfl

@[simp] theorem Device.setRing_regs (s : Device) (g : Nat) (x : Ring) : (s.setRing g x).regs = s.regs := rfl
@[simp] theorem Device.setRing_mem (s : Device) (g : Nat) (x : Ring) : (s.setRing g x).mem = s.mem := rfl
@[simp] theorem Device.setRing_chorus (s : Device) (g : Nat) (x : Ring) : (s.setRing g x).chorus = s.chorus := rfl
@[simp] theorem Device.setRing_pond (s : Device) (g : Nat) (x : Ring) : (s.setRing g x).pond = s.pond := rfl
@[simp] theorem Device.setRing_xlate (s : Device) (g : Nat) (x : Ring) : (s.setRing g x).xlate = s.xlate := rfl
@[simp] theorem Device.setRing_regul (s : Device) (g : Nat) (x : Ring) : (s.setRing g x).regul = s.regul := rfl
@[simp] theorem Device.setRing_err (s : Device) (g : Nat) (x : Ring) : (s.setRing g x).err = s.err := rfl
@[simp] theorem Device.setRing_edgeWrites (s : Device) (g : Nat) (x : Ring) : (s.setRing g x).edgeWrites = s.edgeWrites := rfl
@[simp] theorem Device.setRing_reply (s : Device) (g : Nat) (x : Ring) : (s.setRing g x).reply = s.reply := rfl
@[simp] theorem Device.setRing_out (s : Device) (g : Nat) (x : Ring) : (s.setRing g x).out = s.out := rfl
@[simp] theorem Device.setRing_fresh (s : Device) (g : Nat) (x : Ring) : (s.setRing g x).fresh = s.fresh := rfl
@[simp] theorem Device.setRing_safety (s : Device) (g : Nat) (x : Ring) : (s.setRing g x).safety = s.safety := rfl
@[simp] theorem Device.setRing_pcie (s : Device) (g : Nat) (x : Ring) : (s.setRing g x).pcie = s.pcie := rfl
@[simp] theorem Device.setRing_host (s : Device) (g : Nat) (x : Ring) : (s.setRing g x).host = s.host := rfl
@[simp] theorem Device.setRing_latch (s : Device) (g : Nat) (x : Ring) : (s.setRing g x).latch = s.latch := rfl
@[simp] theorem Device.setRing_link (s : Device) (g : Nat) (x : Ring) : (s.setRing g x).link = s.link := rfl
@[simp] theorem Device.setRing_att (s : Device) (g : Nat) (x : Ring) : (s.setRing g x).att = s.att := rfl
@[simp] theorem Device.setRing_chunks (s : Device) (g : Nat) (x : Ring) : (s.setRing g x).chunks = s.chunks := rfl
@[simp] theorem Device.setRing_coll (s : Device) (g : Nat) (x : Ring) : (s.setRing g x).coll = s.coll := rfl
@[simp] theorem Device.setRing_fusion (s : Device) (g : Nat) (x : Ring) : (s.setRing g x).fusion = s.fusion := rfl
@[simp] theorem Device.setRing_collide (s : Device) (g : Nat) (x : Ring) : (s.setRing g x).collide = s.collide := rfl
@[simp] theorem Device.setRing_solve (s : Device) (g : Nat) (x : Ring) : (s.setRing g x).solve = s.solve := rfl
@[simp] theorem Device.setRing_ctrl (s : Device) (g : Nat) (x : Ring) : (s.setRing g x).ctrl = s.ctrl := rfl
@[simp] theorem Device.setRing_lsio (s : Device) (g : Nat) (x : Ring) : (s.setRing g x).lsio = s.lsio := rfl
@[simp] theorem Device.setRing_oliner (s : Device) (g : Nat) (x : Ring) : (s.setRing g x).oliner = s.oliner := rfl
@[simp] theorem Device.setRing_selfTest (s : Device) (g : Nat) (x : Ring) : (s.setRing g x).selfTest = s.selfTest := rfl
@[simp] theorem Device.setRing_bask (s : Device) (g : Nat) (x : Ring) : (s.setRing g x).bask = s.bask := rfl
@[simp] theorem Device.setRing_eft (s : Device) (g : Nat) (x : Ring) : (s.setRing g x).eft = s.eft := rfl
@[simp] theorem Device.setRing_probe (s : Device) (g : Nat) (x : Ring) : (s.setRing g x).probe = s.probe := rfl
@[simp] theorem Device.setRing_enet (s : Device) (g : Nat) (x : Ring) : (s.setRing g x).enet = s.enet := rfl
@[simp] theorem Device.setRing_regReqs (s : Device) (g : Nat) (x : Ring) : (s.setRing g x).regReqs = s.regReqs := rfl

@[simp] theorem Device.setJob_regs (s : Device) (j : Nat) (x : Job) : (s.setJob j x).regs = s.regs := rfl
@[simp] theorem Device.setJob_mem (s : Device) (j : Nat) (x : Job) : (s.setJob j x).mem = s.mem := rfl
@[simp] theorem Device.setJob_chorus (s : Device) (j : Nat) (x : Job) : (s.setJob j x).chorus = s.chorus := rfl
@[simp] theorem Device.setJob_pond (s : Device) (j : Nat) (x : Job) : (s.setJob j x).pond = s.pond := rfl
@[simp] theorem Device.setJob_xlate (s : Device) (j : Nat) (x : Job) : (s.setJob j x).xlate = s.xlate := rfl
@[simp] theorem Device.setJob_regul (s : Device) (j : Nat) (x : Job) : (s.setJob j x).regul = s.regul := rfl
@[simp] theorem Device.setJob_err (s : Device) (j : Nat) (x : Job) : (s.setJob j x).err = s.err := rfl
@[simp] theorem Device.setJob_edgeWrites (s : Device) (j : Nat) (x : Job) : (s.setJob j x).edgeWrites = s.edgeWrites := rfl
@[simp] theorem Device.setJob_reply (s : Device) (j : Nat) (x : Job) : (s.setJob j x).reply = s.reply := rfl
@[simp] theorem Device.setJob_out (s : Device) (j : Nat) (x : Job) : (s.setJob j x).out = s.out := rfl
@[simp] theorem Device.setJob_fresh (s : Device) (j : Nat) (x : Job) : (s.setJob j x).fresh = s.fresh := rfl
@[simp] theorem Device.setJob_safety (s : Device) (j : Nat) (x : Job) : (s.setJob j x).safety = s.safety := rfl
@[simp] theorem Device.setJob_pcie (s : Device) (j : Nat) (x : Job) : (s.setJob j x).pcie = s.pcie := rfl
@[simp] theorem Device.setJob_host (s : Device) (j : Nat) (x : Job) : (s.setJob j x).host = s.host := rfl
@[simp] theorem Device.setJob_latch (s : Device) (j : Nat) (x : Job) : (s.setJob j x).latch = s.latch := rfl
@[simp] theorem Device.setJob_link (s : Device) (j : Nat) (x : Job) : (s.setJob j x).link = s.link := rfl
@[simp] theorem Device.setJob_att (s : Device) (j : Nat) (x : Job) : (s.setJob j x).att = s.att := rfl
@[simp] theorem Device.setJob_chunks (s : Device) (j : Nat) (x : Job) : (s.setJob j x).chunks = s.chunks := rfl
@[simp] theorem Device.setJob_coll (s : Device) (j : Nat) (x : Job) : (s.setJob j x).coll = s.coll := rfl
@[simp] theorem Device.setJob_fusion (s : Device) (j : Nat) (x : Job) : (s.setJob j x).fusion = s.fusion := rfl
@[simp] theorem Device.setJob_collide (s : Device) (j : Nat) (x : Job) : (s.setJob j x).collide = s.collide := rfl
@[simp] theorem Device.setJob_solve (s : Device) (j : Nat) (x : Job) : (s.setJob j x).solve = s.solve := rfl
@[simp] theorem Device.setJob_ctrl (s : Device) (j : Nat) (x : Job) : (s.setJob j x).ctrl = s.ctrl := rfl
@[simp] theorem Device.setJob_lsio (s : Device) (j : Nat) (x : Job) : (s.setJob j x).lsio = s.lsio := rfl
@[simp] theorem Device.setJob_oliner (s : Device) (j : Nat) (x : Job) : (s.setJob j x).oliner = s.oliner := rfl
@[simp] theorem Device.setJob_selfTest (s : Device) (j : Nat) (x : Job) : (s.setJob j x).selfTest = s.selfTest := rfl
@[simp] theorem Device.setJob_bask (s : Device) (j : Nat) (x : Job) : (s.setJob j x).bask = s.bask := rfl
@[simp] theorem Device.setJob_eft (s : Device) (j : Nat) (x : Job) : (s.setJob j x).eft = s.eft := rfl
@[simp] theorem Device.setJob_probe (s : Device) (j : Nat) (x : Job) : (s.setJob j x).probe = s.probe := rfl
@[simp] theorem Device.setJob_enet (s : Device) (j : Nat) (x : Job) : (s.setJob j x).enet = s.enet := rfl
@[simp] theorem Device.setJob_regReqs (s : Device) (j : Nat) (x : Job) : (s.setJob j x).regReqs = s.regReqs := rfl

@[simp] theorem Device.setCmd_regs (s : Device) (c : Nat) (x : Option CoreCmd) : (s.setCmd c x).regs = s.regs := rfl
@[simp] theorem Device.setCmd_mem (s : Device) (c : Nat) (x : Option CoreCmd) : (s.setCmd c x).mem = s.mem := rfl
@[simp] theorem Device.setCmd_chorus (s : Device) (c : Nat) (x : Option CoreCmd) : (s.setCmd c x).chorus = s.chorus := rfl
@[simp] theorem Device.setCmd_pond (s : Device) (c : Nat) (x : Option CoreCmd) : (s.setCmd c x).pond = s.pond := rfl
@[simp] theorem Device.setCmd_xlate (s : Device) (c : Nat) (x : Option CoreCmd) : (s.setCmd c x).xlate = s.xlate := rfl
@[simp] theorem Device.setCmd_regul (s : Device) (c : Nat) (x : Option CoreCmd) : (s.setCmd c x).regul = s.regul := rfl
@[simp] theorem Device.setCmd_err (s : Device) (c : Nat) (x : Option CoreCmd) : (s.setCmd c x).err = s.err := rfl
@[simp] theorem Device.setCmd_edgeWrites (s : Device) (c : Nat) (x : Option CoreCmd) : (s.setCmd c x).edgeWrites = s.edgeWrites := rfl
@[simp] theorem Device.setCmd_reply (s : Device) (c : Nat) (x : Option CoreCmd) : (s.setCmd c x).reply = s.reply := rfl
@[simp] theorem Device.setCmd_out (s : Device) (c : Nat) (x : Option CoreCmd) : (s.setCmd c x).out = s.out := rfl
@[simp] theorem Device.setCmd_fresh (s : Device) (c : Nat) (x : Option CoreCmd) : (s.setCmd c x).fresh = s.fresh := rfl
@[simp] theorem Device.setCmd_safety (s : Device) (c : Nat) (x : Option CoreCmd) : (s.setCmd c x).safety = s.safety := rfl
@[simp] theorem Device.setCmd_pcie (s : Device) (c : Nat) (x : Option CoreCmd) : (s.setCmd c x).pcie = s.pcie := rfl
@[simp] theorem Device.setCmd_host (s : Device) (c : Nat) (x : Option CoreCmd) : (s.setCmd c x).host = s.host := rfl
@[simp] theorem Device.setCmd_latch (s : Device) (c : Nat) (x : Option CoreCmd) : (s.setCmd c x).latch = s.latch := rfl
@[simp] theorem Device.setCmd_link (s : Device) (c : Nat) (x : Option CoreCmd) : (s.setCmd c x).link = s.link := rfl
@[simp] theorem Device.setCmd_att (s : Device) (c : Nat) (x : Option CoreCmd) : (s.setCmd c x).att = s.att := rfl
@[simp] theorem Device.setCmd_chunks (s : Device) (c : Nat) (x : Option CoreCmd) : (s.setCmd c x).chunks = s.chunks := rfl
@[simp] theorem Device.setCmd_coll (s : Device) (c : Nat) (x : Option CoreCmd) : (s.setCmd c x).coll = s.coll := rfl
@[simp] theorem Device.setCmd_fusion (s : Device) (c : Nat) (x : Option CoreCmd) : (s.setCmd c x).fusion = s.fusion := rfl
@[simp] theorem Device.setCmd_collide (s : Device) (c : Nat) (x : Option CoreCmd) : (s.setCmd c x).collide = s.collide := rfl
@[simp] theorem Device.setCmd_solve (s : Device) (c : Nat) (x : Option CoreCmd) : (s.setCmd c x).solve = s.solve := rfl
@[simp] theorem Device.setCmd_ctrl (s : Device) (c : Nat) (x : Option CoreCmd) : (s.setCmd c x).ctrl = s.ctrl := rfl
@[simp] theorem Device.setCmd_lsio (s : Device) (c : Nat) (x : Option CoreCmd) : (s.setCmd c x).lsio = s.lsio := rfl
@[simp] theorem Device.setCmd_oliner (s : Device) (c : Nat) (x : Option CoreCmd) : (s.setCmd c x).oliner = s.oliner := rfl
@[simp] theorem Device.setCmd_selfTest (s : Device) (c : Nat) (x : Option CoreCmd) : (s.setCmd c x).selfTest = s.selfTest := rfl
@[simp] theorem Device.setCmd_bask (s : Device) (c : Nat) (x : Option CoreCmd) : (s.setCmd c x).bask = s.bask := rfl
@[simp] theorem Device.setCmd_eft (s : Device) (c : Nat) (x : Option CoreCmd) : (s.setCmd c x).eft = s.eft := rfl
@[simp] theorem Device.setCmd_probe (s : Device) (c : Nat) (x : Option CoreCmd) : (s.setCmd c x).probe = s.probe := rfl
@[simp] theorem Device.setCmd_enet (s : Device) (c : Nat) (x : Option CoreCmd) : (s.setCmd c x).enet = s.enet := rfl
@[simp] theorem Device.setCmd_regReqs (s : Device) (c : Nat) (x : Option CoreCmd) : (s.setCmd c x).regReqs = s.regReqs := rfl

@[simp] theorem Device.setOlPort_regs (s : Device) (d : Nat) (x : OlPort) : (s.setOlPort d x).regs = s.regs := rfl
@[simp] theorem Device.setOlPort_mem (s : Device) (d : Nat) (x : OlPort) : (s.setOlPort d x).mem = s.mem := rfl
@[simp] theorem Device.setOlPort_chorus (s : Device) (d : Nat) (x : OlPort) : (s.setOlPort d x).chorus = s.chorus := rfl
@[simp] theorem Device.setOlPort_pond (s : Device) (d : Nat) (x : OlPort) : (s.setOlPort d x).pond = s.pond := rfl
@[simp] theorem Device.setOlPort_xlate (s : Device) (d : Nat) (x : OlPort) : (s.setOlPort d x).xlate = s.xlate := rfl
@[simp] theorem Device.setOlPort_disp (s : Device) (d : Nat) (x : OlPort) : (s.setOlPort d x).disp = s.disp := rfl
@[simp] theorem Device.setOlPort_regul (s : Device) (d : Nat) (x : OlPort) : (s.setOlPort d x).regul = s.regul := rfl
@[simp] theorem Device.setOlPort_err (s : Device) (d : Nat) (x : OlPort) : (s.setOlPort d x).err = s.err := rfl
@[simp] theorem Device.setOlPort_edgeWrites (s : Device) (d : Nat) (x : OlPort) : (s.setOlPort d x).edgeWrites = s.edgeWrites := rfl
@[simp] theorem Device.setOlPort_reply (s : Device) (d : Nat) (x : OlPort) : (s.setOlPort d x).reply = s.reply := rfl
@[simp] theorem Device.setOlPort_out (s : Device) (d : Nat) (x : OlPort) : (s.setOlPort d x).out = s.out := rfl
@[simp] theorem Device.setOlPort_fresh (s : Device) (d : Nat) (x : OlPort) : (s.setOlPort d x).fresh = s.fresh := rfl
@[simp] theorem Device.setOlPort_safety (s : Device) (d : Nat) (x : OlPort) : (s.setOlPort d x).safety = s.safety := rfl
@[simp] theorem Device.setOlPort_pcie (s : Device) (d : Nat) (x : OlPort) : (s.setOlPort d x).pcie = s.pcie := rfl
@[simp] theorem Device.setOlPort_host (s : Device) (d : Nat) (x : OlPort) : (s.setOlPort d x).host = s.host := rfl
@[simp] theorem Device.setOlPort_latch (s : Device) (d : Nat) (x : OlPort) : (s.setOlPort d x).latch = s.latch := rfl
@[simp] theorem Device.setOlPort_link (s : Device) (d : Nat) (x : OlPort) : (s.setOlPort d x).link = s.link := rfl
@[simp] theorem Device.setOlPort_att (s : Device) (d : Nat) (x : OlPort) : (s.setOlPort d x).att = s.att := rfl
@[simp] theorem Device.setOlPort_chunks (s : Device) (d : Nat) (x : OlPort) : (s.setOlPort d x).chunks = s.chunks := rfl
@[simp] theorem Device.setOlPort_coll (s : Device) (d : Nat) (x : OlPort) : (s.setOlPort d x).coll = s.coll := rfl
@[simp] theorem Device.setOlPort_fusion (s : Device) (d : Nat) (x : OlPort) : (s.setOlPort d x).fusion = s.fusion := rfl
@[simp] theorem Device.setOlPort_collide (s : Device) (d : Nat) (x : OlPort) : (s.setOlPort d x).collide = s.collide := rfl
@[simp] theorem Device.setOlPort_solve (s : Device) (d : Nat) (x : OlPort) : (s.setOlPort d x).solve = s.solve := rfl
@[simp] theorem Device.setOlPort_ctrl (s : Device) (d : Nat) (x : OlPort) : (s.setOlPort d x).ctrl = s.ctrl := rfl
@[simp] theorem Device.setOlPort_lsio (s : Device) (d : Nat) (x : OlPort) : (s.setOlPort d x).lsio = s.lsio := rfl
@[simp] theorem Device.setOlPort_selfTest (s : Device) (d : Nat) (x : OlPort) : (s.setOlPort d x).selfTest = s.selfTest := rfl
@[simp] theorem Device.setOlPort_bask (s : Device) (d : Nat) (x : OlPort) : (s.setOlPort d x).bask = s.bask := rfl
@[simp] theorem Device.setOlPort_eft (s : Device) (d : Nat) (x : OlPort) : (s.setOlPort d x).eft = s.eft := rfl
@[simp] theorem Device.setOlPort_probe (s : Device) (d : Nat) (x : OlPort) : (s.setOlPort d x).probe = s.probe := rfl
@[simp] theorem Device.setOlPort_enet (s : Device) (d : Nat) (x : OlPort) : (s.setOlPort d x).enet = s.enet := rfl
@[simp] theorem Device.setOlPort_regReqs (s : Device) (d : Nat) (x : OlPort) : (s.setOlPort d x).regReqs = s.regReqs := rfl

@[simp] theorem Device.setFaults_regs (s : Device) (l : List XFault) : (s.setFaults l).regs = s.regs := rfl
@[simp] theorem Device.setFaults_mem (s : Device) (l : List XFault) : (s.setFaults l).mem = s.mem := rfl
@[simp] theorem Device.setFaults_chorus (s : Device) (l : List XFault) : (s.setFaults l).chorus = s.chorus := rfl
@[simp] theorem Device.setFaults_pond (s : Device) (l : List XFault) : (s.setFaults l).pond = s.pond := rfl
@[simp] theorem Device.setFaults_disp (s : Device) (l : List XFault) : (s.setFaults l).disp = s.disp := rfl
@[simp] theorem Device.setFaults_regul (s : Device) (l : List XFault) : (s.setFaults l).regul = s.regul := rfl
@[simp] theorem Device.setFaults_err (s : Device) (l : List XFault) : (s.setFaults l).err = s.err := rfl
@[simp] theorem Device.setFaults_edgeWrites (s : Device) (l : List XFault) : (s.setFaults l).edgeWrites = s.edgeWrites := rfl
@[simp] theorem Device.setFaults_reply (s : Device) (l : List XFault) : (s.setFaults l).reply = s.reply := rfl
@[simp] theorem Device.setFaults_out (s : Device) (l : List XFault) : (s.setFaults l).out = s.out := rfl
@[simp] theorem Device.setFaults_fresh (s : Device) (l : List XFault) : (s.setFaults l).fresh = s.fresh := rfl
@[simp] theorem Device.setFaults_safety (s : Device) (l : List XFault) : (s.setFaults l).safety = s.safety := rfl
@[simp] theorem Device.setFaults_pcie (s : Device) (l : List XFault) : (s.setFaults l).pcie = s.pcie := rfl
@[simp] theorem Device.setFaults_host (s : Device) (l : List XFault) : (s.setFaults l).host = s.host := rfl
@[simp] theorem Device.setFaults_latch (s : Device) (l : List XFault) : (s.setFaults l).latch = s.latch := rfl
@[simp] theorem Device.setFaults_link (s : Device) (l : List XFault) : (s.setFaults l).link = s.link := rfl
@[simp] theorem Device.setFaults_att (s : Device) (l : List XFault) : (s.setFaults l).att = s.att := rfl
@[simp] theorem Device.setFaults_chunks (s : Device) (l : List XFault) : (s.setFaults l).chunks = s.chunks := rfl
@[simp] theorem Device.setFaults_coll (s : Device) (l : List XFault) : (s.setFaults l).coll = s.coll := rfl
@[simp] theorem Device.setFaults_fusion (s : Device) (l : List XFault) : (s.setFaults l).fusion = s.fusion := rfl
@[simp] theorem Device.setFaults_collide (s : Device) (l : List XFault) : (s.setFaults l).collide = s.collide := rfl
@[simp] theorem Device.setFaults_solve (s : Device) (l : List XFault) : (s.setFaults l).solve = s.solve := rfl
@[simp] theorem Device.setFaults_ctrl (s : Device) (l : List XFault) : (s.setFaults l).ctrl = s.ctrl := rfl
@[simp] theorem Device.setFaults_lsio (s : Device) (l : List XFault) : (s.setFaults l).lsio = s.lsio := rfl
@[simp] theorem Device.setFaults_oliner (s : Device) (l : List XFault) : (s.setFaults l).oliner = s.oliner := rfl
@[simp] theorem Device.setFaults_selfTest (s : Device) (l : List XFault) : (s.setFaults l).selfTest = s.selfTest := rfl
@[simp] theorem Device.setFaults_bask (s : Device) (l : List XFault) : (s.setFaults l).bask = s.bask := rfl
@[simp] theorem Device.setFaults_eft (s : Device) (l : List XFault) : (s.setFaults l).eft = s.eft := rfl
@[simp] theorem Device.setFaults_probe (s : Device) (l : List XFault) : (s.setFaults l).probe = s.probe := rfl
@[simp] theorem Device.setFaults_enet (s : Device) (l : List XFault) : (s.setFaults l).enet = s.enet := rfl
@[simp] theorem Device.setFaults_regReqs (s : Device) (l : List XFault) : (s.setFaults l).regReqs = s.regReqs := rfl

@[simp] theorem Device.setSlices_regs (s : Device) (l : List SliceRun) : (s.setSlices l).regs = s.regs := rfl
@[simp] theorem Device.setSlices_mem (s : Device) (l : List SliceRun) : (s.setSlices l).mem = s.mem := rfl
@[simp] theorem Device.setSlices_pond (s : Device) (l : List SliceRun) : (s.setSlices l).pond = s.pond := rfl
@[simp] theorem Device.setSlices_xlate (s : Device) (l : List SliceRun) : (s.setSlices l).xlate = s.xlate := rfl
@[simp] theorem Device.setSlices_disp (s : Device) (l : List SliceRun) : (s.setSlices l).disp = s.disp := rfl
@[simp] theorem Device.setSlices_regul (s : Device) (l : List SliceRun) : (s.setSlices l).regul = s.regul := rfl
@[simp] theorem Device.setSlices_err (s : Device) (l : List SliceRun) : (s.setSlices l).err = s.err := rfl
@[simp] theorem Device.setSlices_edgeWrites (s : Device) (l : List SliceRun) : (s.setSlices l).edgeWrites = s.edgeWrites := rfl
@[simp] theorem Device.setSlices_reply (s : Device) (l : List SliceRun) : (s.setSlices l).reply = s.reply := rfl
@[simp] theorem Device.setSlices_out (s : Device) (l : List SliceRun) : (s.setSlices l).out = s.out := rfl
@[simp] theorem Device.setSlices_fresh (s : Device) (l : List SliceRun) : (s.setSlices l).fresh = s.fresh := rfl
@[simp] theorem Device.setSlices_safety (s : Device) (l : List SliceRun) : (s.setSlices l).safety = s.safety := rfl
@[simp] theorem Device.setSlices_pcie (s : Device) (l : List SliceRun) : (s.setSlices l).pcie = s.pcie := rfl
@[simp] theorem Device.setSlices_host (s : Device) (l : List SliceRun) : (s.setSlices l).host = s.host := rfl
@[simp] theorem Device.setSlices_latch (s : Device) (l : List SliceRun) : (s.setSlices l).latch = s.latch := rfl
@[simp] theorem Device.setSlices_link (s : Device) (l : List SliceRun) : (s.setSlices l).link = s.link := rfl
@[simp] theorem Device.setSlices_att (s : Device) (l : List SliceRun) : (s.setSlices l).att = s.att := rfl
@[simp] theorem Device.setSlices_chunks (s : Device) (l : List SliceRun) : (s.setSlices l).chunks = s.chunks := rfl
@[simp] theorem Device.setSlices_coll (s : Device) (l : List SliceRun) : (s.setSlices l).coll = s.coll := rfl
@[simp] theorem Device.setSlices_fusion (s : Device) (l : List SliceRun) : (s.setSlices l).fusion = s.fusion := rfl
@[simp] theorem Device.setSlices_collide (s : Device) (l : List SliceRun) : (s.setSlices l).collide = s.collide := rfl
@[simp] theorem Device.setSlices_solve (s : Device) (l : List SliceRun) : (s.setSlices l).solve = s.solve := rfl
@[simp] theorem Device.setSlices_ctrl (s : Device) (l : List SliceRun) : (s.setSlices l).ctrl = s.ctrl := rfl
@[simp] theorem Device.setSlices_lsio (s : Device) (l : List SliceRun) : (s.setSlices l).lsio = s.lsio := rfl
@[simp] theorem Device.setSlices_oliner (s : Device) (l : List SliceRun) : (s.setSlices l).oliner = s.oliner := rfl
@[simp] theorem Device.setSlices_selfTest (s : Device) (l : List SliceRun) : (s.setSlices l).selfTest = s.selfTest := rfl
@[simp] theorem Device.setSlices_bask (s : Device) (l : List SliceRun) : (s.setSlices l).bask = s.bask := rfl
@[simp] theorem Device.setSlices_eft (s : Device) (l : List SliceRun) : (s.setSlices l).eft = s.eft := rfl
@[simp] theorem Device.setSlices_probe (s : Device) (l : List SliceRun) : (s.setSlices l).probe = s.probe := rfl
@[simp] theorem Device.setSlices_enet (s : Device) (l : List SliceRun) : (s.setSlices l).enet = s.enet := rfl
@[simp] theorem Device.setSlices_regReqs (s : Device) (l : List SliceRun) : (s.setSlices l).regReqs = s.regReqs := rfl

@[simp] theorem Device.setLsio_regs (s : Device) (x : LsioSt) : (s.setLsio x).regs = s.regs := rfl
@[simp] theorem Device.setLsio_mem (s : Device) (x : LsioSt) : (s.setLsio x).mem = s.mem := rfl
@[simp] theorem Device.setLsio_chorus (s : Device) (x : LsioSt) : (s.setLsio x).chorus = s.chorus := rfl
@[simp] theorem Device.setLsio_pond (s : Device) (x : LsioSt) : (s.setLsio x).pond = s.pond := rfl
@[simp] theorem Device.setLsio_xlate (s : Device) (x : LsioSt) : (s.setLsio x).xlate = s.xlate := rfl
@[simp] theorem Device.setLsio_disp (s : Device) (x : LsioSt) : (s.setLsio x).disp = s.disp := rfl
@[simp] theorem Device.setLsio_regul (s : Device) (x : LsioSt) : (s.setLsio x).regul = s.regul := rfl
@[simp] theorem Device.setLsio_err (s : Device) (x : LsioSt) : (s.setLsio x).err = s.err := rfl
@[simp] theorem Device.setLsio_edgeWrites (s : Device) (x : LsioSt) : (s.setLsio x).edgeWrites = s.edgeWrites := rfl
@[simp] theorem Device.setLsio_reply (s : Device) (x : LsioSt) : (s.setLsio x).reply = s.reply := rfl
@[simp] theorem Device.setLsio_out (s : Device) (x : LsioSt) : (s.setLsio x).out = s.out := rfl
@[simp] theorem Device.setLsio_fresh (s : Device) (x : LsioSt) : (s.setLsio x).fresh = s.fresh := rfl
@[simp] theorem Device.setLsio_safety (s : Device) (x : LsioSt) : (s.setLsio x).safety = s.safety := rfl
@[simp] theorem Device.setLsio_pcie (s : Device) (x : LsioSt) : (s.setLsio x).pcie = s.pcie := rfl
@[simp] theorem Device.setLsio_host (s : Device) (x : LsioSt) : (s.setLsio x).host = s.host := rfl
@[simp] theorem Device.setLsio_latch (s : Device) (x : LsioSt) : (s.setLsio x).latch = s.latch := rfl
@[simp] theorem Device.setLsio_link (s : Device) (x : LsioSt) : (s.setLsio x).link = s.link := rfl
@[simp] theorem Device.setLsio_att (s : Device) (x : LsioSt) : (s.setLsio x).att = s.att := rfl
@[simp] theorem Device.setLsio_chunks (s : Device) (x : LsioSt) : (s.setLsio x).chunks = s.chunks := rfl
@[simp] theorem Device.setLsio_coll (s : Device) (x : LsioSt) : (s.setLsio x).coll = s.coll := rfl
@[simp] theorem Device.setLsio_fusion (s : Device) (x : LsioSt) : (s.setLsio x).fusion = s.fusion := rfl
@[simp] theorem Device.setLsio_collide (s : Device) (x : LsioSt) : (s.setLsio x).collide = s.collide := rfl
@[simp] theorem Device.setLsio_solve (s : Device) (x : LsioSt) : (s.setLsio x).solve = s.solve := rfl
@[simp] theorem Device.setLsio_ctrl (s : Device) (x : LsioSt) : (s.setLsio x).ctrl = s.ctrl := rfl
@[simp] theorem Device.setLsio_oliner (s : Device) (x : LsioSt) : (s.setLsio x).oliner = s.oliner := rfl
@[simp] theorem Device.setLsio_selfTest (s : Device) (x : LsioSt) : (s.setLsio x).selfTest = s.selfTest := rfl
@[simp] theorem Device.setLsio_bask (s : Device) (x : LsioSt) : (s.setLsio x).bask = s.bask := rfl
@[simp] theorem Device.setLsio_eft (s : Device) (x : LsioSt) : (s.setLsio x).eft = s.eft := rfl
@[simp] theorem Device.setLsio_probe (s : Device) (x : LsioSt) : (s.setLsio x).probe = s.probe := rfl
@[simp] theorem Device.setLsio_enet (s : Device) (x : LsioSt) : (s.setLsio x).enet = s.enet := rfl
@[simp] theorem Device.setLsio_regReqs (s : Device) (x : LsioSt) : (s.setLsio x).regReqs = s.regReqs := rfl

@[simp] theorem Device.setFusion_regs (s : Device) (x : FusionSt) : (s.setFusion x).regs = s.regs := rfl
@[simp] theorem Device.setFusion_mem (s : Device) (x : FusionSt) : (s.setFusion x).mem = s.mem := rfl
@[simp] theorem Device.setFusion_chorus (s : Device) (x : FusionSt) : (s.setFusion x).chorus = s.chorus := rfl
@[simp] theorem Device.setFusion_pond (s : Device) (x : FusionSt) : (s.setFusion x).pond = s.pond := rfl
@[simp] theorem Device.setFusion_xlate (s : Device) (x : FusionSt) : (s.setFusion x).xlate = s.xlate := rfl
@[simp] theorem Device.setFusion_disp (s : Device) (x : FusionSt) : (s.setFusion x).disp = s.disp := rfl
@[simp] theorem Device.setFusion_regul (s : Device) (x : FusionSt) : (s.setFusion x).regul = s.regul := rfl
@[simp] theorem Device.setFusion_err (s : Device) (x : FusionSt) : (s.setFusion x).err = s.err := rfl
@[simp] theorem Device.setFusion_edgeWrites (s : Device) (x : FusionSt) : (s.setFusion x).edgeWrites = s.edgeWrites := rfl
@[simp] theorem Device.setFusion_reply (s : Device) (x : FusionSt) : (s.setFusion x).reply = s.reply := rfl
@[simp] theorem Device.setFusion_out (s : Device) (x : FusionSt) : (s.setFusion x).out = s.out := rfl
@[simp] theorem Device.setFusion_fresh (s : Device) (x : FusionSt) : (s.setFusion x).fresh = s.fresh := rfl
@[simp] theorem Device.setFusion_safety (s : Device) (x : FusionSt) : (s.setFusion x).safety = s.safety := rfl
@[simp] theorem Device.setFusion_pcie (s : Device) (x : FusionSt) : (s.setFusion x).pcie = s.pcie := rfl
@[simp] theorem Device.setFusion_host (s : Device) (x : FusionSt) : (s.setFusion x).host = s.host := rfl
@[simp] theorem Device.setFusion_latch (s : Device) (x : FusionSt) : (s.setFusion x).latch = s.latch := rfl
@[simp] theorem Device.setFusion_link (s : Device) (x : FusionSt) : (s.setFusion x).link = s.link := rfl
@[simp] theorem Device.setFusion_att (s : Device) (x : FusionSt) : (s.setFusion x).att = s.att := rfl
@[simp] theorem Device.setFusion_chunks (s : Device) (x : FusionSt) : (s.setFusion x).chunks = s.chunks := rfl
@[simp] theorem Device.setFusion_coll (s : Device) (x : FusionSt) : (s.setFusion x).coll = s.coll := rfl
@[simp] theorem Device.setFusion_collide (s : Device) (x : FusionSt) : (s.setFusion x).collide = s.collide := rfl
@[simp] theorem Device.setFusion_solve (s : Device) (x : FusionSt) : (s.setFusion x).solve = s.solve := rfl
@[simp] theorem Device.setFusion_ctrl (s : Device) (x : FusionSt) : (s.setFusion x).ctrl = s.ctrl := rfl
@[simp] theorem Device.setFusion_lsio (s : Device) (x : FusionSt) : (s.setFusion x).lsio = s.lsio := rfl
@[simp] theorem Device.setFusion_oliner (s : Device) (x : FusionSt) : (s.setFusion x).oliner = s.oliner := rfl
@[simp] theorem Device.setFusion_selfTest (s : Device) (x : FusionSt) : (s.setFusion x).selfTest = s.selfTest := rfl
@[simp] theorem Device.setFusion_bask (s : Device) (x : FusionSt) : (s.setFusion x).bask = s.bask := rfl
@[simp] theorem Device.setFusion_eft (s : Device) (x : FusionSt) : (s.setFusion x).eft = s.eft := rfl
@[simp] theorem Device.setFusion_probe (s : Device) (x : FusionSt) : (s.setFusion x).probe = s.probe := rfl
@[simp] theorem Device.setFusion_enet (s : Device) (x : FusionSt) : (s.setFusion x).enet = s.enet := rfl
@[simp] theorem Device.setFusion_regReqs (s : Device) (x : FusionSt) : (s.setFusion x).regReqs = s.regReqs := rfl

@[simp] theorem Device.setChunks_regs (s : Device) (l : List Chunk) : (s.setChunks l).regs = s.regs := rfl
@[simp] theorem Device.setChunks_mem (s : Device) (l : List Chunk) : (s.setChunks l).mem = s.mem := rfl
@[simp] theorem Device.setChunks_chorus (s : Device) (l : List Chunk) : (s.setChunks l).chorus = s.chorus := rfl
@[simp] theorem Device.setChunks_pond (s : Device) (l : List Chunk) : (s.setChunks l).pond = s.pond := rfl
@[simp] theorem Device.setChunks_xlate (s : Device) (l : List Chunk) : (s.setChunks l).xlate = s.xlate := rfl
@[simp] theorem Device.setChunks_disp (s : Device) (l : List Chunk) : (s.setChunks l).disp = s.disp := rfl
@[simp] theorem Device.setChunks_regul (s : Device) (l : List Chunk) : (s.setChunks l).regul = s.regul := rfl
@[simp] theorem Device.setChunks_err (s : Device) (l : List Chunk) : (s.setChunks l).err = s.err := rfl
@[simp] theorem Device.setChunks_edgeWrites (s : Device) (l : List Chunk) : (s.setChunks l).edgeWrites = s.edgeWrites := rfl
@[simp] theorem Device.setChunks_reply (s : Device) (l : List Chunk) : (s.setChunks l).reply = s.reply := rfl
@[simp] theorem Device.setChunks_out (s : Device) (l : List Chunk) : (s.setChunks l).out = s.out := rfl
@[simp] theorem Device.setChunks_fresh (s : Device) (l : List Chunk) : (s.setChunks l).fresh = s.fresh := rfl
@[simp] theorem Device.setChunks_safety (s : Device) (l : List Chunk) : (s.setChunks l).safety = s.safety := rfl
@[simp] theorem Device.setChunks_pcie (s : Device) (l : List Chunk) : (s.setChunks l).pcie = s.pcie := rfl
@[simp] theorem Device.setChunks_host (s : Device) (l : List Chunk) : (s.setChunks l).host = s.host := rfl
@[simp] theorem Device.setChunks_latch (s : Device) (l : List Chunk) : (s.setChunks l).latch = s.latch := rfl
@[simp] theorem Device.setChunks_link (s : Device) (l : List Chunk) : (s.setChunks l).link = s.link := rfl
@[simp] theorem Device.setChunks_att (s : Device) (l : List Chunk) : (s.setChunks l).att = s.att := rfl
@[simp] theorem Device.setChunks_coll (s : Device) (l : List Chunk) : (s.setChunks l).coll = s.coll := rfl
@[simp] theorem Device.setChunks_fusion (s : Device) (l : List Chunk) : (s.setChunks l).fusion = s.fusion := rfl
@[simp] theorem Device.setChunks_collide (s : Device) (l : List Chunk) : (s.setChunks l).collide = s.collide := rfl
@[simp] theorem Device.setChunks_solve (s : Device) (l : List Chunk) : (s.setChunks l).solve = s.solve := rfl
@[simp] theorem Device.setChunks_ctrl (s : Device) (l : List Chunk) : (s.setChunks l).ctrl = s.ctrl := rfl
@[simp] theorem Device.setChunks_lsio (s : Device) (l : List Chunk) : (s.setChunks l).lsio = s.lsio := rfl
@[simp] theorem Device.setChunks_oliner (s : Device) (l : List Chunk) : (s.setChunks l).oliner = s.oliner := rfl
@[simp] theorem Device.setChunks_selfTest (s : Device) (l : List Chunk) : (s.setChunks l).selfTest = s.selfTest := rfl
@[simp] theorem Device.setChunks_bask (s : Device) (l : List Chunk) : (s.setChunks l).bask = s.bask := rfl
@[simp] theorem Device.setChunks_eft (s : Device) (l : List Chunk) : (s.setChunks l).eft = s.eft := rfl
@[simp] theorem Device.setChunks_probe (s : Device) (l : List Chunk) : (s.setChunks l).probe = s.probe := rfl
@[simp] theorem Device.setChunks_enet (s : Device) (l : List Chunk) : (s.setChunks l).enet = s.enet := rfl
@[simp] theorem Device.setChunks_regReqs (s : Device) (l : List Chunk) : (s.setChunks l).regReqs = s.regReqs := rfl

@[simp] theorem Device.setBaskDie_regs (s : Device) (d : Nat) (x : BaskDie) : (s.setBaskDie d x).regs = s.regs := rfl
@[simp] theorem Device.setBaskDie_mem (s : Device) (d : Nat) (x : BaskDie) : (s.setBaskDie d x).mem = s.mem := rfl
@[simp] theorem Device.setBaskDie_chorus (s : Device) (d : Nat) (x : BaskDie) : (s.setBaskDie d x).chorus = s.chorus := rfl
@[simp] theorem Device.setBaskDie_pond (s : Device) (d : Nat) (x : BaskDie) : (s.setBaskDie d x).pond = s.pond := rfl
@[simp] theorem Device.setBaskDie_xlate (s : Device) (d : Nat) (x : BaskDie) : (s.setBaskDie d x).xlate = s.xlate := rfl
@[simp] theorem Device.setBaskDie_disp (s : Device) (d : Nat) (x : BaskDie) : (s.setBaskDie d x).disp = s.disp := rfl
@[simp] theorem Device.setBaskDie_regul (s : Device) (d : Nat) (x : BaskDie) : (s.setBaskDie d x).regul = s.regul := rfl
@[simp] theorem Device.setBaskDie_err (s : Device) (d : Nat) (x : BaskDie) : (s.setBaskDie d x).err = s.err := rfl
@[simp] theorem Device.setBaskDie_edgeWrites (s : Device) (d : Nat) (x : BaskDie) : (s.setBaskDie d x).edgeWrites = s.edgeWrites := rfl
@[simp] theorem Device.setBaskDie_reply (s : Device) (d : Nat) (x : BaskDie) : (s.setBaskDie d x).reply = s.reply := rfl
@[simp] theorem Device.setBaskDie_out (s : Device) (d : Nat) (x : BaskDie) : (s.setBaskDie d x).out = s.out := rfl
@[simp] theorem Device.setBaskDie_fresh (s : Device) (d : Nat) (x : BaskDie) : (s.setBaskDie d x).fresh = s.fresh := rfl
@[simp] theorem Device.setBaskDie_safety (s : Device) (d : Nat) (x : BaskDie) : (s.setBaskDie d x).safety = s.safety := rfl
@[simp] theorem Device.setBaskDie_pcie (s : Device) (d : Nat) (x : BaskDie) : (s.setBaskDie d x).pcie = s.pcie := rfl
@[simp] theorem Device.setBaskDie_host (s : Device) (d : Nat) (x : BaskDie) : (s.setBaskDie d x).host = s.host := rfl
@[simp] theorem Device.setBaskDie_latch (s : Device) (d : Nat) (x : BaskDie) : (s.setBaskDie d x).latch = s.latch := rfl
@[simp] theorem Device.setBaskDie_link (s : Device) (d : Nat) (x : BaskDie) : (s.setBaskDie d x).link = s.link := rfl
@[simp] theorem Device.setBaskDie_att (s : Device) (d : Nat) (x : BaskDie) : (s.setBaskDie d x).att = s.att := rfl
@[simp] theorem Device.setBaskDie_chunks (s : Device) (d : Nat) (x : BaskDie) : (s.setBaskDie d x).chunks = s.chunks := rfl
@[simp] theorem Device.setBaskDie_coll (s : Device) (d : Nat) (x : BaskDie) : (s.setBaskDie d x).coll = s.coll := rfl
@[simp] theorem Device.setBaskDie_fusion (s : Device) (d : Nat) (x : BaskDie) : (s.setBaskDie d x).fusion = s.fusion := rfl
@[simp] theorem Device.setBaskDie_collide (s : Device) (d : Nat) (x : BaskDie) : (s.setBaskDie d x).collide = s.collide := rfl
@[simp] theorem Device.setBaskDie_solve (s : Device) (d : Nat) (x : BaskDie) : (s.setBaskDie d x).solve = s.solve := rfl
@[simp] theorem Device.setBaskDie_ctrl (s : Device) (d : Nat) (x : BaskDie) : (s.setBaskDie d x).ctrl = s.ctrl := rfl
@[simp] theorem Device.setBaskDie_lsio (s : Device) (d : Nat) (x : BaskDie) : (s.setBaskDie d x).lsio = s.lsio := rfl
@[simp] theorem Device.setBaskDie_oliner (s : Device) (d : Nat) (x : BaskDie) : (s.setBaskDie d x).oliner = s.oliner := rfl
@[simp] theorem Device.setBaskDie_selfTest (s : Device) (d : Nat) (x : BaskDie) : (s.setBaskDie d x).selfTest = s.selfTest := rfl
@[simp] theorem Device.setBaskDie_eft (s : Device) (d : Nat) (x : BaskDie) : (s.setBaskDie d x).eft = s.eft := rfl
@[simp] theorem Device.setBaskDie_probe (s : Device) (d : Nat) (x : BaskDie) : (s.setBaskDie d x).probe = s.probe := rfl
@[simp] theorem Device.setBaskDie_enet (s : Device) (d : Nat) (x : BaskDie) : (s.setBaskDie d x).enet = s.enet := rfl
@[simp] theorem Device.setBaskDie_regReqs (s : Device) (d : Nat) (x : BaskDie) : (s.setBaskDie d x).regReqs = s.regReqs := rfl

@[simp] theorem Device.setEft_regs (s : Device) (x : EftSt) : (s.setEft x).regs = s.regs := rfl
@[simp] theorem Device.setEft_mem (s : Device) (x : EftSt) : (s.setEft x).mem = s.mem := rfl
@[simp] theorem Device.setEft_chorus (s : Device) (x : EftSt) : (s.setEft x).chorus = s.chorus := rfl
@[simp] theorem Device.setEft_pond (s : Device) (x : EftSt) : (s.setEft x).pond = s.pond := rfl
@[simp] theorem Device.setEft_xlate (s : Device) (x : EftSt) : (s.setEft x).xlate = s.xlate := rfl
@[simp] theorem Device.setEft_disp (s : Device) (x : EftSt) : (s.setEft x).disp = s.disp := rfl
@[simp] theorem Device.setEft_regul (s : Device) (x : EftSt) : (s.setEft x).regul = s.regul := rfl
@[simp] theorem Device.setEft_err (s : Device) (x : EftSt) : (s.setEft x).err = s.err := rfl
@[simp] theorem Device.setEft_edgeWrites (s : Device) (x : EftSt) : (s.setEft x).edgeWrites = s.edgeWrites := rfl
@[simp] theorem Device.setEft_reply (s : Device) (x : EftSt) : (s.setEft x).reply = s.reply := rfl
@[simp] theorem Device.setEft_out (s : Device) (x : EftSt) : (s.setEft x).out = s.out := rfl
@[simp] theorem Device.setEft_fresh (s : Device) (x : EftSt) : (s.setEft x).fresh = s.fresh := rfl
@[simp] theorem Device.setEft_safety (s : Device) (x : EftSt) : (s.setEft x).safety = s.safety := rfl
@[simp] theorem Device.setEft_pcie (s : Device) (x : EftSt) : (s.setEft x).pcie = s.pcie := rfl
@[simp] theorem Device.setEft_host (s : Device) (x : EftSt) : (s.setEft x).host = s.host := rfl
@[simp] theorem Device.setEft_latch (s : Device) (x : EftSt) : (s.setEft x).latch = s.latch := rfl
@[simp] theorem Device.setEft_link (s : Device) (x : EftSt) : (s.setEft x).link = s.link := rfl
@[simp] theorem Device.setEft_att (s : Device) (x : EftSt) : (s.setEft x).att = s.att := rfl
@[simp] theorem Device.setEft_chunks (s : Device) (x : EftSt) : (s.setEft x).chunks = s.chunks := rfl
@[simp] theorem Device.setEft_coll (s : Device) (x : EftSt) : (s.setEft x).coll = s.coll := rfl
@[simp] theorem Device.setEft_fusion (s : Device) (x : EftSt) : (s.setEft x).fusion = s.fusion := rfl
@[simp] theorem Device.setEft_collide (s : Device) (x : EftSt) : (s.setEft x).collide = s.collide := rfl
@[simp] theorem Device.setEft_solve (s : Device) (x : EftSt) : (s.setEft x).solve = s.solve := rfl
@[simp] theorem Device.setEft_ctrl (s : Device) (x : EftSt) : (s.setEft x).ctrl = s.ctrl := rfl
@[simp] theorem Device.setEft_lsio (s : Device) (x : EftSt) : (s.setEft x).lsio = s.lsio := rfl
@[simp] theorem Device.setEft_oliner (s : Device) (x : EftSt) : (s.setEft x).oliner = s.oliner := rfl
@[simp] theorem Device.setEft_selfTest (s : Device) (x : EftSt) : (s.setEft x).selfTest = s.selfTest := rfl
@[simp] theorem Device.setEft_bask (s : Device) (x : EftSt) : (s.setEft x).bask = s.bask := rfl
@[simp] theorem Device.setEft_probe (s : Device) (x : EftSt) : (s.setEft x).probe = s.probe := rfl
@[simp] theorem Device.setEft_enet (s : Device) (x : EftSt) : (s.setEft x).enet = s.enet := rfl
@[simp] theorem Device.setEft_regReqs (s : Device) (x : EftSt) : (s.setEft x).regReqs = s.regReqs := rfl

@[simp] theorem Device.setDebug_regs (s : Device) (x : DebugSt) : (s.setDebug x).regs = s.regs := rfl
@[simp] theorem Device.setDebug_mem (s : Device) (x : DebugSt) : (s.setDebug x).mem = s.mem := rfl
@[simp] theorem Device.setDebug_chorus (s : Device) (x : DebugSt) : (s.setDebug x).chorus = s.chorus := rfl
@[simp] theorem Device.setDebug_pond (s : Device) (x : DebugSt) : (s.setDebug x).pond = s.pond := rfl
@[simp] theorem Device.setDebug_xlate (s : Device) (x : DebugSt) : (s.setDebug x).xlate = s.xlate := rfl
@[simp] theorem Device.setDebug_disp (s : Device) (x : DebugSt) : (s.setDebug x).disp = s.disp := rfl
@[simp] theorem Device.setDebug_regul (s : Device) (x : DebugSt) : (s.setDebug x).regul = s.regul := rfl
@[simp] theorem Device.setDebug_err (s : Device) (x : DebugSt) : (s.setDebug x).err = s.err := rfl
@[simp] theorem Device.setDebug_edgeWrites (s : Device) (x : DebugSt) : (s.setDebug x).edgeWrites = s.edgeWrites := rfl
@[simp] theorem Device.setDebug_reply (s : Device) (x : DebugSt) : (s.setDebug x).reply = s.reply := rfl
@[simp] theorem Device.setDebug_out (s : Device) (x : DebugSt) : (s.setDebug x).out = s.out := rfl
@[simp] theorem Device.setDebug_fresh (s : Device) (x : DebugSt) : (s.setDebug x).fresh = s.fresh := rfl
@[simp] theorem Device.setDebug_safety (s : Device) (x : DebugSt) : (s.setDebug x).safety = s.safety := rfl
@[simp] theorem Device.setDebug_pcie (s : Device) (x : DebugSt) : (s.setDebug x).pcie = s.pcie := rfl
@[simp] theorem Device.setDebug_host (s : Device) (x : DebugSt) : (s.setDebug x).host = s.host := rfl
@[simp] theorem Device.setDebug_latch (s : Device) (x : DebugSt) : (s.setDebug x).latch = s.latch := rfl
@[simp] theorem Device.setDebug_link (s : Device) (x : DebugSt) : (s.setDebug x).link = s.link := rfl
@[simp] theorem Device.setDebug_att (s : Device) (x : DebugSt) : (s.setDebug x).att = s.att := rfl
@[simp] theorem Device.setDebug_chunks (s : Device) (x : DebugSt) : (s.setDebug x).chunks = s.chunks := rfl
@[simp] theorem Device.setDebug_coll (s : Device) (x : DebugSt) : (s.setDebug x).coll = s.coll := rfl
@[simp] theorem Device.setDebug_fusion (s : Device) (x : DebugSt) : (s.setDebug x).fusion = s.fusion := rfl
@[simp] theorem Device.setDebug_collide (s : Device) (x : DebugSt) : (s.setDebug x).collide = s.collide := rfl
@[simp] theorem Device.setDebug_solve (s : Device) (x : DebugSt) : (s.setDebug x).solve = s.solve := rfl
@[simp] theorem Device.setDebug_ctrl (s : Device) (x : DebugSt) : (s.setDebug x).ctrl = s.ctrl := rfl
@[simp] theorem Device.setDebug_lsio (s : Device) (x : DebugSt) : (s.setDebug x).lsio = s.lsio := rfl
@[simp] theorem Device.setDebug_oliner (s : Device) (x : DebugSt) : (s.setDebug x).oliner = s.oliner := rfl
@[simp] theorem Device.setDebug_selfTest (s : Device) (x : DebugSt) : (s.setDebug x).selfTest = s.selfTest := rfl
@[simp] theorem Device.setDebug_bask (s : Device) (x : DebugSt) : (s.setDebug x).bask = s.bask := rfl
@[simp] theorem Device.setDebug_eft (s : Device) (x : DebugSt) : (s.setDebug x).eft = s.eft := rfl
@[simp] theorem Device.setDebug_enet (s : Device) (x : DebugSt) : (s.setDebug x).enet = s.enet := rfl
@[simp] theorem Device.setDebug_regReqs (s : Device) (x : DebugSt) : (s.setDebug x).regReqs = s.regReqs := rfl

@[simp] theorem Device.setEcc_regs (s : Device) (w : Nat) (e : Option EccErr) : (s.setEcc w e).regs = s.regs := rfl
@[simp] theorem Device.setEcc_mem (s : Device) (w : Nat) (e : Option EccErr) : (s.setEcc w e).mem = s.mem := rfl
@[simp] theorem Device.setEcc_chorus (s : Device) (w : Nat) (e : Option EccErr) : (s.setEcc w e).chorus = s.chorus := rfl
@[simp] theorem Device.setEcc_xlate (s : Device) (w : Nat) (e : Option EccErr) : (s.setEcc w e).xlate = s.xlate := rfl
@[simp] theorem Device.setEcc_disp (s : Device) (w : Nat) (e : Option EccErr) : (s.setEcc w e).disp = s.disp := rfl
@[simp] theorem Device.setEcc_regul (s : Device) (w : Nat) (e : Option EccErr) : (s.setEcc w e).regul = s.regul := rfl
@[simp] theorem Device.setEcc_err (s : Device) (w : Nat) (e : Option EccErr) : (s.setEcc w e).err = s.err := rfl
@[simp] theorem Device.setEcc_edgeWrites (s : Device) (w : Nat) (e : Option EccErr) : (s.setEcc w e).edgeWrites = s.edgeWrites := rfl
@[simp] theorem Device.setEcc_reply (s : Device) (w : Nat) (e : Option EccErr) : (s.setEcc w e).reply = s.reply := rfl
@[simp] theorem Device.setEcc_out (s : Device) (w : Nat) (e : Option EccErr) : (s.setEcc w e).out = s.out := rfl
@[simp] theorem Device.setEcc_fresh (s : Device) (w : Nat) (e : Option EccErr) : (s.setEcc w e).fresh = s.fresh := rfl
@[simp] theorem Device.setEcc_safety (s : Device) (w : Nat) (e : Option EccErr) : (s.setEcc w e).safety = s.safety := rfl
@[simp] theorem Device.setEcc_pcie (s : Device) (w : Nat) (e : Option EccErr) : (s.setEcc w e).pcie = s.pcie := rfl
@[simp] theorem Device.setEcc_host (s : Device) (w : Nat) (e : Option EccErr) : (s.setEcc w e).host = s.host := rfl
@[simp] theorem Device.setEcc_latch (s : Device) (w : Nat) (e : Option EccErr) : (s.setEcc w e).latch = s.latch := rfl
@[simp] theorem Device.setEcc_link (s : Device) (w : Nat) (e : Option EccErr) : (s.setEcc w e).link = s.link := rfl
@[simp] theorem Device.setEcc_att (s : Device) (w : Nat) (e : Option EccErr) : (s.setEcc w e).att = s.att := rfl
@[simp] theorem Device.setEcc_chunks (s : Device) (w : Nat) (e : Option EccErr) : (s.setEcc w e).chunks = s.chunks := rfl
@[simp] theorem Device.setEcc_coll (s : Device) (w : Nat) (e : Option EccErr) : (s.setEcc w e).coll = s.coll := rfl
@[simp] theorem Device.setEcc_fusion (s : Device) (w : Nat) (e : Option EccErr) : (s.setEcc w e).fusion = s.fusion := rfl
@[simp] theorem Device.setEcc_collide (s : Device) (w : Nat) (e : Option EccErr) : (s.setEcc w e).collide = s.collide := rfl
@[simp] theorem Device.setEcc_solve (s : Device) (w : Nat) (e : Option EccErr) : (s.setEcc w e).solve = s.solve := rfl
@[simp] theorem Device.setEcc_ctrl (s : Device) (w : Nat) (e : Option EccErr) : (s.setEcc w e).ctrl = s.ctrl := rfl
@[simp] theorem Device.setEcc_lsio (s : Device) (w : Nat) (e : Option EccErr) : (s.setEcc w e).lsio = s.lsio := rfl
@[simp] theorem Device.setEcc_oliner (s : Device) (w : Nat) (e : Option EccErr) : (s.setEcc w e).oliner = s.oliner := rfl
@[simp] theorem Device.setEcc_selfTest (s : Device) (w : Nat) (e : Option EccErr) : (s.setEcc w e).selfTest = s.selfTest := rfl
@[simp] theorem Device.setEcc_bask (s : Device) (w : Nat) (e : Option EccErr) : (s.setEcc w e).bask = s.bask := rfl
@[simp] theorem Device.setEcc_eft (s : Device) (w : Nat) (e : Option EccErr) : (s.setEcc w e).eft = s.eft := rfl
@[simp] theorem Device.setEcc_probe (s : Device) (w : Nat) (e : Option EccErr) : (s.setEcc w e).probe = s.probe := rfl
@[simp] theorem Device.setEcc_enet (s : Device) (w : Nat) (e : Option EccErr) : (s.setEcc w e).enet = s.enet := rfl
@[simp] theorem Device.setEcc_regReqs (s : Device) (w : Nat) (e : Option EccErr) : (s.setEcc w e).regReqs = s.regReqs := rfl

@[simp] theorem Device.setLink_regs (s : Device) (w : Nat) (e : Option EccErr) : (s.setLink w e).regs = s.regs := rfl
@[simp] theorem Device.setLink_mem (s : Device) (w : Nat) (e : Option EccErr) : (s.setLink w e).mem = s.mem := rfl
@[simp] theorem Device.setLink_chorus (s : Device) (w : Nat) (e : Option EccErr) : (s.setLink w e).chorus = s.chorus := rfl
@[simp] theorem Device.setLink_xlate (s : Device) (w : Nat) (e : Option EccErr) : (s.setLink w e).xlate = s.xlate := rfl
@[simp] theorem Device.setLink_disp (s : Device) (w : Nat) (e : Option EccErr) : (s.setLink w e).disp = s.disp := rfl
@[simp] theorem Device.setLink_regul (s : Device) (w : Nat) (e : Option EccErr) : (s.setLink w e).regul = s.regul := rfl
@[simp] theorem Device.setLink_err (s : Device) (w : Nat) (e : Option EccErr) : (s.setLink w e).err = s.err := rfl
@[simp] theorem Device.setLink_edgeWrites (s : Device) (w : Nat) (e : Option EccErr) : (s.setLink w e).edgeWrites = s.edgeWrites := rfl
@[simp] theorem Device.setLink_reply (s : Device) (w : Nat) (e : Option EccErr) : (s.setLink w e).reply = s.reply := rfl
@[simp] theorem Device.setLink_out (s : Device) (w : Nat) (e : Option EccErr) : (s.setLink w e).out = s.out := rfl
@[simp] theorem Device.setLink_fresh (s : Device) (w : Nat) (e : Option EccErr) : (s.setLink w e).fresh = s.fresh := rfl
@[simp] theorem Device.setLink_safety (s : Device) (w : Nat) (e : Option EccErr) : (s.setLink w e).safety = s.safety := rfl
@[simp] theorem Device.setLink_pcie (s : Device) (w : Nat) (e : Option EccErr) : (s.setLink w e).pcie = s.pcie := rfl
@[simp] theorem Device.setLink_host (s : Device) (w : Nat) (e : Option EccErr) : (s.setLink w e).host = s.host := rfl
@[simp] theorem Device.setLink_latch (s : Device) (w : Nat) (e : Option EccErr) : (s.setLink w e).latch = s.latch := rfl
@[simp] theorem Device.setLink_link (s : Device) (w : Nat) (e : Option EccErr) : (s.setLink w e).link = s.link := rfl
@[simp] theorem Device.setLink_att (s : Device) (w : Nat) (e : Option EccErr) : (s.setLink w e).att = s.att := rfl
@[simp] theorem Device.setLink_chunks (s : Device) (w : Nat) (e : Option EccErr) : (s.setLink w e).chunks = s.chunks := rfl
@[simp] theorem Device.setLink_coll (s : Device) (w : Nat) (e : Option EccErr) : (s.setLink w e).coll = s.coll := rfl
@[simp] theorem Device.setLink_fusion (s : Device) (w : Nat) (e : Option EccErr) : (s.setLink w e).fusion = s.fusion := rfl
@[simp] theorem Device.setLink_collide (s : Device) (w : Nat) (e : Option EccErr) : (s.setLink w e).collide = s.collide := rfl
@[simp] theorem Device.setLink_solve (s : Device) (w : Nat) (e : Option EccErr) : (s.setLink w e).solve = s.solve := rfl
@[simp] theorem Device.setLink_ctrl (s : Device) (w : Nat) (e : Option EccErr) : (s.setLink w e).ctrl = s.ctrl := rfl
@[simp] theorem Device.setLink_lsio (s : Device) (w : Nat) (e : Option EccErr) : (s.setLink w e).lsio = s.lsio := rfl
@[simp] theorem Device.setLink_oliner (s : Device) (w : Nat) (e : Option EccErr) : (s.setLink w e).oliner = s.oliner := rfl
@[simp] theorem Device.setLink_selfTest (s : Device) (w : Nat) (e : Option EccErr) : (s.setLink w e).selfTest = s.selfTest := rfl
@[simp] theorem Device.setLink_bask (s : Device) (w : Nat) (e : Option EccErr) : (s.setLink w e).bask = s.bask := rfl
@[simp] theorem Device.setLink_eft (s : Device) (w : Nat) (e : Option EccErr) : (s.setLink w e).eft = s.eft := rfl
@[simp] theorem Device.setLink_probe (s : Device) (w : Nat) (e : Option EccErr) : (s.setLink w e).probe = s.probe := rfl
@[simp] theorem Device.setLink_enet (s : Device) (w : Nat) (e : Option EccErr) : (s.setLink w e).enet = s.enet := rfl
@[simp] theorem Device.setLink_regReqs (s : Device) (w : Nat) (e : Option EccErr) : (s.setLink w e).regReqs = s.regReqs := rfl

@[simp] theorem Device.setDma_regs (s : Device) (die e : Nat) (x : Option (Option Work × Nat × List Nat)) : (s.setDma die e x).regs = s.regs := rfl
@[simp] theorem Device.setDma_mem (s : Device) (die e : Nat) (x : Option (Option Work × Nat × List Nat)) : (s.setDma die e x).mem = s.mem := rfl
@[simp] theorem Device.setDma_chorus (s : Device) (die e : Nat) (x : Option (Option Work × Nat × List Nat)) : (s.setDma die e x).chorus = s.chorus := rfl
@[simp] theorem Device.setDma_pond (s : Device) (die e : Nat) (x : Option (Option Work × Nat × List Nat)) : (s.setDma die e x).pond = s.pond := rfl
@[simp] theorem Device.setDma_disp (s : Device) (die e : Nat) (x : Option (Option Work × Nat × List Nat)) : (s.setDma die e x).disp = s.disp := rfl
@[simp] theorem Device.setDma_regul (s : Device) (die e : Nat) (x : Option (Option Work × Nat × List Nat)) : (s.setDma die e x).regul = s.regul := rfl
@[simp] theorem Device.setDma_err (s : Device) (die e : Nat) (x : Option (Option Work × Nat × List Nat)) : (s.setDma die e x).err = s.err := rfl
@[simp] theorem Device.setDma_edgeWrites (s : Device) (die e : Nat) (x : Option (Option Work × Nat × List Nat)) : (s.setDma die e x).edgeWrites = s.edgeWrites := rfl
@[simp] theorem Device.setDma_reply (s : Device) (die e : Nat) (x : Option (Option Work × Nat × List Nat)) : (s.setDma die e x).reply = s.reply := rfl
@[simp] theorem Device.setDma_out (s : Device) (die e : Nat) (x : Option (Option Work × Nat × List Nat)) : (s.setDma die e x).out = s.out := rfl
@[simp] theorem Device.setDma_fresh (s : Device) (die e : Nat) (x : Option (Option Work × Nat × List Nat)) : (s.setDma die e x).fresh = s.fresh := rfl
@[simp] theorem Device.setDma_safety (s : Device) (die e : Nat) (x : Option (Option Work × Nat × List Nat)) : (s.setDma die e x).safety = s.safety := rfl
@[simp] theorem Device.setDma_pcie (s : Device) (die e : Nat) (x : Option (Option Work × Nat × List Nat)) : (s.setDma die e x).pcie = s.pcie := rfl
@[simp] theorem Device.setDma_host (s : Device) (die e : Nat) (x : Option (Option Work × Nat × List Nat)) : (s.setDma die e x).host = s.host := rfl
@[simp] theorem Device.setDma_latch (s : Device) (die e : Nat) (x : Option (Option Work × Nat × List Nat)) : (s.setDma die e x).latch = s.latch := rfl
@[simp] theorem Device.setDma_link (s : Device) (die e : Nat) (x : Option (Option Work × Nat × List Nat)) : (s.setDma die e x).link = s.link := rfl
@[simp] theorem Device.setDma_att (s : Device) (die e : Nat) (x : Option (Option Work × Nat × List Nat)) : (s.setDma die e x).att = s.att := rfl
@[simp] theorem Device.setDma_chunks (s : Device) (die e : Nat) (x : Option (Option Work × Nat × List Nat)) : (s.setDma die e x).chunks = s.chunks := rfl
@[simp] theorem Device.setDma_coll (s : Device) (die e : Nat) (x : Option (Option Work × Nat × List Nat)) : (s.setDma die e x).coll = s.coll := rfl
@[simp] theorem Device.setDma_fusion (s : Device) (die e : Nat) (x : Option (Option Work × Nat × List Nat)) : (s.setDma die e x).fusion = s.fusion := rfl
@[simp] theorem Device.setDma_collide (s : Device) (die e : Nat) (x : Option (Option Work × Nat × List Nat)) : (s.setDma die e x).collide = s.collide := rfl
@[simp] theorem Device.setDma_solve (s : Device) (die e : Nat) (x : Option (Option Work × Nat × List Nat)) : (s.setDma die e x).solve = s.solve := rfl
@[simp] theorem Device.setDma_ctrl (s : Device) (die e : Nat) (x : Option (Option Work × Nat × List Nat)) : (s.setDma die e x).ctrl = s.ctrl := rfl
@[simp] theorem Device.setDma_lsio (s : Device) (die e : Nat) (x : Option (Option Work × Nat × List Nat)) : (s.setDma die e x).lsio = s.lsio := rfl
@[simp] theorem Device.setDma_oliner (s : Device) (die e : Nat) (x : Option (Option Work × Nat × List Nat)) : (s.setDma die e x).oliner = s.oliner := rfl
@[simp] theorem Device.setDma_selfTest (s : Device) (die e : Nat) (x : Option (Option Work × Nat × List Nat)) : (s.setDma die e x).selfTest = s.selfTest := rfl
@[simp] theorem Device.setDma_bask (s : Device) (die e : Nat) (x : Option (Option Work × Nat × List Nat)) : (s.setDma die e x).bask = s.bask := rfl
@[simp] theorem Device.setDma_eft (s : Device) (die e : Nat) (x : Option (Option Work × Nat × List Nat)) : (s.setDma die e x).eft = s.eft := rfl
@[simp] theorem Device.setDma_probe (s : Device) (die e : Nat) (x : Option (Option Work × Nat × List Nat)) : (s.setDma die e x).probe = s.probe := rfl
@[simp] theorem Device.setDma_enet (s : Device) (die e : Nat) (x : Option (Option Work × Nat × List Nat)) : (s.setDma die e x).enet = s.enet := rfl
@[simp] theorem Device.setDma_regReqs (s : Device) (die e : Nat) (x : Option (Option Work × Nat × List Nat)) : (s.setDma die e x).regReqs = s.regReqs := rfl

@[simp] theorem Device.setActive_regs (s : Device) (l : List Coll) : (s.setActive l).regs = s.regs := rfl
@[simp] theorem Device.setActive_mem (s : Device) (l : List Coll) : (s.setActive l).mem = s.mem := rfl
@[simp] theorem Device.setActive_chorus (s : Device) (l : List Coll) : (s.setActive l).chorus = s.chorus := rfl
@[simp] theorem Device.setActive_pond (s : Device) (l : List Coll) : (s.setActive l).pond = s.pond := rfl
@[simp] theorem Device.setActive_xlate (s : Device) (l : List Coll) : (s.setActive l).xlate = s.xlate := rfl
@[simp] theorem Device.setActive_disp (s : Device) (l : List Coll) : (s.setActive l).disp = s.disp := rfl
@[simp] theorem Device.setActive_regul (s : Device) (l : List Coll) : (s.setActive l).regul = s.regul := rfl
@[simp] theorem Device.setActive_err (s : Device) (l : List Coll) : (s.setActive l).err = s.err := rfl
@[simp] theorem Device.setActive_edgeWrites (s : Device) (l : List Coll) : (s.setActive l).edgeWrites = s.edgeWrites := rfl
@[simp] theorem Device.setActive_reply (s : Device) (l : List Coll) : (s.setActive l).reply = s.reply := rfl
@[simp] theorem Device.setActive_out (s : Device) (l : List Coll) : (s.setActive l).out = s.out := rfl
@[simp] theorem Device.setActive_fresh (s : Device) (l : List Coll) : (s.setActive l).fresh = s.fresh := rfl
@[simp] theorem Device.setActive_safety (s : Device) (l : List Coll) : (s.setActive l).safety = s.safety := rfl
@[simp] theorem Device.setActive_pcie (s : Device) (l : List Coll) : (s.setActive l).pcie = s.pcie := rfl
@[simp] theorem Device.setActive_host (s : Device) (l : List Coll) : (s.setActive l).host = s.host := rfl
@[simp] theorem Device.setActive_latch (s : Device) (l : List Coll) : (s.setActive l).latch = s.latch := rfl
@[simp] theorem Device.setActive_link (s : Device) (l : List Coll) : (s.setActive l).link = s.link := rfl
@[simp] theorem Device.setActive_att (s : Device) (l : List Coll) : (s.setActive l).att = s.att := rfl
@[simp] theorem Device.setActive_chunks (s : Device) (l : List Coll) : (s.setActive l).chunks = s.chunks := rfl
@[simp] theorem Device.setActive_fusion (s : Device) (l : List Coll) : (s.setActive l).fusion = s.fusion := rfl
@[simp] theorem Device.setActive_collide (s : Device) (l : List Coll) : (s.setActive l).collide = s.collide := rfl
@[simp] theorem Device.setActive_solve (s : Device) (l : List Coll) : (s.setActive l).solve = s.solve := rfl
@[simp] theorem Device.setActive_ctrl (s : Device) (l : List Coll) : (s.setActive l).ctrl = s.ctrl := rfl
@[simp] theorem Device.setActive_lsio (s : Device) (l : List Coll) : (s.setActive l).lsio = s.lsio := rfl
@[simp] theorem Device.setActive_oliner (s : Device) (l : List Coll) : (s.setActive l).oliner = s.oliner := rfl
@[simp] theorem Device.setActive_selfTest (s : Device) (l : List Coll) : (s.setActive l).selfTest = s.selfTest := rfl
@[simp] theorem Device.setActive_bask (s : Device) (l : List Coll) : (s.setActive l).bask = s.bask := rfl
@[simp] theorem Device.setActive_eft (s : Device) (l : List Coll) : (s.setActive l).eft = s.eft := rfl
@[simp] theorem Device.setActive_probe (s : Device) (l : List Coll) : (s.setActive l).probe = s.probe := rfl
@[simp] theorem Device.setActive_enet (s : Device) (l : List Coll) : (s.setActive l).enet = s.enet := rfl
@[simp] theorem Device.setActive_regReqs (s : Device) (l : List Coll) : (s.setActive l).regReqs = s.regReqs := rfl

@[simp] theorem Device.setSolve_regs (s : Device) (die p : Nat) (z : Option Solve) : (s.setSolve die p z).regs = s.regs := rfl
@[simp] theorem Device.setSolve_mem (s : Device) (die p : Nat) (z : Option Solve) : (s.setSolve die p z).mem = s.mem := rfl
@[simp] theorem Device.setSolve_chorus (s : Device) (die p : Nat) (z : Option Solve) : (s.setSolve die p z).chorus = s.chorus := rfl
@[simp] theorem Device.setSolve_pond (s : Device) (die p : Nat) (z : Option Solve) : (s.setSolve die p z).pond = s.pond := rfl
@[simp] theorem Device.setSolve_xlate (s : Device) (die p : Nat) (z : Option Solve) : (s.setSolve die p z).xlate = s.xlate := rfl
@[simp] theorem Device.setSolve_disp (s : Device) (die p : Nat) (z : Option Solve) : (s.setSolve die p z).disp = s.disp := rfl
@[simp] theorem Device.setSolve_regul (s : Device) (die p : Nat) (z : Option Solve) : (s.setSolve die p z).regul = s.regul := rfl
@[simp] theorem Device.setSolve_err (s : Device) (die p : Nat) (z : Option Solve) : (s.setSolve die p z).err = s.err := rfl
@[simp] theorem Device.setSolve_edgeWrites (s : Device) (die p : Nat) (z : Option Solve) : (s.setSolve die p z).edgeWrites = s.edgeWrites := rfl
@[simp] theorem Device.setSolve_reply (s : Device) (die p : Nat) (z : Option Solve) : (s.setSolve die p z).reply = s.reply := rfl
@[simp] theorem Device.setSolve_out (s : Device) (die p : Nat) (z : Option Solve) : (s.setSolve die p z).out = s.out := rfl
@[simp] theorem Device.setSolve_fresh (s : Device) (die p : Nat) (z : Option Solve) : (s.setSolve die p z).fresh = s.fresh := rfl
@[simp] theorem Device.setSolve_safety (s : Device) (die p : Nat) (z : Option Solve) : (s.setSolve die p z).safety = s.safety := rfl
@[simp] theorem Device.setSolve_pcie (s : Device) (die p : Nat) (z : Option Solve) : (s.setSolve die p z).pcie = s.pcie := rfl
@[simp] theorem Device.setSolve_host (s : Device) (die p : Nat) (z : Option Solve) : (s.setSolve die p z).host = s.host := rfl
@[simp] theorem Device.setSolve_latch (s : Device) (die p : Nat) (z : Option Solve) : (s.setSolve die p z).latch = s.latch := rfl
@[simp] theorem Device.setSolve_link (s : Device) (die p : Nat) (z : Option Solve) : (s.setSolve die p z).link = s.link := rfl
@[simp] theorem Device.setSolve_att (s : Device) (die p : Nat) (z : Option Solve) : (s.setSolve die p z).att = s.att := rfl
@[simp] theorem Device.setSolve_chunks (s : Device) (die p : Nat) (z : Option Solve) : (s.setSolve die p z).chunks = s.chunks := rfl
@[simp] theorem Device.setSolve_coll (s : Device) (die p : Nat) (z : Option Solve) : (s.setSolve die p z).coll = s.coll := rfl
@[simp] theorem Device.setSolve_fusion (s : Device) (die p : Nat) (z : Option Solve) : (s.setSolve die p z).fusion = s.fusion := rfl
@[simp] theorem Device.setSolve_collide (s : Device) (die p : Nat) (z : Option Solve) : (s.setSolve die p z).collide = s.collide := rfl
@[simp] theorem Device.setSolve_ctrl (s : Device) (die p : Nat) (z : Option Solve) : (s.setSolve die p z).ctrl = s.ctrl := rfl
@[simp] theorem Device.setSolve_lsio (s : Device) (die p : Nat) (z : Option Solve) : (s.setSolve die p z).lsio = s.lsio := rfl
@[simp] theorem Device.setSolve_oliner (s : Device) (die p : Nat) (z : Option Solve) : (s.setSolve die p z).oliner = s.oliner := rfl
@[simp] theorem Device.setSolve_selfTest (s : Device) (die p : Nat) (z : Option Solve) : (s.setSolve die p z).selfTest = s.selfTest := rfl
@[simp] theorem Device.setSolve_bask (s : Device) (die p : Nat) (z : Option Solve) : (s.setSolve die p z).bask = s.bask := rfl
@[simp] theorem Device.setSolve_eft (s : Device) (die p : Nat) (z : Option Solve) : (s.setSolve die p z).eft = s.eft := rfl
@[simp] theorem Device.setSolve_probe (s : Device) (die p : Nat) (z : Option Solve) : (s.setSolve die p z).probe = s.probe := rfl
@[simp] theorem Device.setSolve_enet (s : Device) (die p : Nat) (z : Option Solve) : (s.setSolve die p z).enet = s.enet := rfl
@[simp] theorem Device.setSolve_regReqs (s : Device) (die p : Nat) (z : Option Solve) : (s.setSolve die p z).regReqs = s.regReqs := rfl

@[simp] theorem Device.setRefresh_regs (s : Device) (die p : Nat) (x : Option Refresh) : (s.setRefresh die p x).regs = s.regs := rfl
@[simp] theorem Device.setRefresh_mem (s : Device) (die p : Nat) (x : Option Refresh) : (s.setRefresh die p x).mem = s.mem := rfl
@[simp] theorem Device.setRefresh_chorus (s : Device) (die p : Nat) (x : Option Refresh) : (s.setRefresh die p x).chorus = s.chorus := rfl
@[simp] theorem Device.setRefresh_pond (s : Device) (die p : Nat) (x : Option Refresh) : (s.setRefresh die p x).pond = s.pond := rfl
@[simp] theorem Device.setRefresh_xlate (s : Device) (die p : Nat) (x : Option Refresh) : (s.setRefresh die p x).xlate = s.xlate := rfl
@[simp] theorem Device.setRefresh_disp (s : Device) (die p : Nat) (x : Option Refresh) : (s.setRefresh die p x).disp = s.disp := rfl
@[simp] theorem Device.setRefresh_regul (s : Device) (die p : Nat) (x : Option Refresh) : (s.setRefresh die p x).regul = s.regul := rfl
@[simp] theorem Device.setRefresh_err (s : Device) (die p : Nat) (x : Option Refresh) : (s.setRefresh die p x).err = s.err := rfl
@[simp] theorem Device.setRefresh_edgeWrites (s : Device) (die p : Nat) (x : Option Refresh) : (s.setRefresh die p x).edgeWrites = s.edgeWrites := rfl
@[simp] theorem Device.setRefresh_reply (s : Device) (die p : Nat) (x : Option Refresh) : (s.setRefresh die p x).reply = s.reply := rfl
@[simp] theorem Device.setRefresh_out (s : Device) (die p : Nat) (x : Option Refresh) : (s.setRefresh die p x).out = s.out := rfl
@[simp] theorem Device.setRefresh_fresh (s : Device) (die p : Nat) (x : Option Refresh) : (s.setRefresh die p x).fresh = s.fresh := rfl
@[simp] theorem Device.setRefresh_safety (s : Device) (die p : Nat) (x : Option Refresh) : (s.setRefresh die p x).safety = s.safety := rfl
@[simp] theorem Device.setRefresh_pcie (s : Device) (die p : Nat) (x : Option Refresh) : (s.setRefresh die p x).pcie = s.pcie := rfl
@[simp] theorem Device.setRefresh_host (s : Device) (die p : Nat) (x : Option Refresh) : (s.setRefresh die p x).host = s.host := rfl
@[simp] theorem Device.setRefresh_latch (s : Device) (die p : Nat) (x : Option Refresh) : (s.setRefresh die p x).latch = s.latch := rfl
@[simp] theorem Device.setRefresh_link (s : Device) (die p : Nat) (x : Option Refresh) : (s.setRefresh die p x).link = s.link := rfl
@[simp] theorem Device.setRefresh_att (s : Device) (die p : Nat) (x : Option Refresh) : (s.setRefresh die p x).att = s.att := rfl
@[simp] theorem Device.setRefresh_chunks (s : Device) (die p : Nat) (x : Option Refresh) : (s.setRefresh die p x).chunks = s.chunks := rfl
@[simp] theorem Device.setRefresh_coll (s : Device) (die p : Nat) (x : Option Refresh) : (s.setRefresh die p x).coll = s.coll := rfl
@[simp] theorem Device.setRefresh_fusion (s : Device) (die p : Nat) (x : Option Refresh) : (s.setRefresh die p x).fusion = s.fusion := rfl
@[simp] theorem Device.setRefresh_collide (s : Device) (die p : Nat) (x : Option Refresh) : (s.setRefresh die p x).collide = s.collide := rfl
@[simp] theorem Device.setRefresh_ctrl (s : Device) (die p : Nat) (x : Option Refresh) : (s.setRefresh die p x).ctrl = s.ctrl := rfl
@[simp] theorem Device.setRefresh_lsio (s : Device) (die p : Nat) (x : Option Refresh) : (s.setRefresh die p x).lsio = s.lsio := rfl
@[simp] theorem Device.setRefresh_oliner (s : Device) (die p : Nat) (x : Option Refresh) : (s.setRefresh die p x).oliner = s.oliner := rfl
@[simp] theorem Device.setRefresh_selfTest (s : Device) (die p : Nat) (x : Option Refresh) : (s.setRefresh die p x).selfTest = s.selfTest := rfl
@[simp] theorem Device.setRefresh_bask (s : Device) (die p : Nat) (x : Option Refresh) : (s.setRefresh die p x).bask = s.bask := rfl
@[simp] theorem Device.setRefresh_eft (s : Device) (die p : Nat) (x : Option Refresh) : (s.setRefresh die p x).eft = s.eft := rfl
@[simp] theorem Device.setRefresh_probe (s : Device) (die p : Nat) (x : Option Refresh) : (s.setRefresh die p x).probe = s.probe := rfl
@[simp] theorem Device.setRefresh_enet (s : Device) (die p : Nat) (x : Option Refresh) : (s.setRefresh die p x).enet = s.enet := rfl
@[simp] theorem Device.setRefresh_regReqs (s : Device) (die p : Nat) (x : Option Refresh) : (s.setRefresh die p x).regReqs = s.regReqs := rfl

@[simp] theorem Device.setCheck_regs (s : Device) (die idx : Nat) (x : Option CheckRun) : (s.setCheck die idx x).regs = s.regs := rfl
@[simp] theorem Device.setCheck_mem (s : Device) (die idx : Nat) (x : Option CheckRun) : (s.setCheck die idx x).mem = s.mem := rfl
@[simp] theorem Device.setCheck_chorus (s : Device) (die idx : Nat) (x : Option CheckRun) : (s.setCheck die idx x).chorus = s.chorus := rfl
@[simp] theorem Device.setCheck_pond (s : Device) (die idx : Nat) (x : Option CheckRun) : (s.setCheck die idx x).pond = s.pond := rfl
@[simp] theorem Device.setCheck_xlate (s : Device) (die idx : Nat) (x : Option CheckRun) : (s.setCheck die idx x).xlate = s.xlate := rfl
@[simp] theorem Device.setCheck_disp (s : Device) (die idx : Nat) (x : Option CheckRun) : (s.setCheck die idx x).disp = s.disp := rfl
@[simp] theorem Device.setCheck_regul (s : Device) (die idx : Nat) (x : Option CheckRun) : (s.setCheck die idx x).regul = s.regul := rfl
@[simp] theorem Device.setCheck_err (s : Device) (die idx : Nat) (x : Option CheckRun) : (s.setCheck die idx x).err = s.err := rfl
@[simp] theorem Device.setCheck_edgeWrites (s : Device) (die idx : Nat) (x : Option CheckRun) : (s.setCheck die idx x).edgeWrites = s.edgeWrites := rfl
@[simp] theorem Device.setCheck_reply (s : Device) (die idx : Nat) (x : Option CheckRun) : (s.setCheck die idx x).reply = s.reply := rfl
@[simp] theorem Device.setCheck_out (s : Device) (die idx : Nat) (x : Option CheckRun) : (s.setCheck die idx x).out = s.out := rfl
@[simp] theorem Device.setCheck_fresh (s : Device) (die idx : Nat) (x : Option CheckRun) : (s.setCheck die idx x).fresh = s.fresh := rfl
@[simp] theorem Device.setCheck_safety (s : Device) (die idx : Nat) (x : Option CheckRun) : (s.setCheck die idx x).safety = s.safety := rfl
@[simp] theorem Device.setCheck_pcie (s : Device) (die idx : Nat) (x : Option CheckRun) : (s.setCheck die idx x).pcie = s.pcie := rfl
@[simp] theorem Device.setCheck_host (s : Device) (die idx : Nat) (x : Option CheckRun) : (s.setCheck die idx x).host = s.host := rfl
@[simp] theorem Device.setCheck_latch (s : Device) (die idx : Nat) (x : Option CheckRun) : (s.setCheck die idx x).latch = s.latch := rfl
@[simp] theorem Device.setCheck_link (s : Device) (die idx : Nat) (x : Option CheckRun) : (s.setCheck die idx x).link = s.link := rfl
@[simp] theorem Device.setCheck_att (s : Device) (die idx : Nat) (x : Option CheckRun) : (s.setCheck die idx x).att = s.att := rfl
@[simp] theorem Device.setCheck_chunks (s : Device) (die idx : Nat) (x : Option CheckRun) : (s.setCheck die idx x).chunks = s.chunks := rfl
@[simp] theorem Device.setCheck_coll (s : Device) (die idx : Nat) (x : Option CheckRun) : (s.setCheck die idx x).coll = s.coll := rfl
@[simp] theorem Device.setCheck_fusion (s : Device) (die idx : Nat) (x : Option CheckRun) : (s.setCheck die idx x).fusion = s.fusion := rfl
@[simp] theorem Device.setCheck_solve (s : Device) (die idx : Nat) (x : Option CheckRun) : (s.setCheck die idx x).solve = s.solve := rfl
@[simp] theorem Device.setCheck_ctrl (s : Device) (die idx : Nat) (x : Option CheckRun) : (s.setCheck die idx x).ctrl = s.ctrl := rfl
@[simp] theorem Device.setCheck_lsio (s : Device) (die idx : Nat) (x : Option CheckRun) : (s.setCheck die idx x).lsio = s.lsio := rfl
@[simp] theorem Device.setCheck_oliner (s : Device) (die idx : Nat) (x : Option CheckRun) : (s.setCheck die idx x).oliner = s.oliner := rfl
@[simp] theorem Device.setCheck_selfTest (s : Device) (die idx : Nat) (x : Option CheckRun) : (s.setCheck die idx x).selfTest = s.selfTest := rfl
@[simp] theorem Device.setCheck_bask (s : Device) (die idx : Nat) (x : Option CheckRun) : (s.setCheck die idx x).bask = s.bask := rfl
@[simp] theorem Device.setCheck_eft (s : Device) (die idx : Nat) (x : Option CheckRun) : (s.setCheck die idx x).eft = s.eft := rfl
@[simp] theorem Device.setCheck_probe (s : Device) (die idx : Nat) (x : Option CheckRun) : (s.setCheck die idx x).probe = s.probe := rfl
@[simp] theorem Device.setCheck_enet (s : Device) (die idx : Nat) (x : Option CheckRun) : (s.setCheck die idx x).enet = s.enet := rfl
@[simp] theorem Device.setCheck_regReqs (s : Device) (die idx : Nat) (x : Option CheckRun) : (s.setCheck die idx x).regReqs = s.regReqs := rfl

@[simp] theorem Device.setLoop_regs (s : Device) (die n : Nat) (x : Loop) : (s.setLoop die n x).regs = s.regs := rfl
@[simp] theorem Device.setLoop_mem (s : Device) (die n : Nat) (x : Loop) : (s.setLoop die n x).mem = s.mem := rfl
@[simp] theorem Device.setLoop_chorus (s : Device) (die n : Nat) (x : Loop) : (s.setLoop die n x).chorus = s.chorus := rfl
@[simp] theorem Device.setLoop_pond (s : Device) (die n : Nat) (x : Loop) : (s.setLoop die n x).pond = s.pond := rfl
@[simp] theorem Device.setLoop_xlate (s : Device) (die n : Nat) (x : Loop) : (s.setLoop die n x).xlate = s.xlate := rfl
@[simp] theorem Device.setLoop_disp (s : Device) (die n : Nat) (x : Loop) : (s.setLoop die n x).disp = s.disp := rfl
@[simp] theorem Device.setLoop_regul (s : Device) (die n : Nat) (x : Loop) : (s.setLoop die n x).regul = s.regul := rfl
@[simp] theorem Device.setLoop_err (s : Device) (die n : Nat) (x : Loop) : (s.setLoop die n x).err = s.err := rfl
@[simp] theorem Device.setLoop_edgeWrites (s : Device) (die n : Nat) (x : Loop) : (s.setLoop die n x).edgeWrites = s.edgeWrites := rfl
@[simp] theorem Device.setLoop_reply (s : Device) (die n : Nat) (x : Loop) : (s.setLoop die n x).reply = s.reply := rfl
@[simp] theorem Device.setLoop_out (s : Device) (die n : Nat) (x : Loop) : (s.setLoop die n x).out = s.out := rfl
@[simp] theorem Device.setLoop_fresh (s : Device) (die n : Nat) (x : Loop) : (s.setLoop die n x).fresh = s.fresh := rfl
@[simp] theorem Device.setLoop_safety (s : Device) (die n : Nat) (x : Loop) : (s.setLoop die n x).safety = s.safety := rfl
@[simp] theorem Device.setLoop_pcie (s : Device) (die n : Nat) (x : Loop) : (s.setLoop die n x).pcie = s.pcie := rfl
@[simp] theorem Device.setLoop_host (s : Device) (die n : Nat) (x : Loop) : (s.setLoop die n x).host = s.host := rfl
@[simp] theorem Device.setLoop_latch (s : Device) (die n : Nat) (x : Loop) : (s.setLoop die n x).latch = s.latch := rfl
@[simp] theorem Device.setLoop_link (s : Device) (die n : Nat) (x : Loop) : (s.setLoop die n x).link = s.link := rfl
@[simp] theorem Device.setLoop_att (s : Device) (die n : Nat) (x : Loop) : (s.setLoop die n x).att = s.att := rfl
@[simp] theorem Device.setLoop_chunks (s : Device) (die n : Nat) (x : Loop) : (s.setLoop die n x).chunks = s.chunks := rfl
@[simp] theorem Device.setLoop_coll (s : Device) (die n : Nat) (x : Loop) : (s.setLoop die n x).coll = s.coll := rfl
@[simp] theorem Device.setLoop_fusion (s : Device) (die n : Nat) (x : Loop) : (s.setLoop die n x).fusion = s.fusion := rfl
@[simp] theorem Device.setLoop_collide (s : Device) (die n : Nat) (x : Loop) : (s.setLoop die n x).collide = s.collide := rfl
@[simp] theorem Device.setLoop_solve (s : Device) (die n : Nat) (x : Loop) : (s.setLoop die n x).solve = s.solve := rfl
@[simp] theorem Device.setLoop_lsio (s : Device) (die n : Nat) (x : Loop) : (s.setLoop die n x).lsio = s.lsio := rfl
@[simp] theorem Device.setLoop_oliner (s : Device) (die n : Nat) (x : Loop) : (s.setLoop die n x).oliner = s.oliner := rfl
@[simp] theorem Device.setLoop_selfTest (s : Device) (die n : Nat) (x : Loop) : (s.setLoop die n x).selfTest = s.selfTest := rfl
@[simp] theorem Device.setLoop_bask (s : Device) (die n : Nat) (x : Loop) : (s.setLoop die n x).bask = s.bask := rfl
@[simp] theorem Device.setLoop_eft (s : Device) (die n : Nat) (x : Loop) : (s.setLoop die n x).eft = s.eft := rfl
@[simp] theorem Device.setLoop_probe (s : Device) (die n : Nat) (x : Loop) : (s.setLoop die n x).probe = s.probe := rfl
@[simp] theorem Device.setLoop_enet (s : Device) (die n : Nat) (x : Loop) : (s.setLoop die n x).enet = s.enet := rfl
@[simp] theorem Device.setLoop_regReqs (s : Device) (die n : Nat) (x : Loop) : (s.setLoop die n x).regReqs = s.regReqs := rfl

@[simp] theorem Device.setTestRun_regs (s : Device) (die : Nat) (x : TestRun) : (s.setTestRun die x).regs = s.regs := rfl
@[simp] theorem Device.setTestRun_mem (s : Device) (die : Nat) (x : TestRun) : (s.setTestRun die x).mem = s.mem := rfl
@[simp] theorem Device.setTestRun_chorus (s : Device) (die : Nat) (x : TestRun) : (s.setTestRun die x).chorus = s.chorus := rfl
@[simp] theorem Device.setTestRun_pond (s : Device) (die : Nat) (x : TestRun) : (s.setTestRun die x).pond = s.pond := rfl
@[simp] theorem Device.setTestRun_xlate (s : Device) (die : Nat) (x : TestRun) : (s.setTestRun die x).xlate = s.xlate := rfl
@[simp] theorem Device.setTestRun_disp (s : Device) (die : Nat) (x : TestRun) : (s.setTestRun die x).disp = s.disp := rfl
@[simp] theorem Device.setTestRun_regul (s : Device) (die : Nat) (x : TestRun) : (s.setTestRun die x).regul = s.regul := rfl
@[simp] theorem Device.setTestRun_err (s : Device) (die : Nat) (x : TestRun) : (s.setTestRun die x).err = s.err := rfl
@[simp] theorem Device.setTestRun_edgeWrites (s : Device) (die : Nat) (x : TestRun) : (s.setTestRun die x).edgeWrites = s.edgeWrites := rfl
@[simp] theorem Device.setTestRun_reply (s : Device) (die : Nat) (x : TestRun) : (s.setTestRun die x).reply = s.reply := rfl
@[simp] theorem Device.setTestRun_out (s : Device) (die : Nat) (x : TestRun) : (s.setTestRun die x).out = s.out := rfl
@[simp] theorem Device.setTestRun_fresh (s : Device) (die : Nat) (x : TestRun) : (s.setTestRun die x).fresh = s.fresh := rfl
@[simp] theorem Device.setTestRun_safety (s : Device) (die : Nat) (x : TestRun) : (s.setTestRun die x).safety = s.safety := rfl
@[simp] theorem Device.setTestRun_pcie (s : Device) (die : Nat) (x : TestRun) : (s.setTestRun die x).pcie = s.pcie := rfl
@[simp] theorem Device.setTestRun_host (s : Device) (die : Nat) (x : TestRun) : (s.setTestRun die x).host = s.host := rfl
@[simp] theorem Device.setTestRun_latch (s : Device) (die : Nat) (x : TestRun) : (s.setTestRun die x).latch = s.latch := rfl
@[simp] theorem Device.setTestRun_link (s : Device) (die : Nat) (x : TestRun) : (s.setTestRun die x).link = s.link := rfl
@[simp] theorem Device.setTestRun_att (s : Device) (die : Nat) (x : TestRun) : (s.setTestRun die x).att = s.att := rfl
@[simp] theorem Device.setTestRun_chunks (s : Device) (die : Nat) (x : TestRun) : (s.setTestRun die x).chunks = s.chunks := rfl
@[simp] theorem Device.setTestRun_coll (s : Device) (die : Nat) (x : TestRun) : (s.setTestRun die x).coll = s.coll := rfl
@[simp] theorem Device.setTestRun_fusion (s : Device) (die : Nat) (x : TestRun) : (s.setTestRun die x).fusion = s.fusion := rfl
@[simp] theorem Device.setTestRun_collide (s : Device) (die : Nat) (x : TestRun) : (s.setTestRun die x).collide = s.collide := rfl
@[simp] theorem Device.setTestRun_solve (s : Device) (die : Nat) (x : TestRun) : (s.setTestRun die x).solve = s.solve := rfl
@[simp] theorem Device.setTestRun_lsio (s : Device) (die : Nat) (x : TestRun) : (s.setTestRun die x).lsio = s.lsio := rfl
@[simp] theorem Device.setTestRun_oliner (s : Device) (die : Nat) (x : TestRun) : (s.setTestRun die x).oliner = s.oliner := rfl
@[simp] theorem Device.setTestRun_selfTest (s : Device) (die : Nat) (x : TestRun) : (s.setTestRun die x).selfTest = s.selfTest := rfl
@[simp] theorem Device.setTestRun_bask (s : Device) (die : Nat) (x : TestRun) : (s.setTestRun die x).bask = s.bask := rfl
@[simp] theorem Device.setTestRun_eft (s : Device) (die : Nat) (x : TestRun) : (s.setTestRun die x).eft = s.eft := rfl
@[simp] theorem Device.setTestRun_probe (s : Device) (die : Nat) (x : TestRun) : (s.setTestRun die x).probe = s.probe := rfl
@[simp] theorem Device.setTestRun_enet (s : Device) (die : Nat) (x : TestRun) : (s.setTestRun die x).enet = s.enet := rfl
@[simp] theorem Device.setTestRun_regReqs (s : Device) (die : Nat) (x : TestRun) : (s.setTestRun die x).regReqs = s.regReqs := rfl

@[simp] theorem Device.setSlotPend_regs (s : Device) (die : Nat) (l : List SlotChange) : (s.setSlotPend die l).regs = s.regs := rfl
@[simp] theorem Device.setSlotPend_mem (s : Device) (die : Nat) (l : List SlotChange) : (s.setSlotPend die l).mem = s.mem := rfl
@[simp] theorem Device.setSlotPend_chorus (s : Device) (die : Nat) (l : List SlotChange) : (s.setSlotPend die l).chorus = s.chorus := rfl
@[simp] theorem Device.setSlotPend_pond (s : Device) (die : Nat) (l : List SlotChange) : (s.setSlotPend die l).pond = s.pond := rfl
@[simp] theorem Device.setSlotPend_xlate (s : Device) (die : Nat) (l : List SlotChange) : (s.setSlotPend die l).xlate = s.xlate := rfl
@[simp] theorem Device.setSlotPend_disp (s : Device) (die : Nat) (l : List SlotChange) : (s.setSlotPend die l).disp = s.disp := rfl
@[simp] theorem Device.setSlotPend_regul (s : Device) (die : Nat) (l : List SlotChange) : (s.setSlotPend die l).regul = s.regul := rfl
@[simp] theorem Device.setSlotPend_err (s : Device) (die : Nat) (l : List SlotChange) : (s.setSlotPend die l).err = s.err := rfl
@[simp] theorem Device.setSlotPend_edgeWrites (s : Device) (die : Nat) (l : List SlotChange) : (s.setSlotPend die l).edgeWrites = s.edgeWrites := rfl
@[simp] theorem Device.setSlotPend_reply (s : Device) (die : Nat) (l : List SlotChange) : (s.setSlotPend die l).reply = s.reply := rfl
@[simp] theorem Device.setSlotPend_out (s : Device) (die : Nat) (l : List SlotChange) : (s.setSlotPend die l).out = s.out := rfl
@[simp] theorem Device.setSlotPend_fresh (s : Device) (die : Nat) (l : List SlotChange) : (s.setSlotPend die l).fresh = s.fresh := rfl
@[simp] theorem Device.setSlotPend_safety (s : Device) (die : Nat) (l : List SlotChange) : (s.setSlotPend die l).safety = s.safety := rfl
@[simp] theorem Device.setSlotPend_pcie (s : Device) (die : Nat) (l : List SlotChange) : (s.setSlotPend die l).pcie = s.pcie := rfl
@[simp] theorem Device.setSlotPend_host (s : Device) (die : Nat) (l : List SlotChange) : (s.setSlotPend die l).host = s.host := rfl
@[simp] theorem Device.setSlotPend_latch (s : Device) (die : Nat) (l : List SlotChange) : (s.setSlotPend die l).latch = s.latch := rfl
@[simp] theorem Device.setSlotPend_link (s : Device) (die : Nat) (l : List SlotChange) : (s.setSlotPend die l).link = s.link := rfl
@[simp] theorem Device.setSlotPend_att (s : Device) (die : Nat) (l : List SlotChange) : (s.setSlotPend die l).att = s.att := rfl
@[simp] theorem Device.setSlotPend_chunks (s : Device) (die : Nat) (l : List SlotChange) : (s.setSlotPend die l).chunks = s.chunks := rfl
@[simp] theorem Device.setSlotPend_coll (s : Device) (die : Nat) (l : List SlotChange) : (s.setSlotPend die l).coll = s.coll := rfl
@[simp] theorem Device.setSlotPend_fusion (s : Device) (die : Nat) (l : List SlotChange) : (s.setSlotPend die l).fusion = s.fusion := rfl
@[simp] theorem Device.setSlotPend_collide (s : Device) (die : Nat) (l : List SlotChange) : (s.setSlotPend die l).collide = s.collide := rfl
@[simp] theorem Device.setSlotPend_solve (s : Device) (die : Nat) (l : List SlotChange) : (s.setSlotPend die l).solve = s.solve := rfl
@[simp] theorem Device.setSlotPend_lsio (s : Device) (die : Nat) (l : List SlotChange) : (s.setSlotPend die l).lsio = s.lsio := rfl
@[simp] theorem Device.setSlotPend_oliner (s : Device) (die : Nat) (l : List SlotChange) : (s.setSlotPend die l).oliner = s.oliner := rfl
@[simp] theorem Device.setSlotPend_selfTest (s : Device) (die : Nat) (l : List SlotChange) : (s.setSlotPend die l).selfTest = s.selfTest := rfl
@[simp] theorem Device.setSlotPend_bask (s : Device) (die : Nat) (l : List SlotChange) : (s.setSlotPend die l).bask = s.bask := rfl
@[simp] theorem Device.setSlotPend_eft (s : Device) (die : Nat) (l : List SlotChange) : (s.setSlotPend die l).eft = s.eft := rfl
@[simp] theorem Device.setSlotPend_probe (s : Device) (die : Nat) (l : List SlotChange) : (s.setSlotPend die l).probe = s.probe := rfl
@[simp] theorem Device.setSlotPend_enet (s : Device) (die : Nat) (l : List SlotChange) : (s.setSlotPend die l).enet = s.enet := rfl
@[simp] theorem Device.setSlotPend_regReqs (s : Device) (die : Nat) (l : List SlotChange) : (s.setSlotPend die l).regReqs = s.regReqs := rfl

@[simp] theorem Device.setWaitingOuts_regs (s : Device) (die : Nat) (l : List (Nat × Nat × Option Int)) : (s.setWaitingOuts die l).regs = s.regs := rfl
@[simp] theorem Device.setWaitingOuts_mem (s : Device) (die : Nat) (l : List (Nat × Nat × Option Int)) : (s.setWaitingOuts die l).mem = s.mem := rfl
@[simp] theorem Device.setWaitingOuts_chorus (s : Device) (die : Nat) (l : List (Nat × Nat × Option Int)) : (s.setWaitingOuts die l).chorus = s.chorus := rfl
@[simp] theorem Device.setWaitingOuts_pond (s : Device) (die : Nat) (l : List (Nat × Nat × Option Int)) : (s.setWaitingOuts die l).pond = s.pond := rfl
@[simp] theorem Device.setWaitingOuts_xlate (s : Device) (die : Nat) (l : List (Nat × Nat × Option Int)) : (s.setWaitingOuts die l).xlate = s.xlate := rfl
@[simp] theorem Device.setWaitingOuts_disp (s : Device) (die : Nat) (l : List (Nat × Nat × Option Int)) : (s.setWaitingOuts die l).disp = s.disp := rfl
@[simp] theorem Device.setWaitingOuts_regul (s : Device) (die : Nat) (l : List (Nat × Nat × Option Int)) : (s.setWaitingOuts die l).regul = s.regul := rfl
@[simp] theorem Device.setWaitingOuts_err (s : Device) (die : Nat) (l : List (Nat × Nat × Option Int)) : (s.setWaitingOuts die l).err = s.err := rfl
@[simp] theorem Device.setWaitingOuts_edgeWrites (s : Device) (die : Nat) (l : List (Nat × Nat × Option Int)) : (s.setWaitingOuts die l).edgeWrites = s.edgeWrites := rfl
@[simp] theorem Device.setWaitingOuts_reply (s : Device) (die : Nat) (l : List (Nat × Nat × Option Int)) : (s.setWaitingOuts die l).reply = s.reply := rfl
@[simp] theorem Device.setWaitingOuts_out (s : Device) (die : Nat) (l : List (Nat × Nat × Option Int)) : (s.setWaitingOuts die l).out = s.out := rfl
@[simp] theorem Device.setWaitingOuts_fresh (s : Device) (die : Nat) (l : List (Nat × Nat × Option Int)) : (s.setWaitingOuts die l).fresh = s.fresh := rfl
@[simp] theorem Device.setWaitingOuts_safety (s : Device) (die : Nat) (l : List (Nat × Nat × Option Int)) : (s.setWaitingOuts die l).safety = s.safety := rfl
@[simp] theorem Device.setWaitingOuts_pcie (s : Device) (die : Nat) (l : List (Nat × Nat × Option Int)) : (s.setWaitingOuts die l).pcie = s.pcie := rfl
@[simp] theorem Device.setWaitingOuts_host (s : Device) (die : Nat) (l : List (Nat × Nat × Option Int)) : (s.setWaitingOuts die l).host = s.host := rfl
@[simp] theorem Device.setWaitingOuts_latch (s : Device) (die : Nat) (l : List (Nat × Nat × Option Int)) : (s.setWaitingOuts die l).latch = s.latch := rfl
@[simp] theorem Device.setWaitingOuts_link (s : Device) (die : Nat) (l : List (Nat × Nat × Option Int)) : (s.setWaitingOuts die l).link = s.link := rfl
@[simp] theorem Device.setWaitingOuts_att (s : Device) (die : Nat) (l : List (Nat × Nat × Option Int)) : (s.setWaitingOuts die l).att = s.att := rfl
@[simp] theorem Device.setWaitingOuts_chunks (s : Device) (die : Nat) (l : List (Nat × Nat × Option Int)) : (s.setWaitingOuts die l).chunks = s.chunks := rfl
@[simp] theorem Device.setWaitingOuts_coll (s : Device) (die : Nat) (l : List (Nat × Nat × Option Int)) : (s.setWaitingOuts die l).coll = s.coll := rfl
@[simp] theorem Device.setWaitingOuts_fusion (s : Device) (die : Nat) (l : List (Nat × Nat × Option Int)) : (s.setWaitingOuts die l).fusion = s.fusion := rfl
@[simp] theorem Device.setWaitingOuts_collide (s : Device) (die : Nat) (l : List (Nat × Nat × Option Int)) : (s.setWaitingOuts die l).collide = s.collide := rfl
@[simp] theorem Device.setWaitingOuts_solve (s : Device) (die : Nat) (l : List (Nat × Nat × Option Int)) : (s.setWaitingOuts die l).solve = s.solve := rfl
@[simp] theorem Device.setWaitingOuts_lsio (s : Device) (die : Nat) (l : List (Nat × Nat × Option Int)) : (s.setWaitingOuts die l).lsio = s.lsio := rfl
@[simp] theorem Device.setWaitingOuts_oliner (s : Device) (die : Nat) (l : List (Nat × Nat × Option Int)) : (s.setWaitingOuts die l).oliner = s.oliner := rfl
@[simp] theorem Device.setWaitingOuts_selfTest (s : Device) (die : Nat) (l : List (Nat × Nat × Option Int)) : (s.setWaitingOuts die l).selfTest = s.selfTest := rfl
@[simp] theorem Device.setWaitingOuts_bask (s : Device) (die : Nat) (l : List (Nat × Nat × Option Int)) : (s.setWaitingOuts die l).bask = s.bask := rfl
@[simp] theorem Device.setWaitingOuts_eft (s : Device) (die : Nat) (l : List (Nat × Nat × Option Int)) : (s.setWaitingOuts die l).eft = s.eft := rfl
@[simp] theorem Device.setWaitingOuts_probe (s : Device) (die : Nat) (l : List (Nat × Nat × Option Int)) : (s.setWaitingOuts die l).probe = s.probe := rfl
@[simp] theorem Device.setWaitingOuts_enet (s : Device) (die : Nat) (l : List (Nat × Nat × Option Int)) : (s.setWaitingOuts die l).enet = s.enet := rfl
@[simp] theorem Device.setWaitingOuts_regReqs (s : Device) (die : Nat) (l : List (Nat × Nat × Option Int)) : (s.setWaitingOuts die l).regReqs = s.regReqs := rfl

@[simp] theorem Device.setMsix_regs (s : Device) (die v : Nat) (x : Msix) : (s.setMsix die v x).regs = s.regs := rfl
@[simp] theorem Device.setMsix_mem (s : Device) (die v : Nat) (x : Msix) : (s.setMsix die v x).mem = s.mem := rfl
@[simp] theorem Device.setMsix_chorus (s : Device) (die v : Nat) (x : Msix) : (s.setMsix die v x).chorus = s.chorus := rfl
@[simp] theorem Device.setMsix_pond (s : Device) (die v : Nat) (x : Msix) : (s.setMsix die v x).pond = s.pond := rfl
@[simp] theorem Device.setMsix_xlate (s : Device) (die v : Nat) (x : Msix) : (s.setMsix die v x).xlate = s.xlate := rfl
@[simp] theorem Device.setMsix_disp (s : Device) (die v : Nat) (x : Msix) : (s.setMsix die v x).disp = s.disp := rfl
@[simp] theorem Device.setMsix_regul (s : Device) (die v : Nat) (x : Msix) : (s.setMsix die v x).regul = s.regul := rfl
@[simp] theorem Device.setMsix_err (s : Device) (die v : Nat) (x : Msix) : (s.setMsix die v x).err = s.err := rfl
@[simp] theorem Device.setMsix_edgeWrites (s : Device) (die v : Nat) (x : Msix) : (s.setMsix die v x).edgeWrites = s.edgeWrites := rfl
@[simp] theorem Device.setMsix_reply (s : Device) (die v : Nat) (x : Msix) : (s.setMsix die v x).reply = s.reply := rfl
@[simp] theorem Device.setMsix_out (s : Device) (die v : Nat) (x : Msix) : (s.setMsix die v x).out = s.out := rfl
@[simp] theorem Device.setMsix_fresh (s : Device) (die v : Nat) (x : Msix) : (s.setMsix die v x).fresh = s.fresh := rfl
@[simp] theorem Device.setMsix_safety (s : Device) (die v : Nat) (x : Msix) : (s.setMsix die v x).safety = s.safety := rfl
@[simp] theorem Device.setMsix_host (s : Device) (die v : Nat) (x : Msix) : (s.setMsix die v x).host = s.host := rfl
@[simp] theorem Device.setMsix_latch (s : Device) (die v : Nat) (x : Msix) : (s.setMsix die v x).latch = s.latch := rfl
@[simp] theorem Device.setMsix_link (s : Device) (die v : Nat) (x : Msix) : (s.setMsix die v x).link = s.link := rfl
@[simp] theorem Device.setMsix_att (s : Device) (die v : Nat) (x : Msix) : (s.setMsix die v x).att = s.att := rfl
@[simp] theorem Device.setMsix_chunks (s : Device) (die v : Nat) (x : Msix) : (s.setMsix die v x).chunks = s.chunks := rfl
@[simp] theorem Device.setMsix_coll (s : Device) (die v : Nat) (x : Msix) : (s.setMsix die v x).coll = s.coll := rfl
@[simp] theorem Device.setMsix_fusion (s : Device) (die v : Nat) (x : Msix) : (s.setMsix die v x).fusion = s.fusion := rfl
@[simp] theorem Device.setMsix_collide (s : Device) (die v : Nat) (x : Msix) : (s.setMsix die v x).collide = s.collide := rfl
@[simp] theorem Device.setMsix_solve (s : Device) (die v : Nat) (x : Msix) : (s.setMsix die v x).solve = s.solve := rfl
@[simp] theorem Device.setMsix_ctrl (s : Device) (die v : Nat) (x : Msix) : (s.setMsix die v x).ctrl = s.ctrl := rfl
@[simp] theorem Device.setMsix_lsio (s : Device) (die v : Nat) (x : Msix) : (s.setMsix die v x).lsio = s.lsio := rfl
@[simp] theorem Device.setMsix_oliner (s : Device) (die v : Nat) (x : Msix) : (s.setMsix die v x).oliner = s.oliner := rfl
@[simp] theorem Device.setMsix_selfTest (s : Device) (die v : Nat) (x : Msix) : (s.setMsix die v x).selfTest = s.selfTest := rfl
@[simp] theorem Device.setMsix_bask (s : Device) (die v : Nat) (x : Msix) : (s.setMsix die v x).bask = s.bask := rfl
@[simp] theorem Device.setMsix_eft (s : Device) (die v : Nat) (x : Msix) : (s.setMsix die v x).eft = s.eft := rfl
@[simp] theorem Device.setMsix_probe (s : Device) (die v : Nat) (x : Msix) : (s.setMsix die v x).probe = s.probe := rfl
@[simp] theorem Device.setMsix_enet (s : Device) (die v : Nat) (x : Msix) : (s.setMsix die v x).enet = s.enet := rfl
@[simp] theorem Device.setMsix_regReqs (s : Device) (die v : Nat) (x : Msix) : (s.setMsix die v x).regReqs = s.regReqs := rfl

/-! ### Register fields -/

/-- A field reads back what was written, narrowed to its width. -/
@[simp] theorem Device.rd_wr_same (s : Device) (d : Nat) (f : Fld) (v : Nat) : (s.wr d f v).rd d f = v % 2 ^ f.w := by
  simp [Device.rd, Device.wr]

/-- A field keeps its value when one at another place is written. -/
theorem Device.rd_wr_ne (s : Device) (d e : Nat) (f g : Fld) (v : Nat) (h : g.key e ≠ f.key d) : (s.wr d f v).rd e g = s.rd e g := by
  simp [Device.rd, Device.wr, SMap.get_put_ne _ _ _ _ h]

theorem Device.rd_wr (s : Device) (d e : Nat) (f g : Fld) (v : Nat) (hr : g.key e = f.key d → g.rst = f.rst) :
    (s.wr d f v).rd e g = if g.key e = f.key d then v % 2 ^ f.w else s.rd e g := by
  split
  · rename_i h; simp [Device.rd, Device.wr, h, hr h]
  · exact Device.rd_wr_ne s d e f g v ‹_›

/-- Reads of a field depend on the registers only. -/
theorem Device.rd_congr {s t : Device} (h : s.regs = t.regs) (d : Nat) (f : Fld) : s.rd d f = t.rd d f := by simp [Device.rd, h]

@[simp] theorem Device.canon_rd (s : Device) (d : Nat) (f : Fld) : s.canon.rd d f = s.rd d f := rfl
@[simp] theorem Device.answer_rd (s : Device) (a b d : Nat) (f : Fld) : (s.answer a b).rd d f = s.rd d f := rfl
@[simp] theorem Device.emit_rd (s : Device) (m : Msg) (d : Nat) (f : Fld) : (s.emit m).rd d f = s.rd d f := rfl

/-! ### Bytes -/

@[simp] theorem Device.byte_setByte_same (s : Device) (a v : Nat) : (s.setByte a v).byte a = v % 256 := by
  simp [Device.byte, Device.setByte]

theorem Device.byte_setByte_ne (s : Device) {a b : Nat} (v : Nat) (h : b ≠ a) : (s.setByte a v).byte b = s.byte b := by
  simp [Device.byte, Device.setByte, SMap.get_put_ne _ _ _ _ h]

/-- The canonical form of memory reads as memory did. -/
@[simp] theorem Device.canon_byte (s : Device) (a : Nat) : s.canon.byte a = s.byte a := by simp [Device.byte, Device.canon]

/-- Every byte outside the `n` bytes from `a` reads as before a store of them. -/
theorem Device.byte_store_ne (s : Device) (a v n b : Nat) (h : b < a ∨ a + n ≤ b) : (s.store a v n).byte b = s.byte b := by
  induction n generalizing s a v with
  | zero => rfl
  | succ n ih =>
    rw [Device.store, ih _ _ _ (by omega), Device.byte_setByte_ne _ _ (by omega)]

/-- A load of what was stored gives its low bytes. -/
theorem Device.load_store (s : Device) (a v n : Nat) : (s.store a v n).load a n = v % 256 ^ n := by
  induction n generalizing s a v with
  | zero => simp [Device.load, Nat.mod_one]
  | succ n ih =>
    simp only [Device.load, Device.store, ih]
    rw [Device.byte_store_ne _ _ _ _ _ (by omega), Device.byte_setByte_same, Nat.mod_mod, Nat.pow_succ, Nat.mul_comm (256 ^ n) 256,
      Nat.mod_mul]

@[simp] theorem Device.store_regs (s : Device) (a v n : Nat) : (s.store a v n).regs = s.regs := by
  induction n generalizing s a v with
  | zero => rfl
  | succ n ih => rw [Device.store, ih, Device.setByte_regs]

@[simp] theorem Device.store_regReqs (s : Device) (a v n : Nat) : (s.store a v n).regReqs = s.regReqs := by
  induction n generalizing s a v with
  | zero => rfl
  | succ n ih => rw [Device.store, ih, Device.setByte_regReqs]

/-! ### The canonical form -/

/-- A write of a byte keeps the canonical form. -/
theorem Device.wf_setByte (s : Device) (a v : Nat) (h : Memory.wf s.mem = true) : Memory.wf (s.setByte a v).mem = true :=
  SMap.wf_put (0 : Byte) s.mem a _ h

/-- A store keeps the canonical form. -/
theorem Device.wf_store (s : Device) (a v n : Nat) (h : Memory.wf s.mem = true) : Memory.wf (s.store a v n).mem = true := by
  induction n generalizing s a v with
  | zero => exact h
  | succ n ih => exact ih _ _ _ (s.wf_setByte _ _ h)

/-- What ends every command leaves memory in its canonical form. -/
theorem Device.wf_canon (s : Device) : Memory.wf s.canon.mem = true := SMap.wf_norm (0 : Byte) s.mem

/-- A device whose memory is canonical is left as it is. -/
theorem Device.canon_eq (s : Device) (h : Memory.wf s.mem = true) : s.canon = s := by
  unfold Device.canon; rw [SMap.norm_wf _ _ h]

end Sys2Proof.Machine
end

