-- ==== Sys2Proof/Laws/Ops.lean ====
section
/-!
SUPPORT. What ends every command, said once: register requests are performed, memory is canonical, the queue is left alone.
-/
namespace Sys2Proof.Machine

/-- With no request left there is nothing to perform. -/
theorem Device.settle_of_nil (s : Device) (n : Nat) (h : s.regReqs = []) (hs : s.regul.sent = []) : s.settle n = s := by
  cases n with
  | zero => cases s; rename RegulSt => r; cases r; simp_all [Device.settle]
  | succ n => simp [Device.settle, h, hs]

/-- However many rounds it takes, none is left in the end. -/
theorem Device.settle_nil (s : Device) (n : Nat) : (s.settle n).regReqs = [] ∧ (s.settle n).regul.sent = [] := by
  induction n generalizing s with
  | zero => exact ⟨rfl, rfl⟩
  | succ n ih =>
    simp only [Device.settle]
    split
    · simp_all
    · exact ih _

/-- Every command ends in a sound device. -/
theorem Device.done_sound (s : Device) : s.done.sound := ⟨Device.wf_canon _, Device.settle_nil _ _⟩

/-- A command that brings no request ends with memory made canonical, and nothing else. -/
theorem Device.done_of_nil (s : Device) (h : s.regReqs = []) (hs : s.regul.sent = []) : s.done = s.canon := by
  rw [Device.done, Device.settle_of_nil s _ h hs]

/-- A sound device is left as it is. -/
theorem Device.done_eq (s : Device) (h : s.sound) : s.done = s := by
  rw [Device.done_of_nil s h.2.1 h.2.2, Device.canon_eq s h.1]

/-- The same, from its two halves. -/
theorem Device.done_eq' (s : Device) (hm : Memory.wf s.mem = true) (hr : s.regReqs = []) (hs : s.regul.sent = []) : s.done = s :=
  s.done_eq ⟨hm, hr, hs⟩

/-- A command that leaves memory and the requests of a sound device alone ends where its body does. -/
theorem Device.done_same {s d : Device} (h : s.sound) (hm : d.mem = s.mem) (hr : d.regReqs = s.regReqs) (hs : d.regul.sent = s.regul.sent) :
    d.done = d := d.done_eq ⟨hm ▸ h.1, hr ▸ h.2.1, hs ▸ h.2.2⟩

theorem State.upd_eq (s : State) (f : Device → Device) : s.upd f = .next { s with dev := (f s.dev).done } := rfl

/-- A fold whose every step keeps a view of the device keeps it. -/
theorem foldl_keeps {α β : Type} (v : Device → β) (f : Device → α → Device) (h : ∀ s a, v (f s a) = v s) (l : List α) (s : Device) :
    v (l.foldl f s) = v s := by
  induction l generalizing s with
  | nil => rfl
  | cons a l ih => rw [List.foldl_cons, ih, h]

end Sys2Proof.Machine
end

