-- ==== Sys2Proof/Tests/Slice0.lean ====
section
/-!
SUPPORT. Tests: for each check of `Instr.wellFormed` a term that it refuses beside one that it takes, one value that a standard
states, and for each statement that has hypotheses a state and operands that meet all of them together.
-/
namespace Sys2Proof.Tests
open Sys2Proof.Machine


/-! ## Ill-formed commands are refused -/

/-- A header, an issue, a request and an arrival that are well formed, and sixteen words with a given opcode and word 1. -/
def head0 : FlitHead :=
  { dst := 0, src := 1, cls := 0, fixed := false, job0 := true, hops := 0, seq := 0, ack := 0, crVc := 0, crCls := 0, cr := 0 }
def issue0 : Issue := { work := .ring 0, entry := 0, cores := [0, 1] }
def req0 : Req :=
  { die := 0, master := 0, home := 0, addr := 0x1000, len := 4, write := false, data := 0, fixed := false, cls := 0, coreWords := [], work := none }
def arr0 : Arrival := { die := 0, group := 0, seq := 0, dev := 1, kind := 0, units := 1, rows := 0, data := [] }
def words0 (op w1 : Nat) : List Nat := [op * 2 ^ 24, w1] ++ List.replicate 14 0

theorem test_wf_below : (Instr.mtimecmpReached 0 3 1).wellFormed = true ∧ (Instr.mtimecmpReached 0 4 1).wellFormed = false := by decide
theorem test_wf_die : (Instr.wakingDone 3).wellFormed = true ∧ (Instr.wakingDone 4).wellFormed = false := by decide
theorem test_wf_core : (Instr.commandEnd 255).wellFormed = true ∧ (Instr.commandEnd 256).wellFormed = false := by decide
theorem test_wf_word :
    (Instr.doorbell 0 (2 ^ 32 - 1)).wellFormed = true ∧ (Instr.doorbell 0 (2 ^ 32)).wellFormed = false := by decide
theorem test_wf_bytes :
    (Instr.spiTransactionDone 0 [255]).wellFormed = true ∧ (Instr.spiTransactionDone 0 [0, 256]).wellFormed = false := by decide
theorem test_wf_range :
    (Instr.corePortAccess 0 (.ring 0) (some (2 ^ 48 - 4, 4)) none [] false).wellFormed = true ∧
      (Instr.corePortAccess 0 (.ring 0) (some (2 ^ 48 - 3, 4)) none [] false).wellFormed = false ∧
      (Instr.corePortAccess 0 (.ring 0) (some (64, 0)) none [] false).wellFormed = false := by decide
theorem test_wf_work :
    (Instr.dmaDescriptorStart 0 0 (.ring 262143) 0).wellFormed = true ∧
      (Instr.dmaDescriptorStart 0 0 (.ring 262144) 0).wellFormed = false ∧
      (Instr.dmaDescriptorStart 0 0 (.slice 4 0) 0).wellFormed = false := by decide
theorem test_wf_issue :
    (Instr.nop issue0 (words0 0 0)).wellFormed = true ∧
      (Instr.nop { issue0 with cores := [] } (words0 0 0)).wellFormed = false ∧
      (Instr.nop { issue0 with cores := [7, 7] } (words0 0 0)).wellFormed = false := by decide
theorem test_wf_words :
    (Instr.matrix issue0 (words0 0x10 0) []).wellFormed = true ∧
      (Instr.matrix issue0 (words0 0x10 0) [0]).wellFormed = false := by decide
theorem test_wf_opcode :
    (Instr.syncAdd issue0 (words0 0x20 0)).wellFormed = true ∧ (Instr.syncAdd issue0 (words0 0x21 0)).wellFormed = false := by decide
theorem test_wf_word1 :
    (Instr.swapIn issue0 (words0 0x14 (2 ^ 31))).wellFormed = true ∧
      (Instr.swapOut issue0 (words0 0x14 (2 ^ 31))).wellFormed = false := by decide
theorem test_wf_upset :
    (Instr.lp5xPatrol 0 [{ word := 0, ue := false, bit := 71, syn := 0, flip := 0 }]).wellFormed = true ∧
      (Instr.lp5xPatrol 0 [{ word := 0, ue := false, bit := 72, syn := 0, flip := 0 }]).wellFormed = false := by decide
theorem test_wf_req :
    (Instr.requestTimeout { req0 with len := 64 } 0).wellFormed = true ∧
      (Instr.requestTimeout { req0 with len := 65 } 0).wellFormed = false := by decide
theorem test_wf_head :
    (Instr.idleFlit 0 { head0 with cr := 4 }).wellFormed = true ∧ (Instr.idleFlit 0 { head0 with cr := 5 }).wellFormed = false := by decide
theorem test_wf_note :
    (Instr.tickFlit 0 head0 ⟨0, 0⟩ 0 (some (65535, 0))).wellFormed = true ∧
      (Instr.tickFlit 0 head0 ⟨0, 0⟩ 0 (some (65536, 0))).wellFormed = false := by decide
theorem test_wf_merge :
    (Instr.mergePartial (.node 0 0 3 0)).wellFormed = true ∧ (Instr.mergePartial (.node 0 0 4 0)).wellFormed = false := by decide
theorem test_wf_arrival :
    (Instr.collectiveContribution head0 arr0).wellFormed = true ∧
      (Instr.collectiveContribution head0 { arr0 with kind := 4 }).wellFormed = false := by decide
theorem test_wf_detection :
    (Instr.fusionContribution 0 [{ time := 0, pos := [0, 0, 0], var := 0, cls := 0, stream := 255 }]).wellFormed = true ∧
      (Instr.fusionContribution 0 [{ time := 0, pos := [0, 0, 0], var := 0, cls := 0, stream := 256 }]).wellFormed = false := by decide
theorem test_wf_start :
    (Instr.refclkPresent { bridges := [true, true, true, true], flash := none, ages := List.replicate 4 (0, []) }).wellFormed = true ∧
      (Instr.refclkPresent { bridges := [true], flash := none, ages := List.replicate 4 (0, []) }).wellFormed = false := by decide
theorem test_wf_halt_target :
    (Instr.haltReq 0x1001).wellFormed = true ∧ (Instr.haltReq 0x1400).wellFormed = false := by decide

theorem test_wf_caps :
    (Instr.lp5xTrainingDone true [0, 0, 0, 0]).wellFormed = true ∧ (Instr.lp5xTrainingDone true [0, 0, 0]).wellFormed = false := by decide

/-! ## Values that a standard states -/

/-- SHA-512 of "abc", the example of FIPS 180 (R1 names the standard). -/
theorem test_sha512_abc :
    beNum (sha512Bytes [0x61, 0x62, 0x63]) =
      0xddaf35a193617abacc417349ae20413112e6fa4e89a97ea20a9eeee64b55d39a2192992a274fc1a836ba3c23a3feebbd454d4423643ce80e2a9ac94fa54ca49f := by
  decide +kernel

/-! ## What a concrete state and operands meet, as evaluation -/

/-- That a command is offered, as a value. -/
def offersB (s : Device) (i : Issue) (w next : List Nat) (core : Nat) : Bool :=
  i.cores == [core] && decide (core < 256) && !s.isHalted core && s.mayIssue i w && !s.lendBad i w next &&
    (match i.work with | .ring g => decide ((s.headRead g).2 = stDONE) | .slice _ _ => true) && decide ((s.taken i w).dispatchReason i w = 0)

theorem offers_of {s : Device} {i : Issue} {w next : List Nat} {core : Nat} (h : offersB s i w next core = true) :
    s.offers i w next core := by
  simp only [offersB, Bool.and_eq_true, beq_iff_eq, decide_eq_true_eq, Bool.not_eq_true'] at h
  obtain ⟨⟨⟨⟨⟨⟨h1, h2⟩, h3⟩, h4⟩, h5⟩, h6⟩, h7⟩ := h
  exact ⟨h1, h2, h3, h4, h5, fun g hg => by simpa [hg] using h6, h7⟩

theorem running_of {s : Device} {core : Nat}
    (h : (s.cmd core).any (fun c => c.status == stDONE && !c.ended) = true) : s.running core := by
  obtain ⟨c, hc, h⟩ := Option.any_eq_true .. |>.mp h
  simp at h
  exact ⟨c, hc, h.1, h.2⟩

theorem plainMsi_of {s : Device} {a : Nat}
    (h : (a == 0 || (match s.region a with | .reg _ blk off => blk == 30 && decide (0x8000 ≤ off) && off % 0x1000 == 0 | _ => true)) = true) :
    s.plainMsi a := by
  rcases Bool.or_eq_true .. |>.mp h with h | h
  · exact .inl (by simpa using h)
  · exact .inr fun die blk off hr => by simpa [hr, and_assoc] using h

/-! ## Each statement's hypotheses are met, clause by clause -/

set_option maxRecDepth 100000
set_option Elab.async false

/-! States for AbsentBlocks, HostClassAtIssue. -/

namespace G01

def e0 : Device := {}

theorem witness_AbsentBlocks :
    ∃ (die : Nat) (blk : Nat),
      die < 4 ∧
      blk < 32 :=
  ⟨0, 0,
      by decide +kernel⟩

theorem witness_HostClassAtIssue :
    ∃ (s : State) (die : Nat) (n : Nat) (c : Nat) (master : Nat),
      s.dev.sound ∧
      die < 4 ∧
      n < 4 ∧
      c < 16 ∧
      s.dev.accessStatus die master (regBase + die * regDieBytes + 7 * 65536 + 16 + 4 * n) 4 true = stDONE :=
  ⟨({ dev := e0 } : State), 0, 0, 0, 80,
      ⟨by decide +kernel, by decide +kernel⟩, by decide +kernel⟩

end G01

/-! States for FullResetKeepsFusesAndFlashOnly, LifeCycleAndQuote, StartSteps. -/

namespace G02

def e0 : Device := {}
def start (st : Nat) (x : EftSt := {}) : Device := ({ e0 with eft := { x with begun := true } }).wr 0 EFT_BOOT_STATUS_STAGE st
def ent (kind unit flash len dest src : Nat) : List Nat := [kind, 0, unit, 0, 0, 0, 0, 0] ++ toBytes flash 8 ++ toBytes len 8 ++ toBytes dest 8 ++ List.replicate 64 0 ++ List.replicate 16 0 ++ [src] ++ List.replicate 15 0
def badE : List Nat := (ent 1 1 0 16 0 0).set 40 9
def wE : List Nat := ent 5 0 0 512 0x1000 1
def sched1 : SMap Nat := (List.range 4).foldl (fun m d => SMap.put 0 (SMap.put 0 (SMap.put 0 (SMap.put 0 (SMap.put 0 m (d * 2^20) 150000) (d * 2^20 + 1) 1) (d*2^20+2) (400*2^20+600*1024+375)) (d*2^20+3) 1) (d*2^20+8) 0) []
def memJunk : List Host.Cell := SMap.insAll [(16, 7), (pondDieBytes + 5, 9), (storeBase + 3, 4), (lpBase + 77, 5), (regBase, 3)] []
def loadS : Device := let d := start 8 { entries := [wE], weights := some { idx := 0, src := 0 } }; { d with chorus := { d.chorus with sched := sched1 } }

theorem witness_FullResetKeepsFusesAndFlashOnly :
    (∃ (s : State) (n : Nat) (faults : List Nat),
      (s.dev.eft.flashOp = none ∨ ∃ (a : ℕ), s.dev.eft.flashOp = some (0, a)) ∧
      n < 8 ∧
      n ∈ faults ∧
      s.dev.on 0 (BASK_RAIL_EN n) = true) ∧
    (∃ (s : State) (value : Nat),
      (s.dev.eft.flashOp = none ∨ ∃ (a : ℕ), s.dev.eft.flashOp = some (0, a)) ∧
      value % 65536 = 24189 ∧
      s.dev.moving = false) ∧
    (∃ (s : State) (value : Nat),
      (s.dev.eft.flashOp = none ∨ ∃ (a : ℕ), s.dev.eft.flashOp = some (0, a)) ∧
      value % 65536 = 24189 ∧
      s.dev.moving = true ∧
      s.dev.sound) :=
  ⟨⟨({ dev := (e0.set 0 (BASK_RAIL_EN 3)).wr 0 SAFETY_STATUS_MODE 1 } : State), 3, [3],
      .inl rfl, by decide +kernel⟩,
   ⟨({ dev := e0 } : State), 0x5E7D,
      .inl rfl, by decide +kernel⟩,
   ⟨({ dev := ((e0.set 0 (BASK_RAIL_EN 3)).wr 0 SAFETY_STATUS_MODE 1).wr 0 SAFETY_STATUS_TAIL_STATE 1 } : State), 0x5E7D,
      .inl rfl, by decide +kernel, by decide +kernel, ⟨by decide +kernel, by decide +kernel⟩⟩⟩

theorem witness_LifeCycleAndQuote :
    (∃ (s : State) (cert : List Nat),
      s.dev.sound ∧
      s.dev.eft.fuses.life = lcBLANK ∧
      cert.length ≤ 2048) ∧
    (∃ (s : State),
      s.dev.sound ∧
      s.dev.eft.fuses.life ≠ lcBLANK) ∧
    (∃ (s : State),
      s.dev.sound ∧
      s.dev.on 0 EFT_BOOT_STATUS_READY = false) :=
  ⟨⟨({ dev := e0 } : State), [],
      ⟨by decide +kernel, by decide +kernel⟩, by decide +kernel⟩,
   ⟨({ dev := { e0 with out := [.pin "X" 1], mem := memJunk, eft := { fuses := { state := 3 }, flash := [(3, 4)] } , probe := { dm := [(5, 1), (0x2003, 1)] }} } : State),
      ⟨by decide +kernel, by decide +kernel⟩, by decide +kernel⟩,
   ⟨({ dev := e0 } : State),
      ⟨by decide +kernel, by decide +kernel⟩, by decide +kernel⟩⟩

theorem witness_StartSteps_1 :
    (∃ (s : State),
      s.dev.sound ∧
      s.dev.eft.begun = false) ∧
    (∃ (s : State) (x : StartIn),
      s.dev.sound ∧
      s.dev.eft.begun = true ∧
      s.dev.eft.held = true ∧
      x.bridges = [true, true, true, true] ∧
      s.dev.eft.fuses.life = lcBLANK) ∧
    (∃ (s : State),
      s.dev.sound ∧
      s.dev.inStart = true ∧
      s.dev.rd 0 EFT_BOOT_STATUS_STAGE = 1 ∧
      s.dev.on 0 DIE_CTL_BRIDGE_STATUS_ROW_UP = false) ∧
    (∃ (s : State) (caps : List Nat) (k : Nat),
      s.dev.sound ∧
      s.dev.inStart = true ∧
      s.dev.rd 0 EFT_BOOT_STATUS_STAGE = 5 ∧
      k < 4 ∧
      wd caps k < 64) ∧
    (∃ (s : State),
      s.dev.sound ∧
      s.dev.inStart = true ∧
      s.dev.rd 0 EFT_BOOT_STATUS_STAGE = 5 ∧
      s.dev.rd 0 EFT_BOOT_STATUS_RATE_STEP < s.dev.rd 0 LP5X_CTL_RATE) ∧
    (∃ (s : State) (die : Nat) (other : Nat),
      s.dev.sound ∧
      s.dev.inStart = true ∧
      die < 4 ∧
      other < 4 ∧
      other ≠ die ∧
      s.dev.rd 0 EFT_BOOT_STATUS_STAGE = 7 ∧
      s.dev.on other POND_STATUS_WIPE_DONE = false) ∧
    (∃ (s : State),
      s.dev.sound ∧
      s.dev.inStart = true ∧
      8 ≤ s.dev.rd 0 EFT_BOOT_STATUS_STAGE ∧
      s.dev.pond.lpWiped = false) :=
  ⟨⟨({ dev := e0 } : State),
      ⟨by decide +kernel, by decide +kernel⟩, by decide +kernel⟩,
   ⟨({ dev := { start 1 with eft := { begun := true, held := true }, mem := memJunk } } : State), ⟨[true,true,true,true], some 100, []⟩,
      ⟨by decide +kernel, by decide +kernel⟩, by decide +kernel⟩,
   ⟨({ dev := start 1 } : State),
      ⟨by decide +kernel, by decide +kernel⟩, by decide +kernel⟩,
   ⟨({ dev := start 5 } : State), [], 0,
      ⟨by decide +kernel, by decide +kernel⟩, by decide +kernel⟩,
   ⟨({ dev := start 5 } : State),
      ⟨by decide +kernel, by decide +kernel⟩, by decide +kernel⟩,
   ⟨({ dev := { start 7 with mem := memJunk } } : State), 0, 1,
      ⟨by decide +kernel, by decide +kernel⟩, by decide +kernel⟩,
   ⟨({ dev := { start 9 { entries := [wE], weights := some { idx := 0, src := 1 } } with mem := memJunk } } : State),
      ⟨by decide +kernel, by decide +kernel⟩, by decide +kernel⟩⟩

theorem witness_StartSteps_2 :
    (∃ (s : State) (w : WeightLoad) (e : List Nat) (b : List Nat),
      s.dev.sound ∧
      s.dev.inStart = true ∧
      s.dev.eft.weights = some w ∧
      s.dev.eft.entries.getD w.idx [] = e ∧
      srcOf e w.src = 1 ∧
      b ≠ [] ∧
      b.length ≤ 131072 ∧
      w.done + b.length < meLength e) ∧
    (∃ (s : State) (w : WeightLoad) (e : List Nat),
      s.dev.sound ∧
      s.dev.inStart = true ∧
      s.dev.eft.weights = some w ∧
      s.dev.eft.entries[w.idx]? = some e ∧
      meKind e = 5 ∧
      w.src = 1 ∧
      srcOf e 1 ≠ 3) ∧
    (∃ (s : State) (i : Nat) (e : List Nat),
      s.dev.sound ∧
      s.dev.inStart = true ∧
      s.dev.rd 0 EFT_BOOT_STATUS_STAGE = 8 ∧
      s.dev.eft.loaded = false ∧
      s.dev.eft.entries = [e] ∧
      i = 0 ∧
      meKind e = 1 ∧
      meForLp e = false ∧
      meEncrypted e = false ∧
      sha512 (s.dev.flashBytes (meFlash e) (meLength e)) ≠ meDigest e) ∧
    (∃ (s : State) (s1 : Device) (s2 : Device) (w : WeightLoad),
      s.dev.sound ∧
      s.dev.inStart = true ∧
      s.dev.rd 0 EFT_BOOT_STATUS_STAGE = 8 ∧
      s.dev.eft.loaded = false ∧
      s.dev.eft.entries.any meForLp = false ∧
      s.dev.loadSections (List.range s.dev.eft.entries.length) = (s1, none) ∧
      s1.layoutFromHeader = some s2 ∧
      s1.regReqs = [] ∧
      s1.inStart = true ∧
      (∀ die < 4, s2.programBad die = none) ∧
      s1.eft.weights = some w ∧
      srcOf (s1.eft.entries.getD w.idx []) w.src ≠ 3) ∧
    (∃ (s : State) (time : Nat),
      s.dev.sound ∧
      s.dev.inStart = true ∧
      time ≤ 400 ∧
      s.dev.rd 0 EFT_BOOT_STATUS_STAGE = 11 ∧
      s.dev.on 0 CHORUS_CTL_GPTP_EN = true) ∧
    (∃ (s : State),
      s.dev.sound ∧
      s.dev.inStart = true ∧
      s.dev.rd 0 EFT_BOOT_STATUS_STAGE = 12) :=
  ⟨⟨({ dev := { start 9 { entries := [wE], weights := some { idx := 0, src := 1 } } with mem := memJunk } } : State), {idx := 0, src := 1}, wE, [3],
      ⟨by decide +kernel, by decide +kernel⟩, by decide +kernel⟩,
   ⟨({ dev := { start 9 { entries := [wE], weights := some { idx := 0, src := 1 } } with mem := memJunk } } : State), {idx := 0, src := 1}, wE,
      ⟨by decide +kernel, by decide +kernel⟩, by decide +kernel⟩,
   ⟨({ dev := start 8 { entries := [badE] } } : State), 0, badE,
      ⟨by decide +kernel, by decide +kernel⟩, by decide +kernel⟩,
   ⟨({ dev := loadS } : State), loadS, (loadS.layoutFromHeader).getD {}, {idx := 0, src := 0 },
      ⟨by decide +kernel, by decide +kernel⟩, by decide +kernel⟩,
   ⟨({ dev := (start 11).set 0 CHORUS_CTL_GPTP_EN } : State), 0,
      ⟨by decide +kernel, by decide +kernel⟩, by decide +kernel⟩,
   ⟨({ dev := start 12 } : State),
      ⟨by decide +kernel, by decide +kernel⟩, by decide +kernel⟩⟩

end G02

/-! States for FlashWindow. -/

namespace G02b

def e0 : Device := {}
def fl (x : EftSt) : Device := { e0 with eft := { x with flashSize := 0x100000, flash := [(77, 3), (0x10001, 4)] } }

theorem witness_FlashWindow :
    (∃ (s : State) (a : Nat),
      s.dev.sound ∧
      a = s.dev.rd 0 EFT_FLASH_ADDR_LO_ADDR + 2 ^ 32 * s.dev.rd 0 EFT_FLASH_ADDR_HI_ADDR ∧
      s.dev.flashOpen = true ∧
      s.dev.on 0 EFT_FLASH_CMD_BUSY = false ∧
      a % 65536 = 0 ∧
      a + 65536 ≤ s.dev.eft.flashSize ∧
      (∀ i < 4096, s.dev.flashByte (a + i) = 255)) ∧
    (∃ (s : State) (op : Nat) (a : Nat),
      s.dev.sound ∧
      s.dev.eft.flashOp = some (op, a) ∧
      op < 3) :=
  ⟨⟨({ dev := ({ e0 with eft := { flashSize := 0x100000 } }.set 0 EFT_BOOT_STATUS_READY).wr 0 EFT_FLASH_ADDR_LO_ADDR 0x20000 } : State), 0x20000,
      ⟨by decide +kernel, by decide +kernel⟩, by decide +kernel, by decide +kernel, by decide +kernel, by decide +kernel, by decide +kernel, fun _ _ => rfl⟩,
   ⟨({ dev := (fl { flashOp := some (0, 0x10000) }).set 0 EFT_FLASH_CMD_BUSY } : State), 0, 0x10000,
      ⟨by decide +kernel, by decide +kernel⟩, by decide +kernel⟩⟩

end G02b

/-! States for FollowerLocks, SlicesAndOverruns, TickLayoutWrites. -/

namespace G03

def e0 : Device := {}
def h0 : FlitHead := { dst := 0, src := 9, cls := 2, fixed := false, job0 := false, hops := 15, seq := 0, ack := 4095, crVc := 0, crCls := 0, cr := 0 }
def up (d : Device) (k : Nat) : Device := d.wr k OLINER_STATUS_STATE olUP
def fol (src st : Nat) : Device := up ((((e0.set 0 CHORUS_CTL_ROLE).wr 0 CHORUS_CTL_SOURCE src).wr 0 CHORUS_STATUS_LOCK_STATE st).wr 0 CHORUS_CTL_OLINER_DIE 1) 1
def sx : SliceRun := { die := 1, idx := 3, kind := 2, tick := 5, units := [204] }
def sl (x : SliceRun) (sig : Nat) : Device := { e0 with chorus := { e0.chorus with slices := [{ x with idx := 1, units := [100] }, x], sched := SMap.put 0 (SMap.put 0 (SMap.put 0 [] (2^20 + 0x40000 + 8*3 + 7) sig) (2^20 + 0x40000 + 8*3 + 6) 0xFFFF) (2^20 + 0x40000 + 8*3) (2 * 2^29 + 5) } }

theorem witness_FollowerLocks :
    (∃ (s : State) (die : Nat) (h : FlitHead),
      s.dev.sound ∧
      s.dev.flitComes die h ∧
      s.dev.on 0 CHORUS_CTL_ROLE = true ∧
      s.dev.rd 0 CHORUS_CTL_SOURCE = 1 ∧
      s.dev.rd 0 CHORUS_CTL_OLINER_DIE = die) ∧
    (∃ (s : State) (width : Nat),
      s.dev.sound ∧
      s.dev.on 0 CHORUS_CTL_ROLE = true ∧
      s.dev.rd 0 CHORUS_CTL_ROLE = 1 ∧
      s.dev.rd 0 CHORUS_CTL_SOURCE = 2 ∧
      32 ≤ width ∧
      width ≤ 400) ∧
    (∃ (s : State) (width : Nat),
      s.dev.sound ∧
      s.dev.rd 0 CHORUS_CTL_ROLE = 1 ∧
      s.dev.rd 0 CHORUS_CTL_SOURCE = 2 ∧
      (width < 32 ∨ 400 < width)) ∧
    (∃ (s : State),
      s.dev.sound ∧
      s.dev.rd 0 CHORUS_CTL_ROLE = 1 ∧
      (s.dev.rd 0 CHORUS_STATUS_LOCK_STATE = 1 ∨ s.dev.rd 0 CHORUS_STATUS_LOCK_STATE = 2)) :=
  ⟨⟨({ dev := fol 1 0 } : State), 1, h0,
      ⟨by decide +kernel, by decide +kernel⟩, by unfold Device.flitComes; decide +kernel, by decide +kernel⟩,
   ⟨({ dev := fol 2 0 } : State), 160,
      ⟨by decide +kernel, by decide +kernel⟩, by decide +kernel⟩,
   ⟨({ dev := fol 2 0 } : State), 0,
      ⟨by decide +kernel, by decide +kernel⟩, by decide +kernel⟩,
   ⟨({ dev := fol 1 1 } : State),
      ⟨by decide +kernel, by decide +kernel⟩, by decide +kernel⟩⟩

theorem witness_SlicesAndOverruns :
    (∃ (s : State) (x : SliceRun),
      s.dev.sound ∧
      s.dev.dueSlice x.die x.idx = some x ∧
      s.dev.sliceReady x = true ∧
      x.units.any (s.dev.unitOff x.die) = false ∧
      (x.kind ∈ [1, 2, 3, 5] ∨ x.kind = 4 ∧ x.die ≠ 0 ∨ x.kind = 0 ∧ s.dev.rd x.die POND_STATUS_MODE < 2 ∧ s.dev.disp.kernels = [])) ∧
    (∃ (s : State) (x : SliceRun),
      s.dev.sound ∧
      s.dev.findSlice x.die x.idx = some x ∧
      x.started = true ∧
      s.dev.sliceBusy x.die x.idx = false) ∧
    (∃ (s : State) (x : SliceRun),
      s.dev.sound ∧
      List.find? (fun (y : SliceRun) => decide (y.die = x.die ∧ y.idx = x.idx ∧ y.late = false ∧ ¬(y.edges = 0 ∧ s.dev.rc < s.dev.sliceDeadline y.die y.idx))) s.dev.chorus.slices = some x ∧
      x.kind ≠ 6 ∧
      (x.started = true → x.kind ≠ 1 ∧ x.kind ≠ 3)) ∧
    (∃ (s : State) (x : SliceRun),
      s.dev.sound ∧
      List.find? (fun (y : SliceRun) => decide (y.die = x.die) && decide (y.idx = x.idx) && s.dev.atHardLimit y) s.dev.chorus.slices = some x ∧
      (x.started = false ∨ x.kind = 2 ∨ x.kind = 4) ∧
      s.dev.solve = { : SolveSt } ∧
      s.dev.collide = { : CollideSt }) ∧
    (∃ (s : State) (die : Nat) (value : Nat) (idx : Nat) (x : SliceRun),
      s.dev.sound ∧
      value / 2 ^ 31 % 2 = 1 ∧
      s.dev.findSlice die idx = some x) :=
  ⟨⟨({ dev := sl { sx with edges := 1 } 0 } : State), { sx with edges := 1 },
      ⟨by decide +kernel, by decide +kernel⟩, by decide +kernel⟩,
   ⟨({ dev := sl { sx with started := true, edges := 1 } (2^14+9) } : State), { sx with started := true, edges := 1 },
      ⟨by decide +kernel, by decide +kernel⟩, by decide +kernel⟩,
   ⟨({ dev := sl { sx with edges := 1 } 0 } : State), { sx with edges := 1 },
      ⟨by decide +kernel, by decide +kernel⟩, by decide +kernel⟩,
   ⟨({ dev := sl { sx with edges := 1 } 0 } : State), { sx with edges := 1 },
      ⟨by decide +kernel, by decide +kernel⟩, by decide +kernel⟩,
   ⟨({ dev := sl { sx with edges := 1 } 0 } : State), 1, 2^31, 3, { sx with edges := 1 },
      ⟨by decide +kernel, by decide +kernel⟩, by decide +kernel⟩⟩

theorem witness_TickLayoutWrites :
    (∃ (s : State),
      s.dev.sound ∧
      s.dev.on 0 CHORUS_LOCK_LOCK = false) ∧
    (∃ (s : State),
      s.dev.sound ∧
      s.dev.on 0 CHORUS_LOCK_LOCK = true) :=
  ⟨⟨({ dev := e0 } : State),
      ⟨by decide +kernel, by decide +kernel⟩, by decide +kernel⟩,
   ⟨({ dev := e0.set 0 CHORUS_LOCK_LOCK } : State),
      ⟨by decide +kernel, by decide +kernel⟩, by decide +kernel⟩⟩

end G03

/-! States for SampleEdgeBeginsOneTick. -/

namespace G03b

def e0 : Device := {}

theorem witness_SampleEdgeBeginsOneTick :
    ∃ (s : State),
      s.dev.sound ∧
      s.dev.on 0 EFT_BOOT_STATUS_READY = true :=
  ⟨({ dev := e0.set 0 EFT_BOOT_STATUS_READY } : State),
      ⟨by decide +kernel, by decide +kernel⟩, by decide +kernel⟩

end G03b

/-! States for MarksAndWindows. -/

namespace G03c

def e0 : Device := {}
def scr : Device := { ((e0.set 1 POND_CTL_SCRUB_EN).wr 1 POND_SCRUB_POS_LINE 294900) with mem := [(pondDieBytes + 64*294901 + 2, 7)], pond := { ecc := [((pondDieBytes + 64*294901) / 8, some { ue := false, bit := 5, syn := 3, flip := 0 })] } }

theorem witness_MarksAndWindows :
    (∃ (s : State) (die : Nat) (c : Nat) (mark : Nat) (v : Int),
      s.dev.sound ∧
      die < 4 ∧
      c < 16 ∧
      (∀ k < 4, s.dev.waitingOuts k = if k = die then [(c, mark, some v)] else []) ∧
      s.dev.routeUp die 0 = true) ∧
    (∃ (s : State),
      s.dev.sound ∧
      s.dev.pond.fixq = [] ∧
      (∀ die < 4, s.dev.on die POND_CTL_SCRUB_EN = false)) ∧
    (∃ (s : State),
      s.dev.sound ∧
      s.dev.pond.fixq = [] ∧
      s.dev.pond.ecc = []) ∧
    (∃ (s : State) (die : Nat) (w : Nat) (e : EccErr),
      s.dev.sound ∧
      s.dev.pond.fixq = [] ∧
      die < 4 ∧
      s.dev.pond.ecc = [(w, some e)] ∧
      e.ue = false ∧
      inLines die (s.dev.rd die POND_SCRUB_POS_LINE)     (have left := SMap.get 0 s.dev.pond.scrubLeft die;     min (if left = 0 then s.dev.rd die POND_SCRUB_CTL_LINES else left) (16 * s.dev.rd 0 CHORUS_WIN_LEN_TEST_LEN * s.dev.fabricMHz die / 600 - 16))     w =   true ∧
      s.dev.heldWord die w = false ∧
      s.dev.on die POND_CTL_SCRUB_EN = true ∧
      s.dev.rd die POND_STATUS_MODE < 2) :=
  ⟨⟨({ dev := e0.setWaitingOuts 0 [(0, 1, some (-3))] } : State), 0, 0, 1, -3,
      ⟨by decide +kernel, by decide +kernel⟩, by decide +kernel⟩,
   ⟨({ dev := (List.range 4).foldl (fun d k => d.clr k POND_CTL_SCRUB_EN) e0 } : State),
      ⟨by decide +kernel, by decide +kernel⟩, by decide +kernel⟩,
   ⟨({ dev := e0 } : State),
      ⟨by decide +kernel, by decide +kernel⟩, by decide +kernel⟩,
   ⟨({ dev := scr } : State), 1, (pondDieBytes + 64*294901) / 8, ({ ue := false, bit := 5, syn := 3, flip := 0 }:EccErr),
      ⟨by decide +kernel, by decide +kernel⟩, by decide +kernel⟩⟩

end G03c

/-! States for InvalidationDropsEntries. -/

namespace G04g

def e0 : Device := {}
def tl (j v : Nat) (p : Bool) : Tlb := ⟨0, 1, j, v, 16, 0x400000, true, true, p⟩
def m0 : Device := { e0 with xlate := { e0.xlate with tlb := [tl 5 0 false, tl 5 0x20000 false, tl 5 0x40000 true, tl 4 0 false] } }

theorem witness_InvalidationDropsEntries :
    (∃ (s : State) (value : Nat),
      s.dev.sound ∧
      value / 2 ^ 30 % 2 = 0) ∧
    (∃ (s : State) (value : Nat),
      s.dev.sound ∧
      value / 2 ^ 30 % 2 = 1 ∧
      s.dev.on 0 XLATE_INVAL_CTL_BUSY = true) ∧
    (∃ (s : State) (value : Nat),
      s.dev.sound ∧
      value / 2 ^ 30 % 2 = 1 ∧
      s.dev.on 0 XLATE_INVAL_CTL_BUSY = false ∧
      value / 2 ^ 16 % 2 ^ 12 = 0) ∧
    (∃ (s : State) (value : Nat),
      s.dev.sound ∧
      value / 2 ^ 30 % 2 = 1 ∧
      s.dev.on 0 XLATE_INVAL_CTL_BUSY = false ∧
      value / 2 ^ 16 % 2 ^ 12 ≠ 0) ∧
    (∃ (s : State) (j : Nat) (lo : Nat) (n : Nat),
      s.dev.sound ∧
      s.dev.xlate.inval = some (j, lo, n)) :=
  ⟨⟨({ dev := m0 } : State), 0,
      ⟨by decide +kernel, by decide +kernel⟩, by decide +kernel⟩,
   ⟨({ dev := m0.set 0 XLATE_INVAL_CTL_BUSY } : State), 2^30,
      ⟨by decide +kernel, by decide +kernel⟩, by decide +kernel⟩,
   ⟨({ dev := m0 } : State), 2^30,
      ⟨by decide +kernel, by decide +kernel⟩, by decide +kernel⟩,
   ⟨({ dev := m0 } : State), 2^30 + 5 * 2^16 + 1,
      ⟨by decide +kernel, by decide +kernel⟩, by decide +kernel⟩,
   ⟨({ dev := { (m0.set 0 XLATE_INVAL_CTL_BUSY) with xlate := { m0.xlate with inval := some (5, 0, 5) } } } : State), 5, 0, 5,
      ⟨by decide +kernel, by decide +kernel⟩, by decide +kernel⟩⟩

end G04g

/-! States for MatrixAndGate. -/

namespace G05a

def e0 : Device := {}
def wl (l : List (Nat × Nat)) : List Nat := l.foldl (fun m x => m.set x.1 x.2) (List.replicate 16 0)
def poke (l : List (Nat × Nat)) (d : Device) : Device := { d with mem := SMap.insAll (l.map fun x => (x.1, (x.2 : Byte))) d.mem }
def iSl : Issue := ⟨.slice 0 0, 0, [0]⟩
def wMx : List Nat := wl [(0, 0x10000000), (1, 0x88A00000), (3, 0), (4, 2^30), (6, 0x10000), (7, 0x1000), (8, 2^30), (11, 0x2000), (12, 2^30), (14, 0x10000), (15, 3)]
def wGt : List Nat := wl [(0, 0x11000000), (1, 0xAA100000), (3, 0x4241), (5, 0x40400000), (9, 0x40), (10, 2^30), (11, 0x10001), (12, 0x2000), (13, 2^30)]
def d1 (c : Nat) (d : Device) : Device := poke ([(0, 0x80), (1, 0x3F), (3, 0x40), (4, 0x40), (5, 0xC0), (0x1000, 0x80), (0x1001, 0x40), (0x1002, 0xC0), (0x1003, 0x3F), (0x1004, 0x20), (0x1005, 0x41), (0x42, 0x60), (0x43, 0xC0), (0x2001, 7), (0x2004, 9)].map fun x => (coreStoreBase (c / 64) (c % 64) + x.1, x.2)) d
def slc (die idx : Nat) (us : List Nat) (d : Device) : Device := { d with chorus := { d.chorus with slices := [{ die := die, idx := idx, kind := 1, tick := 0, units := us, started := true }] } }

theorem witness_MatrixAndGate :
    (∃ (s : State) (i : Issue) (w : List Nat) (next : List Nat) (core : Nat),
      s.dev.sound ∧
      s.dev.pond.ecc = [] ∧
      s.dev.offers i w next core ∧
      hdOpcode w = 16 ∧
      firstFail (mxChecks w next) = none ∧
      mxLink w = false ∧
      mxAcc w = false ∧
      mxM w = 1 ∧
      mxN w = 1 ∧
      mxK w ≤ 32 ∧
      is16 (mxAFmt w) = true ∧
      mxOutFmt w = 10 ∧
      (mxA w).space = 1 ∧
      (mxB w).space = 1 ∧
      (mxC w).space = 1) ∧
    (∃ (s : State) (i : Issue) (w : List Nat) (core : Nat),
      s.dev.sound ∧
      s.dev.pond.ecc = [] ∧
      s.dev.offers i w [] core ∧
      hdOpcode w = 17 ∧
      s.dev.linkOf core i.work = none ∧
      firstFail (gtChecks w none) = none ∧
      gtRows w = 1 ∧
      gtCols w = 1 ∧
      gtInFmt w = 10 ∧
      gtOutFmt w = 10 ∧
      (gtX w).space = 1 ∧
      (gtOut w).space = 1 ∧
      ((gtOps w).any fun (o : ℕ) => decide (opSrc o = 1) || opReduce o) = false) :=
  ⟨⟨({ dev := slc 0 0 [0] (d1 0 e0) } : State), iSl, wMx, [], 0,
      ⟨by decide +kernel, by decide +kernel⟩, by decide +kernel, offers_of (by decide +kernel), by decide +kernel⟩,
   ⟨({ dev := slc 0 0 [0] (d1 0 e0) } : State), iSl, wGt, 0,
      ⟨by decide +kernel, by decide +kernel⟩, by decide +kernel, offers_of (by decide +kernel), by decide +kernel⟩⟩

end G05a

/-! States for CommandsComplete. -/

namespace G05b

def e0 : Device := {}
def wl (l : List (Nat × Nat)) : List Nat := l.foldl (fun m x => m.set x.1 x.2) (List.replicate 16 0)
def c1 : CoreCmd := { work := .slice 0 0, entry := 0, opcode := 0x10, header := 0x10000000, cores := [5, 0] }
def c2 : CoreCmd := { c1 with cores := [5], wrote := [(3, 4)] }
def c3 : CoreCmd := { c2 with work := .ring 3, entry := 2 }
def k3 : Kernel := { ring := 3, cores := [5], entry := 2, fcBound := 0, ticks := 1, lent := false, startRc := 0, startTick := 0 }
def dsp (d : Device) (f : DispSt → DispSt) : Device := { d with disp := f d.disp }
def ring3 (cqh cqt : Nat) (d : Device) : Device := dsp d fun x => { x with rings := [(3, { state := 1, job := 3, tail := 2, cqHead := cqh, cqTail := cqt, fetched := true, desc := wl [(0, 0x180000), (6, 3)] })], jobs := [(3, { state := 1 })] }

theorem witness_CommandsComplete :
    (∃ (s : State) (core : Nat) (c : CoreCmd) (k : Nat) (y : CoreCmd),
      s.dev.sound ∧
      s.dev.probe = { : DebugSt } ∧
      s.dev.cmd core = some c ∧
      c.ended = false ∧
      s.dev.cmdBusy core = false ∧
      k ∈ c.cores ∧
      k ≠ core ∧
      s.dev.cmd k = some y ∧
      y.ended = false) ∧
    (∃ (s : State) (core : Nat) (c : CoreCmd) (sd : Nat) (idx : Nat),
      s.dev.sound ∧
      s.dev.probe = { : DebugSt } ∧
      s.dev.cmd core = some c ∧
      c.ended = false ∧
      s.dev.cmdBusy core = false ∧
      c.cores = [core] ∧
      c.work = Work.slice sd idx ∧
      c.status = stDONE) ∧
    (∃ (s : State) (core : Nat) (c : CoreCmd) (g : Nat) (k : Kernel),
      s.dev.sound ∧
      s.dev.probe = { : DebugSt } ∧
      s.dev.cmd core = some c ∧
      c.ended = false ∧
      s.dev.cmdBusy core = false ∧
      c.cores = [core] ∧
      c.work = Work.ring g ∧
      c.status = stDONE ∧
      bit c.header 18 = false ∧
      bit c.header 23 = false ∧
      c.opcode ≠ 34 ∧
      s.dev.kernelOf g = some k ∧
      (s.dev.ring g).state = 1 ∧
      (s.dev.ring g).fetched = true ∧
      (s.dev.job (s.dev.ring g).job).state ≠ 4) ∧
    (∃ (s : State) (die : Nat) (value : Nat),
      s.dev.sound ∧
      (2 ^ rdCqLog2 (if s.dev.selRing die = frameRing then s.dev.ringDesc (s.dev.selRing die) else (s.dev.ring (s.dev.selRing die)).desc) ≤ value % 2 ^ 16 ∨ ((s.dev.ring (s.dev.selRing die)).cqTail + 2 ^ rdCqLog2 (if s.dev.selRing die = frameRing then s.dev.ringDesc (s.dev.selRing die) else (s.dev.ring (s.dev.selRing die)).desc) - (s.dev.ring (s.dev.selRing die)).cqHead) % 2 ^ rdCqLog2 (if s.dev.selRing die = frameRing then s.dev.ringDesc (s.dev.selRing die) else (s.dev.ring (s.dev.selRing die)).desc) < (value % 2 ^ 16 + 2 ^ rdCqLog2 (if s.dev.selRing die = frameRing then s.dev.ringDesc (s.dev.selRing die) else (s.dev.ring (s.dev.selRing die)).desc) - (s.dev.ring (s.dev.selRing die)).cqHead) % 2 ^ rdCqLog2 (if s.dev.selRing die = frameRing then s.dev.ringDesc (s.dev.selRing die) else (s.dev.ring (s.dev.selRing die)).desc))) ∧
    (∃ (s : State) (die : Nat) (value : Nat),
      s.dev.sound ∧
      value % 2 ^ 16 < 2 ^ rdCqLog2 (if s.dev.selRing die = frameRing then s.dev.ringDesc (s.dev.selRing die) else (s.dev.ring (s.dev.selRing die)).desc) ∧
      (value % 2 ^ 16 + 2 ^ rdCqLog2 (if s.dev.selRing die = frameRing then s.dev.ringDesc (s.dev.selRing die) else (s.dev.ring (s.dev.selRing die)).desc) - (s.dev.ring (s.dev.selRing die)).cqHead) % 2 ^ rdCqLog2 (if s.dev.selRing die = frameRing then s.dev.ringDesc (s.dev.selRing die) else (s.dev.ring (s.dev.selRing die)).desc) ≤ ((s.dev.ring (s.dev.selRing die)).cqTail + 2 ^ rdCqLog2 (if s.dev.selRing die = frameRing then s.dev.ringDesc (s.dev.selRing die) else (s.dev.ring (s.dev.selRing die)).desc) - (s.dev.ring (s.dev.selRing die)).cqHead) % 2 ^ rdCqLog2 (if s.dev.selRing die = frameRing then s.dev.ringDesc (s.dev.selRing die) else (s.dev.ring (s.dev.selRing die)).desc) ∧
      (s.dev.ring (s.dev.selRing die)).held = []) :=
  ⟨⟨({ dev := (e0.setCmd 5 (some c1)).setCmd 0 (some c1) } : State), 0, c1, 5, c1,
      ⟨by decide +kernel, by decide +kernel⟩, by decide +kernel⟩,
   ⟨({ dev := e0.setCmd 5 (some c2) } : State), 5, c2, 0, 0,
      ⟨by decide +kernel, by decide +kernel⟩, by decide +kernel⟩,
   ⟨({ dev := dsp ((ring3 0 0 e0).setCmd 5 (some c3)) fun x => { x with kernels := [k3] } } : State), 5, c3, 3, k3,
      ⟨by decide +kernel, by decide +kernel⟩, by decide +kernel⟩,
   ⟨({ dev := (e0.setCmd 5 (some c1)).setCmd 0 (some c1) } : State), 0, 5,
      ⟨by decide +kernel, by decide +kernel⟩, by decide +kernel⟩,
   ⟨({ dev := (e0.setCmd 5 (some c1)).setCmd 0 (some c1) } : State), 0, 0,
      ⟨by decide +kernel, by decide +kernel⟩, by decide +kernel⟩⟩

end G05b

/-! States for PadsAndTheirTable. -/

namespace G05c

def e0 : Device := {}
def poke (l : List (Nat × Nat)) (d : Device) : Device := { d with mem := SMap.insAll (l.map fun x => (x.1, (x.2 : Byte))) d.mem }
def ed (b : Nat) (old : Nat) : Device := (((poke [(0x107, b), (0x100, 5)] e0).wr 0 (CLUSTER_PAD_EDIT_ADDR_LO_ADDR 0) 0x103).wr 0 (CLUSTER_PAD_EDIT_OLD_LO_VALUE 0) old).wr 0 (CLUSTER_PAD_EDIT_NEW_HI_VALUE 0) 77
def v1 : Nat := 0x8000000000000005
def mv : PadMove := { core := 9, slot := 9, promote := true, work := .slice 0 0, va := 0x10040, entry := 0x100, value := v1 }
def mu : PadMove := { mv with promote := false, value := 0xA000000000000005 }
def tl : Tlb := { die := 0, unit := 9, job := 0, va := 0, log2 := 21, pa := 0x1000000, rd := true, wr := true, pin := true }
def at1 (m : PadMove) (b : Nat) (wide : Bool) : Device := let d := poke [(0x107, b), (0x100, 5), (0x105, 7), (0x1010041, 3)] (e0.set 0 XLATE_CTL_EN); { d with xlate := { d.xlate with tlb := [tl] }, att := { d.att with moves := [m], slots := [(9 * 128 + 9, { st := 4, entry := 0x100, job := 0, wide := wide })] } }
def mw : PadMove := { mv with value := 0x8000070000000005 }
def nw : PadMove := { mu with value := 0xA000070000000005 }
def edn (o v : Nat) : Device := ((ed o 5).wr 0 (CLUSTER_PAD_POOL_BASE_4K 0) 3).wr 0 (CLUSTER_PAD_EDIT_NEW_HI_VALUE 0) v
def edo (d : Device) : Device := { d with att := { d.att with slots := [(9 * 128 + 9, { st := 1, entry := 0x100, job := 0, wide := false })] } }

theorem witness_PadsAndTheirTable :
    (∃ (s : State) (die : Nat) (k : Nat) (value : Nat),
      s.dev.sound ∧
      value / 2 ^ 30 % 2 = 1 ∧
      s.dev.on die (CLUSTER_PAD_EDIT_CTL_BUSY k) = false ∧
      s.dev.pond.ecc = [] ∧
      s.dev.pond.link = [] ∧
      (s.dev.rd die (CLUSTER_PAD_EDIT_ADDR_LO_ADDR k) + 2 ^ 32 * (s.dev.rd die (CLUSTER_PAD_EDIT_ADDR_HI_ADDR k) % 65536)) / 8 * 8 + 8 ≤ 4 * pondDieBytes ∧
      (s.dev.readChk die mPad ((s.dev.rd die (CLUSTER_PAD_EDIT_ADDR_LO_ADDR k) + 2 ^ 32 * (s.dev.rd die (CLUSTER_PAD_EDIT_ADDR_HI_ADDR k) % 65536)) / 8 * 8) 8).2.1 = stDONE ∧
      (decide (peState (s.dev.load ((s.dev.rd die (CLUSTER_PAD_EDIT_ADDR_LO_ADDR k) + 2 ^ 32 * (s.dev.rd die (CLUSTER_PAD_EDIT_ADDR_HI_ADDR k) % 65536)) / 8 * 8) 8) = pPROMOTING) || decide (peState (s.dev.load ((s.dev.rd die (CLUSTER_PAD_EDIT_ADDR_LO_ADDR k) + 2 ^ 32 * (s.dev.rd die (CLUSTER_PAD_EDIT_ADDR_HI_ADDR k) % 65536)) / 8 * 8) 8) = pEVICTING)) = true) ∧
    (∃ (s : State) (die : Nat) (k : Nat) (value : Nat),
      s.dev.sound ∧
      value / 2 ^ 30 % 2 = 1 ∧
      s.dev.on die (CLUSTER_PAD_EDIT_CTL_BUSY k) = false ∧
      s.dev.pond.ecc = [] ∧
      s.dev.pond.link = [] ∧
      (s.dev.rd die (CLUSTER_PAD_EDIT_ADDR_LO_ADDR k) + 2 ^ 32 * (s.dev.rd die (CLUSTER_PAD_EDIT_ADDR_HI_ADDR k) % 65536)) / 8 * 8 + 8 ≤ 4 * pondDieBytes ∧
      (s.dev.readChk die mPad ((s.dev.rd die (CLUSTER_PAD_EDIT_ADDR_LO_ADDR k) + 2 ^ 32 * (s.dev.rd die (CLUSTER_PAD_EDIT_ADDR_HI_ADDR k) % 65536)) / 8 * 8) 8).2.1 = stDONE ∧
      (decide (peState (s.dev.load ((s.dev.rd die (CLUSTER_PAD_EDIT_ADDR_LO_ADDR k) + 2 ^ 32 * (s.dev.rd die (CLUSTER_PAD_EDIT_ADDR_HI_ADDR k) % 65536)) / 8 * 8) 8) = pPROMOTING) || decide (peState (s.dev.load ((s.dev.rd die (CLUSTER_PAD_EDIT_ADDR_LO_ADDR k) + 2 ^ 32 * (s.dev.rd die (CLUSTER_PAD_EDIT_ADDR_HI_ADDR k) % 65536)) / 8 * 8) 8) = pEVICTING)) = false ∧
      s.dev.load ((s.dev.rd die (CLUSTER_PAD_EDIT_ADDR_LO_ADDR k) + 2 ^ 32 * (s.dev.rd die (CLUSTER_PAD_EDIT_ADDR_HI_ADDR k) % 65536)) / 8 * 8) 8 ≠ s.dev.rd die (CLUSTER_PAD_EDIT_OLD_LO_VALUE k) + 2 ^ 32 * s.dev.rd die (CLUSTER_PAD_EDIT_OLD_HI_VALUE k)) ∧
    (∃ (s : State) (die : Nat) (k : Nat) (value : Nat),
      s.dev.sound ∧
      value / 2 ^ 30 % 2 = 1 ∧
      s.dev.on die (CLUSTER_PAD_EDIT_CTL_BUSY k) = false ∧
      s.dev.pond.ecc = [] ∧
      s.dev.pond.link = [] ∧
      (s.dev.rd die (CLUSTER_PAD_EDIT_ADDR_LO_ADDR k) + 2 ^ 32 * (s.dev.rd die (CLUSTER_PAD_EDIT_ADDR_HI_ADDR k) % 65536)) / 8 * 8 + 8 ≤ 4 * pondDieBytes ∧
      (s.dev.readChk die mPad ((s.dev.rd die (CLUSTER_PAD_EDIT_ADDR_LO_ADDR k) + 2 ^ 32 * (s.dev.rd die (CLUSTER_PAD_EDIT_ADDR_HI_ADDR k) % 65536)) / 8 * 8) 8).2.1 = stDONE ∧
      (decide (peState (s.dev.load ((s.dev.rd die (CLUSTER_PAD_EDIT_ADDR_LO_ADDR k) + 2 ^ 32 * (s.dev.rd die (CLUSTER_PAD_EDIT_ADDR_HI_ADDR k) % 65536)) / 8 * 8) 8) = pPROMOTING) || decide (peState (s.dev.load ((s.dev.rd die (CLUSTER_PAD_EDIT_ADDR_LO_ADDR k) + 2 ^ 32 * (s.dev.rd die (CLUSTER_PAD_EDIT_ADDR_HI_ADDR k) % 65536)) / 8 * 8) 8) = pEVICTING)) = false ∧
      s.dev.load ((s.dev.rd die (CLUSTER_PAD_EDIT_ADDR_LO_ADDR k) + 2 ^ 32 * (s.dev.rd die (CLUSTER_PAD_EDIT_ADDR_HI_ADDR k) % 65536)) / 8 * 8) 8 = s.dev.rd die (CLUSTER_PAD_EDIT_OLD_LO_VALUE k) + 2 ^ 32 * s.dev.rd die (CLUSTER_PAD_EDIT_OLD_HI_VALUE k) ∧
      (peResident (s.dev.rd die (CLUSTER_PAD_EDIT_NEW_LO_VALUE k) + 2 ^ 32 * s.dev.rd die (CLUSTER_PAD_EDIT_NEW_HI_VALUE k)) || (decide (peState (s.dev.rd die (CLUSTER_PAD_EDIT_NEW_LO_VALUE k) + 2 ^ 32 * s.dev.rd die (CLUSTER_PAD_EDIT_NEW_HI_VALUE k)) = pPROMOTING) || decide (peState (s.dev.rd die (CLUSTER_PAD_EDIT_NEW_LO_VALUE k) + 2 ^ 32 * s.dev.rd die (CLUSTER_PAD_EDIT_NEW_HI_VALUE k)) = pEVICTING))) = false ∧
      List.Pairwise (fun (x y : ℕ × PadSlot) => x.1 < y.1) s.dev.att.slots) ∧
    (∃ (s : State) (die : Nat) (k : Nat) (value : Nat),
      s.dev.sound ∧
      value / 2 ^ 30 % 2 = 1 ∧
      s.dev.on die (CLUSTER_PAD_EDIT_CTL_BUSY k) = false ∧
      s.dev.pond.ecc = [] ∧
      s.dev.pond.link = [] ∧
      (s.dev.rd die (CLUSTER_PAD_EDIT_ADDR_LO_ADDR k) + 2 ^ 32 * (s.dev.rd die (CLUSTER_PAD_EDIT_ADDR_HI_ADDR k) % 65536)) / 8 * 8 + 8 ≤ 4 * pondDieBytes ∧
      (s.dev.readChk die mPad ((s.dev.rd die (CLUSTER_PAD_EDIT_ADDR_LO_ADDR k) + 2 ^ 32 * (s.dev.rd die (CLUSTER_PAD_EDIT_ADDR_HI_ADDR k) % 65536)) / 8 * 8) 8).2.1 = stDONE ∧
      (decide (peState (s.dev.load ((s.dev.rd die (CLUSTER_PAD_EDIT_ADDR_LO_ADDR k) + 2 ^ 32 * (s.dev.rd die (CLUSTER_PAD_EDIT_ADDR_HI_ADDR k) % 65536)) / 8 * 8) 8) = pPROMOTING) || decide (peState (s.dev.load ((s.dev.rd die (CLUSTER_PAD_EDIT_ADDR_LO_ADDR k) + 2 ^ 32 * (s.dev.rd die (CLUSTER_PAD_EDIT_ADDR_HI_ADDR k) % 65536)) / 8 * 8) 8) = pEVICTING)) = false ∧
      s.dev.load ((s.dev.rd die (CLUSTER_PAD_EDIT_ADDR_LO_ADDR k) + 2 ^ 32 * (s.dev.rd die (CLUSTER_PAD_EDIT_ADDR_HI_ADDR k) % 65536)) / 8 * 8) 8 = s.dev.rd die (CLUSTER_PAD_EDIT_OLD_LO_VALUE k) + 2 ^ 32 * s.dev.rd die (CLUSTER_PAD_EDIT_OLD_HI_VALUE k) ∧
      (peResident (s.dev.rd die (CLUSTER_PAD_EDIT_NEW_LO_VALUE k) + 2 ^ 32 * s.dev.rd die (CLUSTER_PAD_EDIT_NEW_HI_VALUE k)) || (decide (peState (s.dev.rd die (CLUSTER_PAD_EDIT_NEW_LO_VALUE k) + 2 ^ 32 * s.dev.rd die (CLUSTER_PAD_EDIT_NEW_HI_VALUE k)) = pPROMOTING) || decide (peState (s.dev.rd die (CLUSTER_PAD_EDIT_NEW_LO_VALUE k) + 2 ^ 32 * s.dev.rd die (CLUSTER_PAD_EDIT_NEW_HI_VALUE k)) = pEVICTING))) = true ∧
      ((s.dev.rd die (CLUSTER_PAD_EDIT_ADDR_LO_ADDR k) + 2 ^ 32 * (s.dev.rd die (CLUSTER_PAD_EDIT_ADDR_HI_ADDR k) % 65536)) / 8 * 8 + 8 ≤ s.dev.slotAddr (s.dev.editCore die k ((s.dev.rd die (CLUSTER_PAD_EDIT_ADDR_LO_ADDR k) + 2 ^ 32 * (s.dev.rd die (CLUSTER_PAD_EDIT_ADDR_HI_ADDR k) % 65536)) / 8 * 8)).2 (peSlot (s.dev.rd die (CLUSTER_PAD_EDIT_NEW_LO_VALUE k) + 2 ^ 32 * s.dev.rd die (CLUSTER_PAD_EDIT_NEW_HI_VALUE k))) ∨ s.dev.slotAddr (s.dev.editCore die k ((s.dev.rd die (CLUSTER_PAD_EDIT_ADDR_LO_ADDR k) + 2 ^ 32 * (s.dev.rd die (CLUSTER_PAD_EDIT_ADDR_HI_ADDR k) % 65536)) / 8 * 8)).2 (peSlot (s.dev.rd die (CLUSTER_PAD_EDIT_NEW_LO_VALUE k) + 2 ^ 32 * s.dev.rd die (CLUSTER_PAD_EDIT_NEW_HI_VALUE k))) + 512 ≤ (s.dev.rd die (CLUSTER_PAD_EDIT_ADDR_LO_ADDR k) + 2 ^ 32 * (s.dev.rd die (CLUSTER_PAD_EDIT_ADDR_HI_ADDR k) % 65536)) / 8 * 8)) ∧
    (∃ (s : State) (core : Nat) (n : Nat) (m : PadMove),
      s.dev.sound ∧
      s.dev.att.wants = [] ∧
      s.dev.att.cmds = [] ∧
      s.dev.pond.link = [] ∧
      s.dev.moveOf core n true = some m ∧
      (s.dev.copyVa core (s.dev.workJob m.work) m.va (s.dev.slotAddr core n) (if (s.dev.slot core n).wide = true then padCopyBytes 8 else padCopyBytes 3) false).2 = 0 ∧
      (s.dev.copyVa core (s.dev.workJob m.work) m.va (s.dev.slotAddr core n) (if (s.dev.slot core n).wide = true then padCopyBytes 8 else padCopyBytes 3) false).1.pond.ecc = [] ∧
      (s.dev.copyVa core (s.dev.workJob m.work) m.va (s.dev.slotAddr core n) (if (s.dev.slot core n).wide = true then padCopyBytes 8 else padCopyBytes 3) false).1.accessStatus (core / 64) mPad m.entry 8 false = stDONE ∧
      (s.dev.copyVa core (s.dev.workJob m.work) m.va (s.dev.slotAddr core n) (if (s.dev.slot core n).wide = true then padCopyBytes 8 else padCopyBytes 3) false).1.routeUp ((s.dev.copyVa core (s.dev.workJob m.work) m.va (s.dev.slotAddr core n) (if (s.dev.slot core n).wide = true then padCopyBytes 8 else padCopyBytes 3) false).1.homeDie ((s.dev.copyVa core (s.dev.workJob m.work) m.va (s.dev.slotAddr core n) (if (s.dev.slot core n).wide = true then padCopyBytes 8 else padCopyBytes 3) false).1.region m.entry)) (core / 64) = true ∧
      (s.dev.copyVa core (s.dev.workJob m.work) m.va (s.dev.slotAddr core n) (if (s.dev.slot core n).wide = true then padCopyBytes 8 else padCopyBytes 3) false).1.load m.entry 8 ≠ m.value) ∧
    (∃ (s : State) (core : Nat) (n : Nat) (m : PadMove),
      s.dev.sound ∧
      s.dev.att.wants = [] ∧
      s.dev.att.cmds = [] ∧
      s.dev.pond.link = [] ∧
      s.dev.moveOf core n true = some m ∧
      (s.dev.copyVa core (s.dev.workJob m.work) m.va (s.dev.slotAddr core n) (if (s.dev.slot core n).wide = true then padCopyBytes 8 else padCopyBytes 3) false).2 = 0 ∧
      (s.dev.copyVa core (s.dev.workJob m.work) m.va (s.dev.slotAddr core n) (if (s.dev.slot core n).wide = true then padCopyBytes 8 else padCopyBytes 3) false).1.pond.ecc = [] ∧
      (s.dev.copyVa core (s.dev.workJob m.work) m.va (s.dev.slotAddr core n) (if (s.dev.slot core n).wide = true then padCopyBytes 8 else padCopyBytes 3) false).1.accessStatus (core / 64) mPad m.entry 8 false = stDONE ∧
      (s.dev.copyVa core (s.dev.workJob m.work) m.va (s.dev.slotAddr core n) (if (s.dev.slot core n).wide = true then padCopyBytes 8 else padCopyBytes 3) false).1.routeUp ((s.dev.copyVa core (s.dev.workJob m.work) m.va (s.dev.slotAddr core n) (if (s.dev.slot core n).wide = true then padCopyBytes 8 else padCopyBytes 3) false).1.homeDie ((s.dev.copyVa core (s.dev.workJob m.work) m.va (s.dev.slotAddr core n) (if (s.dev.slot core n).wide = true then padCopyBytes 8 else padCopyBytes 3) false).1.region m.entry)) (core / 64) = true ∧
      (s.dev.copyVa core (s.dev.workJob m.work) m.va (s.dev.slotAddr core n) (if (s.dev.slot core n).wide = true then padCopyBytes 8 else padCopyBytes 3) false).1.load m.entry 8 = m.value ∧
      (m.entry + 8 ≤ s.dev.slotAddr core n ∨ s.dev.slotAddr core n + 512 ≤ m.entry)) ∧
    (∃ (s : State) (core : Nat) (n : Nat) (m : PadMove),
      s.dev.sound ∧
      s.dev.att.wants = [] ∧
      s.dev.att.cmds = [] ∧
      s.dev.pond.link = [] ∧
      s.dev.moveOf core n false = some m ∧
      s.dev.load m.entry 8 = m.value ∧
      (s.dev.copyVa core (s.dev.slot core n).job m.va (s.dev.slotAddr core n) (if (s.dev.slot core n).wide = true then 2 * slotBytes else slotBytes) true).2 = 0 ∧
      s.dev.pond.ecc = [] ∧
      (s.dev.copyVa core (s.dev.slot core n).job m.va (s.dev.slotAddr core n) (if (s.dev.slot core n).wide = true then 2 * slotBytes else slotBytes) true).1.pond.ecc = [] ∧
      (s.dev.copyVa core (s.dev.slot core n).job m.va (s.dev.slotAddr core n) (if (s.dev.slot core n).wide = true then 2 * slotBytes else slotBytes) true).1.load m.entry 8 = m.value ∧
      (s.dev.copyVa core (s.dev.slot core n).job m.va (s.dev.slotAddr core n) (if (s.dev.slot core n).wide = true then 2 * slotBytes else slotBytes) true).1.accessStatus (core / 64) mPad m.entry 8 false = stDONE ∧
      (s.dev.copyVa core (s.dev.slot core n).job m.va (s.dev.slotAddr core n) (if (s.dev.slot core n).wide = true then 2 * slotBytes else slotBytes) true).1.routeUp ((s.dev.copyVa core (s.dev.slot core n).job m.va (s.dev.slotAddr core n) (if (s.dev.slot core n).wide = true then 2 * slotBytes else slotBytes) true).1.homeDie ((s.dev.copyVa core (s.dev.slot core n).job m.va (s.dev.slotAddr core n) (if (s.dev.slot core n).wide = true then 2 * slotBytes else slotBytes) true).1.region m.entry)) (core / 64) = true) ∧
    (∃ (s : State) (core : Nat) (n : Nat) (m : PadMove),
      s.dev.sound ∧
      s.dev.att.wants = [] ∧
      s.dev.att.cmds = [] ∧
      s.dev.pond.link = [] ∧
      s.dev.moveOf core n false = some m ∧
      s.dev.load m.entry 8 ≠ m.value ∧
      s.dev.pond.ecc = [] ∧
      s.dev.accessStatus (core / 64) mPad m.entry 8 false = stDONE ∧
      s.dev.routeUp (s.dev.homeDie (s.dev.region m.entry)) (core / 64) = true) :=
  ⟨⟨({ dev := ed 0x80 0 } : State), 0, 0, 2^30,
      ⟨by decide +kernel, by decide +kernel⟩, by decide +kernel⟩,
   ⟨({ dev := ed 1 5 } : State), 0, 0, 2^30,
      ⟨by decide +kernel, by decide +kernel⟩, by decide +kernel⟩,
   ⟨({ dev := edo (((edn 0x20 0x20000005).wr 0 (CLUSTER_PAD_EDIT_OLD_HI_VALUE 0) 0x20000000)) } : State), 0, 0, 2^30,
      ⟨by decide +kernel, by decide +kernel⟩, by decide +kernel⟩,
   ⟨({ dev := edo (((edn 0x20 0x40000005).wr 0 (CLUSTER_PAD_EDIT_OLD_HI_VALUE 0) 0x20000000)) } : State), 0, 0, 2^30,
      ⟨by decide +kernel, by decide +kernel⟩, by decide +kernel⟩,
   ⟨({ dev := at1 mv 0x40 false } : State), 9, 9, mv,
      ⟨by decide +kernel, by decide +kernel⟩, by decide +kernel⟩,
   ⟨({ dev := at1 mw 0x80 false } : State), 9, 9, mw,
      ⟨by decide +kernel, by decide +kernel⟩, by decide +kernel⟩,
   ⟨({ dev := at1 nw 0xA0 false } : State), 9, 9, nw,
      ⟨by decide +kernel, by decide +kernel⟩, by decide +kernel⟩,
   ⟨({ dev := at1 nw 0x60 false } : State), 9, 9, nw,
      ⟨by decide +kernel, by decide +kernel⟩, by decide +kernel⟩⟩

end G05c

/-! States for AttentionRowsAndMerges. -/

namespace G05d

def e0 : Device := {}
def wl (l : List (Nat × Nat)) : List Nat := l.foldl (fun m x => m.set x.1 x.2) (List.replicate 16 0)
def poke (l : List (Nat × Nat)) (d : Device) : Device := { d with mem := SMap.insAll (l.map fun x => (x.1, (x.2 : Byte))) d.mem }
def iSl : Issue := ⟨.slice 0 0, 0, [0]⟩
def wAt : List Nat := wl [(0, 0x12000000), (1, 0x8A000000), (6, 0x2000), (8, 0x4000), (10, 0x6000), (12, 0x8000)]
def tl : Tlb := { die := 0, unit := 0, job := 0, va := 0, log2 := 21, pa := 0, rd := true, wr := true, pin := true }
def dA : Device := let d := (poke [(0x2002, 1), (0x10005, 0x80), (0x10008, 1)] e0).set 0 XLATE_CTL_EN; { d with xlate := { d.xlate with tlb := [tl] } }
def ar : AttRow := { idx := 0, table := 0x10000, kv := 0, pos := 0, stage := .merge, parts := [(0, false, [none])] }
def ac : AttCmd := { issue := ⟨.slice 0 0, 0, [0]⟩, words := wl [(0, 0x12000000), (2, 0x20000)], rows := [ar] }
def dM : Device := { e0 with att := { e0.att with cmds := [ac] } }
def slc (die idx : Nat) (us : List Nat) (d : Device) : Device := { d with chorus := { d.chorus with slices := [{ die := die, idx := idx, kind := 1, tick := 0, units := us, started := true }] } }

theorem witness_AttentionRowsAndMerges :
    (∃ (s : State) (i : Issue) (w : List Nat) (core : Nat),
      s.dev.offers i w [] core ∧
      hdOpcode w = 18 ∧
      firstFail ((s.dev.taken i w).atChecks i w) = none ∧
      atScope w ≠ 3 ∧
      atRows w = 1 ∧
      List.foldl Device.reclaim (s.dev.taken i w) (atHomes w) = s.dev.taken i w ∧
      (s.dev.taken i w).openPages core i (atPagesFirst ((s.dev.taken i w).workJob i.work) w) = (s.dev.taken i w, true) ∧
      (s.dev.taken i w).openPages core i (List.map (fun (p : ℕ) => (p, false)) (pagesOf ((s.dev.taken i w).workJob i.work) ((s.dev.taken i w).rowOf (core / 64) ((s.dev.taken i w).workJob i.work) w 0).table 64)) = (s.dev.taken i w, true) ∧
      (s.dev.taken i w).openPages core i ((s.dev.taken i w).atPagesRows { issue := i, words := w, rows := [(s.dev.taken i w).rowOf (core / 64) ((s.dev.taken i w).workJob i.work) w 0] : AttCmd }) = (s.dev.taken i w, true) ∧
      (s.dev.taken i w).ptOk { issue := i, words := w, rows := [(s.dev.taken i w).rowOf (core / 64) ((s.dev.taken i w).workJob i.work) w 0] : AttCmd } ((s.dev.taken i w).rowOf (core / 64) ((s.dev.taken i w).workJob i.work) w 0) = true ∧
      pairOk (atQFmt w) ((s.dev.taken i w).ptFmt { issue := i, words := w, rows := [(s.dev.taken i w).rowOf (core / 64) ((s.dev.taken i w).workJob i.work) w 0] : AttCmd } ((s.dev.taken i w).rowOf (core / 64) ((s.dev.taken i w).workJob i.work) w 0)) = true) ∧
    (∃ (s : State) (lead : Nat) (row : Nat) (node : Nat) (c : AttCmd) (r : AttRow) (ps : List (Option Partial)),
      s.dev.sound ∧
      s.dev.att.cmds = [c] ∧
      c.lead = lead ∧
      c.row row = some r ∧
      r.stage = RowStage.merge ∧
      List.find? (fun (p : ℕ × Bool × List (Option Partial)) => decide (p.1 = node) && !p.2.1) r.parts = some (node, false, ps) ∧
      node < 256 ∧
      (∃ k ∈ homeNodes c.words 0, k / 8 = node / 8 ∧ k ≠ node ∧ r.arrived 0 k = none)) :=
  ⟨⟨({ dev := slc 0 0 [0] dA } : State), iSl, wAt, 0,
      offers_of (by decide +kernel), by decide +kernel⟩,
   ⟨({ dev := dM } : State), 0, 0, 0, ac, ar, [none],
      ⟨by decide +kernel, by decide +kernel⟩, by decide +kernel⟩⟩

end G05d

/-! States for ChunksAndSwaps. -/

namespace G05e

def e0 : Device := {}
def wl (l : List (Nat × Nat)) : List Nat := l.foldl (fun m x => m.set x.1 x.2) (List.replicate 16 0)
def poke (l : List (Nat × Nat)) (d : Device) : Device := { d with mem := SMap.insAll (l.map fun x => (x.1, (x.2 : Byte))) d.mem }
def iSl : Issue := ⟨.slice 0 0, 0, [0]⟩
def wRc : List Nat := wl [(0, 0x13000000), (1, 0x10000), (2, 5), (3, 0x1000), (5, 2^30), (6, 0x10001), (7, 0x2000), (8, 2^30), (9, 0x10001)]
def wSw : List Nat := wl [(0, 0x14000000), (1, 2^30), (2, 5), (3, 0x1000), (4, 7), (5, 3)]
def tl : Tlb := { die := 0, unit := 0, job := 0, va := 0, log2 := 21, pa := 0, rd := true, wr := true, pin := true }
def hdr (fl : Nat) : List (Nat × Nat) := [(0, 5), (4, fl), (5, 0x88), (6, 0xA), (10, 16), (13 - 1, 32), (26, 0x10), (46, 0x14)]
def dH (fl : Nat) : Device := let d := (poke (((hdr fl).map fun x => (coreStoreBase 0 0 + 0x1000 + x.1, x.2)) ++ [(0x140000, 5), (0x140044, 9), (coreStoreBase 0 0 + 1, 0x3F), (0x100001, 0x40), (coreStoreBase 0 0 + 0x1043, 0x3F)]) e0).set 0 XLATE_CTL_EN; { d with xlate := { d.xlate with tlb := [tl] } }
def ch (st : Nat) : Chunk := { issue := iSl, words := wRc, arrived := [(0, st, 0)] }
def cr : Chunk := { issue := iSl, words := wRc, arrived := [(0, 0, 0)], running := true, weights := [(0, 0x4000, 0, 0)] }
def cc : CoreCmd := { work := .slice 0 0, entry := 0, opcode := 0x13, header := 0x13000000, cores := [0] }
def wc (c : Chunk) (d : Device) : Device := { (d.setCmd 0 (some cc)) with chunks := [c] }
def slc (die idx : Nat) (us : List Nat) (d : Device) : Device := { d with chorus := { d.chorus with slices := [{ die := die, idx := idx, kind := 1, tick := 0, units := us, started := true }] } }

theorem witness_ChunksAndSwaps :
    (∃ (s : State) (core : Nat) (i : Issue) (w : List Nat),
      s.dev.sound ∧
      s.dev.pond.ecc = [] ∧
      core < 256 ∧
      s.dev.offers i w [] core ∧
      hdOpcode w = 19 ∧
      s.dev.chunkOf core = none) ∧
    (∃ (s : State) (core : Nat) (c : Chunk) (m : CoreCmd) (st : Nat) (reason : Nat),
      s.dev.sound ∧
      s.dev.pond.ecc = [] ∧
      core < 256 ∧
      s.dev.chunkOf core = some c ∧
      c.cores = [core] ∧
      c.running = false ∧
      c.arrived = [(core, st, reason)] ∧
      s.dev.cmd core = some m ∧
      m.status = stDONE ∧
      st ≠ stDONE) ∧
    (∃ (s : State) (core : Nat) (c : Chunk) (m : CoreCmd) (reason : Nat) (sd : Nat) (idx : Nat),
      s.dev.sound ∧
      s.dev.pond.ecc = [] ∧
      core < 256 ∧
      s.dev.chunkOf core = some c ∧
      c.cores = [core] ∧
      c.running = false ∧
      c.arrived = [(core, stDONE, reason)] ∧
      s.dev.cmd core = some m ∧
      m.status = stDONE ∧
      c.issue.work = Work.slice sd idx ∧
      isMx (shBFmt (s.dev.stHeader core (rcOff c.words))) = false ∧
      shASrc (s.dev.stHeader core (rcOff c.words)) = true ∧
      rcOff c.words + shBytes (s.dev.stHeader core (rcOff c.words)) ≤ 262144 ∧
      (∀ p ∈ s.dev.pieces (core / 64) (core % 64) 0 (shBVa (s.dev.stHeader core (rcOff c.words))) ((shNb (s.dev.stHeader core (rcOff c.words)) * shWc (s.dev.stHeader core (rcOff c.words)) + 15) / 16 * ntileBytes (shBFmt (s.dev.stHeader core (rcOff c.words))) (shK (s.dev.stHeader core (rcOff c.words)) 1)), s.dev.accessStatus (core / 64) (core % 64) p.1 p.2 false = stDONE)) ∧
    (∃ (s : State) (core : Nat) (c : Chunk),
      s.dev.sound ∧
      s.dev.pond.ecc = [] ∧
      core < 256 ∧
      s.dev.chunkOf core = some c ∧
      c.cores = [core] ∧
      c.running = true ∧
      (s.dev.stepIn c core 1 (if (rcAnchorEn c.words && decide (shAnchorN (s.dev.stHeader core (rcOff c.words)) ≠ 0) && decide ((shStep (s.dev.stHeader core (rcOff c.words)) + 1) % max 1 (shAnchorN (s.dev.stHeader core (rcOff c.words))) = 0)) = true then some c.anchors else none)).2.1 = stDONE) ∧
    (∃ (s : State) (i : Issue) (w : List Nat) (core : Nat) (sd : Nat) (idx : Nat),
      s.dev.sound ∧
      s.dev.pond.ecc = [] ∧
      (∀ t ∈ s.dev.xlate.tlb, t.pin = true) ∧
      s.dev.offers i w [] core ∧
      hdOpcode w = 20 ∧
      i.work = Work.slice sd idx ∧
      firstFail ((s.dev.taken i w).swChecks core w) = none ∧
      shResident ((s.dev.taken i w).stHeader core (rcOff w)) = true ∧
      shGen ((s.dev.taken i w).stHeader core (rcOff w)) = rcGen w ∧
      ((s.dev.taken i w).translateAll (core / 64) (core % 64) 0 (List.map (fun (p : ℕ) => (p, true)) (pagesOf 0 (shSwapVa ((s.dev.taken i w).stHeader core (rcOff w))) (shBytes ((s.dev.taken i w).stHeader core (rcOff w)))))).2 = none ∧
      ((s.dev.taken i w).opWrite core i.work { space := 0, addr := shSwapVa ((s.dev.taken i w).stHeader core (rcOff w)) : Opnd } (shBytes ((s.dev.taken i w).stHeader core (rcOff w))) (setBits (setBits ((s.dev.taken i w).load (coreStoreBase (core / 64) (core % 64) + rcOff w) (shBytes ((s.dev.taken i w).stHeader core (rcOff w)))) 0 32 (rcGen w + 1)) 32 1 0)).cmdOk core = true) ∧
    (∃ (s : State) (i : Issue) (w : List Nat) (core : Nat) (sd : Nat) (idx : Nat),
      s.dev.sound ∧
      s.dev.pond.ecc = [] ∧
      (∀ t ∈ s.dev.xlate.tlb, t.pin = true) ∧
      s.dev.offers i w [] core ∧
      hdOpcode w = 20 ∧
      i.work = Work.slice sd idx ∧
      firstFail ((s.dev.taken i w).swChecks core w) = none ∧
      shResident ((s.dev.taken i w).stHeader core (rcOff w)) = false ∧
      ((s.dev.taken i w).opRead core i.work { space := 0, addr := shSwapVa ((s.dev.taken i w).stHeader core (rcOff w)) : Opnd } (shBytes ((s.dev.taken i w).stHeader core (rcOff w)))).1.cmdOk core = true ∧
      shGen ((s.dev.taken i w).opRead core i.work { space := 0, addr := shSwapVa ((s.dev.taken i w).stHeader core (rcOff w)) : Opnd } (shBytes ((s.dev.taken i w).stHeader core (rcOff w)))).2 = rcGen w ∧
      ((s.dev.taken i w).translateAll (core / 64) (core % 64) 0 (List.map (fun (p : ℕ) => (p, false)) (pagesOf 0 (shSwapVa ((s.dev.taken i w).stHeader core (rcOff w))) (shBytes ((s.dev.taken i w).stHeader core (rcOff w)))))).2 = none) :=
  ⟨⟨({ dev := slc 0 0 [0] (dH 9) } : State), 0, iSl, wRc,
      ⟨by decide +kernel, by decide +kernel⟩, by decide +kernel, by decide +kernel, offers_of (by decide +kernel), by decide +kernel⟩,
   ⟨({ dev := wc (ch 0x24) (dH 9) } : State), 0, ch 0x24, cc, 0x24, 0,
      ⟨by decide +kernel, by decide +kernel⟩, by decide +kernel⟩,
   ⟨({ dev := wc (ch 0) (dH 9) } : State), 0, ch 0, cc, 0, 0, 0,
      ⟨by decide +kernel, by decide +kernel⟩, by decide +kernel⟩,
   ⟨({ dev := wc cr (dH 9) } : State), 0, cr,
      ⟨by decide +kernel, by decide +kernel⟩, by decide +kernel⟩,
   ⟨({ dev := slc 0 0 [0] (dH 9) } : State), iSl, wSw, 0, 0, 0,
      ⟨by decide +kernel, by decide +kernel⟩, by decide +kernel, by decide +kernel, offers_of (by decide +kernel), by decide +kernel⟩,
   ⟨({ dev := slc 0 0 [0] (dH 8) } : State), iSl, wSw, 0, 0, 0,
      ⟨by decide +kernel, by decide +kernel⟩, by decide +kernel, by decide +kernel, offers_of (by decide +kernel), by decide +kernel⟩⟩

end G05e

/-! States for Collectives. -/

namespace G05f

def e0 : Device := {}
def wl (l : List (Nat × Nat)) : List Nat := l.foldl (fun m x => m.set x.1 x.2) (List.replicate 16 0)
def poke (l : List (Nat × Nat)) (d : Device) : Device := { d with mem := SMap.insAll (l.map fun x => (x.1, (x.2 : Byte))) d.mem }
def iSl : Issue := ⟨.slice 1 0, 0, [70]⟩
def iRg : Issue := ⟨.ring 0x10000, 0, [70]⟩
def wCl (kind off : Nat) : List Nat := wl [(0, 0x15000000), (1, kind * 2^30 + 0xA00460), (2, 2), (3, off), (5, 2^30), (6, 0x2000), (7, 2^30), (10, 0x3000), (12, 0x38000000)]
def cb : Nat := coreStoreBase 1 6
def d1 : Device := poke ([(3, 0x3F), (7, 0x40), (10, 0x40), (11, 0x40), (15, 0xC1), (127, 0x3F), (0x3043, 0x3F), (0x3046, 0x80), (0x3047, 0xBF), (0x2001, 7), (0x2044, 9), (0x2100, 3)].map fun x => (cb + x.1, x.2)) e0
def ringD (d : Device) : Device := { d with disp := { d.disp with kernels := [{ ring := 0x10000, cores := [70], entry := 0, fcBound := 0, ticks := 0, lent := false, startRc := 0, startTick := 0 }], rings := [(0x10000, { state := 1, job := 3, tail := 2, desc := [0x10000000] })], jobs := [(3, { state := 1 })] } }
def cp : CollPart := { core := 70, issue := iRg, words := wCl 0 0, tick := 0, data := [] }
def cA : Coll := { scope := 3, seq := 2, members := [7], parts := [], remote := [] }
def cB : Coll := { scope := 1025, seq := 0, members := [], parts := [cp] }
def cm : CoreCmd := { work := .ring 0x10000, entry := 0, opcode := 0x15, header := 0x15000000, cores := [70] }
def hd : FlitHead := { dst := 0, src := 7, cls := 0, fixed := true, job0 := true, hops := 1, seq := 0, ack := 4095, crVc := 0, crCls := 0, cr := 0 }
def arA : Arrival := { die := 0, group := 3, seq := 2, dev := 7, kind := 0, units := 0, rows := 0, data := [(0, [1,2])] }
def arB : Arrival := { arA with units := 0, seq := 2^31 + 5 }
def up (d : Device) : Device := { d with regs := SMap.put 0 d.regs (OLINER_STATUS_STATE.key 0) olUP }
def slc (die idx : Nat) (us : List Nat) (d : Device) : Device := { d with chorus := { d.chorus with slices := [{ die := die, idx := idx, kind := 1, tick := 0, units := us, started := true }] } }

theorem witness_Collectives_1 :
    (∃ (s : State) (i : Issue) (w : List Nat) (core : Nat),
      s.dev.sound ∧
      s.dev.pond.ecc = [] ∧
      s.dev.loneColl i w core ∧
      clKind w = 0 ∧
      clResEn w = false ∧
      clNormEn w = false ∧
      clOutFmt w = 10 ∧
      (clDst w).addr + 4 * (16 * clUnits w) ≤ 262144) ∧
    (∃ (s : State) (i : Issue) (w : List Nat) (core : Nat),
      s.dev.sound ∧
      s.dev.pond.ecc = [] ∧
      s.dev.loneColl i w core ∧
      clKind w = 1 ∧
      (clDst w).addr + 64 * clDstOff w + 4 * (16 * clUnits w) ≤ 262144) ∧
    (∃ (s : State) (i : Issue) (w : List Nat) (core : Nat),
      s.dev.sound ∧
      s.dev.pond.ecc = [] ∧
      s.dev.loneColl i w core ∧
      clKind w = 2 ∧
      clOutFmt w = 10 ∧
      (clDst w).addr + 64 * clDstOff w + 4 * (16 * clUnits w) ≤ 262144 ∧
      (clV w).addr + 64 * clDstOff w + 4 * (16 * clUnits w) ≤ 262144) ∧
    (∃ (s : State) (i : Issue) (w : List Nat) (core : Nat),
      s.dev.sound ∧
      s.dev.pond.ecc = [] ∧
      s.dev.loneColl i w core ∧
      clKind w = 3) ∧
    (∃ (s : State) (h : FlitHead) (a : Arrival) (c : Coll),
      s.dev.sound ∧
      s.dev.flitComes a.die h ∧
      (List.flatMap (fun (x : ℕ × List ℕ) => x.1 :: x.2) a.data).length ≤ 60 ∧
      s.dev.coll.active = [c] ∧
      c.is a.group a.seq = true ∧
      c.attn = none ∧
      c.dead = none ∧
      s.dev.coll.held = [] ∧
      [a.kind, a.units, a.rows] = clShape c.words ∧
      c.full = false) :=
  ⟨⟨({ dev := slc 1 0 [6] d1 } : State), iSl, wCl 0 0, 70,
      ⟨by decide +kernel, by decide +kernel⟩, by decide +kernel, ⟨offers_of (by decide +kernel), by decide +kernel⟩, by decide +kernel⟩,
   ⟨({ dev := slc 1 0 [6] d1 } : State), iSl, wCl 1 2, 70,
      ⟨by decide +kernel, by decide +kernel⟩, by decide +kernel, ⟨offers_of (by decide +kernel), by decide +kernel⟩, by decide +kernel⟩,
   ⟨({ dev := slc 1 0 [6] d1 } : State), iSl, wCl 2 1, 70,
      ⟨by decide +kernel, by decide +kernel⟩, by decide +kernel, ⟨offers_of (by decide +kernel), by decide +kernel⟩, by decide +kernel⟩,
   ⟨({ dev := slc 1 0 [6] d1 } : State), iSl, wCl 3 0, 70,
      ⟨by decide +kernel, by decide +kernel⟩, by decide +kernel, ⟨offers_of (by decide +kernel), by decide +kernel⟩, by decide +kernel⟩,
   ⟨({ dev := { (up e0) with coll := { (up e0).coll with active := [cA] } } } : State), hd, arA, cA,
      ⟨by decide +kernel, by decide +kernel⟩, by unfold Device.flitComes; decide +kernel, by decide +kernel⟩⟩

theorem witness_Collectives_2 :
    (∃ (s : State) (h : FlitHead) (a : Arrival),
      s.dev.sound ∧
      s.dev.flitComes a.die h ∧
      (List.flatMap (fun (x : ℕ × List ℕ) => x.1 :: x.2) a.data).length ≤ 60 ∧
      s.dev.coll.active = [] ∧
      s.dev.collAhead a.group a.seq = true ∧
      s.dev.takeNotice a.group a.seq = none) ∧
    (∃ (s : State) (h : FlitHead) (a : Arrival),
      s.dev.sound ∧
      s.dev.flitComes a.die h ∧
      (List.flatMap (fun (x : ℕ × List ℕ) => x.1 :: x.2) a.data).length ≤ 60 ∧
      s.dev.coll.active = [] ∧
      s.dev.collAhead a.group a.seq = false) ∧
    (∃ (s : State) (c : Coll) (p : CollPart) (m : CoreCmd) (g : Nat),
      s.dev.sound ∧
      s.dev.coll.active = [c] ∧
      c.parts = [p] ∧
      c.members = [] ∧
      c.attn = none ∧
      c.dead = none ∧
      c.full = true ∧
      s.dev.coll.held = [] ∧
      s.dev.att.cmds = [] ∧
      p.issue.work = Work.ring g ∧
      s.dev.cmd p.core = some m ∧
      m.status = stDONE ∧
      p.tick + s.dev.collTimeout ≤ s.dev.chorus.tickNo) ∧
    (∃ (s : State) (die : Nat) (group : Nat) (seq : Nat) (h : FlitHead),
      s.dev.sound ∧
      s.dev.flitComes die h ∧
      s.dev.coll.active = [] ∧
      s.dev.collAhead group seq = true) ∧
    (∃ (s : State) (die : Nat) (group : Nat) (seq : Nat) (h : FlitHead),
      s.dev.sound ∧
      s.dev.flitComes die h ∧
      s.dev.coll.active = [] ∧
      s.dev.collAhead group seq = false ∧
      s.dev.coll.gone.contains (group, seq) = false) :=
  ⟨⟨({ dev := up e0 } : State), hd, arA,
      ⟨by decide +kernel, by decide +kernel⟩, by unfold Device.flitComes; decide +kernel, by decide +kernel⟩,
   ⟨({ dev := up e0 } : State), hd, arB,
      ⟨by decide +kernel, by decide +kernel⟩, by unfold Device.flitComes; decide +kernel, by decide +kernel⟩,
   ⟨({ dev := { ((ringD e0).setCmd 70 (some cm)) with coll := { e0.coll with active := [cB] }, chorus := { e0.chorus with tickNo := 4 } } } : State), cB, cp, cm, 0x10000,
      ⟨by decide +kernel, by decide +kernel⟩, by decide +kernel⟩,
   ⟨({ dev := up e0 } : State), 0, 0, 0, hd,
      ⟨by decide +kernel, by decide +kernel⟩, by unfold Device.flitComes; decide +kernel, by decide +kernel⟩,
   ⟨({ dev := up e0 } : State), 0, 0, 2^31 + 5, hd,
      ⟨by decide +kernel, by decide +kernel⟩, by unfold Device.flitComes; decide +kernel, by decide +kernel⟩⟩

end G05f

/-! States for SegmentsAndResolves. -/

namespace G05g

def e0 : Device := {}
def wl (l : List (Nat × Nat)) : List Nat := l.foldl (fun m x => m.set x.1 x.2) (List.replicate 16 0)
def poke (l : List (Nat × Nat)) (d : Device) : Device := { d with mem := SMap.insAll (l.map fun x => (x.1, (x.2 : Byte))) d.mem }
def iSl : Issue := ⟨.slice 1 0, 0, [70]⟩
def wSg : List Nat := wl [(0, 0x16000000), (1, 2^30 + 5 * 2^22 + 1 * 2^18 + 1 * 2^14 + 1 * 2^11 + 2 * 2^7), (3, 2^30), (4, 0x1000), (5, 2^30), (6, 0x100010), (10, 44)]
def wRs : List Nat := wl [(0, 0x17000000), (1, 5 * 2^22 + 3)]
def cb : Nat := coreStoreBase 1 6
def d1 : Device := poke ([(0, 0x10), (2, 0x11), (4, 0x12), (8, 0x14), (10, 0x1F), (0x1002, 0x80), (0x1003, 0x3F), (0x100B, 0x40), (0x1013, 0xC0), (0x1017, 0x3F), (0x100F, 0x3E)].map fun x => (cb + x.1, x.2)) e0
def slc (die idx : Nat) (us : List Nat) (d : Device) : Device := { d with chorus := { d.chorus with slices := [{ die := die, idx := idx, kind := 1, tick := 0, units := us, started := true }] } }

theorem witness_SegmentsAndResolves :
    (∃ (s : State) (i : Issue) (w : List Nat) (core : Nat),
      s.dev.sound ∧
      s.dev.pond.ecc = [] ∧
      s.dev.offers i w [] core ∧
      hdOpcode w = 22 ∧
      firstFail (sgChecks w) = none ∧
      (sgTokens w).space = 1 ∧
      (sgBins w).space = 1 ∧
      sgDie w = core / 64 ∧
      (∀ k ≤ sgWps w, ∀ (j : ℕ), sgFirst w ≤ j → j ≤ sgFirst w + sgJoints w → sgBase w ≤ s.dev.load (coreStoreBase (core / 64) (core % 64) + (sgTokens w).addr + 2 * (k * (sgTpw w + 1) + j)) 2 ∧ s.dev.load (coreStoreBase (core / 64) (core % 64) + (sgTokens w).addr + 2 * (k * (sgTpw w + 1) + j)) 2 < sgBase w + sgNbins w) ∧
      (s.dev.segs (core / 64)).length < 64) ∧
    (∃ (s : State) (i : Issue) (w : List Nat) (core : Nat),
      s.dev.sound ∧
      s.dev.pond.ecc = [] ∧
      s.dev.offers i w [] core ∧
      hdOpcode w = 23 ∧
      bit (wd w 1) 30 = false ∧
      bits (wd w 1) 4 18 = 0 ∧
      ((List.drop 2 w).any fun (x : ℕ) => decide (x ≠ 0)) = false) :=
  ⟨⟨({ dev := slc 1 0 [6] d1 } : State), iSl, wSg, 70,
      ⟨by decide +kernel, by decide +kernel⟩, by decide +kernel, offers_of (by decide +kernel), by decide +kernel⟩,
   ⟨({ dev := slc 1 0 [6] d1 } : State), iSl, wRs, 70,
      ⟨by decide +kernel, by decide +kernel⟩, by decide +kernel, offers_of (by decide +kernel), by decide +kernel⟩⟩

end G05g

/-! States for RingRequests. -/

namespace G06

def e0 : Device := {}

theorem witness_RingRequests :
    (∃ (s : State) (die : Nat),
      s.dev.sound ∧
      (s.dev.readChk die mManage (s.dev.ringTab die + 64 * (s.dev.selRing die % 65536)) 64).2.1 = stDONE ∧
      (rdModelVa (s.dev.ringDesc (s.dev.selRing die)) = 0 ∨ (s.dev.vaRead die (rdJob (s.dev.ringDesc (s.dev.selRing die))) (rdModelVa (s.dev.ringDesc (s.dev.selRing die))) 64).2 = stDONE ∧ s.dev.modelOk die (s.dev.ringDesc (s.dev.selRing die)) = true)) ∧
    (∃ (s : State) (die : Nat),
      s.dev.sound ∧
      (s.dev.ring (s.dev.selRing die)).head = (s.dev.ring (s.dev.selRing die)).tail ∧
      s.dev.selRing die ∉ s.dev.disp.claims) ∧
    (∃ (s : State) (die : Nat) (value : Nat),
      s.dev.sound ∧
      s.dev.kernelOf (die * 65536 + value % 65536) = none) :=
  ⟨⟨({ dev := e0 } : State), 0,
      ⟨by decide +kernel, by decide +kernel⟩, by decide +kernel⟩,
   ⟨({ dev := e0 } : State), 0,
      ⟨by decide +kernel, by decide +kernel⟩, by decide +kernel⟩,
   ⟨({ dev := e0 } : State), 0, 0,
      ⟨by decide +kernel, by decide +kernel⟩, by decide +kernel⟩⟩

end G06

/-! States for KernelsStartAndStop. -/

namespace G06b

def e0 : Device := {}
def wl (l : List (Nat × Nat)) : List Nat := l.foldl (fun m x => m.set x.1 x.2) (List.replicate 16 0)
def poke (l : List (Nat × Nat)) (d : Device) : Device := { d with mem := SMap.insAll (l.map fun x => (x.1, (x.2 : Byte))) d.mem }
def dsp (d : Device) (f : DispSt → DispSt) : Device := { d with disp := f d.disp }
def tab (d : Device) : Device := poke [(48, 1), (50, 2), (0x20000, 1), (0x20002, 4), (0x40000, 15), (0x40002, 0x40)] d
def rd5 : List Nat := wl [(0, 0x80200500), (1, 3 * 2^20), (2, 0x2000), (4, 0x3000), (6, 4)]
def jb (st : Nat) (d : Device) : Device := dsp d fun x => { x with jobs := [(3, { state := st, client := 1 })] }
def rg (st hd tl : Nat) (d : Device) : Device := dsp d fun x => { x with rings := [(5, { state := st, job := 3, head := hd, tail := tl, desc := rd5, waitTicks := 100 })] }
def k5 : Kernel := { ring := 5, cores := [5], entry := 1, fcBound := 3, ticks := 100000, lent := false, startRc := 0, startTick := 0 }
def k6 : Kernel := { k5 with lent := true, ticks := 0 }
def kn (k : Kernel) (d : Device) : Device := { (dsp (d.setCmd 5 (some { work := .ring 5, entry := 2, opcode := 0x10, header := 0x10000000, cores := [5], wrote := [(0x500, 4)] })) fun x => { x with kernels := [k] }) with chorus := { d.chorus with tickNo := 3 } }

theorem witness_KernelsStartAndStop :
    (∃ (s : State) (core : Nat) (g : Nat),
      s.dev.sound ∧
      s.dev.isHalted core = false ∧
      s.dev.coreBusy core = false ∧
      s.dev.disp.claims = [] ∧
      s.dev.disp.parked = [] ∧
      s.dev.pickRing core = some g ∧
      rdCores (s.dev.ring g).desc = [core] ∧
      rdModelVa (s.dev.ring g).desc = 0 ∧
      s.dev.disp.resumed = [] ∧
      (s.dev.headRead g).2 = stDONE ∧
      s.dev.coreDisabled core = false ∧
      s.dev.reservedCore core = false) ∧
    (∃ (s : State) (g : Nat),
      s.dev.sound ∧
      (s.dev.ring g).state = 1 ∧
      (s.dev.ring g).head ≠ (s.dev.ring g).tail ∧
      s.dev.kernelOf g = none ∧
      rdDma (s.dev.ring g).desc = false ∧
      s.dev.plainMsi (rdMsiAddr (s.dev.ring g).desc) ∧
      s.dev.rd 0 DISPATCH_CTL_WAIT_TICKS ≤ (s.dev.ring g).waitTicks ∧
      s.dev.cmdWaitDone { work := Work.ring g, entry := (s.dev.ring g).head, cores := [] : Issue } (s.dev.ringEntry g (s.dev.ring g).head) = false) ∧
    (∃ (s : State) (g : Nat) (k : Kernel),
      s.dev.sound ∧
      s.dev.kernelOf g = some k ∧
      s.dev.chunks = [] ∧
      s.dev.coll.active = [] ∧
      s.dev.att.cmds = [] ∧
      (s.dev.job (s.dev.ring g).job).state = 1 ∧
      s.dev.plainMsi (rdMsiAddr (s.dev.ring g).desc) ∧
      k.lent = true ∧
      s.dev.boundReached k = true) ∧
    (∃ (s : State) (g : Nat) (k : Kernel),
      s.dev.sound ∧
      s.dev.kernelOf g = some k ∧
      s.dev.chunks = [] ∧
      s.dev.coll.active = [] ∧
      s.dev.att.cmds = [] ∧
      (s.dev.job (s.dev.ring g).job).state = 1 ∧
      s.dev.plainMsi (rdMsiAddr (s.dev.ring g).desc) ∧
      k.lent = false ∧
      s.dev.rd 0 DISPATCH_CTL_KERNEL_TICKS ≤ k.ticks ∧
      s.dev.kernelCounts k = true) :=
  ⟨⟨({ dev := jb 1 (rg 1 2 3 (tab e0)) } : State), 5, 5,
      ⟨by decide +kernel, by decide +kernel⟩, by decide +kernel⟩,
   ⟨({ dev := dsp (jb 1 (rg 1 2 3 (poke [(0x402082, 0x40), (0x402080, 9)] (tab e0)))) fun x => { x with slots := [(40, 7)] } } : State), 5,
      ⟨by decide +kernel, by decide +kernel⟩, by decide +kernel, by decide +kernel, by decide +kernel, by decide +kernel, plainMsi_of (by decide +kernel), by decide +kernel⟩,
   ⟨({ dev := kn k6 (jb 1 (rg 1 2 3 (tab e0))) } : State), 5, k6,
      ⟨by decide +kernel, by decide +kernel⟩, by decide +kernel, by decide +kernel, by decide +kernel, by decide +kernel, by decide +kernel, plainMsi_of (by decide +kernel), by decide +kernel⟩,
   ⟨({ dev := kn k5 (jb 1 (rg 1 2 3 (tab e0))) } : State), 5, k5,
      ⟨by decide +kernel, by decide +kernel⟩, by decide +kernel, by decide +kernel, by decide +kernel, by decide +kernel, by decide +kernel, plainMsi_of (by decide +kernel), by decide +kernel⟩⟩

end G06b

/-! States for ModelsLoad. -/

namespace G06d

def e0 : Device := {}
def wl (l : List (Nat × Nat)) : List Nat := l.foldl (fun m x => m.set x.1 x.2) (List.replicate 16 0)
def poke (l : List (Nat × Nat)) (d : Device) : Device := { d with mem := SMap.insAll (l.map fun x => (x.1, (x.2 : Byte))) d.mem }
def dsp (d : Device) (f : DispSt → DispSt) : Device := { d with disp := f d.disp }
def iRg : Issue := ⟨.ring 5, 2, [5]⟩
def wMl : List Nat := wl [(0, 0x22000000)]
def tab (d : Device) : Device := poke [(48, 1), (50, 2), (0x20000, 1), (0x20002, 4), (0x40000, 15), (0x40002, 0x40), (0x401000, 2), (0x401001, 1), (0x401002, 1), (0x40100A, 1), (0x401012, 1), (0x401018, 5), (0x410003, 9), (0x41FFFF, 5), (5 * columnBytes + 3, 4), (5 * columnBytes + 0x10003, 4)] d
def rd5 : List Nat := wl [(0, 0x80210500), (1, 3 * 2^20), (2, 0x2000), (4, 0x3000), (6, 4), (7, 0x1000)]
def jb (st : Nat) (d : Device) : Device := dsp d fun x => { x with jobs := [(3, { state := st, client := 1 })] }
def rg (st hd tl : Nat) (d : Device) : Device := dsp d fun x => { x with rings := [(5, { state := st, job := 3, head := hd, tail := tl, desc := rd5, waitTicks := 100 })] }
def k5 : Kernel := { ring := 5, cores := [5], entry := 0, fcBound := 3, ticks := 100000, lent := false, startRc := 0, startTick := 0 }

theorem witness_ModelsLoad :
    (∃ (s : State) (g : Nat) (core : Nat) (i : Issue) (w : List Nat),
      s.dev.sound ∧
      core < 256 ∧
      s.dev.offers i w [] core ∧
      hdOpcode w = 34 ∧
      i.work = Work.ring g ∧
      rdCores (s.dev.ring g).desc = [core]) ∧
    (∃ (s : State) (g : Nat) (core : Nat) (id : Nat),
      s.dev.sound ∧
      core < 256 ∧
      s.dev.disp.loads = [(g, id, [core])] ∧
      s.dev.pond.ecc = [] ∧
      s.dev.pond.link = [] ∧
      (((have __src := s.dev;             { regs := __src.regs, mem := __src.mem, chorus := __src.chorus, pond := __src.pond, xlate := __src.xlate,               disp :=                 have __src := s.dev.disp;                 { rings := __src.rings, jobs := __src.jobs, kernels := __src.kernels, slots := __src.slots, coreSlots := __src.coreSlots, sync := __src.sync, waits := __src.waits, cmds := __src.cmds, lastRing := __src.lastRing, resumed := __src.resumed, parked := __src.parked, claims := __src.claims : DispSt },               regul := __src.regul, err := __src.err, edgeWrites := __src.edgeWrites, reply := __src.reply, out := __src.out, fresh := __src.fresh, safety := __src.safety, pcie := __src.pcie, host := __src.host, latch := __src.latch, link := __src.link, att := __src.att, chunks := __src.chunks, coll := __src.coll, fusion := __src.fusion, collide := __src.collide, solve := __src.solve, ctrl := __src.ctrl, lsio := __src.lsio, oliner := __src.oliner, selfTest := __src.selfTest, bask := __src.bask, eft := __src.eft, probe := __src.probe, enet := __src.enet, regReqs := __src.regReqs : Device }).clr           (core / 64) (DISPATCH_CORE_LOADING (core % 64))).modelCopy       core (rdJob (s.dev.ring g).desc) (s.dev.mdSrc (g / 65536) (rdJob (s.dev.ring g).desc) (rdModelVa (s.dev.ring g).desc)) (columnBase (core / 64) (core % 64) + s.dev.mdColOff (g / 65536) (rdJob (s.dev.ring g).desc) (rdModelVa (s.dev.ring g).desc)) (s.dev.mdBytes (g / 65536) (rdJob (s.dev.ring g).desc) (rdModelVa (s.dev.ring g).desc))).2 =   (none, stDONE)) ∧
    (∃ (s : State) (g : Nat) (core : Nat) (id : Nat) (a : Nat),
      s.dev.sound ∧
      core < 256 ∧
      s.dev.disp.loads = [(g, id, [core])] ∧
      s.dev.pond.ecc = [] ∧
      s.dev.pond.link = [] ∧
      s.dev.mdBytes (g / 65536) (rdJob (s.dev.ring g).desc) (rdModelVa (s.dev.ring g).desc) = 65536 ∧
      (s.dev.translate (core / 64) (core % 64) (rdJob (s.dev.ring g).desc) (s.dev.mdSrc (g / 65536) (rdJob (s.dev.ring g).desc) (rdModelVa (s.dev.ring g).desc)) false).2 = XRes.pa a ∧
      s.dev.copyStatus core a (columnBase (core / 64) (core % 64) + s.dev.mdColOff (g / 65536) (rdJob (s.dev.ring g).desc) (rdModelVa (s.dev.ring g).desc)) 65536 = stDONE) :=
  ⟨⟨({ dev := dsp (jb 1 (rg 1 2 3 (tab ((e0.set 0 (DISPATCH_CORE_LOADING 5)).set 0 XLATE_CTL_EN)))) fun x => { x with kernels := [k5], loads := [(5, 258, [5])] } } : State), 5, 5, iRg, wMl,
      ⟨by decide +kernel, by decide +kernel⟩, by decide +kernel, offers_of (by decide +kernel), by decide +kernel⟩,
   ⟨({ dev := dsp (jb 1 (rg 1 2 3 (tab ((e0.set 0 (DISPATCH_CORE_LOADING 5)).set 0 XLATE_CTL_EN)))) fun x => { x with kernels := [k5], loads := [(5, 258, [5])] } } : State), 5, 5, 258,
      ⟨by decide +kernel, by decide +kernel⟩, by decide +kernel⟩,
   ⟨({ dev := dsp (jb 1 (rg 1 2 3 (tab ((e0.set 0 (DISPATCH_CORE_LOADING 5)).set 0 XLATE_CTL_EN)))) fun x => { x with kernels := [k5], loads := [(5, 258, [5])] } } : State), 5, 5, 258, 0x410000,
      ⟨by decide +kernel, by decide +kernel⟩, by decide +kernel⟩⟩

end G06d

/-! States for Jobs. -/

namespace G06e

def e0 : Device := {}
def wl (l : List (Nat × Nat)) : List Nat := l.foldl (fun m x => m.set x.1 x.2) (List.replicate 16 0)
def dsp (d : Device) (f : DispSt → DispSt) : Device := { d with disp := f d.disp }
def rd5 : List Nat := wl [(0, 0x80210500), (1, 3 * 2^20), (2, 0x2000), (4, 0x3000), (6, 4), (7, 0x1000)]
def jb (st : Nat) (d : Device) : Device := dsp d fun x => { x with jobs := [(3, { state := st, client := 1 })] }
def rg (st hd tl : Nat) (d : Device) : Device := dsp d fun x => { x with rings := [(5, { state := st, job := 3, head := hd, tail := tl, desc := rd5, waitTicks := 100 })] }

theorem witness_Jobs :
    (∃ (s : State) (job : Nat),
      s.dev.sound ∧
      (s.dev.job job).state = 3 ∧
      (∀ g ∈ s.dev.jobRings job, (s.dev.ring g).head = (s.dev.ring g).tail ∧ s.dev.kernelOf g = none ∧ s.dev.dmaFlight g = false)) ∧
    (∃ (s : State) (job : Nat),
      s.dev.sound ∧
      (s.dev.job job).state = 4 ∧
      s.dev.jobRings job = [] ∧
      s.dev.xlate.faults = []) :=
  ⟨⟨({ dev := jb 3 (rg 1 2 2 e0) } : State), 3,
      ⟨by decide +kernel, by decide +kernel⟩, by decide +kernel⟩,
   ⟨({ dev := jb 4 e0 } : State), 3,
      ⟨by decide +kernel, by decide +kernel⟩, by decide +kernel⟩⟩

end G06e

/-! States for HeldRequestsIssue, SyncRegisterAdds. -/

namespace G06f

def e0 : Device := {}
def rH : Req := { die := 1, master := 0x51, home := 0, addr := 64, len := 4, write := true, data := 7, fixed := false, cls := 20, coreWords := [], work := none, remote := [] }
def oh (n : Nat) (l : List Req) : Device := let d := (e0.wr 1 (REGULATE_CLASS_LIMIT_HOST_LIM_M1 4) 2).setOutstanding 1 0x51 4 n; { d with regul := { d.regul with held := l } }

theorem witness_HeldRequestsIssue :
    (∃ (s : State) (die : Nat) (port : Nat) (cl : Nat) (n : Nat),
      s.dev.sound ∧
      s.dev.outstanding die port cl = n + 1 ∧
      s.dev.regul.held = []) ∧
    (∃ (s : State) (die : Nat) (port : Nat) (cl : Nat) (n : Nat) (r : Req) (d0 : Nat) (c0 : Nat) (off : Nat),
      s.dev.sound ∧
      s.dev.outstanding die port cl = n + 1 ∧
      s.dev.regul.held = [r] ∧
      r.die = die ∧
      s.dev.portOf r = port ∧
      s.dev.label r = (false, cl) ∧
      r.remote = [] ∧
      r.work = none ∧
      s.dev.region r.addr = Region.pond d0 c0 off ∧
      admits (s.dev.portQueue d0 c0) false = true ∧
      n + 1 ≤ s.dev.classLimit die port cl) :=
  ⟨⟨({ dev := oh 1 [] } : State), 1, 0x51, 4, 0,
      ⟨by decide +kernel, by decide +kernel⟩, by decide +kernel⟩,
   ⟨({ dev := oh 1 [rH] } : State), 1, 0x51, 4, 0, rH, 0, 0, 64,
      ⟨by decide +kernel, by decide +kernel⟩, by decide +kernel⟩⟩

theorem witness_SyncRegisterAdds :
    ∃ (s : State) (die : Nat),
      s.dev.sound ∧
      s.dev.syncReserved (die * 16384 + s.dev.rd die SYNC_SEL_INDEX) = false :=
  ⟨({ dev := oh 1 [] } : State), 0,
      ⟨by decide +kernel, by decide +kernel⟩, by decide +kernel⟩

end G06f

/-! States for CameraFrames. -/

namespace G07a

def e0 : Device := {}
def poke (l : List (Nat × Nat)) (d : Device) : Device := { d with mem := SMap.insAll (l.map fun x => (x.1, (x.2 : Byte))) d.mem }
def f0 : Frame := { cfg := 0x2A * 2^14, chk := 0, rect := 0, num := 2, time := 5, lines := [[1, 2, 3, 4]] }
def fB : Frame := { f0 with bad := true }
def en (d : Device) : Device := (d.set 1 (INGEST_PORT_CFG_EN 2)).set 1 (INGEST_STREAM_CFG_EN 9)
def stm (f : Option Frame) (d : Device) : Device := (poke [(fusionBase 1 + 0x500000 + 9 * 0x20000 + 5, 9)] d).setStream 73 { ({} : Stream) with frame := f }

theorem witness_CameraFrames :
    (∃ (s : State) (die : Nat) (port : Nat) (vc : Nat) (ecc : Nat),
      s.dev.sound ∧
      die < 4 ∧
      port < 6 ∧
      vc < 4 ∧
      ecc < 2 ∧
      s.dev.on die (INGEST_PORT_CFG_EN port) = true ∧
      (s.dev.stream (die * 64 + (port * 4 + vc))).frame = none ∧
      s.dev.on die (INGEST_STREAM_CFG_EN (port * 4 + vc)) = true) ∧
    (∃ (s : State) (die : Nat) (port : Nat) (vc : Nat) (ecc : Nat) (f : Frame) (dt : Nat) (b : Nat) (payload : List Nat),
      s.dev.sound ∧
      die < 4 ∧
      port < 6 ∧
      vc < 4 ∧
      ecc < 2 ∧
      s.dev.on die (INGEST_PORT_CFG_EN port) = true ∧
      (s.dev.stream (die * 64 + (port * 4 + vc))).frame = some f ∧
      s.dev.pond.ecc = [] ∧
      pixelBytes dt = some b ∧
      bits f.cfg 14 6 = dt ∧
      bit f.rect 31 = false ∧
      0 < (List.flatMap (fun (v : ℕ) => toBytes v b) (unpackLine dt payload)).length ∧
      (List.flatMap (fun (v : ℕ) => toBytes v b) (unpackLine dt payload)).length ≤ 131072) ∧
    (∃ (s : State) (die : Nat) (port : Nat) (vc : Nat) (ecc : Nat) (f : Frame),
      s.dev.sound ∧
      die < 4 ∧
      port < 6 ∧
      vc < 4 ∧
      ecc < 2 ∧
      s.dev.on die (INGEST_PORT_CFG_EN port) = true ∧
      (s.dev.stream (die * 64 + (port * 4 + vc))).frame = some f ∧
      f.bad = true ∧
      s.dev.rd die (INGEST_STREAM_STATE_STATE (port * 4 + vc)) ≠ 2) ∧
    (∃ (s : State) (die : Nat) (port : Nat) (vc : Nat) (ecc : Nat) (f : Frame),
      s.dev.sound ∧
      die < 4 ∧
      port < 6 ∧
      vc < 4 ∧
      ecc < 2 ∧
      s.dev.on die (INGEST_PORT_CFG_EN port) = true ∧
      (s.dev.stream (die * 64 + (port * 4 + vc))).frame = some f ∧
      f.bad = false ∧
      (s.dev.stream (die * 64 + (port * 4 + vc))).cnt = none ∧
      (s.dev.stream (die * 64 + (port * 4 + vc))).last = none ∧
      bit f.chk 31 = false ∧
      f.time ≤ s.dev.chorus.time + 1000000 ∧
      f.out = [] ∧
      bits f.cfg 8 6 = 0 ∧
      s.dev.rd die (INGEST_STREAM_STATE_STATE (port * 4 + vc)) = 1) :=
  ⟨⟨({ dev := en e0 } : State), 1, 2, 1, 0,
      ⟨by decide +kernel, by decide +kernel⟩, by decide +kernel⟩,
   ⟨({ dev := stm (some f0) (en e0) } : State), 1, 2, 1, 0, f0, 0x2A, 1, [3, 0, 5, 9],
      ⟨by decide +kernel, by decide +kernel⟩, by decide +kernel⟩,
   ⟨({ dev := stm (some fB) (en e0) } : State), 1, 2, 1, 0, fB,
      ⟨by decide +kernel, by decide +kernel⟩, by decide +kernel⟩,
   ⟨({ dev := stm (some f0) ((en e0).wr 1 (INGEST_STREAM_STATE_STATE 9) 1) } : State), 1, 2, 1, 0, f0,
      ⟨by decide +kernel, by decide +kernel⟩, by decide +kernel⟩⟩

end G07a

/-! States for StreamsAndFusion. -/

namespace G07b

def e0 : Device := {}
def wl (l : List (Nat × Nat)) : List Nat := l.foldl (fun m x => m.set x.1 x.2) (List.replicate 16 0)
def poke (l : List (Nat × Nat)) (d : Device) : Device := { d with mem := SMap.insAll (l.map fun x => (x.1, (x.2 : Byte))) d.mem }
def wP : List Nat := wl [(0, 0x31000000), (1, 2^30 + 5 * 2^16 + 7), (2, 0x1000)]
def wQ : List Nat := wl [(0, 0x31000000), (1, 2^30 + 5 * 2^16 + 7), (2, 0x2000)]
def pt (b : Nat) (d : Device) : Device := poke ([(0x1002, 0x80), (0x1003, 0x3F), (0x1006, 0x80), (0x1007, 0xBF), (0x100A, 0x80), (0x100B, 0x3F), (0x2003, 0xFF), (0x2002, 0x80), (320 + 2, 0x80), (323, 0x3F), (320 + 18, 0x80), (339, 0x3F), (320 + 34, 0x80), (355, 0x3F)].map fun x => (b + x.1, x.2)) d
def dG (d : Device) : Device := (pt (fusionBase 0) (pt (fusionBase 1) d))

theorem witness_StreamsAndFusion :
    (∃ (s : State) (die : Nat) (n : Nat),
      s.dev.sound ∧
      die < 4 ∧
      n < 4 ∧
      (∀ k < 16, s.dev.rd 0 (LSIO_SPI_SLOT_TRIG (n * 16 + k)) ≠ 1)) ∧
    (∃ (s : State) (die : Nat) (n : Nat),
      s.dev.sound ∧
      die < 4 ∧
      n < 64 ∧
      (s.dev.rd die (INGEST_STREAM_STATE_STATE n) = 1 ∨ s.dev.rd die (INGEST_STREAM_STATE_STATE n) = 2) ∧
      s.dev.rd die (INGEST_STREAM_CHK_STALE_TICKS n) ≤ (s.dev.stream (die * 64 + n)).ticks) ∧
    (∃ (s : State) (die : Nat) (n : Nat) (value : Nat),
      s.dev.sound ∧
      die < 4 ∧
      n < 24 ∧
      value / 2 ^ 28 % 2 ^ 3 ≠ 0) ∧
    (∃ (s : State) (die : Nat) (n : Nat) (value : Nat),
      s.dev.sound ∧
      die < 4 ∧
      n < 24 ∧
      value / 2 ^ 28 % 2 ^ 3 = 0 ∧
      value / 2 ^ 25 % 2 ^ 3 ≠ 7 ∧
      s.dev.on die (INGEST_STREAM_CFG_EN n) = false) ∧
    (∃ (s : State) (die : Nat) (w : List Nat),
      s.dev.sound ∧
      die < 4 ∧
      projectOk w = true ∧
      wd w 1 / 2 ^ 30 % 4 = 1 ∧
      wd w 3 = 0 ∧
      s.dev.pond.ecc = [] ∧
      ((toBase (s.dev.calibration die (wd w 1 / 2 ^ 16 % 256)) (s.dev.words (fusionBase die + wd w 2) 4)).all fin32 = false ∨ s.dev.cellOf (ratOf (wd (toBase (s.dev.calibration die (wd w 1 / 2 ^ 16 % 256)) (s.dev.words (fusionBase die + wd w 2) 4)) 0), ratOf (wd (toBase (s.dev.calibration die (wd w 1 / 2 ^ 16 % 256)) (s.dev.words (fusionBase die + wd w 2) 4)) 1), ratOf (wd (toBase (s.dev.calibration die (wd w 1 / 2 ^ 16 % 256)) (s.dev.words (fusionBase die + wd w 2) 4)) 2)) = none)) ∧
    (∃ (s : State) (die : Nat) (w : List Nat) (c : Nat),
      s.dev.sound ∧
      die < 4 ∧
      projectOk w = true ∧
      wd w 1 / 2 ^ 30 % 4 = 1 ∧
      wd w 3 = 0 ∧
      s.dev.pond.ecc = [] ∧
      (toBase (s.dev.calibration 0 (wd w 1 / 2 ^ 16 % 256)) (s.dev.words (fusionBase 0 + wd w 2) 4)).all fin32 = true ∧
      s.dev.cellOf (ratOf (wd (toBase (s.dev.calibration 0 (wd w 1 / 2 ^ 16 % 256)) (s.dev.words (fusionBase 0 + wd w 2) 4)) 0), ratOf (wd (toBase (s.dev.calibration 0 (wd w 1 / 2 ^ 16 % 256)) (s.dev.words (fusionBase 0 + wd w 2) 4)) 1), ratOf (wd (toBase (s.dev.calibration 0 (wd w 1 / 2 ^ 16 % 256)) (s.dev.words (fusionBase 0 + wd w 2) 4)) 2)) = some c) :=
  ⟨⟨({ dev := e0 } : State), 0, 0,
      ⟨by decide +kernel, by decide +kernel⟩, by decide +kernel⟩,
   ⟨({ dev := (e0.wr 1 (INGEST_STREAM_STATE_STATE 1) 2).setStream 65 { ({} : Stream) with ticks := 300 } } : State), 1, 1,
      ⟨by decide +kernel, by decide +kernel⟩, by decide +kernel⟩,
   ⟨({ dev := e0 } : State), 0, 0, 2^28,
      ⟨by decide +kernel, by decide +kernel⟩, by decide +kernel⟩,
   ⟨({ dev := e0 } : State), 0, 0, 0,
      ⟨by decide +kernel, by decide +kernel⟩, by decide +kernel⟩,
   ⟨({ dev := dG e0 } : State), 0, wQ,
      ⟨by decide +kernel, by decide +kernel⟩, by decide +kernel⟩,
   ⟨({ dev := e0 } : State), 0, wP, 0,
      ⟨by decide +kernel, by decide +kernel⟩, by decide +kernel⟩⟩

end G07b

/-! States for ChecksOfMotion, WorldUpdates. -/

namespace G08a

def e0 : Device := {}
def wl (l : List (Nat × Nat)) : List Nat := l.foldl (fun m x => m.set x.1 x.2) (List.replicate 16 0)
def poke (l : List (Nat × Nat)) (d : Device) : Device := { d with mem := SMap.insAll ((l.filter fun x => x.2 ≠ 0).map fun x => (x.1, (x.2 : Byte))) d.mem }
def wU : List Nat := wl [(0, 0x40000000), (2, 0x200)]
def wV : List Nat := wl [(0, 0x40000000), (2, 0x240)]
def wC : List Nat := wl [(0, 0x41000000), (2, 0x280)]
def sg (res : Nat) : Segment := { seq := 4, tag := 2, commit := true, first := 0, wps := 2, joints := 7, tStart := 0, dt := 5, obs := 9, pos := List.replicate 32 0, result := res }
def base (d : Device) : Device := (((((((d.schedStore 1 (0x100000 + 32 * 3 + 12) 0x10).schedStore 1 (0x100000 + 32 * 4 + 12) 0xFF).schedStore 1 (0x100000 + 32 * 5 + 12) 2).wr 1 (REFLEX_COLL_REGION_LO_ADDR 1) 0x4B00).wr 1 (REFLEX_COLL_REGION_LO_ADDR 0) 0x4800).wr 1 (REFLEX_COLL_REGION_LO_ADDR 2) 0x4C00).wr 1 (REFLEX_COLL_REGION_LO_ADDR 3) 0x4D00).wr 1 (REFLEX_COLL_REGION_LO_ADDR 6) 0x10
def ent (d : Device) : Device := poke ([(0x200, 1), (0x204, 1), (0x21E, 0xA0), (0x21F, 0x40), (0x240, 0), (0x244, 2), (0x280, 5), (0x285, 9), (0x100001, 0x14), (0x140000 + 64, 1), (0x140000 + 65, 3), (0x140000 + 80, 9)].map fun x => (reflexBase 1 + x.1, x.2)) (poke [(0x4D000050, 1), (0x4D000053, 2), (0x4D000054, 9), (0x4D000090, 2), (0x4D000094, 5), (0x4C00008B, 0x3F)] d)
def few (d : Device) : Device := poke ([(0x200, 1), (0x204, 1), (0x21E, 0x20), (0x21F, 0x40)].map (fun x => (reflexBase 1 + x.1, x.2)) ++ [(0x4800000E, 0x80), (0x4800000F, 0x3F)]) d
def w0 (r : List (Nat × Nat × Nat)) (e : Option (List Nat)) : WorldPrep := { slice := 3, records := r, tracks := [(5, 6)], edges := e }
def pr (p : WorldPrep) (d : Device) : Device := { d with collide := { d.collide with prep := [(1, some p)] } }
def ck : CheckRun := { slice := 4, checkers := [32, 33], busy := [(32, ⟨false, 5, 0⟩)], queue := [], epoch := 0 }
def ec (d : Device) : Device := (d.wr 1 REFLEX_COLL_ROADMAP_EDGES_COUNT_M1 100).wr 1 REFLEX_COLL_GEOM_HASH_CELL_CM 200
def w_0 : WorldPrep := w0 [] (some [5, 9])

theorem witness_ChecksOfMotion :
    (∃ (s : State) (die : Nat) (idx : Nat) (c : Nat) (w : List Nat) (cs : List Nat),
      s.dev.sound ∧
      s.dev.probe = { : DebugSt } ∧
      s.dev.pond.ecc = [] ∧
      die < 4 ∧
      checkersOf (s.dev.sliceUnit die idx) = c :: cs ∧
      s.dev.sliceBusy die idx = false ∧
      wd w 1 % 2 ^ 16 = 0 ∧
      s.dev.accessStatus die mReflex (reflexBase die + wd w 2 % 2 ^ 24) 4 false = stDONE ∧
      s.dev.readData (reflexBase die + wd w 2 % 2 ^ 24) 4 < s.dev.edgeCount die) ∧
    (∃ (s : State) (die : Nat) (idx : Nat) (c : Nat) (cs : List Nat) (x : Segment),
      s.dev.sound ∧
      s.dev.probe = { : DebugSt } ∧
      s.dev.pond.ecc = [] ∧
      die < 4 ∧
      checkersOf (s.dev.sliceUnit die idx) = c :: cs ∧
      s.dev.sliceBusy die idx = false ∧
      s.dev.segs die = [x] ∧
      x.result = 0 ∧
      x.wps = 2) ∧
    (∃ (s : State) (die : Nat) (x : CheckRun) (c : Nat) (e : Nat),
      s.dev.sound ∧
      s.dev.probe = { : DebugSt } ∧
      s.dev.pond.ecc = [] ∧
      die < 4 ∧
      s.dev.checkWith die c = some x ∧
      s.dev.checkOf die x.slice = some x ∧
      x.busy = [(c, { seg := false, edge := e, k := 0 : CheckItem })] ∧
      x.queue = [] ∧
      e < 2 ^ 20 ∧
      s.dev.regionSix die + 262144 ≤ reflexBase die + 16777216 ∧
      (s.dev.rxTouch die (s.dev.edgeReads die e)).2 = stDONE) :=
  ⟨⟨({ dev := ec (ent (base e0)) } : State), 1, 5, 32, wC, (List.range 15).map (33 + ·),
      ⟨by decide +kernel, by decide +kernel⟩, by decide +kernel⟩,
   ⟨({ dev := { ec (ent (base e0)) with coll := { segs := [(1, [sg 0])] } } } : State), 1, 5, 32, (List.range 15).map (33 + ·), sg 0,
      ⟨by decide +kernel, by decide +kernel⟩, by decide +kernel⟩,
   ⟨({ dev := { ec (ent (base e0)) with collide := { (ec (ent (base e0))).collide with checks := [(17, some ck)] } } } : State), 1, ck, 32, 5,
      ⟨by decide +kernel, by decide +kernel⟩, by decide +kernel⟩⟩

theorem witness_WorldUpdates_1 :
    ∃ (s : State) (die : Nat) (idx : Nat) (w : List Nat),
      s.dev.sound ∧
      s.dev.probe = { : DebugSt } ∧
      s.dev.pond.ecc = [] ∧
      die < 4 ∧
      hasPlanner (s.dev.sliceUnit die idx) = true ∧
      s.dev.sliceBusy die idx = false ∧
      wd w 1 % 2 ^ 10 = 0 ∧
      bit (wd w 1) 31 = false ∧
      (s.dev.rxTouch die [(reflexBase die + wd w 2 % 2 ^ 24, 64)]).2 = stDONE ∧
      ((s.dev.rxTouch die [(reflexBase die + wd w 2 % 2 ^ 24, 64)]).1.updateEntry (reflexBase die + wd w 2 % 2 ^ 24)).1 ≤ 1 ∧
      ((s.dev.rxTouch die [(reflexBase die + wd w 2 % 2 ^ 24, 64)]).1.updateEntry (reflexBase die + wd w 2 % 2 ^ 24)).2.1 ≤ 3 ∧
      ((s.dev.rxTouch die [(reflexBase die + wd w 2 % 2 ^ 24, 64)]).1.updateEntry (reflexBase die + wd w 2 % 2 ^ 24)).2.2.1 < worldCount ((s.dev.rxTouch die [(reflexBase die + wd w 2 % 2 ^ 24, 64)]).1.updateEntry (reflexBase die + wd w 2 % 2 ^ 24)).2.1 ∧
      (die ≠ 0 ∨ s.dev.on 0 REFLEX_COLL_CTL_TRACK_EN = false ∨ ((s.dev.rxTouch die [(reflexBase die + wd w 2 % 2 ^ 24, 64)]).1.updateEntry (reflexBase die + wd w 2 % 2 ^ 24)).2.1 ≠ 0 ∨ ((s.dev.rxTouch die [(reflexBase die + wd w 2 % 2 ^ 24, 64)]).1.updateEntry (reflexBase die + wd w 2 % 2 ^ 24)).2.2.1 < 12288) ∧
      ((s.dev.rxTouch die [(reflexBase die + wd w 2 % 2 ^ 24, 64)]).1.rxTouch die ((s.dev.rxTouch die [(reflexBase die + wd w 2 % 2 ^ 24, 64)]).1.hashReads die [(((s.dev.rxTouch die [(reflexBase die + wd w 2 % 2 ^ 24, 64)]).1.updateEntry (reflexBase die + wd w 2 % 2 ^ 24)).2.1, ((s.dev.rxTouch die [(reflexBase die + wd w 2 % 2 ^ 24, 64)]).1.updateEntry (reflexBase die + wd w 2 % 2 ^ 24)).2.2.1, if ((s.dev.rxTouch die [(reflexBase die + wd w 2 % 2 ^ 24, 64)]).1.updateEntry (reflexBase die + wd w 2 % 2 ^ 24)).1 = 0 then 0 else ((s.dev.rxTouch die [(reflexBase die + wd w 2 % 2 ^ 24, 64)]).1.updateEntry (reflexBase die + wd w 2 % 2 ^ 24)).2.2.2)])).2 = stDONE ∧
      (((s.dev.rxTouch die [(reflexBase die + wd w 2 % 2 ^ 24, 64)]).1.rxTouch die ((s.dev.rxTouch die [(reflexBase die + wd w 2 % 2 ^ 24, 64)]).1.hashReads die [(((s.dev.rxTouch die [(reflexBase die + wd w 2 % 2 ^ 24, 64)]).1.updateEntry (reflexBase die + wd w 2 % 2 ^ 24)).2.1, ((s.dev.rxTouch die [(reflexBase die + wd w 2 % 2 ^ 24, 64)]).1.updateEntry (reflexBase die + wd w 2 % 2 ^ 24)).2.2.1, if ((s.dev.rxTouch die [(reflexBase die + wd w 2 % 2 ^ 24, 64)]).1.updateEntry (reflexBase die + wd w 2 % 2 ^ 24)).1 = 0 then 0 else ((s.dev.rxTouch die [(reflexBase die + wd w 2 % 2 ^ 24, 64)]).1.updateEntry (reflexBase die + wd w 2 % 2 ^ 24)).2.2.2)])).1.worldWrites die [(((s.dev.rxTouch die [(reflexBase die + wd w 2 % 2 ^ 24, 64)]).1.updateEntry (reflexBase die + wd w 2 % 2 ^ 24)).2.1, ((s.dev.rxTouch die [(reflexBase die + wd w 2 % 2 ^ 24, 64)]).1.updateEntry (reflexBase die + wd w 2 % 2 ^ 24)).2.2.1, if ((s.dev.rxTouch die [(reflexBase die + wd w 2 % 2 ^ 24, 64)]).1.updateEntry (reflexBase die + wd w 2 % 2 ^ 24)).1 = 0 then 0 else ((s.dev.rxTouch die [(reflexBase die + wd w 2 % 2 ^ 24, 64)]).1.updateEntry (reflexBase die + wd w 2 % 2 ^ 24)).2.2.2)]).2 = true ∧
      (((s.dev.rxTouch die [(reflexBase die + wd w 2 % 2 ^ 24, 64)]).1.rxTouch die ((s.dev.rxTouch die [(reflexBase die + wd w 2 % 2 ^ 24, 64)]).1.hashReads die [(((s.dev.rxTouch die [(reflexBase die + wd w 2 % 2 ^ 24, 64)]).1.updateEntry (reflexBase die + wd w 2 % 2 ^ 24)).2.1, ((s.dev.rxTouch die [(reflexBase die + wd w 2 % 2 ^ 24, 64)]).1.updateEntry (reflexBase die + wd w 2 % 2 ^ 24)).2.2.1, if ((s.dev.rxTouch die [(reflexBase die + wd w 2 % 2 ^ 24, 64)]).1.updateEntry (reflexBase die + wd w 2 % 2 ^ 24)).1 = 0 then 0 else ((s.dev.rxTouch die [(reflexBase die + wd w 2 % 2 ^ 24, 64)]).1.updateEntry (reflexBase die + wd w 2 % 2 ^ 24)).2.2.2)])).1.rxTouch die (((s.dev.rxTouch die [(reflexBase die + wd w 2 % 2 ^ 24, 64)]).1.rxTouch die ((s.dev.rxTouch die [(reflexBase die + wd w 2 % 2 ^ 24, 64)]).1.hashReads die [(((s.dev.rxTouch die [(reflexBase die + wd w 2 % 2 ^ 24, 64)]).1.updateEntry (reflexBase die + wd w 2 % 2 ^ 24)).2.1, ((s.dev.rxTouch die [(reflexBase die + wd w 2 % 2 ^ 24, 64)]).1.updateEntry (reflexBase die + wd w 2 % 2 ^ 24)).2.2.1, if ((s.dev.rxTouch die [(reflexBase die + wd w 2 % 2 ^ 24, 64)]).1.updateEntry (reflexBase die + wd w 2 % 2 ^ 24)).1 = 0 then 0 else ((s.dev.rxTouch die [(reflexBase die + wd w 2 % 2 ^ 24, 64)]).1.updateEntry (reflexBase die + wd w 2 % 2 ^ 24)).2.2.2)])).1.gridReads die (((s.dev.rxTouch die [(reflexBase die + wd w 2 % 2 ^ 24, 64)]).1.rxTouch die ((s.dev.rxTouch die [(reflexBase die + wd w 2 % 2 ^ 24, 64)]).1.hashReads die [(((s.dev.rxTouch die [(reflexBase die + wd w 2 % 2 ^ 24, 64)]).1.updateEntry (reflexBase die + wd w 2 % 2 ^ 24)).2.1, ((s.dev.rxTouch die [(reflexBase die + wd w 2 % 2 ^ 24, 64)]).1.updateEntry (reflexBase die + wd w 2 % 2 ^ 24)).2.2.1, if ((s.dev.rxTouch die [(reflexBase die + wd w 2 % 2 ^ 24, 64)]).1.updateEntry (reflexBase die + wd w 2 % 2 ^ 24)).1 = 0 then 0 else ((s.dev.rxTouch die [(reflexBase die + wd w 2 % 2 ^ 24, 64)]).1.updateEntry (reflexBase die + wd w 2 % 2 ^ 24)).2.2.2)])).1.changedCells (((s.dev.rxTouch die [(reflexBase die + wd w 2 % 2 ^ 24, 64)]).1.rxTouch die ((s.dev.rxTouch die [(reflexBase die + wd w 2 % 2 ^ 24, 64)]).1.hashReads die [(((s.dev.rxTouch die [(reflexBase die + wd w 2 % 2 ^ 24, 64)]).1.updateEntry (reflexBase die + wd w 2 % 2 ^ 24)).2.1, ((s.dev.rxTouch die [(reflexBase die + wd w 2 % 2 ^ 24, 64)]).1.updateEntry (reflexBase die + wd w 2 % 2 ^ 24)).2.2.1, if ((s.dev.rxTouch die [(reflexBase die + wd w 2 % 2 ^ 24, 64)]).1.updateEntry (reflexBase die + wd w 2 % 2 ^ 24)).1 = 0 then 0 else ((s.dev.rxTouch die [(reflexBase die + wd w 2 % 2 ^ 24, 64)]).1.updateEntry (reflexBase die + wd w 2 % 2 ^ 24)).2.2.2)])).1.worldWrites die [(((s.dev.rxTouch die [(reflexBase die + wd w 2 % 2 ^ 24, 64)]).1.updateEntry (reflexBase die + wd w 2 % 2 ^ 24)).2.1, ((s.dev.rxTouch die [(reflexBase die + wd w 2 % 2 ^ 24, 64)]).1.updateEntry (reflexBase die + wd w 2 % 2 ^ 24)).2.2.1, if ((s.dev.rxTouch die [(reflexBase die + wd w 2 % 2 ^ 24, 64)]).1.updateEntry (reflexBase die + wd w 2 % 2 ^ 24)).1 = 0 then 0 else ((s.dev.rxTouch die [(reflexBase die + wd w 2 % 2 ^ 24, 64)]).1.updateEntry (reflexBase die + wd w 2 % 2 ^ 24)).2.2.2)]).1 die [(((s.dev.rxTouch die [(reflexBase die + wd w 2 % 2 ^ 24, 64)]).1.updateEntry (reflexBase die + wd w 2 % 2 ^ 24)).2.1, ((s.dev.rxTouch die [(reflexBase die + wd w 2 % 2 ^ 24, 64)]).1.updateEntry (reflexBase die + wd w 2 % 2 ^ 24)).2.2.1, if ((s.dev.rxTouch die [(reflexBase die + wd w 2 % 2 ^ 24, 64)]).1.updateEntry (reflexBase die + wd w 2 % 2 ^ 24)).1 = 0 then 0 else ((s.dev.rxTouch die [(reflexBase die + wd w 2 % 2 ^ 24, 64)]).1.updateEntry (reflexBase die + wd w 2 % 2 ^ 24)).2.2.2)]))).2 = stDONE :=
  ⟨({ dev := ec (ent (base e0)) } : State), 1, 3, wV,
      ⟨by decide +kernel, by decide +kernel⟩, by decide +kernel⟩

theorem witness_WorldUpdates_2 :
    ∃ (s : State) (die : Nat) (idx : Nat) (w : List Nat),
      s.dev.sound ∧
      s.dev.probe = { : DebugSt } ∧
      s.dev.pond.ecc = [] ∧
      die < 4 ∧
      hasPlanner (s.dev.sliceUnit die idx) = true ∧
      s.dev.sliceBusy die idx = false ∧
      wd w 1 % 2 ^ 10 = 0 ∧
      bit (wd w 1) 31 = false ∧
      (s.dev.rxTouch die [(reflexBase die + wd w 2 % 2 ^ 24, 64)]).2 = stDONE ∧
      ((s.dev.rxTouch die [(reflexBase die + wd w 2 % 2 ^ 24, 64)]).1.updateEntry (reflexBase die + wd w 2 % 2 ^ 24)).1 ≤ 1 ∧
      ((s.dev.rxTouch die [(reflexBase die + wd w 2 % 2 ^ 24, 64)]).1.updateEntry (reflexBase die + wd w 2 % 2 ^ 24)).2.1 ≤ 3 ∧
      ((s.dev.rxTouch die [(reflexBase die + wd w 2 % 2 ^ 24, 64)]).1.updateEntry (reflexBase die + wd w 2 % 2 ^ 24)).2.2.1 < worldCount ((s.dev.rxTouch die [(reflexBase die + wd w 2 % 2 ^ 24, 64)]).1.updateEntry (reflexBase die + wd w 2 % 2 ^ 24)).2.1 ∧
      (die ≠ 0 ∨ s.dev.on 0 REFLEX_COLL_CTL_TRACK_EN = false ∨ ((s.dev.rxTouch die [(reflexBase die + wd w 2 % 2 ^ 24, 64)]).1.updateEntry (reflexBase die + wd w 2 % 2 ^ 24)).2.1 ≠ 0 ∨ ((s.dev.rxTouch die [(reflexBase die + wd w 2 % 2 ^ 24, 64)]).1.updateEntry (reflexBase die + wd w 2 % 2 ^ 24)).2.2.1 < 12288) ∧
      ((s.dev.rxTouch die [(reflexBase die + wd w 2 % 2 ^ 24, 64)]).1.rxTouch die ((s.dev.rxTouch die [(reflexBase die + wd w 2 % 2 ^ 24, 64)]).1.hashReads die [(((s.dev.rxTouch die [(reflexBase die + wd w 2 % 2 ^ 24, 64)]).1.updateEntry (reflexBase die + wd w 2 % 2 ^ 24)).2.1, ((s.dev.rxTouch die [(reflexBase die + wd w 2 % 2 ^ 24, 64)]).1.updateEntry (reflexBase die + wd w 2 % 2 ^ 24)).2.2.1, if ((s.dev.rxTouch die [(reflexBase die + wd w 2 % 2 ^ 24, 64)]).1.updateEntry (reflexBase die + wd w 2 % 2 ^ 24)).1 = 0 then 0 else ((s.dev.rxTouch die [(reflexBase die + wd w 2 % 2 ^ 24, 64)]).1.updateEntry (reflexBase die + wd w 2 % 2 ^ 24)).2.2.2)])).2 = stDONE ∧
      (((s.dev.rxTouch die [(reflexBase die + wd w 2 % 2 ^ 24, 64)]).1.rxTouch die ((s.dev.rxTouch die [(reflexBase die + wd w 2 % 2 ^ 24, 64)]).1.hashReads die [(((s.dev.rxTouch die [(reflexBase die + wd w 2 % 2 ^ 24, 64)]).1.updateEntry (reflexBase die + wd w 2 % 2 ^ 24)).2.1, ((s.dev.rxTouch die [(reflexBase die + wd w 2 % 2 ^ 24, 64)]).1.updateEntry (reflexBase die + wd w 2 % 2 ^ 24)).2.2.1, if ((s.dev.rxTouch die [(reflexBase die + wd w 2 % 2 ^ 24, 64)]).1.updateEntry (reflexBase die + wd w 2 % 2 ^ 24)).1 = 0 then 0 else ((s.dev.rxTouch die [(reflexBase die + wd w 2 % 2 ^ 24, 64)]).1.updateEntry (reflexBase die + wd w 2 % 2 ^ 24)).2.2.2)])).1.worldWrites die [(((s.dev.rxTouch die [(reflexBase die + wd w 2 % 2 ^ 24, 64)]).1.updateEntry (reflexBase die + wd w 2 % 2 ^ 24)).2.1, ((s.dev.rxTouch die [(reflexBase die + wd w 2 % 2 ^ 24, 64)]).1.updateEntry (reflexBase die + wd w 2 % 2 ^ 24)).2.2.1, if ((s.dev.rxTouch die [(reflexBase die + wd w 2 % 2 ^ 24, 64)]).1.updateEntry (reflexBase die + wd w 2 % 2 ^ 24)).1 = 0 then 0 else ((s.dev.rxTouch die [(reflexBase die + wd w 2 % 2 ^ 24, 64)]).1.updateEntry (reflexBase die + wd w 2 % 2 ^ 24)).2.2.2)]).2 = false :=
  ⟨({ dev := (ec (few (base e0))).wr 1 REFLEX_COLL_GEOM_HASH_CELL_CM 250 } : State), 1, 3, wU,
      ⟨by decide +kernel, by decide +kernel⟩, by decide +kernel⟩

theorem witness_WorldUpdates_3 :
    ∃ (s : State) (die : Nat) (p : WorldPrep),
      s.dev.sound ∧
      s.dev.probe = { : DebugSt } ∧
      s.dev.pond.ecc = [] ∧
      die < 4 ∧
      SMap.get none s.dev.collide.prep die = some p :=
  ⟨({ dev := pr w_0 (ec (ent (base e0))) } : State), 1, w_0,
      ⟨by decide +kernel, by decide +kernel⟩, by decide +kernel⟩

end G08a

/-! States for PlansPublished. -/

namespace G08b

def e0 : Device := {}
def wl (l : List (Nat × Nat)) : List Nat := l.foldl (fun m x => m.set x.1 x.2) (List.replicate 16 0)
def poke (l : List (Nat × Nat)) (d : Device) : Device := { d with mem := SMap.insAll ((l.filter fun x => x.2 ≠ 0).map fun x => (x.1, (x.2 : Byte))) d.mem }
def sg (res : Nat) : Segment := { seq := 4, tag := 2, commit := true, first := 0, wps := 2, joints := 7, tStart := 0, dt := 5, obs := 9, pos := List.replicate 32 0, result := res }
def base (d : Device) : Device := (((((((d.schedStore 1 (0x100000 + 32 * 3 + 12) 0x10).schedStore 1 (0x100000 + 32 * 4 + 12) 0xFF).schedStore 1 (0x100000 + 32 * 5 + 12) 2).wr 1 (REFLEX_COLL_REGION_LO_ADDR 1) 0x4B00).wr 1 (REFLEX_COLL_REGION_LO_ADDR 0) 0x4800).wr 1 (REFLEX_COLL_REGION_LO_ADDR 2) 0x4C00).wr 1 (REFLEX_COLL_REGION_LO_ADDR 3) 0x4D00).wr 1 (REFLEX_COLL_REGION_LO_ADDR 6) 0x10
def bytesAt (a : Nat) (v n : Nat) : List (Nat × Nat) := (List.range n).map fun i => (a + i, v / 256 ^ i % 256)
def R2 := 0x4C000000
def R3 := 0x4D000000
def graph (st : Nat) : List (Nat × Nat) :=
  (bytesAt (R2 + 64) 0 4 ++ bytesAt (R2 + 68) 1 2 ++ bytesAt (R2 + 128) 0x3F800000 4 ++ bytesAt (R2 + 128 + 64) 1 4 ++ bytesAt (R2 + 128 + 68) 2 2 ++
   bytesAt (R2 + 256) 0x40000000 4 ++ bytesAt (R2 + 256 + 64) 3 4 ++ bytesAt (R2 + 256 + 68) 1 2 ++
   bytesAt R3 1 4 ++ bytesAt (R3 + 4) 1 4 ++ bytesAt (R3 + 8) 0x3F800000 4 ++
   bytesAt (R3 + 16) 0 4 ++ bytesAt (R3 + 20) 0 4 ++ bytesAt (R3 + 24) 0x3F800000 4 ++
   bytesAt (R3 + 32) 2 4 ++ bytesAt (R3 + 36) 3 4 ++ bytesAt (R3 + 40) 0x3F800000 4 ++
   bytesAt (R3 + 48) 1 4 ++ bytesAt (R3 + 52) 2 4 ++ bytesAt (R3 + 56) 0x3F800000 4 ++ [(reflexBase 1 + 0x100000, st)])
def gb (st : Nat) : Device := poke (graph st) (((base e0).wr 1 REFLEX_COLL_ROADMAP_NODES_COUNT_M1 2).wr 1 (REFLEX_COLL_REGION_LO_ADDR 7) 0x4E00)
def wP (slot a b l : Nat) : List Nat := wl [(0, 0x42000000), (1, slot), (2, a), (3, b), (4, l)]
def cand (k st stamp tag fl : Nat) : List (Nat × Nat) := bytesAt (reflexBase 1 + 0x140000 + 64 + 320 * (k + 1)) (stamp + 2^32 * st + 2^40 * tag + 2^48 * fl) 8
def sg2 : Segment := { sg 1 with seq := 3, taken := true }

theorem witness_PlansPublished :
    (∃ (s : State) (die : Nat) (idx : Nat) (w : List Nat),
      s.dev.sound ∧
      s.dev.probe = { : DebugSt } ∧
      s.dev.pond.ecc = [] ∧
      die < 4 ∧
      hasPlanner (s.dev.sliceUnit die idx) = true ∧
      s.dev.sliceBusy die idx = false ∧
      s.dev.regionSix die + 278528 ≤ reflexBase die + 16777216 ∧
      wd w 2 % 2 ^ 18 < s.dev.nodeCount die ∧
      wd w 3 % 2 ^ 18 < s.dev.nodeCount die ∧
      (s.dev.rxTouch die [(s.dev.nodeAddr die (wd w 2 % 2 ^ 18), 128), (s.dev.nodeAddr die (wd w 3 % 2 ^ 18), 128), (s.dev.planSlotAddr die (wd w 1 % 8), 1664)]).2 = stDONE) ∧
    (∃ (s : State) (die : Nat) (idx : Nat) (x : Segment),
      s.dev.sound ∧
      s.dev.probe = { : DebugSt } ∧
      s.dev.pond.ecc = [] ∧
      die < 4 ∧
      hasPlanner (s.dev.sliceUnit die idx) = true ∧
      s.dev.sliceBusy die idx = false ∧
      s.dev.regionSix die + 278528 ≤ reflexBase die + 16777216 ∧
      List.find? (fun (y : Segment) => decide (y.result ≠ 0) && !y.taken) (s.dev.segs die) = some x) ∧
    (∃ (s : State) (die : Nat) (idx : Nat) (w : List Nat) (k : Nat) (l : List Nat),
      s.dev.sound ∧
      s.dev.probe = { : DebugSt } ∧
      s.dev.pond.ecc = [] ∧
      die < 4 ∧
      hasPlanner (s.dev.sliceUnit die idx) = true ∧
      s.dev.sliceBusy die idx = false ∧
      s.dev.regionSix die + 278528 ≤ reflexBase die + 16777216 ∧
      s.dev.ranked die (wd w 1 % 8) = k :: l ∧
      s.dev.plStamp die (wd w 1 % 8) k = s.dev.rd die REFLEX_COLL_EPOCH_EPOCH ∧
      s.dev.plCommit die (wd w 1 % 8) k = false) ∧
    (∃ (s : State) (die : Nat) (idx : Nat) (w : List Nat),
      s.dev.sound ∧
      s.dev.probe = { : DebugSt } ∧
      s.dev.pond.ecc = [] ∧
      die < 4 ∧
      hasPlanner (s.dev.sliceUnit die idx) = true ∧
      s.dev.sliceBusy die idx = false ∧
      s.dev.regionSix die + 278528 ≤ reflexBase die + 16777216 ∧
      (∀ k ∈ s.dev.ranked die (wd w 1 % 8), s.dev.plStamp die (wd w 1 % 8) k ≠ s.dev.rd die REFLEX_COLL_EPOCH_EPOCH) ∧
      s.dev.rd die (REFLEX_COLL_PLAN_STATUS_LAST_STATUS (wd w 1 % 8)) ≠ stNO_PATH ∧
      s.dev.plState die (wd w 1 % 8) 4 = 0) :=
  ⟨⟨({ dev := gb 0x55 } : State), 1, 3, wP 0 0 2 100,
      ⟨by decide +kernel, by decide +kernel⟩, by decide +kernel⟩,
   ⟨({ dev := { gb 1 with coll := { segs := [(1, [sg2, sg 1])] } } } : State), 1, 3, sg 1,
      ⟨by decide +kernel, by decide +kernel⟩, by decide +kernel⟩,
   ⟨({ dev := poke (cand 1 2 7 1 0) ((gb 1).wr 1 REFLEX_COLL_EPOCH_EPOCH 7) } : State), 1, 3, wP 0 0 0 0, 1, [],
      ⟨by decide +kernel, by decide +kernel⟩, by decide +kernel⟩,
   ⟨({ dev := poke (cand 1 2 7 1 0 ++ cand 3 2 6 1 0) ((gb 1).wr 1 REFLEX_COLL_EPOCH_EPOCH 8) } : State), 1, 3, wP 0 0 0 0,
      ⟨by decide +kernel, by decide +kernel⟩, by decide +kernel⟩⟩

end G08b

/-! States for SolvesAndRefreshes. -/

namespace G08c

def e0 : Device := {}
def wl (l : List (Nat × Nat)) : List Nat := l.foldl (fun m x => m.set x.1 x.2) (List.replicate 16 0)
def poke (l : List (Nat × Nat)) (d : Device) : Device := { d with mem := SMap.insAll ((l.filter fun x => x.2 ≠ 0).map fun x => (x.1, (x.2 : Byte))) d.mem }
def bytesAt (a : Nat) (v n : Nat) : List (Nat × Nat) := (List.range n).map fun i => (a + i, v / 256 ^ i % 256)
def H := reflexBase 1 + 0x8000
def wd4 (i v : Nat) : List (Nat × Nat) := bytesAt (H + 4 * i) v 4
def prog (w4 d0 d1 : Nat) : Device := (poke (wd4 2 2 ++ wd4 3 2 ++ wd4 4 w4 ++ wd4 8 10 ++ wd4 12 0x8100 ++ wd4 13 0x8100 ++ wd4 14 0x8140 ++ wd4 15 0x8180 ++ wd4 16 0x8180 ++ wd4 17 0x81C0 ++ wd4 18 0x81C0 ++ wd4 21 0x8200 ++ wd4 22 0x8240 ++ wd4 30 0x8280 ++
  bytesAt (H + 0x100) 3 8 ++ bytesAt (H + 0x140) 0x00010000 4 ++ bytesAt (H + 0x180) d0 4 ++ bytesAt (H + 0x184) d1 4 ++ bytesAt (H + 0x1C0) 0x3F800000 4 ++ bytesAt (H + 0x1C4) 0x40000000 4) e0).wr 1 (REFLEX_SOLVE_PROG_HDR_OFF 2) 0x8000
def bud (d : Device) : Device := d.schedStore 1 (0x100000 + 32 * 4 + 8) 1000
def p0 : Device := bud (prog 0 0x40800000 0x41000000)
def pj : Device := bud (prog 0x100 0x40800000 0x41000000)
def pz : Device := bud (prog 0x100 0x40800000 0)
def zz : Solve := { slice := 4, bank := 0, slot := none, iters := 3, iterMax := 10, rtol := 0, atol := 0, factor := 0xFF, warm := 0, x := [0, 0] }
def z1 : Solve := { zz with running := true, seen := p0.bankWords 1 (p0.header 1 2) 0, done := 1, cmdDone := 1, vecs := [[0x3F800000, 0x40000000], [0x3F800000, 0x40000000]], scalars := [0x4014000000000000], rho := 5, rho0 := 5, best := 5, bestX := [0, 0] }
def zr : Solve := { zz with running := true, seen := p0.bankWords 1 (p0.header 1 2) 0 }
def z0 : Solve := { zr with iters := 1 }
def z2 : Solve := { z1 with running := false }
def rs (b : Nat) (d : Device) : Device := { d with solve := { d.solve with refSeen := [(18, d.precSource 1 (d.header 1 2) b)] } }
def wS : List Nat := wl [(1, 2 * 2^20 + 5), (2, 9 * 2^16), (3, 7), (4, 8)]
def sol (z : Solve) (d : Device) : Device := d.setSolve 1 2 (some z)
def part (d : Device) : Device := d.set 1 (REFLEX_SOLVE_PROG_STATE_PARTIAL 2)
def rf (b : Nat) : Refresh := { prog := 2, slice := 4, bank := b, pos := 0, start := 0 }

theorem witness_SolvesAndRefreshes :
    (∃ (s : State) (die : Nat) (p : Nat) (idx : Nat) (w : List Nat),
      s.dev.sound ∧
      s.dev.probe = { : DebugSt } ∧
      s.dev.pond.ecc = [] ∧
      die < 4 ∧
      p < 16 ∧
      wd w 1 / 2 ^ 20 % 16 = p ∧
      wd w 1 / 2 ^ 28 % 8 = 0 ∧
      shPrec (s.dev.header die p) = 0 ∧
      s.dev.endsByDeadline die idx (shTIter (s.dev.header die p)) = true ∧
      s.dev.sliceBusy die idx = false ∧
      (s.dev.rxTouch die [(s.dev.progAddr die p, 256)]).2 = stDONE ∧
      s.dev.on die (REFLEX_SOLVE_PROG_STATE_PENDING p) = false ∧
      s.dev.on die (REFLEX_SOLVE_PROG_STATE_PARTIAL p) = false) ∧
    (∃ (s : State) (die : Nat) (p : Nat) (idx : Nat) (w : List Nat) (z : Solve),
      s.dev.sound ∧
      s.dev.probe = { : DebugSt } ∧
      s.dev.pond.ecc = [] ∧
      die < 4 ∧
      p < 16 ∧
      wd w 1 / 2 ^ 20 % 16 = p ∧
      s.dev.solveOf die p = some z ∧
      s.dev.on die (REFLEX_SOLVE_PROG_STATE_PARTIAL p) = true ∧
      s.dev.planStands die z = true ∧
      s.dev.endsByDeadline die idx (shTIter (s.dev.header die p)) = true ∧
      s.dev.sliceBusy die idx = false) ∧
    (∃ (s : State) (die : Nat) (p : Nat) (idx : Nat) (w : List Nat),
      s.dev.sound ∧
      s.dev.probe = { : DebugSt } ∧
      s.dev.pond.ecc = [] ∧
      die < 4 ∧
      p < 16 ∧
      wd w 1 / 2 ^ 20 % 16 = p ∧
      s.dev.solveOf die p = none ∧
      s.dev.on die REFLEX_SOLVE_ERR_VALID = false ∧
      s.dev.sliceBusy die idx = false ∧
      s.dev.pond.failed = none) ∧
    (∃ (s : State) (die : Nat) (p : Nat) (z : Solve),
      s.dev.sound ∧
      s.dev.probe = { : DebugSt } ∧
      s.dev.pond.ecc = [] ∧
      die < 4 ∧
      p < 16 ∧
      s.dev.solveOf die p = some z ∧
      z.running = true ∧
      (s.dev.rxTouch die (s.dev.systemReads die (s.dev.header die p) z.bank z.factor)).2 = stDONE ∧
      (Solve.after ((s.dev.rxTouch die (s.dev.systemReads die (s.dev.header die p) z.bank z.factor)).1.iterSystem die (s.dev.header die p) z).2 (shMethod (s.dev.header die p)) z).2 = false ∧
      (Solve.after ((s.dev.rxTouch die (s.dev.systemReads die (s.dev.header die p) z.bank z.factor)).1.iterSystem die (s.dev.header die p) z).2 (shMethod (s.dev.header die p)) z).1.passes (Solve.after ((s.dev.rxTouch die (s.dev.systemReads die (s.dev.header die p) z.bank z.factor)).1.iterSystem die (s.dev.header die p) z).2 (shMethod (s.dev.header die p)) z).1.rho = false ∧
      (Solve.after ((s.dev.rxTouch die (s.dev.systemReads die (s.dev.header die p) z.bank z.factor)).1.iterSystem die (s.dev.header die p) z).2 (shMethod (s.dev.header die p)) z).1.done < (Solve.after ((s.dev.rxTouch die (s.dev.systemReads die (s.dev.header die p) z.bank z.factor)).1.iterSystem die (s.dev.header die p) z).2 (shMethod (s.dev.header die p)) z).1.iterMax ∧
      (Solve.after ((s.dev.rxTouch die (s.dev.systemReads die (s.dev.header die p) z.bank z.factor)).1.iterSystem die (s.dev.header die p) z).2 (shMethod (s.dev.header die p)) z).1.iters ≤ (Solve.after ((s.dev.rxTouch die (s.dev.systemReads die (s.dev.header die p) z.bank z.factor)).1.iterSystem die (s.dev.header die p) z).2 (shMethod (s.dev.header die p)) z).1.cmdDone ∧
      (reflexBase die + shSec (s.dev.header die p) 18 + 64 ≤ s.dev.progAddr die p ∨ s.dev.progAddr die p + 256 ≤ reflexBase die + shSec (s.dev.header die p) 18)) ∧
    (∃ (s : State) (die : Nat) (p : Nat) (z : Solve),
      s.dev.sound ∧
      s.dev.probe = { : DebugSt } ∧
      s.dev.pond.ecc = [] ∧
      die < 4 ∧
      p < 16 ∧
      s.dev.solveOf die p = some z ∧
      z.running = true ∧
      (s.dev.rxTouch die (s.dev.systemReads die (s.dev.header die p) z.bank z.factor)).2 = stDONE ∧
      (Solve.after ((s.dev.rxTouch die (s.dev.systemReads die (s.dev.header die p) z.bank z.factor)).1.iterSystem die (s.dev.header die p) z).2 (shMethod (s.dev.header die p)) z).2 = false ∧
      (Solve.after ((s.dev.rxTouch die (s.dev.systemReads die (s.dev.header die p) z.bank z.factor)).1.iterSystem die (s.dev.header die p) z).2 (shMethod (s.dev.header die p)) z).1.passes (Solve.after ((s.dev.rxTouch die (s.dev.systemReads die (s.dev.header die p) z.bank z.factor)).1.iterSystem die (s.dev.header die p) z).2 (shMethod (s.dev.header die p)) z).1.rho = false ∧
      (Solve.after ((s.dev.rxTouch die (s.dev.systemReads die (s.dev.header die p) z.bank z.factor)).1.iterSystem die (s.dev.header die p) z).2 (shMethod (s.dev.header die p)) z).1.done < (Solve.after ((s.dev.rxTouch die (s.dev.systemReads die (s.dev.header die p) z.bank z.factor)).1.iterSystem die (s.dev.header die p) z).2 (shMethod (s.dev.header die p)) z).1.iterMax ∧
      (Solve.after ((s.dev.rxTouch die (s.dev.systemReads die (s.dev.header die p) z.bank z.factor)).1.iterSystem die (s.dev.header die p) z).2 (shMethod (s.dev.header die p)) z).1.cmdDone < (Solve.after ((s.dev.rxTouch die (s.dev.systemReads die (s.dev.header die p) z.bank z.factor)).1.iterSystem die (s.dev.header die p) z).2 (shMethod (s.dev.header die p)) z).1.iters ∧
      s.dev.endsByDeadline die (Solve.after ((s.dev.rxTouch die (s.dev.systemReads die (s.dev.header die p) z.bank z.factor)).1.iterSystem die (s.dev.header die p) z).2 (shMethod (s.dev.header die p)) z).1.slice (shTIter (s.dev.header die p)) = true) ∧
    (∃ (s : State) (die : Nat) (p : Nat) (x : Refresh),
      s.dev.sound ∧
      s.dev.probe = { : DebugSt } ∧
      s.dev.pond.ecc = [] ∧
      die < 4 ∧
      p < 16 ∧
      s.dev.refreshOf die p = some x ∧
      (s.dev.rxTouch die (s.dev.refreshReads die p x.bank)).2 = stDONE ∧
      ((s.dev.rxTouch die (s.dev.refreshReads die p x.bank)).1.buildFactor die p x.bank).2.2 = false ∧
      (reflexBase die + shSec (s.dev.header die p) (if s.dev.rd die (REFLEX_SOLVE_PROG_STATE_FACTOR p) = 1 then 10 else 9) + 4 * ((s.dev.rxTouch die (s.dev.refreshReads die p x.bank)).1.buildFactor die p x.bank).2.1.length ≤ s.dev.progAddr die p ∨ s.dev.progAddr die p + 256 ≤ reflexBase die + shSec (s.dev.header die p) (if s.dev.rd die (REFLEX_SOLVE_PROG_STATE_FACTOR p) = 1 then 10 else 9))) ∧
    (∃ (s : State) (die : Nat) (p : Nat) (x : Refresh),
      s.dev.sound ∧
      s.dev.probe = { : DebugSt } ∧
      s.dev.pond.ecc = [] ∧
      die < 4 ∧
      p < 16 ∧
      s.dev.refreshOf die p = some x ∧
      (s.dev.rxTouch die (s.dev.refreshReads die p x.bank)).2 = stDONE ∧
      ((s.dev.rxTouch die (s.dev.refreshReads die p x.bank)).1.buildFactor die p x.bank).2.2 = true) :=
  ⟨⟨({ dev := p0 } : State), 1, 2, 4, wS,
      ⟨by decide +kernel, by decide +kernel⟩, by decide +kernel⟩,
   ⟨({ dev := part (sol z2 p0) } : State), 1, 2, 4, wS, z2,
      ⟨by decide +kernel, by decide +kernel⟩, by decide +kernel⟩,
   ⟨({ dev := p0 } : State), 1, 2, 4, wS,
      ⟨by decide +kernel, by decide +kernel⟩, by decide +kernel⟩,
   ⟨({ dev := sol z0 p0 } : State), 1, 2, z0,
      ⟨by decide +kernel, by decide +kernel⟩, by decide +kernel⟩,
   ⟨({ dev := sol zr p0 } : State), 1, 2, zr,
      ⟨by decide +kernel, by decide +kernel⟩, by decide +kernel⟩,
   ⟨({ dev := rs 0 (pj.setRefresh 1 2 (some (rf 0))) } : State), 1, 2, rf 0,
      ⟨by decide +kernel, by decide +kernel⟩, by decide +kernel⟩,
   ⟨({ dev := rs 0 (pz.setRefresh 1 2 (some (rf 0))) } : State), 1, 2, rf 0,
      ⟨by decide +kernel, by decide +kernel⟩, by decide +kernel⟩⟩

end G08c

/-! States for ControlCommands. -/

namespace G09

def e0 : Device := {}
def wl (l : List (Nat × Nat)) : List Nat := l.foldl (fun m x => m.set x.1 x.2) (List.replicate 16 0)
def poke (l : List (Nat × Nat)) (d : Device) : Device := { d with mem := SMap.insAll ((l.filter fun x => x.2 ≠ 0).map fun x => (x.1, (x.2 : Byte))) d.mem }
def m0 : Device := poke [(reflexBase 1 + 5 * 1024, 1), (reflexBase 1 + 5 * 1024 + 28, 3), (reflexBase 1 + 5 * 1024 + 68, 7), (reflexBase 1 + 5 * 1024 + 76, 9), (reflexBase 1 + 5 * 1024 + 673, 1), (reflexBase 1 + 5 * 1024 + 824, 20), (reflexBase 1 + 6 * 1024 + 1, 2), (reflexBase 1 + 0x30000, 1), (reflexBase 1 + 0x3001C, 3), (reflexBase 1 + 0x30050, 9)] e0
def wE (n : Nat) (on : Nat) : List Nat := wl [(0, 0x60000000), (1, n + on * 2^31)]
def wL (n : Nat) : List Nat := wl [(0, 0x61000000), (1, n + 128), (2, 0x30000)]
def tr (d : Device) : Device := d.setTestRun 1 { armed := true, on := true, k := 9, capOn := true, capK := 3 }
def lo (d : Device) : Device := { d with ctrl := { d.ctrl with loops := [(128 + 5, { due := true, ei := 100, outs := [50] }), (128 + 6, { ei := 3 })] } }

theorem witness_ControlCommands_1 :
    (∃ (s : State) (die : Nat) (w : List Nat),
      s.dev.sound ∧
      s.dev.pond.ecc = [] ∧
      die < 4 ∧
      s.dev.isHalted (unitTarget die 2) = false ∧
      reservedSet w 2147483775 0 = false ∧
      slTail (s.dev.descriptor die (wd w 1 % 128)) = false) ∧
    (∃ (s : State) (die : Nat) (w : List Nat),
      s.dev.sound ∧
      s.dev.pond.ecc = [] ∧
      die < 4 ∧
      s.dev.isHalted (unitTarget die 2) = false ∧
      reservedSet w 2147483775 0 = false ∧
      slTail (s.dev.descriptor die (wd w 1 % 128)) = true ∧
      s.dev.on die REFLEX_CTRL_ERR_VALID = false) ∧
    (∃ (s : State) (die : Nat) (w : List Nat),
      s.dev.sound ∧
      s.dev.pond.ecc = [] ∧
      die < 4 ∧
      s.dev.isHalted (unitTarget die 2) = false ∧
      reservedSet w 255 16777215 = false ∧
      slTail (s.dev.descriptor die (wd w 1 % 128)) = false ∧
      wd w 2 % 2 ^ 24 % 64 = 0 ∧
      wd w 2 % 2 ^ 24 + 824 ≤ 16777216 ∧
      (∀ i < 824, i < 8 ∨ 28 ≤ i ∧ i < 32 ∨ 38 ≤ i ∧ i < 64 → wd (toBytes (s.dev.readData (reflexBase die + wd w 2 % 2 ^ 24) 824) 824) i = wd (s.dev.descriptor die (wd w 1 % 128)) i) ∧
      (∀ i < 5, s.dev.sourceBad die (slSrc (toBytes (s.dev.readData (reflexBase die + wd w 2 % 2 ^ 24) 824) 824) i) = false)) ∧
    (∃ (s : State) (die : Nat) (value : Nat),
      s.dev.sound ∧
      s.dev.pond.ecc = [] ∧
      die < 4 ∧
      s.dev.isHalted (unitTarget die 2) = false ∧
      value / 2 ^ 31 % 2 = 1 ∧
      (value / 2 ^ 29 % 4 = 3 ∨ slTail (s.dev.descriptor die (value % 128)) = true)) ∧
    (∃ (s : State) (die : Nat) (value : Nat),
      s.dev.sound ∧
      s.dev.pond.ecc = [] ∧
      die < 4 ∧
      s.dev.isHalted (unitTarget die 2) = false ∧
      value / 2 ^ 31 % 2 = 1 ∧
      value / 2 ^ 29 % 4 < 2 ∧
      slTail (s.dev.descriptor die (value % 128)) = false) ∧
    (∃ (s : State) (die : Nat) (value : Nat),
      s.dev.sound ∧
      s.dev.pond.ecc = [] ∧
      die < 4 ∧
      s.dev.isHalted (unitTarget die 2) = false ∧
      value / 2 ^ 31 % 2 = 0) :=
  ⟨⟨({ dev := m0 } : State), 1, wE 5 1,
      ⟨by decide +kernel, by decide +kernel⟩, by decide +kernel⟩,
   ⟨({ dev := m0 } : State), 1, wE 6 0,
      ⟨by decide +kernel, by decide +kernel⟩, by decide +kernel⟩,
   ⟨({ dev := m0 } : State), 1, wL 5,
      ⟨by decide +kernel, by decide +kernel⟩, by decide +kernel⟩,
   ⟨({ dev := m0 } : State), 1, 2^31 + 2^30 + 2^29,
      ⟨by decide +kernel, by decide +kernel⟩, by decide +kernel⟩,
   ⟨({ dev := tr m0 } : State), 1, 2^31 + 2^29 + 2^20 + 5,
      ⟨by decide +kernel, by decide +kernel⟩, by decide +kernel⟩,
   ⟨({ dev := tr m0 } : State), 1, 2^29 + 2^20 + 5,
      ⟨by decide +kernel, by decide +kernel⟩, by decide +kernel⟩⟩

theorem witness_ControlCommands_2 :
    (∃ (s : State) (die : Nat),
      s.dev.sound ∧
      s.dev.pond.ecc = [] ∧
      die < 4 ∧
      s.dev.isHalted (unitTarget die 2) = false ∧
      (s.dev.testRun die).on = true ∧
      s.dev.rd die REFLEX_CTRL_TEST_LEN_LEN_M1 < (s.dev.testRun die).k) ∧
    (∃ (s : State) (die : Nat) (value : Nat),
      s.dev.sound ∧
      s.dev.pond.ecc = [] ∧
      die < 4 ∧
      s.dev.isHalted (unitTarget die 2) = false ∧
      value / 2 ^ 31 % 2 = 1 ∧
      s.dev.on die REFLEX_CTRL_CAP_STATUS_BUSY = true) ∧
    (∃ (s : State) (die : Nat) (value : Nat),
      s.dev.sound ∧
      s.dev.pond.ecc = [] ∧
      die < 4 ∧
      s.dev.isHalted (unitTarget die 2) = false ∧
      value / 2 ^ 31 % 2 = 1 ∧
      s.dev.on die REFLEX_CTRL_CAP_STATUS_BUSY = false) ∧
    (∃ (s : State) (die : Nat),
      s.dev.sound ∧
      s.dev.pond.ecc = [] ∧
      die < 4 ∧
      s.dev.isHalted (unitTarget die 2) = false ∧
      s.dev.on die REFLEX_CTRL_CAP_STATUS_BUSY = true ∧
      s.dev.rd die REFLEX_CTRL_CAP_CFG_LEN_M1 < s.dev.rd die REFLEX_CTRL_CAP_STATUS_COUNT) ∧
    (∃ (s : State) (die : Nat) (n : Nat),
      s.dev.sound ∧
      s.dev.pond.ecc = [] ∧
      die < 4 ∧
      s.dev.isHalted (unitTarget die 2) = false ∧
      n < 128 ∧
      (∀ k < 128, (s.dev.loop die k).due = decide (k = n)) ∧
      slLaw (s.dev.descriptor die n) = 1 ∧
      s.dev.descOf die n + 1024 ≤ reflexBase die + 16777216) :=
  ⟨⟨({ dev := tr m0 } : State), 1,
      ⟨by decide +kernel, by decide +kernel⟩, by decide +kernel⟩,
   ⟨({ dev := (tr m0).set 1 REFLEX_CTRL_CAP_STATUS_BUSY } : State), 1, 2^31 + 9,
      ⟨by decide +kernel, by decide +kernel⟩, by decide +kernel⟩,
   ⟨({ dev := (tr m0).wr 1 REFLEX_CTRL_CAP_STATUS_COUNT 7 } : State), 1, 2^31 + 2^28 + 2^20 + 9,
      ⟨by decide +kernel, by decide +kernel⟩, by decide +kernel⟩,
   ⟨({ dev := ((tr m0).set 1 REFLEX_CTRL_CAP_STATUS_BUSY).wr 1 REFLEX_CTRL_CAP_STATUS_COUNT 7 } : State), 1,
      ⟨by decide +kernel, by decide +kernel⟩, by decide +kernel⟩,
   ⟨({ dev := lo m0 } : State), 1, 5,
      ⟨by decide +kernel, by decide +kernel⟩, by decide +kernel⟩⟩

end G09

/-! States for GoldenFramesAndWindows, IslandEvents. -/

namespace G10

def e0 : Device := {}
def poke (l : List (Nat × Nat)) (d : Device) : Device := { d with mem := SMap.insAll ((l.filter fun x => x.2 ≠ 0).map fun x => (x.1, (x.2 : Byte))) d.mem }
def m0 : Device := poke [(reflexBase 0, 3), (fusionBase 1 + 5, 7), (0x48000000, 1)] e0
def gt (d : Device) : Device := ((((d.set 0 SAFETY_GOLDEN_CFG_EN).wr 0 SAFETY_GOLDEN_CFG_TICK 3).wr 0 CHORUS_POSITION_TICK_IN_FRAME 3).wr 1 SAFETY_GOLDEN_STATUS_RUN 7)
def rs (k : Nat) (d : Device) : Device := { d with chorus := { d.chorus with slices := [{ die := 0, idx := 0, kind := k, tick := 0, units := [501], started := true }] } }
def pn (d : Device) : Device := (d.set 0 SAFETY_GOLDEN_STATUS_PENDING).set 1 SAFETY_GOLDEN_STATUS_PENDING
def ii (a b : Island) (d : Device) : Device := (d.setIsland 0 a).setIsland 1 b
def md (x y : Nat) (d : Device) : Device := (d.wr 0 SAFETY_STATUS_MODE x).wr 1 SAFETY_STATUS_MODE y
def ts (x y : Nat) (d : Device) : Device := (d.wr 0 SAFETY_STATUS_TAIL_STATE x).wr 1 SAFETY_STATUS_TAIL_STATE y
def wg (d : Device) : Device := (d.set 0 (SAFETY_WDG_CFG_EN 3)).wr 0 (SAFETY_WDG_CFG_TOL 3) 2
def rc (d : Device) : Device := (d.set 0 SAFETY_STATUS_RECOVERABLE).set 1 SAFETY_STATUS_RECOVERABLE
def iv : Island := { closed := true, verdict := [1, 2, 3], received := some [1, 2, 3], estopLow := 2, just := 5, freshTicks := 4 }
def iw : Island := { closed := true, verdict := [1, 2, 3], received := some [1, 4, 3], estopLow := 3, stopTicks := 9, startTicks := 400000 }

theorem witness_GoldenFramesAndWindows :
    (∃ (s : State),
      s.dev.sound ∧
      s.dev.goldenTick = false) ∧
    (∃ (s : State),
      s.dev.sound ∧
      s.dev.goldenTick = true ∧
      (s.dev.chorus.slices.any fun (x : SliceRun) => x.started && decide (1 ≤ x.kind) && decide (x.kind ≤ 4)) = false ∧
      s.dev.pond.ecc = []) ∧
    (∃ (s : State),
      s.dev.sound ∧
      s.dev.goldenTick = true ∧
      (s.dev.chorus.slices.any fun (x : SliceRun) => x.started && decide (1 ≤ x.kind) && decide (x.kind ≤ 4)) = true ∧
      s.dev.on 0 SAFETY_GOLDEN_STATUS_PENDING = false) ∧
    (∃ (s : State),
      s.dev.sound ∧
      (s.dev.chorus.slices.any fun (x : SliceRun) => x.started && decide (1 ≤ x.kind) && decide (x.kind ≤ 4)) = true ∧
      s.dev.on 0 SAFETY_GOLDEN_STATUS_PENDING = true) ∧
    (∃ (s : State) (o0 : Bool) (o1 : Bool),
      s.dev.sound ∧
      (∀ i < 2, (s.dev.island i).stopped = false ∧ (s.dev.island i).golden = false ∧ ∀ n < 16, s.dev.on i (SAFETY_WDG_CFG_EN n) = false) ∧
      o0 = ((s.dev.island 0).closed && (s.dev.island 1).closed) ∧
      o1 = ((s.dev.island 0).closed && (s.dev.island 1).closed)) ∧
    (∃ (s : State) (o0 : Bool) (o1 : Bool),
      s.dev.sound ∧
      (∀ i < 2, (s.dev.island i).stopped = false ∧ (s.dev.island i).golden = false ∧ ∀ n < 16, s.dev.on i (SAFETY_WDG_CFG_EN n) = false) ∧
      (o0 ≠ ((s.dev.island 0).closed && (s.dev.island 1).closed) ∨ o1 ≠ ((s.dev.island 0).closed && (s.dev.island 1).closed))) ∧
    (∃ (s : State) (n : Nat),
      s.dev.sound ∧
      n < 16 ∧
      (∀ i < 2, (s.dev.island i).stopped = false ∧ (s.dev.island i).golden = false ∧ (s.dev.island i).closed = false ∧ ∀ k < 16, s.dev.on i (SAFETY_WDG_CFG_EN k) = decide (i = 0 ∧ k = n)) ∧
      s.dev.rd 0 SAFETY_STATUS_MODE = 1 ∧
      s.dev.wdgVerdict 0 n = 3 ∧
      SMap.get 0 (s.dev.island 0).misses n + 1 ≤ s.dev.rd 0 (SAFETY_WDG_CFG_TOL n)) :=
  ⟨⟨({ dev := m0 } : State),
      ⟨by decide +kernel, by decide +kernel⟩, by decide +kernel⟩,
   ⟨({ dev := gt m0 } : State),
      ⟨by decide +kernel, by decide +kernel⟩, by decide +kernel⟩,
   ⟨({ dev := rs 2 (gt m0) } : State),
      ⟨by decide +kernel, by decide +kernel⟩, by decide +kernel⟩,
   ⟨({ dev := pn (rs 2 (gt m0)) } : State),
      ⟨by decide +kernel, by decide +kernel⟩, by decide +kernel⟩,
   ⟨({ dev := m0 } : State), false, false,
      ⟨by decide +kernel, by decide +kernel⟩, by decide +kernel⟩,
   ⟨({ dev := m0 } : State), true, true,
      ⟨by decide +kernel, by decide +kernel⟩, by decide +kernel⟩,
   ⟨({ dev := md 1 1 (wg m0) } : State), 3,
      ⟨by decide +kernel, by decide +kernel⟩, by decide +kernel⟩⟩

theorem witness_IslandEvents_1 :
    (∃ (s : State) (i : Nat),
      s.dev.sound ∧
      s.dev.probe = { : DebugSt } ∧
      (∀ i < 2, (s.dev.island i).stopped = false) ∧
      i < 2 ∧
      s.dev.on i SAFETY_FAULT_VALID = false) ∧
    (∃ (s : State) (i : Nat),
      s.dev.sound ∧
      s.dev.probe = { : DebugSt } ∧
      (∀ i < 2, (s.dev.island i).stopped = false) ∧
      i < 2 ∧
      (s.dev.island i).received = some (s.dev.island i).verdict) ∧
    (∃ (s : State) (i : Nat),
      s.dev.sound ∧
      s.dev.probe = { : DebugSt } ∧
      (∀ i < 2, (s.dev.island i).stopped = false) ∧
      i < 2 ∧
      ((s.dev.island i).received = none ∨ ∃ (r : List ℕ), (s.dev.island i).received = some r ∧ wd r 1 ≠ wd (s.dev.island i).verdict 1)) ∧
    (∃ (s : State),
      s.dev.sound ∧
      s.dev.probe = { : DebugSt } ∧
      (∀ i < 2, (s.dev.island i).stopped = false) ∧
      (∀ i < 2, (s.dev.island i).estopLow < 3)) ∧
    (∃ (s : State),
      s.dev.sound ∧
      s.dev.probe = { : DebugSt } ∧
      (∀ i < 2, (s.dev.island i).stopped = false) ∧
      (∀ i < 2, (s.dev.island i).estopLow = 3 ∧ s.dev.on i SAFETY_CTL_ESTOP_CAT = false)) ∧
    (∃ (s : State) (die : Nat),
      s.dev.sound ∧
      s.dev.probe = { : DebugSt } ∧
      (∀ i < 2, (s.dev.island i).stopped = false) ∧
      die ≠ 0) :=
  ⟨⟨({ dev := ts 1 1 (md 1 1 ((ii iw { iw with stopTicks := 1 } m0).set 1 SAFETY_FAULT_VALID)) } : State), 0,
      ⟨by decide +kernel, by decide +kernel⟩, by decide +kernel⟩,
   ⟨({ dev := md 1 1 (ii iv iv m0) } : State), 0,
      ⟨by decide +kernel, by decide +kernel⟩, by decide +kernel⟩,
   ⟨({ dev := md 1 3 (ts 1 0 (ii {} {} m0)) } : State), 1,
      ⟨by decide +kernel, by decide +kernel⟩, by decide +kernel⟩,
   ⟨({ dev := m0 } : State),
      ⟨by decide +kernel, by decide +kernel⟩, by decide +kernel⟩,
   ⟨({ dev := ts 1 2 (((ii iw iw m0).clr 0 SAFETY_CTL_ESTOP_CAT).clr 1 SAFETY_CTL_ESTOP_CAT) } : State),
      ⟨by decide +kernel, by decide +kernel⟩, by decide +kernel⟩,
   ⟨({ dev := m0 } : State), 1,
      ⟨by decide +kernel, by decide +kernel⟩, by decide +kernel⟩⟩

theorem witness_IslandEvents_2 :
    (∃ (s : State) (value : Nat),
      s.dev.sound ∧
      s.dev.probe = { : DebugSt } ∧
      (∀ i < 2, (s.dev.island i).stopped = false) ∧
      value % 65536 = 23130) ∧
    (∃ (s : State) (value : Nat),
      s.dev.sound ∧
      s.dev.probe = { : DebugSt } ∧
      (∀ i < 2, (s.dev.island i).stopped = false) ∧
      value % 65536 = 42405 ∧
      (s.dev.island 0).keyed = true ∧
      s.dev.on 0 SAFETY_CTL_RESUME_SRC = false ∧
      s.dev.resumeOk = true) ∧
    (∃ (s : State) (value : Nat),
      s.dev.sound ∧
      s.dev.probe = { : DebugSt } ∧
      (∀ i < 2, (s.dev.island i).stopped = false) ∧
      value % 65536 = 42405 ∧
      (s.dev.island 0).keyed = true ∧
      s.dev.on 0 SAFETY_CTL_RESUME_SRC = false ∧
      s.dev.resumeOk = false) ∧
    (∃ (s : State),
      s.dev.sound ∧
      s.dev.probe = { : DebugSt } ∧
      (∀ i < 2, (s.dev.island i).stopped = false) ∧
      s.dev.on 0 SAFETY_CTL_RESUME_SRC = true ∧
      s.dev.resumeOk = true) ∧
    (∃ (s : State),
      s.dev.sound ∧
      s.dev.probe = { : DebugSt } ∧
      (∀ i < 2, (s.dev.island i).stopped = false) ∧
      s.dev.on 0 SAFETY_CTL_RESUME_SRC = true ∧
      s.dev.resumeOk = false) ∧
    (∃ (s : State) (i : Nat),
      s.dev.sound ∧
      s.dev.probe = { : DebugSt } ∧
      (∀ i < 2, (s.dev.island i).stopped = false) ∧
      i < 2 ∧
      (s.dev.rd i SAFETY_STATUS_MODE = 0 ∨ s.dev.rd i SAFETY_STATUS_MODE = 3) ∧
      s.dev.rd i SAFETY_AGE_CFG_START_TICKS ≤ (s.dev.island i).startTicks) :=
  ⟨⟨({ dev := m0 } : State), 0x5A5A,
      ⟨by decide +kernel, by decide +kernel⟩, by decide +kernel⟩,
   ⟨({ dev := rc (ts 2 3 (ii { iv with keyed := true } {} m0)) } : State), 0xA5A5,
      ⟨by decide +kernel, by decide +kernel⟩, by decide +kernel⟩,
   ⟨({ dev := ts 0 1 (ii { iv with keyed := true } {} m0) } : State), 0x1A5A5,
      ⟨by decide +kernel, by decide +kernel⟩, by decide +kernel⟩,
   ⟨({ dev := (ii { iv with keyed := true } {} m0).set 0 SAFETY_CTL_RESUME_SRC } : State),
      ⟨by decide +kernel, by decide +kernel⟩, by decide +kernel⟩,
   ⟨({ dev := ts 0 1 ((ii { iv with keyed := true } {} m0).set 0 SAFETY_CTL_RESUME_SRC) } : State),
      ⟨by decide +kernel, by decide +kernel⟩, by decide +kernel⟩,
   ⟨({ dev := md 0 0 (ii iw { iw with closed := false } m0) } : State), 0,
      ⟨by decide +kernel, by decide +kernel⟩, by decide +kernel⟩⟩

end G10

/-! States for SelfTests. -/

namespace G10b

def e0 : Device := {}
def poke (l : List (Nat × Nat)) (d : Device) : Device := { d with mem := SMap.insAll ((l.filter fun x => x.2 ≠ 0).map fun x => (x.1, (x.2 : Byte))) d.mem }
def m0 : Device := poke [(reflexBase 0, 3), (fusionBase 1 + 5, 7), (0x48000000, 1)] e0
def it (tgt alg unit wh first rows tick : Nat) : List Nat := [tgt + 2^8 * alg + 2^16 * unit + 2^24 * wh, first, rows - 1 + 2^16 * tick, 0]
def i0 : List Nat := it 0 1 5 1 10 4 0xFFFF
def i1 : List Nat := it 1 0 0x41 0 20 8 0xFFFF
def tst (d : Device) : Device := (((d.wr 0 CHORUS_POSITION_RC_IN_TICK d.testStart).set 0 EFT_BOOT_STATUS_READY).set 1 SELFTEST_CTL_SEQ_EN).wr 0 EFT_LC_STATE 3
def sqn (l : List (List Nat)) (p : Nat) (d : Device) : Device := (((tst d).setTester 1 { (d.tester 1) with seq := l }).wr 1 SELFTEST_SEQ_POS_POS p).wr 1 SELFTEST_SEQ_LEN (p + 2)
def la (w : List Nat) (p : Option Nat) (r : Bool) : Lane := { item := w, pos := p, save := true, restore := r }
def ln (k : Nat) (l : Lane) (q : List (List Nat)) (d : Device) : Device := d.setTester 1 { (d.tester 1) with lanes := [(k, some l)], queue := q }
def mi (w : List Nat) (d : Device) : Device := (List.range 4).foldl (fun d n => d.wr 1 (SELFTEST_MAN_ITEM_WORD n) (wd w n)) d

theorem witness_SelfTests_1 :
    (∃ (s : State) (die : Nat) (w : List Nat) (p : Nat) (lane : Nat),
      s.dev.sound ∧
      die < 4 ∧
      s.dev.testStart ≤ s.dev.rc ∧
      s.dev.rc < s.dev.safetyStart ∧
      s.dev.on 0 EFT_BOOT_STATUS_READY = true ∧
      s.dev.rd 0 EFT_LC_STATE ≠ 5 ∧
      (s.dev.tester die).manual = none ∧
      s.dev.on die SELFTEST_CTL_SEQ_EN = true ∧
      p = s.dev.rd die SELFTEST_SEQ_POS_POS ∧
      p + 1 < 2 ^ SELFTEST_SEQ_POS_POS.w ∧
      (s.dev.tester die).seq[p]? = some w ∧
      s.dev.rd die SELFTEST_SEQ_LEN = p + 2 ∧
      (s.dev.tester die).seq[p + 1]? = none ∧
      s.dev.cannotStart die w = 0 ∧
      (s.dev.tester die).free = some lane) ∧
    (∃ (s : State) (die : Nat) (w : List Nat) (p : Nat),
      s.dev.sound ∧
      die < 4 ∧
      s.dev.testStart ≤ s.dev.rc ∧
      s.dev.rc < s.dev.safetyStart ∧
      s.dev.on 0 EFT_BOOT_STATUS_READY = true ∧
      s.dev.rd 0 EFT_LC_STATE ≠ 5 ∧
      (s.dev.tester die).manual = none ∧
      s.dev.on die SELFTEST_CTL_SEQ_EN = true ∧
      p = s.dev.rd die SELFTEST_SEQ_POS_POS ∧
      p + 1 < 2 ^ SELFTEST_SEQ_POS_POS.w ∧
      (s.dev.tester die).seq[p]? = some w ∧
      s.dev.rd die SELFTEST_SEQ_LEN = p + 2 ∧
      (s.dev.tester die).seq[p + 1]? = none ∧
      4 ≤ s.dev.cannotStart die w) ∧
    (∃ (s : State) (die : Nat) (lane : Nat) (l : Lane) (k : Nat),
      s.dev.sound ∧
      die < 4 ∧
      SMap.get none (s.dev.tester die).lanes lane = some l ∧
      lane < 8 ∧
      l.restore = false ∧
      tiTarget l.item = 1 ∧
      tiUnit l.item < 72 ∧
      l.save = true ∧
      k < tiRows l.item ∧
      (s.dev.tester die).queue.length < 256 ∧
      l.pos ≠ none) ∧
    (∃ (s : State) (die : Nat) (lane : Nat) (l : Lane) (p : Nat),
      s.dev.sound ∧
      die < 4 ∧
      SMap.get none (s.dev.tester die).lanes lane = some l ∧
      lane < 8 ∧
      l.restore = false ∧
      l.save = true ∧
      tiTarget l.item < 2 ∧
      l.pos = some p ∧
      (s.dev.tester die).back = none ∧
      s.dev.safetyStart - (tiRows l.item + 16) ≤ s.dev.rc) ∧
    (∃ (s : State) (die : Nat) (lane : Nat) (l : Lane) (p : Nat),
      s.dev.sound ∧
      die < 4 ∧
      SMap.get none (s.dev.tester die).lanes lane = some l ∧
      lane < 8 ∧
      l.restore = true ∧
      l.pos = some p) :=
  ⟨⟨({ dev := sqn [i0] 0 m0 } : State), 1, i0, 0, 0,
      ⟨by decide +kernel, by decide +kernel⟩, by decide +kernel⟩,
   ⟨({ dev := (sqn [i0, i0] 1 m0).wr 0 CHORUS_POSITION_RC_IN_TICK (m0.safetyStart - 1) } : State), 1, i0, 1,
      ⟨by decide +kernel, by decide +kernel⟩, by decide +kernel⟩,
   ⟨({ dev := ln 3 (la i1 (some 2) false) [[1, 2, 3, 4]] m0 } : State), 1, 3, la i1 (some 2) false, 5,
      ⟨by decide +kernel, by decide +kernel⟩, by decide +kernel⟩,
   ⟨({ dev := (ln 3 (la i1 (some 2) false) [[1, 2, 3, 4]] m0).wr 0 CHORUS_POSITION_RC_IN_TICK (m0.safetyStart - 10) } : State), 1, 3, la i1 (some 2) false, 2,
      ⟨by decide +kernel, by decide +kernel⟩, by decide +kernel⟩,
   ⟨({ dev := ln 3 (la i1 (some 2) true) [[1, 2, 3, 4]] m0 } : State), 1, 3, la i1 (some 2) true, 2,
      ⟨by decide +kernel, by decide +kernel⟩, by decide +kernel⟩⟩

theorem witness_SelfTests_2 :
    (∃ (s : State) (die : Nat) (value : Nat),
      s.dev.sound ∧
      die < 4 ∧
      value / 2 ^ 31 % 2 = 1 ∧
      (s.dev.on die SELFTEST_STATUS_MAN_BUSY = true ∨ value % 4 = 2)) ∧
    (∃ (s : State) (die : Nat) (value : Nat),
      s.dev.sound ∧
      die < 4 ∧
      value / 2 ^ 31 % 2 = 1 ∧
      s.dev.on die SELFTEST_STATUS_MAN_BUSY = false ∧
      value % 4 ≠ 2 ∧
      (manualState (s.dev.rd 0 EFT_LC_STATE) = false ∨ itemOk (List.map (fun (n : ℕ) => s.dev.rd die (SELFTEST_MAN_ITEM_WORD n)) (List.range 4)) = false)) ∧
    (∃ (s : State) (die : Nat) (value : Nat),
      s.dev.sound ∧
      die < 4 ∧
      value / 2 ^ 31 % 2 = 1 ∧
      s.dev.on die SELFTEST_STATUS_MAN_BUSY = false ∧
      value % 4 = 3 ∧
      manualState (s.dev.rd 0 EFT_LC_STATE) = true ∧
      itemOk (List.map (fun (n : ℕ) => s.dev.rd die (SELFTEST_MAN_ITEM_WORD n)) (List.range 4)) = true) ∧
    (∃ (s : State) (die : Nat) (value : Nat) (lane : Nat),
      s.dev.sound ∧
      die < 4 ∧
      value / 2 ^ 31 % 2 = 1 ∧
      s.dev.on die SELFTEST_STATUS_MAN_BUSY = false ∧
      value % 4 = 1 ∧
      manualState (s.dev.rd 0 EFT_LC_STATE) = true ∧
      itemOk (List.map (fun (n : ℕ) => s.dev.rd die (SELFTEST_MAN_ITEM_WORD n)) (List.range 4)) = true ∧
      s.dev.cannotStart die (List.map (fun (n : ℕ) => s.dev.rd die (SELFTEST_MAN_ITEM_WORD n)) (List.range 4)) = 0 ∧
      (s.dev.tester die).free = some lane) ∧
    (∃ (s : State) (die : Nat) (r : List Nat) (q : List (List Nat)),
      s.dev.sound ∧
      die < 4 ∧
      (s.dev.tester die).queue = r :: q) :=
  ⟨⟨({ dev := mi i1 m0 } : State), 1, 2^31 + 2,
      ⟨by decide +kernel, by decide +kernel⟩, by decide +kernel⟩,
   ⟨({ dev := (mi i1 m0).wr 0 EFT_LC_STATE 2 } : State), 1, 2^31 + 1,
      ⟨by decide +kernel, by decide +kernel⟩, by decide +kernel⟩,
   ⟨({ dev := (mi i1 m0).wr 0 EFT_LC_STATE 1 } : State), 1, 2^31 + 3,
      ⟨by decide +kernel, by decide +kernel⟩, by decide +kernel⟩,
   ⟨({ dev := (mi i1 m0).wr 0 EFT_LC_STATE 1 } : State), 1, 2^31 + 1, 0,
      ⟨by decide +kernel, by decide +kernel⟩, by decide +kernel⟩,
   ⟨({ dev := ln 3 (la i1 (some 2) true) [[1, 2, 3, 4], [5, 6, 7, 8]] m0 } : State), 1, [1, 2, 3, 4], [[5, 6, 7, 8]],
      ⟨by decide +kernel, by decide +kernel⟩, by decide +kernel⟩⟩

end G10b

/-! States for FlitsArrive, LinksRetryAndFail. -/

namespace G11

def e0 : Device := {}
def poke (l : List (Nat × Nat)) (d : Device) : Device := { d with mem := SMap.insAll ((l.filter fun x => x.2 ≠ 0).map fun x => (x.1, (x.2 : Byte))) d.mem }
def m0 : Device := poke [(0x48000010, 1), (0x48000013, 7), (0x48000014, 9), (0x20000, 3), (0x20007, 4), (0x20008, 5)] e0
def hh : FlitHead := { dst := 0, src := 9, cls := 2, fixed := false, job0 := true, hops := 15, seq := 0, ack := 4095, crVc := 0, crCls := 0, cr := 0 }
def up (d : Device) : Device := (d.wr 1 OLINER_STATUS_STATE 2).set 1 OLINER_CTL_EN
def win (d : Device) : Device := ((((d.wr 1 (OLINER_WIN_LO_BASE 2) 0x4800).set 1 (OLINER_WIN_HI_EN 2)).set 1 (OLINER_WIN_HI_RD 2)).set 1 (OLINER_WIN_HI_WR 2)).wr 1 (OLINER_WIN_HI_LOG2_SIZE 2) 16
def tg : TagId := { id := 65536 + 0x41 * 256 + 3, gen := 1, epoch := 2 }
def rq (k : Nat) : RemoteReq := { die := 1, dev := 9, tag := tg, kind := k, addr := 5, len := 8 }
def rX : RemoteReq := { rq 1 with tag := { tg with gen := 5 } }
def dW : List Nat := [2 ^ 24 + 2 ^ 22 + 9, 8, 0x10000, 0, 0x20000, 0, 0, 0, 0, 0, 0, 0, 0, 0, 0, 0]
def dR : List Nat := [2 ^ 24 + 2 ^ 23 + 9, 8, 0x10000, 0, 0x10000, 0, 0, 0, 0, 0, 0, 0, 0, 0, 0, 0]
def tl : Tlb := { die := 1, unit := 0x41, job := 0, va := 0x10000, log2 := 16, pa := 0x48000000, rd := true, wr := true, pin := true }
def dma (x : List Nat) (l : List RemoteReq) (d : Device) : Device := { (d.set 0 XLATE_CTL_EN) with xlate := { d.xlate with tlb := [tl], dma := [(17, some (some (.slice 1 3), 2, x))] }, oliner := { d.oliner with reqs := l } }
def ra : RemoteAdd := { die := 1, partner := 9, sync := 5, seq := 77 }
def rb : RemoteAdd := { ra with seq := 78, unresolved := true }
def ads (l : List RemoteAdd) (d : Device) : Device := { d with err := { d.err with radds := l } }
def pt (p : OlPort) (d : Device) : Device := d.setOlPort 1 p
def f1 : Nat × Nat × List Nat := (5, 0, [1, 2, 3, 4, 5, 6, 7, 8, 9])
def f2 : Nat × Nat × List Nat := (6, 2, [1, 2, 3, 4, 5, 6, 7, 8, 9])
def p1 : OlPort := { seqOut := 7, seqIn := 5, replay := [f1], held := [(0, 3), (33, 2)] }
def p2 : OlPort := { p1 with replay := [f1, f2], retries := 3 }

theorem witness_FlitsArrive :
    (∃ (s : State) (die : Nat) (h : FlitHead) (t : TagId) (a : Nat) (n : Nat) (k : Nat) (col : Nat) (off : Nat) (v : Nat) (write : Bool),
      s.dev.sound ∧
      s.dev.pond.ecc = [] ∧
      s.dev.pond.link = [] ∧
      die < 4 ∧
      s.dev.flitComes die h ∧
      1 ≤ n ∧
      v < 256 ^ n ∧
      s.dev.isFenced die mOliner = false ∧
      s.dev.olWindow die a n write = true ∧
      s.dev.region a = Region.pond k col off ∧
      s.dev.accessStatus die mOliner a n write = stDONE ∧
      s.dev.routeUp k die = true ∧
      s.dev.overBudget { die := die, master := mOliner, home := 0, addr := a, len := n, write := write, data := v, fixed := false, cls := h.cls, coreWords := [], work := none, remote := [h.src, t.id, t.gen, t.epoch] : Req } = false ∧
      s.dev.behindHeld { die := die, master := mOliner, home := 0, addr := a, len := n, write := write, data := v, fixed := false, cls := h.cls, coreWords := [], work := none, remote := [h.src, t.id, t.gen, t.epoch] : Req } = false ∧
      admits (s.dev.portQueue k col) (s.dev.label { die := die, master := mOliner, home := 0, addr := a, len := n, write := write, data := v, fixed := false, cls := h.cls, coreWords := [], work := none, remote := [h.src, t.id, t.gen, t.epoch] : Req }).1 = true) ∧
    (∃ (s : State) (die : Nat) (h : FlitHead) (a : Nat) (n : Nat) (k : Nat) (col : Nat) (off : Nat) (v : Nat) (write : Bool),
      s.dev.sound ∧
      s.dev.pond.ecc = [] ∧
      s.dev.pond.link = [] ∧
      die < 4 ∧
      s.dev.flitComes die h ∧
      1 ≤ n ∧
      v < 256 ^ n ∧
      s.dev.isFenced die mOliner = false ∧
      s.dev.olWindow die a n write = false ∧
      s.dev.serveWindow a n = false ∧
      s.dev.region a = Region.pond k col off ∧
      s.dev.on k DIE_CTL_UNMAPPED_STATUS_VALID = false) ∧
    (∃ (s : State) (die : Nat) (h : FlitHead) (t : TagId) (r : RemoteReq) (k : Nat) (e : Nat) (entry : Nat) (sd : Nat) (idx : Nat) (x : List Nat),
      s.dev.sound ∧
      s.dev.pond.ecc = [] ∧
      s.dev.pond.link = [] ∧
      die < 4 ∧
      s.dev.flitComes die h ∧
      tagEngine t.id = some (k, e) ∧
      s.dev.dmaRun k e = some (some (Work.slice sd idx), entry, x) ∧
      14 < x.length ∧
      dmRows x = 1 ∧
      dmDoneRows x = 0 ∧
      s.dev.waitingReq t 3 = some r ∧
      dmSrcRemote x = false ∧
      dmLength x ≤ dmDoneBytes x + 64) ∧
    (∃ (s : State) (die : Nat) (h : FlitHead) (t : TagId) (r : RemoteReq) (k : Nat) (e : Nat) (entry : Nat) (sd : Nat) (idx : Nat) (x : List Nat) (y : Tlb) (b : Nat) (n : Nat),
      s.dev.sound ∧
      s.dev.pond.ecc = [] ∧
      s.dev.pond.link = [] ∧
      die < 4 ∧
      s.dev.flitComes die h ∧
      tagEngine t.id = some (k, e) ∧
      s.dev.dmaRun k e = some (some (Work.slice sd idx), entry, x) ∧
      14 < x.length ∧
      dmRows x = 1 ∧
      dmDoneRows x = 0 ∧
      s.dev.waitingReq t 1 = some r ∧
      dmSrcRemote x = true ∧
      dmDoneBytes x = 0 ∧
      dmLength x = n ∧
      1 ≤ n ∧
      n ≤ 64 ∧
      r.len = n ∧
      dmDst x % 65536 + n ≤ 65536 ∧
      s.dev.on 0 XLATE_CTL_EN = true ∧
      s.dev.tlbHit k (mDma + e) 0 (dmDst x) = some y ∧
      y.pin = true ∧
      y.wr = true ∧
      b = y.pa + (dmDst x - y.va) ∧
      s.dev.accessStatus k (mDma + e) b n true = stDONE ∧
      s.dev.routeUp (s.dev.homeDie (s.dev.region b)) k = true) ∧
    (∃ (s : State) (die : Nat) (h : FlitHead) (sync : Nat),
      s.dev.sound ∧
      s.dev.pond.ecc = [] ∧
      s.dev.pond.link = [] ∧
      die < 4 ∧
      s.dev.flitComes die h ∧
      s.dev.isFenced die mOliner = false ∧
      s.dev.on die OLINER_CTL_SYNC_IN = true ∧
      s.dev.syncReserved sync = false ∧
      s.dev.routeUp die (sync / 16384) = true ∧
      s.dev.routeUp (sync / 16384) die = true) ∧
    (∃ (s : State) (die : Nat) (h : FlitHead) (seq : Nat) (a : RemoteAdd),
      s.dev.sound ∧
      s.dev.pond.ecc = [] ∧
      s.dev.pond.link = [] ∧
      die < 4 ∧
      s.dev.flitComes die h ∧
      List.find? (fun (a : RemoteAdd) => decide (a.die = die ∧ a.partner = h.src ∧ a.seq = seq ∧ ¬a.unresolved = true)) s.dev.err.radds = some a) ∧
    (∃ (s : State) (die : Nat) (h : FlitHead) (tail : Bool),
      s.dev.sound ∧
      s.dev.pond.ecc = [] ∧
      s.dev.pond.link = [] ∧
      die < 4 ∧
      s.dev.flitComes die h ∧
      h.hops = 15 ∧
      h.src < 65536 ∧
      (tail = false ∨ s.dev.syncOpGroup = none)) ∧
    (∃ (s : State) (die : Nat),
      s.dev.sound ∧
      s.dev.pond.ecc = [] ∧
      s.dev.pond.link = [] ∧
      die < 4 ∧
      s.dev.linkOn die = true ∧
      (s.dev.olPort die).replay = [] ∧
      (s.dev.olPort die).wait = []) :=
  ⟨⟨({ dev := win (up m0) } : State), 1, hh, tg, 0x48000010, 4, 1, 0, 16, 0, false,
      ⟨by decide +kernel, by decide +kernel⟩, by decide +kernel, by decide +kernel, by decide +kernel, by unfold Device.flitComes; decide +kernel, by decide +kernel⟩,
   ⟨({ dev := win (up m0) } : State), 1, hh, 0x20000, 4, 0, 0, 0x20000, 0x1020304, true,
      ⟨by decide +kernel, by decide +kernel⟩, by decide +kernel, by decide +kernel, by decide +kernel, by unfold Device.flitComes; decide +kernel, by decide +kernel⟩,
   ⟨({ dev := dma dW [rX, rq 3] (up m0) } : State), 1, hh, tg, rq 3, 1, 1, 2, 1, 3, dW,
      ⟨by decide +kernel, by decide +kernel⟩, by decide +kernel, by decide +kernel, by decide +kernel, by unfold Device.flitComes; decide +kernel, by decide +kernel⟩,
   ⟨({ dev := dma dR [rX, rq 1] (up m0) } : State), 1, hh, tg, rq 1, 1, 1, 2, 1, 3, dR, tl, 0x48000000, 8,
      ⟨by decide +kernel, by decide +kernel⟩, by decide +kernel, by decide +kernel, by decide +kernel, by unfold Device.flitComes; decide +kernel, by decide +kernel⟩,
   ⟨({ dev := (up m0).set 1 OLINER_CTL_SYNC_IN } : State), 1, hh, 16389,
      ⟨by decide +kernel, by decide +kernel⟩, by decide +kernel, by decide +kernel, by decide +kernel, by unfold Device.flitComes; decide +kernel, by decide +kernel⟩,
   ⟨({ dev := ads [rb, ra] (up m0) } : State), 1, hh, 77, ra,
      ⟨by decide +kernel, by decide +kernel⟩, by decide +kernel, by decide +kernel, by decide +kernel, by unfold Device.flitComes; decide +kernel, by decide +kernel⟩,
   ⟨({ dev := up m0 } : State), 1, hh, true,
      ⟨by decide +kernel, by decide +kernel⟩, by decide +kernel, by decide +kernel, by decide +kernel, by unfold Device.flitComes; decide +kernel, by decide +kernel⟩,
   ⟨({ dev := pt { p1 with replay := [] } (up m0) } : State), 1,
      ⟨by decide +kernel, by decide +kernel⟩, by decide +kernel⟩⟩

theorem witness_LinksRetryAndFail :
    (∃ (s : State) (die : Nat),
      s.dev.sound ∧
      die < 4 ∧
      2 ≤ s.dev.rd die OLINER_STATUS_STATE) ∧
    (∃ (s : State) (die : Nat),
      s.dev.sound ∧
      die < 4 ∧
      s.dev.rd die OLINER_STATUS_STATE < 2) ∧
    (∃ (s : State) (die : Nat) (f : ℕ × ℕ × List ℕ),
      s.dev.sound ∧
      die < 4 ∧
      s.dev.linkOn die = true ∧
      (s.dev.olPort die).replay = [f]) ∧
    (∃ (s : State) (die : Nat) (n : Nat),
      s.dev.sound ∧
      die < 4 ∧
      s.dev.linkOn die = true ∧
      (s.dev.olPort die).replay ≠ [] ∧
      (s.dev.olPort die).retries + 1 < 8 ∧
      (∀ f ∈ (s.dev.olPort die).replay, f.1 ≠ n)) ∧
    (∃ (s : State) (die : Nat),
      s.dev.sound ∧
      die < 4 ∧
      s.dev.rd die OLINER_STATUS_STATE = 2 ∧
      (s.dev.olPort die).training = false ∧
      (s.dev.olPort die).replay ≠ [] ∧
      7 ≤ (s.dev.olPort die).retries) ∧
    (∃ (s : State) (die : Nat),
      s.dev.sound ∧
      die < 4 ∧
      (s.dev.olPort die).training = true ∧
      s.dev.rd die OLINER_STATUS_STATE ≠ 3 ∧
      (s.dev.olPort die).replay = [] ∧
      (s.dev.olPort die).wait = [] ∧
      s.dev.err.radds = [] ∧
      s.dev.drainOf die = none ∧
      s.dev.eft.weights = none) ∧
    (∃ (s : State) (die : Nat),
      s.dev.sound ∧
      die < 4 ∧
      s.dev.on die OLINER_CTL_EN = true ∧
      (s.dev.olPort die).training = false ∧
      (s.dev.rd die OLINER_STATUS_STATE = 0 ∨ s.dev.rd die OLINER_STATUS_STATE = 3)) ∧
    (∃ (s : State) (die : Nat),
      s.dev.sound ∧
      die < 4 ∧
      3 ≤ (s.dev.olPort die).misses ∧
      (s.dev.rd die OLINER_STATUS_STATE = 1 ∨ s.dev.rd die OLINER_STATUS_STATE = 2) ∧
      s.dev.oliner.reqs = [] ∧
      s.dev.coll.active = [] ∧
      s.dev.rd 0 CHORUS_CTL_SOURCE ≠ 1 ∧
      s.dev.syncOpGroup = none) :=
  ⟨⟨({ dev := up m0 } : State), 1,
      ⟨by decide +kernel, by decide +kernel⟩, by decide +kernel⟩,
   ⟨({ dev := m0 } : State), 1,
      ⟨by decide +kernel, by decide +kernel⟩, by decide +kernel⟩,
   ⟨({ dev := pt p1 (up m0) } : State), 1, f1,
      ⟨by decide +kernel, by decide +kernel⟩, by decide +kernel⟩,
   ⟨({ dev := pt p2 (up m0) } : State), 1, 9,
      ⟨by decide +kernel, by decide +kernel⟩, by decide +kernel⟩,
   ⟨({ dev := pt { p2 with retries := 7 } (up m0) } : State), 1,
      ⟨by decide +kernel, by decide +kernel⟩, by decide +kernel⟩,
   ⟨({ dev := pt { p1 with replay := [], retries := 4, training := true } (m0.wr 1 OLINER_STATUS_STATE 1) } : State), 1,
      ⟨by decide +kernel, by decide +kernel⟩, by decide +kernel⟩,
   ⟨({ dev := pt p2 (m0.set 1 OLINER_CTL_EN) } : State), 1,
      ⟨by decide +kernel, by decide +kernel⟩, by decide +kernel⟩,
   ⟨({ dev := ads [ra, rb, { ra with die := 2 }] (pt { p2 with misses := 3, beats := 4 } (up m0)) } : State), 1,
      ⟨by decide +kernel, by decide +kernel⟩, by decide +kernel⟩⟩

end G11

/-! States for EthernetCommands, PcieCommands. -/

namespace G12

def e0 : Device := {}
def poke (l : List (Nat × Nat)) (d : Device) : Device := { d with mem := SMap.insAll ((l.filter fun x => x.2 ≠ 0).map fun x => (x.1, (x.2 : Byte))) d.mem }
def bytesAt (a : Nat) (v n : Nat) : List (Nat × Nat) := (List.range n).map fun i => (a + i, v / 256 ^ i % 256)
def m0 : Device := poke [(0x10, 1), (0x13, 7), (0x14, 9)] e0
def on (d : Device) : Device := d.set 0 PCIE_CTL_EN
def win (d : Device) : Device := (((d.set 0 (PCIE_WIN_HI_EN 0)).set 0 (PCIE_WIN_HI_RD 0)).set 0 (PCIE_WIN_HI_WR 0)).wr 0 (PCIE_WIN_HI_LOG2_SIZE 0) 20
def vec (x : Msix) (d : Device) : Device := d.setMsix 0 5 x
def rp (d : Device) : Device := ((d.set 0 PCIE_CTL_ROLE).wr 0 PCIE_MBOX_DATA_DATA 77).wr 0 PCIE_MBOX_ADDR_LO_ADDR 9
def busy (d : Device) : Device := (rp d).set 0 PCIE_MBOX_CMD_BUSY
def q (d : Device) : Device := ((((d.set 1 (ENET_CTL_HQ_EN 1)).set 1 (ENET_CTL_LINK_UP 1)).wr 1 (ENET_HQ_BASE_LO_ADDR 1) 0x48000000).wr 1 (ENET_HQ_CTL_LOG2 1) 1).wr 1 (ENET_HQ_CTL_RX_HEAD 1) 0
def desc (v : Nat) (d : Device) : Device := (poke (bytesAt (0x48000000 + 18448 * 2) v 16 ++ [(0x48000000 + 18432, 1), (0x48000000 + 18432 + 13, 5)]) (q d)).wr 1 (ENET_HQ_TX_TX_TAIL 1) 1
def gcl (d : Device) : Device := ((((d.set 1 (ENET_CTL_QBV_EN 1)).wr 1 (ENET_QBV_GCL1_NS 0) 100).wr 1 (ENET_QBV_GCL1_GATES 0) 3).wr 1 (ENET_QBV_GCL1_NS 7) 50)
def fr : List Nat := [1, 2, 3, 4, 5, 6, 7, 8, 9, 10, 11, 12, 8, 6, 300, 16] ++ List.replicate 46 7

theorem witness_EthernetCommands :
    (∃ (s : State) (die : Nat) (p : Nat) (b : List Nat),
      s.dev.sound ∧
      s.dev.pond.ecc = [] ∧
      s.dev.pond.link = [] ∧
      die < 4 ∧
      p < 2 ∧
      s.dev.ethFenced die p = false ∧
      s.dev.inStart = false ∧
      (b.length < 60 ∨ 9212 < b.length)) ∧
    (∃ (s : State) (die : Nat) (p : Nat) (b : List Nat),
      s.dev.sound ∧
      s.dev.pond.ecc = [] ∧
      s.dev.pond.link = [] ∧
      die < 4 ∧
      p < 2 ∧
      s.dev.ethFenced die p = false ∧
      s.dev.inStart = false ∧
      s.dev.on 0 CHORUS_CTL_GPTP_EN = false ∧
      udpOf b = none ∧
      s.dev.on die (ENET_CTL_HQ_EN p) = true ∧
      60 ≤ b.length ∧
      b.length ≤ 9212 ∧
      s.dev.rd die (ENET_HQ_CTL_RX_TAIL p) < s.dev.hqN die p ∧
      s.dev.inPondOrLp (s.dev.hqBase die p) (18464 * s.dev.hqN die p) = true ∧
      (s.dev.rd die (ENET_HQ_CTL_RX_TAIL p) + 1) % s.dev.hqN die p = s.dev.rd die (ENET_HQ_CTL_RX_HEAD p)) ∧
    (∃ (s : State) (die : Nat) (p : Nat) (b : List Nat),
      s.dev.sound ∧
      s.dev.pond.ecc = [] ∧
      s.dev.pond.link = [] ∧
      die < 4 ∧
      p < 2 ∧
      s.dev.ethFenced die p = false ∧
      s.dev.inStart = false ∧
      s.dev.on 0 CHORUS_CTL_GPTP_EN = false ∧
      udpOf b = none ∧
      s.dev.on die (ENET_CTL_HQ_EN p) = true ∧
      60 ≤ b.length ∧
      b.length ≤ 9212 ∧
      s.dev.rd die (ENET_HQ_CTL_RX_TAIL p) < s.dev.hqN die p ∧
      s.dev.inPondOrLp (s.dev.hqBase die p) (18464 * s.dev.hqN die p) = true ∧
      (s.dev.rd die (ENET_HQ_CTL_RX_TAIL p) + 1) % s.dev.hqN die p ≠ s.dev.rd die (ENET_HQ_CTL_RX_HEAD p) ∧
      s.dev.rd die (ENET_HQ_MSI_LO_VALUE p) = 0 ∧ s.dev.rd die (ENET_HQ_MSI_HI_VALUE p) = 0 ∧
      s.dev.accessStatus die mManage (s.dev.hqRxBuf die p (s.dev.rd die (ENET_HQ_CTL_RX_TAIL p))) b.length true = stDONE ∧ s.dev.routeUp (s.dev.homeDie (s.dev.region (s.dev.hqRxBuf die p (s.dev.rd die (ENET_HQ_CTL_RX_TAIL p))))) die = true ∧
      s.dev.accessStatus die mManage (s.dev.hqRxDesc die p (s.dev.rd die (ENET_HQ_CTL_RX_TAIL p))) 16 true = stDONE ∧ s.dev.routeUp (s.dev.homeDie (s.dev.region (s.dev.hqRxDesc die p (s.dev.rd die (ENET_HQ_CTL_RX_TAIL p))))) die = true) ∧
    (∃ (s : State) (die : Nat) (p : Nat),
      s.dev.sound ∧
      s.dev.pond.ecc = [] ∧
      s.dev.pond.link = [] ∧
      die < 4 ∧
      p < 2 ∧
      s.dev.ethFenced die p = false ∧
      s.dev.on die (ENET_CTL_HQ_EN p) = true ∧
      s.dev.on die (ENET_CTL_LINK_UP p) = true ∧
      s.dev.rd die (ENET_HQ_TX_TX_HEAD p) ≠ s.dev.rd die (ENET_HQ_TX_TX_TAIL p) ∧
      s.dev.rd die (ENET_HQ_TX_TX_HEAD p) < s.dev.hqN die p ∧
      s.dev.inPondOrLp (s.dev.hqBase die p) (18464 * s.dev.hqN die p) = true ∧
      s.dev.accessStatus die mManage (s.dev.hqTxDesc die p (s.dev.rd die (ENET_HQ_TX_TX_HEAD p))) 16 false = stDONE ∧ s.dev.routeUp (s.dev.homeDie (s.dev.region (s.dev.hqTxDesc die p (s.dev.rd die (ENET_HQ_TX_TX_HEAD p))))) die = true ∧
      s.dev.accessStatus die mManage (s.dev.hqTxDesc die p (s.dev.rd die (ENET_HQ_TX_TX_HEAD p)) + 3) 1 true = stDONE ∧ s.dev.routeUp (s.dev.homeDie (s.dev.region (s.dev.hqTxDesc die p (s.dev.rd die (ENET_HQ_TX_TX_HEAD p)) + 3))) die = true ∧
      s.dev.readData (s.dev.hqTxDesc die p (s.dev.rd die (ENET_HQ_TX_TX_HEAD p))) 16 / 2 ^ 16 % 2 = 0 ∧
      14 ≤ s.dev.readData (s.dev.hqTxDesc die p (s.dev.rd die (ENET_HQ_TX_TX_HEAD p))) 16 % 2 ^ 16 ∧
      s.dev.readData (s.dev.hqTxDesc die p (s.dev.rd die (ENET_HQ_TX_TX_HEAD p))) 16 % 2 ^ 16 ≤ 9212 ∧
      s.dev.gateLets die p (s.dev.readData (s.dev.hqTxDesc die p (s.dev.rd die (ENET_HQ_TX_TX_HEAD p))) 16 / 2 ^ 17 % 8) (max (s.dev.readData (s.dev.hqTxDesc die p (s.dev.rd die (ENET_HQ_TX_TX_HEAD p))) 16 % 2 ^ 16) 60) = true ∧
      s.dev.accessStatus die mManage (s.dev.hqTxBuf die p (s.dev.rd die (ENET_HQ_TX_TX_HEAD p))) (s.dev.readData (s.dev.hqTxDesc die p (s.dev.rd die (ENET_HQ_TX_TX_HEAD p))) 16 % 2 ^ 16) false = stDONE ∧ s.dev.routeUp (s.dev.homeDie (s.dev.region (s.dev.hqTxBuf die p (s.dev.rd die (ENET_HQ_TX_TX_HEAD p))))) die = true) ∧
    (∃ (s : State) (die : Nat) (p : Nat),
      s.dev.sound ∧
      s.dev.pond.ecc = [] ∧
      s.dev.pond.link = [] ∧
      die < 4 ∧
      p < 2 ∧
      s.dev.on die (ENET_CTL_QBV_EN p) = true ∧
      s.dev.rd die (ENET_QBV_BASE_LO_NS p) + 2 ^ 32 * s.dev.rd die (ENET_QBV_BASE_HI_NS p) ≤ s.dev.chorus.time ∧
      (List.map (fun (x : ℕ) => x % 2 ^ 24) (s.dev.gclWords die p)).sum = s.dev.rd die (ENET_QBV_CYCLE_NS p) ∧
      0 < s.dev.rd die (ENET_QBV_CYCLE_NS p)) ∧
    (∃ (s : State) (die : Nat) (p : Nat),
      s.dev.sound ∧
      s.dev.pond.ecc = [] ∧
      s.dev.pond.link = [] ∧
      die < 4 ∧
      p < 2 ∧
      s.dev.on die (ENET_CTL_QBV_EN p) = true ∧
      s.dev.rd die (ENET_QBV_BASE_LO_NS p) + 2 ^ 32 * s.dev.rd die (ENET_QBV_BASE_HI_NS p) ≤ s.dev.chorus.time ∧
      (List.map (fun (x : ℕ) => x % 2 ^ 24) (s.dev.gclWords die p)).sum ≠ s.dev.rd die (ENET_QBV_CYCLE_NS p)) ∧
    (∃ (s : State) (die : Nat) (p : Nat),
      s.dev.sound ∧
      s.dev.pond.ecc = [] ∧
      s.dev.pond.link = [] ∧
      die < 4 ∧
      p < 2 ∧
      s.dev.drainOf die = none) :=
  ⟨⟨({ dev := q m0 } : State), 1, 1, fr.take 9,
      ⟨by decide +kernel, by decide +kernel⟩, by decide +kernel⟩,
   ⟨({ dev := (q m0).wr 1 (ENET_HQ_CTL_RX_TAIL 1) 1 } : State), 1, 1, fr,
      ⟨by decide +kernel, by decide +kernel⟩, by decide +kernel⟩,
   ⟨({ dev := q m0 } : State), 1, 1, fr,
      ⟨by decide +kernel, by decide +kernel⟩, by decide +kernel⟩,
   ⟨({ dev := desc 14 m0 } : State), 1, 1,
      ⟨by decide +kernel, by decide +kernel⟩, by decide +kernel⟩,
   ⟨({ dev := (gcl m0).wr 1 (ENET_QBV_CYCLE_NS 1) 150 } : State), 1, 1,
      ⟨by decide +kernel, by decide +kernel⟩, by decide +kernel⟩,
   ⟨({ dev := (gcl m0).wr 1 (ENET_QBV_CYCLE_NS 1) 151 } : State), 1, 1,
      ⟨by decide +kernel, by decide +kernel⟩, by decide +kernel⟩,
   ⟨({ dev := (gcl m0).wr 1 (ENET_QBV_CYCLE_NS 1) 151 } : State), 1, 1,
      ⟨by decide +kernel, by decide +kernel⟩, by decide +kernel⟩⟩

theorem witness_PcieCommands :
    (∃ (s : State) (die : Nat) (off : Nat) (a : Nat) (n : Nat) (k : Nat) (col : Nat) (o : Nat) (v : Nat) (tag : Nat) (write : Bool),
      s.dev.sound ∧
      s.dev.pond.ecc = [] ∧
      s.dev.pond.link = [] ∧
      (die = 0 ∨ die = 2) ∧
      s.dev.pcieOn die = true ∧
      s.dev.on 0 EFT_BOOT_STATUS_FAILED = false ∧
      1 ≤ n ∧
      v < 256 ^ n ∧
      s.dev.isFenced die mPcie = false ∧
      s.dev.region a = Region.pond k col o ∧
      s.dev.accessStatus die mPcie a n write = stDONE ∧
      s.dev.routeUp k die = true ∧
      s.dev.overBudget { die := die, master := mPcie, home := 0, addr := a, len := n, write := write, data := v, fixed := false, cls := 0, coreWords := [], work := none, remote := [tag] : Req } = false ∧
      s.dev.behindHeld { die := die, master := mPcie, home := 0, addr := a, len := n, write := write, data := v, fixed := false, cls := 0, coreWords := [], work := none, remote := [tag] : Req } = false ∧
      admits (s.dev.portQueue k col) (s.dev.label { die := die, master := mPcie, home := 0, addr := a, len := n, write := write, data := v, fixed := false, cls := 0, coreWords := [], work := none, remote := [tag] : Req }).1 = true ∧
      s.dev.pcieWindow die off n write = some a) ∧
    (∃ (s : State) (die : Nat) (off : Nat) (n : Nat) (write : Bool),
      s.dev.sound ∧
      s.dev.pond.ecc = [] ∧
      s.dev.pond.link = [] ∧
      (die = 0 ∨ die = 2) ∧
      s.dev.pcieOn die = true ∧
      s.dev.on 0 EFT_BOOT_STATUS_FAILED = false ∧
      s.dev.pcieWindow die off n write = none) ∧
    (∃ (s : State) (die : Nat) (v : Nat) (x : Nat),
      s.dev.sound ∧
      s.dev.pond.ecc = [] ∧
      s.dev.pond.link = [] ∧
      (die = 0 ∨ die = 2) ∧
      s.dev.pcieOn die = true ∧
      s.dev.on 0 EFT_BOOT_STATUS_FAILED = false ∧
      v < 64 ∧
      s.dev.on die PCIE_CTL_ROLE = false ∧
      (s.dev.msix die v).pend = true ∧
      x % 2 = 0) ∧
    (∃ (s : State) (die : Nat) (op : Nat) (c : Instr),
      s.dev.sound ∧
      s.dev.pond.ecc = [] ∧
      s.dev.pond.link = [] ∧
      (die = 0 ∨ die = 2) ∧
      (op, c) ∈ [(0, Instr.pcieConfigRead die), (1, Instr.pcieConfigWrite die), (2, Instr.pcieMemoryRead die), (3, Instr.pcieMemoryWrite die)] ∧
      s.dev.on die PCIE_MBOX_CMD_BUSY = true) ∧
    (∃ (s : State) (die : Nat) (op : Nat) (c : Instr),
      s.dev.sound ∧
      s.dev.pond.ecc = [] ∧
      s.dev.pond.link = [] ∧
      (die = 0 ∨ die = 2) ∧
      (op, c) ∈ [(0, Instr.pcieConfigRead die), (1, Instr.pcieConfigWrite die), (2, Instr.pcieMemoryRead die), (3, Instr.pcieMemoryWrite die)] ∧
      s.dev.on die PCIE_MBOX_CMD_BUSY = false ∧
      s.dev.on die PCIE_CTL_ROLE = false) ∧
    (∃ (s : State) (die : Nat) (op : Nat) (c : Instr),
      s.dev.sound ∧
      s.dev.pond.ecc = [] ∧
      s.dev.pond.link = [] ∧
      (die = 0 ∨ die = 2) ∧
      (op, c) ∈ [(0, Instr.pcieConfigRead die), (1, Instr.pcieConfigWrite die), (2, Instr.pcieMemoryRead die), (3, Instr.pcieMemoryWrite die)] ∧
      s.dev.on die PCIE_MBOX_CMD_BUSY = false ∧
      s.dev.on die PCIE_CTL_ROLE = true ∧
      s.dev.on 0 EFT_BOOT_STATUS_READY = true) ∧
    (∃ (s : State) (die : Nat) (width : Nat) (speed : Nat),
      s.dev.sound ∧
      s.dev.pond.ecc = [] ∧
      s.dev.pond.link = [] ∧
      (die = 0 ∨ die = 2) ∧
      s.dev.drainOf die = none ∧
      width < 4 ∧
      speed < 16) :=
  ⟨⟨({ dev := win (on m0) } : State), 0, 0x10, 0x10, 4, 0, 0, 16, 0, 9, false,
      ⟨by decide +kernel, by decide +kernel⟩, by decide +kernel⟩,
   ⟨({ dev := win (on m0) } : State), 0, 0x200000, 4, true,
      ⟨by decide +kernel, by decide +kernel⟩, by decide +kernel⟩,
   ⟨({ dev := vec { addr := 0x10, data := 7, mask := true, pend := true } (on m0) } : State), 0, 5, 2^32 + 10,
      ⟨by decide +kernel, by decide +kernel⟩, by decide +kernel⟩,
   ⟨({ dev := busy m0 } : State), 0, 3, .pcieMemoryWrite 0,
      ⟨by decide +kernel, by decide +kernel⟩, by decide +kernel⟩,
   ⟨({ dev := m0 } : State), 0, 0, .pcieConfigRead 0,
      ⟨by decide +kernel, by decide +kernel⟩, by decide +kernel⟩,
   ⟨({ dev := (rp m0).set 0 EFT_BOOT_STATUS_READY } : State), 0, 1, .pcieConfigWrite 0,
      ⟨by decide +kernel, by decide +kernel⟩, by decide +kernel⟩,
   ⟨({ dev := m0 } : State), 0, 3, 15,
      ⟨by decide +kernel, by decide +kernel⟩, by decide +kernel⟩⟩

end G12

/-! States for FieldCommands. -/

namespace G13

def e0 : Device := {}
def can (d : Device) : Device := (((d.set 0 (LSIO_CAN_CFG_EN 2)).set 0 (LSIO_CAN_FLT_ID_EN (2 * 64 + 5))).wr 0 (LSIO_CAN_FLT_ID_ID (2 * 64 + 5)) 0x123).wr 0 (LSIO_CAN_FLT_MASK_MASK (2 * 64 + 5)) 0x7FF
def ls (f : LsioSt → LsioSt) (d : Device) : Device := d.setLsio (f d.lsio)
def spi (d : Device) : Device := ((d.set 0 (LSIO_SPI_CFG_EN 2)).set 0 (LSIO_SPI_SLOT_EN (2 * 16 + 3))).wr 0 (LSIO_SPI_SLOT_TRIG (2 * 16 + 3)) 3
def fr : CanFrame := ⟨2^32 + 5, 1, false, 0x123, [1, 2, 3]⟩
def full : List Nat := List.replicate 64 9

theorem witness_FieldCommands_1 :
    (∃ (s : State) (n : Nat) (fmt : Nat) (f : Nat) (id : Nat) (ext : Bool) (data : List Nat),
      s.dev.sound ∧
      s.dev.on 0 (LSIO_CAN_CFG_EN n) = true ∧
      s.dev.canFenced n = false ∧
      s.dev.canTakes n fmt data.length = true ∧
      s.dev.on 0 (LSIO_CAN_CFG_LOOP n) = false ∧
      s.dev.canFilter n fmt ext id = some f) ∧
    (∃ (s : State) (n : Nat) (value : Nat),
      s.dev.sound ∧
      value / 2 ^ 31 % 2 = 1 ∧
      s.dev.canMapped (n * 32 + value % 32) = true) ∧
    (∃ (s : State) (n : Nat) (value : Nat),
      s.dev.sound ∧
      value / 2 ^ 31 % 2 = 1 ∧
      s.dev.canMapped (n * 32 + value % 32) = false ∧
      s.dev.lsio.canQ.contains (n * 32 + value % 32) = false ∧
      s.dev.canFenced n = false) ∧
    (∃ (s : State) (n : Nat) (k : Nat),
      s.dev.sound ∧
      (∀ j < k, s.dev.lsio.canQ.contains (n * 32 + j) = false) ∧
      k < 32 ∧
      s.dev.lsio.canQ.contains (n * 32 + k) = true ∧
      s.dev.on 0 (LSIO_CAN_CFG_LISTEN n) = false ∧
      s.dev.on 0 (LSIO_CAN_CFG_LOOP n) = false ∧
      s.dev.canTakes n (s.dev.rd 0 (LSIO_CANTX_HDR_FMT (n * 32 + k))) (s.dev.canBytes (n * 32 + k)).length = true) ∧
    (∃ (s : State) (f : CanFrame),
      s.dev.sound ∧
      SMap.get none s.dev.lsio.canRx (s.dev.rd 0 LSIO_CAN_RX_SEL_CHANNEL * 64 + s.dev.rd 0 LSIO_CAN_RX_SEL_FILTER) = some f) ∧
    (∃ (s : State) (n : Nat) (k : Nat),
      s.dev.sound ∧
      s.dev.on 0 (LSIO_SPI_CFG_EN n) = true ∧
      s.dev.on 0 (LSIO_SPI_SLOT_EN (n * 16 + k)) = true ∧
      k < 16 ∧
      SMap.get none s.dev.lsio.spiRun n ≠ none ∧
      (SMap.get [] s.dev.lsio.spiQ n).contains k = false) ∧
    (∃ (s : State) (n : Nat) (k : Nat),
      s.dev.sound ∧
      s.dev.on 0 (LSIO_SPI_CFG_EN n) = true ∧
      s.dev.on 0 (LSIO_SPI_SLOT_EN (n * 16 + k)) = true ∧
      k < 16 ∧
      (SMap.get [] s.dev.lsio.spiQ n).contains k = true) :=
  ⟨⟨({ dev := can e0 } : State), 2, 0, 5, 0x123, false, [1, 2],
      ⟨by decide +kernel, by decide +kernel⟩, by decide +kernel⟩,
   ⟨({ dev := (e0.wr 0 (LSIO_OUT_MAP_KIND 3) 1).wr 0 (LSIO_OUT_MAP_UNIT 3) 2 } : State), 2, 2^31,
      ⟨by decide +kernel, by decide +kernel⟩, by decide +kernel⟩,
   ⟨({ dev := can e0 } : State), 2, 2^31 + 31,
      ⟨by decide +kernel, by decide +kernel⟩, by decide +kernel⟩,
   ⟨({ dev := ls (fun l => { l with canQ := [70, 69, 3], canLen := [(69, 2)], canTx := [(69 * 2048, 7)] }) (can e0) } : State), 2, 5,
      ⟨by decide +kernel, by decide +kernel⟩, by decide +kernel⟩,
   ⟨({ dev := ((ls (fun l => { l with canRx := [(2 * 64 + 5, some fr)] }) e0).wr 0 LSIO_CAN_RX_SEL_CHANNEL 2).wr 0 LSIO_CAN_RX_SEL_FILTER 5 } : State), fr,
      ⟨by decide +kernel, by decide +kernel⟩, by decide +kernel⟩,
   ⟨({ dev := ls (fun l => { l with spiRun := [(2, some 1)], spiQ := [(2, [4])] }) (spi e0) } : State), 2, 3,
      ⟨by decide +kernel, by decide +kernel⟩, by decide +kernel⟩,
   ⟨({ dev := ls (fun l => { l with spiRun := [(2, some 1)], spiQ := [(2, [4, 3])] }) (spi e0) } : State), 2, 3,
      ⟨by decide +kernel, by decide +kernel⟩, by decide +kernel⟩⟩

theorem witness_FieldCommands_2 :
    (∃ (s : State) (n : Nat) (k : Nat),
      s.dev.sound ∧
      s.dev.on 0 (LSIO_SPI_CFG_EN n) = true ∧
      s.dev.on 0 (LSIO_SPI_SLOT_EN (n * 16 + k)) = true ∧
      k < 16 ∧
      SMap.get none s.dev.lsio.spiRun n = none ∧
      SMap.get [] s.dev.lsio.spiQ n = [] ∧
      n < 8 ∧
      s.dev.rd 0 (LSIO_SPI_SLOT_TRIG (n * 16 + k)) = 3) ∧
    (∃ (s : State) (n : Nat) (k : Nat),
      s.dev.sound ∧
      SMap.get none s.dev.lsio.spiRun n = some k ∧
      k < 16 ∧
      (4 ≤ n ∨ k ≠ 0) ∧
      SMap.get [] s.dev.lsio.spiQ n = [] ∧
      s.dev.rd 0 (LSIO_SPI_SLOT_WORDS_M1 (n * 16 + k)) < 16) ∧
    (∃ (s : State) (n : Nat) (value : Nat),
      s.dev.sound ∧
      value / 2 ^ 30 % 2 = 1 ∧
      s.dev.on 0 (LSIO_I2C_CMD_BUSY n) = true) ∧
    (∃ (s : State) (n : Nat) (value : Nat),
      s.dev.sound ∧
      value / 2 ^ 30 % 2 = 1 ∧
      s.dev.on 0 (LSIO_I2C_CMD_BUSY n) = false ∧
      s.dev.on 0 (LSIO_I2C_CFG_EN n) = true) ∧
    (∃ (s : State) (n : Nat) (b : Nat) (q : List Nat),
      s.dev.sound ∧
      SMap.get [] s.dev.lsio.i2cRx n = b :: q) ∧
    (∃ (s : State) (n : Nat),
      s.dev.sound ∧
      64 ≤ (SMap.get [] s.dev.lsio.uartTx n).length) ∧
    (∃ (s : State) (n : Nat),
      s.dev.sound ∧
      (SMap.get [] s.dev.lsio.uartTx n).length < 64) :=
  ⟨⟨({ dev := (spi e0).wr 0 (LSIO_SPI_SLOT_WORDS_M1 (2 * 16 + 3)) 15 } : State), 2, 3,
      ⟨by decide +kernel, by decide +kernel⟩, by decide +kernel⟩,
   ⟨({ dev := ls (fun l => { l with spiRun := [(2, some 3)] }) ((spi e0).wr 0 (LSIO_SPI_SLOT_WORDS_M1 (2 * 16 + 3)) 15) } : State), 2, 3,
      ⟨by decide +kernel, by decide +kernel⟩, by decide +kernel⟩,
   ⟨({ dev := e0.set 0 (LSIO_I2C_CMD_BUSY 1) } : State), 1, 2^30,
      ⟨by decide +kernel, by decide +kernel⟩, by decide +kernel⟩,
   ⟨({ dev := e0.set 0 (LSIO_I2C_CFG_EN 1) } : State), 1, 2^30 + 31 * 2^16 + 1023,
      ⟨by decide +kernel, by decide +kernel⟩, by decide +kernel⟩,
   ⟨({ dev := ls (fun l => { l with i2cRx := [(1, [9, 8])] }) e0 } : State), 1, 9, [8],
      ⟨by decide +kernel, by decide +kernel⟩, by decide +kernel⟩,
   ⟨({ dev := ls (fun l => { l with uartTx := [(1, full)] }) e0 } : State), 1,
      ⟨by decide +kernel, by decide +kernel⟩, by decide +kernel⟩,
   ⟨({ dev := ls (fun l => { l with uartTx := [(1, full.drop 1)] }) e0 } : State), 1,
      ⟨by decide +kernel, by decide +kernel⟩, by decide +kernel⟩⟩

theorem witness_FieldCommands_3 :
    (∃ (s : State) (n : Nat) (b : Nat) (q : List Nat),
      s.dev.sound ∧
      SMap.get [] s.dev.lsio.uartRx n = b :: q ∧
      q.length < 64) ∧
    (∃ (s : State) (n : Nat),
      s.dev.sound ∧
      s.dev.on 0 (LSIO_UART_CFG_EN n) = true ∧
      64 ≤ (SMap.get [] s.dev.lsio.uartRx n).length) ∧
    (∃ (s : State) (n : Nat),
      s.dev.sound ∧
      s.dev.on 0 (LSIO_UART_CFG_EN n) = true ∧
      (SMap.get [] s.dev.lsio.uartRx n).length < 64) ∧
    (∃ (s : State) (n : Nat) (b : Nat) (q : List Nat),
      s.dev.sound ∧
      s.dev.on 0 (LSIO_UART_CFG_EN n) = true ∧
      SMap.get [] s.dev.lsio.uartTx n = b :: q) ∧
    (∃ (s : State) (n : Nat) (both : Bool),
      s.dev.sound ∧
      s.dev.on 0 (LSIO_QEI_CFG_EN n) = true ∧
      both = true ∧
      s.dev.on 0 (LSIO_QEI_CFG_MODE n) = false) ∧
    (∃ (s : State) (n : Nat) (both : Bool),
      s.dev.sound ∧
      s.dev.on 0 (LSIO_QEI_CFG_EN n) = true ∧
      (both = false ∨ s.dev.on 0 (LSIO_QEI_CFG_MODE n) = true)) :=
  ⟨⟨({ dev := ls (fun l => { l with uartRx := [(1, full)] }) e0 } : State), 1, 9, full.drop 1,
      ⟨by decide +kernel, by decide +kernel⟩, by decide +kernel⟩,
   ⟨({ dev := ls (fun l => { l with uartRx := [(1, full)] }) (e0.set 0 (LSIO_UART_CFG_EN 1)) } : State), 1,
      ⟨by decide +kernel, by decide +kernel⟩, by decide +kernel⟩,
   ⟨({ dev := ls (fun l => { l with uartRx := [(1, [5])] }) (e0.set 0 (LSIO_UART_CFG_EN 1)) } : State), 1,
      ⟨by decide +kernel, by decide +kernel⟩, by decide +kernel⟩,
   ⟨({ dev := ls (fun l => { l with uartTx := [(1, [5, 6])] }) (e0.set 0 (LSIO_UART_CFG_EN 1)) } : State), 1, 5, [6],
      ⟨by decide +kernel, by decide +kernel⟩, by decide +kernel⟩,
   ⟨({ dev := e0.set 0 (LSIO_QEI_CFG_EN 1) } : State), 1, true,
      ⟨by decide +kernel, by decide +kernel⟩, by decide +kernel⟩,
   ⟨({ dev := e0.set 0 (LSIO_QEI_CFG_EN 1) } : State), 1, false,
      ⟨by decide +kernel, by decide +kernel⟩, by decide +kernel⟩⟩

end G13

/-! States for PowerCommands. -/

namespace G14

def e0 : Device := {}
def b (x : BaskSt) : Device := { e0 with bask := x }
def runS (d : Device) : Device := (d.wr 0 SAFETY_STATUS_TAIL_STATE 0).wr 1 SAFETY_STATUS_TAIL_STATE 1
def calD (x : BaskSt) : Device := (List.range 4).foldl (fun d k => d.wr k BASK_STATUS_GRANT 3) ((b x).set 0 (BASK_RAIL_EN 3))

theorem witness_PowerCommands_1 :
    (∃ (s : State) (die : Nat),
      s.dev.sound ∧
      die ≠ 0) ∧
    (∃ (s : State) (v : Nat),
      s.dev.sound ∧
      200 ≤ v % 2048 ∧
      v % 2048 ≤ 1600) ∧
    (∃ (s : State) (v : Nat),
      s.dev.sound ∧
      (v % 2048 < 200 ∨ 1600 < v % 2048)) ∧
    (∃ (s : State),
      s.dev.sound ∧
      s.dev.calOn = false) ∧
    (∃ (s : State) (k : Nat),
      s.dev.sound ∧
      k < 8 ∧
      s.dev.calOn = true ∧
      (∀ n < 8, s.dev.on 0 (BASK_RAIL_EN n) = decide (n = k)) ∧
      SMap.get 0 s.dev.bask.railSum k ≠ 0) ∧
    (∃ (s : State) (die : Nat) (c : Nat) (codes : List Nat),
      s.dev.sound ∧
      die < 4 ∧
      c < 460 ∧
      (∃ k < 112, wd codes k = c) ∧
      (∀ k < 112, wd codes k ≤ c ∧ SMap.get { : Sensor } s.dev.bask.sensors (die * 128 + k) = { : Sensor })) :=
  ⟨⟨({ dev := e0 } : State), 1,
      ⟨by decide +kernel, by decide +kernel⟩, by decide +kernel⟩,
   ⟨({ dev := e0 } : State), 300,
      ⟨by decide +kernel, by decide +kernel⟩, by decide +kernel⟩,
   ⟨({ dev := e0 } : State), 0,
      ⟨by decide +kernel, by decide +kernel⟩, by decide +kernel⟩,
   ⟨({ dev := e0 } : State),
      ⟨by decide +kernel, by decide +kernel⟩, by decide +kernel⟩,
   ⟨({ dev := calD { railSum := [(3, 100000)], railWins := 3 } } : State), 3,
      ⟨by decide +kernel, by decide +kernel⟩, by decide +kernel⟩,
   ⟨({ dev := e0 } : State), 0, 0, [],
      ⟨by decide +kernel, by decide +kernel⟩, by decide +kernel⟩⟩

theorem witness_PowerCommands_2 :
    (∃ (s : State) (die : Nat) (k : Nat) (codes : List Nat),
      s.dev.sound ∧
      die < 4 ∧
      k < 112 ∧
      460 ≤ wd codes k ∧
      wd codes k ≤ 600 ∧
      (∃ (c : ℕ) (x : Sensor), SMap.get { : Sensor } s.dev.bask.sensors (die * 128 + k) = x ∧ x.code = some c ∧ x.excl = false ∧ x.same = 1 ∧ 460 ≤ c ∧ c ≤ 600) ∧
      s.dev.on 0 BASK_STATUS_TRIP = false ∧
      (∀ i < 2, (s.dev.island i).stopped = false)) ∧
    (∃ (s : State),
      s.dev.sound ∧
      (s.dev.chorus.time - s.dev.bask.readyAt) / 86400000000000 ≤ (s.dev.bask.aged - s.dev.bask.readyAt) / 86400000000000) ∧
    (∃ (s : State) (dies : List (ℕ × List ℕ)),
      s.dev.sound ∧
      (s.dev.bask.aged - s.dev.bask.readyAt) / 86400000000000 < (s.dev.chorus.time - s.dev.bask.readyAt) / 86400000000000 ∧
      (∀ m ∈ dies, m.1 ≤ 255 ∧ wd m.2 6 ≤ 920)) ∧
    (∃ (s : State) (die : Nat) (n : Nat) (v : Nat),
      s.dev.sound ∧
      (5 ≤ v % 8 ∨ v % 8 = 0 ∧ die = 0 ∧ n = 0)) ∧
    (∃ (s : State) (die : Nat) (n : Nat) (v : Nat),
      s.dev.sound ∧
      (¬(5 ≤ v % 8 ∨ v % 8 = 0 ∧ die = 0 ∧ n = 0))) :=
  ⟨⟨({ dev := runS (b { sensors := [(0, { code := some 465, same := 1 }), (129, { code := some 470, same := 1 })], volts := [(8, 3)] }) } : State), 1, 1, [500, 470] ++ List.replicate 110 100,
      ⟨by decide +kernel, by decide +kernel⟩, by decide +kernel, by decide +kernel, by decide +kernel, by decide +kernel, ⟨470, _, rfl, by decide +kernel⟩, by decide +kernel⟩,
   ⟨({ dev := e0 } : State),
      ⟨by decide +kernel, by decide +kernel⟩, by decide +kernel⟩,
   ⟨({ dev := { (b { aged := 5, volts := [(15, 900), (9, 700)] }) with chorus := { e0.chorus with time := 10^14 } } } : State), [],
      ⟨by decide +kernel, by decide +kernel⟩, by decide +kernel⟩,
   ⟨({ dev := e0 } : State), 0, 0, 0,
      ⟨by decide +kernel, by decide +kernel⟩, by decide +kernel⟩,
   ⟨({ dev := e0 } : State), 0, 0, 1,
      ⟨by decide +kernel, by decide +kernel⟩, by decide +kernel⟩⟩

end G14

/-! States for UnitsLeaveAndReturn. -/

namespace G15a

def req0 : Req := { die := 1, master := 0x45, home := 0, addr := 0x48000010, len := 4, write := false, data := 0, fixed := false, cls := 3, coreWords := [], work := none, remote := [] }
def reqC : Req := { req0 with master := 5, die := 0 }
def e0 : Device := {}
def withErr (e : ErrSt) : Device := { e0 with err := e }
def drain (d u op : Nat) : Device := ((withErr { drains := [{ die := d, unit := u, op := op }], fenced := [d * 256 + u] }).set d DIE_CTL_UNIT_RESET_BUSY).wr d DIE_CTL_UNIT_RESET_STAGE 2
def ker0 : Kernel := { ring := 0, cores := [5], entry := 0, fcBound := 0, ticks := 0, lent := false, startRc := 0, startTick := 0 }

theorem witness_UnitsLeaveAndReturn_1 :
    (∃ (s : State) (die : Nat) (u : Nat),
      s.dev.sound ∧
      (¬(s.dev.on die DIE_CTL_UNIT_RESET_BUSY = true ∨ unitPresent die u = false)) ∧
      u < mDma ∧
      s.dev.reservedCore (die * 64 + u) = true) ∧
    (∃ (s : State) (die : Nat) (u : Nat),
      s.dev.sound ∧
      (¬(s.dev.on die DIE_CTL_UNIT_RESET_BUSY = true ∨ unitPresent die u = false)) ∧
      unitAlone u = true ∧
      (u < mDma → s.dev.coreRuns die u = false) ∧
      (u < mDma → s.dev.reservedCore (die * 64 + u) = false)) ∧
    (∃ (s : State) (die : Nat) (u : Nat),
      s.dev.sound ∧
      (¬(s.dev.on die DIE_CTL_UNIT_RESET_BUSY = true ∨ unitPresent die u = false)) ∧
      u < mDma ∧
      s.dev.coreRuns die u = true ∧
      s.dev.reservedCore (die * 64 + u) = false) ∧
    (∃ (s : State) (die : Nat) (u : Nat) (op : Nat),
      s.dev.sound ∧
      s.dev.drainOf die = some { die := die, unit := u, op := op : Drain } ∧
      u < mDma ∧
      s.dev.coreRuns die u = true) ∧
    (∃ (s : State) (die : Nat) (u : Nat) (op : Nat),
      s.dev.sound ∧
      s.dev.drainOf die = some { die := die, unit := u, op := op : Drain } ∧
      (u < mDma → s.dev.coreRuns die u = false) ∧
      s.dev.unitBusy die u = false ∧
      op = 0 ∧
      unitPort u = false) ∧
    (∃ (s : State) (die : Nat) (u : Nat) (op : Nat),
      s.dev.sound ∧
      s.dev.drainOf die = some { die := die, unit := u, op := op : Drain } ∧
      (u < mDma → s.dev.coreRuns die u = false) ∧
      s.dev.unitBusy die u = false ∧
      op = 0 ∧
      unitPort u = true ∧
      u ≠ mOliner) :=
  ⟨⟨({ dev := e0.wr 0 (CLUSTER_CORE_RSV_RSV 0) 0x24 } : State), 0, 5,
      ⟨by decide +kernel, by decide +kernel⟩, by decide +kernel⟩,
   ⟨({ dev := e0 } : State), 0, 0,
      ⟨by decide +kernel, by decide +kernel⟩, by decide +kernel⟩,
   ⟨({ dev := { e0 with disp := { e0.disp with kernels := [ker0] } } } : State), 0, 5,
      ⟨by decide +kernel, by decide +kernel⟩, by decide +kernel⟩,
   ⟨({ dev := { drain 0 5 0 with disp := { e0.disp with kernels := [ker0] } } } : State), 0, 5, 0,
      ⟨by decide +kernel, by decide +kernel⟩, by decide +kernel⟩,
   ⟨({ dev := drain 0 5 0 } : State), 0, 5, 0,
      ⟨by decide +kernel, by decide +kernel⟩, by decide +kernel⟩,
   ⟨({ dev := drain 0 0x70 0 } : State), 0, 0x70, 0,
      ⟨by decide +kernel, by decide +kernel⟩, by decide +kernel⟩⟩

theorem witness_UnitsLeaveAndReturn_2 :
    (∃ (s : State) (die : Nat) (u : Nat) (op : Nat),
      s.dev.sound ∧
      s.dev.drainOf die = some { die := die, unit := u, op := op : Drain } ∧
      (u < mDma → s.dev.coreRuns die u = false) ∧
      s.dev.unitBusy die u = false ∧
      op = 1 ∧
      u < mHost) ∧
    (∃ (s : State) (die : Nat) (u : Nat) (op : Nat),
      s.dev.sound ∧
      s.dev.drainOf die = some { die := die, unit := u, op := op : Drain } ∧
      (u < mDma → s.dev.coreRuns die u = false) ∧
      s.dev.unitBusy die u = false ∧
      op = 1 ∧
      mHost ≤ u ∧
      u ≠ mOliner) ∧
    (∃ (s : State) (die : Nat) (u : Nat) (op : Nat) (r : Req),
      s.dev.sound ∧
      s.dev.drainOf die = some { die := die, unit := u, op := op : Drain } ∧
      op = 0 ∧
      u < mDma ∧
      s.dev.coreRuns die u = false ∧
      s.dev.unitReqs die u = [r] ∧
      r.work = none ∧
      r.remote = []) ∧
    (∃ (s : State) (die : Nat) (u : Nat),
      s.dev.sound ∧
      (¬(s.dev.on die DIE_CTL_UNIT_RESET_BUSY = true ∨ unitPresent die u = false)) ∧
      unitAlone u = true ∧
      s.dev.err.disabled.contains (die * 256 + u) = true) ∧
    (∃ (s : State) (die : Nat) (u : Nat),
      s.dev.sound ∧
      (¬(s.dev.on die DIE_CTL_UNIT_RESET_BUSY = true ∨ unitPresent die u = false)) ∧
      u < mDma ∧
      s.dev.coreDisabled (die * 64 + u) = true ∧
      s.dev.err.disabled.contains (die * 256 + u) = false) :=
  ⟨⟨({ dev := drain 1 0x45 1 } : State), 1, 0x45, 1,
      ⟨by decide +kernel, by decide +kernel⟩, by decide +kernel⟩,
   ⟨({ dev := drain 0 0x51 1 } : State), 0, 0x51, 1,
      ⟨by decide +kernel, by decide +kernel⟩, by decide +kernel⟩,
   ⟨({ dev := { drain 0 5 0 with pond := { e0.pond with waiting := [reqC] } } } : State), 0, 5, 0, reqC,
      ⟨by decide +kernel, by decide +kernel⟩, by decide +kernel⟩,
   ⟨({ dev := (withErr { disabled := [5, 0x45, 256 + 0x24, 0x90], fenced := [0x90, 0x71] }).wr 0 DIE_CTL_DISABLED_LO_CORES 0xFF } : State), 0, 5,
      ⟨by decide +kernel, by decide +kernel⟩, by decide +kernel⟩,
   ⟨({ dev := (withErr { disabled := [5, 0x45, 256 + 0x24, 0x90], fenced := [0x90, 0x71] }).wr 0 DIE_CTL_DISABLED_LO_CORES 0xFF } : State), 0, 0,
      ⟨by decide +kernel, by decide +kernel⟩, by decide +kernel⟩⟩

end G15a

/-! States for ErrorsAndTimers. -/

namespace G15b

def req0 : Req := { die := 1, master := 0x45, home := 0, addr := 0x48000010, len := 4, write := false, data := 0, fixed := false, cls := 3, coreWords := [], work := none, remote := [] }
def e0 : Device := {}
def withErr (e : ErrSt) : Device := { e0 with err := e }
def radd0 : RemoteAdd := { die := 3, partner := 7, sync := 5, seq := 1, edges := 5, cores := [3] }
def rreq0 : RemoteReq := { die := 3, dev := 3, tag := ⟨1, 0, 0⟩, kind := 3, addr := 64, len := 8, edges := 9 }
def cc : CoreCmd := { work := .ring 0, entry := 0, opcode := 3, header := 0, cores := [3] }

theorem witness_ErrorsAndTimers_1 :
    (∃ (s : State) (r : Req),
      s.dev.sound ∧
      r.work = none ∧
      r.remote = [] ∧
      r.master < 256 ∧
      s.dev.on r.die DIE_CTL_ERR_STATUS_VALID = false) ∧
    (∃ (s : State) (die : Nat) (id : Nat) (a : RemoteAdd),
      s.dev.sound ∧
      s.dev.err.radds = [a] ∧
      a.die = die ∧
      a.seq = id ∧
      a.unresolved = false ∧
      s.dev.rd die DIE_CTL_ERR_CTL_REMOTE_TICKS ≤ a.edges) ∧
    (∃ (s : State) (die : Nat) (id : Nat) (r : RemoteReq),
      s.dev.sound ∧
      s.dev.oliner.reqs = [r] ∧
      r.die = die ∧
      r.tag.id = id ∧
      s.dev.rd die DIE_CTL_ERR_CTL_REMOTE_TICKS ≤ r.edges ∧
      tagEngine id = none) ∧
    (∃ (s : State),
      s.dev.sound ∧
      s.dev.err.snap = []) ∧
    (∃ (s : State) (die : Nat) (a : Nat) (b : Nat) (n : Nat) (w : Bool) (q : List (ℕ × ℕ × ℕ × Bool)),
      s.dev.sound ∧
      SMap.get [] s.dev.err.raddq die = (a, b, n, w) :: q) :=
  ⟨⟨({ dev := e0.set 1 DIE_CTL_ERR_STATUS_OVERFLOW } : State), req0,
      ⟨by decide +kernel, by decide +kernel⟩, by decide +kernel⟩,
   ⟨({ dev := { withErr { radds := [radd0] } with disp := { e0.disp with cmds := [(3, some cc)] } } } : State), 3, 1, radd0,
      ⟨by decide +kernel, by decide +kernel⟩, by decide +kernel⟩,
   ⟨({ dev := { e0 with oliner := { e0.oliner with reqs := [rreq0] } } } : State), 3, 1, rreq0,
      ⟨by decide +kernel, by decide +kernel⟩, by decide +kernel⟩,
   ⟨({ dev := e0.set 1 DIE_CTL_ERR_STATUS_OVERFLOW } : State),
      ⟨by decide +kernel, by decide +kernel⟩, by decide +kernel⟩,
   ⟨({ dev := withErr { raddq := [(1, [(3, 1, 3, true), (1, 1, 1, false)])] } } : State), 1, 3, 1, 3, true, [(1, 1, 1, false)],
      ⟨by decide +kernel, by decide +kernel⟩, by decide +kernel⟩⟩

theorem witness_ErrorsAndTimers_2 :
    (∃ (s : State) (value : Nat) (m : Nat) (st : Nat),
      s.dev.sound ∧
      m < 256 ∧
      st < 256 ∧
      bit value 31 = true) ∧
    (∃ (s : State) (die : Nat) (hart : Nat) (st : Nat),
      s.dev.sound ∧
      hart < 4 ∧
      st < 256 ∧
      s.dev.on die DIE_CTL_ERR_STATUS_VALID = false) ∧
    (∃ (s : State) (lvl : Nat) (v : Nat),
      s.dev.sound ∧
      lvl < 2 ∧
      (v = 0 ∨ 255 < v)) ∧
    (∃ (s : State) (lvl : Nat) (v : Nat),
      s.dev.sound ∧
      lvl < 2 ∧
      1 ≤ v ∧
      v ≤ 255) :=
  ⟨⟨({ dev := e0.set 1 DIE_CTL_ERR_STATUS_OVERFLOW } : State), 2^31, 1, 1,
      ⟨by decide +kernel, by decide +kernel⟩, by decide +kernel⟩,
   ⟨({ dev := e0.set 1 DIE_CTL_ERR_STATUS_OVERFLOW } : State), 1, 1, 1,
      ⟨by decide +kernel, by decide +kernel⟩, by decide +kernel⟩,
   ⟨({ dev := e0.set 1 DIE_CTL_ERR_STATUS_OVERFLOW } : State), 1, 2^31,
      ⟨by decide +kernel, by decide +kernel⟩, by decide +kernel⟩,
   ⟨({ dev := e0.set 1 DIE_CTL_ERR_STATUS_OVERFLOW } : State), 1, 1,
      ⟨by decide +kernel, by decide +kernel⟩, by decide +kernel⟩⟩

end G15b

/-! States for RegisterWrites. -/

namespace G15c

def e0 : Device := {}

theorem witness_RegisterWrites :
    (∃ (s : State) (src : Nat) (master : Nat) (die : Nat) (v : Nat) (blk : Nat) (off : Nat),
      s.dev.sound ∧
      v < 2 ^ 32 ∧
      src < 4 ∧
      die < 4 ∧
      blk < 32 ∧
      off < 65536 ∧
      (master < mHost ∨ mHost + 4 ≤ master) ∧
      s.dev.accessStatus src master (regBase + die * regDieBytes + blk * 65536 + off) 4 true = stUNMAPPED) ∧
    (∃ (s : State) (src : Nat) (master : Nat) (die : Nat) (v : Nat),
      s.dev.sound ∧
      v < 2 ^ 32 ∧
      src < 4 ∧
      die < 4 ∧
      s.dev.accessStatus src master (regBase + die * regDieBytes + 6 * 65536 + 0) 4 true = stDONE ∧ s.dev.routeUp die src = true) ∧
    (∃ (s : State) (src : Nat) (master : Nat) (die : Nat) (v : Nat) (off : Nat),
      s.dev.sound ∧
      v < 2 ^ 32 ∧
      src < 4 ∧
      die < 4 ∧
      off ∈ [0, 4] ∧
      s.dev.accessStatus src master (regBase + die * regDieBytes + 0 * 65536 + off) 4 true = stDONE ∧ s.dev.routeUp die src = true) ∧
    (∃ (s : State) (src : Nat) (master : Nat) (die : Nat) (v : Nat) (blk : Nat) (off : Nat),
      s.dev.sound ∧
      v < 2 ^ 32 ∧
      src < 4 ∧
      die < 4 ∧
      (blk = 26 ∧ die % 2 = 1 ∨ blk = 29 ∧ die ≠ 0 ∨ blk = 21 ∧ 2 ≤ die) ∧
      off < 65536 ∧
      s.dev.accessStatus src master (regBase + die * regDieBytes + blk * 65536 + off) 4 true = stDONE ∧ s.dev.routeUp die src = true) ∧
    (∃ (s : State) (src : Nat) (master : Nat) (die : Nat) (v : Nat),
      s.dev.sound ∧
      v < 2 ^ 32 ∧
      src < 4 ∧
      die < 4 ∧
      s.dev.on die REGULATE_CTL_LOCK = true ∧
      s.dev.accessStatus src master (regBase + die * regDieBytes + 7 * 65536 + 0) 4 true = stDONE ∧ s.dev.routeUp die src = true) ∧
    (∃ (s : State) (src : Nat) (master : Nat) (die : Nat) (v : Nat),
      s.dev.sound ∧
      v < 2 ^ 32 ∧
      src < 4 ∧
      die < 4 ∧
      s.dev.on die REGULATE_CTL_LOCK = false ∧
      s.dev.accessStatus src master (regBase + die * regDieBytes + 7 * 65536 + 0) 4 true = stDONE ∧ s.dev.routeUp die src = true) ∧
    (∃ (s : State) (src : Nat) (master : Nat) (die : Nat) (v : Nat),
      s.dev.sound ∧
      v < 2 ^ 32 ∧
      src < 4 ∧
      die < 4 ∧
      s.dev.accessStatus src master (regBase + die * regDieBytes + 7 * 65536 + 4) 4 true = stDONE ∧ s.dev.routeUp die src = true) ∧
    (∃ (s : State) (src : Nat) (master : Nat) (die : Nat) (v : Nat),
      s.dev.sound ∧
      v < 2 ^ 32 ∧
      src < 4 ∧
      die < 4 ∧
      s.dev.on 0 LP5X_CTL_LOCK = false ∧
      v % 4 = 3 ∧
      die = 0 ∧
      s.dev.accessStatus src master (regBase + die * regDieBytes + 27 * 65536 + 0) 4 true = stDONE ∧ s.dev.routeUp die src = true) :=
  ⟨⟨({ dev := e0.set 0 REGULATE_CTL_LOCK } : State), 0, 0, 0, 0, 0, 0,
      ⟨by decide +kernel, by decide +kernel⟩, by decide +kernel⟩,
   ⟨({ dev := e0.set 0 REGULATE_CTL_LOCK } : State), 0, 0x70, 0, 0,
      ⟨by decide +kernel, by decide +kernel⟩, by decide +kernel⟩,
   ⟨({ dev := e0.set 0 REGULATE_CTL_LOCK } : State), 0, 0x70, 0, 0, 0,
      ⟨by decide +kernel, by decide +kernel⟩, by decide +kernel⟩,
   ⟨({ dev := e0.set 0 REGULATE_CTL_LOCK } : State), 3, 0x70, 3, 0, 21, 0,
      ⟨by decide +kernel, by decide +kernel⟩, by decide +kernel⟩,
   ⟨({ dev := e0.set 0 REGULATE_CTL_LOCK } : State), 0, 0x70, 0, 0,
      ⟨by decide +kernel, by decide +kernel⟩, by decide +kernel⟩,
   ⟨({ dev := e0.set 0 REGULATE_CTL_LOCK } : State), 3, 0x70, 3, 0,
      ⟨by decide +kernel, by decide +kernel⟩, by decide +kernel⟩,
   ⟨({ dev := e0.set 0 REGULATE_CTL_LOCK } : State), 0, 0x70, 0, 0,
      ⟨by decide +kernel, by decide +kernel⟩, by decide +kernel⟩,
   ⟨({ dev := e0.set 0 REGULATE_CTL_LOCK } : State), 0, 0x70, 0, 3,
      ⟨by decide +kernel, by decide +kernel⟩, by decide +kernel⟩⟩

end G15c

/-! States for HaltsAndSteps, TestPort. -/

namespace G16

def base : Device := { regs := [] }
def life (n : Nat) : Device := { base with eft := { base.eft with fuses := { state := n } } }
def running (d : Device) : Device := (d.wr 0 SAFETY_STATUS_TAIL_STATE 0).wr 1 SAFETY_STATUS_TAIL_STATE 1

theorem witness_HaltsAndSteps :
    (∃ (s : State) (t : Nat),
      s.dev.sound ∧
      s.dev.debugOpen = true ∧
      targetOk t = false) ∧
    (∃ (s : State) (t : Nat) (k : Nat),
      s.dev.sound ∧
      s.dev.debugOpen = true ∧
      targetOk t = true ∧
      k < 4) ∧
    (∃ (s : State) (t : Nat),
      s.dev.sound ∧
      s.dev.debugOpen = true ∧
      s.dev.probe.waiting = [] ∧ s.dev.probe.draining = [] ∧ s.dev.probe.steps = [] ∧
      s.dev.probe.halted.contains t = false ∧
      s.dev.haltNeeds t = 0 ∧
      (65536 ≤ t ∧ t < 65552 ∨ t < 256 ∧ s.dev.cmd t = none)) ∧
    (∃ (s : State) (t : Nat),
      s.dev.sound ∧
      s.dev.debugOpen = true ∧
      s.dev.probe.waiting = [] ∧ s.dev.probe.draining = [] ∧ s.dev.probe.steps = [] ∧
      s.dev.probe.halted.contains t = false ∧
      s.dev.haltNeeds t ≠ 0 ∧
      (65536 ≤ t ∧ t < 65552 ∨ targetOk t = true) ∧
      (∀ i < 2, (s.dev.island i).stopped = false ∧ s.dev.rd i SAFETY_STATUS_TAIL_STATE < 2)) ∧
    (∃ (s : State) (t : Nat),
      s.dev.sound ∧
      s.dev.debugOpen = true ∧
      s.dev.probe.waiting = [] ∧ s.dev.probe.draining = [] ∧ s.dev.probe.steps = [] ∧
      s.dev.probe.halted = [t] ∧
      (65536 ≤ t ∧ t < 65552 ∨ t < 256)) ∧
    (∃ (s : State) (t : Nat),
      s.dev.sound ∧
      s.dev.debugOpen = true ∧
      s.dev.probe.waiting = [] ∧ s.dev.probe.draining = [] ∧ s.dev.probe.steps = [] ∧
      s.dev.probe.halted = [t] ∧
      reflexTarget t = true) ∧
    (∃ (s : State) (t : Nat),
      s.dev.sound ∧
      s.dev.debugOpen = true ∧
      s.dev.probe.waiting = [] ∧ s.dev.probe.draining = [] ∧ s.dev.probe.steps = [] ∧
      s.dev.probe.halted = [t] ∧
      targetOk t = true) ∧
    (∃ (s : State) (t : Nat),
      s.dev.sound ∧
      s.dev.debugOpen = true ∧
      s.dev.probe.waiting = [] ∧ s.dev.probe.draining = [] ∧ s.dev.probe.steps = [] ∧
      s.dev.probe.halted = [t] ∧
      65536 ≤ t ∧ t < 65552) :=
  ⟨⟨{ dev := running (life 1) }, 0x10003,
      ⟨by decide +kernel, by decide +kernel⟩, by decide +kernel⟩,
   ⟨{ dev := running (life 1) }, 0, 0,
      ⟨by decide +kernel, by decide +kernel⟩, by decide +kernel⟩,
   ⟨{ dev := running (life 1) }, 0,
      ⟨by decide +kernel, by decide +kernel⟩, by decide +kernel⟩,
   ⟨{ dev := running (life 1) }, 0x1002,
      ⟨by decide +kernel, by decide +kernel⟩, by decide +kernel⟩,
   ⟨{ dev := { (life 1) with probe := { halted := [3] } } }, 3,
      ⟨by decide +kernel, by decide +kernel⟩, by decide +kernel⟩,
   ⟨{ dev := { (life 1) with probe := { halted := [0x1002] } } }, 0x1002,
      ⟨by decide +kernel, by decide +kernel⟩, by decide +kernel⟩,
   ⟨{ dev := { (life 1) with probe := { halted := [3] } } }, 3,
      ⟨by decide +kernel, by decide +kernel⟩, by decide +kernel⟩,
   ⟨{ dev := { (life 1) with probe := { halted := [0x10003] } } }, 0x10003,
      ⟨by decide +kernel, by decide +kernel⟩, by decide +kernel⟩⟩

theorem witness_TestPort_1 :
    (∃ (s : State),
      s.dev.sound ∧
      s.dev.eft.fuses.life ≠ lcRETIRED) ∧
    (∃ (s : State),
      s.dev.sound ∧
      s.dev.eft.fuses.life = lcRETIRED) ∧
    (∃ (s : State),
      s.dev.sound ∧
      (s.dev.eft.fuses.life = lcBLANK ∨ s.dev.eft.fuses.life = lcMANUFACTURE)) ∧
    (∃ (s : State),
      s.dev.sound ∧
      s.dev.eft.fuses.life ≠ lcBLANK ∧
      s.dev.eft.fuses.life ≠ lcMANUFACTURE) ∧
    (∃ (s : State),
      s.dev.sound ∧
      s.dev.debugOpen = false) ∧
    (∃ (s : State) (a : Nat),
      s.dev.sound ∧
      s.dev.debugOpen = true ∧
      (a = 4 ∨ a = 5 ∨ 32 ≤ a ∧ a < 40)) :=
  ⟨⟨{ dev := running (life 1) },
      ⟨by decide +kernel, by decide +kernel⟩, by decide +kernel⟩,
   ⟨{ dev := life 5 },
      ⟨by decide +kernel, by decide +kernel⟩, by decide +kernel⟩,
   ⟨{ dev := running (life 1) },
      ⟨by decide +kernel, by decide +kernel⟩, by decide +kernel⟩,
   ⟨{ dev := running ((life 2).set 0 DEBUG_STATUS_OPEN) },
      ⟨by decide +kernel, by decide +kernel⟩, by decide +kernel⟩,
   ⟨{ dev := {(life 3) with fresh := 5} },
      ⟨by decide +kernel, by decide +kernel⟩, by decide +kernel⟩,
   ⟨{ dev := running (life 1) }, 4,
      ⟨by decide +kernel, by decide +kernel⟩, by decide +kernel⟩⟩

theorem witness_TestPort_2 :
    (∃ (s : State),
      s.dev.sound ∧
      s.dev.eft.fuses.life ≠ lcPROVISIONED ∧
      s.dev.eft.fuses.life ≠ lcDEPLOYED) ∧
    (∃ (s : State) (n : Nat),
      s.dev.sound ∧
      (s.dev.eft.fuses.life = lcPROVISIONED ∨ s.dev.eft.fuses.life = lcDEPLOYED) ∧
      n < 90) ∧
    (∃ (s : State) (n : Nat),
      s.dev.sound ∧
      (s.dev.eft.fuses.life = lcPROVISIONED ∨ s.dev.eft.fuses.life = lcDEPLOYED) ∧
      n < 8) ∧
    (∃ (s : State) (die : Nat),
      s.dev.sound ∧
      (die ≠ 0 ∨ s.dev.on 0 DEBUG_UNLOCK_CTL_BUSY = true)) ∧
    (∃ (s : State),
      s.dev.sound ∧
      s.dev.on 0 DEBUG_UNLOCK_CTL_BUSY = false) :=
  ⟨⟨{ dev := running (life 1) },
      ⟨by decide +kernel, by decide +kernel⟩, by decide +kernel⟩,
   ⟨{ dev := running ((life 2).set 0 DEBUG_STATUS_OPEN) }, 0,
      ⟨by decide +kernel, by decide +kernel⟩, by decide +kernel⟩,
   ⟨{ dev := running ((life 2).set 0 DEBUG_STATUS_OPEN) }, 0,
      ⟨by decide +kernel, by decide +kernel⟩, by decide +kernel⟩,
   ⟨{ dev := running (life 1) }, 1,
      ⟨by decide +kernel, by decide +kernel⟩, by decide +kernel⟩,
   ⟨{ dev := running (life 1) },
      ⟨by decide +kernel, by decide +kernel⟩, by decide +kernel⟩⟩

end G16

/-! States for AbsentBlocks, AddressMap, CorePortReadsBeforeItWrites, DmaTakesAndFills, ErrorsAndTimers, FullResetKeepsFusesAndFlashOnly, HaltsAndSteps, HostClassAtIssue, LifeCycleAndQuote, ListCommands, MemoryRecordsClearFirst, ResetState, RetentionAndPatrol, SharedPorts, SyncRegisterAdds, TickLayoutWrites, UnitsLeaveAndReturn, WalksAndFaults, WritesKeepTailActive. -/

namespace G90

def e0 : Device := {}
def wl (l : List (Nat × Nat)) : List Nat := l.foldl (fun m x => m.set x.1 x.2) (List.replicate 16 0)
def poke (l : List (Nat × Nat)) (d : Device) : Device := { d with mem := SMap.insAll (l.map fun x => (x.1, (x.2 : Byte))) d.mem }
def memJunk : List Host.Cell := SMap.insAll [(16, 7), (18, 1), (columnBytes + 16, 9), (storeBase + 3, 4)] []
def m0 : Device := { e0 with mem := memJunk }
def reqM : Req := { die := 1, master := mManage, home := 0, addr := 0x304000000 + 26 * 0x10000 + 0x20, len := 4, write := false, data := 0, fixed := true, cls := 0, coreWords := [], work := none, remote := [] }
def reqH : Req := { die := 1, master := 0x51, home := 0, addr := 0x48000010, len := 4, write := false, data := 0, fixed := false, cls := 0, coreWords := [], work := none, remote := [] }
def reqX : Req := { reqH with cls := 18 }
def reqD : Req := { die := 0, master := 0x45, home := 0, addr := 16, len := 4, write := false, data := 777, fixed := true, cls := 3, coreWords := [], work := none, remote := [] }
def pq (d c : Nat) (q : List Bool) (x : Device) : Device := x.setPortQueue d c q
def wtg (r : Req) (d : Device) : Device := { d with pond := { d.pond with waiting := [r] } }
def wFill : List Nat := [2 * 2 ^ 24, 40, 0, 0, 0x10000, 0, 0, 0, 0, 0x01020304, 0, 0, 0, 0, 0, 0]
def wBad : List Nat := [9 * 2 ^ 24, 40, 0, 0, 0x10000, 0, 0, 0, 0, 0x01020304, 0, 0, 0, 0, 0, 0]
def tl : Tlb := { die := 0, unit := 0x41, job := 0, va := 0x10000, log2 := 16, pa := 0x20000, rd := true, wr := true, pin := true }
def f0 : XFault := { die := 0, unit := 0x41, job := 3, kind := 1, write := false, dma := true, heldCore := false, terminal := false, slot := 255, va := 5, ring := 7, entry := 2, desc := wFill, id := 1, owner := 0, queue := 1, time := 0, stage := .raised }
def f1 : XFault := { f0 with unit := 3, dma := false, heldCore := true, stage := .recorded }
def fp : XFault := { f0 with stage := .parked }
def fc : XFault := { f0 with unit := 3, dma := false }
def fr : XFault := { f1 with ring := frameRing }
def fd (f : XFault) (st : Nat) : Device := { m0 with xlate := { faults := [f] }, disp := { m0.disp with jobs := [(3, { state := st })] } }
def dm : Device := ({ m0 with xlate := { tlb := [tl], dma := [(1, some (some (.slice 0 0), 0, wFill))] } }).set 0 XLATE_CTL_EN
def sx : SliceRun := { die := 0, idx := 0, kind := 5, tick := 0, units := [501], started := true }
def dn (d : List Nat) : Device := { m0 with chorus := { m0.chorus with slices := [sx], sched := (List.range 16).foldl (fun m i => SMap.put 0 m (0x80000 + i) (wd d i)) (SMap.put 0 (SMap.put 0 (SMap.put 0 [] 5 4) 0x40000 (5 * 2 ^ 29)) 0x40003 (2)) } }
def errS (e : ErrSt) : Device := { e0 with err := e }
def runS (d : Device) : Device := (d.wr 0 SAFETY_STATUS_TAIL_STATE 0).wr 1 SAFETY_STATUS_TAIL_STATE 1
def life (n : Nat) : Device := { e0 with eft := { e0.eft with fuses := { state := n } } }
def eft (x : EftSt) : Device := { e0 with eft := x }
def dsp (d : Device) (f : DispSt → DispSt) : Device := { d with disp := f d.disp }
def tab (d : Device) : Device := poke [(48, 1), (50, 2), (0x20000, 1), (0x20002, 4), (0x40000, 15), (0x40002, 0x40)] d
def rd5 : List Nat := wl [(0, 0x80200500), (1, 3 * 2^20), (2, 0x2000), (4, 0x3000), (6, 4)]
def jb (st : Nat) (d : Device) : Device := dsp d fun x => { x with jobs := [(3, { state := st, client := 1 })] }
def rg (st hd tl : Nat) (d : Device) : Device := dsp d fun x => { x with rings := [(5, { state := st, job := 3, head := hd, tail := tl, desc := rd5, waitTicks := 100 })] }
def k5 : Kernel := { ring := 5, cores := [5], entry := 1, fcBound := 3, ticks := 100000, lent := false, startRc := 0, startTick := 0 }
def wop (op : Nat) (l : List (Nat × Nat)) : List Nat := wl ((0, op * 2 ^ 24) :: l)
def kS : Device := dsp (jb 1 (rg 1 2 3 (tab (e0.set 0 XLATE_CTL_EN)))) fun x => { x with kernels := [k5] }
def kB : Device := dsp kS fun x => { x with kernels := [{ k5 with entry := 0 }] }
def kO : Device := (((kS.set 0 (OLINER_ROUTE_HI_V 3)).wr 0 (OLINER_ROUTE_LO_LO_ID 3) 4).wr 0 (OLINER_ROUTE_LO_HI_ID 3) 9).wr 0 (OLINER_ROUTE_HI_EGRESS 3) 2
def iRg : Issue := ⟨.ring 5, 2, [5]⟩
def iSl : Issue := ⟨.slice 0 0, 0, [0]⟩
def sl0 : Device := { e0 with chorus := { e0.chorus with slices := [{ die := 0, idx := 0, kind := 1, tick := 0, units := [0], started := true }] } }

theorem witness_AbsentBlocks :
    (∃ (s : State) (die : Nat) (blk : Nat) (master : Nat) (off : Nat),
      s.dev.sound ∧
      die < 4 ∧
      regAbsent die blk = true ∧
      off < 65536 ∧
      s.dev.accessStatus die master (regBase + die * regDieBytes + blk * 65536 + off) 4 true = stDONE) ∧
    (∃ (s : State) (die : Nat) (blk : Nat) (r : Req) (off : Nat),
      s.dev.sound ∧
      die < 4 ∧
      regAbsent die blk = true ∧
      s.dev.region r.addr = Region.reg die blk off ∧
      r.die = die ∧
      r.master = mManage ∧
      r.work = none ∧
      r.remote = [] ∧
      1 ≤ r.len ∧
      s.dev.isFenced die r.master = false ∧
      s.dev.accessStatus die r.master r.addr r.len r.write = stDONE) :=
  ⟨⟨({ dev := m0 } : State), 1, 26, mManage, 0x20,
      ⟨by decide +kernel, by decide +kernel⟩, by decide +kernel⟩,
   ⟨({ dev := m0 } : State), 1, 26, reqM, 0x20,
      ⟨by decide +kernel, by decide +kernel⟩, by decide +kernel⟩⟩

theorem witness_AddressMap :
    (∃ (die : Nat) (off : Nat),
      die < 4 ∧
      off < 1207959552) ∧
    (∃ (die : Nat) (blk : Nat) (off : Nat),
      die < 4 ∧
      blk < 32 ∧
      off < 65536) :=
  ⟨⟨3, 0x47FFFFFF,
      by decide +kernel⟩,
   ⟨3, 31, 65535,
      by decide +kernel⟩⟩

theorem witness_CorePortReadsBeforeItWrites :
    (∃ (s : State) (core : Nat) (n : Nat) (v : Nat),
      s.dev.sound ∧
      core < 256 ∧
      1 ≤ n ∧
      v < 256 ^ n ∧
      s.dev.rd (core / 64) POND_STATUS_MODE = 1) ∧
    (∃ (s : State) (core : Nat) (a : Nat) (n : Nat) (v : Nat),
      s.dev.sound ∧
      core < 256 ∧
      1 ≤ n ∧
      v < 256 ^ n ∧
      s.dev.rd (core / 64) POND_STATUS_MODE = 0 ∧
      s.dev.pond.ecc = [] ∧
      (columnBase (core / 64) (core % 64) ≤ a ∧ a + n ≤ columnBase (core / 64) (core % 64) + columnBytes ∨ coreStoreBase (core / 64) (core % 64) ≤ a ∧ a + n ≤ coreStoreBase (core / 64) (core % 64) + 262144 ∨ storeBase + core / 64 * storeDieBytes + 16777216 + core % 64 / 8 * 2097152 ≤ a ∧ a + n ≤ storeBase + core / 64 * storeDieBytes + 16777216 + core % 64 / 8 * 2097152 + 2097152)) ∧
    (∃ (s : State) (core : Nat) (a : Nat) (n : Nat) (v : Nat),
      s.dev.sound ∧
      core < 256 ∧
      1 ≤ n ∧
      v < 256 ^ n ∧
      s.dev.rd (core / 64) POND_STATUS_MODE ≠ 1 ∧
      a + n ≤ 4 * pondDieBytes ∧
      (a + n ≤ columnBase (core / 64) (core % 64) ∨ columnBase (core / 64) (core % 64) + columnBytes ≤ a)) :=
  ⟨⟨({ dev := m0.wr 0 POND_STATUS_MODE 1 } : State), 63, 4, 2 ^ 32 - 1,
      ⟨by decide +kernel, by decide +kernel⟩, by decide +kernel⟩,
   ⟨({ dev := m0 } : State), 1, columnBytes + 16, 4, 77,
      ⟨by decide +kernel, by decide +kernel⟩, by decide +kernel⟩,
   ⟨({ dev := m0 } : State), 1, 16, 4, 77,
      ⟨by decide +kernel, by decide +kernel⟩, by decide +kernel⟩⟩

theorem witness_DmaTakesAndFills :
    (∃ (s : State) (die : Nat) (e : Nat) (sd : Nat) (idx : Nat) (k : Nat) (entry : Nat) (d : List Nat),
      s.dev.sound ∧
      die < 4 ∧
      e < 16 ∧
      s.dev.dmaNext die e (Work.slice sd idx) k = some (entry, d) ∧
      dmBad s.dev.ownId d = false ∧
      (dmSrcRemote d || dmDstRemote d) = false) ∧
    (∃ (s : State) (die : Nat) (e : Nat) (sd : Nat) (idx : Nat) (k : Nat) (entry : Nat) (d : List Nat),
      s.dev.sound ∧
      die < 4 ∧
      e < 16 ∧
      s.dev.dmaNext die e (Work.slice sd idx) k = some (entry, d) ∧
      dmBad s.dev.ownId d = true ∧
      s.dev.on die DMA_ERR_STATUS_VALID = false) ∧
    (∃ (s : State) (die : Nat) (e : Nat) (sd : Nat) (idx : Nat) (entry : Nat) (d : List Nat) (t : Tlb) (b : Nat) (n : Nat) (c : Nat) (q : Tlb),
      s.dev.sound ∧
      die < 4 ∧
      e < 16 ∧
      s.dev.dmaRun die e = some (some (Work.slice sd idx), entry, d) ∧
      s.dev.on die (DMA_ENG_STATUS_PARKING e) = false ∧
      s.dev.isFenced die (mDma + e) = false ∧
      (dmOpcode d = 2 ∨ dmOpcode d = 1) ∧
      (dmSrcRemote d || dmDstRemote d) = false ∧
      dmSignalEn d = false ∧
      dmRows d = 1 ∧
      dmDoneRows d = 0 ∧
      dmDoneBytes d = 0 ∧
      14 < d.length ∧
      dmLength d = n ∧
      1 ≤ n ∧
      n ≤ 64 ∧
      dmDst d % 65536 + n ≤ 65536 ∧
      s.dev.on 0 XLATE_CTL_EN = true ∧
      s.dev.tlbHit die (mDma + e) 0 (dmDst d) = some t ∧
      t.pin = true ∧
      t.wr = true ∧
      b = t.pa + (dmDst d - t.va) ∧
      s.dev.accessStatus die (mDma + e) b n true = stDONE ∧
      s.dev.pond.ecc = [] ∧
      s.dev.pond.link = [] ∧
      s.dev.routeUp (s.dev.homeDie (s.dev.region b)) die = true ∧
      b + n ≤ fusionBase 0 ∧
      s.dev.paOf die 0 (dmDst d) = some b ∧
      (dmOpcode d = 2 ∨ dmSrc d % 65536 + n ≤ 65536 ∧ s.dev.tlbHit die (mDma + e) 0 (dmSrc d) = some q ∧ q.pin = true ∧ q.rd = true ∧ c = q.pa + (dmSrc d - q.va) ∧ s.dev.accessStatus die (mDma + e) c n false = stDONE ∧ s.dev.routeUp (s.dev.homeDie (s.dev.region c)) die = true)) :=
  ⟨⟨({ dev := dn wFill } : State), 0, 1, 0, 0, 0, 0, wFill,
      ⟨by decide +kernel, by decide +kernel⟩, by decide +kernel⟩,
   ⟨({ dev := dn wBad } : State), 0, 1, 0, 0, 0, 0, wBad,
      ⟨by decide +kernel, by decide +kernel⟩, by decide +kernel⟩,
   ⟨({ dev := dm } : State), 0, 1, 0, 0, 0, wFill, tl, 0x20000, 40, 0, tl,
      ⟨by decide +kernel, by decide +kernel⟩, by decide +kernel⟩⟩

theorem witness_ErrorsAndTimers :
    (∃ (s : State) (die : Nat) (blk : Nat) (off : Nat),
      s.dev.sound ∧
      s.dev.err.snap = [(die, blk, off)] ∧
      blk < 32 ∧
      off < 65536 ∧
      (∀ i < 2, (s.dev.island i).stopped = false)) ∧
    (∃ (s : State) (value : Nat),
      s.dev.sound ∧
      bit value 31 = false ∧
      bit value 30 = true) :=
  ⟨⟨({ dev := runS (errS { snap := [(1, 2, 0x24)] }) } : State), 1, 2, 0x24,
      ⟨by decide +kernel, by decide +kernel⟩, by decide +kernel⟩,
   ⟨({ dev := e0.set 2 DIE_CTL_ERR_STATUS_OVERFLOW } : State), 2 ^ 30,
      ⟨by decide +kernel, by decide +kernel⟩, by decide +kernel⟩⟩

theorem witness_FullResetKeepsFusesAndFlashOnly :
    (∃ (s : State) (op : Nat) (a : Nat),
      s.dev.eft.flashOp = some (op, a) ∧
      op ≠ 0) ∧
    (∃ (s : State) (v : Nat),
      s.dev.eft.burn = some v ∧
      v ≤ s.dev.eft.fuses.version) :=
  ⟨⟨({ dev := eft { flashOp := some (1, 0x20000) } } : State), 1, 0x20000,
      by decide +kernel⟩,
   ⟨({ dev := eft { burn := some 3, fuses := { version := 5 } } } : State), 3,
      by decide +kernel⟩⟩

theorem witness_HaltsAndSteps :
    (∃ (s : State) (t : Nat) (op : Nat) (reg : Nat) (data : Nat) (c : Instr),
      s.dev.sound ∧
      s.dev.debugOpen = false ∧
      c ∈ [Instr.bdtmNop op, Instr.bdtmRead t reg, Instr.bdtmWrite t reg data]) ∧
    (∃ (s : State) (t : Nat) (c : Instr),
      s.dev.sound ∧
      s.dev.debugOpen = false ∧
      c ∈ [Instr.haltReq t, Instr.resume t, Instr.step t]) :=
  ⟨⟨({ dev := life 3 } : State), 5, 1, 0, 7, .bdtmRead 5 0,
      ⟨by decide +kernel, by decide +kernel⟩, by decide +kernel⟩,
   ⟨({ dev := life 3 } : State), 5, .haltReq 5,
      ⟨by decide +kernel, by decide +kernel⟩, by decide +kernel⟩⟩

theorem witness_HostClassAtIssue :
    (∃ (s : State) (die : Nat) (n : Nat) (c : Nat) (r : Req) (col : Nat) (off : Nat),
      s.dev.sound ∧
      die < 4 ∧
      n < 4 ∧
      c < 16 ∧
      r.die = die ∧
      r.master = mHost + n ∧
      r.cls < 16 ∧
      r.remote = [] ∧
      r.work = none ∧
      s.dev.label r = (false, c) ∧
      s.dev.region r.addr = Region.pond die col off ∧
      s.dev.isFenced die r.master = false ∧
      s.dev.accessStatus die r.master r.addr r.len r.write = stDONE ∧
      s.dev.outstanding die (mHost + n) c < s.dev.classLimit die (mHost + n) c ∧
      s.dev.regul.held = [] ∧
      admits (s.dev.portQueue die col) false = true) ∧
    (∃ (s : State) (die : Nat) (n : Nat) (c : Nat) (r : Req) (col : Nat) (off : Nat),
      s.dev.sound ∧
      die < 4 ∧
      n < 4 ∧
      c < 16 ∧
      r.die = die ∧
      r.master = mHost + n ∧
      r.cls < 16 ∧
      r.remote = [] ∧
      r.work = none ∧
      s.dev.label r = (false, c) ∧
      s.dev.region r.addr = Region.pond die col off ∧
      s.dev.isFenced die r.master = false ∧
      s.dev.accessStatus die r.master r.addr r.len r.write = stDONE ∧
      s.dev.outstanding die (mHost + n) c < s.dev.classLimit die (mHost + n) c ∧
      s.dev.regul.held = [] ∧
      32 ≤ (s.dev.portQueue die col).length) ∧
    (∃ (s : State) (die : Nat) (n : Nat) (c : Nat),
      s.dev.sound ∧
      die < 4 ∧
      n < 4 ∧
      c < 16 ∧
      s.dev.regul.held = [] ∧
      0 < s.dev.outstanding die (mHost + n) c) ∧
    (∃ (s : State) (die : Nat) (n : Nat) (c : Nat) (x : Req),
      s.dev.sound ∧
      die < 4 ∧
      n < 4 ∧
      c < 16 ∧
      s.dev.pond.waiting = [x] ∧
      x.die = die ∧
      x.master = mHost + n ∧
      x.cls = 16 + c ∧
      x.work = none ∧
      x.remote = []) :=
  ⟨⟨({ dev := e0 } : State), 1, 1, 0, reqH, 0, 16,
      ⟨by decide +kernel, by decide +kernel⟩, by decide +kernel⟩,
   ⟨({ dev := pq 1 0 (List.replicate 32 true) e0 } : State), 1, 1, 0, reqH, 0, 16,
      ⟨by decide +kernel, by decide +kernel⟩, by decide +kernel⟩,
   ⟨({ dev := { e0 with regul := { e0.regul with count := [(countKey 1 0x51 2, 2)] } } } : State), 1, 1, 2,
      ⟨by decide +kernel, by decide +kernel⟩, by decide +kernel⟩,
   ⟨({ dev := wtg reqX { e0 with regul := { e0.regul with count := [(countKey 1 0x51 2, 2)] } } } : State), 1, 1, 2, reqX,
      ⟨by decide +kernel, by decide +kernel⟩, by decide +kernel⟩⟩

theorem witness_LifeCycleAndQuote :
    (∃ (s : State),
      s.dev.sound ∧
      s.dev.reqCheck (s.dev.reqBytes EFT_REQ_WORD) (s.dev.challenge EFT_CHALLENGE_WORD) [0, 1, 2, 3, 4] ≠ 0) ∧
    (∃ (s : State),
      s.dev.sound ∧
      s.dev.on 0 EFT_BOOT_STATUS_READY = true) :=
  ⟨⟨({ dev := e0 } : State),
      ⟨by decide +kernel, by decide +kernel⟩, by decide +kernel⟩,
   ⟨({ dev := e0.set 0 EFT_BOOT_STATUS_READY } : State),
      ⟨by decide +kernel, by decide +kernel⟩, by decide +kernel⟩⟩

theorem witness_ListCommands :
    (∃ (s : State) (i : Issue) (w : List Nat) (core : Nat),
      s.dev.sound ∧
      s.dev.offers i w [] core ∧
      hdOpcode w = 0) ∧
    (∃ (s : State) (i : Issue) (w : List Nat) (core : Nat),
      s.dev.sound ∧
      s.dev.offers i w [] core ∧
      hdOpcode w = 32 ∧
      bit (wd w 1) 31 = false ∧
      s.dev.syncAddStatus (core / 64) (wd w 1 % 65536) = stDONE) ∧
    (∃ (s : State) (i : Issue) (w : List Nat) (core : Nat) (port : Nat),
      s.dev.sound ∧
      s.dev.offers i w [] core ∧
      hdOpcode w = 32 ∧
      bit (wd w 1) 31 = true ∧
      s.dev.egress (wd w 2 % 65536) = some port ∧
      s.dev.sendStatus (wd w 2 % 65536) = stDONE) ∧
    (∃ (s : State) (i : Issue) (w : List Nat) (core : Nat) (g : Nat),
      s.dev.sound ∧
      s.dev.offers i w [] core ∧
      hdOpcode w = 33 ∧
      i.work = Work.ring g) ∧
    (∃ (s : State) (i : Issue) (w : List Nat) (core : Nat) (sd : Nat) (idx : Nat),
      s.dev.sound ∧
      s.dev.offers i w [] core ∧
      hdOpcode w = 33 ∧
      i.work = Work.slice sd idx) ∧
    (∃ (s : State) (i : Issue) (w : List Nat) (core : Nat) (g : Nat) (k : Kernel),
      s.dev.sound ∧
      s.dev.offers i w [] core ∧
      hdOpcode w = 35 ∧
      i.work = Work.ring g ∧
      s.dev.kernelOf g = some k) :=
  ⟨⟨({ dev := sl0 } : State), iSl, wop 0 [], 0,
      ⟨by decide +kernel, by decide +kernel⟩, offers_of (by decide +kernel), by decide +kernel⟩,
   ⟨({ dev := kS } : State), iRg, wop 0x20 [(1, 40), (2, 9), (3, 3)], 5,
      ⟨by decide +kernel, by decide +kernel⟩, offers_of (by decide +kernel), by decide +kernel⟩,
   ⟨({ dev := kO } : State), iRg, wop 0x20 [(1, 2 ^ 31 + 40), (2, 7), (3, 3)], 5, 2,
      ⟨by decide +kernel, by decide +kernel⟩, offers_of (by decide +kernel), by decide +kernel⟩,
   ⟨({ dev := kS } : State), iRg, wop 0x21 [(1, 5), (2, 9)], 5, 5,
      ⟨by decide +kernel, by decide +kernel⟩, offers_of (by decide +kernel), by decide +kernel⟩,
   ⟨({ dev := sl0 } : State), iSl, wop 0x21 [(1, 5), (2, 9)], 0, 0, 0,
      ⟨by decide +kernel, by decide +kernel⟩, offers_of (by decide +kernel), by decide +kernel⟩,
   ⟨({ dev := kB } : State), iRg, wop 0x23 [(1, 5)], 5, 5, { k5 with entry := 0 },
      ⟨by decide +kernel, by decide +kernel⟩, offers_of (by decide +kernel), by decide +kernel⟩⟩

theorem witness_MemoryRecordsClearFirst :
    ∃ (s : State) (value : Nat) (src : Nat) (master : Nat) (a : Nat),
      s.dev.sound ∧
      value / 2 ^ 31 % 2 = 1 ∧
      src < 4 ∧
      master < 256 ∧
      a < 2 ^ 48 :=
  ⟨({ dev := m0.set 1 DIE_CTL_UNMAPPED_STATUS_VALID } : State), 2 ^ 31, 3, 255, 2 ^ 48 - 1,
      ⟨by decide +kernel, by decide +kernel⟩, by decide +kernel⟩

theorem witness_ResetState :
    (∃ (die : Nat) (n : Nat),
      die < 4 ∧
      n < 4) ∧
    (∃ (die : Nat) (c : Nat),
      die < 4 ∧
      c < 16) ∧
    (∃ (die : Nat) (n : Nat),
      die < 4 ∧
      n < 8) ∧
    (∃ (die : Nat) (n : Nat),
      die < 4 ∧
      n < 12) ∧
    (∃ (die : Nat) (f : Fld),
      die < 4 ∧
      f ∈ [CHORUS_LOCK_LOCK, POND_CTL_LOCK, DISPATCH_CTL_LOCK, REGULATE_CTL_LOCK, EFT_BOOT_STATUS_READY, SAFETY_CTL_LOCK, BASK_STATUS_TRIP, DIE_CTL_ERR_STATUS_VALID, POND_ERR_STATUS_VALID, SYNC_STATUS_REFUSED]) :=
  ⟨⟨3, 3,
      by decide +kernel⟩,
   ⟨3, 15,
      by decide +kernel⟩,
   ⟨3, 7,
      by decide +kernel⟩,
   ⟨3, 11,
      by decide +kernel⟩,
   ⟨3, BASK_STATUS_TRIP,
      by decide +kernel⟩⟩

theorem witness_RetentionAndPatrol :
    ∃ (s : State),
      s.dev.sound ∧
      s.dev.pond.ecc = [] ∧
      s.dev.pond.link = [] ∧
      s.dev.on 0 LP5X_CTL_INLINE_ECC = true ∧
      s.dev.on 0 LP5X_CTL_PATROL_EN = true ∧
      s.dev.lpBytes ≠ 0 :=
  ⟨({ dev := (m0.wr 0 LP5X_MAPPED_MAPPED_GIB 4).set 0 LP5X_CTL_PATROL_EN } : State),
      ⟨by decide +kernel, by decide +kernel⟩, by decide +kernel⟩

theorem witness_SharedPorts :
    (∃ (s : State) (r : Req) (die : Nat) (col : Nat) (off : Nat),
      s.dev.sound ∧
      s.dev.pond.ecc = [] ∧
      s.dev.region r.addr = Region.pond die col off ∧
      r.die = die ∧
      r.master < mHost ∧
      (s.dev.label r).1 = true ∧
      r.coreWords = [] ∧
      r.remote = [] ∧
      r.work = none ∧
      1 ≤ r.len ∧
      s.dev.accessStatus r.die r.master r.addr r.len r.write = stDONE ∧
      s.dev.isFenced r.die r.master = false ∧
      s.dev.ownAccess r.die r.master r.addr = false ∧
      s.dev.regul.held = [] ∧
      (s.dev.portQueue die col).length < 32 ∧
      r.write = true) ∧
    (∃ (s : State) (r : Req) (die : Nat) (col : Nat) (off : Nat),
      s.dev.sound ∧
      s.dev.pond.ecc = [] ∧
      s.dev.region r.addr = Region.pond die col off ∧
      r.die = die ∧
      r.master < mHost ∧
      (s.dev.label r).1 = true ∧
      r.coreWords = [] ∧
      r.remote = [] ∧
      r.work = none ∧
      1 ≤ r.len ∧
      s.dev.accessStatus r.die r.master r.addr r.len r.write = stDONE ∧
      s.dev.isFenced r.die r.master = false ∧
      s.dev.ownAccess r.die r.master r.addr = false ∧
      s.dev.regul.held = [] ∧
      (s.dev.portQueue die col).length < 32 ∧
      r.write = false) ∧
    (∃ (s : State) (r : Req) (die : Nat) (col : Nat) (off : Nat),
      s.dev.sound ∧
      s.dev.pond.ecc = [] ∧
      s.dev.region r.addr = Region.pond die col off ∧
      r.die = die ∧
      r.master < mHost ∧
      (s.dev.label r).1 = true ∧
      r.coreWords = [] ∧
      r.remote = [] ∧
      r.work = none ∧
      1 ≤ r.len ∧
      s.dev.accessStatus r.die r.master r.addr r.len r.write = stDONE ∧
      s.dev.isFenced r.die r.master = false ∧
      s.dev.ownAccess r.die r.master r.addr = false ∧
      s.dev.regul.held = [] ∧
      32 ≤ (s.dev.portQueue die col).length) ∧
    (∃ (s : State) (r : Req) (die : Nat) (col : Nat) (off : Nat) (x : Bool) (q : List Bool),
      s.dev.sound ∧
      s.dev.pond.ecc = [] ∧
      s.dev.region r.addr = Region.pond die col off ∧
      r.die = die ∧
      r.master < mHost ∧
      (s.dev.label r).1 = true ∧
      r.coreWords = [] ∧
      r.remote = [] ∧
      r.work = none ∧
      1 ≤ r.len ∧
      s.dev.accessStatus r.die r.master r.addr r.len r.write = stDONE ∧
      s.dev.isFenced r.die r.master = false ∧
      s.dev.ownAccess r.die r.master r.addr = false ∧
      s.dev.regul.held = [] ∧
      s.dev.portQueue die col = x :: q ∧
      q.length < 32 ∧
      s.dev.pond.waiting = [r] ∧
      r.write = false) ∧
    (∃ (s : State) (die : Nat) (col : Nat) (x : Bool) (q : List Bool),
      s.dev.sound ∧
      s.dev.portQueue die col = x :: q ∧
      s.dev.pond.waiting = []) :=
  ⟨⟨({ dev := m0 } : State), { reqD with write := true, len := 13, data := 2 ^ 99 + 3 }, 0, 0, 16,
      ⟨by decide +kernel, by decide +kernel⟩, by decide +kernel⟩,
   ⟨({ dev := m0 } : State), reqD, 0, 0, 16,
      ⟨by decide +kernel, by decide +kernel⟩, by decide +kernel⟩,
   ⟨({ dev := pq 0 0 (List.replicate 32 true) m0 } : State), reqD, 0, 0, 16,
      ⟨by decide +kernel, by decide +kernel⟩, by decide +kernel⟩,
   ⟨({ dev := wtg reqD (pq 0 0 (List.replicate 32 true) m0) } : State), reqD, 0, 0, 16, true, List.replicate 31 true,
      ⟨by decide +kernel, by decide +kernel⟩, by decide +kernel⟩,
   ⟨({ dev := pq 0 0 [true, false] m0 } : State), 0, 0, true, [false],
      ⟨by decide +kernel, by decide +kernel⟩, by decide +kernel⟩⟩

theorem witness_SyncRegisterAdds :
    ∃ (s : State) (die : Nat),
      s.dev.sound ∧
      s.dev.syncReserved (die * 16384 + s.dev.rd die SYNC_SEL_INDEX) = true :=
  ⟨({ dev := { e0.wr 1 SYNC_SEL_INDEX 2 with chorus := { e0.chorus with syncRsv := [16386] } } } : State), 1,
      ⟨by decide +kernel, by decide +kernel⟩, by decide +kernel⟩

theorem witness_TickLayoutWrites :
    (∃ (s : State) (x : Nat),
      s.dev.sound ∧
      s.dev.chorusEdge.2 = true ∧
      s.dev.chorus.pendPeriod.now = some x) ∧
    (∃ (s : State) (x : Nat),
      s.dev.sound ∧
      s.dev.chorusEdge.2 = true ∧
      s.dev.chorus.pendFrame.now = some x) ∧
    (∃ (s : State),
      s.dev.sound ∧
      s.dev.chorusEdge.2 = false) :=
  ⟨⟨({ dev := { e0 with chorus := { firstEdge := true, pendPeriod := { now := some 75000 } } } } : State), 75000,
      ⟨by decide +kernel, by decide +kernel⟩, by decide +kernel⟩,
   ⟨({ dev := { e0 with chorus := { firstEdge := true, pendFrame := { now := some 32 } } } } : State), 32,
      ⟨by decide +kernel, by decide +kernel⟩, by decide +kernel⟩,
   ⟨({ dev := { e0 with chorus := { firstEdge := false, pendPeriod := { now := some 75000 } } } } : State),
      ⟨by decide +kernel, by decide +kernel⟩, by decide +kernel⟩⟩

theorem witness_UnitsLeaveAndReturn :
    (∃ (s : State) (die : Nat) (u : Nat) (c : Instr),
      s.dev.sound ∧
      (s.dev.on die DIE_CTL_UNIT_RESET_BUSY = true ∨ unitPresent die u = false) ∧
      c ∈ [Instr.unitReset die u, Instr.unitDisable die u, Instr.unitEnable die u]) ∧
    (∃ (s : State) (die : Nat) (u : Nat) (c : Instr),
      s.dev.sound ∧
      (¬(s.dev.on die DIE_CTL_UNIT_RESET_BUSY = true ∨ unitPresent die u = false)) ∧
      unitAlone u = false ∧
      c ∈ [Instr.unitReset die u, Instr.unitDisable die u, Instr.unitEnable die u]) :=
  ⟨⟨({ dev := e0.set 0 DIE_CTL_UNIT_RESET_BUSY } : State), 0, 5, .unitDisable 0 5,
      ⟨by decide +kernel, by decide +kernel⟩, by decide +kernel⟩,
   ⟨({ dev := e0 } : State), 0, mReflex, .unitReset 0 mReflex,
      ⟨by decide +kernel, by decide +kernel⟩, by decide +kernel⟩⟩

theorem witness_WalksAndFaults :
    (∃ (s : State) (die : Nat) (unit : Nat) (va : Nat) (w : Work) (sd : Nat) (idx : Nat),
      s.dev.sound ∧
      w = Work.slice sd idx ∧
      unit < 64 ∧
      s.dev.on 0 XLATE_CTL_EN = true ∧
      s.dev.tlbHit die unit 0 va = none) ∧
    (∃ (s : State) (die : Nat) (e : Nat) (f : XFault),
      s.dev.sound ∧
      s.dev.xlate.faults = [f] ∧
      f.die = die ∧
      f.unit = mDma + e ∧
      f.dma = true ∧
      f.terminal = false ∧
      f.stage = FaultStage.raised ∧
      (s.dev.job f.job).state = 1) ∧
    (∃ (s : State) (die : Nat) (unit : Nat) (f : XFault),
      s.dev.sound ∧
      s.dev.xlate.faults = [f] ∧
      f.die = die ∧
      f.unit = unit ∧
      f.dma = false ∧
      f.terminal = false ∧
      f.stage = FaultStage.raised ∧
      die < 4 ∧
      unit < 64 ∧
      f.slot = 255 ∧
      s.dev.disp.resumed = [] ∧
      s.dev.kernelOf f.ring = none ∧
      s.dev.pond.ecc = [] ∧
      s.dev.pond.link = [] ∧
      (s.dev.job f.job).state = 1 ∧
      s.dev.saveSlot die unit 0 + 266240 ≤ storeBase) ∧
    (∃ (s : State) (die : Nat) (unit : Nat) (f : XFault),
      s.dev.sound ∧
      s.dev.xlate.faults = [f] ∧
      f.die = die ∧
      f.unit = unit ∧
      f.stage = FaultStage.parked ∧
      f.terminal = false ∧
      f.queue < 4 ∧
      s.dev.on 0 (XLATE_FQ_CTL_EN f.queue) = true ∧
      s.dev.fqFull f.queue = false ∧
      s.dev.accessStatus die mFault (s.dev.fqBase f.queue + 128 * s.dev.rd 0 (XLATE_FQ_TAIL_INDEX f.queue)) 128 true = stDONE ∧
      s.dev.routeUp (s.dev.homeDie (s.dev.region (s.dev.fqBase f.queue + 128 * s.dev.rd 0 (XLATE_FQ_TAIL_INDEX f.queue)))) die = true ∧
      s.dev.pond.ecc = [] ∧
      s.dev.pond.link = [] ∧
      (s.dev.rd 0 (XLATE_FQ_MSI_LO_VALUE f.queue) + 2 ^ 32 * (s.dev.rd 0 (XLATE_FQ_MSI_HI_VALUE f.queue) % 65536) + 4 ≤ s.dev.fqBase f.queue + 128 * s.dev.rd 0 (XLATE_FQ_TAIL_INDEX f.queue) ∨ s.dev.fqBase f.queue + 128 * s.dev.rd 0 (XLATE_FQ_TAIL_INDEX f.queue) + 128 ≤ s.dev.rd 0 (XLATE_FQ_MSI_LO_VALUE f.queue) + 2 ^ 32 * (s.dev.rd 0 (XLATE_FQ_MSI_HI_VALUE f.queue) % 65536)) ∧
      s.dev.plainMsi (s.dev.rd 0 (XLATE_FQ_MSI_LO_VALUE f.queue) + 2 ^ 32 * (s.dev.rd 0 (XLATE_FQ_MSI_HI_VALUE f.queue) % 65536))) ∧
    (∃ (s : State) (q : Nat),
      s.dev.sound ∧
      q < 4 ∧
      s.dev.xlate.faults = []) ∧
    (∃ (s : State) (id : Nat),
      s.dev.sound ∧
      s.dev.parkedFault id = none) ∧
    (∃ (s : State) (id : Nat) (f : XFault),
      s.dev.sound ∧
      s.dev.xlate.faults = [f] ∧
      s.dev.parkedFault id = some f ∧
      f.dma = false ∧
      (s.dev.job f.job).state = 2 ∧
      s.dev.kernelOf f.ring = none) ∧
    (∃ (s : State) (id : Nat) (f : XFault),
      s.dev.sound ∧
      s.dev.parkedFault id = some f ∧
      f.ring = frameRing) :=
  ⟨⟨({ dev := m0.set 0 XLATE_CTL_EN } : State), 1, 3, 0x30000, .slice 1 4, 1, 4,
      ⟨by decide +kernel, by decide +kernel⟩, by decide +kernel⟩,
   ⟨({ dev := fd f0 1 } : State), 0, 1, f0,
      ⟨by decide +kernel, by decide +kernel⟩, by decide +kernel⟩,
   ⟨({ dev := fd fc 1 } : State), 0, 3, fc,
      ⟨by decide +kernel, by decide +kernel⟩, by decide +kernel⟩,
   ⟨({ dev := ((fd fp 2).set 0 (XLATE_FQ_CTL_EN 1)).wr 0 (XLATE_FQ_BASE_LO_ADDR 1) 0x30000 } : State), 0, 0x41, fp,
      ⟨by decide +kernel, by decide +kernel⟩, by decide +kernel, by decide +kernel, by decide +kernel, by decide +kernel, by decide +kernel, by decide +kernel, by decide +kernel, by decide +kernel, by decide +kernel, by decide +kernel, by decide +kernel, by decide +kernel, by decide +kernel, plainMsi_of (by decide +kernel)⟩,
   ⟨({ dev := m0 } : State), 3,
      ⟨by decide +kernel, by decide +kernel⟩, by decide +kernel⟩,
   ⟨({ dev := m0 } : State), 9,
      ⟨by decide +kernel, by decide +kernel⟩, by decide +kernel⟩,
   ⟨({ dev := fd f1 2 } : State), 1, f1,
      ⟨by decide +kernel, by decide +kernel⟩, by decide +kernel⟩,
   ⟨({ dev := fd fr 2 } : State), 1, fr,
      ⟨by decide +kernel, by decide +kernel⟩, by decide +kernel⟩⟩

theorem witness_WritesKeepTailActive :
    ∃ (s : State) (blk : Nat) (off : Nat),
      s.dev.sound ∧
      (blk = 17 ∨ blk = 21) ∧
      off < 65536 :=
  ⟨({ dev := (e0.set 0 REFLEX_CTRL_STATUS_TAIL_ACTIVE).set 1 SAFETY_STATUS_TAIL_ACTIVE } : State), 21, 0x14,
      ⟨by decide +kernel, by decide +kernel⟩, by decide +kernel⟩

/-- Device time runs from a state that begins: the run is the machine's own. -/
theorem witness_DeviceTimeRuns : ∃ run : Nat → State,
    (∀ n, step (run n) = .next (run (n + 1))) ∧ (run 0).pending = [] ∧ (run 0).sound ∧ (run 0).dev.eft.begun = true ∧
      (run 0).dev.chorus.slewPpm = 0 ∧ (run 0).dev.chorus.frac = 0 ∧ (run 0).dev.chorus.time < 2 ^ 64 :=
  ⟨fun n => { dev := Nat.rec (eft { begun := true }) (fun _ d => d.passRc.done) n }, fun _ => rfl, rfl,
    ⟨by decide +kernel, by decide +kernel⟩, by decide +kernel⟩

theorem witness_EveryStepKeepsSound : ∃ s t : State, s.sound ∧ step s = .next t :=
  ⟨State.reset, _, ⟨by decide +kernel, by decide +kernel⟩, rfl⟩

theorem witness_StepRunsFrontCommand : ∃ (s : State) (c : Instr) (t : State), exec c s = .next t :=
  ⟨State.reset, .conservationAudit, _, rfl⟩

theorem witness_WalksAndFaults_translated : ∃ (s : State) (die unit va a : Nat) (w : Work) (write : Bool) (s1 : Device),
    s.dev.sound ∧ s.dev.translate die unit (s.dev.workJob w) va write = (s1, .pa a) ∧ s1.sound :=
  ⟨{ dev := dm }, 0, 0x41, 0x10004, 0x20004, .slice 0 0, true, dm, ⟨by decide +kernel, by decide +kernel⟩, by decide +kernel,
    ⟨by decide +kernel, by decide +kernel⟩⟩

/-- A PROVISION request (R402) of a manufacturer whose key is the curve's base point, to a device whose identity key is that point too:
the words of its 360 bytes, signed with the nonce 1 (made outside Lean from the standards that R1 names). -/
def requestWords : List Nat :=
  [1, 0, 3769531922, 2511904853, 0, 0, 0, 0, 0, 0, 0, 0, 2391131648, 67417862, 1050594793, 2502125259, 1687962292, 1057307009,
   687350197, 1298882735, 1268890173, 3891230558, 503195737, 4288817089, 1211358888, 1787150771, 2130287426, 3854709118, 402745021,
   2020223289, 79707034, 3026160220, 3642457388, 1229256088, 1749326679, 398307095, 744898087, 2574446231, 1076294750, 28922053,
   1627893055, 2255502389, 1086485154, 1989459592, 1348915615, 0, 0, 0, 0, 0, 0, 0, 0, 0, 0, 0, 0, 2391131648, 67417862, 1050594793,
   2502125259, 1687962292, 1057307009, 687350197, 1298882735, 1268890173, 3891230558, 503195737, 4288817089, 1211358888, 1787150771,
   2130287426, 3854709118, 3338692285, 2076969768, 926441676, 3562992211, 4226595243, 586097296, 1371198204, 548324570, 721508366,
   3135098662, 3870650675, 510165379, 3936162142, 1539806749, 663632913, 2667868392, 2860199201]

/-- Its bytes, and a device in MANUFACTURE that holds it. -/
def request : List Nat := requestWords.flatMap fun w => toBytes w 4
def provisionS : State :=
  { dev := { (List.range 90).foldl (fun d i => d.wr 0 (EFT_REQ_WORD i) (wd requestWords i)) e0 with
      eft := { fuses := { state := lcMANUFACTURE, mfgHash := sha512 (rqKey request) } } } }

theorem provisionS_bytes : provisionS.dev.reqBytes EFT_REQ_WORD = request := by decide +kernel

theorem ecMul_rest (k : Nat) (l : List Nat) (h : ∀ i ∈ l, bit k i = false) (v : Option (Nat × Nat) × Option (Nat × Nat)) :
    (l.foldl (fun v i => (if bit k i then ecAdd v.1 v.2 else v.1, ecAdd v.2 v.2)) v).1 = v.1 := by
  induction l generalizing v with
  | nil => rfl
  | cons a l ih => simp [ih fun i hi => h i (.tail _ hi), h a (.head _)]

theorem ecMul_one (p : Nat × Nat) : ecMul 1 p = some p := by
  rw [ecMul, show List.range 521 = 0 :: (List.range 520).map (· + 1) by decide +kernel, List.foldl_cons,
    ecMul_rest 1 _ (by decide +kernel)]
  rfl

theorem deviceHash_of {s : Device} {n : Nat} (h : s.eft.fuses.secret = n) (hk : identityScalar n = 1) :
    s.deviceHash = sha512 (beBytes ecG.1 66 ++ beBytes ecG.2 66) % 2 ^ 64 := by
  simp only [Device.deviceHash, h, identityKey, hk, ecMul_one, Option.getD_some]

theorem request_hash : sha512 (beBytes ecG.1 66 ++ beBytes ecG.2 66) % 2 ^ 64 = byteNum request 8 8 := by decide +kernel

theorem provisionS_hash (hk : identityScalar 0 = 1) : provisionS.dev.deviceHash = byteNum request 8 8 :=
  (deviceHash_of (n := 0) rfl hk).trans request_hash

/-- The clause on an accepted request. Which number the identity key has is a free value, so it stands as a hypothesis; that the signature
holds stands as one too, because evaluating it is long (its value is true). -/
theorem witness_LifeCycleAndQuote_accepted (hk : identityScalar 0 = 1)
    (hs : ecdsaOk (beNum (rqKey request)) (sha512 (request.take 228)) (beNum (request.drop 228)) = true) :
    ∃ s : State, s.dev.sound ∧
      s.dev.reqCheck (s.dev.reqBytes EFT_REQ_WORD) (s.dev.challenge EFT_CHALLENGE_WORD) [0, 1, 2, 3, 4] = 0 ∧ s.dev.atRest = true ∧
      s.dev.eft.fuses.spent (rqOp (s.dev.reqBytes EFT_REQ_WORD)) = false ∧ s.dev.eft.flashOp = none ∧ s.dev.eft.burn = none := by
  refine ⟨provisionS, ⟨by decide +kernel, by decide +kernel⟩, ?_, by decide +kernel⟩
  have hf : provisionS.dev.reqFormOk request (provisionS.dev.challenge EFT_CHALLENGE_WORD) [0, 1, 2, 3, 4] = true := by
    unfold Device.reqFormOk
    rw [provisionS_hash hk]
    decide +kernel
  have ho : rqOp request = 0 := by decide +kernel
  have hm : provisionS.dev.eft.fuses.mfgHash = sha512 (rqKey request) := by rfl
  have ha : provisionS.dev.eft.fuses.admits 0 = true := by decide +kernel
  rw [provisionS_bytes]
  simp [Device.reqCheck, Device.signer, hf, ho, hm, ha, hs]

end G90

end Sys2Proof.Tests
end

section
/-!
THEOREMS of the family 00_scope: rules for commands that leave memory and the requests alone, the address map, the state after reset, field
input and output, and writes of registers.
-/
namespace Sys2Proof.Machine

/-! ### Commands that leave memory and the requests alone -/

/-- Nothing of what ends a command has work to do: memory, the register requests and the regulator are as before. -/
def Device.idleSince (d s : Device) : Prop := d.mem = s.mem ∧ d.regReqs = s.regReqs ∧ d.regul = s.regul

theorem Device.idleSince.trans {s d e : Device} (h : e.idleSince d) (h' : d.idleSince s) : e.idleSince s :=
  ⟨h.1.trans h'.1, h.2.1.trans h'.2.1, h.2.2.trans h'.2.2⟩

theorem Device.idleSince.done {s d : Device} (h : d.idleSince s) (hs : s.sound) : d.done = d := by
  obtain ⟨hm, hr, hg⟩ := h
  exact Device.done_same hs hm hr (by rw [hg])

theorem Device.idleSince.keepsMem {s d : Device} (h : d.idleSince s) : keepsMem s d := fun a => by
  rw [Device.byte, Device.byte, h.1]

/-- A command whose body leaves a sound device idle answers what the body gives. -/
theorem exec_of_body {c : Instr} {s : State} {f : Device → Device} {d : Device} (hs : s.dev.sound)
    (hx : exec c s = s.upd f) (hf : f s.dev = d) (hd : d.idleSince s.dev) : exec c s = .next (s.withDev d) := by
  rw [hx, State.upd_eq, hf, hd.done hs]; rfl

theorem runs_of_exec {c : Instr} {s : State} {d : Device} {P : Device → Prop} (hx : exec c s = .next (s.withDev d)) (hd : d.idleSince s.dev)
    (hP : P d) : runs c s fun t => keepsMem s.dev t ∧ P t := ⟨s.withDev d, hx, rfl, hd.keepsMem, hP⟩

theorem runs_of_body {c : Instr} {s : State} {f : Device → Device} {d : Device} {P : Device → Prop} (hs : s.dev.sound)
    (hx : exec c s = s.upd f) (hf : f s.dev = d) (hd : d.idleSince s.dev) (hP : P d) :
    runs c s fun t => keepsMem s.dev t ∧ P t :=
  runs_of_exec (exec_of_body hs hx hf hd) hd hP

/-! ### Reads of fields after writes of others -/

theorem SMap.get_of_notMem {V : Type} {d : V} {m : SMap V} {k : Nat} (h : ∀ e ∈ m, e.1 ≠ k) : SMap.get d m k = d := by
  induction m with
  | nil => rfl
  | cons e r ih => rw [SMap.get, if_neg (h e (.head _)), ih fun e he => h e (.tail _ he)]

/-- Two fields with different lowest bits have different keys, wherever they lie. -/
def Fld.apart (f g : Fld) : Bool := decide (f.lo < 32 ∧ g.lo < 32 ∧ f.lo ≠ g.lo)

theorem Fld.key_ne_of_apart {f g : Fld} (h : f.apart g = true) (d e : Nat) : f.key d ≠ g.key e := by
  obtain ⟨hf, hg, hne⟩ := of_decide_eq_true h
  unfold Fld.key; omega

/-- A field lies in the map: its bit, offset and block are in range. -/
abbrev Fld.inMap (f : Fld) : Prop := f.lo < 32 ∧ f.off < 0x10000 ∧ f.blk < 32

/-- Fields of two registers have different keys, on whichever dies. -/
theorem Fld.key_ne_of_inMap {f g : Fld} (hf : f.inMap) (hg : g.inMap) (h : f.blk ≠ g.blk ∨ f.off ≠ g.off) (d e : Nat) :
    f.key d ≠ g.key e := by
  obtain ⟨hfl, hfo, hfb⟩ := hf
  obtain ⟨hgl, hgo, hgb⟩ := hg
  unfold Fld.key; omega

theorem keepsFields_wr (s : Device) (d : Nat) (f : Fld) (v : Nat) : keepsFields s (s.wr d f v) [(d, f)] :=
  fun e g h => s.rd_wr_ne d e f g v (h (d, f) (.head _))

theorem Device.rd_wr_apart {s : Device} {d e : Nat} {f g : Fld} {v : Nat} (h : g.apart f = true) :
    (s.wr d f v).rd e g = s.rd e g := s.rd_wr_ne d e f g v (Fld.key_ne_of_apart h e d)

theorem Device.on_wr_apart {s : Device} {d e : Nat} {f g : Fld} {v : Nat} (h : g.apart f = true) :
    (s.wr d f v).on e g = s.on e g := by rw [Device.on, Device.rd_wr_apart h, Device.on]

theorem Device.on_wr_same (s : Device) (d : Nat) (f : Fld) (v : Nat) : (s.wr d f v).on d f = decide (v % 2 ^ f.w ≠ 0) := by
  rw [Device.on, Device.rd_wr_same]

/-- A count that holds reads the lesser of its sum and its greatest value. -/
theorem Device.rd_addHold_same (s : Device) (d : Nat) (f : Fld) (n : Nat) :
    (s.addHold d f n).rd d f = min (s.rd d f + n) (2 ^ f.w - 1) := by
  rw [Device.addHold, Device.rd_wr_same, Nat.mod_eq_of_lt]
  have := Nat.two_pow_pos f.w
  omega

theorem Device.rd_addHold_ne {s : Device} {d e : Nat} {f g : Fld} {n : Nat} (h : g.key e ≠ f.key d) :
    (s.addHold d f n).rd e g = s.rd e g := s.rd_wr_ne d e f g _ h

theorem bit_of_mod {v i : Nat} (h : v / 2 ^ i % 2 = 1) : bit v i = true := decide_eq_true h

theorem bits_zero (v w : Nat) : bits v 0 w = v % 2 ^ w := by rw [bits, Nat.pow_zero, Nat.div_one]

@[simp] theorem Device.rd_setLsio (s : Device) (x : LsioSt) (d : Nat) (f : Fld) : (s.setLsio x).rd d f = s.rd d f := rfl
@[simp] theorem Device.on_setLsio (s : Device) (x : LsioSt) (d : Nat) (f : Fld) : (s.setLsio x).on d f = s.on d f := rfl
@[simp] theorem Device.rd_emit (s : Device) (m : Msg) (d : Nat) (f : Fld) : (s.emit m).rd d f = s.rd d f := rfl
@[simp] theorem Device.on_emit (s : Device) (m : Msg) (d : Nat) (f : Fld) : (s.emit m).on d f = s.on d f := rfl
@[simp] theorem Device.rd_answer (s : Device) (a b d : Nat) (f : Fld) : (s.answer a b).rd d f = s.rd d f := rfl
@[simp] theorem Device.lsio_setLsio (s : Device) (x : LsioSt) : (s.setLsio x).lsio = x := rfl
@[simp] theorem Device.out_emit (s : Device) (m : Msg) : (s.emit m).out = s.out ++ [m] := rfl

/-! ### The address map (R6) -/

theorem Device.region_pond (s : Device) {die off : Nat} (hd : die < 4) (ho : off < 0x48000000) :
    s.region (die * 0x48000000 + off) = .pond die (off / columnBytes) (off % columnBytes) := by
  have hdie : (die * 0x48000000 + off) / pondDieBytes = die := by unfold pondDieBytes; omega
  have hoff : (die * 0x48000000 + off) % pondDieBytes = off := by unfold pondDieBytes; omega
  rw [Device.region, if_pos (by unfold pondDieBytes; omega), hdie, hoff]

theorem Device.region_reg (s : Device) {die blk off : Nat} (hd : die < 4) (hb : blk < 32) (ho : off < 0x10000) :
    s.region (regBase + die * regDieBytes + blk * 0x10000 + off) = .reg die blk off := by
  generalize ha : regBase + die * regDieBytes + blk * 0x10000 + off = a
  unfold regBase regDieBytes at ha
  rw [Device.region, if_neg (by unfold pondDieBytes; omega), if_neg (by unfold storeBase storeDieBytes; omega),
    if_pos (by unfold regBase regDieBytes; omega), if_pos (by unfold regBase regDieBytes; omega), Region.reg.injEq]
  unfold regBase regDieBytes
  omega

/-- Settles O5: an address of a Pond, and one of a register window, lies in no other region, and its quotients are the die, the column and
the block. -/
theorem addressMap : Obligations.AddressMap := by
  intro s die hd
  refine ⟨fun off ho => ⟨off / columnBytes, off % columnBytes, s.region_pond hd ho, ?_, Nat.mod_lt _ (by decide)⟩,
    fun blk off hb ho => s.region_reg hd hb ho, s.region_reg (die := 2) (blk := 1) (off := 0) (by decide) (by decide) (by decide)⟩
  exact (Nat.div_add_mod' off columnBytes).symm

/-! ### The state after reset (R7) -/

/-- The block of a key of the register store. -/
def keyBlock (k : Nat) : Nat := k / 0x200000 % 32

/-- A field outside DIE_CTL and the clusters, the blocks of which a register may reset to another value on each die. -/
abbrev Fld.uniform (f : Fld) : Prop := f.inMap ∧ f.blk ≠ 0 ∧ (f.blk < 8 ∨ 16 ≤ f.blk)

theorem Fld.keyBlock_key {f : Fld} (h : f.inMap) (die : Nat) : keyBlock (f.key die) = f.blk := by
  obtain ⟨hl, ho, hb⟩ := h
  simp only [keyBlock, Fld.key]; omega

theorem keyBlock_resetRegs : ∀ e ∈ Device.resetRegs, keyBlock e.1 = 0 ∨ 8 ≤ keyBlock e.1 ∧ keyBlock e.1 < 16 := by
  decide +kernel

/-- Every such field reads its table's reset value on every die. -/
theorem reset_rd {die : Nat} {f : Fld} (h : f.uniform := by decide) : State.reset.dev.rd die f = f.rst := by
  have hregs : State.reset.dev.regs = Device.resetRegs := by simp only [State.reset]
  rw [Device.rd, hregs]
  refine SMap.get_of_notMem fun e he hk => ?_
  obtain ⟨hm, h0, hc⟩ := h
  have hblk := keyBlock_resetRegs e he
  rw [hk, Fld.keyBlock_key hm die] at hblk
  omega

theorem reset_rd_dieCtl : ∀ die < 4, State.reset.dev.rd die DIE_CTL_ID_DIE = die ∧
    State.reset.dev.rd die DIE_CTL_ID_LEAD = (if die = 0 then 1 else 0) ∧
    State.reset.dev.rd die DIE_CTL_ERR_CTL_REMOTE_TICKS = 4 ∧ State.reset.dev.rd die DIE_CTL_ERR_STATUS_VALID = 0 := by
  decide +kernel

theorem reset_sound : State.reset.sound := ⟨by decide +kernel, by decide +kernel⟩

/-- Settles O2: at reset memory is empty, and a field of a block that no die resets to its own value reads its table's. -/
theorem resetState : Obligations.ResetState := by
  refine ⟨reset_sound, rfl, fun _ => rfl, rfl, rfl, fun die hd => ?_⟩
  intro s
  obtain ⟨hId, hLead, hTicks, hValid⟩ := reset_rd_dieCtl die hd
  have hClear : ∀ f ∈ [CHORUS_LOCK_LOCK, POND_CTL_LOCK, DISPATCH_CTL_LOCK, REGULATE_CTL_LOCK, EFT_BOOT_STATUS_READY, SAFETY_CTL_LOCK,
      BASK_STATUS_TRIP, POND_ERR_STATUS_VALID, SYNC_STATUS_REFUSED], f.uniform ∧ f.rst = 0 := by decide
  refine ⟨hId, hLead, reset_rd, reset_rd, reset_rd, reset_rd, reset_rd, reset_rd, reset_rd, reset_rd, reset_rd,
    fun n hn => ⟨reset_rd ?_, reset_rd ?_⟩, reset_rd, reset_rd, reset_rd, fun c hc => reset_rd ?_, reset_rd, reset_rd, reset_rd, reset_rd,
    reset_rd, reset_rd, reset_rd, reset_rd, reset_rd, fun n hn => reset_rd ?_, reset_rd, hTicks, fun n hn => reset_rd ?_, fun f hf => ?_⟩
  · simp [Fld.uniform, Fld.inMap, XLATE_FQ_CTL_LOG2_SIZE]; omega
  · simp [Fld.uniform, Fld.inMap, HOST_HART_CTL_FREQ]; omega
  · simp [Fld.uniform, Fld.inMap, REGULATE_CLASS_LIMIT_CORE_LIM_M1]; omega
  · simp [Fld.uniform, Fld.inMap, BASK_RAIL_GAIN]; omega
  · simp [Fld.uniform, Fld.inMap, LSIO_CAN_NBT_TSEG1_M1]; omega
  · by_cases hv : f = DIE_CTL_ERR_STATUS_VALID
    · rw [hv]; exact hValid
    · obtain ⟨hu, hz⟩ := hClear f (by simpa [hv] using hf)
      exact (reset_rd hu).trans hz

/-! ### CAN (R419, R420) -/

theorem canFrameReceiveBody_busErr {s : Device} {n : Nat} (hen : s.on 0 (LSIO_CAN_CFG_EN n) = true) (hf : s.canFenced n = false)
    (fmt id : Nat) (ext : Bool) (data : List Nat) :
    canFrameReceiveBody n true fmt ext id data s = s.addHold 0 (LSIO_CAN_STATUS_BUS_ERR n) 1 := by
  simp [canFrameReceiveBody, hen, hf]

theorem canFrameReceiveBody_accept {s : Device} {n fmt : Nat} {data : List Nat} (hen : s.on 0 (LSIO_CAN_CFG_EN n) = true)
    (hf : s.canFenced n = false) (ht : s.canTakes n fmt data.length = true) (hl : s.on 0 (LSIO_CAN_CFG_LOOP n) = false)
    (id : Nat) (ext : Bool) : canFrameReceiveBody n false fmt ext id data s = s.canAccept n fmt ext id data := by
  simp [canFrameReceiveBody, hen, hf, ht, hl]

/-- A frame that a filter takes enters its buffer; all that follows are field words, so a view of the device that they do not touch sees
the buffer's write and the count alone. -/
theorem Device.canAccept_view {β : Type} (v : Device → β) (hv : ∀ (s : Device) (m : SMap Nat), v (s.setLsio { s.lsio with field := m }) = v s)
    (s : Device) {n fmt id f : Nat} {ext : Bool} {data : List Nat} (hf : s.canFilter n fmt ext id = some f) :
    v (s.canAccept n fmt ext id data) = v ((s.setLsio { s.lsio with
      canRx := SMap.put none s.lsio.canRx (n * 64 + f) (some ⟨s.chorus.time, fmt, ext, id, data⟩) }).addHold 0 (LSIO_CAN_STATUS_RX n) 1) := by
  simp only [Device.canAccept, hf]
  refine foldl_keeps v _ (fun d w => ?_) _ _
  split
  · split
    · exact hv _ _
    · rfl
  · rfl

theorem runs_canFrameReceive {s : State} (hs : s.dev.sound) {n fmt id f : Nat} {ext : Bool} {data : List Nat}
    (hen : s.dev.on 0 (LSIO_CAN_CFG_EN n) = true) (hfe : s.dev.canFenced n = false) (ht : s.dev.canTakes n fmt data.length = true)
    (hl : s.dev.on 0 (LSIO_CAN_CFG_LOOP n) = false) (hf : s.dev.canFilter n fmt ext id = some f) :
    runs (.canFrameReceive n false fmt ext id data) s fun d => keepsMem s.dev d ∧
      SMap.get none d.lsio.canRx (n * 64 + f) = some ⟨s.dev.chorus.time, fmt, ext, id, data⟩ ∧
      d.rd 0 (LSIO_CAN_STATUS_RX n) = min (s.dev.rd 0 (LSIO_CAN_STATUS_RX n) + 1) (2 ^ (LSIO_CAN_STATUS_RX 0).w - 1) ∧
      keepsFields s.dev d [(0, LSIO_CAN_STATUS_RX n)] := by
  have hregs := s.dev.canAccept_view (data := data) Device.regs (fun _ _ => rfl) hf
  have hrx := s.dev.canAccept_view (data := data) (·.lsio.canRx) (fun _ _ => rfl) hf
  refine runs_of_body hs rfl (canFrameReceiveBody_accept hen hfe ht hl id ext)
    ⟨s.dev.canAccept_view Device.mem (fun _ _ => rfl) hf, s.dev.canAccept_view Device.regReqs (fun _ _ => rfl) hf,
      s.dev.canAccept_view Device.regul (fun _ _ => rfl) hf⟩ ⟨?_, ?_, fun die g hg => ?_⟩
  · rw [hrx, Device.addHold_lsio, Device.lsio_setLsio, SMap.get_put_same]
  · rw [Device.rd_congr hregs, Device.rd_addHold_same, Device.rd_setLsio]; rfl
  · rw [Device.rd_congr hregs, Device.rd_addHold_ne (hg _ (.head _)), Device.rd_setLsio]

theorem canTxStartBody_mapped {s : Device} {n value : Nat} (hst : value / 2 ^ 31 % 2 = 1) (hm : s.canMapped (n * 32 + value % 32) = true) :
    canTxStartBody n value s = s.lsioRange := by
  have hb : bits value 0 5 = value % 32 := bits_zero value 5
  rw [canTxStartBody, hb, if_pos ⟨bit_of_mod hst, hm⟩]

theorem Device.canQueue_new {s : Device} {b n : Nat} (hq : s.lsio.canQ.contains b = false) (hf : s.canFenced n = false) (hb : b / 32 = n) :
    s.canQueue b = (s.setLsio { s.lsio with canQ := s.lsio.canQ ++ [b] }).canPending n := by
  rw [Device.canQueue, hb, hf, hq]; rfl

theorem canTxStartBody_queue {s : Device} {n value : Nat} (hst : value / 2 ^ 31 % 2 = 1) (hm : s.canMapped (n * 32 + value % 32) = false)
    (hq : s.lsio.canQ.contains (n * 32 + value % 32) = false) (hf : s.canFenced n = false) :
    canTxStartBody n value s = ((s.wr 0 (LSIO_CAN_TX_CTL_BUF n) (value % 32)).setLsio
      { s.lsio with canQ := s.lsio.canQ ++ [n * 32 + value % 32] }).wr 0 (LSIO_CAN_TX_CTL_PENDING n) 1 := by
  have hb : bits value 0 5 = value % 32 := bits_zero value 5
  have hbuf : value % 32 % 2 ^ (LSIO_CAN_TX_CTL_BUF n).w = value % 32 := Nat.mod_mod ..
  rw [canTxStartBody, hb, bit_of_mod hst, if_neg (by simp [hm]), if_pos rfl,
    Device.canQueue_new (s := s.wr 0 (LSIO_CAN_TX_CTL_BUF n) (value % 32)) hq hf (by omega)]
  simp [Device.canPending, b2n, hbuf]

theorem canFrameSentBody_send {s : Device} {n k : Nat} (hlow : ∀ j < k, s.lsio.canQ.contains (n * 32 + j) = false) (hk : k < 32)
    (hq : s.lsio.canQ.contains (n * 32 + k) = true) (hli : s.on 0 (LSIO_CAN_CFG_LISTEN n) = false)
    (hlo : s.on 0 (LSIO_CAN_CFG_LOOP n) = false)
    (ht : s.canTakes n (s.rd 0 (LSIO_CANTX_HDR_FMT (n * 32 + k))) (s.canBytes (n * 32 + k)).length = true) :
    canFrameSentBody n s = ((s.setLsio { s.lsio with canQ := s.lsio.canQ.filter (· ≠ n * 32 + k) }).canPending n).emit
      (.can n k (s.rd 0 (LSIO_CANTX_HDR_FMT (n * 32 + k)) :: s.rd 0 (LSIO_CANTX_HDR_EXT (n * 32 + k)) ::
        s.rd 0 (LSIO_CANTX_HDR_ID (n * 32 + k)) :: s.canBytes (n * 32 + k))) := by
  have hfind : (List.range 32).find? (fun j => s.lsio.canQ.contains (n * 32 + j)) = some k :=
    List.find?_range_eq_some.2 ⟨hq, List.mem_range.2 hk, fun j hj => by rw [hlow j hj]; rfl⟩
  have hloop : ∀ d : Device, (d.canPending n).on 0 (LSIO_CAN_CFG_LOOP n) = d.on 0 (LSIO_CAN_CFG_LOOP n) := fun d =>
    Device.on_wr_apart rfl
  simp only [canFrameSentBody, hfind, ht, hli, Device.on_emit, hloop, Device.on_setLsio, hlo]
  simp

/-- Field by field, a row of registers reads what was written to it in order. -/
theorem Device.rd_foldl_wr {F : Nat → Fld} {d : Nat} (hF : ∀ i j, (F i).key d = (F j).key d → i = j) (v : Nat → Nat) (s : Device)
    (n : Nat) {j : Nat} (hj : j < n) : ((List.range n).foldl (fun s i => s.wr d (F i) (v i)) s).rd d (F j) = v j % 2 ^ (F j).w := by
  induction n with
  | zero => omega
  | succ n ih =>
    rw [List.range_succ, List.foldl_append, List.foldl_cons, List.foldl_nil]
    by_cases h : j = n
    · rw [h, Device.rd_wr_same]
    · rw [Device.rd_wr_ne _ _ _ _ _ _ (fun hk => h (hF _ _ hk)), ih (by omega)]

theorem canRxWord_key_inj (i j : Nat) (h : (LSIO_CAN_RX_WORD i).key 0 = (LSIO_CAN_RX_WORD j).key 0) : i = j := by
  simpa [Fld.key, Fld.home, LSIO_CAN_RX_WORD] using h

/-- The snapshot writes registers and answers: any other view of the device stays. -/
theorem canRxSnapshotBody_view {β : Type} (v : Device → β) (hw : ∀ (s : Device) (f : Fld) (x : Nat), v (s.wr 0 f x) = v s)
    (ha : ∀ (s : Device) (a b : Nat), v (s.answer a b) = v s) (s : Device) : v (canRxSnapshotBody s) = v s := by
  rw [canRxSnapshotBody, ha]
  exact foldl_keeps v _ (fun d i => hw d _ _) _ _

theorem canRxSnapshotBody_idle (s : Device) : (canRxSnapshotBody s).idleSince s :=
  ⟨canRxSnapshotBody_view Device.mem (fun _ _ _ => rfl) (fun _ _ _ => rfl) s,
    canRxSnapshotBody_view Device.regReqs (fun _ _ _ => rfl) (fun _ _ _ => rfl) s,
    canRxSnapshotBody_view Device.regul (fun _ _ _ => rfl) (fun _ _ _ => rfl) s⟩

theorem runs_canRxSnapshot {s : State} (hs : s.dev.sound) {f : CanFrame}
    (hf : SMap.get none s.dev.lsio.canRx (s.dev.rd 0 LSIO_CAN_RX_SEL_CHANNEL * 64 + s.dev.rd 0 LSIO_CAN_RX_SEL_FILTER) = some f) :
    runs .canRxSnapshot s fun d => keepsMem s.dev d ∧ d.lsio = s.dev.lsio ∧ d.rd 0 (LSIO_CAN_RX_WORD 0) = f.time % 2 ^ 32 ∧
      d.reply = (stDONE, f.time % 2 ^ 32) ∧
      (f.data.length ≤ 64 → f.fmt < 4 → d.rd 0 (LSIO_CAN_RX_WORD 3) = 2 ^ 30 * f.fmt + f.data.length) := by
  refine runs_of_body hs rfl rfl (canRxSnapshotBody_idle _)
    ⟨canRxSnapshotBody_view Device.lsio (fun _ _ _ => rfl) (fun _ _ _ => rfl) _, ?_, ?_, fun hd hm => ?_⟩
  · rw [canRxSnapshotBody, Device.rd_answer, Device.rd_foldl_wr canRxWord_key_inj _ _ _ (by decide), hf]
    exact Nat.mod_mod ..
  · rw [canRxSnapshotBody, hf]; rfl
  · rw [canRxSnapshotBody, Device.rd_answer, Device.rd_foldl_wr canRxWord_key_inj _ _ _ (by decide), hf]
    exact Nat.mod_eq_of_lt (by change 2 ^ 30 * f.fmt + f.data.length < 2 ^ 32; omega)

/-! ### SPI (R424) -/

theorem Device.spiTrigger_missed {s : Device} {n k : Nat} (hen : s.on 0 (LSIO_SPI_CFG_EN n) = true)
    (hsl : s.on 0 (LSIO_SPI_SLOT_EN (n * 16 + k)) = true) (hq : (SMap.get [] s.lsio.spiQ n).contains k = true) :
    s.spiTrigger n k = s.addHold 0 (LSIO_SPI_STATUS_MISSED n) 1 := by
  simp [Device.spiTrigger, hen, hsl, List.contains_iff_mem.1 hq]

theorem Device.spiTrigger_queue {s : Device} {n k : Nat} (hen : s.on 0 (LSIO_SPI_CFG_EN n) = true)
    (hsl : s.on 0 (LSIO_SPI_SLOT_EN (n * 16 + k)) = true) (hq : (SMap.get [] s.lsio.spiQ n).contains k = false) :
    s.spiTrigger n k =
      (s.setLsio { s.lsio with spiQ := SMap.put [] s.lsio.spiQ n (SMap.get [] s.lsio.spiQ n ++ [k]) }).spiNext n := by
  rw [Device.spiTrigger, if_neg (by simp [hen, hsl]), hq]; rfl

/-- A slot that runs keeps the next one waiting. -/
theorem Device.spiNext_of_running {s : Device} {n : Nat} (h : SMap.get none s.lsio.spiRun n ≠ none) : s.spiNext n = s := by
  obtain ⟨j, hj⟩ := Option.ne_none_iff_exists'.1 h
  simp only [Device.spiNext, hj]

theorem Device.spiNext_of_empty {s : Device} {n : Nat} (h : SMap.get [] s.lsio.spiQ n = []) : s.spiNext n = s := by
  rw [Device.spiNext, h]; cases SMap.get none s.lsio.spiRun n <;> rfl

theorem Device.spiNext_of_waiting {s : Device} {n k : Nat} {q : List Nat} (hr : SMap.get none s.lsio.spiRun n = none)
    (hq : SMap.get [] s.lsio.spiQ n = k :: q) :
    s.spiNext n = (s.setLsio { s.lsio with
        spiRun := SMap.put none s.lsio.spiRun n (some k), spiQ := SMap.put [] s.lsio.spiQ n q }).emit
      (.field "SPI" n (k :: (List.range (s.rd 0 (LSIO_SPI_SLOT_WORDS_M1 (n * 16 + k)) + 1)).map fun i =>
        ofBytes ((List.range 4).map fun j => SMap.get 0 s.lsio.spiTx ((n * 16 + k) * 64 + 4 * i + j)))) := by
  rw [Device.spiNext, hr, hq]

theorem runs_spiSlotTrigger_wait {s : State} (hs : s.dev.sound) {n k : Nat} (hen : s.dev.on 0 (LSIO_SPI_CFG_EN n) = true)
    (hsl : s.dev.on 0 (LSIO_SPI_SLOT_EN (n * 16 + k)) = true) (hr : SMap.get none s.dev.lsio.spiRun n ≠ none)
    (hq : (SMap.get [] s.dev.lsio.spiQ n).contains k = false) :
    runs (.spiSlotTrigger n k) s fun d => keepsMem s.dev d ∧
      SMap.get [] d.lsio.spiQ n = SMap.get [] s.dev.lsio.spiQ n ++ [k] ∧ d.regs = s.dev.regs ∧ d.out = s.dev.out :=
  runs_of_body hs rfl ((Device.spiTrigger_queue hen hsl hq).trans (Device.spiNext_of_running hr)) ⟨rfl, rfl, rfl⟩
    ⟨SMap.get_put_same .., rfl, rfl⟩

/-- The fields of SPI_GO's operand. -/
theorem spiGo_operand {n k : Nat} (hn : n < 8) (hk : k < 16) :
    bits (2 ^ 31 + 256 * n + k) 8 3 = n ∧ bits (2 ^ 31 + 256 * n + k) 0 4 = k ∧ bit (2 ^ 31 + 256 * n + k) 31 = true := by
  refine ⟨?_, ?_, bit_of_mod ?_⟩
  · unfold bits; omega
  · unfold bits; omega
  · omega

theorem runs_spiGo {s : State} (hs : s.dev.sound) {n k : Nat} (hen : s.dev.on 0 (LSIO_SPI_CFG_EN n) = true)
    (hsl : s.dev.on 0 (LSIO_SPI_SLOT_EN (n * 16 + k)) = true) (hk : k < 16) (hr : SMap.get none s.dev.lsio.spiRun n = none)
    (hq : SMap.get [] s.dev.lsio.spiQ n = []) (hn : n < 8) (ht : s.dev.rd 0 (LSIO_SPI_SLOT_TRIG (n * 16 + k)) = 3) :
    runs (.spiGo (2 ^ 31 + 256 * n + k)) s fun d => keepsMem s.dev d ∧ SMap.get none d.lsio.spiRun n = some k ∧
      SMap.get [] d.lsio.spiQ n = [] ∧
      d.out = s.dev.out ++ [.field "SPI" n (k :: (List.range (s.dev.rd 0 (LSIO_SPI_SLOT_WORDS_M1 (n * 16 + k)) + 1)).map fun i =>
        ofBytes ((List.range 4).map fun j => SMap.get 0 s.dev.lsio.spiTx ((n * 16 + k) * 64 + 4 * i + j)))] := by
  obtain ⟨hbn, hbk, hgo⟩ := spiGo_operand hn hk
  let s1 := (s.dev.wr 0 LSIO_SPI_GO_CHANNEL n).wr 0 LSIO_SPI_GO_SLOT k
  have hen1 : s1.on 0 (LSIO_SPI_CFG_EN n) = true := by rw [Device.on_wr_apart rfl, Device.on_wr_apart rfl, hen]
  have hsl1 : s1.on 0 (LSIO_SPI_SLOT_EN (n * 16 + k)) = true := by rw [Device.on_wr_apart rfl, Device.on_wr_apart rfl, hsl]
  have hw : s1.rd 0 (LSIO_SPI_SLOT_WORDS_M1 (n * 16 + k)) = s.dev.rd 0 (LSIO_SPI_SLOT_WORDS_M1 (n * 16 + k)) := by
    rw [Device.rd_wr_apart rfl, Device.rd_wr_apart rfl]
  have hb : spiGoBody (2 ^ 31 + 256 * n + k) s.dev = s1.spiTrigger n k := by
    rw [spiGoBody, hbn, hbk, hgo, if_neg (by simp), if_neg (by simp [ht])]
  have hq1 : SMap.get [] s1.lsio.spiQ n = [] := hq
  refine runs_of_body hs rfl ((hb.trans (Device.spiTrigger_queue hen1 hsl1 (by rw [hq1]; rfl))).trans
    (Device.spiNext_of_waiting (k := k) (q := []) hr (by simp [hq1]))) ⟨rfl, rfl, rfl⟩ ⟨?_, ?_, ?_⟩
  · rw [Device.emit_lsio, Device.lsio_setLsio, SMap.get_put_same]
  · rw [Device.emit_lsio, Device.lsio_setLsio, SMap.get_put_same]
  · rw [Device.out_emit, Device.rd_setLsio, hw]; rfl

/-- Keys from a base up, written in order, read what was written. -/
theorem SMap.get_foldl_put (base : Nat) (v : Nat → Nat) (m : SMap Nat) (n : Nat) {i : Nat} (hi : i < n) :
    SMap.get 0 ((List.range n).foldl (fun m i => SMap.put 0 m (base + i) (v i)) m) (base + i) = v i := by
  induction n with
  | zero => omega
  | succ n ih =>
    rw [List.range_succ, List.foldl_append, List.foldl_cons, List.foldl_nil, SMap.get_put]
    split
    · rw [show i = n by omega]
    · exact ih (by omega)

/-- The receive bytes of a transaction, with the slot no longer running. -/
theorem spiDoneBody_receive {s : Device} {n k : Nat} (rx : List Nat) (hr : SMap.get none s.lsio.spiRun n = some k) (hk : 4 ≤ n ∨ k ≠ 0)
    (hq : SMap.get [] s.lsio.spiQ n = []) :
    spiDoneBody n rx s = s.setLsio { s.lsio with
      spiRx := (List.range (4 * (s.rd 0 (LSIO_SPI_SLOT_WORDS_M1 (n * 16 + k)) + 1))).foldl
        (fun m i => SMap.put 0 m ((n * 16 + k) * 64 + i) (wd rx i % 256)) s.lsio.spiRx
      spiRun := SMap.put none s.lsio.spiRun n none } := by
  rw [spiDoneBody, hr]
  dsimp only
  rw [if_neg (by omega), ← List.map_prod_left_eq_zip, List.foldl_map]
  exact Device.spiNext_of_empty hq

theorem runs_spiTransactionDone {s : State} (hs : s.dev.sound) {n k : Nat} {rx : List Nat}
    (hr : SMap.get none s.dev.lsio.spiRun n = some k) (hk : 4 ≤ n ∨ k ≠ 0) (hq : SMap.get [] s.dev.lsio.spiQ n = []) :
    runs (.spiTransactionDone n rx) s fun d => keepsMem s.dev d ∧ d.regs = s.dev.regs ∧ SMap.get none d.lsio.spiRun n = none ∧
      ∀ i < 4 * (s.dev.rd 0 (LSIO_SPI_SLOT_WORDS_M1 (n * 16 + k)) + 1),
        SMap.get 0 d.lsio.spiRx ((n * 16 + k) * 64 + i) = wd rx i % 256 :=
  runs_of_body hs rfl (spiDoneBody_receive rx hr hk hq) ⟨rfl, rfl, rfl⟩
    ⟨rfl, by rw [Device.lsio_setLsio, SMap.get_put_same], fun _ hi => SMap.get_foldl_put _ (fun i => wd rx i % 256) _ _ hi⟩

/-! ### I²C and UART (R424) -/

theorem i2cStartBody_busy {s : Device} {n value : Nat} (hst : value / 2 ^ 30 % 2 = 1) (hb : s.on 0 (LSIO_I2C_CMD_BUSY n) = true) :
    i2cStartBody n value s = s.lsioRange := by
  rw [i2cStartBody, if_pos ⟨bit_of_mod hst, hb⟩]

/-- The fields of LSIO_I2C_CMD that a write stores. -/
def Device.i2cCommand (s : Device) (n value : Nat) : Device :=
  (((s.wr 0 (LSIO_I2C_CMD_READ n) (bits value 29 1)).wr 0 (LSIO_I2C_CMD_TEN n) (bits value 28 1)).wr 0
    (LSIO_I2C_CMD_LEN_M1 n) (bits value 16 5)).wr 0 (LSIO_I2C_CMD_ADDR n) (bits value 0 10)

theorem i2cStartBody_start {s : Device} {n value : Nat} (hst : value / 2 ^ 30 % 2 = 1) (hb : s.on 0 (LSIO_I2C_CMD_BUSY n) = false)
    (hen : s.on 0 (LSIO_I2C_CFG_EN n) = true) :
    i2cStartBody n value s = ((s.i2cCommand n value).set 0 (LSIO_I2C_CMD_BUSY n)).emit (.field "I2C" n
      ([bits value 0 10, bits value 28 1, bits value 29 1, bits value 16 5 + 1] ++
        (if bit value 29 then [] else (SMap.get [] s.lsio.i2cTx n).take (bits value 16 5 + 1)))) := by
  have hen1 : (s.i2cCommand n value).on 0 (LSIO_I2C_CFG_EN n) = true := by
    rw [Device.i2cCommand, Device.on_wr_apart rfl, Device.on_wr_apart rfl, Device.on_wr_apart rfl, Device.on_wr_apart rfl, hen]
  rw [i2cStartBody, if_neg (by simp [hb])]
  exact if_neg (by simp [bit_of_mod hst]; exact hen1)

theorem runs_i2cStart {s : State} (hs : s.dev.sound) {n value : Nat} (hst : value / 2 ^ 30 % 2 = 1)
    (hb : s.dev.on 0 (LSIO_I2C_CMD_BUSY n) = false) (hen : s.dev.on 0 (LSIO_I2C_CFG_EN n) = true) :
    runs (.i2cStart n value) s fun d => keepsMem s.dev d ∧ d.on 0 (LSIO_I2C_CMD_BUSY n) = true ∧
      d.rd 0 (LSIO_I2C_CMD_ADDR n) = value % 1024 ∧ d.rd 0 (LSIO_I2C_CMD_LEN_M1 n) = value / 2 ^ 16 % 32 ∧ d.lsio = s.dev.lsio := by
  refine runs_of_body hs rfl (i2cStartBody_start hst hb hen) ⟨rfl, rfl, rfl⟩ ⟨?_, ?_, ?_, rfl⟩
  · rw [Device.on_emit, Device.set, Device.on_wr_same]; rfl
  · rw [Device.rd_emit, Device.set, Device.rd_wr_apart rfl, Device.i2cCommand, Device.rd_wr_same, bits_zero]
    exact Nat.mod_mod ..
  · rw [Device.rd_emit, Device.set, Device.rd_wr_apart rfl, Device.i2cCommand, Device.rd_wr_apart rfl, Device.rd_wr_same]
    exact Nat.mod_mod ..

/-- The command's end as LSIO_I2C_CMD shows it. -/
def Device.i2cEnded (s : Device) (n result : Nat) : Device := (s.clr 0 (LSIO_I2C_CMD_BUSY n)).wr 0 (LSIO_I2C_CMD_RESULT n) result

theorem Device.i2cEnded_rd_len (s : Device) (n result : Nat) :
    (s.i2cEnded n result).rd 0 (LSIO_I2C_CMD_LEN_M1 n) = s.rd 0 (LSIO_I2C_CMD_LEN_M1 n) := by
  rw [Device.i2cEnded, Device.rd_wr_apart rfl, Device.clr, Device.rd_wr_apart rfl]

theorem Device.i2cEnded_on_read (s : Device) (n result : Nat) :
    (s.i2cEnded n result).on 0 (LSIO_I2C_CMD_READ n) = s.on 0 (LSIO_I2C_CMD_READ n) := by
  rw [Device.i2cEnded, Device.on_wr_apart rfl, Device.clr, Device.on_wr_apart rfl]

/-- The FIFOs when a command of `len` bytes has ended. -/
def LsioSt.i2cMoved (x : LsioSt) (n len : Nat) (read : Bool) (bytes : List Nat) : LsioSt :=
  if read then { x with i2cRx := SMap.put [] x.i2cRx n ((SMap.get [] x.i2cRx n ++ (bytes.take len).map (· % 256)).take 32) }
  else { x with i2cTx := SMap.put [] x.i2cTx n ((SMap.get [] x.i2cTx n).drop len) }

theorem i2cDoneBody_end {s : Device} {n : Nat} (hb : s.on 0 (LSIO_I2C_CMD_BUSY n) = true) (result : Nat) (bytes : List Nat) :
    i2cDoneBody n result bytes s = (s.i2cEnded n result).setLsio
      (s.lsio.i2cMoved n (s.rd 0 (LSIO_I2C_CMD_LEN_M1 n) + 1) (s.on 0 (LSIO_I2C_CMD_READ n)) bytes) := by
  rw [i2cDoneBody, if_neg (by simp [hb]), ← s.i2cEnded_rd_len n result, ← s.i2cEnded_on_read n result]
  cases h : (s.i2cEnded n result).on 0 (LSIO_I2C_CMD_READ n) with
  | true => exact if_pos h
  | false => exact if_neg (Bool.eq_false_iff.1 h)

theorem runs_i2cDone {s : State} (hs : s.dev.sound) {n : Nat} (hb : s.dev.on 0 (LSIO_I2C_CMD_BUSY n) = true) (result : Nat)
    (bytes : List Nat) : runs (.i2cDone n result bytes) s fun d => keepsMem s.dev d ∧
      d.on 0 (LSIO_I2C_CMD_BUSY n) = false ∧ d.rd 0 (LSIO_I2C_CMD_RESULT n) = result % 2 ^ (LSIO_I2C_CMD_RESULT 0).w ∧
      d.lsio = s.dev.lsio.i2cMoved n (s.dev.rd 0 (LSIO_I2C_CMD_LEN_M1 n) + 1) (s.dev.on 0 (LSIO_I2C_CMD_READ n)) bytes := by
  refine runs_of_body hs rfl (i2cDoneBody_end hb result bytes) ⟨rfl, rfl, rfl⟩ ⟨?_, ?_, rfl⟩
  · rw [Device.on_setLsio, Device.i2cEnded, Device.on_wr_apart rfl, Device.clr, Device.on_wr_same]; rfl
  · rw [Device.rd_setLsio, Device.i2cEnded, Device.rd_wr_same]; rfl

theorem i2cDataReadBody_pop {s : Device} {n b : Nat} {q : List Nat} (hq : SMap.get [] s.lsio.i2cRx n = b :: q) :
    i2cDataReadBody n s = (s.setLsio { s.lsio with i2cRx := SMap.put [] s.lsio.i2cRx n q }).answer stDONE (256 + b) := by
  rw [i2cDataReadBody, hq]

theorem runs_i2cDataRead {s : State} (hs : s.dev.sound) {n b : Nat} {q : List Nat} (hq : SMap.get [] s.dev.lsio.i2cRx n = b :: q) :
    runs (.i2cDataRead n) s fun d => keepsMem s.dev d ∧ d.regs = s.dev.regs ∧ d.reply = (stDONE, 256 + b) ∧
      SMap.get [] d.lsio.i2cRx n = q :=
  runs_of_body hs rfl (i2cDataReadBody_pop hq) ⟨rfl, rfl, rfl⟩ ⟨rfl, rfl, SMap.get_put_same ..⟩

theorem Device.rd_uartLevels_tx (s : Device) (n : Nat) :
    (s.uartLevels n).rd 0 (LSIO_UART_STATUS_TX_LEVEL n) = (SMap.get [] s.lsio.uartTx n).length % 256 := by
  rw [Device.uartLevels, Device.rd_wr_apart rfl, Device.rd_wr_same]; rfl

theorem Device.rd_uartLevels_rx (s : Device) (n : Nat) :
    (s.uartLevels n).rd 0 (LSIO_UART_STATUS_RX_LEVEL n) = (SMap.get [] s.lsio.uartRx n).length % 256 := by
  rw [Device.uartLevels, Device.rd_wr_same]; rfl

theorem uartDataWriteBody_full {s : Device} {n : Nat} (h : 64 ≤ (SMap.get [] s.lsio.uartTx n).length) (value : Nat) :
    uartDataWriteBody n value s = s.lsioRange := by
  rw [uartDataWriteBody]; exact if_pos h

theorem runs_uartDataWrite {s : State} (hs : s.dev.sound) {n : Nat} (h : (SMap.get [] s.dev.lsio.uartTx n).length < 64) (value : Nat) :
    runs (.uartDataWrite n value) s fun d => keepsMem s.dev d ∧
      SMap.get [] d.lsio.uartTx n = SMap.get [] s.dev.lsio.uartTx n ++ [value % 256] ∧
      d.rd 0 (LSIO_UART_STATUS_TX_LEVEL n) = (SMap.get [] s.dev.lsio.uartTx n).length + 1 := by
  refine runs_of_body hs rfl (if_neg (Nat.not_le.2 h)) ⟨rfl, rfl, rfl⟩ ⟨SMap.get_put_same .., ?_⟩
  rw [Device.rd_uartLevels_tx, Device.lsio_setLsio, SMap.get_put_same, List.length_append, List.length_singleton]
  omega

theorem uartDataReadBody_pop {s : Device} {n b : Nat} {q : List Nat} (hq : SMap.get [] s.lsio.uartRx n = b :: q) :
    uartDataReadBody n s = ((s.setLsio { s.lsio with uartRx := SMap.put [] s.lsio.uartRx n q }).uartLevels n).answer stDONE (256 + b) := by
  rw [uartDataReadBody, hq]

theorem runs_uartDataRead {s : State} (hs : s.dev.sound) {n b : Nat} {q : List Nat} (hq : SMap.get [] s.dev.lsio.uartRx n = b :: q)
    (hlen : q.length < 64) : runs (.uartDataRead n) s fun d => keepsMem s.dev d ∧ d.reply = (stDONE, 256 + b) ∧
      SMap.get [] d.lsio.uartRx n = q ∧ d.rd 0 (LSIO_UART_STATUS_RX_LEVEL n) = q.length := by
  refine runs_of_body hs rfl (uartDataReadBody_pop hq) ⟨rfl, rfl, rfl⟩ ⟨rfl, SMap.get_put_same .., ?_⟩
  rw [Device.rd_answer, Device.rd_uartLevels_rx, Device.lsio_setLsio, SMap.get_put_same]
  omega

theorem uartByteReceivedBody_frameErr {s : Device} {n : Nat} (hen : s.on 0 (LSIO_UART_CFG_EN n) = true) (b : Nat) :
    uartByteReceivedBody n b true s = s.addHold 0 (LSIO_UART_STATUS_FRAME_ERR n) 1 := by
  rw [uartByteReceivedBody, if_neg (by simp [hen]), if_pos rfl]

theorem uartByteReceivedBody_overrun {s : Device} {n : Nat} (hen : s.on 0 (LSIO_UART_CFG_EN n) = true)
    (h : 64 ≤ (SMap.get [] s.lsio.uartRx n).length) (b : Nat) :
    uartByteReceivedBody n b false s = s.addHold 0 (LSIO_UART_STATUS_OVERRUN n) 1 := by
  rw [uartByteReceivedBody, if_neg (by simp [hen]), if_neg (by decide)]; exact if_pos h

theorem uartByteReceivedBody_push {s : Device} {n : Nat} (hen : s.on 0 (LSIO_UART_CFG_EN n) = true)
    (h : (SMap.get [] s.lsio.uartRx n).length < 64) (b : Nat) :
    uartByteReceivedBody n b false s = (s.setLsio { s.lsio with
      uartRx := SMap.put [] s.lsio.uartRx n (SMap.get [] s.lsio.uartRx n ++ [if s.on 0 (LSIO_UART_CFG_DATA8 n) then b % 256 else b % 128])
      }).uartLevels n := by
  rw [uartByteReceivedBody, if_neg (by simp [hen]), if_neg (by decide)]; exact if_neg (Nat.not_le.2 h)

theorem uartByteSentBody_pop {s : Device} {n b : Nat} {q : List Nat} (hen : s.on 0 (LSIO_UART_CFG_EN n) = true)
    (hq : SMap.get [] s.lsio.uartTx n = b :: q) : uartByteSentBody n s =
      ((s.setLsio { s.lsio with uartTx := SMap.put [] s.lsio.uartTx n q }).uartLevels n).emit (.field "UART" n [b]) := by
  rw [uartByteSentBody, hq]; exact if_pos hen

theorem runs_uartByteSent {s : State} (hs : s.dev.sound) {n b : Nat} {q : List Nat} (hen : s.dev.on 0 (LSIO_UART_CFG_EN n) = true)
    (hq : SMap.get [] s.dev.lsio.uartTx n = b :: q) : runs (.uartByteSent n) s fun d => keepsMem s.dev d ∧
      SMap.get [] d.lsio.uartTx n = q ∧ d.out = s.dev.out ++ [.field "UART" n [b]] :=
  runs_of_body hs rfl (uartByteSentBody_pop hen hq) ⟨rfl, rfl, rfl⟩ ⟨SMap.get_put_same .., rfl⟩

/-! ### Pulse inputs (R422) and the LP5X temperature (R80) -/

theorem pulseEdgeBody_error {s : Device} {n : Nat} (hen : s.on 0 (LSIO_QEI_CFG_EN n) = true) (hm : s.on 0 (LSIO_QEI_CFG_MODE n) = false)
    (up : Bool) : pulseEdgeBody n up true s = s.addHold 0 (LSIO_QEI_CFG_QERR n) 1 := by
  simp [pulseEdgeBody, hen, hm]

theorem pulseEdgeBody_count {s : Device} {n : Nat} {both : Bool} (hen : s.on 0 (LSIO_QEI_CFG_EN n) = true)
    (h : both = false ∨ s.on 0 (LSIO_QEI_CFG_MODE n) = true) (up : Bool) :
    pulseEdgeBody n up both s = s.setLsio { s.lsio with
      pulse := SMap.put 0 s.lsio.pulse n ((SMap.get 0 s.lsio.pulse n + (if up then 1 else 2 ^ 32 - 1)) % 2 ^ 32) } := by
  rw [pulseEdgeBody, if_neg (by simp [hen]), if_neg (by rcases h with h | h <;> simp [h])]

theorem mr4Body_regs (die rate : Nat) (hot : Bool) (s : Device) :
    (mr4Body die rate hot s).rd die LP5X_TEMP_REFRESH_RATE = rate % 2 ^ LP5X_TEMP_REFRESH_RATE.w ∧
      (mr4Body die rate hot s).on die LP5X_TEMP_HOT = (hot || s.on die LP5X_TEMP_HOT) ∧
      keepsFields s (mr4Body die rate hot s) [(die, LP5X_TEMP_REFRESH_RATE), (die, LP5X_TEMP_HOT)] := by
  cases hot with
  | true =>
    refine ⟨?_, ?_, fun e g hg => ?_⟩
    · rw [mr4Body, if_pos rfl, Device.set, Device.rd_wr_apart rfl, Device.rd_wr_same]
    · rw [mr4Body, if_pos rfl, Device.set, Device.on_wr_same]; rfl
    · rw [mr4Body, if_pos rfl, Device.set, Device.rd_wr_ne _ _ _ _ _ _ (hg _ (.tail _ (.head _))),
        Device.rd_wr_ne _ _ _ _ _ _ (hg _ (.head _))]
  | false =>
    refine ⟨?_, ?_, fun e g hg => ?_⟩
    · rw [mr4Body, if_neg (by decide), Device.rd_wr_same]
    · rw [mr4Body, if_neg (by decide), Device.on_wr_apart rfl, Bool.false_or]
    · rw [mr4Body, if_neg (by decide), Device.rd_wr_ne _ _ _ _ _ _ (hg _ (.head _))]

theorem mr4Body_idle (die rate : Nat) (hot : Bool) (s : Device) : (mr4Body die rate hot s).idleSince s := by
  cases hot <;> exact ⟨rfl, rfl, rfl⟩

/-- Settles O54: each command's body, evaluated under the clause's conditions, leaves memory and the requests alone, so the command answers
what the body gives. -/
theorem fieldCommands : Obligations.FieldCommands := by
  intro s n k hs
  refine ⟨fun hen hfe => ⟨fun fmt ext id data => ?_, fun fmt f id ext data ht hl hf => runs_canFrameReceive hs hen hfe ht hl hf⟩,
    fun value hst => ⟨fun hm => ?_, fun hm hq hfe => ?_⟩, fun hlow hk hq hli hlo ht => ?_, fun f hf => runs_canRxSnapshot hs hf,
    fun hen hsl hk => ⟨fun hr hq => runs_spiSlotTrigger_wait hs hen hsl hr hq, fun hq => ?_,
      fun hr hq hn ht => runs_spiGo hs hen hsl hk hr hq hn ht⟩,
    fun rx hr _ hk hq _ => runs_spiTransactionDone hs hr hk hq,
    fun value hst => ⟨fun hb => ?_, fun hb hen => runs_i2cStart hs hst hb hen⟩, fun result bytes hb => ?_,
    fun b q hq => runs_i2cDataRead hs hq, fun value => ⟨fun h => ?_, fun h => runs_uartDataWrite hs h value⟩,
    fun b q hq hlen => runs_uartDataRead hs hq hlen,
    fun hen => ⟨fun b => ?_, fun b h => ?_, fun b h => ?_, fun b q hq => runs_uartByteSent hs hen hq⟩,
    fun up both hen => ⟨fun hb hm => ?_, fun h => ?_⟩, fun code => ?_, fun die rate hot => ?_⟩
  · exact exec_of_body hs rfl (canFrameReceiveBody_busErr hen hfe fmt id ext data) ⟨rfl, rfl, rfl⟩
  · exact exec_of_body hs rfl (canTxStartBody_mapped hst hm) ⟨rfl, rfl, rfl⟩
  · refine runs_of_body hs rfl (canTxStartBody_queue hst hm hq hfe) ⟨rfl, rfl, rfl⟩ ⟨rfl, ?_, ?_⟩
    · rw [Device.on_wr_same]; rfl
    · rw [Device.rd_wr_apart rfl, Device.rd_setLsio, Device.rd_wr_same]; exact Nat.mod_mod ..
  · exact runs_of_body hs rfl (canFrameSentBody_send hlow hk hq hli hlo ht) ⟨rfl, rfl, rfl⟩ ⟨rfl, rfl⟩
  · exact exec_of_body hs rfl (Device.spiTrigger_missed hen hsl hq) ⟨rfl, rfl, rfl⟩
  · exact exec_of_body hs rfl (i2cStartBody_busy hst hb) ⟨rfl, rfl, rfl⟩
  · obtain ⟨t, ht, hp, hmem, hbusy, hres, hl⟩ := runs_i2cDone hs hb result bytes
    refine ⟨t, ht, hp, hmem, hbusy, hres, ?_⟩
    rw [hl]
    cases s.dev.on 0 (LSIO_I2C_CMD_READ n)
    · exact ⟨SMap.get_put_same .., rfl⟩
    · exact ⟨SMap.get_put_same .., rfl⟩
  · exact exec_of_body hs rfl (uartDataWriteBody_full h value) ⟨rfl, rfl, rfl⟩
  · exact exec_of_body hs rfl (uartByteReceivedBody_frameErr hen b) ⟨rfl, rfl, rfl⟩
  · exact exec_of_body hs rfl (uartByteReceivedBody_overrun hen h b) ⟨rfl, rfl, rfl⟩
  · exact runs_of_body hs rfl (uartByteReceivedBody_push hen h b) ⟨rfl, rfl, rfl⟩ (SMap.get_put_same ..)
  · subst hb; exact exec_of_body hs rfl (pulseEdgeBody_error hen hm up) ⟨rfl, rfl, rfl⟩
  · exact runs_of_body hs rfl (pulseEdgeBody_count hen h up) ⟨rfl, rfl, rfl⟩ ⟨rfl, SMap.get_put_same ..⟩
  · exact runs_of_body hs rfl rfl ⟨rfl, rfl, rfl⟩ ⟨rfl, by rw [analogueBody, Device.lsio_setLsio, SMap.get_put_same]⟩
  · exact runs_of_body hs rfl rfl (mr4Body_idle ..) (mr4Body_regs ..)

/-! ### Sorted stores -/

theorem SMap.get_of_above {V : Type} {d : V} {m : SMap V} {k : Nat} (h : ∀ e ∈ m, k < e.1) : SMap.get d m k = d :=
  SMap.get_of_notMem fun e he => (h e he).ne'

/-- Two sorted maps that read alike whatever the default are the same. -/
theorem SMap.ext_of_sorted {m r : SMap Nat} (hm : SMap.sorted m = true) (hr : SMap.sorted r = true)
    (h : ∀ d k, SMap.get d m k = SMap.get d r k) : m = r := by
  induction m generalizing r with
  | nil =>
    cases r with
    | nil => rfl
    | cons e r => exact absurd (h (e.2 + 1) e.1) (by simp [SMap.get])
  | cons e m ih =>
    cases r with
    | nil => exact absurd (h (e.2 + 1) e.1) (by simp [SMap.get])
    | cons f r =>
      obtain ⟨a, x⟩ := e
      obtain ⟨b, y⟩ := f
      have hma := SMap.sorted_head hm
      have hrb := SMap.sorted_head hr
      have hab : a = b := by
        rcases Nat.lt_trichotomy a b with hlt | heq | hgt
        · have hx := h (x + 1) a
          rw [SMap.get, if_pos rfl, SMap.get_of_above (m := (b, y) :: r)] at hx
          · omega
          · intro e he
            rcases List.mem_cons.1 he with rfl | he
            · exact hlt
            · exact hlt.trans (hrb e he)
        · exact heq
        · have hy := h (y + 1) b
          rw [SMap.get_of_above (m := (a, x) :: m), SMap.get, if_pos rfl] at hy
          · omega
          · intro e he
            rcases List.mem_cons.1 he with rfl | he
            · exact hgt
            · exact hgt.trans (hma e he)
      subst hab
      have hxy : x = y := by simpa [SMap.get] using h 0 a
      rw [hxy, ih (SMap.sorted_tail hm) (SMap.sorted_tail hr) fun d k => ?_]
      by_cases hk : a = k
      · rw [SMap.get_of_above fun e he => hk ▸ hma e he, SMap.get_of_above fun e he => hk ▸ hrb e he]
      · simpa [SMap.get, hk] using h d k

theorem SMap.sorted_put (d : Nat) {m : SMap Nat} (k v : Nat) (h : SMap.sorted m = true) : SMap.sorted (SMap.put d m k v) = true := by
  unfold SMap.put
  split
  · exact SMap.sorted_erase k m h
  · exact SMap.sorted_ins k v m h

/-- A read of the key written, with any default. -/
theorem SMap.get_put_key (d d' : Nat) (m : SMap Nat) (k v : Nat) : SMap.get d' (SMap.put d m k v) k = if v = d then d' else v := by
  unfold SMap.put
  split
  · exact SMap.get_erase_same d' m k
  · exact SMap.get_ins_same d' m k v

/-- On a sorted map, writes of two keys commute. -/
theorem SMap.put_comm {m : SMap Nat} (hm : SMap.sorted m = true) {j k : Nat} (hjk : j ≠ k) (d e v w : Nat) :
    SMap.put e (SMap.put d m k v) j w = SMap.put d (SMap.put e m j w) k v := by
  refine SMap.ext_of_sorted (SMap.sorted_put _ _ _ (SMap.sorted_put _ _ _ hm)) (SMap.sorted_put _ _ _ (SMap.sorted_put _ _ _ hm)) fun c i => ?_
  by_cases hi : i = j
  · subst hi
    rw [SMap.get_put_key, SMap.get_put_ne _ _ _ _ hjk, SMap.get_put_key]
  · rw [SMap.get_put_ne _ _ _ _ hi]
    by_cases hk : i = k
    · subst hk; rw [SMap.get_put_key, SMap.get_put_key]
    · rw [SMap.get_put_ne _ _ _ _ hk, SMap.get_put_ne _ _ _ _ hk, SMap.get_put_ne _ _ _ _ hi]

/-- The register store is sorted, as it is at reset and as a write leaves it that finds it so. -/
def Device.sortedRegs (s : Device) : Prop := SMap.sorted s.regs = true

theorem reset_sortedRegs : State.reset.dev.sortedRegs := by unfold Device.sortedRegs; decide +kernel

theorem Device.sortedRegs.wr {s : Device} (h : s.sortedRegs) (d : Nat) (f : Fld) (v : Nat) : (s.wr d f v).sortedRegs :=
  SMap.sorted_put _ _ _ h

theorem Device.wr_comm {s : Device} (h : s.sortedRegs) {d e : Nat} {f g : Fld} (hk : g.key e ≠ f.key d) (v w : Nat) :
    (s.wr d f v).wr e g w = (s.wr e g w).wr d f v :=
  congrArg (fun r => { s with regs := r }) (SMap.put_comm h hk _ _ _ _)

/-! ### Transfers over the bridges (R434) -/

/-- A field that no transfer counts in. -/
abbrev Fld.uncounted (f : Fld) : Prop := f.inMap ∧ (f.blk ≠ 0 ∨ f.off ≠ 0x20 ∧ f.off ≠ 0x24)

/-- The counts of a bridge end. -/
def bridgeCounts : List Fld :=
  [DIE_CTL_BRIDGE_AUDIT_ROW_SENT, DIE_CTL_BRIDGE_AUDIT_ROW_RETURNED, DIE_CTL_BRIDGE_AUDIT_COL_SENT, DIE_CTL_BRIDGE_AUDIT_COL_RETURNED]

theorem Fld.uncounted.key_ne {f : Fld} (h : f.uncounted) {g : Fld} (hg : g ∈ bridgeCounts) (d e : Nat) : f.key d ≠ g.key e := by
  obtain ⟨hm, hn⟩ := h
  obtain ⟨hgm, hgb, hgo⟩ : g.inMap ∧ g.blk = 0 ∧ (g.off = 0x20 ∨ g.off = 0x24) := by revert g; decide
  exact Fld.key_ne_of_inMap hm hgm (by omega) d e

/-- What every count of a transfer keeps, the transfer keeps. -/
theorem Device.xfer_keeps {P : Device → Prop} (hP : ∀ (s : Device) (d : Nat), ∀ f ∈ bridgeCounts, P s → P (s.addWrap d f 1)) {s : Device}
    (h : P s) (a b : Nat) : P (s.xfer a b) := by
  have hrow : ∀ (s : Device) (d : Nat), P s → P (s.rowXfer d) := fun s d h => hP _ _ _ (by decide) (hP _ _ _ (by decide) h)
  have hcol : ∀ (s : Device) (d : Nat), P s → P (s.colXfer d) := fun s d h => hP _ _ _ (by decide) (hP _ _ _ (by decide) h)
  have hs : P (if a % 2 = b % 2 then s else s.rowXfer a) := by
    split
    · exact h
    · exact hrow _ _ h
  unfold Device.xfer
  by_cases hc : a / 2 = b / 2
  · rw [if_pos hc]; exact hs
  · rw [if_neg hc]; exact hcol _ _ hs

theorem Device.rd_xfer {f : Fld} (hf : f.uncounted) (s : Device) (a b e : Nat) : (s.xfer a b).rd e f = s.rd e f :=
  Device.xfer_keeps (P := fun t => t.rd e f = s.rd e f)
    (fun _ d _ hg h => (Device.rd_wr_ne _ _ _ _ _ _ (hf.key_ne hg e d)).trans h) rfl a b

theorem Device.on_xfer {f : Fld} (hf : f.uncounted) (s : Device) (a b e : Nat) : (s.xfer a b).on e f = s.on e f := by
  rw [Device.on, Device.rd_xfer hf, Device.on]

theorem Device.xfer_idle (s : Device) (a b : Nat) : (s.xfer a b).idleSince s :=
  Device.xfer_keeps (P := fun t => t.idleSince s) (fun _ _ _ _ h => h) ⟨rfl, rfl, rfl⟩ a b

theorem Device.xfer_edgeWrites (s : Device) (a b : Nat) : (s.xfer a b).edgeWrites = s.edgeWrites :=
  Device.xfer_keeps (P := fun t => t.edgeWrites = s.edgeWrites) (fun _ _ _ _ h => h) rfl a b

theorem Device.sortedRegs.xfer {s : Device} (h : s.sortedRegs) (a b : Nat) : (s.xfer a b).sortedRegs :=
  Device.xfer_keeps (fun _ _ _ _ h => h.wr _ _ _) h a b

/-- What commutes with every count of a transfer commutes with the transfer. -/
theorem Device.xfer_comm {φ : Device → Device} {Q : Device → Prop}
    (hQ : ∀ (t : Device) (d : Nat), ∀ g ∈ bridgeCounts, Q t → Q (t.addWrap d g 1))
    (hφ : ∀ (t : Device) (d : Nat), ∀ g ∈ bridgeCounts, Q t → (φ t).addWrap d g 1 = φ (t.addWrap d g 1)) {s : Device} (hs : Q s) (a b : Nat) :
    (φ s).xfer a b = φ (s.xfer a b) := by
  have hrow : ∀ (t : Device) (d : Nat), Q t → (φ t).rowXfer d = φ (t.rowXfer d) := fun t d ht => by
    rw [Device.rowXfer, hφ _ _ _ (by decide) ht, hφ _ _ _ (by decide) (hQ _ _ _ (by decide) ht), Device.rowXfer]
  have hcol : ∀ (t : Device) (d : Nat), Q t → (φ t).colXfer d = φ (t.colXfer d) := fun t d ht => by
    rw [Device.colXfer, hφ _ _ _ (by decide) ht, hφ _ _ _ (by decide) (hQ _ _ _ (by decide) ht), Device.colXfer]
  have hrow' : Q (s.rowXfer a) := hQ _ _ _ (by decide) (hQ _ _ _ (by decide) hs)
  by_cases hr : a % 2 = b % 2 <;> by_cases hc : a / 2 = b / 2
  · simp only [Device.xfer, if_pos hr, if_pos hc]
  · simp only [Device.xfer, if_pos hr, if_neg hc, hcol _ _ hs]
  · simp only [Device.xfer, if_neg hr, if_pos hc, hrow _ _ hs]
  · simp only [Device.xfer, if_neg hr, if_neg hc, hrow _ _ hs, hcol _ _ hrow']

/-- On a sorted store, a write of a field and a transfer commute. -/
theorem Device.xfer_wr {s : Device} (h : s.sortedRegs) {f : Fld} (hf : f.uncounted) (a b e v : Nat) :
    (s.wr e f v).xfer a b = (s.xfer a b).wr e f v := by
  refine Device.xfer_comm (φ := (·.wr e f v)) (Q := Device.sortedRegs) (fun t d g _ ht => ht.wr _ _ _) (fun t d g hg ht => ?_) h a b
  rw [Device.addWrap, Device.rd_wr_ne _ _ _ _ _ _ (hf.key_ne hg e d).symm, Device.wr_comm ht (hf.key_ne hg e d).symm, Device.addWrap]

theorem Device.xfer_writeAtEdge (s : Device) (die : Nat) (l : List Fld) (v a b : Nat) :
    (s.writeAtEdge die l v).xfer a b = (s.xfer a b).writeAtEdge die l v :=
  Device.xfer_comm (φ := (·.writeAtEdge die l v)) (Q := fun _ => True) (fun _ _ _ _ h => h) (fun _ _ _ _ _ => rfl) trivial a b

theorem Device.routeUp_congr {s t : Device} (hr : ∀ d, t.on d DIE_CTL_BRIDGE_STATUS_ROW_UP = s.on d DIE_CTL_BRIDGE_STATUS_ROW_UP)
    (hc : ∀ d, t.on d DIE_CTL_BRIDGE_STATUS_COL_UP = s.on d DIE_CTL_BRIDGE_STATUS_COL_UP) (a b : Nat) : t.routeUp a b = s.routeUp a b := by
  rw [Device.routeUp, hr, hc, Device.routeUp]

theorem Device.routeUp_xfer (s : Device) (a b c d : Nat) : (s.xfer a b).routeUp c d = s.routeUp c d :=
  Device.routeUp_congr (fun _ => Device.on_xfer (by decide) ..) (fun _ => Device.on_xfer (by decide) ..) c d

/-! ### A write that reaches its register -/

theorem regWords_aligned {off : Nat} (h : off % 4 = 0) : regWords off 4 = [off] := by
  rw [regWords, h]
  show [off / 4 * 4 + 4 * 0] = [off]
  congr 1; omega

theorem Device.regWriteReq_word (s : Device) (eft : Bool) (die blk : Nat) {off v : Nat} (h : off % 4 = 0) (hv : v < 2 ^ 32) :
    s.regWriteReq eft die blk off 4 v = s.regWrite eft die blk off v := by
  have hb : bits v 0 32 = v := by rw [bits_zero, Nat.mod_eq_of_lt hv]
  simp [Device.regWriteReq, regWords_aligned h, hb]

theorem Device.regWriteReq_absent (s : Device) (eft : Bool) {die blk : Nat} (h : regAbsent die blk = true) (off n v : Nat) :
    s.regWriteReq eft die blk off n v = s :=
  foldl_keeps id _ (fun _ _ => by rw [id, Device.regWrite, h]; rfl) _ _

theorem Device.regRequest_write {s w : Device} {r : Req} {die blk off : Nat} (hr : s.region r.addr = .reg die blk off) (hwr : r.write = true)
    (hm : r.remote = [])
    (hw : (s.xfer r.die die).regWriteReq (decide (r.master = mManage)) die blk off r.len r.data = w) (hu : w.routeUp die r.die = true) :
    s.regRequest r = (w.xfer die r.die).answer stDONE 0 := by
  simp only [Device.regRequest, hr, hwr, if_pos, hw, Device.answered, hu]
  simp [Device.answerOutside, hm]

/-- A write that reaches its register is performed between the two crossings of its route, and answers DONE. -/
theorem registerWriteBody_reached {s w : Device} {src master die blk off v : Nat} (hd : die < 4) (hb : blk < 32) (ho : off < 0x10000)
    (ha : s.accessStatus src master (regBase + die * regDieBytes + blk * 0x10000 + off) 4 true = stDONE)
    (hw : (s.xfer src die).regWriteReq (decide (master = mManage)) die blk off 4 v = w) (hu : w.routeUp die src = true) :
    registerWriteBody ⟨src, master⟩ die blk off v s = (w.xfer die src).answer stDONE 0 :=
  (if_pos ha).trans (Device.regRequest_write (s.region_reg hd hb ho) rfl rfl hw hu)

theorem Device.regWrite_syncSel (s : Device) (eft : Bool) (die v : Nat) : s.regWrite eft die 6 0x00 v = s.wr die SYNC_SEL_INDEX v := by
  have hfind : regFind 6 0x00 = some (⟨6, 0x00, 0, 1, [(SYNC_SEL_INDEX, .rw)]⟩, 0) := by decide
  simp [Device.regWrite, clearBoth, errRecord, regMask, regAbsent, Device.regRoute, hfind, Device.allLocked, Device.regLocked, lockFlds,
    Device.regOk, Device.okReflex, Device.fieldWrite, safetyAllows, Fld.placed, SYNC_SEL_INDEX, bits, Device.wr, Fld.key, Fld.home]

theorem Device.regWrite_dieId (s : Device) (eft : Bool) (die v : Nat) : s.regWrite eft die 0 0x00 v = s := by
  have hfind : regFind 0 0x00 = some (⟨0, 0x00, 0, 1, [(DIE_CTL_ID_PART_CODE, .ro), (DIE_CTL_ID_STEPPING, .ro), (DIE_CTL_ID_LEAD, .ro),
    (DIE_CTL_ID_DIE, .ro)]⟩, 0) := by decide
  simp [Device.regWrite, regAbsent, Device.regRoute, hfind, Device.regOk, Device.fieldWrite]

theorem Device.regWrite_blocksPresent (s : Device) (eft : Bool) (die v : Nat) : s.regWrite eft die 0 0x04 v = s := by
  have hfind : regFind 0 0x04 = some (⟨0, 0x04, 0, 1, [(DIE_CTL_BLOCKS_PRESENT_PRESENT, .ro)]⟩, 0) := by decide
  simp [Device.regWrite, regAbsent, Device.regRoute, hfind, Device.regOk, Device.fieldWrite]

theorem Device.regWrite_regulateCtl (s : Device) (eft : Bool) (die : Nat) {v : Nat} (hv : v < 2 ^ 32) :
    s.regWrite eft die 7 0x00 v = regulCtlWrite die v s := by
  have hm : v % 4294967296 = v := Nat.mod_eq_of_lt hv
  simp [Device.regWrite, clearBoth, errRecord, regMask, regAbsent, Device.regRoute, hm]

theorem Device.regWrite_heldSeen (s : Device) (eft : Bool) (die : Nat) :
    s.regWrite eft die 7 0x04 (2 ^ 30) = s.clr die REGULATE_STATUS_HELD_SEEN := by
  have hfind : regFind 7 0x04 = some (⟨7, 0x04, 0, 1, [(REGULATE_STATUS_RANGE_ERR, .w1c), (REGULATE_STATUS_HELD_SEEN, .w1c),
    (REGULATE_STATUS_LOWERED_SEEN, .w1c)]⟩, 0) := by decide
  simp [Device.regWrite, clearBoth, errRecord, regMask, regAbsent, Device.regRoute, hfind, Device.allLocked, Device.regOk,
    Device.fieldWrite, safetyAllows, Fld.placed, REGULATE_STATUS_RANGE_ERR, REGULATE_STATUS_HELD_SEEN, REGULATE_STATUS_LOWERED_SEEN, bit]

theorem Device.regWrite_rateRange {s : Device} (eft : Bool) {v : Nat} (hl : s.on 0 LP5X_CTL_LOCK = false) (hv : v % 4 = 3) :
    s.regWrite eft 0 27 0x00 v = s.set 0 LP5X_STATUS_RANGE_ERR := by
  have hfind : regFind 27 0x00 = some (⟨27, 0x00, 0, 1, [(LP5X_CTL_LOCK, .w1s), (LP5X_CTL_INTERLEAVE, .rwl), (LP5X_CTL_INLINE_ECC, .rwl),
    (LP5X_CTL_PATROL_EN, .rwl), (LP5X_CTL_RATE, .rwl)]⟩, 0) := by decide
  have hr : v % 4294967296 % 4 = 3 := by omega
  simp [Device.regWrite, clearBoth, errRecord, regMask, regAbsent, Device.regRoute, hfind, Device.allLocked, Device.regLocked, lockFlds, hl,
    Device.lockedIn, Device.regOk, bits, hr, Device.refuseWrite, rangeFld]

/-- A write of a register that ends UNMAPPED leaves the record of the register's die and that answer, where no host core sent it. -/
theorem Device.finishNow_unmapped {s : Device} {r : Req} {die blk off : Nat} (hr : s.region r.addr = .reg die blk off) (hwr : r.write = true)
    (hrem : r.remote = []) (hwork : r.work = none) (hm : r.master < mHost ∨ mHost + 4 ≤ r.master)
    (ha : s.accessStatus r.die r.master r.addr r.len true = stUNMAPPED) :
    s.finishNow r = (s.recordUnmapped die r.die r.master r.addr true).answer stUNMAPPED 0 := by
  have hne : ¬ stUNMAPPED = stDONE := by decide
  simp only [Device.finishNow, Device.perform, Device.writeChk, ha, Device.accessError, hr, Device.homeDie, hwr, hrem, hwork, if_pos,
    Device.answerOutside, ne_eq, hne, not_false_eq_true, if_false]
  exact if_neg (by omega)

theorem registerWriteBody_unmapped {s : Device} {src master die blk off : Nat} (v : Nat) (hd : die < 4) (hb : blk < 32) (ho : off < 0x10000)
    (hm : master < mHost ∨ mHost + 4 ≤ master)
    (ha : s.accessStatus src master (regBase + die * regDieBytes + blk * 0x10000 + off) 4 true = stUNMAPPED) :
    registerWriteBody ⟨src, master⟩ die blk off v s =
      (s.recordUnmapped die src master (regBase + die * regDieBytes + blk * 0x10000 + off) true).answer stUNMAPPED 0 :=
  (if_neg (by rw [ha]; decide)).trans (Device.finishNow_unmapped (s.region_reg hd hb ho) rfl rfl rfl hm ha)

theorem Device.recordUnmapped_idle (s : Device) (own src master a : Nat) (write : Bool) :
    (s.recordUnmapped own src master a write).idleSince s := by
  unfold Device.recordUnmapped
  split <;> exact ⟨rfl, rfl, rfl⟩

/-! ### The statement on sorted stores -/

/-- A device over whose bridges an access has gone and returned, with its answer. -/
def Device.crossed (s : Device) (src die : Nat) : Device := ((s.xfer src die).xfer die src).answer stDONE 0

theorem Device.crossed_idle (s : Device) (src die : Nat) : (s.crossed src die).idleSince s :=
  (Device.xfer_idle _ die src).trans (s.xfer_idle src die)

/-- What the statement RegisterWrites says of one state, requester, die and value. -/
def RegisterWritesAt (s : State) (src master die v : Nat) : Prop :=
  let at' := fun (blk off : Nat) => regBase + die * regDieBytes + blk * 0x10000 + off
  let reach := fun (blk off : Nat) => s.dev.accessStatus src master (at' blk off) 4 true = stDONE ∧ s.dev.routeUp die src = true
  let b := s.dev.crossed src die
  (∀ blk off : Nat, blk < 32 → off < 0x10000 → (master < mHost ∨ mHost + 4 ≤ master) →
    s.dev.accessStatus src master (at' blk off) 4 true = stUNMAPPED →
    exec (.registerWrite ⟨src, master⟩ die blk off v) s =
      .next (s.withDev ((s.dev.recordUnmapped die src master (at' blk off) true).answer stUNMAPPED 0))) ∧
  (reach 6 0x00 → runs (.registerWrite ⟨src, master⟩ die 6 0x00 v) s fun d => keepsMem s.dev d ∧
    d.rd die SYNC_SEL_INDEX = v % 2 ^ SYNC_SEL_INDEX.w ∧ keepsFields b d [(die, SYNC_SEL_INDEX)] ∧ d.reply = (stDONE, 0)) ∧
  (∀ off ∈ [0x00, 0x04], reach 0 off → exec (.registerWrite ⟨src, master⟩ die 0 off v) s = .next (s.withDev b)) ∧
  (∀ blk off : Nat, ((blk = 26 ∧ die % 2 = 1) ∨ (blk = 29 ∧ die ≠ 0) ∨ (blk = 21 ∧ 2 ≤ die)) → off < 0x10000 → reach blk off →
    exec (.registerWrite ⟨src, master⟩ die blk off v) s = .next (s.withDev b)) ∧
  (s.dev.on die REGULATE_CTL_LOCK = true → reach 7 0x00 → exec (.registerWrite ⟨src, master⟩ die 7 0x00 v) s = .next (s.withDev b)) ∧
  (s.dev.on die REGULATE_CTL_LOCK = false → reach 7 0x00 → runs (.registerWrite ⟨src, master⟩ die 7 0x00 v) s fun d => keepsMem s.dev d ∧
    d.edgeWrites = s.dev.edgeWrites ++ [(REGULATE_CTL_MODE, die, bits v REGULATE_CTL_MODE.lo REGULATE_CTL_MODE.w)] ∧
    d.on die REGULATE_CTL_LOCK = bit v 31 ∧ keepsFields b d [(die, REGULATE_CTL_LOCK)] ∧ d.reply = (stDONE, 0)) ∧
  (reach 7 0x04 → exec (.registerWrite ⟨src, master⟩ die 7 0x04 (2 ^ 30)) s = .next (s.withDev (b.clr die REGULATE_STATUS_HELD_SEEN))) ∧
  (s.dev.on 0 LP5X_CTL_LOCK = false → v % 4 = 3 → die = 0 → reach 27 0x00 →
    exec (.registerWrite ⟨src, master⟩ 0 27 0x00 v) s = .next (s.withDev (b.set 0 LP5X_STATUS_RANGE_ERR)))

theorem registerWrites_iff : Obligations.RegisterWrites ↔
    ∀ (s : State) (src master die v : Nat), s.dev.sound → v < 2 ^ 32 → src < 4 → die < 4 → RegisterWritesAt s src master die v := Iff.rfl

theorem Device.wr_idle (s : Device) (d : Nat) (f : Fld) (v : Nat) : (s.wr d f v).idleSince s := ⟨rfl, rfl, rfl⟩

theorem Device.writeAtEdge_idle (s : Device) (d : Nat) (l : List Fld) (v : Nat) : (s.writeAtEdge d l v).idleSince s := ⟨rfl, rfl, rfl⟩

theorem exec_registerWrite_reached {s : State} (hs : s.dev.sound) {w : Device} {src master die blk off v : Nat} (hd : die < 4) (hb : blk < 32)
    (ho : off < 0x10000)
    (ha : s.dev.accessStatus src master (regBase + die * regDieBytes + blk * 0x10000 + off) 4 true = stDONE)
    (hw : (s.dev.xfer src die).regWriteReq (decide (master = mManage)) die blk off 4 v = w) (hi : w.idleSince s.dev)
    (hu : w.routeUp die src = true) :
    exec (.registerWrite ⟨src, master⟩ die blk off v) s = .next (s.withDev ((w.xfer die src).answer stDONE 0)) :=
  exec_of_body hs rfl (registerWriteBody_reached hd hb ho ha hw hu) ((w.xfer_idle die src).trans hi)

/-- A write that the register ignores crosses the bridges alone. -/
theorem exec_registerWrite_ignored {s : State} (hs : s.dev.sound) {src master die blk off v : Nat} (hd : die < 4) (hb : blk < 32)
    (ho : off < 0x10000)
    (ha : s.dev.accessStatus src master (regBase + die * regDieBytes + blk * 0x10000 + off) 4 true = stDONE ∧ s.dev.routeUp die src = true)
    (hw : (s.dev.xfer src die).regWriteReq (decide (master = mManage)) die blk off 4 v = s.dev.xfer src die) :
    exec (.registerWrite ⟨src, master⟩ die blk off v) s = .next (s.withDev (s.dev.crossed src die)) :=
  exec_registerWrite_reached hs hd hb ho ha.1 hw (s.dev.xfer_idle src die) ((s.dev.routeUp_xfer ..).trans ha.2)

theorem Device.routeUp_wr (s : Device) {f : Fld} (hf : f.inMap) (h0 : f.blk ≠ 0) (e v a b : Nat) :
    (s.wr e f v).routeUp a b = s.routeUp a b := by
  have hkey : ∀ g ∈ [DIE_CTL_BRIDGE_STATUS_ROW_UP, DIE_CTL_BRIDGE_STATUS_COL_UP], ∀ d, g.key d ≠ f.key e := fun g hg d => by
    obtain ⟨hgm, hgb⟩ : g.inMap ∧ g.blk = 0 := by revert g; decide
    exact Fld.key_ne_of_inMap hgm hf (.inl (hgb ▸ h0.symm)) d e
  refine Device.routeUp_congr (fun d => ?_) (fun d => ?_) a b
  · rw [Device.on, Device.rd_wr_ne _ _ _ _ _ _ (hkey _ (by decide) d), Device.on]
  · rw [Device.on, Device.rd_wr_ne _ _ _ _ _ _ (hkey _ (by decide) d), Device.on]

/-- A write that changes one field of a sorted store changes it as if the access had crossed the bridges before. -/
theorem exec_registerWrite_field {s : State} (hs : s.dev.sound) (hr : s.dev.sortedRegs) {src master die blk off v : Nat} (hd : die < 4)
    (hb : blk < 32) (ho : off < 0x10000)
    (ha : s.dev.accessStatus src master (regBase + die * regDieBytes + blk * 0x10000 + off) 4 true = stDONE ∧ s.dev.routeUp die src = true)
    {f : Fld} (hf : f.uncounted) (h0 : f.blk ≠ 0) {e x : Nat}
    (hw : (s.dev.xfer src die).regWriteReq (decide (master = mManage)) die blk off 4 v = (s.dev.xfer src die).wr e f x) :
    exec (.registerWrite ⟨src, master⟩ die blk off v) s =
      .next (s.withDev ((s.dev.crossed src die).wr e f x)) := by
  have hup : ((s.dev.xfer src die).wr e f x).routeUp die src = true := by rw [Device.routeUp_wr _ hf.1 h0, Device.routeUp_xfer, ha.2]
  rw [exec_registerWrite_reached hs hd hb ho ha.1 hw (s.dev.xfer_idle src die) hup, Device.xfer_wr (hr.xfer _ _) hf]
  rfl

/-- The device after a write of an unlocked REGULATE_CTL has crossed the bridges. -/
theorem exec_registerWrite_regulateCtl {s : State} (hs : s.dev.sound) (hr : s.dev.sortedRegs) {src master die v : Nat} (hd : die < 4)
    (hv : v < 2 ^ 32) (hl : s.dev.on die REGULATE_CTL_LOCK = false)
    (ha : s.dev.accessStatus src master (regBase + die * regDieBytes + 7 * 0x10000 + 0) 4 true = stDONE ∧ s.dev.routeUp die src = true) :
    exec (.registerWrite ⟨src, master⟩ die 7 0x00 v) s = .next (s.withDev
      (if bit v 31 then ((s.dev.crossed src die).writeAtEdge die [REGULATE_CTL_MODE] v).set die REGULATE_CTL_LOCK
        else (s.dev.crossed src die).writeAtEdge die [REGULATE_CTL_MODE] v)) := by
  have hlx : (s.dev.xfer src die).on die REGULATE_CTL_LOCK = false := (Device.on_xfer (by decide) ..).trans hl
  have hup : ((s.dev.xfer src die).writeAtEdge die [REGULATE_CTL_MODE] v).routeUp die src = true := (s.dev.routeUp_xfer ..).trans ha.2
  have hw : (s.dev.xfer src die).regWriteReq (decide (master = mManage)) die 7 0 4 v =
      if bit v 31 then ((s.dev.xfer src die).writeAtEdge die [REGULATE_CTL_MODE] v).set die REGULATE_CTL_LOCK
        else (s.dev.xfer src die).writeAtEdge die [REGULATE_CTL_MODE] v := by
    rw [Device.regWriteReq_word _ _ _ _ rfl hv, Device.regWrite_regulateCtl _ _ _ hv, regulCtlWrite, hlx]; rfl
  have hi : ((s.dev.xfer src die).writeAtEdge die [REGULATE_CTL_MODE] v).idleSince s.dev :=
    (Device.writeAtEdge_idle ..).trans (s.dev.xfer_idle src die)
  split at hw
  · rw [if_pos ‹_›, exec_registerWrite_reached hs hd (by decide) (by decide) ha.1 hw ((Device.wr_idle ..).trans hi)
      ((Device.routeUp_wr _ (by decide) (by decide) ..).trans hup), Device.set,
      Device.xfer_wr (s := (s.dev.xfer src die).writeAtEdge die [REGULATE_CTL_MODE] v) (hr.xfer _ _) (by decide), Device.xfer_writeAtEdge]
    rfl
  · rw [if_neg ‹_›, exec_registerWrite_reached hs hd (by decide) (by decide) ha.1 hw hi hup, Device.xfer_writeAtEdge]
    rfl

/-- MODE waits for the next edge, and LOCK is as its bit says. -/
theorem runs_registerWrite_regulateCtl {s : State} (hs : s.dev.sound) (hr : s.dev.sortedRegs) {src master die v : Nat} (hd : die < 4)
    (hv : v < 2 ^ 32) (hl : s.dev.on die REGULATE_CTL_LOCK = false)
    (ha : s.dev.accessStatus src master (regBase + die * regDieBytes + 7 * 0x10000 + 0) 4 true = stDONE ∧ s.dev.routeUp die src = true) :
    runs (.registerWrite ⟨src, master⟩ die 7 0x00 v) s fun d => keepsMem s.dev d ∧
      d.edgeWrites = s.dev.edgeWrites ++ [(REGULATE_CTL_MODE, die, bits v REGULATE_CTL_MODE.lo REGULATE_CTL_MODE.w)] ∧
      d.on die REGULATE_CTL_LOCK = bit v 31 ∧
      keepsFields (s.dev.crossed src die) d [(die, REGULATE_CTL_LOCK)] ∧ d.reply = (stDONE, 0) := by
  have hx := exec_registerWrite_regulateCtl hs hr hd hv hl ha
  have hi := (Device.writeAtEdge_idle _ die [REGULATE_CTL_MODE] v).trans (s.dev.crossed_idle src die)
  have he : ((s.dev.crossed src die).writeAtEdge die [REGULATE_CTL_MODE] v).edgeWrites =
      s.dev.edgeWrites ++ [(REGULATE_CTL_MODE, die, bits v REGULATE_CTL_MODE.lo REGULATE_CTL_MODE.w)] := by
    rw [Device.writeAtEdge, Device.crossed, Device.answer_edgeWrites, Device.xfer_edgeWrites, Device.xfer_edgeWrites]; rfl
  split at hx
  next hb =>
    refine runs_of_exec hx ((Device.wr_idle ..).trans hi) ⟨he, ?_, keepsFields_wr _ _ _ _, rfl⟩
    rw [Device.set, Device.on_wr_same, hb]; rfl
  next hb =>
    refine runs_of_exec hx hi ⟨he, ?_, fun _ _ _ => rfl, rfl⟩
    have hlc : (s.dev.crossed src die).on die REGULATE_CTL_LOCK = false :=
      (Device.on_xfer (by decide) ..).trans ((Device.on_xfer (by decide) ..).trans hl)
    exact hlc.trans (Bool.eq_false_iff.2 hb).symm

/-- On a sorted register store every clause holds: the write and the crossing back commute. -/
theorem registerWritesAt_of_sortedRegs {s : State} {src master die v : Nat} (hs : s.dev.sound) (hr : s.dev.sortedRegs) (hv : v < 2 ^ 32)
    (hd : die < 4) : RegisterWritesAt s src master die v := by
  refine ⟨fun blk off hb ho hm ha => ?_, fun ha => ?_, fun off ho ha => ?_, fun blk off hb ho ha => ?_, fun hl ha => ?_,
    fun hl ha => runs_registerWrite_regulateCtl hs hr hd hv hl ha, fun ha => ?_, fun hl hv3 h0 ha => ?_⟩
  · exact exec_of_body hs rfl (registerWriteBody_unmapped v hd hb ho hm ha) (Device.recordUnmapped_idle ..)
  · have hx := exec_registerWrite_field hs hr hd (by decide) (by decide) ha (f := SYNC_SEL_INDEX) (by decide) (by decide)
      ((Device.regWriteReq_word _ _ _ _ rfl hv).trans (Device.regWrite_syncSel ..))
    exact runs_of_exec hx ((Device.wr_idle ..).trans (s.dev.crossed_idle src die)) ⟨Device.rd_wr_same .., keepsFields_wr _ _ _ _, rfl⟩
  · have hw : (s.dev.xfer src die).regWrite (decide (master = mManage)) die 0 off v = s.dev.xfer src die := by
      rcases List.mem_pair.1 ho with rfl | rfl
      · exact Device.regWrite_dieId ..
      · exact Device.regWrite_blocksPresent ..
    have hal : off % 4 = 0 ∧ off < 0x10000 := by
      rcases List.mem_pair.1 ho with rfl | rfl <;> decide
    exact exec_registerWrite_ignored hs hd (by decide) hal.2 ha ((Device.regWriteReq_word _ _ _ _ hal.1 hv).trans hw)
  · have habs : regAbsent die blk = true := by simpa [regAbsent, or_assoc] using hb
    exact exec_registerWrite_ignored hs hd (by omega) ho ha (Device.regWriteReq_absent _ _ habs _ _ _)
  · have hlx : (s.dev.xfer src die).on die REGULATE_CTL_LOCK = true := (Device.on_xfer (by decide) ..).trans hl
    exact exec_registerWrite_ignored hs hd (by decide) (by decide) ha
      (((Device.regWriteReq_word _ _ _ _ rfl hv).trans (Device.regWrite_regulateCtl _ _ _ hv)).trans (by rw [regulCtlWrite, if_pos hlx]))
  · exact exec_registerWrite_field hs hr hd (by decide) (by decide) ha (by decide) (by decide)
      ((Device.regWriteReq_word _ _ _ _ rfl (by decide)).trans (Device.regWrite_heldSeen ..))
  · subst h0
    have hlx : (s.dev.xfer src 0).on 0 LP5X_CTL_LOCK = false := (Device.on_xfer (by decide) ..).trans hl
    exact exec_registerWrite_field hs hr hd (by decide) (by decide) ha (by decide) (by decide)
      ((Device.regWriteReq_word _ _ _ _ rfl hv).trans (Device.regWrite_rateRange _ hlx hv3))

/-! ### The statement on other stores -/

/-- A register store out of order, which `Device.sound` allows and no write makes of a sorted one: the count of transfers of die 0's row
bridge stands behind a greater key. -/
def unsortedStore : State :=
  { dev := { regs := [(REGULATE_STATUS_HELD_SEEN.key 0, 1), (DIE_CTL_BRIDGE_AUDIT_ROW_SENT.key 0, 5), (DIE_CTL_BRIDGE_STATUS_ROW_UP.key 0, 1),
      (DIE_CTL_BRIDGE_STATUS_ROW_UP.key 1, 1)] } }

/-- Eft of die 1 clears HELD_SEEN of die 0 there: the count of the crossing back is then entered in another place than the count of the
crossing forth, which the greater key stood behind. -/
theorem unsortedStore_cleared : ∃ t, exec (.registerWrite ⟨1, mManage⟩ 0 7 0x04 (2 ^ 30)) unsortedStore = .next t ∧
    t.dev.regs ≠ ((((unsortedStore.dev.xfer 1 0).xfer 0 1).answer stDONE 0).clr 0 REGULATE_STATUS_HELD_SEEN).regs :=
  ⟨_, rfl, by decide +kernel⟩

/-- Refutes O58: `Device.sound` does not ask that the register store be sorted, and on one out of order writes of two fields need not
commute, so that the clause on a flag cleared by writing 1, an equation of whole states, fails where the access crosses a bridge. The states
differ in how the store lists its fields; `registerWritesAt_of_sortedRegs` has every clause where it is sorted, as it is at reset. -/
theorem not_registerWrites : ¬ Obligations.RegisterWrites := by
  intro h
  obtain ⟨-, -, -, -, -, -, hClear, -⟩ :=
    h unsortedStore 1 mManage 0 0 ⟨by decide +kernel, by decide +kernel⟩ (by decide) (by decide) (by decide)
  obtain ⟨t, ht, hne⟩ := unsortedStore_cleared
  have hreach := hClear ⟨by decide +kernel, by decide +kernel⟩
  rw [ht] at hreach
  exact hne (congrArg (·.dev.regs) (Host.Outcome.next.inj hreach))

end Sys2Proof.Machine
end

section
/-!
THEOREMS of the family 01_levels_and_subsystems: every step keeps a state sound and every run goes on; accesses to absent blocks; the
accesses of a core's own port.
-/
namespace Sys2Proof.Machine

/-! ### Every command updates the device and goes on -/

/-- Each command's meaning is an update of the device, which leaves the queue to `step`. -/
theorem exec_eq_upd (c : Instr) : ∃ f : Device → Device, ∀ s, exec c s = s.upd f := by
  cases c with
  | estopSample low => exact ⟨fun d => (estopBody low d).haltPoll, fun _ => rfl⟩
  | tailStopTimeout => exact ⟨fun d => (tailTimeoutBody d).haltPoll, fun _ => rfl⟩
  | _ => exact ⟨_, fun _ => rfl⟩

/-- A step answers a device that `Device.done` has ended, and takes the front command from the queue. -/
theorem step_eq_next (s : State) : ∃ d : Device, step s = .next { dev := d.done, pending := s.pending.tail } := by
  obtain ⟨dev, pending⟩ := s
  cases pending with
  | nil => exact ⟨dev.passRc, rfl⟩
  | cons c rest =>
    obtain ⟨f, hf⟩ := exec_eq_upd c
    exact ⟨f dev, hf _⟩

/-- The state that a step answers. -/
def State.after (s : State) : State :=
  match step s with
  | .next t => t
  | _ => s

theorem step_after (s : State) : step s = .next s.after := by
  obtain ⟨d, hd⟩ := step_eq_next s
  rw [State.after, hd]

theorem State.after_pending (s : State) : s.after.pending = s.pending.tail := by
  obtain ⟨d, hd⟩ := step_eq_next s
  rw [State.after, hd]

/-- What ends every command makes the device sound, whatever it was before. -/
theorem State.after_sound (s : State) : s.after.sound := by
  obtain ⟨d, hd⟩ := step_eq_next s
  rw [State.after, hd]
  exact d.done_sound

/-- Settles O3: a step answers the state after it, which is sound. -/
theorem everyStepKeepsSound : Obligations.EveryStepKeepsSound := by
  intro s t _ hst
  obtain rfl : s.after = t := Host.Outcome.next.inj ((step_after s).symm.trans hst)
  exact s.after_sound

theorem State.pending_iterate_after (s : State) (n : Nat) : (State.after^[n] s).pending = s.pending.drop n := by
  induction n with
  | zero => rfl
  | succ n ih => rw [Function.iterate_succ_apply', State.after_pending, ih, List.tail_drop]

/-- Settles O4: the run is the iteration of `State.after`, by induction on the number of steps for the queue. -/
theorem everyRunGoesOn : Obligations.EveryRunGoesOn := by
  intro s
  refine ⟨fun n => State.after^[n] s, rfl, fun n => ?_⟩
  simp only [Function.iterate_succ_apply']
  exact ⟨step_after _, State.after_sound _, s.pending_iterate_after n⟩

/-! ### Accesses within one die -/

@[simp] theorem Device.xfer_self (s : Device) (d : Nat) : s.xfer d d = s := by simp [Device.xfer]

@[simp] theorem Device.routeUp_self (s : Device) (d : Nat) : s.routeUp d d = true := by simp [Device.routeUp]

@[simp] theorem Device.answered_self (s : Device) (d master a status : Nat) (w : Bool) :
    s.answered d master d a status w = (s, status) := by simp [Device.answered]

/-! ### Absent blocks (R33) -/

/-- DIE_CTL_BLOCKS_PRESENT has a 0 for each absent block but the SAFETY blocks of dies 2 and 3. -/
theorem regAbsent_iff_blocksPresent : ∀ die < 4, ∀ blk < 32, regAbsent die blk = true ↔
    (bit (State.reset.dev.rd die DIE_CTL_BLOCKS_PRESENT_PRESENT) blk = false ∨ (blk = 21 ∧ 2 ≤ die)) := by
  decide +kernel

theorem blk_lt_of_regAbsent {die blk : Nat} (h : regAbsent die blk = true) : blk < 32 := by
  simp [regAbsent] at h; omega

theorem Device.regRead_absent (s : Device) {die blk : Nat} (h : regAbsent die blk = true) (off : Nat) : s.regRead die blk off = (s, 0) :=
  if_pos h

/-- A read of several registers of an absent block gathers zeros. -/
theorem Device.regReadReq_absent (s : Device) {die blk : Nat} (h : regAbsent die blk = true) (off n : Nat) :
    s.regReadReq die blk off n = (s, 0) := by
  have hfold : ∀ (l : List Nat) (k : Nat), ∃ k', l.foldl (fun (x : Device × Nat × Nat) o =>
      let y := x.1.regRead die blk o
      (y.1, x.2.1 + y.2 * 2 ^ x.2.2, x.2.2 + 32)) (s, 0, k) = (s, 0, k') := by
    intro l
    induction l with
    | nil => exact fun k => ⟨k, rfl⟩
    | cons o l ih => intro k; simpa [Device.regRead_absent s h] using ih (k + 32)
  obtain ⟨k, hk⟩ := hfold (regWords off n) 0
  simp [Device.regReadReq, hk]

/-- A write to an absent block of the requester's own die changes the answer alone. -/
theorem exec_registerWrite_absent {s : State} (hs : s.dev.sound) {die blk : Nat} (hd : die < 4) (h : regAbsent die blk = true)
    {master off : Nat} (v : Nat) (ho : off < 0x10000)
    (ha : s.dev.accessStatus die master (regBase + die * regDieBytes + blk * 0x10000 + off) 4 true = stDONE) :
    exec (.registerWrite ⟨die, master⟩ die blk off v) s = .next (s.withDev (s.dev.answer stDONE 0)) := by
  have hx := exec_registerWrite_ignored hs hd (blk_lt_of_regAbsent h) ho ⟨ha, s.dev.routeUp_self die⟩
    (Device.regWriteReq_absent _ _ h off 4 v)
  rwa [Device.crossed, Device.xfer_self, Device.xfer_self] at hx

theorem Device.regRequest_absent {s : Device} {r : Req} {die blk off : Nat} (hr : s.region r.addr = .reg die blk off)
    (h : regAbsent die blk = true) (hdie : r.die = die) (hrem : r.remote = []) : s.regRequest r = s.answer stDONE 0 := by
  subst hdie
  simp [Device.regRequest, hr, Device.regWriteReq_absent _ _ h, Device.regReadReq_absent _ h, Device.answerOutside, hrem]

/-- A management request that no port has labelled is FIXED (R226). -/
theorem Device.label_manage (s : Device) {r : Req} (hm : r.master = mManage) (hc : r.cls < 16) : s.label r = (true, 0) := by
  simp [Device.label, hm, mOliner, mHost, mPad, mPcie, mDebug, mManage, Nat.not_le.2 hc]

theorem Device.issued_manage (s : Device) {r : Req} (hm : r.master = mManage) (hc : r.cls < 16) :
    s.issued r false = { r with fixed := true, cls := 16 } := by
  simp [Device.issued, s.label_manage hm hc, hm, mManage, mOliner]

/-- A FIXED request counts at no port (R229). -/
theorem Device.counted_of_fixed {s : Device} {r : Req} (h : (s.label r).1 = true) : s.counted r = s := by
  simp only [Device.counted, h, if_true]

/-- A management request to a register that no port has labelled, with none held before it at its port, reaches the register's block at once. -/
theorem Device.offer_manage_reg {s : Device} {r : Req} {die blk off : Nat} (hr : s.region r.addr = .reg die blk off)
    (hm : r.master = mManage) (hc : r.cls < 16) (hf : s.isFenced r.die r.master = false) (hb : s.behindHeld r = false)
    (ha : s.accessStatus r.die r.master r.addr r.len r.write = stDONE) :
    s.offer r = { s with regReqs := s.regReqs ++ [{ r with fixed := true, cls := 16 }] } := by
  have hremote : remoteDma r = false := by simp [remoteDma, hm, mManage, mHost]
  have hown : s.ownAccess r.die r.master r.addr = false := by simp [Device.ownAccess, hm, mManage, mDma]
  have hcount : s.counted { r with fixed := true, cls := 16 } = s :=
    Device.counted_of_fixed (by simp [Device.label, hm, mManage, mOliner])
  have hleave : s.leavePort r false = { s with regReqs := s.regReqs ++ [{ r with fixed := true, cls := 16 }] } := by
    simp [Device.leavePort, hremote, s.issued_manage hm hc, Device.arriveAt, hr, hcount, Device.finish, ha]
  simp [Device.offer, hf, hown, Device.overBudget, s.label_manage hm hc, hb, hleave]

/-- A command that brings one register request and nothing else ends where that request's performance does. -/
theorem Device.done_of_request {s d : Device} {r : Req} (hs : s.sound) (hr : s.regRequest r = d) (hd : d.idleSince s) :
    Device.done { s with regReqs := [r] } = d := by
  obtain ⟨hwf, hreq, hsent⟩ := hs
  have hround : (Device.sendLetGo { s with regReqs := [r] }).performRegs = d := by
    have hbare : ({ s with regReqs := [], regul := { s.regul with sent := [] } } : Device) = s := s.settle_of_nil 0 hreq hsent
    simp only [Device.sendLetGo, hsent, List.foldl_nil, Device.performRegs, List.foldl_cons, hbare, hr]
  have hsettle : Device.settle { s with regReqs := [r] } (4 + s.regul.held.length) = d := by
    rw [show 4 + s.regul.held.length = 3 + s.regul.held.length + 1 by omega, Device.settle, hround]
    simp only [List.isEmpty_cons, Bool.false_and, Bool.false_eq_true, if_false]
    exact Device.settle_of_nil _ _ (hd.2.1.trans hreq) (by rw [hd.2.2, hsent])
  rw [Device.done, hsettle, d.canon_eq (hd.1 ▸ hwf)]

/-- A request to an absent block of its own die that no port has labelled, and before which none is held, answers DONE with 0 and changes
nothing else. -/
theorem exec_sharedPortRequest_absent {s : State} (hs : s.dev.sound) {r : Req} {die blk off : Nat} (h : regAbsent die blk = true)
    (hr : s.dev.region r.addr = .reg die blk off) (hdie : r.die = die) (hm : r.master = mManage) (hrem : r.remote = [])
    (hc : r.cls < 16) (hb : s.dev.behindHeld r = false) (hf : s.dev.isFenced die r.master = false)
    (ha : s.dev.accessStatus die r.master r.addr r.len r.write = stDONE) :
    exec (.sharedPortRequest [r] []) s = .next (s.withDev (s.dev.answer stDONE 0)) := by
  subst hdie
  have hbody : sharedPortRequestBody [r] [] s.dev = { s.dev with regReqs := [{ r with fixed := true, cls := 16 }] } := by
    have hoffer := Device.offer_manage_reg hr hm hc hf hb ha
    rwa [hs.2.1] at hoffer
  have hdone := Device.done_of_request hs
    (Device.regRequest_absent (r := { r with fixed := true, cls := 16 }) hr h rfl hrem) ⟨rfl, rfl, rfl⟩
  exact congrArg (fun d => Host.Outcome.next (s.withDev d)) ((congrArg Device.done hbody).trans hdone)

/-- A management read of PCIE on die 1, with a class operand (16) that says it was labelled at its port already, regulated and in class 0
(R227). `Instr.wellFormed` refuses such a request; `exec` runs it, and the statement does not exclude it. -/
def labelledRead : Req :=
  { die := 1, master := mManage, home := 0, addr := 0x304000000 + 26 * 0x10000, len := 4, write := false, data := 0, fixed := false, cls := 16,
    coreWords := [], work := none, remote := [] }

theorem labelledRead_counted : ∃ t, exec (.sharedPortRequest [labelledRead] []) State.reset = .next t ∧
    t.dev.rd 1 REGULATE_AUDIT_ISSUED ≠ State.reset.dev.rd 1 REGULATE_AUDIT_ISSUED := ⟨_, rfl, by decide +kernel⟩

/-- Refutes O7: the clause on shared ports leaves the request's label free, and one that is labelled as regulated counts as issued when it
leaves its port (R229), so REGULATE_AUDIT_ISSUED changes. The clauses on reads and register writes hold (`Device.regRead_absent`,
`exec_registerWrite_absent`), and so does that on shared ports where the request bears no label yet and none is held before it at its port
(`exec_sharedPortRequest_absent`). -/
theorem not_absentBlocks : ¬ Obligations.AbsentBlocks := by
  intro h
  obtain ⟨-, h⟩ := h
  obtain ⟨-, -, hport⟩ := h State.reset 1 26 reset_sound (by decide) rfl
  obtain ⟨u, hu, -, -, -, hkeep⟩ := hport labelledRead 0 (by decide +kernel) rfl rfl rfl rfl (by decide) (by decide +kernel) (by decide +kernel)
  obtain ⟨t, ht, hne⟩ := labelledRead_counted
  obtain rfl : u = t := Host.Outcome.next.inj (hu.symm.trans ht)
  exact hne (hkeep 1 REGULATE_AUDIT_ISSUED (by simp))

/-! ### Loads as little-endian numbers -/

theorem Device.byte_lt (s : Device) (a : Nat) : s.byte a < 256 := (SMap.get (0 : Byte) s.mem a).isLt

theorem Device.load_lt (s : Device) (a n : Nat) : s.load a n < 256 ^ n := by
  induction n generalizing a with
  | zero => exact Nat.one_pos
  | succ n ih =>
    have hb := s.byte_lt a
    have hl := ih (a + 1)
    rw [Device.load, Nat.pow_succ]
    omega

theorem Device.load_add (s : Device) (a m n : Nat) : s.load a (m + n) = s.load a m + 256 ^ m * s.load (a + m) n := by
  induction m generalizing a with
  | zero => simp [Device.load]
  | succ m ih =>
    rw [Nat.add_right_comm, Device.load, ih, Device.load, Nat.add_right_comm a 1 m, Nat.pow_succ, ← Nat.add_assoc a m 1]
    ring

/-- A load within a load: the bytes below it divided away, those above it cut off. -/
theorem Device.load_within (s : Device) (b j n m : Nat) (h : j + n ≤ m) : s.load b m / 256 ^ j % 256 ^ n = s.load (b + j) n := by
  obtain ⟨r, rfl⟩ := Nat.exists_eq_add_of_le h
  rw [Nat.add_assoc, Device.load_add, Nat.add_mul_div_left _ _ (by positivity), Nat.div_eq_of_lt (s.load_lt _ _), Nat.zero_add,
    Device.load_add, Nat.add_mul_mod_self_left, Nat.mod_eq_of_lt (s.load_lt _ _)]

/-! ### Accesses to words without errors (R67 to R70) -/

/-- The words that an access touches have no error, stored or on the wires. -/
def Device.noErrors (s : Device) (a n : Nat) : Prop := ∀ w ∈ wordsOf a n, s.eccAt w = none ∧ s.linkAt w = none

theorem mem_wordsOf {a n w : Nat} (h : w ∈ wordsOf a n) : 8 * w < a + n := by
  unfold wordsOf at h
  split at h
  · exact absurd h List.not_mem_nil
  · obtain ⟨i, hi, rfl⟩ := List.mem_map.1 h
    have := List.mem_range.1 hi
    omega

/-- Where no stored word is bad, an access below LP5X meets no error. -/
theorem Device.noErrors_of_ecc {s : Device} (h : s.pond.ecc = []) {a n : Nat} (hlp : a + n ≤ lpBase) : s.noErrors a n := fun w hw => by
  have hw' := mem_wordsOf hw
  exact ⟨by rw [Device.eccAt, h]; rfl, if_neg (by omega)⟩

/-- A fold whose every step over the list's members leaves the device alone leaves it alone. -/
theorem foldl_eq_self {α β : Type} {f : β → α → β} {s : β} {l : List α} (h : ∀ a ∈ l, f s a = s) : l.foldl f s = s := by
  induction l with
  | nil => rfl
  | cons a l ih => rw [List.foldl_cons, h a (.head _), ih fun b hb => h b (.tail _ hb)]

theorem Device.linkMet_none {s : Device} {w : Nat} (h : s.linkAt w = none) : s.linkMet w = s := by rw [Device.linkMet, h]

theorem Device.eccDemand_none {s : Device} {w : Nat} (he : s.eccAt w = none) (hl : s.linkAt w = none) : s.eccDemand w = s := by
  simp only [Device.eccDemand, Device.linkMet_none hl, he]

theorem Device.linkUe_none {s : Device} {w : Nat} (h : s.linkAt w = none) : s.linkUe w = false := by rw [Device.linkUe, h]

theorem Device.isUe_none {s : Device} {w : Nat} (he : s.eccAt w = none) (hl : s.linkAt w = none) : s.isUe w = false := by
  rw [Device.isUe, he, Device.linkUe_none hl]; rfl

theorem Device.linkStore_none {s : Device} {w : Nat} (h : s.linkAt w = none) : s.linkStore w = s := by rw [Device.linkStore, h]

theorem Device.readWord_none {s : Device} {w : Nat} (he : s.eccAt w = none) (hl : s.linkAt w = none) :
    s.readWord w = s.load (8 * w) 8 := by
  rw [Device.readWord, he, hl]; simp

/-- Words in a row, put together, are the load of their bytes. -/
theorem Device.foldr_words {s : Device} (b k : Nat) (h : ∀ w ∈ List.range' b k, s.eccAt w = none ∧ s.linkAt w = none) :
    (List.range' b k).foldr (fun w acc => s.readWord w + 2 ^ 64 * acc) 0 = s.load (8 * b) (8 * k) := by
  induction k generalizing b with
  | zero => rfl
  | succ k ih =>
    rw [List.range'_succ] at h ⊢
    obtain ⟨he, hl⟩ := h b (.head _)
    rw [List.foldr_cons, ih _ fun w hw => h w (.tail _ hw), Device.readWord_none he hl, Nat.mul_succ 8 k, Nat.add_comm (8 * k) 8,
      Device.load_add, Nat.mul_succ 8 b]
    norm_num

theorem wordsOf_eq_range' {a n : Nat} (hn : 1 ≤ n) : wordsOf a n = List.range' (a / 8) ((a + n - 1) / 8 - a / 8 + 1) := by
  rw [wordsOf, if_neg (by omega), List.range_eq_range', List.map_add_range', Nat.add_zero]

theorem Device.readData_clean {s : Device} {a n : Nat} (hn : 1 ≤ n) (h : s.noErrors a n) : s.readData a n = s.load a n := by
  rw [Device.noErrors, wordsOf_eq_range' hn] at h
  rw [Device.readData, wordsOf_eq_range' hn, Device.foldr_words _ _ h, Device.load_within _ _ _ _ _ (by omega), Nat.div_add_mod]

/-- A read on the requester's own die that meets no error answers the bytes stored and changes nothing. -/
theorem Device.readChk_clean {s : Device} {src master a n : Nat} (hn : 1 ≤ n) (h : s.noErrors a n)
    (ha : s.accessStatus src master a n false = stDONE) (hh : s.homeDie (s.region a) = src) :
    s.readChk src master a n = (s, stDONE, s.load a n) := by
  have hbad : (wordsOf a n).any s.isUe = false := List.any_eq_false.2 fun w hw => by simp [Device.isUe_none (h w hw).1 (h w hw).2]
  have hfold : (wordsOf a n).foldl Device.eccDemand s = s := foldl_eq_self fun w hw => Device.eccDemand_none (h w hw).1 (h w hw).2
  simp [Device.readChk, ha, hh, hbad, hfold, Device.readData_clean hn h]

theorem Device.partReads_clean {s : Device} {a n : Nat} (h : s.noErrors a n) : s.partReads a n = s :=
  foldl_eq_self fun w hw => by
    obtain ⟨he, hl⟩ := h w (List.mem_of_mem_filter hw)
    simp only [Device.linkMet_none hl, he]

theorem Device.writeBad_clean {s : Device} {a n : Nat} (h : s.noErrors a n) : s.writeBad a n = false :=
  List.any_eq_false.2 fun w hw => by simp [Device.isUe_none (h w hw).1 (h w hw).2, Device.linkUe_none (h w hw).2]

/-- A view of the device that no byte's write changes is left by a store. -/
theorem Device.store_keeps {β : Type} {f : Device → β} (hf : ∀ (s : Device) (a x : Nat), f (s.setByte a x) = f s) (s : Device)
    (a v n : Nat) : f (s.store a v n) = f s := by
  induction n generalizing s a v with
  | zero => rfl
  | succ n ih => rw [Device.store, ih, hf]

@[simp] theorem Device.store_pond (s : Device) (a v n : Nat) : (s.store a v n).pond = s.pond :=
  Device.store_keeps (f := Device.pond) (fun _ _ _ => rfl) s a v n

@[simp] theorem Device.store_regul (s : Device) (a v n : Nat) : (s.store a v n).regul = s.regul :=
  Device.store_keeps (f := Device.regul) (fun _ _ _ => rfl) s a v n

@[simp] theorem Device.store_reply (s : Device) (a v n : Nat) : (s.store a v n).reply = s.reply :=
  Device.store_keeps (f := Device.reply) (fun _ _ _ => rfl) s a v n

theorem Device.writeWords_clean {s : Device} {a n : Nat} (h : s.noErrors a n) (v : Nat) : s.writeWords a n v = s.store a v n := by
  have hcorrect : (wordsOf a n).foldl (fun (s : Device) w => if (s.eccAt w).isNone then s else
      if partWord a n w then s.correctWord w else s.setEcc w none) s = s := foldl_eq_self fun w hw => if_pos (by rw [(h w hw).1]; rfl)
  rw [Device.writeWords, hcorrect]
  refine foldl_eq_self fun w hw => Device.linkStore_none ?_
  rw [Device.linkAt, Device.store_pond]
  exact (h w hw).2

/-- A write on the requester's own die that meets no error stores its bytes. -/
theorem Device.writeChk_clean {s : Device} {src master a n : Nat} (h : s.noErrors a n)
    (ha : s.accessStatus src master a n true = stDONE) (hh : s.homeDie (s.region a) = src) (v : Nat) :
    s.writeChk src master a n v = (s.store a v n, stDONE) := by
  simp [Device.writeChk, ha, hh, Device.partReads_clean h, Device.writeBad_clean h, Device.writeWords_clean h]

/-! ### What a core's port reaches (R20, R27, R28, R30) -/

/-- The `n` bytes from `a` lie in the core's own column, in its core store, or in its cluster's store. -/
def portReach (core a n : Nat) : Prop :=
  (columnBase (core / 64) (core % 64) ≤ a ∧ a + n ≤ columnBase (core / 64) (core % 64) + columnBytes) ∨
  (coreStoreBase (core / 64) (core % 64) ≤ a ∧ a + n ≤ coreStoreBase (core / 64) (core % 64) + 0x40000) ∨
  (storeBase + core / 64 * storeDieBytes + 0x1000000 + core % 64 / 8 * 0x200000 ≤ a ∧
    a + n ≤ storeBase + core / 64 * storeDieBytes + 0x1000000 + core % 64 / 8 * 0x200000 + 0x200000)

/-- A region that a core's port reaches. -/
def portOwns (core : Nat) : Region → Prop
  | .pond d c _ => d = core / 64 ∧ c = core % 64
  | .store d off => d = core / 64 ∧ (off / 0x40000 = core % 64 ∧ off < 0x1000000 ∨
      0x1000000 ≤ off ∧ off < 0x2000000 ∧ (off - 0x1000000) / 0x200000 = core % 64 / 8)
  | _ => False

theorem Device.region_store (s : Device) {die off : Nat} (hd : die < 4) (ho : off < 0x3800000) :
    s.region (storeBase + die * storeDieBytes + off) = .store die off := by
  generalize ha : storeBase + die * storeDieBytes + off = a
  unfold storeBase storeDieBytes at ha
  rw [Device.region, if_neg (by unfold pondDieBytes; omega), if_pos (by unfold storeBase storeDieBytes; omega),
    if_pos (by unfold storeBase storeDieBytes; omega), Region.store.injEq]
  unfold storeBase storeDieBytes
  omega

/-- A byte of a column lies in that column of that die. -/
theorem Device.region_column (s : Device) {die col o : Nat} (hd : die < 4) (hc : col < 64) (ho : o < columnBytes) :
    s.region (columnBase die col + o) = .pond die col o := by
  unfold columnBytes at ho
  have hoff : col * 0x01200000 + o < 0x48000000 := by omega
  have hdiv : (col * 0x01200000 + o) / columnBytes = col := by unfold columnBytes; omega
  have hmod : (col * 0x01200000 + o) % columnBytes = o := by unfold columnBytes; omega
  have ha : columnBase die col + o = die * 0x48000000 + (col * 0x01200000 + o) := Nat.add_assoc ..
  rw [ha, s.region_pond hd hoff, hdiv, hmod]

theorem portReach.le_lpBase {core a n : Nat} (hcore : core < 256) (h : portReach core a n) : a + n ≤ lpBase := by
  simp only [portReach, columnBase, coreStoreBase, columnBytes, pondDieBytes, storeBase, storeDieBytes] at h
  unfold lpBase; omega

theorem portReach.portOwns {s : Device} {core a n x : Nat} (hcore : core < 256) (h : portReach core a n) (hx : a ≤ x) (hxn : x < a + n) :
    portOwns core (s.region x) := by
  have hdie : core / 64 < 4 := by omega
  rcases h with ⟨hlo, hhi⟩ | ⟨hlo, hhi⟩ | ⟨hlo, hhi⟩
  · obtain ⟨o, rfl⟩ := Nat.exists_eq_add_of_le (hlo.trans hx)
    rw [s.region_column hdie (Nat.mod_lt _ (by decide)) (by omega)]
    exact ⟨rfl, rfl⟩
  · obtain ⟨o, rfl⟩ := Nat.exists_eq_add_of_le (hlo.trans hx)
    simp only [coreStoreBase, Nat.add_assoc] at hhi hxn ⊢
    rw [← Nat.add_assoc storeBase, s.region_store hdie (by omega)]
    exact ⟨rfl, .inl (by omega)⟩
  · obtain ⟨o, rfl⟩ := Nat.exists_eq_add_of_le (hlo.trans hx)
    simp only [Nat.add_assoc] at hhi hxn ⊢
    rw [← Nat.add_assoc storeBase, s.region_store hdie (by omega)]
    exact ⟨rfl, .inr (by omega)⟩

/-- A pond byte outside the core's own column is not the port's. -/
theorem Device.not_portOwns_column {s : Device} {core x : Nat} (hx : x < 4 * pondDieBytes)
    (h : x < columnBase (core / 64) (core % 64) ∨ columnBase (core / 64) (core % 64) + columnBytes ≤ x) :
    ∃ d c o, s.region x = .pond d c o ∧ ¬ (d = core / 64 ∧ c = core % 64) := by
  refine ⟨_, _, _, if_pos hx, ?_⟩
  simp only [columnBase, columnBytes, pondDieBytes] at h ⊢
  omega

theorem Device.homeDie_portOwns {s : Device} {core : Nat} {r : Region} (h : portOwns core r) : s.homeDie r = core / 64 := by
  cases r with
  | pond d c o => exact h.1
  | store d o => exact h.1
  | _ => exact h.elim

theorem Device.reachesIn_portOwns {s : Device} {core : Nat} {r : Region} (h : portOwns core r) (src a n : Nat) (w : Bool) :
    s.reachesIn src (core % 64) a n w r = true := by
  have hm : core % 64 < 64 := Nat.mod_lt _ (by decide)
  cases r with
  | pond d c o =>
    have hne : ∀ m ∈ [mSafety, mScrub, mSelftest, mWipe, mReflex, mFusion, mFault], core % 64 ≠ m := by
      intro m hmem
      have : 64 ≤ m := (by decide : ∀ m ∈ [mSafety, mScrub, mSelftest, mWipe, mReflex, mFusion, mFault], 64 ≤ m) m hmem
      omega
    simp [Device.reachesIn, hne]
  | store d o =>
    have hlow : o < 0x2C00000 := by simp only [portOwns] at h; omega
    simp [Device.reachesIn, Nat.not_le.2 hlow, Nat.lt_of_lt_of_le hm (by decide : 64 ≤ 80)]
  | _ => exact h.elim

theorem Device.accessStatus_port {s : Device} {core a n : Nat} (hcore : core < 256) (hn : 1 ≤ n) (h : portReach core a n)
    (hmode : s.rd (core / 64) POND_STATUS_MODE < 2) (w : Bool) : s.accessStatus (core / 64) (core % 64) a n w = stDONE := by
  have hfirst : portOwns core (s.region a) := h.portOwns hcore le_rfl (by omega)
  have hlast : portOwns core (s.region (a + n - 1)) := h.portOwns hcore (by omega) (by omega)
  have hreach : s.reaches (core / 64) (core % 64) a n w = true := by
    rw [Device.reaches, Device.reachesIn_portOwns hfirst, Device.reachesIn_portOwns hlast]; rfl
  simp only [Device.accessStatus, hreach, Device.homeDie_portOwns hfirst, Device.routeUp_self, not_true_eq_false, if_false]
  cases hr : s.region a with
  | pond d c o =>
    rw [hr] at hfirst
    obtain ⟨rfl, -⟩ := hfirst
    exact if_neg (Nat.not_le.2 hmode)
  | _ => rfl

/-! ### The status and the accesses of a core's port (R20, R21, R30) -/

/-- What a core's port answers for one byte of a region. -/
def Device.portByte (s : Device) (core : Nat) : Region → Nat
  | .pond d c _ => if d = core / 64 ∧ c = core % 64 then (if 2 ≤ s.rd d POND_STATUS_MODE then stRETAINED else stDONE) else stUNMAPPED
  | .store d off =>
    if d = core / 64 ∧ (off / 0x40000 = core % 64 ∧ off < 0x1000000 ∨
      0x1000000 ≤ off ∧ off < 0x2000000 ∧ (off - 0x1000000) / 0x200000 = core % 64 / 8) then stDONE else stUNMAPPED
  | _ => stUNMAPPED

/-- An access is answered for its first byte if that fails, and for its last byte otherwise. -/
theorem Device.portStatus_eq (s : Device) (core a n : Nat) : s.portStatus core a n =
    if s.portByte core (s.region a) = stDONE then s.portByte core (s.region (a + n - 1)) else s.portByte core (s.region a) := by
  simp only [Device.portStatus, Device.portByte]
  cases s.region a <;> cases s.region (a + n - 1) <;> rfl

theorem Device.portByte_owns {s : Device} {core : Nat} {r : Region} (h : portOwns core r)
    (hmode : s.rd (core / 64) POND_STATUS_MODE < 2) : s.portByte core r = stDONE := by
  cases r with
  | pond d c o =>
    obtain ⟨rfl, rfl⟩ := h
    exact (if_pos ⟨rfl, rfl⟩).trans (if_neg (Nat.not_le.2 hmode))
  | store d o => exact if_pos h
  | _ => exact h.elim

theorem Device.portStatus_reach {s : Device} {core a n : Nat} (hcore : core < 256) (hn : 1 ≤ n) (h : portReach core a n)
    (hmode : s.rd (core / 64) POND_STATUS_MODE < 2) : s.portStatus core a n = stDONE := by
  rw [Device.portStatus_eq, if_pos (Device.portByte_owns (h.portOwns hcore le_rfl (by omega)) hmode),
    Device.portByte_owns (h.portOwns hcore (by omega) (by omega)) hmode]

theorem Device.portStatus_otherColumn {s : Device} {core a : Nat} (n : Nat) (ha : a < 4 * pondDieBytes)
    (h : a < columnBase (core / 64) (core % 64) ∨ columnBase (core / 64) (core % 64) + columnBytes ≤ a) :
    s.portStatus core a n = stUNMAPPED := by
  obtain ⟨d, c, o, hr, hne⟩ := Device.not_portOwns_column (s := s) ha h
  have hbyte : s.portByte core (s.region a) = stUNMAPPED := by rw [hr]; exact if_neg hne
  rw [Device.portStatus_eq, hbyte]; rfl

/-- A core port's read within its reach answers the bytes stored. -/
theorem Device.portRead_reach {s : Device} {core a n : Nat} (hcore : core < 256) (hn : 1 ≤ n) (h : portReach core a n)
    (hmode : s.rd (core / 64) POND_STATUS_MODE < 2) (hecc : s.pond.ecc = []) (w : Work) (inside : Bool) :
    s.portRead core w a n inside = s.answer stDONE (s.load a n) := by
  have hread := Device.readChk_clean hn (Device.noErrors_of_ecc hecc (h.le_lpBase hcore))
    (Device.accessStatus_port hcore hn h hmode false) (Device.homeDie_portOwns (h.portOwns (s := s) hcore le_rfl (by omega)))
  simp only [Device.portRead, Device.portStatus_reach hcore hn h hmode, hread, if_pos]

theorem Device.portWrite_reach {s : Device} {core a n : Nat} (hcore : core < 256) (hn : 1 ≤ n) (h : portReach core a n)
    (hmode : s.rd (core / 64) POND_STATUS_MODE < 2) (hecc : s.pond.ecc = []) (w : Work) (v : Nat) (inside : Bool) :
    s.portWrite core w a n v inside = s.store a v n := by
  have hwrite := Device.writeChk_clean (Device.noErrors_of_ecc hecc (h.le_lpBase hcore))
    (Device.accessStatus_port hcore hn h hmode true) (Device.homeDie_portOwns (h.portOwns (s := s) hcore le_rfl (by omega))) v
  simp only [Device.portWrite, Device.portStatus_reach hcore hn h hmode, hwrite, if_pos]

/-- The read is served before the write (R21): its answer is the data before the store. -/
theorem corePortBody_reach {s : Device} {core a n : Nat} (hcore : core < 256) (hn : 1 ≤ n) (h : portReach core a n)
    (hmode : s.rd (core / 64) POND_STATUS_MODE = 0) (hecc : s.pond.ecc = []) (w : Work) (v : Nat) (inside : Bool) :
    corePortBody core w (some (a, n)) (some (a, n, v)) [] inside s = (s.answer stDONE (s.load a n)).store a v n := by
  have hrun : ¬ (s.arise []).rd (core / 64) POND_STATUS_MODE = 1 := by
    change ¬ s.rd (core / 64) POND_STATUS_MODE = 1; omega
  have hread := Device.portRead_reach hcore hn h (hmode ▸ Nat.zero_lt_two) hecc w inside
  have hwrite := Device.portWrite_reach (s := s.answer stDONE (s.load a n)) hcore hn h (hmode ▸ Nat.zero_lt_two) hecc w v inside
  rw [corePortBody, if_neg hrun]
  exact (congrArg (·.portWrite core w a n v inside) hread).trans hwrite

/-- While the Pond is PARKED a core's port stands (R77). -/
theorem corePortBody_parked {s : Device} {core : Nat} (h : s.rd (core / 64) POND_STATUS_MODE = 1) (w : Work)
    (read : Option (Nat × Nat)) (write : Option (Nat × Nat × Nat)) (inside : Bool) :
    corePortBody core w read write [] inside s = s := if_pos h

/-! ### What the failure of a work item leaves alone -/

/-- Memory, the requests under way and the latest answer. -/
def Device.accessView (s : Device) : List Host.Cell × List Req × RegulSt × (Nat × Nat) := (s.mem, s.regReqs, s.regul, s.reply)

@[simp] theorem Device.accessView_wr (s : Device) (d : Nat) (f : Fld) (v : Nat) : (s.wr d f v).accessView = s.accessView := rfl
@[simp] theorem Device.accessView_set (s : Device) (d : Nat) (f : Fld) : (s.set d f).accessView = s.accessView := rfl
@[simp] theorem Device.accessView_clr (s : Device) (d : Nat) (f : Fld) : (s.clr d f).accessView = s.accessView := rfl
@[simp] theorem Device.accessView_setIsland (s : Device) (i : Nat) (x : Island) : (s.setIsland i x).accessView = s.accessView := rfl
@[simp] theorem Device.accessView_dropOut (s : Device) (i : Nat) : (s.dropOut i).accessView = s.accessView := rfl

theorem Device.accessView_islandFault (s : Device) (i cause die detail : Nat) :
    (s.islandFault i cause die detail).accessView = s.accessView := by
  simp only [Device.islandFault, apply_ite Device.accessView, Device.accessView_wr, Device.accessView_set, Device.accessView_clr,
    Device.accessView_setIsland, Device.accessView_dropOut, ite_self]

theorem Device.accessView_raiseCause (s : Device) (cause die detail : Nat) : (s.raiseCause cause die detail).accessView = s.accessView := by
  have htail : ∀ d : Device, d.tailActive.accessView = d.accessView := fun d => by
    rw [Device.tailActive]
    exact foldl_keeps Device.accessView _ (fun s e => s.accessView_set e _) _ d
  rw [Device.raiseCause, htail, Device.accessView_islandFault, Device.accessView_islandFault]

theorem Device.accessView_raiseF4 (s : Device) (code : Nat) : (s.raiseF4 code).accessView = s.accessView := by
  simp only [Device.raiseF4, apply_ite Device.accessView, Device.accessView_raiseCause, Device.accessView_wr, ite_self]

theorem Device.accessView_logSlice (s : Device) (x : SliceRun) (late : Bool) : (s.logSlice x late).accessView = s.accessView := by
  simp only [Device.logSlice, apply_ite Device.accessView, Device.accessView_wr, Device.accessView_set, ite_self]

theorem Device.accessView_sliceLeaves (s : Device) (x : SliceRun) : (s.sliceLeaves x).accessView = s.accessView := by
  unfold Device.sliceLeaves
  by_cases hsig : slSignalEn (s.sliceRec x.die x.idx) = true
  · simp only [hsig, if_true]; rfl
  · simp only [hsig]; rfl

theorem Device.accessView_takeBranch (s : Device) (x : SliceRun) : (s.takeBranch x).accessView = s.accessView := by
  unfold Device.takeBranch
  simp only [apply_ite Device.accessView]
  split
  · rfl
  · split <;> rfl

theorem Device.accessView_failSlice (s : Device) (x : SliceRun) : (s.failSlice x).accessView = s.accessView := by
  simp only [Device.failSlice, apply_ite Device.accessView, Device.accessView_raiseF4, Device.accessView_takeBranch,
    Device.accessView_sliceLeaves, Device.accessView_logSlice, Device.accessView_set, ite_self]

theorem Device.accessView_endSlice (s : Device) (die idx status : Nat) : (s.endSlice die idx status).accessView = s.accessView := by
  unfold Device.endSlice
  split
  · rfl
  · simp only [Device.endRun, apply_ite Device.accessView, Device.accessView_failSlice, Device.accessView_sliceLeaves, ite_self]

theorem Device.accessView_cmdStatus (s : Device) (core status reason : Nat) :
    (s.cmdStatus core status reason).accessView = s.accessView := by
  unfold Device.cmdStatus
  split
  · split <;> rfl
  · rfl

theorem Device.accessView_beginJobEnd (s : Device) (j : Nat) : (s.beginJobEnd j).accessView = s.accessView := by
  unfold Device.beginJobEnd
  dsimp only
  split <;> rfl

/-- The end of a slice, or of a ring's running commands, with a status writes no memory, brings no request and answers nothing. -/
theorem Device.accessView_failWork (s : Device) (w : Work) (status : Nat) : (s.failWork w status).accessView = s.accessView := by
  cases w with
  | slice die idx => exact s.accessView_endSlice die idx status
  | ring g =>
    simp only [Device.failWork, apply_ite Device.accessView, Device.accessView_beginJobEnd, ite_self]
    exact foldl_keeps Device.accessView _ (fun d k => foldl_keeps Device.accessView _ (fun d c => d.accessView_cmdStatus c status 0) _ d) _ s

theorem Device.portWrite_unmapped {s : Device} {core a n : Nat} (h : s.portStatus core a n = stUNMAPPED) (w : Work) (v : Nat) (inside : Bool) :
    s.portWrite core w a n v inside =
      ((s.recordUnmapped (s.homeDie (s.region a)) (core / 64) (core % 64) a true).answer stUNMAPPED 0).failWork w stUNMAPPED := by
  rw [Device.portWrite, h]; rfl

/-- A core port's write of another column is recorded, answered UNMAPPED, and ends the core's work (R31). -/
theorem accessView_corePortBody_otherColumn {s : Device} {core a : Nat} (n v : Nat) (w : Work) (inside : Bool)
    (hmode : s.rd (core / 64) POND_STATUS_MODE ≠ 1) (ha : a < 4 * pondDieBytes)
    (h : a < columnBase (core / 64) (core % 64) ∨ columnBase (core / 64) (core % 64) + columnBytes ≤ a) :
    (corePortBody core w none (some (a, n, v)) [] inside s).accessView = (s.mem, s.regReqs, s.regul, (stUNMAPPED, 0)) := by
  have hbody : corePortBody core w none (some (a, n, v)) [] inside s =
      ((s.recordUnmapped (s.homeDie (s.region a)) (core / 64) (core % 64) a true).answer stUNMAPPED 0).failWork w stUNMAPPED :=
    (if_neg hmode).trans (Device.portWrite_unmapped (Device.portStatus_otherColumn n ha h) w v inside)
  obtain ⟨hm, hr, hg⟩ := s.recordUnmapped_idle (s.homeDie (s.region a)) (core / 64) (core % 64) a true
  rw [hbody, Device.accessView_failWork]
  simp only [Device.accessView, Device.answer, hm, hr, hg]

/-- Settles O19: the port reaches what `portReach` says with no error, so the command stores after it has read; elsewhere in the Pond the
error completion and the end of the core's work leave memory alone. -/
theorem corePortReadsBeforeItWrites : Obligations.CorePortReadsBeforeItWrites := by
  intro s core a n v work inside hs hcore hn hv reach
  refine ⟨fun hparked => ?_, fun hmode hecc hreach => ?_, fun hmode ha hcol => ?_⟩
  · exact exec_of_body hs rfl (corePortBody_parked hparked ..) ⟨rfl, rfl, rfl⟩
  · have hbody := corePortBody_reach hcore hn hreach hmode hecc work v inside
    have hdone : (corePortBody core work (some (a, n)) (some (a, n, v)) [] inside s.dev).done =
        (s.dev.answer stDONE (s.dev.load a n)).store a v n := by
      rw [hbody]
      exact Device.done_eq' _ (Device.wf_store _ _ _ _ hs.1) ((Device.store_regReqs ..).trans hs.2.1)
        ((congrArg RegulSt.sent (Device.store_regul ..)).trans hs.2.2)
    refine ⟨s.withDev _, congrArg (fun d => Host.Outcome.next (s.withDev d)) hdone, rfl, ?_, ?_, fun b hb => ?_, ?_⟩
    · exact Device.store_reply ..
    · exact (Device.load_store ..).trans (Nat.mod_eq_of_lt hv)
    · exact Device.byte_store_ne _ _ _ _ _ hb
    · exact Device.store_regs ..
  · have hview := accessView_corePortBody_otherColumn n v work inside hmode (by omega) (hcol.imp_left fun h => by omega)
    simp only [Device.accessView, Prod.mk.injEq] at hview
    obtain ⟨hmem, hreq, hreg, hreply⟩ := hview
    obtain ⟨t, ht, hp, hk, hr⟩ := runs_of_body (P := fun d => d.reply = (stUNMAPPED, 0)) (c := .corePortAccess core work none
      (some (a, n, v)) [] inside) hs rfl rfl ⟨hmem, hreq, hreg⟩ hreply
    exact ⟨t, ht, hp, hr, hk⟩

end Sys2Proof.Machine
end

section
/-!
THEOREMS of the family 02_chorus_tick_and_frame_program: device time, a follower and its source, the sample edge, slices and their overruns,
the device's own times in a tick; and what a link brings.
-/
namespace Sys2Proof.Machine

/-! ### Device time (R53) -/

theorem Device.stageRc_regs_only (s : Device) : ∃ r, s.stageRc = { s with regs := r } := by
  suffices h : ∀ (l : List Nat) (s : Device), ∃ r, l.foldl (fun (s : Device) d =>
      if s.rd d DIE_CTL_UNIT_RESET_STAGE = 1 then s.wr d DIE_CTL_UNIT_RESET_STAGE 2 else s) s = { s with regs := r } from h _ s
  intro l
  induction l with
  | nil => exact fun s => ⟨s.regs, rfl⟩
  | cons d l ih =>
    intro s
    rw [List.foldl_cons]
    split
    · obtain ⟨r, hr⟩ := ih (s.wr d DIE_CTL_UNIT_RESET_STAGE 2)
      exact ⟨r, hr⟩
    · exact ih s

theorem Device.passRc_begun {s : Device} (h : s.eft.begun = true) : ∃ r, s.passRc = { s.advanceTime with regs := r } := by
  rw [Device.passRc, if_neg (by simp [h])]
  dsimp only
  split
  · exact Device.stageRc_regs_only _
  · obtain ⟨r, hr⟩ := (s.advanceTime.addHold 0 CHORUS_POSITION_RC_IN_TICK 1).stageRc_regs_only
    exact ⟨r, hr⟩

/-- On an empty queue device time alone advances on a sound device that has left reset, and registers follow it. -/
theorem State.after_idle {s : State} (hp : s.pending = []) (hs : s.sound) (hb : s.dev.eft.begun = true) :
    ∃ r, s.after = { dev := { s.dev.advanceTime with regs := r }, pending := [] } := by
  obtain ⟨r, hr⟩ := Device.passRc_begun hb
  have hstep : step s = .next { dev := s.dev.passRc.done, pending := [] } := by
    obtain ⟨dev, pending⟩ := s
    subst hp; rfl
  have hdone : s.dev.passRc.done = s.dev.passRc := Device.done_same hs (by rw [hr]; rfl) (by rw [hr]; rfl) (by rw [hr]; rfl)
  exact ⟨r, by rw [State.after, hstep, hdone, hr]⟩

/-- Every die reads the low half of device time (R53, R58). -/
theorem Device.regView_time (s : Device) (die : Nat) : s.regView die 1 0x30 = s.chorus.time % 2 ^ 32 := by
  have h : regAbsent die 1 = false := by simp [regAbsent]
  rw [Device.regView, h]; rfl

/-- What a device shows `n` rc after a moment with time `t0` and fraction 0, if nothing waits and its clock is not slewed. -/
def State.clockAt (t0 n : Nat) (s : State) : Prop :=
  s.pending = [] ∧ s.sound ∧ s.dev.eft.begun = true ∧ s.dev.chorus.slewPpm = 0 ∧
    s.dev.chorus.time = (t0 + 5 * n / 3) % 2 ^ 64 ∧ s.dev.chorus.frac = 1000000 * (5 * n % 3)

theorem State.clockAt_after {t0 n : Nat} {s : State} (h : s.clockAt t0 n) : s.after.clockAt t0 (n + 1) := by
  obtain ⟨hp, hs, hb, hslew, ht, hf⟩ := h
  obtain ⟨r, hr⟩ := State.after_idle hp hs hb
  have hstep : (5 * (1000000 + s.dev.chorus.slewPpm)).toNat = 5000000 := by rw [hslew]; rfl
  refine ⟨by rw [hr], s.after_sound, by rw [hr]; exact hb, by rw [hr]; exact hslew, ?_, ?_⟩
  · have htime : s.after.dev.chorus.time = (s.dev.chorus.time + (s.dev.chorus.frac + (5 * (1000000 + s.dev.chorus.slewPpm)).toNat) / 3000000)
        % 2 ^ 64 := by rw [hr]; rfl
    have hns : 5 * n / 3 + (1000000 * (5 * n % 3) + 5000000) / 3000000 = 5 * (n + 1) / 3 := by omega
    rw [htime, hstep, ht, hf, Nat.mod_add_mod, Nat.add_assoc, hns]
  · have hfrac : s.after.dev.chorus.frac = (s.dev.chorus.frac + (5 * (1000000 + s.dev.chorus.slewPpm)).toNat) % 3000000 := by rw [hr]; rfl
    rw [hfrac, hstep, hf]; omega

/-- Settles O6: `State.clockAt` holds at the start and every step of an idle run keeps it. -/
theorem deviceTimeRuns : Obligations.DeviceTimeRuns := by
  refine ⟨rfl, rfl, fun run hrun hp hs hb hslew hfrac ht => ?_⟩
  have hclock : ∀ n, (run n).clockAt (run 0).dev.chorus.time n := by
    intro n
    induction n with
    | zero => exact ⟨hp, hs, hb, hslew, (Nat.mod_eq_of_lt ht).symm, hfrac⟩
    | succ n ih =>
      rw [← Host.Outcome.next.inj ((step_after _).symm.trans (hrun n))]
      exact State.clockAt_after ih
  intro n
  obtain ⟨-, -, -, -, htime, -⟩ := hclock n
  exact ⟨htime, fun die => Device.regView_time _ die⟩

/-! ### Reads of fields of other places -/

/-- Two fields of the map at different places. -/
abbrev Fld.elsewhere (f g : Fld) : Prop := f.inMap ∧ g.inMap ∧ (f.blk ≠ g.blk ∨ f.off ≠ g.off ∨ f.lo ≠ g.lo)

theorem Fld.elsewhere.key_ne {f g : Fld} (h : f.elsewhere g) (d e : Nat) : f.key d ≠ g.key e := by
  obtain ⟨⟨hfl, hfo, hfb⟩, ⟨hgl, hgo, hgb⟩, hne⟩ := h
  unfold Fld.key; omega

theorem Device.rd_wr_elsewhere {s : Device} {d e : Nat} {f g : Fld} {v : Nat} (h : g.elsewhere f := by decide) :
    (s.wr d f v).rd e g = s.rd e g := s.rd_wr_ne d e f g v (h.key_ne e d)

/-! ### A flit that comes to its port in order (R406 to R408) -/

@[simp] theorem Device.olPort_setOlPort (s : Device) (die : Nat) (p : OlPort) : (s.setOlPort die p).olPort die = p :=
  SMap.get_put_same ..

theorem Device.acked_of_replay_nil {s : Device} {die : Nat} (h : (s.olPort die).replay = []) (ack : Nat) : s.acked die ack = s := by
  simp [Device.acked, h]

/-- The port with the credits of an arriving flit returned. -/
def OlPort.credited (p : OlPort) (vc cls n : Nat) : OlPort :=
  { p with held := SMap.put 0 p.held (creditKey vc cls) (SMap.get 0 p.held (creditKey vc cls) - min n (SMap.get 0 p.held (creditKey vc cls))) }

/-- Credits that come back to a port at which no flit waits are counted, and nothing is sent. -/
theorem Device.credited_of_wait_nil {s : Device} {die : Nat} (h : (s.olPort die).wait = []) (vc cls n : Nat) :
    s.credited die vc cls n = (s.setOlPort die ((s.olPort die).credited vc cls n)).addWrap die OLINER_AUDIT_RETURNED
      (min n (SMap.get 0 (s.olPort die).held (creditKey vc cls))) := by
  have hnone : (s.olPort die).wait.length = 0 := by rw [h]; rfl
  rw [Device.credited, hnone]; rfl

/-- The port with a flit's SEQ, which is the next in order. -/
def OlPort.arrived (p : OlPort) (kind : Nat) (h : FlitHead) : OlPort :=
  { p with seqIn := h.seq, seen := p.seen || decide ((flitVc kind).getD 0 = 0) }

/-- The device once a port has taken a flit that returns no credit. -/
def Device.took (s : Device) (die kind : Nat) (h : FlitHead) : Device :=
  let p := (s.olPort die).arrived kind h
  ((s.setOlPort die p).setOlPort die (p.credited h.crVc h.crCls 0)).addWrap die OLINER_AUDIT_RETURNED 0

theorem Device.olPort_took (s : Device) (die kind : Nat) (h : FlitHead) : (s.took die kind h).olPort die =
    ((s.olPort die).arrived kind h).credited h.crVc h.crCls 0 := Device.olPort_setOlPort ..

theorem Device.rd_took {f : Fld} (hf : f.elsewhere OLINER_AUDIT_RETURNED) (s : Device) (die kind : Nat) (h : FlitHead) (e : Nat) :
    (s.took die kind h).rd e f = s.rd e f := Device.rd_wr_elsewhere hf

theorem Device.took_idle (s : Device) (die kind : Nat) (h : FlitHead) : (s.took die kind h).idleSince s := ⟨rfl, rfl, rfl⟩

/-- A flit for this device that comes in order is performed, and its buffer's credit goes back, but for a request's. -/
theorem Device.receive_comes {s : Device} {die : Nat} {h : FlitHead} (hc : s.flitComes die h) (kind : Nat) (payload : List Nat)
    (perform : Device → Device) : s.receive die kind h payload perform =
      if kind = 1 ∨ kind = 3 then perform (s.took die kind h)
      else (perform (s.took die kind h)).returnCredit die ((flitVc kind).getD 0) h.cls := by
  obtain ⟨hst, htr, hrep, hwait, hseq, hcr, hdst⟩ := hc
  have hon : s.linkOn die = true := by simp [Device.linkOn, hst, htr]
  have htook : ((s.setOlPort die { s.olPort die with
      seqIn := h.seq, seen := (s.olPort die).seen || decide ((flitVc kind).getD 0 = 0) }).acked die h.ack).credited
      die h.crVc h.crCls h.cr = s.took die kind h := by
    rw [Device.acked_of_replay_nil (by rw [Device.olPort_setOlPort]; exact hrep),
      Device.credited_of_wait_nil (by rw [Device.olPort_setOlPort]; exact hwait), hcr, Device.olPort_setOlPort, Nat.zero_min]; rfl
  have hup : ¬ ((s.took die kind h).rd die OLINER_STATUS_STATE = olLOST ∧ kind ≠ 7 ∧ kind ≠ 8) := by
    rw [Device.rd_took (by decide), hst]; exact fun h => absurd h.1 (by decide)
  have hown : h.dst = (s.took die kind h).ownId := by
    rw [hdst, Device.ownId, Device.ownId, Device.rd_took (by decide)]
  rw [Device.receive, if_neg (by simp [hon]), if_neg (by simp [← hseq])]
  dsimp only
  rw [htook, if_neg hup, if_pos hown]

theorem Device.returnCredit_idle (s : Device) (die vc cls : Nat) : (s.returnCredit die vc cls).idleSince s := ⟨rfl, rfl, rfl⟩

/-! ### Following a tick source (R55 to R57) -/

/-- The device with another state of Chorus. -/
def Device.setChorus (s : Device) (c : ChorusSt) : Device := { s with chorus := c }

@[simp] theorem Device.rd_setChorus (s : Device) (c : ChorusSt) (d : Nat) (f : Fld) : (s.setChorus c).rd d f = s.rd d f := rfl

theorem clamp16_eq (x : Int) : clamp16 x = max (-16) (min 16 x) := by unfold clamp16; omega

/-- The lock state after a source sample with an offset in ns, at a frame boundary of the source or not (R57). -/
def Device.lockNext (s : Device) (off : Int) (boundary : Bool) : Nat :=
  let st := s.rd 0 CHORUS_STATUS_LOCK_STATE
  let near := decide (-50 ≤ off) && decide (off ≤ 50)
  if st = 0 ∨ st = 3 then 1
  else if st = 2 then (if near then 2 else 1)
  else if near && boundary && decide (64 ≤ s.chorus.within) then 2 else 1

/-- The correction of the next tick towards the source (R57). -/
def Device.steered (s : Device) (off : Int) : Int :=
  if s.rd 0 CHORUS_STATUS_LOCK_STATE = 1 ∨ s.rd 0 CHORUS_STATUS_LOCK_STATE = 2 then max (-16) (min 16 (-((off * 3).tdiv 5))) else 0

theorem Device.lockNext_lt (s : Device) (off : Int) (boundary : Bool) : s.lockNext off boundary < 4 := by
  simp only [Device.lockNext]
  split_ifs <;> decide

/-- The offset of a source whose sample edge fell at `srcNs`. -/
def Device.offsetTo (s : Device) (srcNs : Int) : Int := wrapPeriod s.periodNs ((s.chorus.edgeTime : Int) - srcNs)

/-- What a source sample shows: the offset and the lock state, and the correction of the next tick. -/
def Device.followed (s : Device) (srcNs : Int) (boundary : Bool) (d : Device) : Prop :=
  d.rd 0 CHORUS_STATUS_LOCK_STATE = s.lockNext (s.offsetTo srcNs) boundary ∧
  d.rd 0 CHORUS_OFFSET_OFFSET_NS = wrapN 32 (s.offsetTo srcNs) ∧ d.chorus.missed = 0 ∧ d.chorus.adjust = s.steered (s.offsetTo srcNs)

/-- A sample changes the two registers that publish it and Chorus. -/
theorem Device.sourceSample_eq {s : Device} (h : s.rd 0 CHORUS_CTL_ROLE ≠ 0) (srcNs : Int) (pos : Option Nat) :
    ∃ c : ChorusSt, s.sourceSample srcNs pos = ((s.wr 0 CHORUS_OFFSET_OFFSET_NS (wrapN 32 (s.offsetTo srcNs))).wr 0
      CHORUS_STATUS_LOCK_STATE (s.lockNext (s.offsetTo srcNs) (decide (pos = some 0)))).setChorus c ∧
      c.missed = 0 ∧ c.adjust = s.steered (s.offsetTo srcNs) := by
  have hlock : s.lockNext (s.offsetTo srcNs) (decide (pos = some 0)) =
      (let st := s.rd 0 CHORUS_STATUS_LOCK_STATE
      let near := within30 (s.offsetTo srcNs)
      if st = lkFREE ∨ st = lkHOLDOVER then lkACQUIRE
      else if st = lkLOCKED then (if near then lkLOCKED else lkACQUIRE)
      else if near ∧ pos = some 0 ∧ 64 ≤ s.chorus.within then lkLOCKED else lkACQUIRE) := by
    simp only [Device.lockNext, Bool.and_eq_true, decide_eq_true_eq, and_assoc, within30]
    rfl
  rw [Device.sourceSample, if_neg h, hlock]
  refine ⟨_, rfl, rfl, ?_⟩
  rw [Device.steered, ← clamp16_eq]
  rfl

theorem wrapN_mod (w : Nat) (x : Int) : wrapN w x % 2 ^ w = wrapN w x := by
  have hpos : (0 : Int) < (2 ^ w : Nat) := by positivity
  have hlt := Int.emod_lt_of_pos x hpos
  have hnn := Int.emod_nonneg x hpos.ne'
  exact Nat.mod_eq_of_lt (by unfold wrapN; omega)

theorem Device.sourceSample_idle (s : Device) (srcNs : Int) (pos : Option Nat) : (s.sourceSample srcNs pos).idleSince s := by
  by_cases h : s.rd 0 CHORUS_CTL_ROLE = 0
  · rw [Device.sourceSample, if_pos h]; exact ⟨rfl, rfl, rfl⟩
  · obtain ⟨c, hc, -⟩ := Device.sourceSample_eq h srcNs pos
    rw [hc]; exact ⟨rfl, rfl, rfl⟩

theorem Device.sourceSample_followed {s : Device} (h : s.rd 0 CHORUS_CTL_ROLE ≠ 0) (srcNs : Int) (pos : Option Nat) :
    s.followed srcNs (decide (pos = some 0)) (s.sourceSample srcNs pos) := by
  obtain ⟨c, hc, hmissed, hadjust⟩ := Device.sourceSample_eq h srcNs pos
  rw [hc]
  refine ⟨?_, ?_, hmissed, hadjust⟩
  · rw [Device.rd_setChorus, Device.rd_wr_same]
    exact Nat.mod_eq_of_lt (s.lockNext_lt _ _)
  · rw [Device.rd_setChorus, Device.rd_wr_elsewhere, Device.rd_wr_same]
    exact wrapN_mod 32 _

theorem Device.sourceSample_keepsFields (s : Device) (srcNs : Int) (pos : Option Nat) :
    keepsFields s (s.sourceSample srcNs pos) [(0, CHORUS_STATUS_LOCK_STATE), (0, CHORUS_OFFSET_OFFSET_NS)] := by
  intro e g hg
  by_cases h : s.rd 0 CHORUS_CTL_ROLE = 0
  · rw [Device.sourceSample, if_pos h]
  · obtain ⟨c, hc, -⟩ := Device.sourceSample_eq h srcNs pos
    rw [hc, Device.rd_setChorus, Device.rd_wr_ne _ _ _ _ _ _ (hg _ (.head _)), Device.rd_wr_ne _ _ _ _ _ _ (hg _ (.tail _ (.head _)))]

/-! ### The commands of a follower -/

theorem chorusInBody_sample {s : Device} {width : Nat} (hr : s.rd 0 CHORUS_CTL_ROLE = 1) (hs : s.rd 0 CHORUS_CTL_SOURCE = 2)
    (hlo : 32 ≤ width) (hhi : width ≤ 400) (riseNs : Nat) : chorusInBody width riseNs s =
      s.sourceSample ((riseNs : Int) - s.rd 0 CHORUS_IN_DELAY_DELAY_NS) (if 160 ≤ width then some 0 else none) := by
  rw [chorusInBody, if_pos ⟨hs, hr⟩, if_pos ⟨hlo, hhi⟩]

theorem runs_chorusInPulse {s : State} (hs : s.dev.sound) {width : Nat} (hr : s.dev.rd 0 CHORUS_CTL_ROLE = 1)
    (hsrc : s.dev.rd 0 CHORUS_CTL_SOURCE = 2) (hlo : 32 ≤ width) (hhi : width ≤ 400) (riseNs : Nat) :
    runs (.chorusInPulse width riseNs) s fun d => keepsMem s.dev d ∧
      s.dev.followed ((riseNs : Int) - s.dev.rd 0 CHORUS_IN_DELAY_DELAY_NS) (decide (160 ≤ width)) d ∧
      keepsFields s.dev d [(0, CHORUS_STATUS_LOCK_STATE), (0, CHORUS_OFFSET_OFFSET_NS)] := by
  have hpos : decide ((if 160 ≤ width then some 0 else none) = some 0) = decide (160 ≤ width) := by
    by_cases h : 160 ≤ width <;> simp [h]
  refine runs_of_body hs rfl (chorusInBody_sample hr hsrc hlo hhi riseNs) (Device.sourceSample_idle ..)
    ⟨hpos ▸ Device.sourceSample_followed (by omega) .., Device.sourceSample_keepsFields _ _ _⟩

/-- A pulse of another width counts as a missed one (R56, R57). -/
theorem exec_chorusInPulse_missed {s : State} (hs : s.dev.sound) {width : Nat} (hr : s.dev.rd 0 CHORUS_CTL_ROLE = 1)
    (hsrc : s.dev.rd 0 CHORUS_CTL_SOURCE = 2) (hw : width < 32 ∨ 400 < width) (riseNs : Nat) :
    exec (.chorusInPulse width riseNs) s =
      .next (s.withDev { s.dev with chorus := { s.dev.chorus with missed := s.dev.chorus.missed + 1 } }) := by
  refine exec_of_body hs (f := chorusInBody width riseNs) rfl ?_ ⟨rfl, rfl, rfl⟩
  rw [chorusInBody, if_pos ⟨hsrc, hr⟩, if_neg (by omega)]

theorem runs_tickSourceLost {s : State} (hs : s.dev.sound) (hr : s.dev.rd 0 CHORUS_CTL_ROLE = 1)
    (hst : s.dev.rd 0 CHORUS_STATUS_LOCK_STATE = 1 ∨ s.dev.rd 0 CHORUS_STATUS_LOCK_STATE = 2) :
    runs .tickSourceLost s fun d => keepsMem s.dev d ∧ d.on 0 CHORUS_STATUS_LEAD_LOST = true ∧ d.rd 0 CHORUS_STATUS_LOCK_STATE = 3 ∧
      keepsFields s.dev d [(0, CHORUS_STATUS_LEAD_LOST), (0, CHORUS_STATUS_LOCK_STATE)] := by
  refine runs_of_body (d := ((s.dev.set 0 CHORUS_STATUS_LEAD_LOST).wr 0 CHORUS_STATUS_LOCK_STATE lkHOLDOVER).setChorus
    { s.dev.chorus with missed := 0, within := 0 }) hs rfl (if_pos ⟨hr, hst⟩) ⟨rfl, rfl, rfl⟩ ⟨?_, ?_, fun e g hg => ?_⟩
  · rw [Device.on, Device.rd_setChorus, Device.rd_wr_elsewhere, Device.set, Device.rd_wr_same]; rfl
  · rw [Device.rd_setChorus, Device.rd_wr_same]; rfl
  · rw [Device.rd_setChorus, Device.rd_wr_ne _ _ _ _ _ _ (hg _ (.tail _ (.head _))), Device.set,
      Device.rd_wr_ne _ _ _ _ _ _ (hg _ (.head _))]

/-- A tick or heartbeat flit at an UP port shows at most the partner's ID (R411). -/
theorem Device.fromPartner_up {s : Device} {die : Nat} (h : s.rd die OLINER_STATUS_STATE = olUP) (hd : FlitHead) (lastApplied : Nat) :
    s.fromPartner die hd lastApplied = if hd.hops = 15 then s.wr die OLINER_STATUS_PARTNER_ID hd.src else s := by
  have hne : ¬ olUP = olLOST := by decide
  rw [Device.fromPartner, Device.heartbeat, h, if_neg hne]

theorem Device.takeNote_none (s : Device) (src : Nat) : s.takeNote src none = s := by
  cases h : s.syncOpGroup <;> simp [Device.takeNote, h]

/-- A view of the device that no register's write changes is left by what a flit shows of its partner. -/
theorem Device.fromPartner_keeps {β : Type} {v : Device → β} (hv : ∀ (s : Device) (d : Nat) (x : Nat), v (s.wr d OLINER_STATUS_PARTNER_ID x) = v s)
    {s : Device} {die : Nat} (h : s.rd die OLINER_STATUS_STATE = olUP) (hd : FlitHead) (lastApplied : Nat) :
    v (s.fromPartner die hd lastApplied) = v s := by
  rw [Device.fromPartner_up h]
  split
  · exact hv _ _ _
  · rfl

/-- The device that has taken a tick flit of the port it follows, when the flit's sample is taken. -/
def Device.ticked (s : Device) (die : Nat) (h : FlitHead) (lastApplied : Nat) : Device := (s.took die 7 h).fromPartner die h lastApplied

theorem Device.ticked_chorus {s : Device} {die : Nat} {h : FlitHead} (hc : s.flitComes die h) (lastApplied : Nat) :
    (s.ticked die h lastApplied).chorus = s.chorus :=
  Device.fromPartner_keeps (v := Device.chorus) (fun _ _ _ => rfl) ((Device.rd_took (by decide) ..).trans hc.1) h lastApplied

theorem Device.ticked_olPort {s : Device} {die : Nat} {h : FlitHead} (hc : s.flitComes die h) (lastApplied : Nat) :
    ((s.ticked die h lastApplied).olPort die).seqIn = h.seq :=
  (Device.fromPartner_keeps (v := fun d => (d.olPort die).seqIn) (fun _ _ _ => rfl) ((Device.rd_took (by decide) ..).trans hc.1) h
    lastApplied).trans (congrArg OlPort.seqIn (s.olPort_took die 7 h))

theorem Device.ticked_idle {s : Device} {die : Nat} {h : FlitHead} (hc : s.flitComes die h) (lastApplied : Nat) :
    (s.ticked die h lastApplied).idleSince s :=
  have hup := (Device.rd_took (by decide) s die 7 h die).trans hc.1
  ⟨Device.fromPartner_keeps (v := Device.mem) (fun _ _ _ => rfl) hup h lastApplied,
    Device.fromPartner_keeps (v := Device.regReqs) (fun _ _ _ => rfl) hup h lastApplied,
    Device.fromPartner_keeps (v := Device.regul) (fun _ _ _ => rfl) hup h lastApplied⟩

theorem Device.rd_ticked {s : Device} {die : Nat} {h : FlitHead} (hc : s.flitComes die h) (lastApplied : Nat) {f : Fld}
    (hf : f.elsewhere OLINER_STATUS_PARTNER_ID ∧ f.elsewhere OLINER_AUDIT_RETURNED) (e : Nat) :
    (s.ticked die h lastApplied).rd e f = s.rd e f :=
  (Device.fromPartner_keeps (v := fun d => d.rd e f) (fun _ _ _ => Device.rd_wr_elsewhere hf.1)
    ((Device.rd_took (by decide) ..).trans hc.1) h lastApplied).trans (Device.rd_took hf.2 ..)

/-- What a sample shows is settled by Chorus and its registers. -/
theorem Device.followed_congr {s t : Device} (hc : t.chorus = s.chorus) (hst : t.rd 0 CHORUS_STATUS_LOCK_STATE = s.rd 0 CHORUS_STATUS_LOCK_STATE)
    (hp : t.rd 0 CHORUS_TICK_PERIOD_PERIOD_RC = s.rd 0 CHORUS_TICK_PERIOD_PERIOD_RC) {srcNs : Int} {b : Bool} {d : Device}
    (h : t.followed srcNs b d) : s.followed srcNs b d := by
  have hoff : t.offsetTo srcNs = s.offsetTo srcNs := by
    rw [Device.offsetTo, Device.periodNs, Device.period, hc, hp]; rfl
  have hlock : ∀ off, t.lockNext off b = s.lockNext off b := fun off => by simp only [Device.lockNext]; rw [hst, hc]
  have hsteer : ∀ off, t.steered off = s.steered off := fun off => by rw [Device.steered, hst]; rfl
  rwa [Device.followed, hoff, hlock, hsteer] at h

theorem tickFlitBody_follow {s : Device} {die : Nat} (hsrc : s.rd 0 CHORUS_CTL_SOURCE = 1) (hd : s.rd 0 CHORUS_CTL_OLINER_DIE = die)
    (stamp : TickStamp) : ∃ c : ChorusSt, c.srcTime = some stamp.time ∧
      c.missed = (s.sourceSample ((s.chorus.time : Int) - s.chorus.linkDelay) (some stamp.pos)).chorus.missed ∧
      c.adjust = (s.sourceSample ((s.chorus.time : Int) - s.chorus.linkDelay) (some stamp.pos)).chorus.adjust ∧
      tickFlitBody die stamp s = (s.sourceSample ((s.chorus.time : Int) - s.chorus.linkDelay) (some stamp.pos)).setChorus c :=
  ⟨{ (s.sourceSample ((s.chorus.time : Int) - s.chorus.linkDelay) (some stamp.pos)).chorus with srcTime := some stamp.time },
    rfl, rfl, rfl, if_pos ⟨hsrc, hd⟩⟩

theorem runs_tickFlit {s : State} (hs : s.dev.sound) {die : Nat} {h : FlitHead} (hc : s.dev.flitComes die h)
    (hr : s.dev.on 0 CHORUS_CTL_ROLE = true) (hsrc : s.dev.rd 0 CHORUS_CTL_SOURCE = 1) (hd : s.dev.rd 0 CHORUS_CTL_OLINER_DIE = die)
    (time pos lastApplied : Nat) : runs (.tickFlit die h ⟨time, pos⟩ lastApplied none) s fun d => keepsMem s.dev d ∧
      s.dev.followed ((s.dev.chorus.time : Int) - s.dev.chorus.linkDelay) (decide (pos = 0)) d ∧
      d.chorus.srcTime = some time ∧ (d.olPort die).seqIn = h.seq := by
  let u := s.dev.ticked die h lastApplied
  have hrd : ∀ {f : Fld}, f.elsewhere OLINER_STATUS_PARTNER_ID ∧ f.elsewhere OLINER_AUDIT_RETURNED → ∀ e, u.rd e f = s.dev.rd e f :=
    fun hf => Device.rd_ticked hc lastApplied hf
  have hchorus : u.chorus = s.dev.chorus := Device.ticked_chorus hc lastApplied
  have hrole : u.rd 0 CHORUS_CTL_ROLE ≠ 0 := by rw [hrd (by decide)]; exact of_decide_eq_true hr
  obtain ⟨c, htime, hmissed, hadjust, hflit⟩ := tickFlitBody_follow (s := u) ((hrd (by decide) 0).trans hsrc)
    ((hrd (by decide) 0).trans hd) ⟨time, pos⟩
  rw [hchorus] at hmissed hadjust hflit
  let d := u.sourceSample ((s.dev.chorus.time : Int) - s.dev.chorus.linkDelay) (some pos)
  have hbody : tickArriveBody die h ⟨time, pos⟩ lastApplied none s.dev = (d.setChorus c).returnCredit die 0 h.cls := by
    rw [tickArriveBody, Device.receive_comes hc, if_neg (by decide), Device.takeNote_none]
    exact congrArg (·.returnCredit die 0 h.cls) hflit
  have hidle : d.idleSince s.dev := (Device.sourceSample_idle ..).trans (Device.ticked_idle hc lastApplied)
  obtain ⟨hlock, hoff, hzero, hsteer⟩ := Device.followed_congr hchorus (hrd (by decide) 0) (hrd (by decide) 0)
    (Device.sourceSample_followed hrole ((s.dev.chorus.time : Int) - s.dev.chorus.linkDelay) (some pos))
  have hpos : decide (some pos = some 0) = decide (pos = 0) := by simp
  refine runs_of_body hs rfl hbody hidle ⟨⟨hpos ▸ hlock, hoff, hmissed.trans hzero, hadjust.trans hsteer⟩, htime, ?_⟩
  obtain ⟨_, hsample, -⟩ := Device.sourceSample_eq hrole ((s.dev.chorus.time : Int) - s.dev.chorus.linkDelay) (some pos)
  have hport : d.olPort die = u.olPort die := by rw [show d = _ from hsample]; rfl
  exact (congrArg OlPort.seqIn hport).trans (Device.ticked_olPort hc lastApplied)

theorem runs_delayProbe {s : State} (hs : s.dev.sound) {die : Nat} {h : FlitHead} (hc : s.dev.flitComes die h)
    (hd : s.dev.rd 0 CHORUS_CTL_OLINER_DIE = die) (rtt : Nat) : runs (.delayProbe die h rtt) s fun d => keepsMem s.dev d ∧
      d.chorus = { s.dev.chorus with linkDelay := rtt / 2 } ∧ (d.olPort die).seqIn = h.seq := by
  have hbody : probeArriveBody die h rtt s.dev =
      ({ s.dev.took die 11 h with chorus := { s.dev.chorus with linkDelay := rtt / 2 } } : Device).returnCredit die 0 h.cls := by
    rw [probeArriveBody, Device.receive_comes hc, if_neg (by decide), delayProbeBody,
      if_pos ((Device.rd_took (by decide) ..).trans hd)]
    rfl
  refine runs_of_body hs rfl hbody ⟨rfl, rfl, rfl⟩ ⟨rfl, ?_⟩
  exact congrArg OlPort.seqIn (s.dev.olPort_took die 11 h)

/-- Settles O15: each command's body is the follower's sample, or the loss of its source, or the probe's measurement. -/
theorem followerLocks : Obligations.FollowerLocks := by
  intro s hs
  refine ⟨fun die time pos lastApplied h hc hr hsrc hd => ?_, fun width riseNs _ hr hsrc hlo hhi => ?_,
    fun width riseNs hr hsrc hw => exec_chorusInPulse_missed hs hr hsrc hw riseNs, fun hr hst => ?_, fun die rtt h hc hd => ?_⟩
  · obtain ⟨t, ht, hp, hmem, ⟨hlock, hoff, hmissed, hadjust⟩, htime, hseq⟩ := runs_tickFlit hs hc hr hsrc hd time pos lastApplied
    exact ⟨t, ht, hp, hlock, hoff, hmissed, htime, hadjust, hseq, hmem⟩
  · obtain ⟨t, ht, hp, hmem, ⟨hlock, hoff, hmissed, hadjust⟩, hkeep⟩ := runs_chorusInPulse hs hr hsrc hlo hhi riseNs
    exact ⟨t, ht, hp, hlock, hoff, hmissed, hadjust, hmem, hkeep⟩
  · obtain ⟨t, ht, hp, hmem, hlost, hlock, hkeep⟩ := runs_tickSourceLost hs hr hst
    exact ⟨t, ht, hp, hlost, hlock, hmem, hkeep⟩
  · obtain ⟨t, ht, hp, hmem, hdelay, hseq⟩ := runs_delayProbe hs hc hd rtt
    exact ⟨t, ht, hp, hdelay, hseq, hmem⟩

/-! ### What the work of a sample edge leaves alone (R43) -/

/-- Chorus, the fuses and the requests under way: once Chorus has begun the tick, nothing of the edge's work changes them. The lemmas that hold
by unfolding are proved by the tactic `rfl`, so that `simp` cites them and the kernel has nothing to unfold. -/
def Device.edgeView (s : Device) : ChorusSt × Fuses × List Req × RegulSt := (s.chorus, s.eft.fuses, s.regReqs, s.regul)

@[simp] theorem Device.edgeView_foldl {α : Type} (f : Device → α → Device) (h : ∀ s a, (f s a).edgeView = s.edgeView) (l : List α) (s : Device) :
    (l.foldl f s).edgeView = s.edgeView := foldl_keeps Device.edgeView f h l s

@[simp] theorem Device.edgeView_ite (c : Prop) [Decidable c] (a b : Device) :
    (if c then a else b).edgeView = if c then a.edgeView else b.edgeView := apply_ite ..

/-! Registers, memory and messages. -/

@[simp] theorem Device.edgeView_wr (s : Device) (d : Nat) (f : Fld) (v : Nat) : (s.wr d f v).edgeView = s.edgeView := by rfl
@[simp] theorem Device.edgeView_set (s : Device) (d : Nat) (f : Fld) : (s.set d f).edgeView = s.edgeView := by rfl
@[simp] theorem Device.edgeView_clr (s : Device) (d : Nat) (f : Fld) : (s.clr d f).edgeView = s.edgeView := by rfl
@[simp] theorem Device.edgeView_addWrap (s : Device) (d : Nat) (f : Fld) (n : Nat) : (s.addWrap d f n).edgeView = s.edgeView := by rfl
@[simp] theorem Device.edgeView_addHold (s : Device) (d : Nat) (f : Fld) (n : Nat) : (s.addHold d f n).edgeView = s.edgeView := by rfl
@[simp] theorem Device.edgeView_emit (s : Device) (m : Msg) : (s.emit m).edgeView = s.edgeView := by rfl
@[simp] theorem Device.edgeView_setIsland (s : Device) (i : Nat) (x : Island) : (s.setIsland i x).edgeView = s.edgeView := by rfl
@[simp] theorem Device.edgeView_setCmd (s : Device) (c : Nat) (x : Option CoreCmd) : (s.setCmd c x).edgeView = s.edgeView := by rfl
@[simp] theorem Device.edgeView_setOlPort (s : Device) (d : Nat) (p : OlPort) : (s.setOlPort d p).edgeView = s.edgeView := by rfl
@[simp] theorem Device.edgeView_setEcc (s : Device) (w : Nat) (e : Option EccErr) : (s.setEcc w e).edgeView = s.edgeView := by rfl
@[simp] theorem Device.edgeView_setLink (s : Device) (w : Nat) (e : Option EccErr) : (s.setLink w e).edgeView = s.edgeView := by rfl
@[simp] theorem Device.edgeView_setStream (s : Device) (g : Nat) (x : Stream) : (s.setStream g x).edgeView = s.edgeView := by rfl
@[simp] theorem Device.edgeView_setFusion (s : Device) (x : FusionSt) : (s.setFusion x).edgeView = s.edgeView := by rfl
@[simp] theorem Device.edgeView_setLsio (s : Device) (x : LsioSt) : (s.setLsio x).edgeView = s.edgeView := by rfl
@[simp] theorem Device.edgeView_setLoop (s : Device) (d n : Nat) (x : Loop) : (s.setLoop d n x).edgeView = s.edgeView := by rfl
@[simp] theorem Device.edgeView_setTestRun (s : Device) (d : Nat) (x : TestRun) : (s.setTestRun d x).edgeView = s.edgeView := by rfl
@[simp] theorem Device.edgeView_setSlotPend (s : Device) (d : Nat) (l : List SlotChange) : (s.setSlotPend d l).edgeView = s.edgeView := by rfl
@[simp] theorem Device.edgeView_setWaitingOuts (s : Device) (d : Nat) (l : List (Nat × Nat × Option Int)) :
    (s.setWaitingOuts d l).edgeView = s.edgeView := by rfl
@[simp] theorem Device.edgeView_setBaskDie (s : Device) (d : Nat) (x : BaskDie) : (s.setBaskDie d x).edgeView = s.edgeView := by rfl
@[simp] theorem Device.edgeView_setDebug (s : Device) (x : DebugSt) : (s.setDebug x).edgeView = s.edgeView := by rfl

/-! The view of an update of a part that it does not show. -/

theorem Device.edgeView_pond (s : Device) (x : PondSt) : ({ s with pond := x } : Device).edgeView = s.edgeView := by rfl
theorem Device.edgeView_bask (s : Device) (x : BaskSt) : ({ s with bask := x } : Device).edgeView = s.edgeView := by rfl

@[simp] theorem Device.edgeView_store (s : Device) (a v n : Nat) : (s.store a v n).edgeView = s.edgeView :=
  Device.store_keeps (fun _ _ _ => rfl) s a v n

@[simp] theorem Device.edgeView_xfer (s : Device) (a b : Nat) : (s.xfer a b).edgeView = s.edgeView :=
  Device.xfer_keeps (P := fun t => t.edgeView = s.edgeView) (fun _ _ _ _ h => h) rfl a b

@[simp] theorem Device.edgeView_recordUnmapped (s : Device) (own src master a : Nat) (write : Bool) :
    (s.recordUnmapped own src master a write).edgeView = s.edgeView := by
  simp only [Device.recordUnmapped, Device.edgeView_ite, edgeView_set, edgeView_wr, ite_self]

@[simp] theorem Device.edgeView_recordErr (s : Device) (die master a status : Nat) (remote write : Bool) :
    (s.recordErr die master a status remote write).edgeView = s.edgeView := by
  simp only [Device.recordErr, Device.edgeView_ite, edgeView_set, edgeView_wr, ite_self]

@[simp] theorem Device.edgeView_timeoutErr (s : Device) (die master a : Nat) (remote write : Bool) :
    (s.timeoutErr die master a remote write).edgeView = s.edgeView := Device.edgeView_recordErr ..

/-! The safety islands. -/

@[simp] theorem Device.edgeView_dropOut (s : Device) (i : Nat) : (s.dropOut i).edgeView = s.edgeView := by rfl

@[simp] theorem Device.edgeView_tailActive (s : Device) : s.tailActive.edgeView = s.edgeView :=
  Device.edgeView_foldl _ (fun s d => s.edgeView_set d _) _ s

@[simp] theorem Device.edgeView_islandFault (s : Device) (i cause die detail : Nat) :
    (s.islandFault i cause die detail).edgeView = s.edgeView := by
  simp only [Device.islandFault, Device.edgeView_ite, edgeView_set, edgeView_wr, edgeView_clr, edgeView_setIsland, edgeView_dropOut, ite_self]

@[simp] theorem Device.edgeView_raiseCause (s : Device) (cause die detail : Nat) : (s.raiseCause cause die detail).edgeView = s.edgeView := by
  simp only [Device.raiseCause, edgeView_tailActive, edgeView_islandFault]

@[simp] theorem Device.edgeView_raiseF4 (s : Device) (code : Nat) : (s.raiseF4 code).edgeView = s.edgeView := by
  simp only [Device.raiseF4, Device.edgeView_ite, edgeView_wr, edgeView_raiseCause, ite_self]

/-! Oliner's ports. -/

@[simp] theorem Device.edgeView_flush (s : Device) (die n : Nat) : (s.flush die n).edgeView = s.edgeView := by
  induction n generalizing s with
  | zero => rfl
  | succ n ih =>
    rw [Device.flush]
    dsimp only
    split
    · rfl
    · split
      · rfl
      · exact (ih _).trans rfl

@[simp] theorem Device.edgeView_post (s : Device) (die kind : Nat) (w : List Nat) : (s.post die kind w).edgeView = s.edgeView :=
  Device.edgeView_flush ..

@[simp] theorem Device.edgeView_sendFlit (s : Device) (dst kind cls : Nat) (fixed job0 : Bool) (payload : List Nat) :
    (s.sendFlit dst kind cls fixed job0 payload).edgeView = s.edgeView := by
  unfold Device.sendFlit
  split <;> simp

/-! Stored words and their errors. -/

@[simp] theorem Device.edgeView_recPond (s : Device) (die w : Nat) (e : EccErr) (source : Nat) :
    (s.recPond die w e source).edgeView = s.edgeView := by
  simp [Device.recPond]

@[simp] theorem Device.edgeView_recLp (s : Device) (w : Nat) (e : EccErr) (source : Nat) : (s.recLp w e source).edgeView = s.edgeView := by
  simp [Device.recLp]

@[simp] theorem Device.edgeView_eccFound (s : Device) (w : Nat) (e : EccErr) (source : Nat) :
    (s.eccFound w e source).edgeView = s.edgeView := by
  simp [Device.eccFound]

@[simp] theorem Device.edgeView_queueFix (s : Device) (w : Nat) : (s.queueFix w).edgeView = s.edgeView := by
  unfold Device.queueFix
  dsimp only
  split_ifs <;> rfl

@[simp] theorem Device.edgeView_storeUe (s : Device) (w : Nat) : (s.storeUe w).edgeView = s.edgeView := by
  unfold Device.storeUe
  split <;> simp

@[simp] theorem Device.edgeView_linkMet (s : Device) (w : Nat) : (s.linkMet w).edgeView = s.edgeView := by
  unfold Device.linkMet
  split <;> simp

@[simp] theorem Device.edgeView_eccDemand (s : Device) (w : Nat) : (s.eccDemand w).edgeView = s.edgeView := by
  unfold Device.eccDemand
  dsimp only
  split <;> simp

@[simp] theorem Device.edgeView_correctWord (s : Device) (w : Nat) : (s.correctWord w).edgeView = s.edgeView := by
  simp [Device.correctWord]

@[simp] theorem Device.edgeView_accessError (s : Device) (src master a status : Nat) (write : Bool) :
    (s.accessError src master a status write).edgeView = s.edgeView := by
  simp [Device.accessError]

@[simp] theorem Device.edgeView_answered (s : Device) (src master h a status : Nat) (write : Bool) :
    (s.answered src master h a status write).1.edgeView = s.edgeView := by
  unfold Device.answered
  split <;> simp

@[simp] theorem Device.edgeView_readChk (s : Device) (src master a n : Nat) : (s.readChk src master a n).1.edgeView = s.edgeView := by
  unfold Device.readChk
  dsimp only
  split <;> simp

@[simp] theorem Device.edgeView_partReads (s : Device) (a n : Nat) : (s.partReads a n).edgeView = s.edgeView := by
  refine Device.edgeView_foldl _ (fun s w => ?_) _ _
  dsimp only
  split <;> simp

@[simp] theorem Device.edgeView_linkStore (s : Device) (w : Nat) : (s.linkStore w).edgeView = s.edgeView := by
  unfold Device.linkStore
  split <;> simp

@[simp] theorem Device.edgeView_writeWords (s : Device) (a n v : Nat) : (s.writeWords a n v).edgeView = s.edgeView := by
  simp [Device.writeWords]

@[simp] theorem Device.edgeView_writeChk (s : Device) (src master a n v : Nat) : (s.writeChk src master a n v).1.edgeView = s.edgeView := by
  unfold Device.writeChk
  dsimp only
  split_ifs <;> simp

@[simp] theorem Device.edgeView_rxPut (s : Device) (die a v n : Nat) : (s.rxPut die a v n).edgeView = s.edgeView := by
  rw [Device.rxPut, edgeView_writeChk]

@[simp] theorem Device.edgeView_rxPuts (s : Device) (die a : Nat) (l : List Nat) : (s.rxPuts die a l).edgeView = s.edgeView := by
  induction l generalizing s a with
  | nil => rfl
  | cons w l ih => rw [Device.rxPuts, ih, edgeView_rxPut]

@[simp] theorem Device.edgeView_rxByte (s : Device) (die a v : Nat) : (s.rxByte die a v).edgeView = s.edgeView :=
  Device.edgeView_rxPut ..

@[simp] theorem Device.edgeView_rxSetByte (s : Device) (die a v : Nat) : (s.rxSetByte die a v).edgeView = s.edgeView := by
  simp only [Device.rxSetByte, Device.rxSet, edgeView_ite, edgeView_pond, edgeView_writeChk, ite_self]

@[simp] theorem Device.edgeView_rxTouch (s : Device) (die : Nat) (l : List (Nat × Nat)) : (s.rxTouch die l).1.edgeView = s.edgeView := by
  unfold Device.rxTouch
  generalize hx : (s, stDONE) = x
  rw [show s = x.1 by rw [← hx]]
  clear hx
  induction l generalizing x with
  | nil => rfl
  | cons p l ih => rw [List.foldl_cons, ih, edgeView_readChk]

/-! Power, segments and streams of sensors. -/

@[simp] theorem Device.edgeView_setVolt (s : Device) (die op : Nat) : (s.setVolt die op).edgeView = s.edgeView := by
  simp [Device.setVolt]

@[simp] theorem Device.edgeView_raiseAhead (s : Device) (die op : Nat) : (s.raiseAhead die op).edgeView = s.edgeView := by
  simp [Device.raiseAhead]

@[simp] theorem Device.edgeView_raiseAgreed (s : Device) (g : Nat) : (s.raiseAgreed g).edgeView = s.edgeView := by
  simp [Device.raiseAgreed]

@[simp] theorem Device.edgeView_passPhase (s : Device) (n : Nat) : (s.passPhase n).edgeView = s.edgeView := by
  refine Device.edgeView_foldl _ (fun s d => ?_) _ _
  split <;> simp

@[simp] theorem Device.edgeView_baskViews (s : Device) : s.baskViews.edgeView = s.edgeView := by
  simp only [Device.baskViews, Device.edgeView_foldl _ (fun (s : Device) d => s.edgeView_wr d _ _), edgeView_wr]

@[simp] theorem Device.edgeView_pointEdge (s : Device) (die : Nat) (late : Bool) : (s.pointEdge die late).edgeView = s.edgeView := by
  simp only [Device.pointEdge, Device.applyPoint, edgeView_ite, edgeView_setBaskDie, edgeView_addHold, edgeView_setVolt, edgeView_wr,
    ite_self]
  cases s.phaseFrom die s.tick <;> rfl

@[simp] theorem Device.edgeView_thermalEdge (s : Device) (die : Nat) : (s.thermalEdge die).edgeView = s.edgeView := by
  unfold Device.thermalEdge
  dsimp only
  split
  · rfl
  · split_ifs
    · split <;> simp
    · rfl
    · split <;> simp

@[simp] theorem Device.edgeView_capEdge (s : Device) (avg cap0 : Nat) : (s.capEdge avg cap0).edgeView = s.edgeView := by
  unfold Device.capEdge
  extract_lets cap top below bask s1 bask' t s2
  have h1 : s1.edgeView = s.edgeView := edgeView_bask ..
  have h2 : s2.edgeView = s.edgeView := (edgeView_bask ..).trans ((edgeView_clr ..).trans h1)
  clear_value s1 s2
  split
  · split
    · rw [edgeView_wr, h1]
    · split
      · rw [edgeView_bask, h1]
      · rw [edgeView_set, h1]
  · simp only [edgeView_ite, edgeView_wr, edgeView_clr, h1, h2, ite_self]

@[simp] theorem Device.edgeView_applyCap (s : Device) : s.applyCap.edgeView = s.edgeView := by
  unfold Device.applyCap
  cases s.bask.cap.now <;> rfl

@[simp] theorem Device.edgeView_powerEdge (s : Device) (len : Nat) (late : List Nat) : (s.powerEdge len late).edgeView = s.edgeView := by
  unfold Device.powerEdge
  dsimp only
  rw [edgeView_baskViews, edgeView_foldl _ (fun _ _ => edgeView_wr ..), edgeView_passPhase,
    edgeView_foldl _ (fun s d => by rw [edgeView_ite, edgeView_thermalEdge, ite_self]),
    edgeView_foldl _ (fun s d => edgeView_pointEdge ..), edgeView_bask]
  cases s.applyCap.tickAverages len with
  | none => exact edgeView_applyCap s
  | some l => rw [edgeView_capEdge, edgeView_foldl _ (fun _ _ => edgeView_wr ..), edgeView_wr, edgeView_applyCap]

/-! Chorus's output, the audit, the requests of other devices, the rings and the point of sound. -/

@[simp] theorem Device.edgeView_chorusOut (s : Device) (b : Bool) : (s.chorusOut b).edgeView = s.edgeView := by
  simp only [Device.chorusOut, edgeView_ite, edgeView_emit, ite_self]

@[simp] theorem Device.edgeView_auditEdge (s : Device) : s.auditEdge.edgeView = s.edgeView := by rfl
@[simp] theorem Device.edgeView_remoteEdge (s : Device) : s.remoteEdge.edgeView = s.edgeView := by rfl
@[simp] theorem Device.edgeView_ringEdge (s : Device) : s.ringEdge.edgeView = s.edgeView := by rfl

theorem Device.edgeView_edgeWrites (s : Device) (l : List (Fld × Nat × Nat)) : ({ s with edgeWrites := l } : Device).edgeView = s.edgeView := by rfl

@[simp] theorem Device.edgeView_edgeWritesEdge (s : Device) : s.edgeWritesEdge.edgeView = s.edgeView := by
  rw [Device.edgeWritesEdge, edgeView_edgeWrites, edgeView_foldl _ (fun _ _ => edgeView_wr ..)]

@[simp] theorem Device.edgeView_retainEdge (s : Device) (die : Nat) : (s.retainEdge die).edgeView = s.edgeView := by
  simp only [Device.retainEdge, edgeView_ite, edgeView_wr, ite_self]

@[simp] theorem Device.edgeView_heartbeatEdge (s : Device) (grant : Nat) (agreed : Option Nat) (boundary : Bool) :
    (s.heartbeatEdge grant agreed boundary).edgeView = s.edgeView := by
  refine edgeView_foldl _ (fun s d => ?_) _ _
  simp only [edgeView_ite, edgeView_post, edgeView_setOlPort, ite_self]

@[simp] theorem Device.edgeView_agreeEdge (s : Device) : s.agreeEdge.edgeView = s.edgeView := by
  unfold Device.agreeEdge
  split
  · rfl
  next members _ =>
    extract_lets own leader s1
    have hs1 : s1.edgeView = s.edgeView := by
      subst s1
      split
      · rw [edgeView_ite, edgeView_sendFlit, ite_self]
      · rfl
    rw [← hs1]
    clear_value s1
    split
    · rw [edgeView_ite, edgeView_foldl _ (fun _ _ => edgeView_sendFlit ..), edgeView_raiseAgreed, edgeView_bask, ite_self]
    · rfl

/-! Segments, plans and streams that an edge resolves. -/

theorem Device.edgeView_coll (s : Device) (x : CollSt) : ({ s with coll := x } : Device).edgeView = s.edgeView := by rfl
theorem Device.edgeView_collide (s : Device) (x : CollideSt) : ({ s with collide := x } : Device).edgeView = s.edgeView := by rfl

@[simp] theorem Device.edgeView_setSegs (s : Device) (die : Nat) (l : List Segment) : (s.setSegs die l).edgeView = s.edgeView := by
  unfold Device.setSegs
  extract_lets old s0 s1 s2
  have h0 : s0.edgeView = s.edgeView := edgeView_foldl _ (fun _ _ => edgeView_writeWords ..) ..
  have h1 : s1.edgeView = s0.edgeView := edgeView_foldl _ (fun _ _ => edgeView_writeWords ..) ..
  rw [edgeView_wr, edgeView_wr, edgeView_coll, h1, h0]

@[simp] theorem Device.edgeView_resolveSegs (s : Device) (q : ResolveReq) : (s.resolveSegs q).edgeView = s.edgeView := by
  unfold Device.resolveSegs
  extract_lets hit n s1
  have h1 : s1.edgeView = s.edgeView := edgeView_foldl _ (fun s d => by
    dsimp only
    rw [edgeView_ite, edgeView_addWrap, edgeView_setSegs, edgeView_setSegs, ite_self]) ..
  split <;> simp [h1]

@[simp] theorem Device.edgeView_setPublished (s : Device) (die slot v : Nat) : (s.setPublished die slot v).edgeView = s.edgeView := by
  simp only [Device.setPublished, edgeView_ite, edgeView_collide, edgeView_wr, edgeView_rxSetByte, ite_self]

@[simp] theorem Device.edgeView_resolvePlans (s : Device) (die tag : Nat) (cancel : Bool) :
    (s.resolvePlans die tag cancel).edgeView = s.edgeView :=
  edgeView_foldl _ (fun s k => by simp only [edgeView_ite, edgeView_setPublished, edgeView_rxByte, ite_self]) ..

@[simp] theorem Device.edgeView_dropResults (s : Device) (die : Nat) (gone : List Segment) :
    (s.dropResults die gone).edgeView = s.edgeView := edgeView_foldl _ (fun _ _ => edgeView_rxPuts ..) ..

@[simp] theorem Device.edgeView_resolveStreams (s : Device) (die tag : Nat) (cancel : Bool) :
    (s.resolveStreams die tag cancel).edgeView = s.edgeView :=
  edgeView_foldl _ (fun s k => by simp only [edgeView_ite, edgeView_addWrap, edgeView_rxByte, ite_self]) ..

@[simp] theorem Device.edgeView_resolveEdge (s : Device) (q : ResolveReq) : (s.resolveEdge q).edgeView = s.edgeView := by
  unfold Device.resolveEdge
  rw [edgeView_foldl, edgeView_resolveSegs]
  intro s d
  rw [edgeView_resolveStreams, edgeView_resolvePlans, edgeView_ite, edgeView_dropResults, ite_self]

@[simp] theorem Device.edgeView_resolvesEdge (s : Device) : s.resolvesEdge.edgeView = s.edgeView := by
  unfold Device.resolvesEdge
  rw [edgeView_coll, edgeView_foldl _ (fun _ _ => edgeView_resolveEdge ..)]

/-! Streams of samples and the fusion store. -/

@[simp] theorem Device.edgeView_streamFails (s : Device) (g cause : Nat) : (s.streamFails g cause).edgeView = s.edgeView := by rfl

@[simp] theorem Device.edgeView_streamBad (s : Device) (g : Nat) : (s.streamBad g).edgeView = s.edgeView := by
  simp only [Device.streamBad, edgeView_ite, edgeView_streamFails, edgeView_setStream, edgeView_clr, edgeView_addHold, ite_self]

@[simp] theorem Device.edgeView_streamRepeat (s : Device) (g n : Nat) : (s.streamRepeat g n).edgeView = s.edgeView := by
  simp only [Device.streamRepeat, edgeView_ite, edgeView_streamFails, edgeView_setStream, edgeView_clr, edgeView_addHold, ite_self]

@[simp] theorem Device.edgeView_streamAccept (s : Device) (g ts : Nat) : (s.streamAccept g ts).edgeView = s.edgeView := by
  simp only [Device.streamAccept, edgeView_ite, edgeView_wr, edgeView_setStream, edgeView_clr, edgeView_addHold, ite_self]

@[simp] theorem Device.edgeView_checkSample (s : Device) (g cfg chk : Nat) (bad : Bool) (cnt ts : Nat) (crc : Option Nat) :
    (s.checkSample g cfg chk bad cnt ts crc).1.edgeView = s.edgeView := by
  unfold Device.checkSample
  extract_lets x w d s1 early seen s2
  split
  · exact edgeView_streamBad ..
  split
  · exact edgeView_streamBad ..
  have h1 : s1.edgeView = s.edgeView := edgeView_addHold ..
  have h2 : s2.edgeView = s1.edgeView := edgeView_setStream ..
  split
  · rw [edgeView_streamBad, h1]
  · split
    · rw [edgeView_streamRepeat, h2, h1]
    · rw [edgeView_streamAccept, h2, h1]

@[simp] theorem Device.edgeView_streamEdge (s : Device) (g : Nat) : (s.streamEdge g).edgeView = s.edgeView := by
  simp only [Device.streamEdge, edgeView_ite, edgeView_wr, edgeView_setStream, edgeView_clr, ite_self]

@[simp] theorem Device.edgeView_egoInput (s : Device) (g src ts : Nat) (vals : List Nat) : (s.egoInput g src ts vals).edgeView = s.edgeView := by
  unfold Device.egoInput
  split <;> rfl

@[simp] theorem Device.edgeView_odometrySample (s : Device) (counts : List Nat) : (s.odometrySample counts).edgeView = s.edgeView := by
  simp only [Device.odometrySample, edgeView_ite, edgeView_egoInput, edgeView_checkSample, ite_self]

/-- An access reported by whether it was done. It speaks of any outcome `x`, which keeps the kernel from running the access. -/
theorem Device.edgeView_reported (s : Device) (b : Bool) (x : Device × Nat) (h : x.1.edgeView = s.edgeView) :
    (if b then (s, true) else (x.1, decide (x.2 = stDONE))).1.edgeView = s.edgeView := by
  split
  · rfl
  · exact h

@[simp] theorem Device.edgeView_obsWriteCopy (s : Device) (u d off : Nat) (l : List Nat) : (s.obsWriteCopy u d off l).1.edgeView = s.edgeView := by
  rw [Device.obsWriteCopy, edgeView_reported _ _ _ (edgeView_writeChk ..)]

@[simp] theorem Device.edgeView_obsSwap (s : Device) : s.obsSwap.edgeView = s.edgeView := by
  unfold Device.obsSwap
  extract_lets r s1
  have hr : r.edgeView = s.edgeView := by
    subst r
    rw [edgeView_ite, edgeView_foldl _ (fun _ _ => edgeView_readChk ..), ite_self]
  rw [edgeView_ite, edgeView_addHold, edgeView_setFusion, edgeView_foldl _ (fun _ _ => edgeView_obsWriteCopy ..), edgeView_setFusion, ite_self, hr]

@[simp] theorem Device.edgeView_ageMap (s : Device) : s.ageMap.edgeView = s.edgeView :=
  edgeView_foldl _ (fun s k => by simp only [edgeView_ite, edgeView_writeChk, edgeView_readChk, ite_self]) ..

@[simp] theorem Device.edgeView_rollMap (s : Device) : s.rollMap.edgeView = s.edgeView := by
  unfold Device.rollMap
  extract_lets b s1
  split
  · rfl
  · refine (edgeView_setFusion ..).trans (edgeView_foldl _ (fun s k => ?_) ..)
    rw [edgeView_ite, edgeView_foldl _ (fun _ _ => edgeView_writeChk ..), ite_self]

@[simp] theorem Device.edgeView_calSwapEdge (s : Device) (die : Nat) : (s.calSwapEdge die).edgeView = s.edgeView := by
  unfold Device.calSwapEdge
  extract_lets a s1 s2
  split
  · refine (edgeView_clr ..).trans ((edgeView_pond ..).trans (edgeView_foldl _ (fun t i => ?_) ..))
    rw [edgeView_store, edgeView_store]
  · rfl

@[simp] theorem Device.edgeView_gatePair (s : Device) (n : Nat) : (s.gatePair n).edgeView = s.edgeView := by
  simp only [Device.gatePair, edgeView_ite, edgeView_setFusion, ite_self]

@[simp] theorem Device.edgeView_gateAll (s : Device) : s.gateAll.edgeView = s.edgeView := by
  unfold Device.gateAll
  extract_lets s1 named
  have h1 : s1.edgeView = s.edgeView := edgeView_foldl _ edgeView_gatePair ..
  rw [edgeView_foldl, h1]
  intro t g
  rw [edgeView_ite, edgeView_ite, edgeView_set, edgeView_clr, ite_self, ite_self]

@[simp] theorem Device.edgeView_levelEdge (s : Device) (b : Bool) : (s.levelEdge b).edgeView = s.edgeView := by
  simp only [Device.levelEdge, edgeView_ite, edgeView_wr, edgeView_setFusion, ite_self]

@[simp] theorem Device.edgeView_leaveF4 (s : Device) : s.leaveF4.edgeView = s.edgeView := by rfl

@[simp] theorem Device.edgeView_egoEdge (s : Device) : s.egoEdge.edgeView = s.edgeView := by
  simp only [Device.egoEdge, edgeView_ite, edgeView_raiseF4, edgeView_wr, edgeView_setFusion, ite_self]

@[simp] theorem Device.edgeView_fusionEdge (s : Device) (boundary first : Bool) (counts : List Nat) :
    (s.fusionEdge boundary first counts).edgeView = s.edgeView := by
  simp only [Device.fusionEdge, edgeView_ite, edgeView_gateAll, edgeView_levelEdge, edgeView_rollMap, edgeView_egoEdge, edgeView_odometrySample,
    edgeView_setFusion, edgeView_foldl _ edgeView_streamEdge, edgeView_foldl _ edgeView_calSwapEdge, edgeView_ageMap, edgeView_obsSwap, ite_self]

/-! Serial transfers, and the halts of the debug port. -/

@[simp] theorem Device.edgeView_spiNext (s : Device) (n : Nat) : (s.spiNext n).edgeView = s.edgeView := by
  unfold Device.spiNext
  split
  · rw [edgeView_emit, edgeView_setLsio]
  · rfl

@[simp] theorem Device.edgeView_spiTrigger (s : Device) (n k : Nat) : (s.spiTrigger n k).edgeView = s.edgeView := by
  simp only [Device.spiTrigger, edgeView_ite, edgeView_addHold, edgeView_spiNext, edgeView_setLsio, ite_self]

@[simp] theorem Device.edgeView_spiTriggers (s : Device) (trig : Nat) (ns : List Nat) : (s.spiTriggers trig ns).edgeView = s.edgeView :=
  edgeView_foldl _ (fun s n => edgeView_foldl _ (fun s k => by rw [edgeView_ite, edgeView_spiTrigger, ite_self]) ..) ..

@[simp] theorem Device.edgeView_rejoinEdge (s : Device) : s.rejoinEdge.edgeView = s.edgeView := by rfl
@[simp] theorem Device.edgeView_showHalts (s : Device) : s.showHalts.edgeView = s.edgeView := by rfl
@[simp] theorem Device.edgeView_haltNow (s : Device) (t : Nat) : (s.haltNow t).edgeView = s.edgeView := by rfl

@[simp] theorem Device.edgeView_haltPoll (s : Device) : s.haltPoll.edgeView = s.edgeView := by
  rw [Device.haltPoll, edgeView_showHalts, edgeView_foldl _ edgeView_haltNow, edgeView_setDebug]

@[simp] theorem Device.edgeView_debugEdge (s : Device) : s.debugEdge.edgeView = s.edgeView := by
  rw [Device.debugEdge, edgeView_haltPoll, edgeView_foldl _ edgeView_haltNow]

/-! The islands' edge. -/

@[simp] theorem Device.edgeView_raiseOut (s : Device) (i : Nat) : (s.raiseOut i).edgeView = s.edgeView := by
  simp only [Device.raiseOut, edgeView_ite, edgeView_emit, edgeView_set, edgeView_setIsland, ite_self]

@[simp] theorem Device.edgeView_tailEdge (s : Device) (i : Nat) : (s.tailEdge i).edgeView = s.edgeView := by
  simp only [Device.tailEdge, edgeView_ite, edgeView_dropOut, edgeView_wr, edgeView_setIsland, ite_self]

@[simp] theorem Device.edgeView_resumeEdge (s : Device) : s.resumeEdge.edgeView = s.edgeView := by
  unfold Device.resumeEdge
  rw [edgeView_ite, edgeView_leaveF4, edgeView_foldl, ite_self]
  intro s i
  dsimp only
  rw [edgeView_raiseOut, edgeView_setIsland, edgeView_wr, edgeView_wr, edgeView_set, edgeView_foldl _ (fun _ _ => edgeView_clr ..)]

@[simp] theorem Device.edgeView_tailInactive (s : Device) : s.tailInactive.edgeView = s.edgeView := by
  rw [Device.tailInactive, edgeView_clr, edgeView_clr, edgeView_foldl _ (fun _ _ => edgeView_clr ..)]

@[simp] theorem Device.edgeView_modeEdge (s : Device) : s.modeEdge.edgeView = s.edgeView := by
  unfold Device.modeEdge
  extract_lets ok
  split
  · rw [edgeView_foldl, edgeView_tailInactive]
    intro s i
    dsimp only
    rw [edgeView_raiseOut, edgeView_setIsland, edgeView_foldl _ (fun _ _ => edgeView_clr ..), edgeView_wr, edgeView_wr]
  · exact edgeView_foldl _ (fun s i => by rw [edgeView_ite, edgeView_setIsland, ite_self]) ..

@[simp] theorem Device.edgeView_startF4 (s : Device) : s.startF4.edgeView = s.edgeView := by
  rw [Device.startF4, edgeView_ite, edgeView_leaveF4, ite_self]

@[simp] theorem Device.edgeView_safetyEdge (s : Device) : s.safetyEdge.edgeView = s.edgeView := by
  unfold Device.safetyEdge
  extract_lets s1 s2
  have h1 : s1.edgeView = s.edgeView := (edgeView_foldl _ (fun _ _ => edgeView_setIsland ..) ..).trans (edgeView_resumeEdge _)
  have h2 : s2.edgeView = s.edgeView := by
    subst s2
    rw [edgeView_modeEdge, edgeView_startF4, edgeView_foldl _ edgeView_tailEdge, h1]
  rw [← h2]
  clear_value s2
  split
  · split
    · rw [edgeView_raiseCause]
    · rfl
  · rfl

/-! Control: entries retired, inputs latched and the slots' cycle. -/

@[simp] theorem Device.edgeView_setStWord (s : Device) (die n i : Nat) (v : Int) : (s.setStWord die n i v).edgeView = s.edgeView := by
  rw [Device.setStWord, edgeView_rxPut]

@[simp] theorem Device.edgeView_limit (s : Device) (die c : Nat) (v : Int) : (s.limit die c v).1.edgeView = s.edgeView := by
  unfold Device.limit
  dsimp only
  rw [edgeView_wr, edgeView_ite, edgeView_addHold, ite_self]

@[simp] theorem Device.edgeView_retireStreams (s : Device) (die : Nat) : (s.retireStreams die).edgeView = s.edgeView :=
  edgeView_foldl _ (fun s st => by
    dsimp only
    split
    · rfl
    · exact edgeView_foldl _ (fun s x => by rw [edgeView_addWrap, edgeView_rxByte]) ..) ..

@[simp] theorem Device.edgeView_retireSegments (s : Device) (die : Nat) : (s.retireSegments die).edgeView = s.edgeView := by
  rw [Device.retireSegments, edgeView_dropResults, edgeView_addWrap, edgeView_setSegs]

@[simp] theorem Device.edgeView_latchInputs (s : Device) : s.latchInputs.edgeView = s.edgeView :=
  edgeView_foldl _ (fun s d => by rw [edgeView_ite, edgeView_rxPuts, edgeView_rxPuts, ite_self]) ..

@[simp] theorem Device.edgeView_setPoint (s : Device) (die n : Nat) (d : List Nat) (x : Loop) (prev : Nat → Loop) :
    (s.setPoint die n d x prev).1.edgeView = s.edgeView := by
  unfold Device.setPoint
  extract_lets src r u s1
  have h1 : s1.edgeView = s.edgeView := by
    subst s1
    rw [edgeView_ite, edgeView_addHold, ite_self]
  split
  · rfl
  · split
    · rfl
    · split
      · exact h1
      · split
        · exact h1
        · refine (edgeView_ite ..).trans ?_
          rw [edgeView_addHold, ite_self, h1]

theorem Device.edgeView_of_setPoint {s : Device} {die n : Nat} {d : List Nat} {x : Loop} {prev : Nat → Loop} {p : Device × Loop × Nat}
    (h : p = s.setPoint die n d x prev) : p.1.edgeView = s.edgeView := by
  rw [h, edgeView_setPoint]

@[simp] theorem Device.edgeView_clearSlot (s : Device) (die n : Nat) : (s.clearSlot die n).edgeView = s.edgeView := by
  unfold Device.clearSlot
  extract_lets s1 d v
  have h1 : s1.edgeView = s.edgeView := (edgeView_foldl _ (fun _ _ => edgeView_setStWord ..) ..).trans (edgeView_setLoop ..)
  rw [← h1]
  split
  · rw [edgeView_setStWord]
  · rw [edgeView_setStWord]
  · rfl

@[simp] theorem Device.edgeView_applyChange (s : Device) (die : Nat) (c : SlotChange) : (s.applyChange die c).edgeView = s.edgeView := by
  cases c with
  | enable n on => simp only [Device.applyChange, edgeView_ite, edgeView_clearSlot, edgeView_wr, ite_self]
  | load n keep image =>
    simp only [Device.applyChange, edgeView_ite, edgeView_clearSlot]
    rw [ite_self, edgeView_foldl]
    intro s e
    rw [edgeView_ite, edgeView_rxByte, ite_self]

@[simp] theorem Device.edgeView_capture (s : Device) (die : Nat) : (s.capture die).edgeView = s.edgeView := by
  simp only [Device.capture, edgeView_ite, edgeView_wr, edgeView_rxPuts, edgeView_setTestRun, ite_self]

@[simp] theorem Device.edgeView_driveChannel (s : Device) (die : Nat) (due : List Nat) (c : Nat) : (s.driveChannel die due c).edgeView = s.edgeView := by
  unfold Device.driveChannel
  split
  · rfl
  · rw [edgeView_setWaitingOuts, edgeView_limit]
  · rw [edgeView_setWaitingOuts]

@[simp] theorem Device.edgeView_latchHold (s : Device) (die n : Nat) (prev : Nat → Loop) : (s.latchHold die n prev).edgeView = s.edgeView := by
  unfold Device.latchHold
  extract_lets d x
  split
  · rfl
  · split
    · rfl
    · rw [edgeView_ite, edgeView_setLoop, ite_self]

@[simp] theorem Device.edgeView_runSlot (s : Device) (die n : Nat) (prev : Nat → Loop) : (s.runSlot die n prev).edgeView = s.edgeView := by
  have htouch : ∀ l, (s.rxTouch die l).1.edgeView = s.edgeView := s.edgeView_rxTouch die
  -- `runSlot` is unfolded as a constant: with its arguments, the kernel would run the reads whose answer it is cut by.
  generalize hf : @Device.runSlot = f
  delta Device.runSlot at hf
  subst hf
  beta_reduce
  split
  next s0 st hread =>
    have h0 : s0.edgeView = s.edgeView := by rw [← htouch, hread]
    rw [← h0]
    split
    · rfl
    · extract_lets d x0 fb w p s1 active inj s2 point x1 e outs
      have h1 : s1.edgeView = s0.edgeView := (edgeView_wr ..).trans (edgeView_of_setPoint (p := p) rfl)
      have h2 : s2.edgeView = s1.edgeView := by
        subst s2
        rw [edgeView_ite, edgeView_setTestRun, ite_self]
      rw [edgeView_addWrap, edgeView_setLoop, edgeView_foldl _ (fun _ _ => edgeView_setStWord ..), h2, h1]

theorem Device.edgeView_safety (s : Device) (x : SafetySt) : ({ s with safety := x } : Device).edgeView = s.edgeView := by rfl

@[simp] theorem Device.edgeView_controlCycle (s : Device) (die : Nat) : (s.controlCycle die).edgeView = s.edgeView := by
  unfold Device.controlCycle
  extract_lets s1 s2 s3 due prev t first s4 s5 s6 s7 s8 s9
  have h1 : s1.edgeView = s.edgeView := edgeView_foldl _ (fun _ _ => edgeView_applyChange ..) ..
  have h2 : s2.edgeView = s1.edgeView := edgeView_setSlotPend ..
  have h3 : s3.edgeView = s2.edgeView := edgeView_foldl _ (fun s n => by rw [edgeView_ite, edgeView_setLoop, ite_self]) ..
  have h4 : s4.edgeView = s3.edgeView := by
    subst s4
    rw [edgeView_ite, edgeView_set, edgeView_setTestRun, ite_self]
  have h5 : s5.edgeView = s4.edgeView :=
    (edgeView_foldl _ (fun s n => by rw [edgeView_ite, edgeView_runSlot, edgeView_latchHold, ite_self]) ..).trans (edgeView_addWrap ..)
  have h6 : s6.edgeView = s5.edgeView := edgeView_foldl _ (fun s n => by
    split
    · rw [edgeView_wr]
    · rfl) ..
  have h7 : s7.edgeView = s6.edgeView := (edgeView_foldl _ (fun _ _ => edgeView_driveChannel ..) ..).trans (edgeView_setWaitingOuts ..)
  have h8 : s8.edgeView = s7.edgeView := edgeView_wr ..
  have h9 : s9.edgeView = s8.edgeView := edgeView_capture ..
  rw [edgeView_ite, edgeView_safety, ite_self, h9, h8, h7, h6, h5, h4, h3, h2, h1]

@[simp] theorem Device.edgeView_controlEdges (s : Device) : s.controlEdges.edgeView = s.edgeView := by
  rw [Device.controlEdges, edgeView_foldl, edgeView_latchInputs]
  intro s d
  rw [edgeView_ite, edgeView_controlCycle, edgeView_retireSegments, edgeView_retireStreams, ite_self]

@[simp] theorem Device.edgeView_burnEdge (s : Device) : s.burnEdge.edgeView = s.edgeView := by rfl

/-! ### The beginning of the tick -/

/-- The number and the time of the tick, whether an edge is still the first, and what the rest of the device keeps. -/
def Device.tickView (s : Device) : Nat × Nat × Bool × Fuses × List Req × RegulSt :=
  (s.chorus.tickNo, s.chorus.edgeTime, s.chorus.firstEdge, s.eft.fuses, s.regReqs, s.regul)

/-- The tick's view under another state of Chorus that shows the same. -/
theorem Device.tickView_chorus (s : Device) (c : ChorusSt) (ht : c.tickNo = s.chorus.tickNo) (he : c.edgeTime = s.chorus.edgeTime)
    (hf : c.firstEdge = s.chorus.firstEdge) : ({ s with chorus := c } : Device).tickView = s.tickView := by
  simp only [Device.tickView, ht, he, hf]

theorem Device.tickView_wr (s : Device) (d : Nat) (f : Fld) (v : Nat) : (s.wr d f v).tickView = s.tickView := by rfl

theorem Device.tickView_applyLayout (s : Device) : s.applyLayout.tickView = s.tickView := by
  unfold Device.applyLayout
  extract_lets c s1 s2 s3
  have h1 : s1.tickView = s.tickView := by
    subst s1
    split
    · rw [tickView_wr]
    · rfl
  have h2 : s2.tickView = s1.tickView := by
    subst s2
    split
    · rw [tickView_wr]
    · rfl
  have h3 : s3.tickView = s2.tickView := by
    subst s3
    split
    · rw [tickView_wr, tickView_wr, tickView_wr]
    · rfl
  have h : s3.tickView = s.tickView := h3.trans (h2.trans h1)
  have hparts := h
  simp only [Device.tickView, Prod.mk.injEq] at hparts
  obtain ⟨hno, htime, hfirst, -⟩ := hparts
  exact (tickView_chorus s3 _ hno.symm htime.symm hfirst.symm).trans h

theorem Device.tickView_startBranch (s : Device) (b : Branch) : (s.startBranch b).tickView = s.tickView := by rfl

/-- Chorus begins one tick, at the present time. -/
theorem Device.tickView_chorusEdge (s : Device) :
    s.chorusEdge.1.tickView = (s.chorus.tickNo + 1, s.chorus.time, false, s.eft.fuses, s.regReqs, s.regul) := by
  unfold Device.chorusEdge
  extract_lets adj c boundary pos s1 s2 s3 c3 s4 starts waiting c4 s5 s6 s7
  have h1 : s1.tickView = (c.tickNo + 1, c.time, false, s.eft.fuses, s.regReqs, s.regul) := by rfl
  have h2 : s2.tickView = s1.tickView := (tickView_wr ..).trans (tickView_wr ..)
  have h3 : s3.tickView = s2.tickView := by
    subst s3
    split
    · rw [tickView_applyLayout]
      split
      · rfl
      · exact tickView_wr ..
    · rfl
  have h4 : s4.tickView = s3.tickView := tickView_chorus _ _ rfl rfl rfl
  have h5 : s5.tickView = s4.tickView := tickView_chorus _ _ rfl rfl rfl
  have h6 : s6.tickView = s5.tickView := foldl_keeps Device.tickView _ tickView_startBranch _ _
  have h7 : s7.tickView = s6.tickView := tickView_chorus _ _ rfl rfl rfl
  rw [h7, h6, h5, h4, h3, h2, h1]

theorem Device.tickView_of_edgeView {s t : Device} (h : t.edgeView = s.edgeView) : t.tickView = s.tickView := by
  simp only [Device.edgeView, Prod.mk.injEq] at h
  obtain ⟨hchorus, hfuses, hreqs, hregul⟩ := h
  simp only [Device.tickView, hchorus, hfuses, hreqs, hregul]

/-- After Chorus has begun the tick, the work of the edge changes nothing of it. -/
theorem tickView_sampleEdgeBody (counts late : List Nat) (s : Device) (hready : s.on 0 EFT_BOOT_STATUS_READY = true) :
    (sampleEdgeBody counts late s).tickView = s.chorusEdge.1.tickView := by
  unfold sampleEdgeBody
  rw [if_neg (not_not.mpr hready)]
  extract_lets len first e boundary s1 s2 s3 s4 s5 s6
  have h1 : s1.edgeView = e.1.edgeView := by
    subst s1
    simp only [Device.edgeView_edgeWritesEdge, Device.edgeView_ringEdge, Device.edgeView_remoteEdge, Device.edgeView_auditEdge,
      Device.edgeView_chorusOut]
  have h2 : s2.edgeView = s1.edgeView := Device.edgeView_powerEdge ..
  have h3 : s3.edgeView = s2.edgeView := Device.edgeView_foldl _ Device.edgeView_retainEdge ..
  have h4 : s4.edgeView = s3.edgeView := (Device.edgeView_agreeEdge ..).trans (Device.edgeView_heartbeatEdge ..)
  have h5 : s5.edgeView = s4.edgeView := (Device.edgeView_fusionEdge ..).trans (Device.edgeView_resolvesEdge ..)
  have h6 : s6.edgeView = s5.edgeView := (Device.edgeView_rejoinEdge ..).trans (Device.edgeView_spiTriggers ..)
  refine Device.tickView_of_edgeView ?_
  rw [Device.edgeView_burnEdge, Device.edgeView_debugEdge, Device.edgeView_controlEdges, Device.edgeView_safetyEdge, h6, h5, h4, h3, h2, h1]

/-- Settles O18: Chorus begins the tick at the head of the edge's work, and nothing after it changes Chorus or leaves a request to a
register, so that what ends the command only puts memory into its canonical form. -/
theorem sampleEdgeBeginsOneTick : Obligations.SampleEdgeBeginsOneTick := by
  unfold Obligations.SampleEdgeBeginsOneTick
  intro s counts late hs hready
  obtain ⟨-, hreqs, hsent⟩ := hs
  have hview := (tickView_sampleEdgeBody counts late s.dev hready).trans s.dev.tickView_chorusEdge
  simp only [Device.tickView, Prod.mk.injEq] at hview
  obtain ⟨htick, htime, hfirst, hfuses, hreqs', hregul⟩ := hview
  refine ⟨s.withDev (sampleEdgeBody counts late s.dev).canon, ?_, rfl, ?_⟩
  · show State.upd s _ = _
    rw [State.upd, Device.done_of_nil _ (hreqs'.trans hreqs) (hregul ▸ hsent)]
    rfl
  · exact ⟨htick, htime, hfirst, hfuses⟩

/-! ### The overrun log (R50, R59) -/

/-- A field of Chorus's block. -/
abbrev Fld.ofChorus (f : Fld) : Prop := f.inMap ∧ f.blk = 1

theorem Device.rd_wr_ofChorus {f g : Fld} (hf : f.ofChorus) (s : Device) (d e v : Nat) (hg : g.inMap ∧ g.blk ≠ 1 := by decide) :
    (s.wr d g v).rd e f = s.rd e f :=
  Device.rd_wr_elsewhere ⟨hf.1, hg.1, .inl fun h => hg.2 (h ▸ hf.2)⟩

theorem Device.idleSince.of_accessView {d s : Device} (h : d.accessView = s.accessView) : d.idleSince s := by
  simp only [Device.accessView, Prod.mk.injEq] at h
  obtain ⟨hmem, hreqs, hregul, -⟩ := h
  exact ⟨hmem, hreqs, hregul⟩

/-- The log of a slice's die records it, as ended at its hard limit or not. -/
def Device.logged (s : Device) (x : SliceRun) (deadline : Bool) : Prop :=
  s.on x.die CHORUS_OVERRUN_LOG_VALID = true ∧ s.on x.die CHORUS_OVERRUN_LOG_DEADLINE = deadline ∧
  s.rd x.die CHORUS_OVERRUN_LOG_KIND = x.kind % 2 ^ CHORUS_OVERRUN_LOG_KIND.w ∧
  s.rd x.die CHORUS_OVERRUN_LOG_TICK = x.tick % 2 ^ CHORUS_OVERRUN_LOG_TICK.w ∧
  s.rd x.die CHORUS_OVERRUN_LOG_SLICE = x.idx % 2 ^ CHORUS_OVERRUN_LOG_SLICE.w

/-- The overrun of a slice of `s` is counted in `d`. -/
def Device.overrunCounted (s : Device) (x : SliceRun) (d : Device) : Prop :=
  d.on x.die CHORUS_STATUS_OVERRUN = true ∧
  d.rd x.die CHORUS_OVERRUN_COUNT_COUNT = min (s.rd x.die CHORUS_OVERRUN_COUNT_COUNT + 1) (2 ^ CHORUS_OVERRUN_COUNT_COUNT.w - 1)

/-- Two devices whose fields of Chorus read alike. -/
def Device.sameChorusRegs (d s : Device) : Prop := ∀ (e : Nat) (f : Fld), f.ofChorus → d.rd e f = s.rd e f

theorem Device.sameChorusRegs.of_regs {d s : Device} (h : d.regs = s.regs) : d.sameChorusRegs s := fun e f _ => Device.rd_congr h e f

theorem Device.sameChorusRegs.on {d s : Device} (h : d.sameChorusRegs s) (e : Nat) {f : Fld} (hf : f.ofChorus := by decide) :
    d.on e f = s.on e f := by rw [Device.on, h e f hf, Device.on]

theorem Device.sameChorusRegs.logged {d s : Device} (h : d.sameChorusRegs s) {x : SliceRun} {b : Bool} (hs : s.logged x b) : d.logged x b := by
  rw [Device.logged, h.on, h.on, h _ _ (by decide), h _ _ (by decide), h _ _ (by decide)]
  exact hs

theorem Device.sameChorusRegs.counted {d s t : Device} (h : d.sameChorusRegs s) {x : SliceRun} (hs : t.overrunCounted x s) :
    t.overrunCounted x d := by
  rw [Device.overrunCounted, h.on, h _ _ (by decide)]
  exact hs

theorem Device.logged_logSlice {s : Device} {x : SliceRun} (h : s.on x.die CHORUS_OVERRUN_LOG_VALID = false) (deadline : Bool) :
    (s.logSlice x deadline).logged x deadline := by
  rw [Device.logSlice, if_neg (by simp [h])]
  simp only [Device.logged, Device.on, Device.set, Device.rd_wr_same]
  simp (disch := decide) only [Device.rd_wr_elsewhere, Device.rd_wr_same]
  cases deadline <;> simp [b2n, CHORUS_OVERRUN_LOG_VALID, CHORUS_OVERRUN_LOG_DEADLINE]

/-- A slice that the log records reads as recorded. -/
theorem Device.logged.logIs {s : Device} {x : SliceRun} {b : Bool} (h : s.logged x b) (hidx : x.idx < 2 ^ CHORUS_OVERRUN_LOG_SLICE.w)
    (htick : x.tick < 2 ^ CHORUS_OVERRUN_LOG_TICK.w) : s.logIs x = true := by
  obtain ⟨hvalid, -, -, htk, hix⟩ := h
  simp [Device.logIs, hvalid, htk, hix, Nat.mod_eq_of_lt hidx, Nat.mod_eq_of_lt htick]

/-- A slice that is recorded already has its record's DEADLINE set. -/
theorem Device.logged.logSlice {s : Device} {x : SliceRun} {b : Bool} (h : s.logged x b) (hidx : x.idx < 2 ^ CHORUS_OVERRUN_LOG_SLICE.w)
    (htick : x.tick < 2 ^ CHORUS_OVERRUN_LOG_TICK.w) : (s.logSlice x true).logged x true := by
  have his := h.logIs hidx htick
  obtain ⟨hvalid, -, hkind, htk, hix⟩ := h
  rw [Device.logSlice, if_pos hvalid, if_pos (by simp [his])]
  simp only [Device.logged, Device.on, Device.set] at hvalid ⊢
  simp (disch := decide) only [Device.rd_wr_elsewhere, Device.rd_wr_same]
  exact ⟨hvalid, by decide, hkind, htk, hix⟩

theorem Device.chorus_logSlice (s : Device) (x : SliceRun) (b : Bool) : (s.logSlice x b).chorus = s.chorus := by
  unfold Device.logSlice
  split_ifs <;> rfl

/-- The log's fields apart, logging a slice writes no register. -/
theorem Device.rd_logSlice {f : Fld} (hf : f.inMap ∧ (f.blk ≠ 1 ∨ f.off ≠ 0x048)) (s : Device) (x : SliceRun) (b : Bool) (e : Nat) :
    (s.logSlice x b).rd e f = s.rd e f := by
  have hwr : ∀ (t : Device) (g : Fld) (v : Nat), g.ofChorus ∧ g.off = 0x048 → (t.wr x.die g v).rd e f = t.rd e f := fun t g v hg =>
    Device.rd_wr_elsewhere ⟨hf.1, hg.1.1, hf.2.imp (fun h => hg.1.2 ▸ h) (fun h => .inl (hg.2 ▸ h))⟩
  simp (disch := decide) only [Device.logSlice, apply_ite (fun t : Device => t.rd e f), Device.set, hwr, ite_self]

/-- The entries of a list with that of a slice marked as overrun. -/
def SliceRun.marked (x : SliceRun) (l : List SliceRun) : List SliceRun := l.map fun y => if y.is x then { y with late := true } else y

theorem SliceRun.is_self (x : SliceRun) : x.is x = true := by simp [SliceRun.is]

theorem SliceRun.filter_marked (x : SliceRun) (l : List SliceRun) : (x.marked l).filter (fun y => !y.is x) = l.filter (fun y => !y.is x) := by
  induction l with
  | nil => rfl
  | cons y l ih =>
    rw [SliceRun.marked, List.map_cons, ← SliceRun.marked]
    by_cases h : y.is x = true
    · have hmark : ({ y with late := true } : SliceRun).is x = true := h
      rw [if_pos h, List.filter_cons_of_neg (by simp [hmark]), List.filter_cons_of_neg (by simp [h]), ih]
    · rw [if_neg h, List.filter_cons_of_pos (by simp [h]), List.filter_cons_of_pos (by simp [h]), ih]

theorem SliceRun.any_marked (x : SliceRun) {l : List SliceRun} (h : x ∈ l) : (x.marked l).any (fun y => y.is x) = true := by
  refine List.any_eq_true.mpr ⟨_, List.mem_map_of_mem h, ?_⟩
  rw [if_pos x.is_self]
  exact x.is_self

theorem Device.chorus_overrun (s : Device) (x : SliceRun) : (s.overrun x).chorus = { s.chorus with slices := x.marked s.chorus.slices } := by
  simp only [Device.overrun, Device.setSlices, Device.chorus_logSlice]
  rfl

theorem Device.overrun_counted (s : Device) (x : SliceRun) : s.overrunCounted x (s.overrun x) := by
  have hrd : ∀ f : Fld, f.ofChorus ∧ f.off ≠ 0x048 → (s.overrun x).rd x.die f =
      ((s.set x.die CHORUS_STATUS_OVERRUN).addHold x.die CHORUS_OVERRUN_COUNT_COUNT 1).rd x.die f :=
    fun f hf => Device.rd_logSlice ⟨hf.1.1, .inr hf.2⟩ ..
  rw [Device.overrunCounted, Device.on, hrd _ (by decide), hrd _ (by decide), Device.rd_addHold_same, Device.rd_addHold_ne
    (Fld.elsewhere.key_ne (by decide) _ _), Device.set, Device.rd_wr_same, Device.rd_wr_elsewhere]
  exact ⟨by decide, rfl⟩

theorem Device.logged_overrun {s : Device} {x : SliceRun} (h : s.on x.die CHORUS_OVERRUN_LOG_VALID = false) : (s.overrun x).logged x false := by
  have hfree : ((s.set x.die CHORUS_STATUS_OVERRUN).addHold x.die CHORUS_OVERRUN_COUNT_COUNT 1).on x.die CHORUS_OVERRUN_LOG_VALID = false := by
    rw [Device.on, Device.addHold, Device.rd_wr_elsewhere, Device.set, Device.rd_wr_elsewhere, ← Device.on, h]
  exact Device.logged_logSlice hfree false

theorem Device.overrun_idle (s : Device) (x : SliceRun) : (s.overrun x).idleSince s :=
  .of_accessView (Device.accessView_logSlice ..)

/-! ### A slice that leaves its units, and its recovery branch (R47, R52) -/

theorem Device.regs_sliceLeaves (s : Device) (x : SliceRun) : (s.sliceLeaves x).regs = s.regs := by
  unfold Device.sliceLeaves
  by_cases hsig : slSignalEn (s.sliceRec x.die x.idx) = true
  · simp only [hsig, if_true]; rfl
  · simp only [hsig]; rfl

theorem Device.slices_sliceLeaves (s : Device) (x : SliceRun) :
    (s.sliceLeaves x).chorus.slices = s.chorus.slices.filter fun y => !y.is x := by
  unfold Device.sliceLeaves
  by_cases hsig : slSignalEn (s.sliceRec x.die x.idx) = true
  · simp only [hsig, if_true]; rfl
  · simp only [hsig]; rfl

theorem Device.sched_sliceLeaves (s : Device) (x : SliceRun) : (s.sliceLeaves x).chorus.sched = s.chorus.sched := by
  unfold Device.sliceLeaves
  by_cases hsig : slSignalEn (s.sliceRec x.die x.idx) = true
  · simp only [hsig, if_true]; rfl
  · simp only [hsig]; rfl

theorem Device.syncVal_sliceLeaves (s : Device) (x : SliceRun) (g : Nat) : (s.sliceLeaves x).syncVal g =
    if slSignalEn (s.sliceRec x.die x.idx) = true ∧ g = x.die * 16384 + slSignalSync (s.sliceRec x.die x.idx)
    then wrapN 64 (s.syncVal g + 1) else s.syncVal g := by
  unfold Device.sliceLeaves
  by_cases hsig : slSignalEn (s.sliceRec x.die x.idx) = true
  · simp only [hsig, if_true, true_and]
    refine (SMap.get_put ..).trans ?_
    split
    · next h => rw [h]; rfl
    · rfl
  · rw [if_neg fun h => hsig h.1]
    simp only [hsig]
    rfl

theorem Device.sliceRec_congr {d s : Device} (h : d.chorus.sched = s.chorus.sched) (die i : Nat) : d.sliceRec die i = s.sliceRec die i := by
  exact List.map_congr_left fun w _ => by simp only [Device.sliceWord, Device.schedWord, h]

theorem Device.regs_takeBranch (s : Device) (x : SliceRun) : (s.takeBranch x).regs = s.regs := by
  unfold Device.takeBranch
  dsimp only
  split_ifs <;> rfl

theorem Device.takeBranch_of_none {s : Device} {x : SliceRun} (h : slRecovery (s.sliceRec x.die x.idx) = 0xFFFF) : s.takeBranch x = s := by
  rw [Device.takeBranch, if_pos h]

/-- The branch of a slice that ends between sample edges: it waits for the next one. -/
def Device.branchOf (s : Device) (x : SliceRun) : Branch :=
  { die := x.die, first := slRecovery (s.sliceRec x.die x.idx), phase := slPhase (s.sliceRec x.die x.idx), units := x.units }

theorem Device.takeBranch_later {s : Device} {x : SliceRun} (h : slRecovery (s.sliceRec x.die x.idx) ≠ 0xFFFF) (hrc : s.rc ≠ 0) :
    s.takeBranch x = { s with chorus := { s.chorus with branches := s.chorus.branches ++ [s.branchOf x] } } := by
  rw [Device.takeBranch, if_neg h]
  exact if_neg hrc

theorem Device.rd_islandFault {f : Fld} (hf : f.ofChorus) (s : Device) (i cause die detail e : Nat) :
    (s.islandFault i cause die detail).rd e f = s.rd e f := by
  have hisland : ∀ (t : Device) (x : Island), (t.setIsland i x).rd e f = t.rd e f := fun _ _ => rfl
  have hwr : ∀ (t : Device) (d : Nat) (g : Fld) (v : Nat), g.inMap ∧ g.blk ≠ 1 → (t.wr d g v).rd e f = t.rd e f :=
    fun t d g v hg => Device.rd_wr_ofChorus hf t d e v hg
  have hdrop : ∀ t : Device, (t.dropOut i).rd e f = t.rd e f := fun t => by
    simp (disch := decide) only [Device.dropOut, Device.rd_emit, Device.clr, hisland, hwr]
  unfold Device.islandFault
  extract_lets now s1 c island s1' s2 s3 s4
  have h1 : s1.rd e f = s.rd e f := by
    subst s1
    simp (disch := decide) only [apply_ite (fun t : Device => t.rd e f), Device.set, hwr, ite_self]
  have h1' : s1'.rd e f = s1.rd e f := by
    subst s1'
    simp only [apply_ite (fun t : Device => t.rd e f), hisland, ite_self]
  have h2 : s2.rd e f = s1'.rd e f := hwr _ _ SAFETY_STATUS_CAUSES _ (by decide)
  have h3 : s3.rd e f = s2.rd e f := by
    subst s3
    simp (disch := decide) only [apply_ite (fun t : Device => t.rd e f), Device.clr, hwr, ite_self]
  have h4 : s4.rd e f = s.rd e f := (hwr _ _ SAFETY_STATUS_TAIL_ACTIVE _ (by decide)).trans (h3.trans (h2.trans (h1'.trans h1)))
  clear_value s4
  simp (disch := decide) only [apply_ite (fun t : Device => t.rd e f), hisland, hdrop, hwr, h4, ite_self]

theorem Device.rd_raiseF4 {f : Fld} (hf : f.ofChorus) (s : Device) (code e : Nat) : (s.raiseF4 code).rd e f = s.rd e f := by
  have hset : ∀ (t : Device) (d : Nat), (t.set d REFLEX_CTRL_STATUS_TAIL_ACTIVE).rd e f = t.rd e f := fun t d => Device.rd_wr_ofChorus hf t d e 1
  have hcause : ∀ t : Device, (t.raiseCause cFUSION_F4 0 0).rd e f = t.rd e f := fun t => by
    rw [Device.raiseCause, Device.tailActive, foldl_keeps (fun t : Device => t.rd e f) _ hset, Device.rd_islandFault hf, Device.rd_islandFault hf]
  simp only [Device.raiseF4, apply_ite (fun t : Device => t.rd e f), hcause, Device.rd_wr_ofChorus hf (g := FUSION_STATUS_LEVEL),
    Device.rd_wr_ofChorus hf (g := FUSION_STATUS_F4_CAUSE), ite_self]

/-! ### A slice that fails (R50, R52) -/

/-- A failing slice before its recovery branch: DEADLINE is raised, the log holds it, and its units are free. -/
def Device.failed (s : Device) (x : SliceRun) : Device := ((s.set x.die CHORUS_STATUS_DEADLINE).logSlice x true).sliceLeaves x

theorem Device.slices_failed (s : Device) (x : SliceRun) : (s.failed x).chorus.slices = s.chorus.slices.filter fun y => !y.is x := by
  rw [Device.failed, Device.slices_sliceLeaves, Device.chorus_logSlice]
  rfl

theorem Device.sliceRec_failed (s : Device) (x : SliceRun) (die i : Nat) : (s.failed x).sliceRec die i = s.sliceRec die i :=
  Device.sliceRec_congr (by rw [Device.failed, Device.sched_sliceLeaves, Device.chorus_logSlice]; rfl) die i

/-- The status and the log apart, failing writes no field of Chorus. -/
theorem Device.rd_failed {f : Fld} (hf : f.ofChorus ∧ f.off ≠ 0x048) (s : Device) (x : SliceRun) (e : Nat)
    (hne : f.elsewhere CHORUS_STATUS_DEADLINE) : (s.failed x).rd e f = s.rd e f := by
  rw [Device.failed, Device.rd_congr (Device.regs_sliceLeaves ..), Device.rd_logSlice ⟨hf.1.1, .inr hf.2⟩, Device.set,
    Device.rd_wr_elsewhere hne]

theorem Device.deadline_failed (s : Device) (x : SliceRun) : (s.failed x).on x.die CHORUS_STATUS_DEADLINE = true := by
  rw [Device.on, Device.failed, Device.rd_congr (Device.regs_sliceLeaves ..), Device.rd_logSlice (by decide), Device.set, Device.rd_wr_same]
  decide

/-- Past its recovery branch a failing slice leaves Chorus's fields and the list of slices. -/
theorem Device.failSlice_sameRegs (s : Device) (x : SliceRun) : (s.failSlice x).sameChorusRegs (s.failed x) := fun e f hf => by
  simp only [Device.failSlice, apply_ite (fun t : Device => t.rd e f), Device.rd_raiseF4 hf, Device.rd_congr (Device.regs_takeBranch ..),
    ite_self]
  rfl

theorem Device.chorus_failSlice (s : Device) (x : SliceRun) : (s.failSlice x).chorus = ((s.failed x).takeBranch x).chorus := by
  have hF4 : ∀ t : Device, (t.raiseF4 3).chorus = t.chorus := fun t => congrArg Prod.fst (t.edgeView_raiseF4 3)
  simp only [Device.failSlice, apply_ite Device.chorus, hF4, ite_self]
  rfl

theorem Device.failSlice_idle (s : Device) (x : SliceRun) : (s.failSlice x).idleSince s := .of_accessView (s.accessView_failSlice x)

/-! ### The hard limit (R50) -/

theorem Device.noFail_eq (s : Device) : ∃ p : PondSt, s.noFail = { s with pond := p } := by
  unfold Device.noFail
  split
  · exact ⟨_, rfl⟩
  · exact ⟨s.pond, rfl⟩

/-- Engines with no work in hand are left as they are. -/
theorem Device.stopSliceReflex_idle {s : Device} (hsolve : s.solve = {}) (hcollide : s.collide = {}) (die idx : Nat) :
    s.stopSliceReflex die idx = s.noFail := by
  have hrefresh : ∀ p, s.refreshOf die p = none := fun p => by rw [Device.refreshOf, hsolve]; rfl
  have hsolveOf : ∀ p, s.solveOf die p = none := fun p => by rw [Device.solveOf, hsolve]; rfl
  have hcheck : s.checkOf die idx = none := by rw [Device.checkOf, hcollide]; rfl
  have hprep : SMap.get none s.collide.prep die = none := by rw [hcollide]; rfl
  have hsolver : s.solverDeadline die idx = s := by
    unfold Device.solverDeadline
    extract_lets s1
    have h1 : s1 = s := foldl_eq_self fun p _ => by rw [hrefresh]
    rw [h1]
    exact foldl_eq_self fun p _ => by rw [hsolveOf]
  have hcollision : s.collisionDeadline die idx [] = s := by
    simp only [Device.collisionDeadline, hprep, hcheck]
    rfl
  rw [Device.stopSliceReflex, hsolver, hcollision]

/-- A slice that is not yet marked as overrun is. -/
def Device.overdue (s : Device) (x : SliceRun) : Device := if x.late then s else s.overrun x

theorem Device.overdue_eq_overrun {s : Device} {x : SliceRun} (h : x.late = false) : s.overdue x = s.overrun x := by rw [Device.overdue, h]; rfl

theorem Device.rd_overdue_rc (s : Device) (x : SliceRun) : (s.overdue x).rd 0 CHORUS_POSITION_RC_IN_TICK = s.rc := by
  have hlog : ∀ t : Device, (t.logSlice x false).rd 0 CHORUS_POSITION_RC_IN_TICK = t.rd 0 CHORUS_POSITION_RC_IN_TICK := fun t =>
    Device.rd_logSlice (by decide) ..
  unfold Device.overdue
  split
  · rfl
  · exact (hlog _).trans ((Device.rd_wr_elsewhere (by decide)).trans (Device.rd_wr_elsewhere (by decide)))

theorem Device.overdue_idle (s : Device) (x : SliceRun) : (s.overdue x).idleSince s := by
  unfold Device.overdue
  split
  · exact ⟨rfl, rfl, rfl⟩
  · exact s.overrun_idle x

theorem Device.overdue_engines {s : Device} (hsolve : s.solve = {}) (hcollide : s.collide = {}) (x : SliceRun) :
    (s.overdue x).solve = {} ∧ (s.overdue x).collide = {} := by
  unfold Device.overdue Device.overrun Device.logSlice
  split_ifs <;> exact ⟨hsolve, hcollide⟩

/-- Of Chorus, only the marks of that slice's entries change. -/
theorem Device.chorus_overdue (s : Device) (x : SliceRun) : (s.overdue x).chorus = s.chorus ∨
    (s.overdue x).chorus = { s.chorus with slices := x.marked s.chorus.slices } := by
  unfold Device.overdue
  split
  · exact .inl rfl
  · exact .inr (s.chorus_overrun x)

/-- A slice at its hard limit before it fails: its overrun is noted, and its engine has stopped. -/
def Device.limited (s : Device) (x : SliceRun) : Device := if x.started then (s.overdue x).noFail else s.overdue x

theorem Device.limited_eq (s : Device) (x : SliceRun) : ∃ p : PondSt, s.limited x = { s.overdue x with pond := p } := by
  unfold Device.limited
  split
  · exact Device.noFail_eq _
  · exact ⟨(s.overdue x).pond, rfl⟩

theorem Device.limited_idle (s : Device) (x : SliceRun) : (s.limited x).idleSince s := by
  obtain ⟨p, hp⟩ := s.limited_eq x
  rw [hp]
  exact s.overdue_idle x

theorem Device.limited_regs (s : Device) (x : SliceRun) : (s.limited x).regs = (s.overdue x).regs := by
  obtain ⟨p, hp⟩ := s.limited_eq x
  rw [hp]

theorem Device.limited_chorus (s : Device) (x : SliceRun) : (s.limited x).chorus = (s.overdue x).chorus := by
  obtain ⟨p, hp⟩ := s.limited_eq x
  rw [hp]

theorem Device.limited_slices (s : Device) (x : SliceRun) :
    (s.limited x).chorus.slices.filter (fun y => !y.is x) = s.chorus.slices.filter (fun y => !y.is x) := by
  rw [s.limited_chorus x]
  obtain h | h := s.chorus_overdue x
  · rw [h]
  · rw [h]; exact x.filter_marked _

theorem Device.limited_sliceRec (s : Device) (x : SliceRun) (die i : Nat) : (s.limited x).sliceRec die i = s.sliceRec die i := by
  refine Device.sliceRec_congr ?_ die i
  rw [s.limited_chorus x]
  obtain h | h := s.chorus_overdue x <;> rw [h]

theorem Device.limited_holds {s : Device} {x : SliceRun} (h : x ∈ s.chorus.slices) :
    (s.limited x).chorus.slices.any (fun y => y.is x) = true := by
  rw [s.limited_chorus x]
  obtain hc | hc := s.chorus_overdue x
  · rw [hc]; exact List.any_eq_true.mpr ⟨x, h, x.is_self⟩
  · rw [hc]; exact x.any_marked h

theorem hardLimitBody_eq {s : Device} {x : SliceRun} (hfind : (s.chorus.slices.find? fun y => y.die = x.die && y.idx = x.idx && s.atHardLimit y) = some x)
    (hkind : x.started = false ∨ x.kind = 2 ∨ x.kind = 4) (hsolve : s.solve = {}) (hcollide : s.collide = {}) (inside : Bool) :
    hardLimitBody x.die x.idx inside s = (s.limited x).failSlice x := by
  obtain ⟨hs, hc⟩ := s.overdue_engines hsolve hcollide x
  have hfail : ∀ t : Device, t.endRun x stDEADLINE = t.failSlice x := fun t => if_pos (by decide)
  have hends : (if (s.limited x).chorus.slices.any fun y => y.is x then (s.limited x).endRun x stDEADLINE else s.limited x) =
      (s.limited x).failSlice x := by rw [if_pos (Device.limited_holds (List.mem_of_find?_eq_some hfind)), hfail]
  rw [← hends]
  unfold hardLimitBody
  rw [hfind]
  have hlate : (if x.late = true then s else s.overrun x) = s.overdue x := rfl
  by_cases hstart : x.started = true
  · have hlim : s.limited x = (s.overdue x).noFail := if_pos hstart
    obtain h2 | h4 : x.kind = 2 ∨ x.kind = 4 := by simpa [hstart] using hkind
    · simp only [hstart, h2, not_true_eq_false, if_false, hlate, hlim, Device.stopSliceReflex_idle hs hc, OfNat.ofNat_ne_zero, false_and]
    · simp only [hstart, h4, not_true_eq_false, if_false, hlate, hlim, Device.stopSliceReflex_idle hs hc, OfNat.ofNat_ne_zero, false_and]
  · have hlim : s.limited x = s.overdue x := if_neg hstart
    simp only [hstart, not_false_eq_true, if_true, hlate, hlim, Bool.false_eq_true, and_false, if_false]

/-! ### The clauses of O16 -/

theorem Device.limited_sameRegs (s : Device) (x : SliceRun) : (s.limited x).sameChorusRegs (s.overdue x) := .of_regs (s.limited_regs x)

/-- DEADLINE is raised for the slice, which leaves its units. -/
theorem Device.failSlice_deadline (s : Device) (x : SliceRun) : (s.failSlice x).on x.die CHORUS_STATUS_DEADLINE = true := by
  rw [(s.failSlice_sameRegs x).on, s.deadline_failed x]

theorem Device.failSlice_counted {s t : Device} {x : SliceRun} (h : s.overrunCounted x t) : s.overrunCounted x (t.failSlice x) := by
  refine (t.failSlice_sameRegs x).counted ?_
  rw [Device.overrunCounted, Device.on, Device.rd_failed (by decide) _ _ _ (by decide), Device.rd_failed (by decide) _ _ _ (by decide)]
  exact h

theorem Device.on_set_deadline (t : Device) (die : Nat) : (t.set die CHORUS_STATUS_DEADLINE).on die CHORUS_OVERRUN_LOG_VALID =
    t.on die CHORUS_OVERRUN_LOG_VALID := by rw [Device.on, Device.set, Device.rd_wr_elsewhere, Device.on]

/-- The log that holds a slice, or none, holds it as ended at its hard limit once it has failed. -/
theorem Device.failSlice_logged {t : Device} {x : SliceRun} (hidx : x.idx < 2 ^ CHORUS_OVERRUN_LOG_SLICE.w)
    (htick : x.tick < 2 ^ CHORUS_OVERRUN_LOG_TICK.w) (h : t.on x.die CHORUS_OVERRUN_LOG_VALID = false ∨ t.logged x false) :
    (t.failSlice x).logged x true := by
  refine (t.failSlice_sameRegs x).logged (Device.sameChorusRegs.logged (.of_regs (Device.regs_sliceLeaves ..)) ?_)
  obtain hfree | hlog := h
  · exact Device.logged_logSlice (by rw [Device.on_set_deadline, hfree]) true
  · refine Device.logged.logSlice (b := false) ?_ hidx htick
    simp (disch := decide) only [Device.logged, Device.on, Device.set, Device.rd_wr_elsewhere]
    exact hlog

theorem Device.failSlice_slices {t : Device} {x : SliceRun} (h : slRecovery (t.sliceRec x.die x.idx) = 0xFFFF) :
    (t.failSlice x).chorus.slices = t.chorus.slices.filter fun y => !y.is x := by
  rw [t.chorus_failSlice x, Device.takeBranch_of_none (by rw [t.sliceRec_failed]; exact h), t.slices_failed x]

theorem Device.failSlice_branch {t : Device} {x : SliceRun} (h : slRecovery (t.sliceRec x.die x.idx) ≠ 0xFFFF) (hrc : t.rc ≠ 0) :
    (t.failSlice x).chorus.slices = t.chorus.slices.filter (fun y => !y.is x) ∧ t.branchOf x ∈ (t.failSlice x).chorus.branches := by
  have hrec := t.sliceRec_failed x x.die x.idx
  have hrc' : (t.failed x).rc ≠ 0 := by rw [Device.rc, Device.rd_failed (by decide) _ _ _ (by decide)]; exact hrc
  have hb : (t.failed x).branchOf x = t.branchOf x := by rw [Device.branchOf, hrec, Device.branchOf]
  rw [t.chorus_failSlice x, Device.takeBranch_later (by rw [hrec]; exact h) hrc', hb]
  exact ⟨t.slices_failed x, List.mem_append_right _ (.head _)⟩

/-- Where no breakpoint is set, the lists of a slice that starts begin, and nothing else. -/
theorem Device.listsBegin {s : Device} (h : s.probe.bp = []) (l : List Nat) :
    ∃ p : DebugSt, l.foldl (fun (s : Device) t => let s2 := s.setPcOf t 0; if s2.bpHit t 0 then s2.haltReq t else s2) s = s.setDebug p := by
  induction l generalizing s with
  | nil => exact ⟨s.probe, rfl⟩
  | cons t l ih =>
    have hmiss : (s.setPcOf t 0).bpHit t 0 = false := by
      rw [Device.bpHit, show (s.setPcOf t 0).probe.bp = [] from h]
      exact List.any_eq_false.mpr fun k _ => by simp [SMap.get, bit]
    obtain ⟨p, hp⟩ := ih (s := s.setPcOf t 0) h
    refine ⟨p, ?_⟩
    rw [List.foldl_cons]
    dsimp only
    rw [hmiss]
    exact hp

/-- The clause of O16 on a slice that starts, where no breakpoint is set. -/
theorem sliceStart_starts {s : State} {x : SliceRun} (hs : s.dev.sound) (hbp : s.dev.probe.bp = []) (hdue : s.dev.dueSlice x.die x.idx = some x)
    (hready : s.dev.sliceReady x = true) (hunits : x.units.any (s.dev.unitOff x.die) = false)
    (hkind : x.kind ∈ [1, 2, 3, 5] ∨ (x.kind = 4 ∧ x.die ≠ 0) ∨ (x.kind = 0 ∧ s.dev.rd x.die POND_STATUS_MODE < 2 ∧ s.dev.disp.kernels = []))
    (inside : Bool) : runs (.sliceStart x.die x.idx inside) s fun d =>
      d.chorus.slices = s.dev.chorus.slices.map (fun y => if y = x then { x with started := true } else y) ∧ d.regs = s.dev.regs ∧
      keepsMem s.dev d := by
  have hbody : sliceStartBody x.die x.idx inside s.dev =
      s.dev.setSlices (s.dev.chorus.slices.map fun y => if y = x then { x with started := true } else y) := by
    unfold sliceStartBody
    rw [hdue]
    dsimp only
    rw [if_neg (by simp [hready]), hunits]
    obtain hk | ⟨hk, hdie⟩ | ⟨hk, hmode, hkernels⟩ := hkind
    · have h6 : x.kind ≠ 6 := by rintro h; simp [h] at hk
      have h0 : x.kind ≠ 0 := by rintro h; simp [h] at hk
      have h4 : x.kind ≠ 4 := by rintro h; simp [h] at hk
      simp [h6, h0, h4]
    · simp [hk, hdie]
    · simp [hk, Nat.not_le.mpr hmode, Device.stopLent, Device.setSlices, hkernels]
  obtain ⟨p, hp⟩ := Device.listsBegin (s := s.dev.setSlices (s.dev.chorus.slices.map fun y => if y = x then { x with started := true } else y))
    hbp (s.dev.sliceTargets x.die x.idx)
  have hstart : sliceStartOf x.die x.idx inside s.dev =
      (s.dev.setSlices (s.dev.chorus.slices.map fun y => if y = x then { x with started := true } else y)).setDebug p := by
    rw [sliceStartOf, hdue]
    dsimp only
    rw [if_neg (by simp [hready]), hbody]
    exact hp
  exact ⟨_, exec_of_body hs rfl hstart ⟨rfl, rfl, rfl⟩, rfl, rfl, rfl, fun _ => rfl⟩

theorem sliceEnd_frees {s : State} {x : SliceRun} (hs : s.dev.sound) (hfind : s.dev.findSlice x.die x.idx = some x) (hstart : x.started = true)
    (hbusy : s.dev.sliceBusy x.die x.idx = false) : runs (.sliceEnd x.die x.idx) s fun d =>
      d.chorus.slices = s.dev.chorus.slices.filter (fun y => !y.is x) ∧ d.regs = s.dev.regs ∧ keepsMem s.dev d ∧
      (∀ g, d.syncVal g = if slSignalEn (s.dev.sliceRec x.die x.idx) = true ∧ g = x.die * 16384 + slSignalSync (s.dev.sliceRec x.die x.idx)
        then wrapN 64 (s.dev.syncVal g + 1) else s.dev.syncVal g) := by
  have hbody : sliceEndBody x.die x.idx s.dev = s.dev.sliceLeaves x := by
    rw [sliceEndBody, hfind]
    dsimp only
    rw [if_pos (by simp [hstart, hbusy]), Device.endSlice, hfind]
    exact if_neg (by decide)
  have hidle : (s.dev.sliceLeaves x).idleSince s.dev := .of_accessView (s.dev.accessView_sliceLeaves x)
  refine ⟨_, exec_of_body hs rfl hbody hidle, rfl, s.dev.slices_sliceLeaves x, s.dev.regs_sliceLeaves x, hidle.keepsMem, s.dev.syncVal_sliceLeaves x⟩

theorem sliceDeadline_counts {s : State} {x : SliceRun} (hs : s.dev.sound)
    (hfind : (s.dev.chorus.slices.find? fun y => y.die = x.die ∧ y.idx = x.idx ∧ y.late = false ∧
      ¬ (y.edges = 0 ∧ s.dev.rc < s.dev.sliceDeadline y.die y.idx)) = some x)
    (h6 : x.kind ≠ 6) (hkind : x.started = true → x.kind ≠ 1 ∧ x.kind ≠ 3) (rest : List (List Nat)) :
    runs (.sliceDeadline x.die x.idx rest) s fun d => s.dev.overrunCounted x d ∧
      (s.dev.on x.die CHORUS_OVERRUN_LOG_VALID = false → d.logged x false) ∧ keepsMem s.dev d ∧
      d.chorus.slices = s.dev.chorus.slices.map (fun y => if y.is x then { y with late := true } else y) := by
  have hfind' : (s.dev.chorus.slices.find? fun y => y.die = x.die ∧ y.idx = x.idx ∧ y.late = false ∧
      ¬ (y.edges = 0 ∧ s.dev.rc < s.dev.sliceDeadline x.die x.idx)) = some x := by
    rw [← hfind]
    refine congrArg (List.find? · _) (funext fun y => decide_eq_decide.mpr ?_)
    refine and_congr_right fun hdie => and_congr_right fun hidx => ?_
    rw [hdie, hidx]
  have hbody : sliceDeadlineBody x.die x.idx rest s.dev = s.dev.overrun x := by
    rw [sliceDeadlineBody, hfind']
    dsimp only
    rw [if_neg h6]
    by_cases hstart : x.started = true
    · rw [if_neg (by simp [hstart]), if_neg (hkind hstart).1, if_neg (hkind hstart).2]
    · rw [if_pos hstart]
  exact ⟨_, exec_of_body hs rfl hbody (s.dev.overrun_idle x), rfl, s.dev.overrun_counted x, Device.logged_overrun,
    (s.dev.overrun_idle x).keepsMem, congrArg ChorusSt.slices (s.dev.chorus_overrun x)⟩

theorem sliceHardLimit_fails {s : State} {x : SliceRun} (hs : s.dev.sound)
    (hfind : (s.dev.chorus.slices.find? fun y => y.die = x.die && y.idx = x.idx && s.dev.atHardLimit y) = some x)
    (hkind : x.started = false ∨ x.kind = 2 ∨ x.kind = 4) (hsolve : s.dev.solve = {}) (hcollide : s.dev.collide = {}) (inside : Bool) :
    runs (.sliceHardLimit x.die x.idx inside) s fun d =>
      d.on x.die CHORUS_STATUS_DEADLINE = true ∧ (x.late = false → s.dev.overrunCounted x d) ∧
      (s.dev.on x.die CHORUS_OVERRUN_LOG_VALID = false → x.idx < 2 ^ CHORUS_OVERRUN_LOG_SLICE.w → x.tick < 2 ^ CHORUS_OVERRUN_LOG_TICK.w →
        d.logged x true) ∧
      keepsMem s.dev d ∧
      (slRecovery (s.dev.sliceRec x.die x.idx) = 0xFFFF → d.chorus.slices = s.dev.chorus.slices.filter (fun y => !y.is x)) ∧
      (slRecovery (s.dev.sliceRec x.die x.idx) ≠ 0xFFFF → s.dev.rc ≠ 0 →
        d.chorus.slices = s.dev.chorus.slices.filter (fun y => !y.is x) ∧
        ∃ b ∈ d.chorus.branches, b.die = x.die ∧ b.first = slRecovery (s.dev.sliceRec x.die x.idx) ∧ b.base = none ∧ b.units = x.units) := by
  have hidle : ((s.dev.limited x).failSlice x).idleSince s.dev := ((s.dev.limited x).failSlice_idle x).trans (s.dev.limited_idle x)
  have hsame := s.dev.limited_sameRegs x
  have hrec := s.dev.limited_sliceRec x x.die x.idx
  refine ⟨_, exec_of_body hs rfl (hardLimitBody_eq hfind hkind hsolve hcollide inside) hidle, rfl, Device.failSlice_deadline _ x,
    fun hlate => ?_, fun hfree hidx htick => ?_, hidle.keepsMem, fun h => ?_, fun h hrc => ?_⟩
  · exact Device.failSlice_counted (hsame.counted (Device.overdue_eq_overrun hlate ▸ s.dev.overrun_counted x))
  · refine Device.failSlice_logged hidx htick ?_
    by_cases hlate : x.late = true
    · exact .inl (by rw [hsame.on, Device.overdue, if_pos hlate, hfree])
    · rw [Bool.not_eq_true] at hlate
      exact .inr (hsame.logged (Device.overdue_eq_overrun hlate ▸ Device.logged_overrun hfree))
  · exact (Device.failSlice_slices (by rw [hrec]; exact h)).trans (s.dev.limited_slices x)
  · obtain ⟨hslices, hbranch⟩ := Device.failSlice_branch (t := s.dev.limited x) (x := x) (by rw [hrec]; exact h)
      (by rw [Device.rc, hsame _ _ (by decide), s.dev.rd_overdue_rc]; exact hrc)
    exact ⟨hslices.trans (s.dev.limited_slices x), _, hbranch, rfl, congrArg slRecovery hrec, rfl, rfl⟩

/-- The overrun log of a die, freed. -/
def Device.logFreed (s : Device) (die : Nat) : Device :=
  ((((s.clr die CHORUS_OVERRUN_LOG_VALID).clr die CHORUS_OVERRUN_LOG_DEADLINE).clr die CHORUS_OVERRUN_LOG_KIND).clr die
    CHORUS_OVERRUN_LOG_TICK).clr die CHORUS_OVERRUN_LOG_SLICE

theorem Device.logFreed_keepsFields (s : Device) (die : Nat) : keepsFields s (s.logFreed die) [(die, CHORUS_OVERRUN_LOG_VALID),
    (die, CHORUS_OVERRUN_LOG_DEADLINE), (die, CHORUS_OVERRUN_LOG_KIND), (die, CHORUS_OVERRUN_LOG_TICK), (die, CHORUS_OVERRUN_LOG_SLICE)] := by
  intro e f h
  simp only [List.mem_cons, List.not_mem_nil, or_false, forall_eq_or_imp, forall_eq] at h
  obtain ⟨hvalid, hdeadline, hkind, htick, hslice⟩ := h
  simp only [Device.logFreed, Device.clr]
  rw [Device.rd_wr_ne _ _ _ _ _ _ hslice, Device.rd_wr_ne _ _ _ _ _ _ htick, Device.rd_wr_ne _ _ _ _ _ _ hkind,
    Device.rd_wr_ne _ _ _ _ _ _ hdeadline, Device.rd_wr_ne _ _ _ _ _ _ hvalid]

theorem Device.logFreed_valid (s : Device) (die : Nat) : (s.logFreed die).on die CHORUS_OVERRUN_LOG_VALID = false := by
  simp (disch := decide) only [Device.logFreed, Device.clr, Device.on, Device.rd_wr_elsewhere, Device.rd_wr_same]
  decide

theorem overrunLogClear_frees {s : State} {die value : Nat} (hs : s.dev.sound) (hv : value / 2 ^ 31 % 2 = 1) :
    runs (.chorusOverrunLogClear die value none) s fun d =>
      d.on die CHORUS_OVERRUN_LOG_VALID = false ∧ d.rd die CHORUS_OVERRUN_LOG_SLICE = 0 ∧ keepsMem s.dev d ∧
      keepsFields s.dev d [(die, CHORUS_OVERRUN_LOG_VALID), (die, CHORUS_OVERRUN_LOG_DEADLINE), (die, CHORUS_OVERRUN_LOG_KIND),
        (die, CHORUS_OVERRUN_LOG_TICK), (die, CHORUS_OVERRUN_LOG_SLICE)] := by
  have hbody : overrunLogClear die value none s.dev = s.dev.logFreed die := by
    rw [overrunLogClear, if_pos (bit_of_mod hv)]
    rfl
  exact ⟨_, exec_of_body hs rfl hbody ⟨rfl, rfl, rfl⟩, rfl, s.dev.logFreed_valid die, Device.rd_wr_same .., fun _ => rfl, s.dev.logFreed_keepsFields die⟩

theorem Device.findSlice_die {s : Device} {die idx : Nat} {x : SliceRun} (h : s.findSlice die idx = some x) : x.die = die := by
  rw [Device.findSlice, Option.or_eq_some_iff] at h
  obtain h | ⟨-, h⟩ := h
  · have hx := List.find?_some h
    exact (of_decide_eq_true hx).1
  · have hx := List.find?_some h
    exact (of_decide_eq_true hx).1

theorem overrunLogClear_records {s : State} {die value idx : Nat} {x : SliceRun} (hs : s.dev.sound) (hv : value / 2 ^ 31 % 2 = 1)
    (hfind : s.dev.findSlice die idx = some x) : runs (.chorusOverrunLogClear die value (some idx)) s fun d =>
      d.logged x false ∧ d.on die CHORUS_STATUS_OVERRUN = true ∧ keepsMem s.dev d := by
  have hbody : overrunLogClear die value (some idx) s.dev = (s.dev.logFreed die).overrun x := by
    have hfind' : (s.dev.logFreed die).findSlice die idx = some x := hfind
    rw [overrunLogClear, if_pos (bit_of_mod hv)]
    exact congrArg (fun o : Option SliceRun => match o with | some x => (s.dev.logFreed die).overrun x | none => s.dev.logFreed die) hfind'
  obtain rfl := Device.findSlice_die hfind
  have hidle : ((s.dev.logFreed x.die).overrun x).idleSince s.dev := (Device.overrun_idle ..).trans ⟨rfl, rfl, rfl⟩
  exact ⟨_, exec_of_body hs rfl hbody hidle, rfl, Device.logged_overrun (s.dev.logFreed_valid x.die), (Device.overrun_counted ..).1, hidle.keepsMem⟩

/-! ### The refutation of O16 -/

/-- A slice of die 0's control engine that has been due since the tick before, and a breakpoint on that engine before its first command. -/
def dueControl : SliceRun := { die := 0, idx := 0, kind := 2, tick := 0, units := [200], edges := 1 }
def breakpointSet : State :=
  { dev := { chorus := { slices := [dueControl], sched := [(0x40000, 2 * 2 ^ 29)] }, probe := { bp := [(0x1002 * 4, 2 ^ 31)] } } }

/-- The slice starts, and the breakpoint asks for a halt of its engine, which DEBUG_STATUS shows (R455, R456). -/
theorem breakpointSet_halts : ∃ t, exec (.sliceStart 0 0 false) breakpointSet = .next t ∧
    t.dev.rd 0 DEBUG_STATUS_HALT_PENDING ≠ breakpointSet.dev.rd 0 DEBUG_STATUS_HALT_PENDING := ⟨_, rfl, by decide +kernel⟩

/-- Refutes O16: the clause on a slice that starts has every register as before and leaves breakpoints out. A breakpoint before the first
command of a unit's list asks for a halt as the slice starts. The clause holds where no breakpoint is set (`sliceStart_starts`), and the others
hold (`sliceEnd_frees`, `sliceDeadline_counts`, `sliceHardLimit_fails`, `overrunLogClear_frees`, `overrunLogClear_records`). -/
theorem not_slicesAndOverruns : ¬ Obligations.SlicesAndOverruns := by
  intro h
  obtain ⟨hslices, -⟩ := h
  obtain ⟨hstart, -⟩ := hslices breakpointSet dueControl ⟨by decide +kernel, rfl, rfl⟩
  obtain ⟨u, hu, -, -, hregs, -⟩ := hstart (by decide +kernel) (by decide +kernel) (by decide +kernel) (.inl (by decide)) false
  obtain ⟨t, ht, hne⟩ := breakpointSet_halts
  obtain rfl : u = t := Host.Outcome.next.inj (hu.symm.trans ht)
  exact hne (Device.rd_congr hregs ..)

/-! ### The device's own times in a tick (R42, R321, R367) -/

/-- A fold whose one effective element is `a` is its step: before it nothing happens, and after it nothing does. -/
theorem foldl_at {α β : Type} {f : β → α → β} {s : β} {l : List α} {a : α} (ha : a ∈ l) (hbefore : ∀ b ∈ l, b ≠ a → f s b = s)
    (hafter : ∀ b ∈ l, f (f s a) b = f s a) : l.foldl f s = f s a := by
  induction l with
  | nil => exact absurd ha List.not_mem_nil
  | cons b l ih =>
    rw [List.foldl_cons]
    by_cases hb : b = a
    · rw [hb]
      exact foldl_eq_self fun c hc => hafter c (.tail _ hc)
    · rw [hbefore b (.head _) hb]
      exact ih ((List.mem_cons.mp ha).resolve_left fun h => hb h.symm) (fun c hc => hbefore c (.tail _ hc)) fun c hc => hafter c (.tail _ hc)

/-- What a mark writes apart, writing an output changes no waiting output, no output word, no memory and no request. -/
def Device.markView (s : Device) : SMap (List (Nat × Nat × Option Int)) × SMap Nat × List Host.Cell × List Req × RegulSt :=
  (s.ctrl.outs, s.lsio.out, s.mem, s.regReqs, s.regul)

theorem Device.markView_ite (c : Prop) [Decidable c] (a b : Device) :
    (if c then a else b).markView = if c then a.markView else b.markView := apply_ite ..

theorem Device.markView_wr (s : Device) (d : Nat) (f : Fld) (v : Nat) : (s.wr d f v).markView = s.markView := by rfl
theorem Device.markView_addHold (s : Device) (d : Nat) (f : Fld) (n : Nat) : (s.addHold d f n).markView = s.markView := by rfl
theorem Device.markView_emit (s : Device) (m : Msg) : (s.emit m).markView = s.markView := by rfl
theorem Device.markView_kick (s : Device) (die stage unit result : Nat) : (s.kick die stage unit result).markView = s.markView := by rfl

theorem Device.markView_setLsio {s : Device} {x : LsioSt} (h : x.out = s.lsio.out) : (s.setLsio x).markView = s.markView := by
  simp only [Device.markView, Device.setLsio, h]

theorem Device.markView_canQueue (s : Device) (b : Nat) : (s.canQueue b).markView = s.markView := by
  have hadd : (s.setLsio { s.lsio with canQ := s.lsio.canQ ++ [b] }).markView = s.markView := Device.markView_setLsio rfl
  simp only [Device.canQueue, Device.canPending, Device.markView_ite, Device.markView_wr, Device.markView_addHold, hadd, ite_self]

theorem Device.markView_spiNext (s : Device) (n : Nat) : (s.spiNext n).markView = s.markView := by
  unfold Device.spiNext
  split
  · exact (Device.markView_emit ..).trans (Device.markView_setLsio rfl)
  · rfl

theorem Device.markView_spiTrigger (s : Device) (n k : Nat) : (s.spiTrigger n k).markView = s.markView := by
  have hadd : (s.setLsio { s.lsio with spiQ := SMap.put [] s.lsio.spiQ n (SMap.get [] s.lsio.spiQ n ++ [k]) }).markView = s.markView :=
    Device.markView_setLsio rfl
  simp only [Device.spiTrigger, Device.markView_ite, Device.markView_addHold, Device.markView_spiNext, hadd, ite_self]

theorem Device.markView_writeOut (s : Device) (d : Nat) (v : Int) (more : Nat → Bool) :
    (s.writeOut d v more).markView = (s.setLsio { s.lsio with out := SMap.put 0 s.lsio.out d (wrapN 32 v) }).markView := by
  unfold Device.writeOut
  extract_lets p lsio s1 unit buf off b n lsio1 s2 k s2' s2''
  have h2 : s2.markView = s1.markView := Device.markView_setLsio rfl
  have h2' : s2'.markView = s1.markView := Device.markView_setLsio rfl
  have h2'' : s2''.markView = s1.markView := Device.markView_setLsio rfl
  split
  · rw [Device.markView_ite, Device.markView_canQueue, ite_self, h2]
  · rw [Device.markView_ite, Device.markView_spiTrigger, ite_self, h2']
  · rw [Device.markView_ite, Device.markView_emit, ite_self, h2'']
  · rfl

theorem Device.markView_writeChannel {s : Device} {die : Nat} (hroute : s.routeUp die 0 = true) (c : Nat) (v : Int) :
    (s.writeChannel die c (some v)).markView =
      (s.setLsio { s.lsio with out := SMap.put 0 s.lsio.out (s.rd die (REFLEX_CTRL_CHAN_DEST c)) (wrapN 32 v) }).markView := by
  rw [Device.writeChannel]
  dsimp only
  rw [if_neg (by simp [hroute]), Device.markView_ite, Device.markView_kick, ite_self, Device.markView_writeOut]

/-- The channel of a die at a mark. -/
def Device.markChannel (mark die : Nat) (s : Device) (c : Nat) : Device :=
  match (s.waitingOuts die).find? fun o => decide (o.1 = c) && decide (o.2.1 = mark) with
  | none => s
  | some o => (s.setWaitingOuts die ((s.waitingOuts die).filter fun p => p ≠ o)).writeChannel die c o.2.2

theorem Device.markChannel_idle {s : Device} {mark die c : Nat} (h : ∀ o ∈ s.waitingOuts die, o.1 ≠ c) : s.markChannel mark die c = s := by
  have hnone : ((s.waitingOuts die).find? fun o => decide (o.1 = c) && decide (o.2.1 = mark)) = none :=
    List.find?_eq_none.mpr fun o ho => by simp [h o ho]
  rw [Device.markChannel, hnone]

theorem Device.markChannel_due {s : Device} {mark die c : Nat} {v : Int} (h : s.waitingOuts die = [(c, mark, some v)]) :
    s.markChannel mark die c = (s.setWaitingOuts die []).writeChannel die c (some v) := by
  rw [Device.markChannel, h]
  simp

theorem Device.waitingOuts_setWaitingOuts (s : Device) (die k : Nat) (l : List (Nat × Nat × Option Int)) :
    (s.setWaitingOuts die l).waitingOuts k = if k = die then l else s.waitingOuts k := SMap.get_put ..

theorem Device.waitingOuts_congr {d s : Device} (h : d.markView = s.markView) (k : Nat) : d.waitingOuts k = s.waitingOuts k := by
  have houts : d.ctrl.outs = s.ctrl.outs := congrArg Prod.fst h
  rw [Device.waitingOuts, houts, Device.waitingOuts]

theorem outputMarkBody_eq (mark : Nat) (s : Device) :
    outputMarkBody mark s = (List.range 4).foldl (fun s die => (List.range 16).foldl (Device.markChannel mark die) s) s := by rfl

/-- A mark at which one output is due writes it, and no output waits any more. -/
theorem outputMarkBody_one {s : Device} {die c mark : Nat} {v : Int} (hdie : die < 4) (hc : c < 16)
    (hwait : ∀ k < 4, s.waitingOuts k = if k = die then [(c, mark, some v)] else []) (hroute : s.routeUp die 0 = true) :
    outputMarkBody mark s = (s.setWaitingOuts die []).writeChannel die c (some v) ∧
      ∀ k < 4, (outputMarkBody mark s).waitingOuts k = [] := by
  have hhere : s.waitingOuts die = [(c, mark, some v)] := by rw [hwait die hdie, if_pos rfl]
  have hdue := Device.markChannel_due hhere
  have hempty : ∀ k < 4, ((s.setWaitingOuts die []).writeChannel die c (some v)).waitingOuts k = [] := fun k hk => by
    rw [Device.waitingOuts_congr (Device.markView_writeChannel (s := s.setWaitingOuts die []) hroute c v)]
    refine (s.waitingOuts_setWaitingOuts die k []).trans ?_
    split
    · rfl
    · next hne => rw [hwait k hk, if_neg hne]
  have hrow : (List.range 16).foldl (Device.markChannel mark die) s = (s.setWaitingOuts die []).writeChannel die c (some v) := by
    rw [← hdue]
    refine foldl_at (List.mem_range.mpr hc) (fun b _ hb => Device.markChannel_idle ?_) (fun b _ => Device.markChannel_idle ?_)
    · rw [hhere]
      simpa using Ne.symm hb
    · rw [hdue, hempty die hdie]
      simp
  have hbody : outputMarkBody mark s = (s.setWaitingOuts die []).writeChannel die c (some v) := by
    rw [outputMarkBody_eq, foldl_at (List.mem_range.mpr hdie) (fun k hk hne => ?_) (fun k hk => ?_), hrow]
    · refine foldl_eq_self fun b _ => Device.markChannel_idle ?_
      rw [hwait k (List.mem_range.mp hk), if_neg hne]
      simp
    · rw [hrow]
      refine foldl_eq_self fun b _ => Device.markChannel_idle ?_
      rw [hempty k (List.mem_range.mp hk)]
      simp
  exact ⟨hbody, hbody ▸ hempty⟩

/-- The clause of O17 on a mark. -/
theorem outputPhaseMark_writes {s : State} (hs : s.dev.sound) {die c mark : Nat} {v : Int} (hdie : die < 4) (hc : c < 16)
    (hwait : ∀ k < 4, s.dev.waitingOuts k = if k = die then [(c, mark, some v)] else []) (hroute : s.dev.routeUp die 0 = true) :
    runs (.outputPhaseMark mark) s fun d => (∀ k < 4, d.waitingOuts k = []) ∧
      SMap.get 0 d.lsio.out (s.dev.rd die (REFLEX_CTRL_CHAN_DEST c)) = wrapN 32 v ∧
      (∀ e, e ≠ s.dev.rd die (REFLEX_CTRL_CHAN_DEST c) → SMap.get 0 d.lsio.out e = SMap.get 0 s.dev.lsio.out e) ∧ keepsMem s.dev d := by
  obtain ⟨hbody, hempty⟩ := outputMarkBody_one hdie hc hwait hroute
  have hview := Device.markView_writeChannel (s := s.dev.setWaitingOuts die []) hroute c v
  rw [← hbody] at hview
  simp only [Device.markView, Prod.mk.injEq] at hview
  obtain ⟨-, hout, hmem, hreqs, hregul⟩ := hview
  generalize hd : outputMarkBody mark s.dev = d at hempty hout hmem hreqs hregul
  have hidle : d.idleSince s.dev := ⟨hmem, hreqs, hregul⟩
  refine ⟨_, exec_of_body hs rfl hd hidle, rfl, hempty, ?_, fun e he => ?_, hidle.keepsMem⟩
  · exact (congrArg (SMap.get 0 · _) hout).trans (SMap.get_put_same ..)
  · exact (congrArg (SMap.get 0 · e) hout).trans (SMap.get_put_ne _ _ _ _ he)

theorem Device.baskDie_setBaskDie (s : Device) (d e : Nat) (x : BaskDie) :
    (s.setBaskDie d x).baskDie e = if e = d then x else s.baskDie e := SMap.get_put ..

/-- Every die's hold is over. -/
theorem baskDie_clockHoldEndBody (s : Device) {die : Nat} (hdie : die < 4) :
    (clockHoldEndBody s).baskDie die = { s.baskDie die with held := false } := by
  have hheld : ∀ (l : List Nat) (t : Device) (e : Nat),
      (l.foldl (fun (s : Device) d => s.setBaskDie d { s.baskDie d with held := false }) t).baskDie e =
        if e ∈ l then { t.baskDie e with held := false } else t.baskDie e := fun l => by
    induction l with
    | nil => exact fun t e => rfl
    | cons d l ih =>
      intro t e
      rw [List.foldl_cons, ih, Device.baskDie_setBaskDie]
      by_cases he : e = d
      · subst he; simp
      · simp [he]
  rw [clockHoldEndBody, hheld, if_pos (List.mem_range.mpr hdie)]

/-- The clause of O17 on a clock hold. -/
theorem clockHoldEnd_runs {s : State} (hs : s.dev.sound) : runs .clockHoldEnd s fun d =>
    (∀ die < 4, d.baskDie die = { s.dev.baskDie die with held := false }) ∧ d.regs = s.dev.regs ∧ d.chorus = s.dev.chorus ∧ keepsMem s.dev d := by
  have hrest := foldl_keeps (fun t : Device => (t.regs, t.chorus, t.mem, t.regReqs, t.regul))
    (fun (s : Device) d => s.setBaskDie d { s.baskDie d with held := false }) (fun _ _ => rfl) (List.range 4) s.dev
  rw [← clockHoldEndBody] at hrest
  have hheld : ∀ die < 4, _ := fun die hdie => baskDie_clockHoldEndBody s.dev (die := die) hdie
  generalize hd : clockHoldEndBody s.dev = d at hrest hheld
  simp only [Prod.mk.injEq] at hrest
  obtain ⟨hregs, hchorus, hidle⟩ := hrest
  exact ⟨_, exec_of_body hs rfl hd hidle, rfl, hheld, hregs, hchorus, Device.idleSince.keepsMem hidle⟩

/-! ### The scrub burst (R72, R73) -/

/-- A fold about one element: a property of the state before it, one that its step reaches, and both kept by the other elements. -/
theorem foldl_around {α β : Type} {f : β → α → β} {s : β} {l : List α} {a : α} {P Q : β → Prop} (ha : a ∈ l) (hl : l.Nodup) (h0 : P s)
    (hP : ∀ t, P t → ∀ b, b ≠ a → P (f t b)) (hPQ : ∀ t, P t → Q (f t a)) (hQ : ∀ t, Q t → ∀ b, b ≠ a → Q (f t b)) : Q (l.foldl f s) := by
  induction l generalizing s with
  | nil => exact absurd ha List.not_mem_nil
  | cons b l ih =>
    obtain ⟨hb, hl⟩ := List.nodup_cons.mp hl
    rw [List.foldl_cons]
    by_cases hba : b = a
    · subst hba
      exact List.foldlRecOn l f (hPQ s h0) fun t ht c hc => hQ t ht c fun h => hb (h ▸ hc)
    · exact ih ((List.mem_cons.mp ha).resolve_left (Ne.symm hba)) hl (hP s h0 b hba)

/-- Memory, the words in error and the fix queues, the requests under way, and the self-test engines. -/
def Device.scrubFrame (s : Device) : List Host.Cell × SMap (Option EccErr) × SMap (List Nat) × List Req × RegulSt × SMap SelfTest :=
  (s.mem, s.pond.ecc, s.pond.fixq, s.regReqs, s.regul, s.selfTest)

/-- How many lines a die's burst reads (R72, R73). -/
def Device.scrubLines (s : Device) (die : Nat) : Nat :=
  let left := SMap.get 0 s.pond.scrubLeft die
  min (if left = 0 then s.rd die POND_SCRUB_CTL_LINES else left) (16 * s.rd 0 CHORUS_WIN_LEN_TEST_LEN * s.fabricMHz die / 600 - 16)

/-- The words in error that a die's burst meets, in its order. -/
def Device.scrubWords (s : Device) (die : Nat) (saved : Nat → Bool) : List Nat :=
  ((s.pond.ecc.map (·.1)).filter fun w => inLines die (s.rd die POND_SCRUB_POS_LINE) (s.scrubLines die) w && !saved w).mergeSort
    fun x y => scrubOrder (s.rd die POND_SCRUB_POS_LINE) x ≤ scrubOrder (s.rd die POND_SCRUB_POS_LINE) y

/-- A die's burst has read `n` lines from `pos` on, and `left` lines remain. -/
def Device.scrubbed (s : Device) (die pos n left : Nat) : Device :=
  let s2 := if passLines ≤ pos + n then s.addWrap die POND_SCRUB_PASSES_PASSES 1 else s
  let s3 := s2.wr die POND_SCRUB_POS_LINE ((pos + n) % passLines)
  { s3 with pond := { s3.pond with scrubLeft := SMap.put 0 s3.pond.scrubLeft die left } }

/-- What the test window does on a die. -/
def Device.testWindowDie (s : Device) (die : Nat) : Device := (s.fixSlot die).scrubBurst die (s.heldWord die)

theorem testWindowBody_eq (upsets : List Upset) (s : Device) :
    testWindowBody upsets s = (List.range 4).foldl Device.testWindowDie (s.arise upsets) := by rfl

theorem Device.fixSlot_of_empty {s : Device} (h : s.pond.fixq = []) (die : Nat) : s.fixSlot die = s := by
  have hput : SMap.put [] s.pond.fixq die [] = s.pond.fixq := by rw [h]; rfl
  simp only [Device.fixSlot]
  split
  · have hq : SMap.get [] s.pond.fixq die = [] := by rw [h]; rfl
    rw [hq, List.foldl_nil, hput]
  · rfl

theorem Device.testWindowDie_off {s : Device} (hfix : s.pond.fixq = []) {die : Nat}
    (h : ¬ (s.on die POND_CTL_SCRUB_EN = true ∧ s.rd die POND_STATUS_MODE < 2)) : s.testWindowDie die = s := by
  rw [Device.testWindowDie, Device.fixSlot_of_empty hfix, Device.scrubBurst, if_neg h]

theorem Device.testWindowDie_on {s : Device} (hfix : s.pond.fixq = []) {die : Nat}
    (hen : s.on die POND_CTL_SCRUB_EN = true) (hmode : s.rd die POND_STATUS_MODE < 2) :
    ∃ left, s.testWindowDie die = ((s.scrubWords die (s.heldWord die)).foldl Device.scrubWord s).scrubbed die
      (s.rd die POND_SCRUB_POS_LINE) (s.scrubLines die) left := by
  rw [Device.testWindowDie, Device.fixSlot_of_empty hfix, Device.scrubBurst, if_pos ⟨hen, hmode⟩]
  exact ⟨_, rfl⟩

theorem Device.scrubFrame_scrubbed (s : Device) (die pos n left : Nat) : (s.scrubbed die pos n left).scrubFrame = s.scrubFrame := by
  unfold Device.scrubbed
  split <;> rfl

theorem Device.rd_scrubbed_ne (s : Device) {die pos n left e : Nat} {f : Fld} (hpos : f.key e ≠ POND_SCRUB_POS_LINE.key die)
    (hpass : f.key e ≠ POND_SCRUB_PASSES_PASSES.key die) : (s.scrubbed die pos n left).rd e f = s.rd e f := by
  refine (Device.rd_wr_ne _ _ _ _ _ _ hpos).trans ?_
  split
  · exact Device.rd_wr_ne _ _ _ _ _ _ hpass
  · rfl

theorem Device.rd_scrubbed_pos (s : Device) (die pos n left : Nat) :
    (s.scrubbed die pos n left).rd die POND_SCRUB_POS_LINE = (pos + n) % 294912 := by
  refine (Device.rd_wr_same ..).trans (Nat.mod_eq_of_lt ?_)
  exact lt_trans (Nat.mod_lt _ (by decide)) (by decide)

theorem Device.rd_scrubbed_passes (s : Device) (die pos n left : Nat) (h : s.rd die POND_SCRUB_PASSES_PASSES < 2 ^ POND_SCRUB_PASSES_PASSES.w) :
    (s.scrubbed die pos n left).rd die POND_SCRUB_PASSES_PASSES =
      (s.rd die POND_SCRUB_PASSES_PASSES + if 294912 ≤ pos + n then 1 else 0) % 2 ^ POND_SCRUB_PASSES_PASSES.w := by
  refine (Device.rd_wr_elsewhere (by decide)).trans ?_
  rw [passLines]
  split
  · exact Device.rd_wr_same ..
  · exact (Nat.mod_eq_of_lt h).symm

/-- Device `t` reads as `s` where the burst of die `e` looks. -/
def Device.awaitsBurst (t s : Device) (e : Nat) : Prop :=
  (∀ (d : Nat) (f : Fld), f.elsewhere POND_SCRUB_POS_LINE → f.elsewhere POND_SCRUB_PASSES_PASSES → t.rd d f = s.rd d f) ∧
  t.rd e POND_SCRUB_POS_LINE = s.rd e POND_SCRUB_POS_LINE ∧ t.rd e POND_SCRUB_PASSES_PASSES = s.rd e POND_SCRUB_PASSES_PASSES ∧
  SMap.get 0 t.pond.scrubLeft e = SMap.get 0 s.pond.scrubLeft e

theorem Device.awaitsBurst.refl (s : Device) (e : Nat) : s.awaitsBurst s e := ⟨fun _ _ _ _ => rfl, rfl, rfl, rfl⟩

theorem Device.awaitsBurst.trans {u t s : Device} {e : Nat} (h : u.awaitsBurst t e) (h' : t.awaitsBurst s e) : u.awaitsBurst s e := by
  obtain ⟨hregs, hpos, hpass, hleft⟩ := h
  obtain ⟨hregs', hpos', hpass', hleft'⟩ := h'
  exact ⟨fun d f hp hq => (hregs d f hp hq).trans (hregs' d f hp hq), hpos.trans hpos', hpass.trans hpass', hleft.trans hleft'⟩

theorem Device.awaitsBurst.lines {t s : Device} {e : Nat} (h : t.awaitsBurst s e) : t.scrubLines e = s.scrubLines e := by
  obtain ⟨hregs, -, -, hleft⟩ := h
  have hmhz : t.fabricMHz e = s.fabricMHz e := by
    rw [Device.fabricMHz, hregs e BASK_STATUS_GRANT (by decide) (by decide), Device.fabricMHz]
  rw [Device.scrubLines, hleft, hmhz, hregs e POND_SCRUB_CTL_LINES (by decide) (by decide),
    hregs 0 CHORUS_WIN_LEN_TEST_LEN (by decide) (by decide), Device.scrubLines]

/-- A field of its own on every die lies elsewhere on each. -/
theorem Fld.key_ne_of_die {f : Fld} (hf : f.inMap) (hdev : f.dev = false) {d e : Nat} (h : d ≠ e) : f.key d ≠ f.key e := by
  obtain ⟨hl, ho, hb⟩ := hf
  simp only [Fld.key, Fld.home, hdev, Bool.false_eq_true, if_false]
  intro hkey
  omega

theorem Device.scrubbed_awaitsBurst (s : Device) (pos n left : Nat) {die e : Nat} (h : die ≠ e) : (s.scrubbed die pos n left).awaitsBurst s e := by
  refine ⟨fun d f hp hq => s.rd_scrubbed_ne (hp.key_ne d die) (hq.key_ne d die), s.rd_scrubbed_ne ?_ ?_, s.rd_scrubbed_ne ?_ ?_, ?_⟩
  · exact Fld.key_ne_of_die (by decide) rfl h.symm
  · exact Fld.elsewhere.key_ne (by decide) e die
  · exact Fld.elsewhere.key_ne (by decide) e die
  · exact Fld.key_ne_of_die (by decide) rfl h.symm
  · refine (SMap.get_put_ne _ _ _ _ h.symm).trans ?_
    show SMap.get 0 (ite _ _ _ : Device).pond.scrubLeft e = _
    split <;> rfl

/-- A die at whose burst no word is bad: nothing changes but its own position and passes. -/
theorem Device.testWindowDie_clean {s : Device} (hfix : s.pond.fixq = []) {die : Nat} (hws : s.scrubWords die (s.heldWord die) = []) :
    (s.testWindowDie die).scrubFrame = s.scrubFrame ∧ ∀ e, die ≠ e → (s.testWindowDie die).awaitsBurst s e := by
  by_cases h : s.on die POND_CTL_SCRUB_EN = true ∧ s.rd die POND_STATUS_MODE < 2
  · obtain ⟨left, hleft⟩ := Device.testWindowDie_on hfix h.1 h.2
    rw [hws, List.foldl_nil] at hleft
    rw [hleft]
    exact ⟨s.scrubFrame_scrubbed .., fun e he => s.scrubbed_awaitsBurst _ _ _ he⟩
  · rw [Device.testWindowDie_off hfix h]
    exact ⟨rfl, fun e _ => .refl s e⟩

theorem Device.scrubWords_of_clean {s : Device} (h : s.pond.ecc = []) (die : Nat) (saved : Nat → Bool) : s.scrubWords die saved = [] := by
  rw [Device.scrubWords, h]
  simp

theorem Device.scrubFrame_parts {t s : Device} (h : t.scrubFrame = s.scrubFrame) :
    t.mem = s.mem ∧ t.pond.ecc = s.pond.ecc ∧ t.pond.fixq = s.pond.fixq ∧ t.regReqs = s.regReqs ∧ t.regul = s.regul ∧ t.selfTest = s.selfTest := by
  simpa only [Device.scrubFrame, Prod.mk.injEq] using h

/-- The clause of O17 on a window in which no die scrubs: the errors that the command brings arise, and nothing else changes. -/
theorem testWindowStart_off {s : State} (hs : s.dev.sound) (hfix : s.dev.pond.fixq = []) (upsets : List Upset)
    (hoff : ∀ die < 4, s.dev.on die POND_CTL_SCRUB_EN = false) :
    exec (.testWindowStart upsets) s = .next (s.withDev (s.dev.arise upsets)) := by
  have harise := foldl_keeps (fun t : Device => (t.regs, t.pond.fixq, t.mem, t.regReqs, t.regul))
    (fun s u => if u.link then s.setLink u.word (some ⟨u.ue, u.bit, u.syn, u.flip⟩) else s.setEcc u.word (some ⟨u.ue, u.bit, u.syn, u.flip⟩))
    (fun t u => by split <;> rfl) upsets s.dev
  rw [← Device.arise] at harise
  simp only [Prod.mk.injEq] at harise
  obtain ⟨hregs, hfixq, hidle⟩ := harise
  refine exec_of_body hs rfl ?_ hidle
  rw [testWindowBody_eq]
  refine foldl_eq_self fun die hdie => Device.testWindowDie_off (hfixq.trans hfix) fun h => ?_
  rw [Device.on, Device.rd_congr hregs, ← Device.on, hoff die (List.mem_range.mp hdie)] at h
  exact Bool.false_ne_true h.1

/-- The scrub position and the passes of a die after a burst that meets no bad word. -/
def Device.burstDone (s : Device) (die : Nat) (t : Device) : Prop :=
  t.rd die POND_SCRUB_POS_LINE = (s.rd die POND_SCRUB_POS_LINE + s.scrubLines die) % 294912 ∧
  t.rd die POND_SCRUB_PASSES_PASSES = (s.rd die POND_SCRUB_PASSES_PASSES +
    if 294912 ≤ s.rd die POND_SCRUB_POS_LINE + s.scrubLines die then 1 else 0) % 2 ^ POND_SCRUB_PASSES_PASSES.w

theorem Device.awaitsBurst.done {u t s : Device} {die : Nat} (h : u.awaitsBurst t die) (ht : s.burstDone die t) : s.burstDone die u := by
  obtain ⟨-, hpos, hpass, -⟩ := h
  rw [Device.burstDone, hpos, hpass]
  exact ht

/-- A burst of a die that reads as it did in `s` leaves that die's position and passes as they follow from `s`. -/
theorem Device.testWindowDie_done {t s : Device} {die : Nat} (hfix : t.pond.fixq = []) (hws : t.scrubWords die (t.heldWord die) = [])
    (ht : t.awaitsBurst s die) (hen : s.on die POND_CTL_SCRUB_EN = true) (hmode : s.rd die POND_STATUS_MODE < 2)
    (hpass : s.rd die POND_SCRUB_PASSES_PASSES < 2 ^ POND_SCRUB_PASSES_PASSES.w) : s.burstDone die (t.testWindowDie die) := by
  have hlines := ht.lines
  obtain ⟨hregs, hpos, hpasses, -⟩ := ht
  obtain ⟨left, hleft⟩ := Device.testWindowDie_on (s := t) (die := die) hfix
    (by rw [Device.on, hregs die _ (by decide) (by decide), ← Device.on, hen]) (by rw [hregs die _ (by decide) (by decide)]; exact hmode)
  rw [hleft, hws, List.foldl_nil, Device.burstDone, Device.rd_scrubbed_pos, Device.rd_scrubbed_passes _ _ _ _ _ (hpasses ▸ hpass), hpos, hlines, hpasses]
  exact ⟨rfl, rfl⟩

/-- The clause of O17 on a window in which no word is bad, where the count of passes is no wider than its register. -/
theorem testWindowStart_clean {s : State} (hs : s.dev.sound) (hfix : s.dev.pond.fixq = []) (hecc : s.dev.pond.ecc = []) :
    runs (.testWindowStart []) s fun d => keepsMem s.dev d ∧ d.pond.ecc = [] ∧
      ∀ die < 4, s.dev.on die POND_CTL_SCRUB_EN = true → s.dev.rd die POND_STATUS_MODE < 2 →
        s.dev.rd die POND_SCRUB_PASSES_PASSES < 2 ^ POND_SCRUB_PASSES_PASSES.w → s.dev.burstDone die d := by
  have hclean : ∀ t : Device, t.scrubFrame = s.dev.scrubFrame → t.pond.fixq = [] ∧ ∀ k, t.scrubWords k (t.heldWord k) = [] := fun t ht => by
    obtain ⟨-, hteq, htfix, -⟩ := Device.scrubFrame_parts ht
    exact ⟨htfix.trans hfix, fun k => Device.scrubWords_of_clean (hteq.trans hecc) k _⟩
  have hstep : ∀ t : Device, t.scrubFrame = s.dev.scrubFrame → ∀ k, (t.testWindowDie k).scrubFrame = s.dev.scrubFrame := fun t ht k =>
    (Device.testWindowDie_clean (hclean t ht).1 ((hclean t ht).2 k)).1.trans ht
  have hframe : ((List.range 4).foldl Device.testWindowDie s.dev).scrubFrame = s.dev.scrubFrame :=
    List.foldlRecOn (motive := fun t => t.scrubFrame = s.dev.scrubFrame) (List.range 4) _ rfl fun t ht k _ => hstep t ht k
  have hdone : ∀ die < 4, s.dev.on die POND_CTL_SCRUB_EN = true → s.dev.rd die POND_STATUS_MODE < 2 →
      s.dev.rd die POND_SCRUB_PASSES_PASSES < 2 ^ POND_SCRUB_PASSES_PASSES.w →
      s.dev.burstDone die ((List.range 4).foldl Device.testWindowDie s.dev) := fun die hdie hen hmode hpass => by
    refine (foldl_around (P := fun t : Device => t.scrubFrame = s.dev.scrubFrame ∧ t.awaitsBurst s.dev die)
      (Q := fun t => t.scrubFrame = s.dev.scrubFrame ∧ s.dev.burstDone die t) (List.mem_range.mpr hdie) List.nodup_range ⟨rfl, .refl _ _⟩
      (fun t ht k hk => ?_) (fun t ht => ?_) (fun t ht k hk => ?_)).2
    · obtain ⟨hf, ha⟩ := ht
      obtain ⟨hfixq, hws⟩ := hclean t hf
      exact ⟨hstep t hf k, ((Device.testWindowDie_clean hfixq (hws k)).2 die hk).trans ha⟩
    · obtain ⟨hf, ha⟩ := ht
      obtain ⟨hfixq, hws⟩ := hclean t hf
      exact ⟨hstep t hf die, Device.testWindowDie_done hfixq (hws die) ha hen hmode hpass⟩
    · obtain ⟨hf, hd⟩ := ht
      obtain ⟨hfixq, hws⟩ := hclean t hf
      exact ⟨hstep t hf k, ((Device.testWindowDie_clean hfixq (hws k)).2 die hk).done hd⟩
  have hbody : testWindowBody [] s.dev = (List.range 4).foldl Device.testWindowDie s.dev := testWindowBody_eq [] s.dev
  generalize (List.range 4).foldl Device.testWindowDie s.dev = d at hbody hframe hdone
  obtain ⟨hmem, hecc', -, hreqs, hregul, -⟩ := Device.scrubFrame_parts hframe
  have hidle : d.idleSince s.dev := ⟨hmem, hreqs, hregul⟩
  exact ⟨_, exec_of_body hs rfl hbody hidle, rfl, hidle.keepsMem, hecc'.trans hecc, hdone⟩

/-! ### The refutation of O17 -/

/-- A state whose register store holds a value that POND_SCRUB_PASSES is too narrow for. -/
def overfullPasses : State := { dev := { regs := [(POND_SCRUB_PASSES_PASSES.key 0, 2 ^ POND_SCRUB_PASSES_PASSES.w)] } }

/-- A burst that ends no pass leaves the register as it is, however much it holds. -/
theorem overfullPasses_kept : ∃ t, exec (.testWindowStart []) overfullPasses = .next t ∧
    t.dev.rd 0 POND_SCRUB_PASSES_PASSES ≠ 0 := ⟨_, rfl, by decide +kernel⟩

/-- Refutes O17: the clause on a window in which no word is bad reduces the count of passes to its register's width also where no pass ends,
and `Device.sound` does not bound what the register store holds: a count of 2^32 is left as it is, and is not 0. The clauses on a mark, on a
clock hold and on a window without a scrub hold (`outputPhaseMark_writes`, `clockHoldEnd_runs`, `testWindowStart_off`), and this one does for a
count that fits its register (`testWindowStart_clean`). -/
theorem not_marksAndWindows : ¬ Obligations.MarksAndWindows := by
  intro h
  obtain ⟨-, -, hwindow⟩ := h overfullPasses ⟨by decide +kernel, rfl, rfl⟩
  obtain ⟨-, hscrub, -⟩ := hwindow rfl
  obtain ⟨u, hu, -, -, -, hdies⟩ := hscrub rfl
  obtain ⟨-, hpasses⟩ := hdies 0 (by decide) (by decide +kernel) (by decide +kernel)
  obtain ⟨t, ht, hne⟩ := overfullPasses_kept
  obtain rfl : u = t := Host.Outcome.next.inj (hu.symm.trans ht)
  exact hne (hpasses.trans (by decide +kernel))

/-! ### The refutation of O50 -/

/-- A local-to-remote copy of 64 bytes whose source ends its page after 16. -/
def splitCopy : List Nat := [2 ^ 24 + 2 ^ 22 + 9, 64, 0x1FFFF0, 0, 0x20000, 0, 0, 0, 0, 0, 0, 0, 0, 0, 0, 0]

/-- The tag of engine 1 of die 1. -/
def splitTag : TagId := { id := (1 * 256 + mDma + 1) * 256 + 3, gen := 1, epoch := 2 }

/-- The copy is in progress: the 16 bytes before the page's end are on their way to device 9, and the next page has no address. -/
def splitUnit : State :=
  { dev := { (({} : Device).wr 1 OLINER_STATUS_STATE olUP).set 0 XLATE_CTL_EN with
      xlate := { tlb := [{ die := 1, unit := mDma + 1, job := 0, va := 0, log2 := 21, pa := 0x48000000, rd := true, wr := true, pin := true }]
                 dma := [(17, some (some (.slice 1 3), 2, splitCopy))] }
      oliner := { reqs := [{ die := 1, dev := 9, tag := splitTag, kind := 3, addr := 0x20000, len := 16 }] } } }

/-- Their acknowledgement. -/
def splitAck : FlitHead :=
  { dst := 0, src := 9, cls := 2, fixed := false, job0 := true, hops := 15, seq := 0, ack := 4095, crVc := 0, crCls := 0, cr := 0 }

/-- The engine goes on to the other 48 bytes, whose fault ends the descriptor (R91, R102): no progress of a whole row is noted. -/
theorem splitUnit_ends : ∃ t, exec (.olinerWriteAck 1 splitAck splitTag stDONE) splitUnit = .next t ∧ t.dev.dmaRun 1 1 = none :=
  ⟨_, rfl, by decide +kernel⟩

/-- Refutes O50: the clause on an acknowledged write takes a unit for the row's last one where no more than 64 bytes of the row remain, and
leaves the length of the request free. A unit stops before a page that has no address, and its request then carries fewer bytes than remain
(R102): its acknowledgement does not end the row. -/
theorem not_flitsArrive : ¬ Obligations.FlitsArrive := by
  intro h
  obtain ⟨hcomes, -⟩ := h splitUnit 1 splitAck ⟨by decide +kernel, rfl, rfl⟩ rfl rfl (by decide)
  obtain ⟨-, hdma, -⟩ := hcomes ⟨by decide +kernel, rfl, rfl, rfl, by decide +kernel, rfl, by decide +kernel⟩
  obtain ⟨hack, -⟩ := hdma splitTag _ 1 1 2 1 3 splitCopy (by decide) rfl (by decide) (by decide) (by decide)
  obtain ⟨u, hu, -, -, -, -, hrun⟩ := hack rfl (by decide) (by decide)
  obtain ⟨t, ht, hnone⟩ := splitUnit_ends
  obtain rfl : u = t := Host.Outcome.next.inj (hu.symm.trans ht)
  rw [hnone] at hrun
  exact nomatch hrun

end Sys2Proof.Machine
end

section

/-! THEOREMS of the family 03_pond_memory: retention and the patrol scrubber, the shared ports, and the steps of the start. -/

namespace Sys2Proof.Machine

/-! ### Retention (R78) -/

theorem bit_two_iff (v : Nat) : bit v 2 = true ↔ v / 4 % 2 = 1 := by simp [bit]

theorem retainReqBody_eq (die value : Nat) (s : Device) : retainReqBody die value s =
    if value / 4 % 2 = 0 ∧ s.rd die POND_STATUS_MODE = 2 then (s.wr die POND_CTL_RETAIN_REQ (value / 4 % 2)).wr die POND_STATUS_MODE 3
    else s.wr die POND_CTL_RETAIN_REQ (value / 4 % 2) := by
  have hbit : bit value 2 = true ↔ ¬ value / 4 % 2 = 0 := by rw [bit_two_iff]; omega
  have hbits : bits value 2 1 = value / 4 % 2 := rfl
  simp only [retainReqBody, hbit, not_not, hbits]

/-- The clause of O22 on a write of RETAIN_REQ. -/
theorem exec_retainReq {s : State} (hs : s.dev.sound) (die value : Nat) : exec (.retainReq die value) s = .next (s.withDev
    (let r := s.dev.wr die POND_CTL_RETAIN_REQ (value / 4 % 2)
     if value / 4 % 2 = 0 ∧ s.dev.rd die POND_STATUS_MODE = 2 then r.wr die POND_STATUS_MODE 3 else r)) := by
  refine exec_of_body hs rfl (retainReqBody_eq die value s.dev) ?_
  split <;> exact ⟨rfl, rfl, rfl⟩

/-- The clause of O22 on the end of WAKING. -/
theorem exec_wakingDone {s : State} (hs : s.dev.sound) (die : Nat) : exec (.wakingDone die) s = .next (s.withDev
    (if s.dev.rd die POND_STATUS_MODE = 3 then s.dev.wr die POND_STATUS_MODE (if s.dev.rd die BASK_STATUS_GRANT = 0 then 1 else 0)
     else s.dev)) := by
  refine exec_of_body hs rfl rfl ?_
  split <;> exact ⟨rfl, rfl, rfl⟩

/-! ### The patrol scrubber (R82) -/

/-- The device with other positions of the patrol. -/
def Device.withPatrol (s : Device) (m : SMap Nat) : Device := { s with pond := { s.pond with patrol := m } }

/-- No word is in error, stored or on the wires. -/
def Device.clean (s : Device) : Prop := s.pond.ecc = [] ∧ s.pond.link = []

@[simp] theorem Device.withPatrol_withPatrol (s : Device) (m m' : SMap Nat) : (s.withPatrol m).withPatrol m' = s.withPatrol m' := rfl
@[simp] theorem Device.rd_withPatrol (s : Device) (m : SMap Nat) (die : Nat) (f : Fld) : (s.withPatrol m).rd die f = s.rd die f := rfl
theorem Device.clean.withPatrol {s : Device} (h : s.clean) (m : SMap Nat) : (s.withPatrol m).clean := ⟨h.1, h.2⟩

/-- The line that the patrol of a die's sub-channel takes next. -/
def Device.patrolAt (s : Device) (die q : Nat) : Nat := SMap.get 0 s.pond.patrol (die * 4 + q)

/-- The line after that: a pass wraps at the die's lines. -/
def Device.patrolNext (s : Device) (die q : Nat) : Nat := (s.patrolAt die q + 1) % max 1 (s.patrolLines die)

theorem Device.patrolLines_withPatrol (s : Device) (m : SMap Nat) (die : Nat) : (s.withPatrol m).patrolLines die = s.patrolLines die := by
  simp only [Device.patrolLines, Device.lpBytes, Device.rd_withPatrol]

/-- The device whose patrol of one sub-channel has moved on by a line. -/
def Device.patrolled (s : Device) (die q : Nat) : Device := s.withPatrol (SMap.put 0 s.pond.patrol (die * 4 + q) (s.patrolNext die q))

theorem Device.patrolAt_patrolled (s : Device) (die q j : Nat) :
    (s.patrolled die q).patrolAt die j = if j = q then s.patrolNext die q else s.patrolAt die j := by
  refine (SMap.get_put ..).trans ?_
  simp only [Nat.add_left_cancel_iff, Device.patrolAt]

theorem Device.patrolWord_none {s : Device} {w : Nat} (he : s.eccAt w = none) (hl : s.linkAt w = none) : s.patrolWord w = s := by
  simp only [Device.patrolWord, Device.linkMet_none hl, he]

/-- The patrol reads the line of a sub-channel, where that is a line of mapped words. -/
def Device.patrolRead (s : Device) (die q : Nat) : Device :=
  if (4 * s.patrolAt die q + q) * 64 < s.lpBytes / 4 then
    (wordsOf (s.lpAddr die ((4 * s.patrolAt die q + q) * 64)) 64).foldl Device.patrolWord s
  else s

/-- What the patrol does in one sub-channel of a die. -/
def Device.patrolLine (die : Nat) (s : Device) (q : Nat) : Device :=
  (s.patrolRead die q).withPatrol (SMap.put 0 (s.patrolRead die q).pond.patrol (die * 4 + q) (s.patrolNext die q))

theorem patrolBody_on {s : Device} (die : Nat) (hecc : s.on 0 LP5X_CTL_INLINE_ECC = true) (hen : s.on 0 LP5X_CTL_PATROL_EN = true)
    (hmapped : s.lpBytes ≠ 0) : patrolBody die [] s = (List.range 4).foldl (Device.patrolLine die) s :=
  if_pos ⟨hecc, hen, hmapped⟩

theorem Device.patrolLine_clean {s : Device} (h : s.clean) (die q : Nat) : s.patrolLine die q = s.patrolled die q := by
  obtain ⟨hecc, hlink⟩ := h
  have hword : ∀ w, s.patrolWord w = s := fun w =>
    Device.patrolWord_none (by rw [Device.eccAt, hecc]; rfl) (by rw [Device.linkAt, hlink]; exact ite_self _)
  simp only [Device.patrolLine, Device.patrolRead, foldl_eq_self fun w _ => hword w, ite_self, Device.patrolled]

/-- Over sub-channels that are all different, the patrol moves each on by one line. -/
theorem Device.foldl_patrolLine {l : List Nat} (hl : l.Nodup) (die : Nat) {s : Device} (h : s.clean) :
    ∃ m, l.foldl (Device.patrolLine die) s = s.withPatrol m ∧
      ∀ q, (s.withPatrol m).patrolAt die q = if q ∈ l then s.patrolNext die q else s.patrolAt die q := by
  induction l generalizing s with
  | nil => exact ⟨s.pond.patrol, rfl, fun _ => rfl⟩
  | cons j l ih =>
    obtain ⟨hj, hl⟩ := List.nodup_cons.mp hl
    obtain ⟨m, hm, hat⟩ := ih hl (s := s.patrolled die j) (h.withPatrol _)
    rw [Device.patrolled, Device.withPatrol_withPatrol, ← Device.patrolled] at hm hat
    refine ⟨m, by rw [List.foldl_cons, Device.patrolLine_clean h, hm], fun q => (hat q).trans ?_⟩
    have hnext : ∀ k, k ≠ j → (s.patrolled die j).patrolNext die k = s.patrolNext die k := fun k hk => by
      rw [Device.patrolNext, Device.patrolAt_patrolled, if_neg hk, Device.patrolled, Device.patrolLines_withPatrol, Device.patrolNext]
    rw [Device.patrolAt_patrolled]
    by_cases hq : q = j
    · subst hq; simp [hj]
    · simp [hq, hnext q hq]

/-- The clause of O22 on the patrol. -/
theorem lp5xPatrol_movesOn {s : State} (hs : s.dev.sound) (die : Nat) (h : s.dev.clean) (hinline : s.dev.on 0 LP5X_CTL_INLINE_ECC = true)
    (hen : s.dev.on 0 LP5X_CTL_PATROL_EN = true) (hmapped : s.dev.lpBytes ≠ 0) :
    runs (.lp5xPatrol die []) s fun d => keepsMem s.dev d ∧ d.regs = s.dev.regs ∧ d.pond.ecc = [] ∧
      ∀ q < 4, d.patrolAt die q = s.dev.patrolNext die q := by
  obtain ⟨m, hm, hat⟩ := Device.foldl_patrolLine List.nodup_range die h
  refine runs_of_body hs rfl ((patrolBody_on die hinline hen hmapped).trans hm) ⟨rfl, rfl, rfl⟩ ⟨rfl, h.1, fun q hq => ?_⟩
  rw [hat, if_pos (List.mem_range.mpr hq)]

/-- Settles O22: the commands on retention write what the request and the mode say, and the patrol's loop, where no word is in error, moves
each sub-channel's position on by one line. -/
theorem retentionAndPatrol : Obligations.RetentionAndPatrol :=
  ⟨fun _ die value hs => ⟨exec_retainReq hs die value, exec_wakingDone hs die⟩,
    fun _ die hs hecc hlink hinline hen hmapped => lp5xPatrol_movesOn hs die ⟨hecc, hlink⟩ hinline hen hmapped⟩

/-! ### A FIXED request at a column's shared port (R61, R226, R233) -/

/-- What a column needs to perform a request of its own die: it lies there, and its access succeeds. -/
structure Device.performs (s : Device) (r : Req) (die col off : Nat) : Prop where
  region : s.region r.addr = .pond die col off
  die_eq : r.die = die
  master : r.master < mHost
  coreWords : r.coreWords = []
  remote : r.remote = []
  work : r.work = none
  len : 1 ≤ r.len
  status : s.accessStatus r.die r.master r.addr r.len r.write = stDONE

/-- A FIXED request of a core or a DMA engine for a column of its own die, with nothing in its way to the column's queue: its unit is not
fenced, and no request is held before it. -/
structure Device.bringsFixed (s : Device) (r : Req) (die col off : Nat) : Prop extends s.performs r die col off where
  label : (s.label r).1 = true
  fenced : s.isFenced r.die r.master = false
  own : s.ownAccess r.die r.master r.addr = false
  held : s.regul.held = []

/-- A FIXED request as its port labels it. -/
def Device.labelled (s : Device) (r : Req) : Req := { r with fixed := true, cls := 16 + (s.label r).2 }

theorem Device.issued_fixed {s : Device} {r : Req} (hm : r.master < mHost) (h : (s.label r).1 = true) :
    s.issued r false = s.labelled r := by
  have hne : r.master ≠ mOliner := Nat.ne_of_lt (hm.trans (by decide))
  simp [Device.issued, hne, h, Device.labelled]

/-- A request that bears the label FIXED keeps it (R227). -/
theorem Device.label_labelled {r : Req} (hm : r.master < mHost) (s t : Device) : (t.label (s.labelled r)).1 = true := by
  have hne : r.master ≠ mOliner := Nat.ne_of_lt (hm.trans (by decide))
  simp [Device.label, Device.labelled, hne]

theorem Device.overBudget_fixed {s : Device} {r : Req} (h : (s.label r).1 = true) : s.overBudget r = false := by
  simp [Device.overBudget, h]

theorem admits_fixed {q : List Bool} : admits q true = decide (q.length < 32) := by simp [admits]

/-- A port lets a FIXED request go to its column at once. -/
theorem Device.offer_fixed {s : Device} {r : Req} {die col off : Nat} (h : s.bringsFixed r die col off) :
    s.offer r = s.arriveAt (s.labelled r) := by
  have hbehind : s.behindHeld r = false := by simp [Device.behindHeld, h.held]
  have hremote : remoteDma r = false := by simp [remoteDma, h.remote]
  simp [Device.offer, h.fenced, h.own, Device.overBudget_fixed h.label, hbehind, Device.leavePort, hremote,
    Device.issued_fixed h.master h.label]

/-- The device with one more FIXED entry in a column's queue. -/
def Device.queued (s : Device) (die col : Nat) : Device :=
  (s.setPortQueue die col (s.portQueue die col ++ [true])).addWrap die REGULATE_QUEUE_AUDIT_ADMITTED 1

theorem Device.portQueue_setPortQueue (s : Device) (die col : Nat) (q : List Bool) : (s.setPortQueue die col q).portQueue die col = q :=
  SMap.get_put_same ..

theorem Device.portQueue_queued (s : Device) (die col : Nat) : (s.queued die col).portQueue die col = s.portQueue die col ++ [true] :=
  s.portQueue_setPortQueue die col _

theorem Device.finish_pond {s : Device} {r : Req} {die col off : Nat} (h : s.region r.addr = .pond die col off) :
    s.finish r = s.finishNow r := by rw [Device.finish, h]

theorem Device.lpBytes_addWrap {f : Fld} (hf : LP5X_MAPPED_MAPPED_GIB.elsewhere f) (s : Device) (die n : Nat) :
    (s.addWrap die f n).lpBytes = s.lpBytes := by
  rw [Device.lpBytes, Device.addWrap, Device.rd_wr_elsewhere hf, ← Device.lpBytes]

theorem Device.region_congr {s t : Device} (h : t.lpBytes = s.lpBytes) (a : Nat) : t.region a = s.region a := by
  simp only [Device.region, h]

/-- What a core or a DMA engine reaches depends on the map of addresses alone (R30). -/
theorem Device.reachesIn_congr {master : Nat} (hm : master < mHost) (s t : Device) (src a n : Nat) (w : Bool) (r : Region) :
    t.reachesIn src master a n w r = s.reachesIn src master a n w r := by
  have hne : ∀ m ∈ [mSafety, mScrub, mSelftest, mWipe, mReflex, mFusion, mFault], master ≠ m := by
    intro m hmem
    have : mHost ≤ m := (by decide : ∀ m ∈ [mSafety, mScrub, mSelftest, mWipe, mReflex, mFusion, mFault], mHost ≤ m) m hmem
    omega
  cases r with
  | pond d c o => simp [Device.reachesIn, hne]
  | lp o => simp [Device.reachesIn, hne]
  | _ => rfl

/-- The status of a core's or a DMA engine's access to its own die's Pond depends on the Pond's mode and on the map of addresses alone. -/
theorem Device.accessStatus_congr {s t : Device} {r : Req} {die col off : Nat} (hr : s.region r.addr = .pond die col off)
    (hdie : r.die = die) (hm : r.master < mHost) (hlp : t.lpBytes = s.lpBytes)
    (hmode : t.rd die POND_STATUS_MODE = s.rd die POND_STATUS_MODE) :
    t.accessStatus r.die r.master r.addr r.len r.write = s.accessStatus r.die r.master r.addr r.len r.write := by
  subst hdie
  have hreach : t.reaches r.die r.master r.addr r.len r.write = s.reaches r.die r.master r.addr r.len r.write := by
    simp only [Device.reaches, Device.region_congr hlp, Device.reachesIn_congr hm s t]
  simp only [Device.accessStatus, hreach, Device.region_congr hlp, hr, Device.homeDie, Device.routeUp_self, hmode]

/-- A FIXED request that its column's queue admits takes an entry and is performed; one that meets a full queue waits at its port. -/
theorem Device.arriveAt_fixed {s : Device} {r : Req} {die col off : Nat} (hr : s.region r.addr = .pond die col off)
    (ha : s.accessStatus r.die r.master r.addr r.len r.write = stDONE) (hl : (s.label r).1 = true) :
    s.arriveAt r = if (s.portQueue die col).length < 32 then (s.queued die col).finishNow r
      else { s with pond := { s.pond with waiting := s.pond.waiting ++ [r] } } := by
  have hregion : (s.queued die col).region r.addr = .pond die col off :=
    (Device.region_congr (Device.lpBytes_addWrap (by decide) ..) _).trans hr
  have hfinish : ((s.setPortQueue die col (s.portQueue die col ++ [true])).addWrap die REGULATE_QUEUE_AUDIT_ADMITTED 1).finish r =
      (s.queued die col).finishNow r := Device.finish_pond hregion
  simp only [Device.arriveAt, hr, ha, hl, admits_fixed, decide_eq_true_eq, Device.counted_of_fixed hl, hfinish]
  simp

/-! ### What the column answers -/

theorem Device.answerOutside_inside (s : Device) {r : Req} (hm : r.master < mHost) (hrem : r.remote = []) (status data : Nat) :
    s.answerOutside r status data = s := by
  have hnot : ¬ mHost ≤ r.master := Nat.not_le.2 hm
  simp [Device.answerOutside, hrem, hnot]

theorem Device.performs.home {s : Device} {r : Req} {die col off : Nat} (h : s.performs r die col off) :
    s.homeDie (s.region r.addr) = r.die := by rw [h.region, h.die_eq]; rfl

/-- A read of words without errors is answered with their bytes. -/
theorem Device.finishNow_read {s : Device} {r : Req} {die col off : Nat} (h : s.performs r die col off) (hr : r.write = false)
    (hclean : s.noErrors r.addr r.len) : s.finishNow r = s.answer stDONE (s.load r.addr r.len) := by
  have hread := Device.readChk_clean h.len hclean (hr ▸ h.status) h.home
  simp [Device.finishNow, Device.perform, hr, hread, Device.answerOutside_inside _ h.master h.remote]

/-- A write of words without errors stores its bytes. -/
theorem Device.finishNow_write {s : Device} {r : Req} {die col off : Nat} (h : s.performs r die col off) (hw : r.write = true)
    (hclean : s.noErrors r.addr r.len) : s.finishNow r = (s.store r.addr r.data r.len).answer stDONE 0 := by
  have hdata : s.sharedData r = r.data := by simp [Device.sharedData, h.coreWords]
  have hwrite := Device.writeChk_clean hclean (hw ▸ h.status) h.home r.data
  simp [Device.finishNow, Device.perform, hw, hdata, hwrite, Device.answerOutside_inside _ h.master h.remote]

/-- A read that meets an uncorrectable word answers UNCORRECTABLE. -/
theorem Device.readChk_bad {s : Device} {src master a n : Nat} (ha : s.accessStatus src master a n false = stDONE)
    (hh : s.homeDie (s.region a) = src) {w : Nat} (hw : w ∈ wordsOf a n) (hbad : s.isUe w = true) :
    (s.readChk src master a n).2 = (stUNCORRECTABLE, 0) := by
  have hany : (wordsOf a n).any s.isUe = true := List.any_eq_true.2 ⟨w, hw, hbad⟩
  have hne : stUNCORRECTABLE ≠ stDONE := by decide
  simp [Device.readChk, ha, hh, hany, hne]

theorem Device.finishNow_bad {s : Device} {r : Req} {die col off : Nat} (h : s.performs r die col off) (hr : r.write = false)
    {w : Nat} (hw : w ∈ wordsOf r.addr r.len) (hbad : s.isUe w = true) :
    s.finishNow r = (s.readChk r.die r.master r.addr r.len).1.answer stUNCORRECTABLE 0 := by
  have hne : stUNCORRECTABLE ≠ stDONE := by decide
  have hread := Device.readChk_bad (hr ▸ h.status) h.home hw hbad
  simp [Device.finishNow, Device.perform, hr, hread, Device.answerOutside_inside _ h.master h.remote, h.work, hne]

/-- Where the Pond's mode and the map of addresses are as before, the column performs what it did. -/
theorem Device.performs.congr {s t : Device} {r : Req} {die col off : Nat} (h : s.performs r die col off) (hlp : t.lpBytes = s.lpBytes)
    (hmode : t.rd die POND_STATUS_MODE = s.rd die POND_STATUS_MODE) : t.performs r die col off :=
  { h with
    region := (Device.region_congr hlp _).trans h.region
    status := (Device.accessStatus_congr h.region h.die_eq h.master hlp hmode).trans h.status }

theorem Device.performs.queued {s : Device} {r : Req} {die col off : Nat} (h : s.performs r die col off) :
    (s.queued die col).performs r die col off :=
  h.congr (Device.lpBytes_addWrap (by decide) ..) (Device.rd_wr_elsewhere (by decide))

theorem Device.performs.labelled {s : Device} {r : Req} {die col off : Nat} (h : s.performs r die col off) (t : Device) :
    s.performs (t.labelled r) die col off :=
  ⟨h.region, h.die_eq, h.master, h.coreWords, h.remote, h.work, h.len, h.status⟩

theorem Device.load_congr {s t : Device} (h : t.mem = s.mem) (a n : Nat) : t.load a n = s.load a n := by
  induction n generalizing a with
  | zero => rfl
  | succ n ih => rw [Device.load, ih, Device.byte, h, ← Device.byte, ← Device.load]

theorem Device.keepsFields_queued (s : Device) (die col : Nat) : keepsFields s (s.queued die col) [(die, REGULATE_QUEUE_AUDIT_ADMITTED)] :=
  keepsFields_wr (s.setPortQueue die col _) die _ _

/-- The command brings one request to its port, and the port to its column. -/
theorem sharedPortRequestBody_fixed {s : Device} {r : Req} {die col off : Nat} (h : s.bringsFixed r die col off) :
    sharedPortRequestBody [r] [] s = if (s.portQueue die col).length < 32 then (s.queued die col).finishNow (s.labelled r)
      else { s with pond := { s.pond with waiting := s.pond.waiting ++ [s.labelled r] } } :=
  (Device.offer_fixed h).trans (Device.arriveAt_fixed h.region h.status (Device.label_labelled h.master s s))

/-- The clause of O20 on a full queue. -/
theorem sharedPortRequest_waits {s : State} (hs : s.dev.sound) {r : Req} {die col off : Nat} (h : s.dev.bringsFixed r die col off)
    (hfull : 32 ≤ (s.dev.portQueue die col).length) : exec (.sharedPortRequest [r] []) s = .next (s.withDev { s.dev with
      pond := { s.dev.pond with waiting := s.dev.pond.waiting ++ [s.dev.labelled r] } }) :=
  exec_of_body hs rfl ((sharedPortRequestBody_fixed h).trans (if_neg (Nat.not_lt.2 hfull))) ⟨rfl, rfl, rfl⟩

/-- The clause of O20 on a read that the queue admits, where the request ends below LP5X. -/
theorem sharedPortRequest_reads {s : State} (hs : s.dev.sound) {r : Req} {die col off : Nat} (h : s.dev.bringsFixed r die col off)
    (hecc : s.dev.pond.ecc = []) (hlp : r.addr + r.len ≤ lpBase) (hroom : (s.dev.portQueue die col).length < 32) (hr : r.write = false) :
    runs (.sharedPortRequest [r] []) s fun d =>
      d.reply = (stDONE, s.dev.load r.addr r.len) ∧ d.portQueue die col = s.dev.portQueue die col ++ [true] ∧ keepsMem s.dev d ∧
      keepsFields s.dev d [(die, REGULATE_QUEUE_AUDIT_ADMITTED)] := by
  have hbody : sharedPortRequestBody [r] [] s.dev = (s.dev.queued die col).answer stDONE (s.dev.load r.addr r.len) := by
    rw [sharedPortRequestBody_fixed h, if_pos hroom, Device.finishNow_read (h.queued.labelled s.dev) hr (Device.noErrors_of_ecc hecc hlp),
      Device.load_congr (s := s.dev) (t := s.dev.queued die col) rfl]
    rfl
  exact ⟨_, exec_of_body hs rfl hbody ⟨rfl, rfl, rfl⟩, rfl, rfl, s.dev.portQueue_queued die col, fun _ => rfl,
    s.dev.keepsFields_queued die col⟩

/-- The clause of O20 on a write that the queue admits, where the request ends below LP5X. -/
theorem sharedPortRequest_writes {s : State} (hs : s.dev.sound) {r : Req} {die col off : Nat} (h : s.dev.bringsFixed r die col off)
    (hecc : s.dev.pond.ecc = []) (hlp : r.addr + r.len ≤ lpBase) (hroom : (s.dev.portQueue die col).length < 32) (hw : r.write = true) :
    runs (.sharedPortRequest [r] []) s fun d =>
      d.load r.addr r.len = r.data % 256 ^ r.len ∧ d.portQueue die col = s.dev.portQueue die col ++ [true] ∧
      (∀ b, (b < r.addr ∨ r.addr + r.len ≤ b) → d.byte b = s.dev.byte b) ∧
      keepsFields s.dev d [(die, REGULATE_QUEUE_AUDIT_ADMITTED)] := by
  generalize hd : (s.dev.queued die col).store r.addr r.data r.len = d
  have hbody : sharedPortRequestBody [r] [] s.dev = d.answer stDONE 0 := by
    rw [sharedPortRequestBody_fixed h, if_pos hroom, Device.finishNow_write (h.queued.labelled s.dev) hw (Device.noErrors_of_ecc hecc hlp), ← hd]
    rfl
  have hdone : (d.answer stDONE 0).done = d.answer stDONE 0 := by
    subst hd
    exact Device.done_eq' _ (Device.wf_store _ _ _ _ hs.1) ((Device.store_regReqs ..).trans hs.2.1)
      ((congrArg RegulSt.sent (Device.store_regul ..)).trans hs.2.2)
  refine ⟨s.withDev (d.answer stDONE 0), ?_, rfl, ?_, ?_, fun b hb => ?_, fun e f hf => ?_⟩
  · exact congrArg (fun d => Host.Outcome.next (s.withDev d)) ((congrArg Device.done hbody).trans hdone)
  · refine (Device.load_congr (s := d) (t := d.answer stDONE 0) rfl ..).trans ?_
    rw [← hd, Device.load_store]
  · have hpond : d.pond = (s.dev.queued die col).pond := hd ▸ Device.store_pond ..
    exact (congrArg (fun p : PondSt => SMap.get [] p.queue (die * 64 + col)) hpond).trans (s.dev.portQueue_queued die col)
  · exact (hd ▸ Device.byte_store_ne _ _ _ _ _ hb : d.byte b = (s.dev.queued die col).byte b)
  · have hregs : d.regs = (s.dev.queued die col).regs := hd ▸ Device.store_regs ..
    exact (Device.rd_congr hregs e f).trans (s.dev.keepsFields_queued die col e f hf)

/-- A read that the queue admits and that meets an uncorrectable word is answered UNCORRECTABLE. -/
theorem sharedPortRequest_uncorrectable {s : State} (hs : s.dev.sound) {r : Req} {die col off : Nat} (h : s.dev.bringsFixed r die col off)
    (hroom : (s.dev.portQueue die col).length < 32) (hr : r.write = false) {w : Nat} (hw : w ∈ wordsOf r.addr r.len)
    (hbad : (s.dev.queued die col).isUe w = true) :
    ∃ t, exec (.sharedPortRequest [r] []) s = .next t ∧ t.dev.reply = (stUNCORRECTABLE, 0) := by
  have hbody : sharedPortRequestBody [r] [] s.dev =
      ((s.dev.queued die col).readChk r.die r.master r.addr r.len).1.answer stUNCORRECTABLE 0 := by
    rw [sharedPortRequestBody_fixed h, if_pos hroom, Device.finishNow_bad (h.queued.labelled s.dev) hr hw hbad]
    rfl
  have hview := (s.dev.queued die col).edgeView_readChk r.die r.master r.addr r.len
  generalize ((s.dev.queued die col).readChk r.die r.master r.addr r.len).1 = d at hbody hview
  simp only [Device.edgeView, Prod.mk.injEq] at hview
  obtain ⟨-, -, hreqs, hregul⟩ := hview
  have hdone : (d.answer stUNCORRECTABLE 0).done = (d.answer stUNCORRECTABLE 0).canon :=
    Device.done_of_nil _ (hreqs.trans hs.2.1) ((congrArg RegulSt.sent hregul).trans hs.2.2)
  exact ⟨s.withDev _, congrArg (fun d => Host.Outcome.next (s.withDev d)) ((congrArg Device.done hbody).trans hdone), rfl⟩

/-! ### An entry frees (R61) -/

/-- The device with the oldest entry of a column's queue served. -/
def Device.served (s : Device) (die col : Nat) (q : List Bool) : Device :=
  (s.setPortQueue die col q).addWrap die REGULATE_QUEUE_AUDIT_SERVED 1

/-- No request waits at its port. -/
def Device.noneWaits (s : Device) : Device := { s with pond := { s.pond with waiting := [] } }

theorem Device.portQueue_served (s : Device) (die col : Nat) (q : List Bool) : (s.served die col q).portQueue die col = q :=
  s.portQueue_setPortQueue die col q

/-- A core's or a DMA engine's label depends on what it works on alone. -/
theorem Device.label_congr {s t : Device} {r : Req} (hm : r.master < mHost) (hd : t.disp = s.disp) (hx : t.xlate = s.xlate) :
    t.label r = s.label r := by
  simp only [Device.label, Device.reqWork, Device.cmd, Device.ring, hd, hx, hm, if_true, true_or]

/-- The first served of one FIXED request is that one. -/
theorem Device.firstServed_fixed {s : Device} {r : Req} (h : (s.label r).1 = true) : s.firstServed [r] = some r := by
  have hlevel : s.level r = 0 := by rw [Device.level, if_pos h]
  simp [Device.firstServed, hlevel]

theorem queueFreeBody_none {s : Device} {die col : Nat} {x : Bool} {q : List Bool} (hq : s.portQueue die col = x :: q)
    (hwait : s.pond.waiting = []) : queueFreeBody die col s = s.served die col q := by
  have hnone : ((s.setPortQueue die col q).addWrap die REGULATE_QUEUE_AUDIT_SERVED 1).pond.waiting = [] := hwait
  simp only [queueFreeBody, hq, hnone, List.filter_nil, Device.firstServed, List.find?_nil]
  rfl

/-- The clause of O20 on an entry that frees with none waiting. -/
theorem sharedPortQueueFree_none {s : State} (hs : s.dev.sound) {die col : Nat} {x : Bool} {q : List Bool}
    (hq : s.dev.portQueue die col = x :: q) (hwait : s.dev.pond.waiting = []) :
    exec (.sharedPortQueueFree die col) s = .next (s.withDev (s.dev.served die col q)) :=
  exec_of_body hs rfl (queueFreeBody_none hq hwait) ⟨rfl, rfl, rfl⟩

/-- The one request that waits arrives at its column, where it has come to its turn. -/
theorem queueFreeBody_fixed {s : Device} {r : Req} {die col off : Nat} (h : s.bringsFixed r die col off) {x : Bool} {q : List Bool}
    (hq : s.portQueue die col = x :: q) (hroom : q.length < 32) (hwait : s.pond.waiting = [r]) :
    queueFreeBody die col s = (s.served die col q).noneWaits.arriveAt r := by
  have hlabel : ((s.served die col q).label r).1 = true :=
    (congrArg Prod.fst (Device.label_congr (s := s) (t := s.served die col q) h.master rfl rfl)).trans h.label
  have hregion : (s.served die col q).region r.addr = .pond die col off :=
    (Device.region_congr (Device.lpBytes_addWrap (by decide) ..) _).trans h.region
  have hfirst := Device.firstServed_fixed hlabel
  have hbudget := Device.overBudget_fixed hlabel
  have hwait' : (s.served die col q).pond.waiting = [r] := hwait
  rw [queueFreeBody, hq]
  dsimp only
  rw [← Device.served]
  simp only [hwait', List.filter_cons, hregion, hlabel, admits_fixed, hroom, hbudget, List.filter_nil]
  simp [hfirst, Device.noneWaits]

/-- The clause of O20 on an entry that frees while a read waits, where the request ends below LP5X. -/
theorem sharedPortQueueFree_reads {s : State} (hs : s.dev.sound) {r : Req} {die col off : Nat} (h : s.dev.bringsFixed r die col off)
    (hecc : s.dev.pond.ecc = []) (hlp : r.addr + r.len ≤ lpBase) {x : Bool} {q : List Bool} (hq : s.dev.portQueue die col = x :: q)
    (hroom : q.length < 32) (hwait : s.dev.pond.waiting = [r]) (hr : r.write = false) :
    runs (.sharedPortQueueFree die col) s fun d =>
      d.reply = (stDONE, s.dev.load r.addr r.len) ∧ d.portQueue die col = q ++ [true] ∧ d.pond.waiting = [] ∧ keepsMem s.dev d := by
  generalize ht : (s.dev.served die col q).noneWaits = t
  have hqueue : t.portQueue die col = q := ht ▸ s.dev.portQueue_served die col q
  have hmem : t.mem = s.dev.mem := by rw [← ht]; rfl
  have hperforms : t.performs r die col off :=
    h.congr (ht ▸ Device.lpBytes_addWrap (by decide) ..) (ht ▸ Device.rd_wr_elsewhere (by decide))
  have hlabel : (t.label r).1 = true :=
    ht ▸ (congrArg Prod.fst (Device.label_congr (s := s.dev) (t := (s.dev.served die col q).noneWaits) h.master rfl rfl)).trans h.label
  have hclean : (t.queued die col).noErrors r.addr r.len := Device.noErrors_of_ecc (by rw [← ht]; exact hecc) hlp
  have hbody : queueFreeBody die col s.dev = (t.queued die col).answer stDONE (s.dev.load r.addr r.len) := by
    rw [queueFreeBody_fixed h hq hroom hwait, ht, Device.arriveAt_fixed hperforms.region hperforms.status hlabel, hqueue, if_pos hroom,
      Device.finishNow_read hperforms.queued hr hclean, Device.load_congr (s := s.dev) (t := t.queued die col) hmem]
  refine ⟨_, exec_of_body hs rfl hbody (ht ▸ ⟨rfl, rfl, rfl⟩), rfl, rfl, ?_, ?_, fun a => ?_⟩
  · exact (t.portQueue_queued die col).trans (by rw [hqueue])
  · rw [← ht]; rfl
  · rw [← ht]; rfl

/-! ### The refutation of O20 -/

/-- A state with 1 GiB of LP5X mapped, whose first word meets an error on the wires that link ECC cannot correct. -/
def wireError : State :=
  { dev := { regs := [(LP5X_MAPPED_MAPPED_GIB.key 0, 1)], pond := { link := [(lpBase / 8, some ⟨true, 0, 0, 0⟩)] } } }

/-- A FIXED read of 64 GiB and 8 bytes, which starts in the Pond of die 0 and ends in LP5X. `Instr.wellFormed` refuses a request of more than 64
bytes; `exec` runs it, and the statement does not exclude it. -/
def longRead : Req :=
  { die := 0, master := mDma, home := 0, addr := 0, len := lpBase + 8, write := false, data := 0, fixed := true, cls := 0, coreWords := [],
    work := none, remote := [] }

theorem longRead_comes : wireError.dev.bringsFixed longRead 0 0 0 where
  region := by decide +kernel
  die_eq := rfl
  master := by decide
  coreWords := rfl
  remote := rfl
  work := rfl
  len := by decide
  status := by decide +kernel
  label := by decide +kernel
  fenced := by decide +kernel
  own := by decide +kernel
  held := rfl

/-- The word with the error lies in the read, and its transfer meets the error. -/
theorem longRead_meets : lpBase / 8 ∈ wordsOf longRead.addr longRead.len ∧ (wireError.dev.queued 0 0).isUe (lpBase / 8) = true := by
  refine ⟨?_, by decide +kernel⟩
  rw [wordsOf_eq_range' (by decide), List.mem_range']
  exact ⟨lpBase / 8, by decide, by decide⟩

/-- Refutes O20: the clauses on a request that the queue admits leave its length free and leave the errors on LP5X's wires free. A request that
starts in a column and ends in mapped LP5X is within its requester's reach, which its first and its last byte decide, so one that meets such an
error between them is answered UNCORRECTABLE (R80). The clauses on a full queue and on a queue with none waiting hold
(`sharedPortRequest_waits`, `sharedPortQueueFree_none`), and so do the others where the request ends below LP5X (`sharedPortRequest_writes`,
`sharedPortRequest_reads`, `sharedPortQueueFree_reads`). -/
theorem not_sharedPorts : ¬ Obligations.SharedPorts := by
  intro h
  obtain ⟨h, -⟩ := h
  have hx := longRead_comes
  obtain ⟨-, hread, -⟩ := h wireError longRead 0 0 0 ⟨by decide +kernel, rfl, rfl⟩ rfl hx.region hx.die_eq hx.master hx.label hx.coreWords
    hx.remote hx.work hx.len hx.status hx.fenced hx.own hx.held
  obtain ⟨u, hu, -, hreply, -⟩ := hread (by decide +kernel) rfl
  obtain ⟨hw, hbad⟩ := longRead_meets
  obtain ⟨t, ht, hfail⟩ := sharedPortRequest_uncorrectable ⟨by decide +kernel, rfl, rfl⟩ hx (by decide +kernel) rfl hw hbad
  obtain rfl : u = t := Host.Outcome.next.inj (hu.symm.trans ht)
  have hstatus : stDONE = stUNCORRECTABLE := (Prod.mk.inj (hreply.symm.trans hfail)).1
  exact absurd hstatus (by decide)

/-! ### Commands that leave the requests alone -/

/-- The requests under way. -/
def Device.requests (s : Device) : List Req × RegulSt := (s.regReqs, s.regul)

theorem Device.requests_wr (s : Device) (d : Nat) (f : Fld) (v : Nat) : (s.wr d f v).requests = s.requests := by rfl
theorem Device.requests_set (s : Device) (d : Nat) (f : Fld) : (s.set d f).requests = s.requests := by rfl
theorem Device.requests_toStage (s : Device) (n : Nat) : (s.toStage n).requests = s.requests := by rfl

/-- A command whose body leaves the requests of a sound device alone ends with its memory made canonical. -/
theorem runs_of_requests {c : Instr} {s : State} {f : Device → Device} {P : Device → Prop} (hs : s.dev.sound) (hx : exec c s = s.upd f)
    (hf : (f s.dev).requests = s.dev.requests) (hP : P (f s.dev).canon) : runs c s P := by
  obtain ⟨-, hreqs, hsent⟩ := hs
  simp only [Device.requests, Prod.mk.injEq] at hf
  obtain ⟨hreqs', hregul⟩ := hf
  have hdone : (f s.dev).done = (f s.dev).canon := Device.done_of_nil _ (hreqs'.trans hreqs) (hregul ▸ hsent)
  exact ⟨s.withDev (f s.dev).canon, by rw [hx, State.upd_eq, hdone]; rfl, rfl, hP⟩

theorem Device.idleSince.wr {d s : Device} (h : d.idleSince s) (e : Nat) (f : Fld) (v : Nat) : (d.wr e f v).idleSince s := ⟨h.1, h.2.1, h.2.2⟩
theorem Device.idleSince.setEft {d s : Device} (h : d.idleSince s) (x : EftSt) : (d.setEft x).idleSince s := ⟨h.1, h.2.1, h.2.2⟩

/-! ### Reads of fields of other dies -/

/-- Fields that each die keeps for itself have different keys on different dies. -/
theorem Fld.key_ne_of_dies {f g : Fld} (hf : f.inMap ∧ f.dev = false) (hg : g.inMap ∧ g.dev = false) {d e : Nat} (h : d ≠ e) :
    f.key d ≠ g.key e := by
  obtain ⟨⟨hfl, hfo, hfb⟩, hfd⟩ := hf
  obtain ⟨⟨hgl, hgo, hgb⟩, hgd⟩ := hg
  simp only [Fld.key, Fld.home, hfd, hgd, Bool.false_eq_true, if_false]
  intro hkey
  omega

theorem Device.rd_wr_otherDie {s : Device} {d e : Nat} (h : e ≠ d) {f g : Fld} {v : Nat} (hg : g.inMap ∧ g.dev = false)
    (hf : f.inMap ∧ f.dev = false) : (s.wr d f v).rd e g = s.rd e g :=
  s.rd_wr_ne d e f g v (Fld.key_ne_of_dies hg hf h)

/-- Writes of the registers of an array leave what each of them leaves. -/
theorem foldl_wr_keeps {β : Type} {v : Device → β} {d n : Nat} {f : Nat → Fld}
    (h : ∀ (s : Device) (k x : Nat), k < n → v (s.wr d (f k) x) = v s)
    (x : Device → Nat → Nat) (s : Device) : v ((List.range n).foldl (fun t k => t.wr d (f k) (x t k)) s) = v s :=
  List.foldlRecOn (motive := fun t => v t = v s) (List.range n) _ rfl fun t ht k hk => (h t k _ (List.mem_range.mp hk)).trans ht

/-! ### A step of the start that fails (R391) -/

@[simp] theorem Device.rd_setEft (s : Device) (x : EftSt) (e : Nat) (f : Fld) : (s.setEft x).rd e f = s.rd e f := rfl

/-- The record of a step that fails, before the wipe that follows from step 7 on. -/
def Device.failRecorded (s : Device) (reason sect blk item : Nat) : Device :=
  (((((((s.set 0 EFT_BOOT_ERR_VALID).wr 0 EFT_BOOT_ERR_SECTION sect).wr 0 EFT_BOOT_ERR_REASON reason).wr 0 EFT_BOOT_ERR_BLOCK blk).wr 0
    EFT_BOOT_ITEM_ITEM item).set 0 EFT_BOOT_STATUS_FAILED).setEft { s.eft with weights := none, served := [] })

theorem Device.startFail_eq (s : Device) (reason sect blk item : Nat) : s.startFail reason sect blk item =
    if 7 ≤ (s.failRecorded reason sect blk item).stage then (s.failRecorded reason sect blk item).shedAll
    else s.failRecorded reason sect blk item := by rfl

/-- A field that a failure does not record in. -/
abbrev Fld.unfailed (f : Fld) : Prop := f.inMap ∧ (f.blk ≠ 24 ∨ f.off ≠ 4 ∧ f.off ≠ 8 ∧ (f.off ≠ 0 ∨ f.lo ≠ 30))

theorem Device.failRecorded_idle (s : Device) (reason sect blk item : Nat) : (s.failRecorded reason sect blk item).idleSince s := ⟨rfl, rfl, rfl⟩

theorem Device.rd_failRecorded {f : Fld} (hf : f.unfailed) (s : Device) (reason sect blk item e : Nat) :
    (s.failRecorded reason sect blk item).rd e f = s.rd e f := by
  have hwr : ∀ (t : Device) (g : Fld) (v : Nat), g.inMap ∧ g.blk = 24 ∧ (g.off = 4 ∨ g.off = 8 ∨ g.off = 0 ∧ g.lo = 30) →
      (t.wr 0 g v).rd e f = t.rd e f := fun t g v hg => Device.rd_wr_elsewhere ⟨hf.1, hg.1, by have := hf.2; omega⟩
  simp (disch := decide) only [Device.failRecorded, Device.set, Device.rd_setEft, hwr]

/-- What a failure shows: FAILED, its reason, the manifest entry and the item, in as many bits as their fields have. -/
def Device.showsFailure (d : Device) (reason sect item : Nat) : Prop :=
  d.on 0 EFT_BOOT_STATUS_FAILED = true ∧ d.rd 0 EFT_BOOT_ERR_REASON = reason % 2 ^ 8 ∧ d.rd 0 EFT_BOOT_ERR_SECTION = sect % 2 ^ 11 ∧
  d.rd 0 EFT_BOOT_ITEM_ITEM = item % 2 ^ 32

theorem Device.showsFailure.canon {d : Device} {reason sect item : Nat} (h : d.showsFailure reason sect item) :
    d.canon.showsFailure reason sect item := h

theorem Device.failRecorded_shows (s : Device) (reason sect blk item : Nat) :
    (s.failRecorded reason sect blk item).showsFailure reason sect item := by
  simp (disch := decide) only [Device.showsFailure, Device.failRecorded, Device.on, Device.set, Device.rd_setEft, Device.rd_wr_elsewhere,
    Device.rd_wr_same]
  exact ⟨by decide, rfl, rfl, rfl⟩

/-! The wipes leave the registers alone but for POND's, and the requests. -/

theorem Device.rd_wipeDie {f : Fld} (hf : f.inMap ∧ f.blk ≠ 2) (s : Device) (die e : Nat) : (s.wipeDie die).rd e f = s.rd e f := by
  have hwr : ∀ (t : Device) (g : Fld) (v : Nat), g.inMap ∧ g.blk = 2 → (t.wr die g v).rd e f = t.rd e f := fun t g v hg =>
    Device.rd_wr_elsewhere ⟨hf.1, hg.1, .inl fun h => hf.2 (h.trans hg.2)⟩
  simp (disch := decide) only [Device.wipeDie, Device.set, Device.clr, hwr]
  rfl

theorem Device.shedAll_keeps {β : Type} (v : Device → β) (hdie : ∀ (s : Device) (die : Nat), v (s.wipeDie die) = v s)
    (hrest : ∀ s : Device, v { s.wipeUnits.wipeLp with eft := { s.eft with island := [] } } = v s) (s : Device) : v s.shedAll = v s :=
  (hrest _).trans (foldl_keeps v Device.wipeDie hdie _ s)

theorem Device.rd_shedAll {f : Fld} (hf : f.inMap ∧ f.blk ≠ 2) (s : Device) (e : Nat) : s.shedAll.rd e f = s.rd e f :=
  Device.shedAll_keeps (·.rd e f) (fun s die => s.rd_wipeDie hf die e) (fun _ => rfl) s

theorem Device.requests_shedAll (s : Device) : s.shedAll.requests = s.requests :=
  Device.shedAll_keeps Device.requests (fun _ _ => rfl) (fun _ => rfl) s

theorem Device.rd_startFail {f : Fld} (hf : f.inMap ∧ f.blk ≠ 2) (s : Device) (reason sect blk item e : Nat) :
    (s.startFail reason sect blk item).rd e f = (s.failRecorded reason sect blk item).rd e f := by
  rw [Device.startFail_eq]
  split
  · exact Device.rd_shedAll hf _ e
  · rfl

theorem Device.requests_startFail (s : Device) (reason sect blk item : Nat) : (s.startFail reason sect blk item).requests = s.requests := by
  rw [Device.startFail_eq]
  split
  · exact Device.requests_shedAll _
  · rfl

theorem Device.weights_startFail (s : Device) (reason sect blk item : Nat) : (s.startFail reason sect blk item).eft.weights = none := by
  rw [Device.startFail_eq]
  split
  · exact Device.shedAll_keeps (·.eft.weights) (fun _ _ => rfl) (fun _ => rfl) _
  · rfl

theorem Device.startFail_shows (s : Device) (reason sect blk item : Nat) :
    (s.startFail reason sect blk item).showsFailure reason sect item := by
  simp (disch := decide) only [Device.showsFailure, Device.on, Device.rd_startFail]
  exact s.failRecorded_shows reason sect blk item

/-- A failure leaves every field as it is but those it records in and POND's. -/
theorem Device.rd_startFail_unfailed {f : Fld} (hf : f.unfailed ∧ f.blk ≠ 2) (s : Device) (reason sect blk item e : Nat) :
    (s.startFail reason sect blk item).rd e f = s.rd e f :=
  (Device.rd_startFail ⟨hf.1.1, hf.2⟩ ..).trans (Device.rd_failRecorded hf.1 ..)

/-- Before step 7 nothing is wiped. -/
theorem Device.startFail_early {s : Device} (h : s.stage < 7) (reason sect blk item : Nat) :
    s.startFail reason sect blk item = s.failRecorded reason sect blk item := by
  have hstage : (s.failRecorded reason sect blk item).stage = s.stage := Device.rd_failRecorded (by decide) ..
  rw [Device.startFail_eq, if_neg (by omega)]

/-! ### Reset release, REFCLK and the bridges (R389, R470) -/

theorem Device.drawChallenge_keeps {β : Type} (v : Device → β) {f : Nat → Fld}
    (hwr : ∀ (s : Device) (n x : Nat), n < 8 → v (s.wr 0 (f n) x) = v s)
    (hfresh : ∀ (s : Device) (n : Nat), v { s with fresh := n } = v s) (s : Device) : v (s.drawChallenge f) = v s := by
  refine (hfresh _ _).trans ?_
  exact List.foldlRecOn (motive := fun t => v t = v s) (List.range 8) _ rfl fun t ht n hn => (hwr t n _ (List.mem_range.mp hn)).trans ht

theorem Device.rd_drawChallenge {f : Nat → Fld} {g : Fld} (h : ∀ n < 8, g.elsewhere (f n)) (s : Device) (e : Nat) :
    (s.drawChallenge f).rd e g = s.rd e g :=
  Device.drawChallenge_keeps (·.rd e g) (fun _ n _ hn => Device.rd_wr_elsewhere (h n hn)) (fun _ _ => rfl) s

theorem Device.drawChallenge_idle (f : Nat → Fld) (s : Device) : (s.drawChallenge f).idleSince s := by
  have hview := Device.drawChallenge_keeps (f := f) (fun t : Device => (t.mem, t.regReqs, t.regul)) (fun _ _ _ _ => rfl) (fun _ _ => rfl) s
  simp only [Prod.mk.injEq] at hview
  exact hview

/-- The device held at step 1: its challenges are drawn, and the start has begun. -/
def Device.heldAtOne (s : Device) : Device :=
  let s1 := ((s.drawChallenge EFT_CHALLENGE_WORD).drawChallenge DEBUG_CHALLENGE_WORD).toStage 1
  s1.setEft { s1.eft with begun := true, held := true, released := s1.chorus.time }

/-- The clause of O11 on reset release without REFCLK. -/
theorem deviceStart_held {s : State} (hs : s.dev.sound) (x : StartIn) (hb : s.dev.eft.begun = false) :
    runs (.deviceStart false x) s fun d => d.rd 0 EFT_BOOT_STATUS_STAGE = 1 ∧ d.eft.begun = true ∧ d.eft.held = true ∧ keepsMem s.dev d ∧
      d.on 0 EFT_BOOT_STATUS_FAILED = s.dev.on 0 EFT_BOOT_STATUS_FAILED := by
  have hbody : deviceStartBody false x s.dev = s.dev.heldAtOne := by rw [deviceStartBody, if_neg (by simp [hb])]; rfl
  have hdrawn := (Device.drawChallenge_idle DEBUG_CHALLENGE_WORD _).trans (Device.drawChallenge_idle EFT_CHALLENGE_WORD s.dev)
  have hidle : s.dev.heldAtOne.idleSince s.dev := (hdrawn.wr 0 EFT_BOOT_STATUS_STAGE 1).setEft _
  have hfailed : s.dev.heldAtOne.rd 0 EFT_BOOT_STATUS_FAILED = s.dev.rd 0 EFT_BOOT_STATUS_FAILED := by
    rw [Device.heldAtOne, Device.rd_setEft, Device.toStage, Device.rd_wr_elsewhere, Device.rd_drawChallenge (by decide),
      Device.rd_drawChallenge (by decide)]
  have hstage : s.dev.heldAtOne.rd 0 EFT_BOOT_STATUS_STAGE = 1 := by
    rw [Device.heldAtOne, Device.rd_setEft, Device.toStage, Device.rd_wr_same]; rfl
  exact ⟨_, exec_of_body hs rfl hbody hidle, rfl, hstage, rfl, rfl, hidle.keepsMem,
    congrArg (fun v => decide (v ≠ 0)) hfailed⟩

/-- The start is not held any more. -/
def Device.unheld (s : Device) : Device := s.setEft { s.eft with held := false }

/-- The bridges' ends are all up. -/
def Device.bridgesUp (s : Device) : Device :=
  let row := fun (s : Device) (d : Nat) => s.wr d DIE_CTL_BRIDGE_STATUS_ROW_UP 1
  let col := fun (s : Device) (d : Nat) => s.wr d DIE_CTL_BRIDGE_STATUS_COL_UP 1
  col (col (col (col (row (row (row (row s 0) 1) 2) 3) 0) 2) 1) 3

theorem Device.bridgesUp_idle (s : Device) : s.bridgesUp.idleSince s := ⟨rfl, rfl, rfl⟩

theorem Device.stepOne_up (s : Device) {x : StartIn} (h : x.bridges = [true, true, true, true]) : s.stepOne x = s.bridgesUp.stepTwo x := by
  simp only [Device.stepOne, h]
  rfl

theorem Device.rd_bridgesUp_row (s : Device) : s.bridgesUp.rd 0 DIE_CTL_BRIDGE_STATUS_ROW_UP = 1 := by
  simp (disch := decide) only [Device.bridgesUp, Device.rd_wr_elsewhere, Device.rd_wr_otherDie, Device.rd_wr_same]
  rfl

/-- A BLANK device fails at step 2 (R400). -/
theorem Device.stepTwo_blank {s : Device} (h : s.eft.fuses.life = lcBLANK) (x : StartIn) :
    s.stepTwo x = (s.toStage 2).showFuses.startFail bxLIFECYCLE noSect noBlk 0 :=
  if_pos (.inl h)

theorem Device.rd_showFuses {f : Fld} (hf : f.inMap ∧ (f.blk ≠ 24 ∨ f.off ≠ 0x10 ∧ f.off ≠ 0xC) ∧ f.blk ≠ 31) (s : Device) (e : Nat) :
    s.showFuses.rd e f = s.rd e f := by
  have hwr : ∀ (t : Device) (g : Fld) (v : Nat), g.inMap ∧ (g.blk = 24 ∧ (g.off = 0x10 ∨ g.off = 0xC) ∨ g.blk = 31) →
      (t.wr 0 g v).rd e f = t.rd e f := fun t g v hg => Device.rd_wr_elsewhere ⟨hf.1, hg.1, by have := hf.2; omega⟩
  simp (disch := decide) only [Device.showFuses, hwr]

theorem Device.showFuses_idle (s : Device) : s.showFuses.idleSince s := ⟨rfl, rfl, rfl⟩

/-- The clause of O11 on a BLANK device. -/
theorem refclkPresent_blank {s : State} (hs : s.dev.sound) {x : StartIn} (hb : s.dev.eft.begun = true) (hh : s.dev.eft.held = true)
    (hx : x.bridges = [true, true, true, true]) (hl : s.dev.eft.fuses.life = lcBLANK) : runs (.refclkPresent x) s fun d =>
      d.rd 0 EFT_BOOT_STATUS_STAGE = 2 ∧ d.on 0 EFT_BOOT_STATUS_FAILED = true ∧ d.rd 0 EFT_BOOT_ERR_REASON = 0xD ∧
      d.eft.held = false ∧ d.on 0 DIE_CTL_BRIDGE_STATUS_ROW_UP = true ∧ keepsMem s.dev d := by
  generalize ht : (s.dev.unheld.bridgesUp.toStage 2).showFuses = t
  have hbody : refclkBody x s.dev = t.startFail bxLIFECYCLE noSect noBlk 0 := by
    have hlife : s.dev.unheld.bridgesUp.eft.fuses.life = lcBLANK := hl
    rw [refclkBody, if_pos ⟨hb, hh⟩, ← Device.unheld, Device.stepOne_up _ hx, Device.stepTwo_blank hlife, ht]
  have hstage : t.rd 0 EFT_BOOT_STATUS_STAGE = 2 := by
    rw [← ht, Device.rd_showFuses (by decide)]
    exact Device.rd_wr_same ..
  have hrow : t.rd 0 DIE_CTL_BRIDGE_STATUS_ROW_UP = 1 := by
    rw [← ht, Device.rd_showFuses (by decide), Device.toStage, Device.rd_wr_elsewhere, Device.rd_bridgesUp_row]
  rw [Device.startFail_early (by rw [Device.stage, hstage]; decide)] at hbody
  obtain ⟨hfailed, hreason, -, -⟩ := t.failRecorded_shows bxLIFECYCLE noSect noBlk 0
  have hunheld : s.dev.unheld.idleSince s.dev := ⟨rfl, rfl, rfl⟩
  have hshown : t.idleSince s.dev := by
    rw [← ht]
    exact (Device.showFuses_idle _).trans (((Device.bridgesUp_idle _).trans hunheld).wr 0 EFT_BOOT_STATUS_STAGE 2)
  have hidle := (t.failRecorded_idle bxLIFECYCLE noSect noBlk 0).trans hshown
  have hheld : t.eft.held = false := by rw [← ht]; rfl
  refine ⟨_, exec_of_body hs rfl hbody hidle, rfl, ?_, hfailed, hreason, hheld, ?_, hidle.keepsMem⟩
  · exact (Device.rd_failRecorded (by decide) ..).trans hstage
  · exact congrArg (fun v => decide (v ≠ 0)) ((Device.rd_failRecorded (by decide) ..).trans hrow)

/-- The clause of O11 on a bridge that has not trained. -/
theorem bridgeTrainTimeout_fails {s : State} (hs : s.dev.sound) (hin : s.dev.inStart = true) (hstage : s.dev.rd 0 EFT_BOOT_STATUS_STAGE = 1)
    (hrow : s.dev.on 0 DIE_CTL_BRIDGE_STATUS_ROW_UP = false) : runs .bridgeTrainTimeout s fun d =>
      d.on 0 EFT_BOOT_STATUS_FAILED = true ∧ d.rd 0 EFT_BOOT_ERR_REASON = 0xE ∧ d.rd 0 EFT_BOOT_ITEM_ITEM = 0 ∧ keepsMem s.dev d := by
  have hbody : bridgeTimeoutBody s.dev = s.dev.failRecorded bxBRIDGE noSect noBlk 0 := by
    rw [← Device.startFail_early (by rw [Device.stage, hstage]; decide), bridgeTimeoutBody, if_pos ⟨hin, hstage⟩, hrow]
    rfl
  obtain ⟨hfailed, hreason, -, hitem⟩ := s.dev.failRecorded_shows bxBRIDGE noSect noBlk 0
  have hidle := s.dev.failRecorded_idle bxBRIDGE noSect noBlk 0
  exact ⟨_, exec_of_body hs rfl hbody hidle, rfl, hfailed, hreason, hitem, hidle.keepsMem⟩

/-! ### LP5X training (R81) -/

/-- The clause of O11 on a training that fails above the lowest rate. -/
theorem lp5xTrainingDone_stepsDown {s : State} (hs : s.dev.sound) (caps : List Nat) (hin : s.dev.inStart = true)
    (hstage : s.dev.rd 0 EFT_BOOT_STATUS_STAGE = 5) (hrate : s.dev.rd 0 EFT_BOOT_STATUS_RATE_STEP < s.dev.rd 0 LP5X_CTL_RATE) :
    exec (.lp5xTrainingDone false caps) s = .next (s.withDev (s.dev.addHold 0 EFT_BOOT_STATUS_RATE_STEP 1)) := by
  refine exec_of_body hs rfl ?_ ⟨rfl, rfl, rfl⟩
  have hleft : s.dev.rd 0 LP5X_CTL_RATE - s.dev.rd 0 EFT_BOOT_STATUS_RATE_STEP ≠ 0 := by omega
  rw [lpTrainingBody, if_neg (not_not.mpr ⟨hin, hstage⟩)]
  dsimp only
  rw [if_pos Bool.false_ne_true, if_neg hleft]

/-- The device at step 6, with the repair-log area's digest. -/
def Device.atSix (s : Device) : Device := (s.toStage 6).setEft { s.eft with repair := sha512 (s.flashBytes 0x10000 0x10000) }

theorem Device.stage_atSix (s : Device) : s.atSix.stage = 6 := by
  rw [Device.stage, Device.atSix, Device.rd_setEft, Device.toStage, Device.rd_wr_same]; rfl

/-- The device at step 7, with the repairs of a log in force. -/
def Device.repaired (s : Device) (l : List Nat) : Device :=
  let used := fun (d k : Nat) => (l.filter fun e => decide (bits e 60 2 = d) && decide (rlKind e = k)).length
  let s2 := (List.range 4).foldl (fun (s : Device) d =>
    (s.wr d POND_REPAIR_USED_ROWS (used d 0)).wr d POND_REPAIR_USED_BITLINES (used d 1)) s
  ({ s2 with pond := { s2.pond with repairs := l } }).toStage 7

/-- Step 6 refuses the repair log, or puts its repairs in force (R75, R76). -/
theorem Device.stepSix_cases (s : Device) :
    (∃ i, s.stepSix = s.atSix.failRecorded bxREPAIR noSect noBlk i) ∨ ∃ l, s.stepSix = s.atSix.repaired l := by
  have hearly : s.atSix.stage < 7 := by rw [s.stage_atSix]; decide
  unfold Device.stepSix
  generalize s.repairLog = l
  extract_lets l' more x s1 used s2
  have h1 : s1 = s.atSix := by rfl
  have h2 : (Device.toStage { s2 with pond := { s2.pond with repairs := l' } } 7) = s1.repaired l := by rfl
  clear_value s1
  subst h1
  split
  · exact .inl ⟨_, Device.startFail_early hearly ..⟩
  · split
    · exact .inl ⟨_, Device.startFail_early hearly ..⟩
    · exact .inr ⟨l, h2⟩

theorem Device.repaired_keeps {β : Type} (v : Device → β)
    (hwr : ∀ (s : Device) (d : Nat) (f : Fld) (x : Nat), f.inMap ∧ f.blk = 2 → v (s.wr d f x) = v s)
    (hpond : ∀ (s : Device) (p : PondSt), v (({ s with pond := p }).toStage 7) = v s) (s : Device) (l : List Nat) : v (s.repaired l) = v s :=
  (hpond _ _).trans (foldl_keeps v _ (fun s d => (hwr _ d _ _ (by decide)).trans (hwr s d _ _ (by decide))) _ s)

theorem Device.rd_stepSix {f : Fld} (hf : f.inMap ∧ f.blk ≠ 2 ∧ f.blk ≠ 24) (s : Device) (e : Nat) : s.stepSix.rd e f = s.rd e f := by
  obtain ⟨hmap, hpond, heft⟩ := hf
  have hstage : ∀ (t : Device) (n : Nat), (t.toStage n).rd e f = t.rd e f := fun t n => Device.rd_wr_elsewhere ⟨hmap, by decide, .inl heft⟩
  have hsix : s.atSix.rd e f = s.rd e f := by rw [Device.atSix, Device.rd_setEft, hstage]
  rcases s.stepSix_cases with ⟨i, hi⟩ | ⟨l, hr⟩
  · rw [hi, Device.rd_failRecorded ⟨hmap, .inl heft⟩, hsix]
  · rw [hr, Device.repaired_keeps (·.rd e f) (fun t d g x hg => Device.rd_wr_elsewhere ⟨hmap, hg.1, .inl fun h => hpond (h.trans hg.2)⟩)
      (fun t p => hstage _ 7), hsix]

theorem Device.stepSix_idle (s : Device) : s.stepSix.idleSince s := by
  have hstage : (s.toStage 6).idleSince s := ⟨rfl, rfl, rfl⟩
  have hsix : s.atSix.idleSince s := hstage.setEft _
  rcases s.stepSix_cases with ⟨i, hi⟩ | ⟨l, hr⟩
  · rw [hi]
    exact (Device.failRecorded_idle ..).trans hsix
  · have hview := Device.repaired_keeps (fun t : Device => (t.mem, t.regReqs, t.regul)) (fun _ _ _ _ _ => rfl) (fun _ _ => rfl) s.atSix l
    simp only [Prod.mk.injEq] at hview
    rw [hr]
    exact Device.idleSince.trans hview hsix

/-- What LP5X_STATUS of a die shows once its channel is trained. -/
def Device.lpShown (s : Device) (rate : Nat) (differ : Bool) (cap d : Nat) : Device :=
  (((s.wr d LP5X_STATUS_CAP_GIB cap).set d LP5X_STATUS_TRAINED).wr d LP5X_STATUS_RATE_ACT rate).wr d LP5X_STATUS_MISMATCH (b2n differ)

/-- LP5X that trains is shown on every die and mapped, and step 6 follows. -/
theorem lpTrainingBody_ok {s : Device} (caps : List Nat) (hin : s.inStart = true) (hstage : s.stage = 5) : ∃ rate differ gib,
    lpTrainingBody true caps s =
      (((List.range 4).foldl (fun s d => s.lpShown rate differ (wd caps d) d) s).wr 0 LP5X_MAPPED_MAPPED_GIB gib).stepSix := by
  rw [lpTrainingBody, if_neg (not_not.mpr ⟨hin, hstage⟩)]
  extract_lets rate least differ s1
  have h1 : s1 = (List.range 4).foldl (fun s d => s.lpShown rate differ (wd caps d) d) s := by rfl
  rw [if_neg (not_not.mpr rfl), h1]
  exact ⟨rate, differ, _, congrArg Device.stepSix rfl⟩

/-- A die whose channel has trained shows so, with its capacity. -/
def Device.showsTrained (s : Device) (cap die : Nat) : Prop := s.on die LP5X_STATUS_TRAINED = true ∧ s.rd die LP5X_STATUS_CAP_GIB = cap

theorem Device.showsTrained_lpShown (s : Device) (rate : Nat) (differ : Bool) {cap : Nat} (h : cap < 64) (die : Nat) :
    (s.lpShown rate differ cap die).showsTrained cap die := by
  simp (disch := decide) only [Device.showsTrained, Device.lpShown, Device.on, Device.set, Device.rd_wr_elsewhere, Device.rd_wr_same]
  exact ⟨by decide, Nat.mod_eq_of_lt h⟩

theorem Device.showsTrained.lpShown {s : Device} {cap die : Nat} (h : s.showsTrained cap die) (rate : Nat) (differ : Bool) (c : Nat) {d : Nat}
    (hd : d ≠ die) : (s.lpShown rate differ c d).showsTrained cap die := by
  simp (disch := decide) only [Device.showsTrained, Device.lpShown, Device.on, Device.set, Device.rd_wr_otherDie hd.symm]
  exact h

/-- The clause of O11 on a training that succeeds. -/
theorem lp5xTrainingDone_shows {s : State} (hs : s.dev.sound) (caps : List Nat) (hin : s.dev.inStart = true)
    (hstage : s.dev.rd 0 EFT_BOOT_STATUS_STAGE = 5) {k : Nat} (hk : k < 4) (hcap : wd caps k < 64) : runs (.lp5xTrainingDone true caps) s fun d =>
      d.on k LP5X_STATUS_TRAINED = true ∧ d.rd k LP5X_STATUS_CAP_GIB = wd caps k ∧ keepsMem s.dev d := by
  obtain ⟨rate, differ, gib, hbody⟩ := lpTrainingBody_ok caps hin hstage
  have hshown : ((List.range 4).foldl (fun s d => s.lpShown rate differ (wd caps d) d) s.dev).showsTrained (wd caps k) k :=
    foldl_around (P := fun _ => True) (Q := fun t : Device => t.showsTrained (wd caps k) k) (List.mem_range.mpr hk) List.nodup_range trivial
      (fun _ _ _ _ => trivial) (fun t _ => Device.showsTrained_lpShown t rate differ hcap k) (fun t ht d hd => ht.lpShown rate differ _ hd)
  have hview := foldl_keeps (fun t : Device => (t.mem, t.regReqs, t.regul)) (fun s d => s.lpShown rate differ (wd caps d) d) (fun _ _ => rfl)
    (List.range 4) s.dev
  generalize (List.range 4).foldl (fun s d => s.lpShown rate differ (wd caps d) d) s.dev = t at hbody hshown hview
  simp only [Prod.mk.injEq] at hview
  have hidle := (Device.stepSix_idle _).trans (Device.idleSince.wr hview 0 LP5X_MAPPED_MAPPED_GIB gib)
  have hrd : ∀ f : Fld, f.elsewhere LP5X_MAPPED_MAPPED_GIB ∧ f.blk ≠ 2 ∧ f.blk ≠ 24 →
      ((t.wr 0 LP5X_MAPPED_MAPPED_GIB gib).stepSix).rd k f = t.rd k f := fun f hf =>
    (Device.rd_stepSix ⟨hf.1.1, hf.2⟩ _ k).trans (Device.rd_wr_elsewhere hf.1)
  have htrained := hrd LP5X_STATUS_TRAINED (by decide)
  have hgib := hrd LP5X_STATUS_CAP_GIB (by decide)
  generalize (t.wr 0 LP5X_MAPPED_MAPPED_GIB gib).stepSix = d at hbody hidle htrained hgib
  exact ⟨_, exec_of_body hs rfl hbody hidle, rfl, (congrArg (fun v => decide (v ≠ 0)) htrained).trans hshown.1, hgib.trans hshown.2,
    hidle.keepsMem⟩

/-! ### The wipes (R79, R84) -/

theorem SMap.get_filter_keys {V : Type} (d : V) (p : Nat → Bool) (m : SMap V) (k : Nat) :
    SMap.get d (m.filter fun e => p e.1) k = if p k then SMap.get d m k else d := by
  induction m with
  | nil => exact (ite_self _).symm
  | cons e r ih =>
    obtain ⟨a, v⟩ := e
    rw [List.filter_cons]
    by_cases hk : a = k
    · subst hk
      cases hp : p a <;> simp [SMap.get, hp, ih]
    · cases hp : p a <;> simp [SMap.get, hk, ih]

/-- A wiped range reads 0, and every other byte as before. -/
theorem Device.byte_wipeRange (s : Device) (lo hi a : Nat) :
    (s.wipeRange lo hi).byte a = if lo ≤ a ∧ a < hi then 0 else s.byte a := by
  rw [Device.byte, Device.wipeRange, SMap.get_filter_keys (0 : Byte) (fun k => !(decide (lo ≤ k) && decide (k < hi)))]
  by_cases h : lo ≤ a ∧ a < hi
  · simp [h]
  · rw [if_neg h, if_pos (by simp; omega), Device.byte]

theorem Device.byte_wipeDie (s : Device) (die a : Nat) : (s.wipeDie die).byte a =
    if (die * pondDieBytes ≤ a ∧ a < (die + 1) * pondDieBytes) ∨
      (storeBase + die * storeDieBytes ≤ a ∧ a < storeBase + (die + 1) * storeDieBytes) then 0 else s.byte a := by
  have hwipe : (s.wipeDie die).byte a = ((s.wipeRange (die * pondDieBytes) ((die + 1) * pondDieBytes)).wipeRange
      (storeBase + die * storeDieBytes) (storeBase + (die + 1) * storeDieBytes)).byte a := rfl
  rw [hwipe, Device.byte_wipeRange, Device.byte_wipeRange]
  split_ifs <;> tauto

/-- The wipe of a die's memory, before POND shows it. -/
def Device.wipedMem (s : Device) (die : Nat) : Device :=
  let s1 := (s.wipeRange (die * pondDieBytes) ((die + 1) * pondDieBytes)).wipeRange (storeBase + die * storeDieBytes)
    (storeBase + (die + 1) * storeDieBytes)
  { s1 with pond := { s1.pond with fixq := SMap.put [] s1.pond.fixq die [], scrubLeft := SMap.put 0 s1.pond.scrubLeft die 0 } }

theorem Device.wipeDie_eq (s : Device) (die : Nat) :
    s.wipeDie die = ((s.wipedMem die).clr die POND_SCRUB_POS_LINE).set die POND_STATUS_WIPE_DONE := by rfl

theorem Device.keepsFields_wipeDie (s : Device) (die : Nat) :
    keepsFields s (s.wipeDie die) [(die, POND_STATUS_WIPE_DONE), (die, POND_SCRUB_POS_LINE)] := fun e f hf => by
  have hmem : (s.wipedMem die).rd e f = s.rd e f := rfl
  rw [Device.wipeDie_eq, Device.set, Device.clr, Device.rd_wr_ne _ _ _ _ _ _ (hf (die, POND_STATUS_WIPE_DONE) (.head _)),
    Device.rd_wr_ne _ _ _ _ _ _ (hf (die, POND_SCRUB_POS_LINE) (.tail _ (.head _))), hmem]

/-- The wipe of the units' memories leaves every register. -/
theorem Device.rd_wipeUnits (s : Device) (e : Nat) (f : Fld) : s.wipeUnits.rd e f = s.rd e f := rfl
theorem Device.on_wipeUnits (s : Device) (e : Nat) (f : Fld) : s.wipeUnits.on e f = s.on e f := rfl
theorem Device.byte_wipeUnits (s : Device) (a : Nat) : s.wipeUnits.byte a = s.byte a := rfl

/-- The clause of O11 on a die's wipe, with another die still to come. -/
theorem shedWipeDone_wipes {s : State} (hs : s.dev.sound) (hin : s.dev.inStart = true) {die other : Nat} (ho : other < 4) (hne : other ≠ die)
    (hstage : s.dev.rd 0 EFT_BOOT_STATUS_STAGE = 7) (hleft : s.dev.on other POND_STATUS_WIPE_DONE = false) :
    runs (.shedWipeDone die) s fun d =>
      d.on die POND_STATUS_WIPE_DONE = true ∧ d.disp.rings = [] ∧ d.disp.sync = [] ∧ d.xlate.tlb = [] ∧ d.host.l1 = [] ∧ d.host.l2 = [] ∧
      keepsFields s.dev d [(die, POND_STATUS_WIPE_DONE), (die, POND_SCRUB_POS_LINE)] ∧
      ∀ a, d.byte a = if (die * pondDieBytes ≤ a ∧ a < (die + 1) * pondDieBytes) ∨
        (storeBase + die * storeDieBytes ≤ a ∧ a < storeBase + (die + 1) * storeDieBytes) then 0 else s.dev.byte a := by
  have hfields := s.dev.keepsFields_wipeDie die
  have hbytes := s.dev.byte_wipeDie die
  have hdone : (s.dev.wipeDie die).on die POND_STATUS_WIPE_DONE = true := Device.on_wr_same ..
  have hrequests : (s.dev.wipeDie die).requests = s.dev.requests := by rfl
  have hbody : shedWipeBody die s.dev = (let s1 := (s.dev.wipeDie die).wipeUnits
      if (List.range 4).all fun d => s1.on d POND_STATUS_WIPE_DONE then (s1.toStage 8).weightsGo 0 0 s1.weightFuel else s1) :=
    if_neg (not_not.mpr ⟨hin, hstage⟩)
  generalize s.dev.wipeDie die = t at hfields hbytes hdone hrequests hbody
  have hother : t.on other POND_STATUS_WIPE_DONE = false := by
    rw [← hleft, Device.on, Device.on, hfields other POND_STATUS_WIPE_DONE]
    intro x hx
    obtain rfl | rfl := List.mem_pair.mp hx
    · exact Fld.key_ne_of_dies (f := POND_STATUS_WIPE_DONE) (g := POND_STATUS_WIPE_DONE) (by decide) (by decide) hne
    · exact Fld.key_ne_of_inMap (f := POND_STATUS_WIPE_DONE) (g := POND_SCRUB_POS_LINE) (by decide) (by decide) (by decide) other die
  have hopen : ((List.range 4).all fun d => t.wipeUnits.on d POND_STATUS_WIPE_DONE) = false :=
    List.all_eq_false.mpr ⟨other, List.mem_range.mpr ho, by rw [Device.on_wipeUnits, hother]; exact Bool.false_ne_true⟩
  dsimp only at hbody
  rw [if_neg (by rw [hopen]; exact Bool.false_ne_true)] at hbody
  refine runs_of_requests (f := shedWipeBody die) hs rfl (by rw [hbody]; exact hrequests) ?_
  rw [hbody]
  refine ⟨?_, rfl, rfl, rfl, rfl, rfl, fun e f hf => ?_, fun a => ?_⟩
  · rw [Device.on, Device.canon_rd, Device.rd_wipeUnits]; exact hdone
  · rw [Device.canon_rd, Device.rd_wipeUnits, hfields e f hf]
  · rw [Device.canon_byte, Device.byte_wipeUnits, hbytes]

/-- The clause of O11 on the wipe of LP5X. -/
theorem lp5xWipeDone_wipes {s : State} (hs : s.dev.sound) (hin : s.dev.inStart = true) (hstage : 8 ≤ s.dev.rd 0 EFT_BOOT_STATUS_STAGE)
    (hleft : s.dev.pond.lpWiped = false) : runs .lp5xWipeDone s fun d => d.pond.lpWiped = true ∧ d.regs = s.dev.regs ∧
      ∀ a, d.byte a = if lpBase ≤ a ∧ a < lpBase + 2 ^ 37 then 0 else s.dev.byte a := by
  have hbody : lpWipeBody s.dev = s.dev.wipeLp := if_pos ⟨hin, hstage, by simp [hleft]⟩
  refine runs_of_requests (f := lpWipeBody) hs rfl (by rw [hbody]; rfl) ?_
  rw [hbody]
  exact ⟨rfl, rfl, fun a => (Device.canon_byte ..).trans (s.dev.byte_wipeRange lpBase (lpBase + 0x2000000000) a)⟩

/-! ### WEIGHTS sections (R397) -/

/-- A view of the device that no byte's write changes is left by the placing of bytes. -/
theorem Device.weightPut_keeps {β : Type} {v : Device → β} (hv : ∀ (s : Device) (a x : Nat), v (s.setByte a x) = v s) (s : Device)
    (e : List Nat) (k : Nat) (l : List Nat) : v (s.weightPut e k l) = v s :=
  foldl_keeps v _ (fun s _ => hv s _ _) _ s

/-- Bytes outside those placed read as before. -/
theorem Device.byte_weightPut_ne (s : Device) {e l : List Nat} {k a : Nat} (h : ∀ i < l.length, a ≠ weightAddr e (k + i)) :
    (s.weightPut e k l).byte a = s.byte a :=
  List.foldlRecOn (motive := fun t : Device => t.byte a = s.byte a) (List.range l.length) _ rfl fun t ht i hi =>
    (Device.byte_setByte_ne t _ (h i (List.mem_range.mp hi))).trans ht

/-- The last byte placed stands. -/
theorem Device.byte_weightPut_last (s : Device) (e : List Nat) (k : Nat) {l : List Nat} (h : l ≠ []) :
    (s.weightPut e k l).byte (weightAddr e (k + (l.length - 1))) = wd l (l.length - 1) % 256 := by
  obtain ⟨n, hn⟩ : ∃ n, l.length = n + 1 := Nat.exists_eq_succ_of_ne_zero fun h0 => h (List.length_eq_zero_iff.mp h0)
  rw [Device.weightPut, hn, List.range_succ, List.foldl_append]
  exact Device.byte_setByte_same ..

/-- The clause of O11 on a source that ends with bytes, with more of the section to come. -/
theorem nvmeReadComplete_places {s : State} (hs : s.dev.sound) {w : WeightLoad} {e b : List Nat} (hw : s.dev.eft.weights = some w)
    (he : s.dev.eft.entries.getD w.idx [] = e) (hsrc : srcOf e w.src = 1) (hb : b ≠ []) (hlen : b.length ≤ 0x20000)
    (hmore : w.done + b.length < meLength e) : runs (.nvmeReadComplete (.data b)) s fun d =>
      d.eft.weights = some { w with done := w.done + b.length } ∧ d.regs = s.dev.regs ∧
      d.byte (weightAddr e (w.done + (b.length - 1))) = wd b (b.length - 1) % 256 ∧
      ∀ a, (∀ i < b.length, a ≠ weightAddr e (w.done + i)) → d.byte a = s.dev.byte a := by
  have hk : min b.length (meLength e - w.done) = b.length := Nat.min_eq_left (by omega)
  have hbody : nvmeBody (.data b) s.dev = (s.dev.weightPut e w.done b).setEft
      { (s.dev.weightPut e w.done b).eft with weights := some { w with done := w.done + b.length } } := by
    simp only [nvmeBody, hw, he, hsrc, Device.weightsTake, List.take_of_length_le hlen, hk, List.take_length, hmore]
    simp
  have hregs : (s.dev.weightPut e w.done b).regs = s.dev.regs := Device.weightPut_keeps (fun _ _ _ => rfl) ..
  have hlast := s.dev.byte_weightPut_last e w.done hb
  have hrest := fun a => s.dev.byte_weightPut_ne (e := e) (l := b) (k := w.done) (a := a)
  have hrequests : (s.dev.weightPut e w.done b).requests = s.dev.requests := Device.weightPut_keeps (fun _ _ _ => rfl) ..
  refine runs_of_requests (f := nvmeBody (.data b)) hs rfl (by rw [hbody]; exact hrequests) ?_
  rw [hbody]
  exact ⟨rfl, hregs, (Device.canon_byte ..).trans hlast, fun a ha => (Device.canon_byte ..).trans (hrest a ha)⟩

/-- A start that has failed does not go on with its loads. -/
theorem Device.afterLoad_of_failed {s : Device} (h : s.on 0 EFT_BOOT_STATUS_FAILED = true) : s.afterLoad = s :=
  if_neg fun hin => absurd hin.1 (by simp [Device.inStart, h])

/-- A WEIGHTS section without a source left fails the start. -/
theorem Device.weightsGo_noSource {s : Device} {idx : Nat} {e : List Nat} (he : s.eft.entries[idx]? = some e) (hkind : meKind e = 5) (n : Nat) :
    s.weightsGo idx 2 (n + 1) = (s.toStage 9).startFail bxWEIGHTS idx noBlk (lastSrc e) := by
  rw [Device.weightsGo, he]
  exact (if_neg (not_not.mpr hkind)).trans (if_pos (Nat.le_refl 2))

/-- The clause of O11 on a source that times out with none after it. -/
theorem weightsSourceTimeout_fails {s : State} (hs : s.dev.sound) {w : WeightLoad} {e : List Nat} (hw : s.dev.eft.weights = some w)
    (he : s.dev.eft.entries[w.idx]? = some e) (hkind : meKind e = 5) (hsrc : w.src = 1) (hthree : srcOf e 1 ≠ 3) :
    runs .weightsSourceTimeout s fun d => d.on 0 EFT_BOOT_STATUS_FAILED = true ∧ d.rd 0 EFT_BOOT_ERR_REASON = 0xB ∧
      d.rd 0 EFT_BOOT_STATUS_STAGE = 9 ∧ d.eft.weights = none := by
  have hshows := (s.dev.toStage 9).startFail_shows bxWEIGHTS w.idx noBlk (lastSrc e)
  have hstage : ((s.dev.toStage 9).startFail bxWEIGHTS w.idx noBlk (lastSrc e)).rd 0 EFT_BOOT_STATUS_STAGE = 9 :=
    (Device.rd_startFail_unfailed (by decide) ..).trans (Device.rd_wr_same ..)
  have hweights := (s.dev.toStage 9).weights_startFail bxWEIGHTS w.idx noBlk (lastSrc e)
  have hrequests := ((s.dev.toStage 9).requests_startFail bxWEIGHTS w.idx noBlk (lastSrc e)).trans (s.dev.requests_toStage 9)
  have hgo : s.dev.weightsGo w.idx (w.src + 1) s.dev.weightFuel = (s.dev.toStage 9).startFail bxWEIGHTS w.idx noBlk (lastSrc e) := by
    rw [hsrc]
    exact Device.weightsGo_noSource he hkind (4 * s.dev.eft.entries.length + 3)
  generalize (s.dev.toStage 9).startFail bxWEIGHTS w.idx noBlk (lastSrc e) = d at hshows hstage hweights hrequests hgo
  have hbody : weightsTimeoutBody s.dev = d := by
    have hentry : s.dev.eft.entries.getD w.idx [] = e := by simp [he]
    rw [weightsTimeoutBody, hw]
    dsimp only
    rw [hentry, hsrc, if_neg hthree, Device.weightsFail, hw]
    dsimp only
    rw [hgo, Device.afterLoad_of_failed hshows.1]
  obtain ⟨hfailed, hreason, -, -⟩ := hshows.canon
  refine runs_of_requests (f := weightsTimeoutBody) hs rfl (by rw [hbody]; exact hrequests) ?_
  rw [hbody]
  exact ⟨hfailed, hreason, (Device.canon_rd ..).trans hstage, hweights⟩

/-! ### The sections of step 8 -/

/-- A section in plain text whose digest is not its manifest entry's is not loaded (R395). -/
theorem Device.loadSection_badDigest {s : Device} {i : Nat} {e : List Nat} (he : s.eft.entries.getD i [] = e) (hplain : meEncrypted e = false)
    (hdigest : sha512 (s.flashBytes (meFlash e) (meLength e)) ≠ meDigest e) : s.loadSection i = (s, some (bxDIGEST, 0)) := by
  have hof : s.sectionOf i = (s.flashBytes (meFlash e) (meLength e), some bxDIGEST) := by
    rw [Device.sectionOf, he, hplain, if_neg Bool.false_ne_true, Bool.false_and, if_neg Bool.false_ne_true, if_pos hdigest]
  rw [Device.loadSection, hof]

/-- The clause of O11 on a section that fails its digest. -/
theorem sectionLoadDone_fails {s : State} (hs : s.dev.sound) (hin : s.dev.inStart = true) (seqs : List (List (List Nat))) {e : List Nat}
    (hstage : s.dev.rd 0 EFT_BOOT_STATUS_STAGE = 8) (hloaded : s.dev.eft.loaded = false) (he : s.dev.eft.entries = [e]) (hkind : meKind e = 1)
    (hlp : meForLp e = false) (hplain : meEncrypted e = false)
    (hdigest : sha512 (s.dev.flashBytes (meFlash e) (meLength e)) ≠ meDigest e) : runs (.sectionLoadDone seqs) s fun d =>
      d.on 0 EFT_BOOT_STATUS_FAILED = true ∧ d.rd 0 EFT_BOOT_ERR_REASON = 6 ∧ d.rd 0 EFT_BOOT_ERR_SECTION = 0 := by
  have hentry : s.dev.eft.entries.getD 0 [] = e := by rw [he]; rfl
  have hload : s.dev.loadSections (List.range s.dev.eft.entries.length) = (s.dev, some (0, bxDIGEST, 0)) := by
    have hrange : List.range s.dev.eft.entries.length = [0] := by rw [he]; rfl
    rw [hrange, Device.loadSections, hentry, hkind, if_neg (by decide), Device.loadSection_badDigest hentry hplain hdigest]
  have hshows := s.dev.startFail_shows bxDIGEST 0 noBlk 0
  have hrequests := s.dev.requests_startFail bxDIGEST 0 noBlk 0
  have hbody : sectionLoadBody seqs s.dev = s.dev.startFail bxDIGEST 0 noBlk 0 := by
    rw [sectionLoadBody, if_neg (by simp [hin, Device.stage, hstage, hloaded, he, hlp]), hload]
  generalize s.dev.startFail bxDIGEST 0 noBlk 0 = d at hshows hrequests hbody
  obtain ⟨hfailed, hreason, hsect, -⟩ := hshows.canon
  refine runs_of_requests (f := sectionLoadBody seqs) hs rfl (by rw [hbody]; exact hrequests) ?_
  rw [hbody]
  exact ⟨hfailed, hreason, hsect⟩

/-! ### Sections that load (R45, R395, R396) -/

theorem Device.requests_putBytes (s : Device) (a : Nat) (l : List Nat) : (s.putBytes a l).requests = s.requests :=
  foldl_keeps Device.requests (fun s i => s.setByte (a + i) (wd l i)) (fun _ _ => rfl) _ s

theorem Device.requests_loadSection (s : Device) (i : Nat) : (s.loadSection i).1.requests = s.requests := by
  unfold Device.loadSection
  extract_lets e n
  generalize s.sectionOf i = x
  obtain ⟨p, _ | r⟩ := x
  · dsimp only
    split
    · split
      · split
        · exact s.requests_putBytes (meDest e) p
        · rfl
      · rfl
    · split
      · rfl
      · exact foldl_keeps Device.requests (fun s k => s.schedStore (meUnit e) (4 * k) (byteNum p (4 * k) 4)) (fun _ _ => rfl) _ s
    · split
      · exact s.requests_putBytes (meDest e) p
      · rfl
    · rfl
  · rfl

theorem Device.requests_loadSections (s : Device) (l : List Nat) : (s.loadSections l).1.requests = s.requests := by
  induction l generalizing s with
  | nil => rfl
  | cons i l ih =>
    have hone := s.requests_loadSection i
    rw [Device.loadSections]
    split
    · exact ih s
    · generalize s.loadSection i = x at hone
      obtain ⟨t, _ | ⟨r, k⟩⟩ := x
      · exact (ih t).trans hone
      · exact hone

/-- A start in progress has not failed. -/
theorem Device.notFailed_of_inStart {s : Device} (h : s.inStart = true) : s.on 0 EFT_BOOT_STATUS_FAILED = false := by
  simp only [Device.inStart, Bool.and_eq_true, Bool.not_eq_true'] at h
  exact h.2

/-- What the end of step 8 does not touch: the requests, Eft's state, and how the start stands. -/
def Device.startView (s : Device) : (List Req × RegulSt) × EftSt × Nat × Nat :=
  (s.requests, s.eft, s.rd 0 EFT_BOOT_STATUS_READY, s.rd 0 EFT_BOOT_STATUS_FAILED)

theorem Device.startView_wr (s : Device) (d : Nat) {f : Fld} (v : Nat) (hf : f.inMap ∧ f.blk ≠ 24) : (s.wr d f v).startView = s.startView := by
  have hready : (s.wr d f v).rd 0 EFT_BOOT_STATUS_READY = s.rd 0 EFT_BOOT_STATUS_READY :=
    Device.rd_wr_elsewhere ⟨by decide, hf.1, .inl (Ne.symm hf.2)⟩
  have hfailed : (s.wr d f v).rd 0 EFT_BOOT_STATUS_FAILED = s.rd 0 EFT_BOOT_STATUS_FAILED :=
    Device.rd_wr_elsewhere ⟨by decide, hf.1, .inl (Ne.symm hf.2)⟩
  rw [Device.startView, hready, hfailed]
  rfl

/-- Whether a start is in progress is in the view. -/
theorem Device.inStart_of_startView {s t : Device} (h : t.startView = s.startView) : t.inStart = s.inStart := by
  simp only [Device.startView, Prod.mk.injEq] at h
  obtain ⟨-, heft, hready, hfailed⟩ := h
  rw [Device.inStart, Device.on, Device.on, heft, hready, hfailed]
  rfl

/-- The header's layout is written to Chorus. -/
theorem Device.startView_layout {s t : Device} (h : s.layoutFromHeader = some t) : t.startView = s.startView := by
  unfold Device.layoutFromHeader at h
  extract_lets x at h
  split at h
  · rw [← Option.some.inj h]
    simp (disch := decide) only [Device.startView_wr]
  · exact nomatch h

theorem Device.startView_markReserved (s : Device) : s.markReserved.startView = s.startView := by
  refine foldl_keeps Device.startView _ (fun s d => ?_) _ s
  extract_lets named cores dma mask
  rw [Device.startView_wr _ _ _ (by decide)]
  exact foldl_wr_keeps (v := Device.startView) (f := CLUSTER_CORE_RSV_RSV) (fun t k x hk => t.startView_wr d x (by
    simp only [CLUSTER_CORE_RSV_RSV, Fld.inMap]; omega)) _ s

theorem Device.startView_setTester (s : Device) (d : Nat) (x : SelfTest) : (s.setTester d x).startView = s.startView := by
  unfold Device.setTester
  extract_lets lanes
  rw [Device.startView_wr _ _ _ (by decide), Device.startView_wr _ _ _ (by decide)]
  rfl

theorem Device.tester_setTester (s : Device) (d e : Nat) (x : SelfTest) : (s.setTester d x).tester e = if e = d then x else s.tester e :=
  SMap.get_put ({} : SelfTest) s.selfTest d e x

/-- Each die's engine holds the sequence that the image carries for it. -/
def Device.seqsLoaded (s : Device) (seqs : List (List (List Nat))) : Device :=
  (List.range 4).foldl (fun s d => s.setTester d { s.tester d with seq := seqs.getD d [] }) s

theorem Device.startView_seqsLoaded (s : Device) (seqs : List (List (List Nat))) : (s.seqsLoaded seqs).startView = s.startView :=
  foldl_keeps Device.startView _ (fun s d => s.startView_setTester d _) _ s

theorem Device.seq_seqsLoaded (s : Device) (seqs : List (List (List Nat))) {die : Nat} (h : die < 4) :
    ((s.seqsLoaded seqs).tester die).seq = seqs.getD die [] :=
  foldl_around (P := fun _ => True) (Q := fun t : Device => (t.tester die).seq = seqs.getD die []) (List.mem_range.mpr h) List.nodup_range trivial
    (fun _ _ _ _ => trivial) (fun t _ => by rw [Device.tester_setTester, if_pos rfl])
    fun t ht d hd => by rw [Device.tester_setTester, if_neg (Ne.symm hd)]; exact ht

/-- The sections of step 8 are in. -/
def Device.setLoaded (s : Device) : Device := s.setEft { s.eft with loaded := true }

theorem Device.inStart_setLoaded (s : Device) : s.setLoaded.inStart = s.inStart := by rfl

/-- A WEIGHTS section that waits for a source other than the flash goes on waiting, and with the sections loaded the device is at step 9. -/
def Device.weightsResumed (s : Device) : Device :=
  (match s.eft.weights with
    | some w => if srcOf (s.eft.entries.getD w.idx []) w.src = 3 then s.weightsGo w.idx w.src s.weightFuel else s
    | none => s).afterLoad

theorem Device.weightsResumed_waiting {s : Device} {w : WeightLoad} (hw : s.eft.weights = some w)
    (hsrc : srcOf (s.eft.entries.getD w.idx []) w.src ≠ 3) (hin : s.inStart = true) (hloaded : s.eft.loaded = true) :
    s.weightsResumed = s.toStage 9 := by
  simp only [Device.weightsResumed, hw]
  rw [if_neg hsrc, Device.afterLoad, if_pos ⟨hin, hloaded⟩, hw]
  rfl

/-- The end of step 8 with nothing refused. -/
theorem sectionLoadBody_ok {s s1 s2 : Device} (seqs : List (List (List Nat))) (hin : s.inStart = true) (hstage : s.stage = 8)
    (hloaded : s.eft.loaded = false) (hlp : s.eft.entries.any meForLp = false)
    (hload : s.loadSections (List.range s.eft.entries.length) = (s1, none)) (hlayout : s1.layoutFromHeader = some s2)
    (hprog : ∀ die < 4, s2.programBad die = none) :
    sectionLoadBody seqs s = ((s2.markReserved.seqsLoaded seqs).setLoaded).weightsResumed := by
  have hfind : ((List.range 4).find? fun d => (s2.programBad d).isSome) = none :=
    List.find?_eq_none.mpr fun d hd => by simp [hprog d (List.mem_range.mp hd)]
  rw [sectionLoadBody, if_neg (by simp [hin, hstage, hloaded, hlp]), hload]
  dsimp only
  rw [hlayout]
  dsimp only
  rw [hfind]
  rfl

/-- The clause of O11 on sections that load. -/
theorem sectionLoadDone_goesOn {s : State} (hs : s.dev.sound) (hin : s.dev.inStart = true) (seqs : List (List (List Nat))) {s1 s2 : Device}
    {w : WeightLoad} (hstage : s.dev.rd 0 EFT_BOOT_STATUS_STAGE = 8) (hloaded : s.dev.eft.loaded = false)
    (hlp : s.dev.eft.entries.any meForLp = false) (hload : s.dev.loadSections (List.range s.dev.eft.entries.length) = (s1, none))
    (hlayout : s1.layoutFromHeader = some s2) (hin1 : s1.inStart = true) (hprog : ∀ die < 4, s2.programBad die = none)
    (hw : s1.eft.weights = some w) (hsrc : srcOf (s1.eft.entries.getD w.idx []) w.src ≠ 3) : runs (.sectionLoadDone seqs) s fun d =>
      d.eft.loaded = true ∧ d.rd 0 EFT_BOOT_STATUS_STAGE = 9 ∧ d.on 0 EFT_BOOT_STATUS_FAILED = false ∧
      ∀ die < 4, (d.tester die).seq = seqs.getD die [] := by
  have hrequests : s1.requests = s.dev.requests := by
    have hall := s.dev.requests_loadSections (List.range s.dev.eft.entries.length)
    rwa [hload] at hall
  have hbody := sectionLoadBody_ok seqs hin hstage hloaded hlp hload hlayout hprog
  have hseq := fun (die : Nat) (hdie : die < 4) => s2.markReserved.seq_seqsLoaded seqs hdie
  have hview : (s2.markReserved.seqsLoaded seqs).startView = s1.startView :=
    ((Device.startView_seqsLoaded ..).trans s2.startView_markReserved).trans (Device.startView_layout hlayout)
  generalize s2.markReserved.seqsLoaded seqs = t at hbody hseq hview
  have hint := (Device.inStart_of_startView hview).trans hin1
  have hfailed : t.on 0 EFT_BOOT_STATUS_FAILED = false := Device.notFailed_of_inStart hint
  simp only [Device.startView, Prod.mk.injEq] at hview
  obtain ⟨hreq, heft, -, -⟩ := hview
  rw [← heft] at hw hsrc
  rw [Device.weightsResumed_waiting (s := t.setLoaded) hw hsrc (t.inStart_setLoaded.trans hint) rfl] at hbody
  refine runs_of_requests (f := sectionLoadBody seqs) hs rfl (by rw [hbody]; exact hreq.trans hrequests) ?_
  rw [hbody]
  refine ⟨rfl, ?_, ?_, hseq⟩
  · rw [Device.canon_rd, Device.toStage, Device.rd_wr_same]
    rfl
  · rw [Device.on, Device.canon_rd, Device.toStage, Device.rd_wr_elsewhere]
    exact hfailed

/-! ### The injection pass (R352) -/

/-- What an island shows of its injection pass. -/
def Device.injected (ok : Bool) (cls time idx : Nat) (s : Device) (i : Nat) : Device :=
  ((((s.set i SAFETY_INJ_STATUS_DONE).wr i SAFETY_INJ_STATUS_PASS (b2n ok)).wr i SAFETY_INJ_STATUS_CLASS cls).wr i
    SAFETY_INJ_STATUS_TIME_100US time).wr i SAFETY_INJ_DETAIL_INDEX idx

/-- The injection pass of an island is done, and passed or not. -/
def Device.showsInjection (s : Device) (ok : Bool) (i : Nat) : Prop :=
  s.on i SAFETY_INJ_STATUS_DONE = true ∧ s.on i SAFETY_INJ_STATUS_PASS = ok

theorem Device.injected_shows (ok : Bool) (cls time idx : Nat) (s : Device) (i : Nat) : (s.injected ok cls time idx i).showsInjection ok i := by
  simp (disch := decide) only [Device.showsInjection, Device.injected, Device.on, Device.set, Device.rd_wr_elsewhere, Device.rd_wr_same]
  cases ok <;> decide

theorem Device.showsInjection.injected {s : Device} {ok : Bool} {i : Nat} (h : s.showsInjection ok i) (cls time idx : Nat) {j : Nat} (hj : j ≠ i) :
    (s.injected ok cls time idx j).showsInjection ok i := by
  simp (disch := decide) only [Device.showsInjection, Device.injected, Device.on, Device.set, Device.rd_wr_otherDie hj.symm]
  exact h

theorem Device.rd_injected {f : Fld} (hf : f.inMap ∧ f.blk ≠ 21) (ok : Bool) (cls time idx : Nat) (s : Device) (i e : Nat) :
    (s.injected ok cls time idx i).rd e f = s.rd e f := by
  have hwr : ∀ (t : Device) (g : Fld) (v : Nat), g.inMap ∧ g.blk = 21 → (t.wr i g v).rd e f = t.rd e f := fun t g v hg =>
    Device.rd_wr_elsewhere ⟨hf.1, hg.1, .inl fun h => hf.2 (h.trans hg.2)⟩
  simp (disch := decide) only [Device.injected, Device.set, hwr]

/-- The pass of both islands: what they show, and what it leaves. -/
theorem Device.foldl_injected (ok : Bool) (cls time idx : Nat) (s : Device) : ∃ t : Device,
    [0, 1].foldl (Device.injected ok cls time idx) s = t ∧ (∀ i < 2, t.showsInjection ok i) ∧
    (∀ f : Fld, f.inMap ∧ f.blk ≠ 21 → ∀ e, t.rd e f = s.rd e f) ∧ t.requests = s.requests := by
  refine ⟨_, rfl, fun i hi => ?_, fun f hf e => foldl_keeps (·.rd e f) _ (fun t j => Device.rd_injected hf ..) _ s,
    foldl_keeps Device.requests (Device.injected ok cls time idx) (fun _ _ => rfl) _ s⟩
  exact foldl_around (P := fun _ => True) (Q := fun t : Device => t.showsInjection ok i) (by simp; omega) (by decide) trivial
    (fun _ _ _ _ => trivial) (fun t _ => Device.injected_shows ok cls time idx t i) (fun t ht j hj => ht.injected cls time idx hj)

theorem injectionBody_failed {s : Device} (hin : s.inStart = true) (hstage : s.stage = 11) (x : Nat × Nat) (time : Nat) :
    injectionBody (some x) time s = ([0, 1].foldl (Device.injected false x.1 time x.2) s).startFail bxINJECTION noSect noBlk 0 :=
  if_neg (not_not.mpr ⟨hin, hstage⟩)

theorem injectionBody_passed {s : Device} (hin : s.inStart = true) (hstage : s.stage = 11) {time : Nat} (ht : time ≤ 400)
    (hgptp : ([0, 1].foldl (Device.injected true 0 time 0) s).on 0 CHORUS_CTL_GPTP_EN = true) :
    injectionBody none time s = ([0, 1].foldl (Device.injected true 0 time 0) s).toStage 12 := by
  have hok : (Option.isNone (none : Option (Nat × Nat)) && decide (time ≤ 400)) = true := by simp [ht]
  rw [injectionBody, if_neg (not_not.mpr ⟨hin, hstage⟩), hok]
  exact (if_neg (not_not.mpr rfl)).trans (if_pos hgptp)

/-- The clause of O11 on a checker that stays silent. -/
theorem injectionPassDone_fails {s : State} (hs : s.dev.sound) (hin : s.dev.inStart = true) (x : Nat × Nat) (time : Nat)
    (hstage : s.dev.rd 0 EFT_BOOT_STATUS_STAGE = 11) : runs (.injectionPassDone (some x) time) s fun d =>
      d.on 0 EFT_BOOT_STATUS_FAILED = true ∧ d.rd 0 EFT_BOOT_ERR_REASON = 0xC ∧
      (∀ i < 2, d.on i SAFETY_INJ_STATUS_DONE = true ∧ d.on i SAFETY_INJ_STATUS_PASS = false) := by
  obtain ⟨t, ht, hinj, -, hreq⟩ := Device.foldl_injected false x.1 time x.2 s.dev
  have hbody := injectionBody_failed hin hstage x time
  rw [ht] at hbody
  have hshows := t.startFail_shows bxINJECTION noSect noBlk 0
  have hrequests := (t.requests_startFail bxINJECTION noSect noBlk 0).trans hreq
  have hrd := fun (f : Fld) (hf : f.unfailed ∧ f.blk ≠ 2) => Device.rd_startFail_unfailed hf t bxINJECTION noSect noBlk 0
  generalize t.startFail bxINJECTION noSect noBlk 0 = d at hbody hshows hrequests hrd
  have hkept : ∀ i < 2, d.showsInjection false i := fun i hi => by
    rw [Device.showsInjection, Device.on, Device.on, hrd SAFETY_INJ_STATUS_DONE (by decide), hrd SAFETY_INJ_STATUS_PASS (by decide)]
    exact hinj i hi
  obtain ⟨hfailed, hreason, -, -⟩ := hshows.canon
  refine runs_of_requests (f := injectionBody (some x) time) hs rfl (by rw [hbody]; exact hrequests) ?_
  rw [hbody]
  exact ⟨hfailed, hreason, hkept⟩

/-- The clause of O11 on a pass in time, with gPTP enabled. -/
theorem injectionPassDone_goesOn {s : State} (hs : s.dev.sound) (hin : s.dev.inStart = true) {time : Nat} (htime : time ≤ 400)
    (hstage : s.dev.rd 0 EFT_BOOT_STATUS_STAGE = 11) (hgptp : s.dev.on 0 CHORUS_CTL_GPTP_EN = true) :
    runs (.injectionPassDone none time) s fun d =>
      d.rd 0 EFT_BOOT_STATUS_STAGE = 12 ∧ d.on 0 EFT_BOOT_STATUS_FAILED = false ∧
      (∀ i < 2, d.on i SAFETY_INJ_STATUS_DONE = true ∧ d.on i SAFETY_INJ_STATUS_PASS = true) := by
  have hbody := injectionBody_passed hin hstage htime
  obtain ⟨t, ht, hinj, hrd, hrequests⟩ := Device.foldl_injected true 0 time 0 s.dev
  rw [ht] at hbody
  have hfailed : t.on 0 EFT_BOOT_STATUS_FAILED = false := by
    rw [Device.on, hrd _ (by decide)]
    exact Device.notFailed_of_inStart hin
  specialize hbody (by rw [Device.on, hrd _ (by decide)]; exact hgptp)
  refine runs_of_requests (f := injectionBody none time) hs rfl (by rw [hbody]; exact hrequests) ?_
  rw [hbody]
  simp (disch := decide) only [Device.on, Device.canon_rd, Device.toStage, Device.rd_wr_same, Device.rd_wr_elsewhere]
  exact ⟨rfl, hfailed, hinj⟩

/-! ### Step 13 (R389, R370, R398) -/

/-- The first grant (R370) writes registers of Bask and sets voltages. -/
theorem Device.firstGrant_keeps {β : Type} {v : Device → β}
    (hwr : ∀ (s : Device) (d : Nat) (g : Fld) (x : Nat), g.inMap ∧ g.blk = 23 → v (s.wr d g x) = v s)
    (hvolt : ∀ (s : Device) (d op : Nat), v (s.setVolt d op) = v s) (s : Device) : v s.firstGrant = v s :=
  foldl_keeps v _ (fun s d => (hwr _ d _ _ (by decide)).trans ((hvolt _ d _).trans (hwr s d _ _ (by decide)))) _ s

theorem Device.rd_setVolt (s : Device) (die op e : Nat) (f : Fld) : (s.setVolt die op).rd e f = s.rd e f := by
  unfold Device.setVolt
  extract_lets x
  split <;> rfl

theorem Device.requests_setVolt (s : Device) (die op : Nat) : (s.setVolt die op).requests = s.requests := by
  unfold Device.setVolt
  extract_lets x
  split <;> rfl

theorem Device.rd_firstGrant {f : Fld} (hf : f.inMap ∧ f.blk ≠ 23) (s : Device) (e : Nat) : s.firstGrant.rd e f = s.rd e f :=
  Device.firstGrant_keeps (v := (·.rd e f)) (fun _ _ _ _ hg => Device.rd_wr_elsewhere ⟨hf.1, hg.1, .inl fun h => hf.2 (h.trans hg.2)⟩)
    (fun s d op => s.rd_setVolt d op e f) s

theorem Device.requests_firstGrant (s : Device) : s.firstGrant.requests = s.requests :=
  Device.firstGrant_keeps (fun _ _ _ _ _ => rfl) Device.requests_setVolt s

/-- An island in START: its mode, its Tail's state, and its Tail active. -/
def Device.islandStart (s : Device) (i : Nat) : Device :=
  ((s.clr i SAFETY_STATUS_MODE).wr i SAFETY_STATUS_TAIL_STATE 3).set i SAFETY_STATUS_TAIL_ACTIVE

theorem Device.islandsStart_eq (s : Device) : s.islandsStart =
    ((([0, 1].foldl Device.islandStart s).tailActive).wr 0 FUSION_STATUS_LEVEL 4).wr 0 FUSION_STATUS_F4_CAUSE 1 := by rfl

/-- An island shows START with the Tail SAFE_OFF (R345). -/
def Device.showsStart (s : Device) (i : Nat) : Prop := s.rd i SAFETY_STATUS_MODE = 0 ∧ s.rd i SAFETY_STATUS_TAIL_STATE = 3

theorem Device.islandStart_shows (s : Device) (i : Nat) : (s.islandStart i).showsStart i := by
  simp (disch := decide) only [Device.showsStart, Device.islandStart, Device.set, Device.clr, Device.rd_wr_elsewhere, Device.rd_wr_same]
  decide

theorem Device.showsStart.islandStart {s : Device} {i : Nat} (h : s.showsStart i) {j : Nat} (hj : j ≠ i) : (s.islandStart j).showsStart i := by
  simp (disch := decide) only [Device.showsStart, Device.islandStart, Device.set, Device.clr, Device.rd_wr_otherDie hj.symm]
  exact h

theorem Device.rd_islandStart {f : Fld} (hf : f.inMap ∧ f.blk ≠ 21) (s : Device) (i e : Nat) : (s.islandStart i).rd e f = s.rd e f := by
  have hwr : ∀ (t : Device) (g : Fld) (v : Nat), g.inMap ∧ g.blk = 21 → (t.wr i g v).rd e f = t.rd e f := fun t g v hg =>
    Device.rd_wr_elsewhere ⟨hf.1, hg.1, .inl fun h => hf.2 (h.trans hg.2)⟩
  simp (disch := decide) only [Device.islandStart, Device.set, Device.clr, hwr]

theorem Device.rd_tailActive {f : Fld} (hf : f.inMap ∧ f.blk ≠ 17) (s : Device) (e : Nat) : s.tailActive.rd e f = s.rd e f :=
  foldl_keeps (·.rd e f) _ (fun _ _ => Device.rd_wr_elsewhere ⟨hf.1, by decide, .inl hf.2⟩) _ s

theorem Device.tailActive_shows (s : Device) {die : Nat} (h : die < 4) : s.tailActive.on die REFLEX_CTRL_STATUS_TAIL_ACTIVE = true :=
  foldl_around (P := fun _ => True) (Q := fun t : Device => t.on die REFLEX_CTRL_STATUS_TAIL_ACTIVE = true) (List.mem_range.mpr h)
    List.nodup_range trivial (fun _ _ _ _ => trivial) (fun _ _ => Device.on_wr_same ..)
    fun t ht d hd => (congrArg (fun v => decide (v ≠ 0)) (Device.rd_wr_otherDie (Ne.symm hd) (by decide) (by decide))).trans ht

theorem Device.requests_islandsStart (s : Device) : s.islandsStart.requests = s.requests := by
  rw [Device.islandsStart_eq, Device.requests_wr, Device.requests_wr, Device.tailActive,
    foldl_keeps Device.requests (fun s d => s.set d REFLEX_CTRL_STATUS_TAIL_ACTIVE) fun _ _ => rfl,
    foldl_keeps Device.requests Device.islandStart fun _ _ => rfl]

theorem Device.rd_islandsStart {f : Fld} (hf : f.inMap ∧ f.blk ≠ 17 ∧ f.blk ≠ 19 ∧ f.blk ≠ 21) (s : Device) (e : Nat) :
    s.islandsStart.rd e f = s.rd e f := by
  obtain ⟨hmap, hreflex, hfusion, hsafety⟩ := hf
  have hwr : ∀ (t : Device) (g : Fld) (v : Nat), g.inMap ∧ g.blk = 19 → (t.wr 0 g v).rd e f = t.rd e f := fun t g v hg =>
    Device.rd_wr_elsewhere ⟨hmap, hg.1, .inl fun h => hfusion (h.trans hg.2)⟩
  rw [Device.islandsStart_eq, hwr _ _ _ (by decide), hwr _ _ _ (by decide), Device.rd_tailActive ⟨hmap, hreflex⟩]
  exact foldl_keeps (·.rd e f) _ (fun t i => Device.rd_islandStart ⟨hmap, hsafety⟩ t i e) _ s

/-- The islands' START shows on both islands, and on every die. -/
theorem Device.islandsStart_shows (s : Device) :
    (∀ i < 2, s.islandsStart.showsStart i) ∧ ∀ die < 4, s.islandsStart.on die REFLEX_CTRL_STATUS_TAIL_ACTIVE = true := by
  have hisland : ∀ i < 2, ([0, 1].foldl Device.islandStart s).showsStart i := fun i hi =>
    foldl_around (P := fun _ => True) (Q := fun t : Device => t.showsStart i) (by simp; omega) (by decide) trivial
      (fun _ _ _ _ => trivial) (fun t _ => t.islandStart_shows i) (fun t ht j hj => ht.islandStart hj)
  rw [Device.islandsStart_eq]
  generalize [0, 1].foldl Device.islandStart s = t at hisland
  simp (disch := decide) only [Device.showsStart, Device.on, Device.rd_wr_elsewhere, Device.rd_tailActive]
  exact ⟨hisland, fun die hdie => t.tailActive_shows hdie⟩

/-- The registers that the reflex units start from are those of slots, limits and programs (R309, R323, R295). -/
theorem Device.reflexStart_keeps {β : Type} {v : Device → β}
    (hwr : ∀ (s : Device) (d : Nat) (g : Fld) (x : Nat), g.inMap ∧ (g.blk = 16 ∨ g.blk = 17 ∧ 0x100 ≤ g.off) → v (s.wr d g x) = v s)
    (s : Device) : v s.reflexStart = v s := by
  have hslot := fun (d : Nat) => foldl_wr_keeps (n := 128) (f := REFLEX_CTRL_SLOT_STATUS_EN) fun s k x hk =>
    hwr s d _ x ⟨⟨by simp [REFLEX_CTRL_SLOT_STATUS_EN], by simp [REFLEX_CTRL_SLOT_STATUS_EN]; omega, by simp [REFLEX_CTRL_SLOT_STATUS_EN]⟩,
      .inr ⟨rfl, by simp [REFLEX_CTRL_SLOT_STATUS_EN]⟩⟩
  have hlimit := fun (d : Nat) => foldl_wr_keeps (n := 16) (f := REFLEX_CTRL_LIM_LAST_VALUE) fun s k x hk =>
    hwr s d _ x ⟨⟨by simp [REFLEX_CTRL_LIM_LAST_VALUE], by simp [REFLEX_CTRL_LIM_LAST_VALUE]; omega, by simp [REFLEX_CTRL_LIM_LAST_VALUE]⟩,
      .inr ⟨rfl, by simp [REFLEX_CTRL_LIM_LAST_VALUE]; omega⟩⟩
  have hprog := fun (d : Nat) => foldl_wr_keeps (n := 16) (f := REFLEX_SOLVE_PROG_STATE_FACTOR) fun s k x hk =>
    hwr s d _ x ⟨⟨by simp [REFLEX_SOLVE_PROG_STATE_FACTOR], by simp [REFLEX_SOLVE_PROG_STATE_FACTOR]; omega,
      by simp [REFLEX_SOLVE_PROG_STATE_FACTOR]⟩, .inl rfl⟩
  exact foldl_keeps v _ (fun s d => (hprog d _ _).trans ((hlimit d _ _).trans (hslot d _ s))) _ s

theorem Device.rd_reflexStart {f : Fld} (hf : f.inMap ∧ f.blk ≠ 16 ∧ (f.blk ≠ 17 ∨ f.off < 0x100)) (s : Device) (e : Nat) :
    s.reflexStart.rd e f = s.rd e f :=
  Device.reflexStart_keeps (v := (·.rd e f)) (fun _ _ _ _ hg => Device.rd_wr_elsewhere ⟨hf.1, hg.1, by have := hf.2; omega⟩) s

theorem Device.requests_reflexStart (s : Device) : s.reflexStart.requests = s.requests :=
  Device.reflexStart_keeps (fun _ _ _ _ _ => rfl) s

/-- Harts that the debugger holds at reset are its own matter. -/
theorem Device.haltAtReset_keeps {β : Type} {v : Device → β} (h : ∀ (s : Device) (x : DebugSt), v (s.setDebug x) = v s) (s : Device) :
    v s.haltAtReset = v s := by
  refine foldl_keeps v _ (fun s k => ?_) _ s
  split
  · exact h s _
  · rfl

/-- The host cores run, and Bask has its times. -/
def Device.coresStarted (s : Device) (t : Nat) : Device :=
  { s with host := { s.host with started := true }, bask := { s.bask with readyAt := t, aged := t } }

theorem Device.coresStarted_eq (s : Device) (t : Nat) : s.coresStarted t =
    { s with host := { s.host with started := true }, bask := { s.bask with readyAt := t, aged := t } } := by rfl
theorem Device.rd_coresStarted (s : Device) (t e : Nat) (f : Fld) : (s.coresStarted t).rd e f = s.rd e f := rfl
theorem Device.requests_coresStarted (s : Device) (t : Nat) : (s.coresStarted t).requests = s.requests := rfl

/-- READY shows, after the first grant, with the time that the start took. -/
def Device.readyShown (s : Device) : Device :=
  ((s.toStage 13).firstGrant.set 0 EFT_BOOT_STATUS_READY).wr 0 EFT_BOOT_STATUS_BOOT_MS (min 0xFFFF ((s.chorus.time - s.eft.released) / 1000000))

/-- Step 13 without the version fuses. -/
def Device.readied (s : Device) : Device := (s.readyShown.islandsStart.reflexStart.coresStarted s.chorus.time).haltAtReset

/-- Burning the version fuses (R398) is all that follows. -/
theorem Device.becomeReady_keeps {β : Type} {v : Device → β}
    (hfuse : ∀ (s : Device) (x : EftSt) (n : Nat), v ((s.setEft x).wr 0 EFT_VERSION_FUSE_MIN n) = v s) (s : Device) :
    v s.becomeReady = v s.readied := by
  unfold Device.becomeReady
  extract_lets t s1 s2 host bask s3 fuses eft
  have hready : s.readied = s3 := congrArg Device.haltAtReset (s2.coresStarted_eq t)
  rw [hready]
  clear_value s3
  split
  · exact hfuse ..
  · rfl

theorem Device.requests_becomeReady (s : Device) : s.becomeReady.requests = s.requests := by
  rw [Device.becomeReady_keeps (v := Device.requests) fun _ _ _ => rfl, Device.readied,
    Device.haltAtReset_keeps (v := Device.requests) fun _ _ => rfl, Device.requests_coresStarted,
    Device.requests_reflexStart, Device.requests_islandsStart, Device.readyShown, Device.requests_wr, Device.requests_set, Device.requests_firstGrant,
    Device.requests_toStage]

theorem Device.started_becomeReady (s : Device) : s.becomeReady.host.started = true := by
  rw [Device.becomeReady_keeps (v := (·.host.started)) fun _ _ _ => rfl, Device.readied,
    Device.haltAtReset_keeps (v := (·.host.started)) fun _ _ => rfl]
  rfl

/-- What the reflex units, the host cores and the version fuses do at ready leaves the fields of a unit's own status. -/
theorem Device.rd_becomeReady {f : Fld} (hf : f.inMap ∧ f.blk ≠ 16 ∧ (f.blk ≠ 17 ∨ f.off < 0x100) ∧ (f.blk ≠ 24 ∨ f.off ≠ 0xC))
    (s : Device) (e : Nat) : s.becomeReady.rd e f = s.readyShown.islandsStart.rd e f := by
  obtain ⟨hmap, hsolve, hreflex, heft⟩ := hf
  have hfuse : ∀ (t : Device) (x : EftSt) (n : Nat), ((t.setEft x).wr 0 EFT_VERSION_FUSE_MIN n).rd e f = t.rd e f := fun t x n =>
    (Device.rd_wr_elsewhere ⟨hmap, by decide, heft.imp_right .inl⟩).trans (t.rd_setEft x e f)
  rw [Device.becomeReady_keeps (v := (·.rd e f)) hfuse, Device.readied, Device.haltAtReset_keeps (v := (·.rd e f)) fun _ _ => rfl,
    Device.rd_coresStarted, Device.rd_reflexStart ⟨hmap, hsolve, hreflex⟩]

theorem Device.becomeReady_shows (s : Device) :
    (∀ i < 2, s.becomeReady.showsStart i) ∧ ∀ die < 4, s.becomeReady.on die REFLEX_CTRL_STATUS_TAIL_ACTIVE = true := by
  simp (disch := decide) only [Device.showsStart, Device.on, Device.rd_becomeReady]
  exact Device.islandsStart_shows _

theorem Device.on_ready_becomeReady (s : Device) : s.becomeReady.on 0 EFT_BOOT_STATUS_READY = true := by
  rw [Device.on, Device.rd_becomeReady (by decide), Device.rd_islandsStart (by decide), Device.readyShown, Device.rd_wr_elsewhere]
  exact Device.on_wr_same ..

/-- Of the fields that Eft shows, step 13 changes its own number, READY, the time and the version. -/
theorem Device.rd_boot_becomeReady {f : Fld}
    (hf : f.inMap ∧ f.blk = 24 ∧ f.elsewhere EFT_BOOT_STATUS_READY ∧ f.elsewhere EFT_BOOT_STATUS_BOOT_MS ∧ f.off ≠ 0xC) (s : Device) (e : Nat) :
    s.becomeReady.rd e f = (s.toStage 13).rd e f := by
  obtain ⟨hmap, hblk, hready, hms, hoff⟩ := hf
  rw [Device.rd_becomeReady ⟨hmap, by omega, by omega, .inr hoff⟩, Device.rd_islandsStart ⟨hmap, by omega, by omega, by omega⟩,
    Device.readyShown, Device.rd_wr_elsewhere hms, Device.set, Device.rd_wr_elsewhere hready, Device.rd_firstGrant ⟨hmap, by omega⟩]

/-- The clause of O11 on an offset that has not come. -/
theorem gptpStepTimeout_ready {s : State} (hs : s.dev.sound) (hin : s.dev.inStart = true) (hstage : s.dev.rd 0 EFT_BOOT_STATUS_STAGE = 12) :
    runs .gptpStepTimeout s fun d =>
      d.on 0 EFT_BOOT_STATUS_READY = true ∧ d.on 0 EFT_BOOT_STATUS_UNSTEPPED = true ∧ d.rd 0 EFT_BOOT_STATUS_STAGE = 13 ∧
      d.host.started = true ∧ (∀ i < 2, d.rd i SAFETY_STATUS_MODE = 0 ∧ d.rd i SAFETY_STATUS_TAIL_STATE = 3) ∧
      ∀ die < 4, d.on die REFLEX_CTRL_STATUS_TAIL_ACTIVE = true := by
  have hbody : gptpTimeoutBody s.dev = (s.dev.set 0 EFT_BOOT_STATUS_UNSTEPPED).becomeReady := if_pos ⟨hin, hstage⟩
  have hrequests := (Device.requests_becomeReady (s.dev.set 0 EFT_BOOT_STATUS_UNSTEPPED)).trans (s.dev.requests_set ..)
  have hready := Device.on_ready_becomeReady (s.dev.set 0 EFT_BOOT_STATUS_UNSTEPPED)
  have hstarted := Device.started_becomeReady (s.dev.set 0 EFT_BOOT_STATUS_UNSTEPPED)
  have hshows := Device.becomeReady_shows (s.dev.set 0 EFT_BOOT_STATUS_UNSTEPPED)
  have hunstepped : (s.dev.set 0 EFT_BOOT_STATUS_UNSTEPPED).becomeReady.on 0 EFT_BOOT_STATUS_UNSTEPPED = true := by
    rw [Device.on, Device.rd_boot_becomeReady (by decide), Device.toStage, Device.rd_wr_elsewhere]
    exact Device.on_wr_same ..
  have hthirteen : (s.dev.set 0 EFT_BOOT_STATUS_UNSTEPPED).becomeReady.rd 0 EFT_BOOT_STATUS_STAGE = 13 := by
    rw [Device.rd_boot_becomeReady (by decide), Device.toStage, Device.rd_wr_same]
    rfl
  generalize (s.dev.set 0 EFT_BOOT_STATUS_UNSTEPPED).becomeReady = d at hbody hrequests hready hstarted hshows hunstepped hthirteen
  refine runs_of_requests (f := gptpTimeoutBody) hs rfl (by rw [hbody]; exact hrequests) ?_
  rw [hbody]
  exact ⟨hready, hunstepped, hthirteen, hstarted, hshows⟩

/-- Settles O11: each step's command runs its body, and the body's writes are those that the clause names; what a later write could hide is
read through it field by field. -/
theorem startSteps : Obligations.StartSteps :=
  ⟨fun _ hs =>
    ⟨fun x => deviceStart_held hs x,
      fun _ => refclkPresent_blank hs,
      bridgeTrainTimeout_fails hs,
      fun caps hin hstage _ => lp5xTrainingDone_shows hs caps hin hstage,
      lp5xTrainingDone_stepsDown hs⟩,
    fun _ hs hin =>
    ⟨fun _ _ _ ho hne => shedWipeDone_wipes hs hin ho hne,
      lp5xWipeDone_wipes hs hin,
      fun _ _ _ => nvmeReadComplete_places hs,
      fun _ _ => weightsSourceTimeout_fails hs,
      fun seqs _ _ hstage hloaded he _ => sectionLoadDone_fails hs hin seqs hstage hloaded he,
      fun seqs _ _ _ hstage hloaded hlp hload hlayout _ => sectionLoadDone_goesOn hs hin seqs hstage hloaded hlp hload hlayout,
      injectionPassDone_fails hs hin,
      fun _ => injectionPassDone_goesOn hs hin,
      gptpStepTimeout_ready hs hin⟩⟩

end Sys2Proof.Machine
end

section

/-! THEOREMS of the family 04_translation_dma_faults: invalidation, the DMA engines, walks and faults. -/

namespace Sys2Proof.Machine

/-! ### Invalidation (R94, R95) -/

/-- No unpinned entry of a job translates a byte of a range. -/
def Device.noneTranslates (s : Device) (j lo n : Nat) : Prop :=
  ∀ t ∈ s.xlate.tlb, t.pin = false → t.job = j → t.va + 2 ^ t.log2 ≤ lo ∨ lo + n ≤ t.va

theorem overlaps_eq_false {va log2 lo n : Nat} : overlaps va log2 lo n = false ↔ va + 2 ^ log2 ≤ lo ∨ lo + n ≤ va := by
  rw [overlaps, Bool.and_eq_false_iff, decide_eq_false_iff_not, decide_eq_false_iff_not]
  omega

theorem Device.noneTranslates_dropXlate (s : Device) (j lo n : Nat) : (s.dropXlate j lo n).noneTranslates j lo n := fun t ht hpin hjob => by
  have hkept := (List.mem_filter.1 ht).2
  rw [hpin, hjob] at hkept
  exact overlaps_eq_false.1 (by simpa using hkept)

/-- The device with another invalidation in progress. -/
def Device.withInval (s : Device) (x : Option (Nat × Nat × Nat)) : Device := { s with xlate := { s.xlate with inval := x } }

@[simp] theorem Device.rd_withInval (s : Device) (x : Option (Nat × Nat × Nat)) (d : Nat) (f : Fld) : (s.withInval x).rd d f = s.rd d f := rfl
@[simp] theorem Device.on_withInval (s : Device) (x : Option (Nat × Nat × Nat)) (d : Nat) (f : Fld) : (s.withInval x).on d f = s.on d f := rfl
@[simp] theorem Device.on_dropXlate (s : Device) (j lo n d : Nat) (f : Fld) : (s.dropXlate j lo n).on d f = s.on d f := rfl

/-- What a write of XLATE_INVAL_CTL stores. -/
def Device.invalFields (s : Device) (value : Nat) : Device :=
  (s.wr 0 XLATE_INVAL_CTL_JOB (value / 2 ^ 16 % 2 ^ 12)).wr 0 XLATE_INVAL_CTL_PAGES_M1 (value % 2 ^ 16)

/-- The range that a write of XLATE_INVAL_CTL names. -/
def Device.invalFrom (s : Device) : Nat := s.rd 0 XLATE_INVAL_VA_LO_VA * 2 ^ 16 + s.rd 0 XLATE_INVAL_VA_HI_VA * 2 ^ 32
def invalBytes (value : Nat) : Nat := (value % 2 ^ 16 + 1) * 2 ^ 16

/-- An invalidation of a range begins. -/
def Device.invalBegun (s : Device) (value : Nat) : Device :=
  (((s.invalFields value).set 0 XLATE_INVAL_CTL_BUSY).dropXlate (value / 2 ^ 16 % 2 ^ 12) s.invalFrom (invalBytes value)).withInval
    (some (value / 2 ^ 16 % 2 ^ 12, s.invalFrom, invalBytes value))

theorem invalStartBody_eq (value : Nat) (s : Device) : invalStartBody 0 value s =
    if value / 2 ^ 30 % 2 = 0 then s.invalFields value
    else if s.on 0 XLATE_INVAL_CTL_BUSY = true ∨ value / 2 ^ 16 % 2 ^ 12 = 0 then s.set 0 XLATE_STATUS_INVAL_REFUSED
    else s.invalBegun value := by
  have hstart : ¬ bit value 30 = true ↔ value / 2 ^ 30 % 2 = 0 := by
    rw [bit, decide_eq_true_eq]; omega
  simp only [invalStartBody, hstart, bits_zero, ne_eq, not_true_eq_false, if_false]
  rfl

theorem invalidationStart_stores {s : State} (hs : s.dev.sound) {value : Nat} (hstart : value / 2 ^ 30 % 2 = 0) :
    exec (.invalidationStart 0 value) s = .next (s.withDev (s.dev.invalFields value)) :=
  exec_of_body hs rfl ((invalStartBody_eq value s.dev).trans (if_pos hstart)) ⟨rfl, rfl, rfl⟩

theorem invalidationStart_refused {s : State} (hs : s.dev.sound) {value : Nat} (hstart : value / 2 ^ 30 % 2 = 1)
    (h : s.dev.on 0 XLATE_INVAL_CTL_BUSY = true ∨ value / 2 ^ 16 % 2 ^ 12 = 0) :
    exec (.invalidationStart 0 value) s = .next (s.withDev (s.dev.set 0 XLATE_STATUS_INVAL_REFUSED)) :=
  exec_of_body hs rfl ((invalStartBody_eq value s.dev).trans ((if_neg (by omega)).trans (if_pos h))) ⟨rfl, rfl, rfl⟩

/-- The clause of O24 on job 0. -/
theorem invalidationStart_jobZero {s : State} (hs : s.dev.sound) {value : Nat} (hstart : value / 2 ^ 30 % 2 = 1)
    (hbusy : s.dev.on 0 XLATE_INVAL_CTL_BUSY = false) (hjob : value / 2 ^ 16 % 2 ^ 12 = 0) :
    runs (.invalidationStart 0 value) s fun d =>
      d.on 0 XLATE_STATUS_INVAL_REFUSED = true ∧ d.on 0 XLATE_INVAL_CTL_BUSY = false ∧ d.xlate = s.dev.xlate ∧ keepsMem s.dev d :=
  ⟨_, invalidationStart_refused hs hstart (.inr hjob), rfl, Device.on_wr_same .., (Device.on_wr_apart rfl).trans hbusy, rfl, fun _ => rfl⟩

/-- The clause of O24 on an invalidation that begins. -/
theorem invalidationStart_begins {s : State} (hs : s.dev.sound) {value : Nat} (hstart : value / 2 ^ 30 % 2 = 1)
    (hbusy : s.dev.on 0 XLATE_INVAL_CTL_BUSY = false) (hjob : value / 2 ^ 16 % 2 ^ 12 ≠ 0) :
    runs (.invalidationStart 0 value) s fun d =>
      d.on 0 XLATE_INVAL_CTL_BUSY = true ∧ d.xlate.inval = some (value / 2 ^ 16 % 2 ^ 12, s.dev.invalFrom, invalBytes value) ∧
      keepsMem s.dev d ∧ d.noneTranslates (value / 2 ^ 16 % 2 ^ 12) s.dev.invalFrom (invalBytes value) := by
  have hbody : invalStartBody 0 value s.dev = s.dev.invalBegun value := by
    rw [invalStartBody_eq, if_neg (by omega), if_neg (not_or.2 ⟨by simp [hbusy], hjob⟩)]
  have hset : (s.dev.invalBegun value).on 0 XLATE_INVAL_CTL_BUSY = true := by
    rw [Device.invalBegun, Device.on_withInval, Device.on_dropXlate]
    exact Device.on_wr_same ..
  exact ⟨_, exec_of_body hs rfl hbody ⟨rfl, rfl, rfl⟩, rfl, hset, rfl, fun _ => rfl, Device.noneTranslates_dropXlate _ _ _ _⟩

/-- The clause of O24 on the end of an invalidation. -/
theorem invalidationDone_drops {s : State} (hs : s.dev.sound) {j lo n : Nat} (hinval : s.dev.xlate.inval = some (j, lo, n)) :
    runs .invalidationDone s fun d =>
      d.on 0 XLATE_INVAL_CTL_BUSY = false ∧ d.xlate.inval = none ∧ keepsMem s.dev d ∧ keepsFields s.dev d [(0, XLATE_INVAL_CTL_BUSY)] ∧
      d.noneTranslates j lo n := by
  have hbody : invalDoneBody s.dev = ((s.dev.dropXlate j lo n).clr 0 XLATE_INVAL_CTL_BUSY).withInval none := by
    rw [invalDoneBody, hinval]; rfl
  have hclear : (((s.dev.dropXlate j lo n).clr 0 XLATE_INVAL_CTL_BUSY).withInval none).on 0 XLATE_INVAL_CTL_BUSY = false :=
    (Device.on_withInval ..).trans (Device.on_wr_same ..)
  exact ⟨_, exec_of_body hs rfl hbody ⟨rfl, rfl, rfl⟩, rfl, hclear, rfl, fun _ => rfl, keepsFields_wr (s.dev.dropXlate j lo n) 0 _ 0,
    Device.noneTranslates_dropXlate _ _ _ _⟩

/-- Settles O24: the entries that a range overlaps are dropped both when the invalidation begins and when it is done. -/
theorem invalidationDropsEntries : Obligations.InvalidationDropsEntries := fun _ _ hs =>
  ⟨invalidationStart_stores hs, fun hstart hbusy => invalidationStart_refused hs hstart (.inl hbusy), invalidationStart_jobZero hs,
    invalidationStart_begins hs, fun _ _ _ => invalidationDone_drops hs⟩

/-! ### Accesses by the routes between dies (R17, R30, R434) -/

/-- One device is another but for counts of transfers over the bridges. -/
def Device.onlyCounts (t s : Device) : Prop :=
  (∃ r, t = { s with regs := r }) ∧ ∀ (e : Nat) (f : Fld), f.uncounted → t.rd e f = s.rd e f

theorem Device.onlyCounts.refl (s : Device) : s.onlyCounts s := ⟨⟨_, rfl⟩, fun _ _ _ => rfl⟩

theorem Device.onlyCounts.trans {u t s : Device} (h : u.onlyCounts t) (h' : t.onlyCounts s) : u.onlyCounts s := by
  obtain ⟨⟨r, rfl⟩, hrd⟩ := h
  obtain ⟨⟨r', rfl⟩, hrd'⟩ := h'
  exact ⟨⟨r, rfl⟩, fun e f hf => (hrd e f hf).trans (hrd' e f hf)⟩

theorem Device.onlyCounts.xfer {t s : Device} (h : t.onlyCounts s) (a b : Nat) : (t.xfer a b).onlyCounts s :=
  ⟨Device.xfer_keeps (P := fun u => ∃ r, u = { s with regs := r })
      (fun u d f _ ⟨_, hu⟩ => ⟨(u.addWrap d f 1).regs, by rw [hu]; rfl⟩) h.1 a b,
    fun e f hf => (Device.rd_xfer hf t a b e).trans (h.2 e f hf)⟩

/-- A view that the registers do not enter is alike. -/
theorem Device.onlyCounts.view {t s : Device} (h : t.onlyCounts s) {β : Type} (v : Device → β)
    (hv : ∀ (s : Device) (r : SMap Nat), v { s with regs := r } = v s) : v t = v s := by
  obtain ⟨⟨r, rfl⟩, -⟩ := h
  exact hv s r

theorem Device.onlyCounts.on {t s : Device} (h : t.onlyCounts s) (e : Nat) {f : Fld} (hf : f.uncounted) : t.on e f = s.on e f := by
  rw [Device.on, h.2 e f hf, Device.on]

theorem Device.onlyCounts.clean {t s : Device} (h : t.onlyCounts s) (hs : s.clean) : t.clean := by
  rwa [Device.clean, h.view Device.pond fun _ _ => rfl]

theorem Device.clean.noErrors {s : Device} (h : s.clean) (a n : Nat) : s.noErrors a n := fun w _ =>
  ⟨by rw [Device.eccAt, h.1]; rfl, by rw [Device.linkAt, h.2]; exact ite_self _⟩

/-- The fields that the map of addresses, the routes and the Pond's modes rest on. -/
def mapFields : List Fld :=
  [LP5X_MAPPED_MAPPED_GIB, LP5X_CTL_INTERLEAVE, DIE_CTL_BRIDGE_STATUS_ROW_UP, DIE_CTL_BRIDGE_STATUS_COL_UP, POND_STATUS_MODE]

def Device.sameMap (t s : Device) : Prop := ∀ f ∈ mapFields, ∀ e, t.rd e f = s.rd e f

theorem Device.onlyCounts.sameMap {t s : Device} (h : t.onlyCounts s) : t.sameMap s := fun f hf e =>
  h.2 e f ((by decide : ∀ f ∈ mapFields, f.uncounted) f hf)

theorem Device.sameMap.lpBytes {t s : Device} (h : t.sameMap s) : t.lpBytes = s.lpBytes := by
  rw [Device.lpBytes, h _ (by decide), Device.lpBytes]

theorem Device.sameMap.region {t s : Device} (h : t.sameMap s) (a : Nat) : t.region a = s.region a := Device.region_congr h.lpBytes a

theorem Device.sameMap.lpGranule {t s : Device} (h : t.sameMap s) : t.lpGranule = s.lpGranule := by
  rw [Device.lpGranule, h _ (by decide), Device.lpGranule]

theorem Device.sameMap.homeDie {t s : Device} (h : t.sameMap s) (r : Region) : t.homeDie r = s.homeDie r := by
  cases r with
  | lp off => simp only [Device.homeDie, Device.lpChannel, h.lpGranule, h.lpBytes]
  | _ => rfl

theorem Device.sameMap.routeUp {t s : Device} (h : t.sameMap s) (a b : Nat) : t.routeUp a b = s.routeUp a b :=
  Device.routeUp_congr (fun _ => by rw [Device.on, h _ (by decide), Device.on]) (fun _ => by rw [Device.on, h _ (by decide), Device.on]) a b

/-- The status of an access depends on the map and on its requester's reach. -/
theorem Device.sameMap.accessStatus {t s : Device} (h : t.sameMap s) {src master a n : Nat} {w : Bool}
    (hreach : ∀ r, t.reachesIn src master a n w r = s.reachesIn src master a n w r) :
    t.accessStatus src master a n w = s.accessStatus src master a n w := by
  have hreaches : t.reaches src master a n w = s.reaches src master a n w := by simp only [Device.reaches, hreach, h.region]
  have hmode : ∀ e, t.rd e POND_STATUS_MODE = s.rd e POND_STATUS_MODE := h _ (by decide)
  cases hr : s.region a <;> simp only [Device.accessStatus, hreaches, h.region, hr, h.homeDie, h.routeUp, hmode]

/-- A read that meets no error, whose answer has its route, is answered with the bytes stored. -/
theorem Device.readChk_routed {s : Device} {src master a n : Nat} (hn : 1 ≤ n) (hclean : s.clean)
    (ha : s.accessStatus src master a n false = stDONE) (hroute : s.routeUp (s.homeDie (s.region a)) src = true) :
    ∃ t : Device, t.onlyCounts s ∧ s.readChk src master a n = (t, stDONE, s.load a n) := by
  have hthere := (Device.onlyCounts.refl s).xfer src (s.homeDie (s.region a))
  have hbad : (wordsOf a n).any s.isUe = false := List.any_eq_false.2 fun w hw => by
    simp [Device.isUe_none (hclean.noErrors a n w hw).1 (hclean.noErrors a n w hw).2]
  have hfold : (wordsOf a n).foldl Device.eccDemand (s.xfer src (s.homeDie (s.region a))) = s.xfer src (s.homeDie (s.region a)) :=
    foldl_eq_self fun w hw =>
      Device.eccDemand_none ((hthere.clean hclean).noErrors a n w hw).1 ((hthere.clean hclean).noErrors a n w hw).2
  refine ⟨_, hthere.xfer (s.homeDie (s.region a)) src, ?_⟩
  simp [Device.readChk, ha, hbad, hfold, Device.answered, hthere.sameMap.routeUp, hroute, Device.readData_clean hn (hclean.noErrors a n)]

theorem Device.addWrap_store (s : Device) (a v n d k : Nat) (f : Fld) : (s.store a v n).addWrap d f k = (s.addWrap d f k).store a v n := by
  induction n generalizing s a v with
  | zero => rfl
  | succ n ih => rw [Device.store, ih]; rfl

theorem Device.xfer_store (s : Device) (a v n x y : Nat) : (s.store a v n).xfer x y = (s.xfer x y).store a v n :=
  Device.xfer_comm (φ := (·.store a v n)) (Q := fun _ => True) (fun _ _ _ _ h => h) (fun t d f _ _ => t.addWrap_store a v n d 1 f) trivial x y

theorem Device.rd_store (s : Device) (a v n e : Nat) (f : Fld) : (s.store a v n).rd e f = s.rd e f := Device.rd_congr (s.store_regs a v n) e f

theorem Device.store_xlate (s : Device) (a v n : Nat) : (s.store a v n).xlate = s.xlate :=
  Device.store_keeps (f := Device.xlate) (fun _ _ _ => rfl) s a v n

theorem Device.routeUp_store (s : Device) (a v n x y : Nat) : (s.store a v n).routeUp x y = s.routeUp x y :=
  Device.sameMap.routeUp (fun f _ e => s.rd_store a v n e f) x y

/-- A write that meets no error, whose answer has its route, stores its bytes. -/
theorem Device.writeChk_routed {s : Device} {src master a n : Nat} (hclean : s.clean)
    (ha : s.accessStatus src master a n true = stDONE) (hroute : s.routeUp (s.homeDie (s.region a)) src = true) (v : Nat) :
    ∃ t : Device, t.onlyCounts s ∧ s.writeChk src master a n v = (t.store a v n, stDONE) := by
  have hthere := (Device.onlyCounts.refl s).xfer src (s.homeDie (s.region a))
  have hno := (hthere.clean hclean).noErrors a n
  have hback : ((s.xfer src (s.homeDie (s.region a))).store a v n).routeUp (s.homeDie (s.region a)) src = true := by
    rw [Device.routeUp_store, hthere.sameMap.routeUp, hroute]
  refine ⟨_, hthere.xfer (s.homeDie (s.region a)) src, ?_⟩
  simp [Device.writeChk, ha, Device.partReads_clean hno, Device.writeBad_clean (hclean.noErrors a n), Device.writeWords_clean hno,
    Device.answered, hback, Device.xfer_store]

theorem Device.load_one (s : Device) (a : Nat) : s.load a 1 = s.byte a := by simp [Device.load]

/-- Each byte of a store is the value's. -/
theorem Device.byte_store (s : Device) (a v : Nat) {n i : Nat} (hi : i < n) : (s.store a v n).byte (a + i) = v / 256 ^ i % 256 := by
  obtain ⟨m, rfl⟩ := Nat.exists_eq_add_of_lt hi
  rw [← Device.load_one, ← Device.load_within _ a i 1 (i + m + 1) (by omega), Device.load_store, pow_one, Nat.add_assoc, Nat.pow_add 256 i,
    Nat.mod_mul_right_div_self, Nat.mod_mod_of_dvd _ (dvd_pow_self 256 (Nat.succ_ne_zero m))]

/-! ### Translation of a range within a page (R88, R102) -/

theorem pagesOf_within {va n : Nat} (hn : 1 ≤ n) (h : va % 65536 + n ≤ 65536) : pagesOf 0 va n = [va / 2 ^ 21 * 2 ^ 21] := by
  have hpage : (va + n - 1) / 2 ^ 21 = va / 2 ^ 21 := by omega
  rw [pagesOf, if_neg (by omega), if_pos rfl, hpage, Nat.sub_self]
  rfl

theorem Device.pieces_within (s : Device) (die unit job : Nat) {va n : Nat} (hn : 1 ≤ n) (h : va % 65536 + n ≤ 65536) :
    s.pieces die unit job va n = [(s.vaPa die unit job va, n)] := by
  have hpage : (va + n - 1) / 2 ^ 16 = va / 2 ^ 16 := by omega
  have hlo : max va (va / 2 ^ 16 * 2 ^ 16) = va := by omega
  have hhi : min (va + n) ((va / 2 ^ 16 + 1) * 2 ^ 16) - va = n := by omega
  rw [Device.pieces, if_neg (by omega), hpage, Nat.sub_self]
  simp only [Nat.zero_add, List.range_one, List.map_cons, List.map_nil, Nat.add_zero, hlo, hhi]

/-- A unit's address is pinned for job 0: translation is on, and an entry of its cache that stays holds the address and grants the access. -/
structure Device.pinned (s : Device) (die unit va a : Nat) (write : Bool) : Prop where
  on : s.on 0 XLATE_CTL_EN = true
  entry : ∃ t, s.tlbHit die unit 0 va = some t ∧ t.pin = true ∧ rightsFault t.rd t.wr write = none ∧ a = t.pa + (va - t.va)

theorem Device.onlyCounts.pinned {t s : Device} (h : t.onlyCounts s) {die unit va a : Nat} {write : Bool} (hp : s.pinned die unit va a write) :
    t.pinned die unit va a write where
  on := (h.on 0 (by decide)).trans hp.on
  entry := by rw [Device.tlbHit, h.view Device.xlate fun _ _ => rfl, ← Device.tlbHit]; exact hp.entry

theorem Device.pinned.translate {s : Device} {die unit va a : Nat} {write : Bool} (h : s.pinned die unit va a write) :
    s.translate die unit 0 va write = (s, .pa a) := by
  obtain ⟨t, hhit, hpin, hrights, rfl⟩ := h.entry
  simp [Device.translate, h.on, hhit, hrights, Device.tlbTouch, hpin]

/-- The address behind a pinned one, whichever access it is pinned for. -/
theorem Device.pinned.vaPa {s : Device} {die unit va a : Nat} {write : Bool} (h : s.pinned die unit va a write) :
    s.vaPa die unit 0 va = a := by
  obtain ⟨t, hhit, hpin, -, rfl⟩ := h.entry
  cases hrd : t.rd <;> simp [Device.vaPa, Device.translate, h.on, hhit, rightsFault, hrd]

theorem Device.pinned.pagesReady {s : Device} {die unit va a n : Nat} {write : Bool} (h : s.pinned die unit va a write) (hn : 1 ≤ n)
    (hin : va % 65536 + n ≤ 65536) : s.pagesReady die unit 0 va n write = (s, none) := by
  have hfirst : max (va / 2 ^ 21 * 2 ^ 21) va = va := Nat.max_eq_right (Nat.div_mul_le_self ..)
  rw [Device.pagesReady, pagesOf_within hn hin]
  simp only [List.foldl_cons, List.foldl_nil, hfirst, h.translate]

theorem Device.pinned.vRead {s : Device} {die unit va a n : Nat} {write : Bool} (h : s.pinned die unit va a write) (hn : 1 ≤ n)
    (hin : va % 65536 + n ≤ 65536) : s.vRead die unit 0 va n = s.readChk die unit a n := by
  simp [Device.vRead, s.pieces_within die unit 0 hn hin, h.vaPa, Device.carried]

theorem Device.pinned.vWrite {s : Device} {die unit va a n : Nat} {write : Bool} (h : s.pinned die unit va a write) (hn : 1 ≤ n)
    (hin : va % 65536 + n ≤ 65536) (v : Nat) : s.vWrite die unit 0 va n v = s.writeChk die unit a n (v % 256 ^ n) := by
  simp [Device.vWrite, s.pieces_within die unit 0 hn hin, h.vaPa, Device.carried]

/-! ### One row of a descriptor (R97 to R100) -/

/-- The number of the first `n` bytes of a sequence, lowest first. -/
def leNumber (f : Nat → Nat) (n : Nat) : Nat := ((List.range n).map fun i => f i * 256 ^ i).foldl (· + ·) 0

theorem leNumber_succ (f : Nat → Nat) (n : Nat) : leNumber f (n + 1) = leNumber f n + f n * 256 ^ n := by
  simp [leNumber, List.range_succ]

theorem leNumber_lt {f : Nat → Nat} (hf : ∀ i, f i < 256) (n : Nat) : leNumber f n < 256 ^ n := by
  induction n with
  | zero => exact Nat.one_pos
  | succ n ih =>
    have hmul : f n * 256 ^ n ≤ 255 * 256 ^ n := Nat.mul_le_mul_right _ (Nat.le_of_lt_succ (hf n))
    rw [leNumber_succ, Nat.pow_succ]
    omega

theorem leNumber_byte {f : Nat → Nat} (hf : ∀ i, f i < 256) {n i : Nat} (hi : i < n) : leNumber f n / 256 ^ i % 256 = f i := by
  induction n with
  | zero => omega
  | succ n ih =>
    rw [leNumber_succ]
    obtain hlt | rfl := Nat.lt_succ_iff_lt_or_eq.1 hi
    · obtain ⟨k, rfl⟩ := Nat.exists_eq_add_of_lt hlt
      have hpow : f (i + k + 1) * 256 ^ (i + k + 1) = 256 ^ i * (256 * (256 ^ k * f (i + k + 1))) := by ring
      rw [hpow, Nat.add_mul_div_left _ _ (by positivity), Nat.add_mul_mod_self_left, ih hlt]
    · rw [Nat.add_mul_div_right _ _ (by positivity), Nat.div_eq_of_lt (leNumber_lt hf i), Nat.zero_add, Nat.mod_eq_of_lt (hf i)]

/-- Byte `i` of a fill's pattern. -/
def dmFillByte (d : List Nat) (i : Nat) : Nat := dmPattern d / 2 ^ (8 * (i % 4)) % 256

/-- What a descriptor of one row moves: its pattern, or the bytes of its source. -/
def Device.dmaData (s : Device) (d : List Nat) (src n : Nat) : Nat :=
  if dmOpcode d = 2 then leNumber (dmFillByte d) n else s.load src n

theorem dmFillByte_lt (d : List Nat) (i : Nat) : dmFillByte d i < 256 := Nat.mod_lt _ (by decide)

theorem Device.dmaData_lt (s : Device) (d : List Nat) (src n : Nat) : s.dmaData d src n < 256 ^ n := by
  unfold Device.dmaData
  split
  · exact leNumber_lt (dmFillByte_lt d) n
  · exact s.load_lt src n

theorem Device.dmaData_byte (s : Device) (d : List Nat) (src : Nat) {n i : Nat} (hi : i < n) : s.dmaData d src n / 256 ^ i % 256 =
    if dmOpcode d = 2 then dmPattern d / 2 ^ (8 * (i % 4)) % 256 else s.byte (src + i) := by
  unfold Device.dmaData
  split
  · exact leNumber_byte (dmFillByte_lt d) hi
  · rw [← Device.load_one, ← s.load_within src i 1 n hi, pow_one]

/-- A descriptor of one row of up to 64 bytes with no remote side and no signal, of which nothing has been moved. -/
structure dmOneRow (d : List Nat) (n : Nat) : Prop where
  opcode : dmOpcode d = 2 ∨ dmOpcode d = 1
  near : (dmSrcRemote d || dmDstRemote d) = false
  signal : dmSignalEn d = false
  rows : dmRows d = 1
  doneRows : dmDoneRows d = 0
  doneBytes : dmDoneBytes d = 0
  words : 14 < d.length
  length : dmLength d = n
  pos : 1 ≤ n
  le : n ≤ 64

/-- A unit may read or write `n` bytes at a pinned address of job 0: they lie in one page, and the access succeeds and is answered. -/
structure Device.mayAccess (s : Device) (die unit va a n : Nat) (write : Bool) : Prop extends toPinned : s.pinned die unit va a write where
  inPage : va % 65536 + n ≤ 65536
  status : s.accessStatus die unit a n write = stDONE
  route : s.routeUp (s.homeDie (s.region a)) die = true

theorem Device.onlyCounts.mayAccess {t s : Device} (h : t.onlyCounts s) {die unit va a n : Nat} {write : Bool} (hunit : unit < mHost)
    (hp : s.mayAccess die unit va a n write) : t.mayAccess die unit va a n write where
  __ := h.pinned hp.toPinned
  inPage := hp.inPage
  status := (h.sameMap.accessStatus fun _ => Device.reachesIn_congr hunit ..).trans hp.status
  route := by rw [h.sameMap.routeUp, h.sameMap.homeDie, h.sameMap.region, hp.route]

section
variable {s : Device} {die e b src n : Nat} {d : List Nat}

/-- An engine that may access both sides of a row moves its bytes. -/
theorem Device.dmaBytes_oneRow (he : e < 16) (hd : dmOneRow d n) (hclean : s.clean)
    (hdst : s.mayAccess die (mDma + e) (dmDst d) b n true) (hsrc : dmOpcode d = 2 ∨ s.mayAccess die (mDma + e) (dmSrc d) src n false) :
    ∃ t : Device, t.onlyCounts s ∧ s.dmaBytes die e 0 d 0 0 n = (t.store b (s.dmaData d src n) n, stDONE) := by
  have hunit : mDma + e < mHost := by unfold mDma mHost; omega
  have hmod := Nat.mod_eq_of_lt (s.dmaData_lt d src n)
  by_cases hfill : dmOpcode d = 2
  · obtain ⟨t, ht, hwrite⟩ := Device.writeChk_routed hclean hdst.status hdst.route (s.dmaData d src n)
    have hdata : ((List.range n).map fun i => bits (dmPattern d) (8 * ((0 + i) % 4)) 8 * 256 ^ i).foldl (· + ·) 0 = s.dmaData d src n := by
      simp only [Nat.zero_add, Device.dmaData, if_pos hfill]; rfl
    refine ⟨t, ht, ?_⟩
    simp only [Device.dmaBytes, if_pos hfill, hdata, Nat.zero_mul, Nat.add_zero, hdst.vWrite hd.pos hdst.inPage, hmod, hwrite]
    rfl
  · have hsrc := hsrc.resolve_left hfill
    obtain ⟨t, ht, hread⟩ := Device.readChk_routed hd.pos hclean hsrc.status hsrc.route
    have hdst := ht.mayAccess hunit hdst
    obtain ⟨u, hu, hwrite⟩ := Device.writeChk_routed (ht.clean hclean) hdst.status hdst.route (s.dmaData d src n)
    have hdata : s.load src n = s.dmaData d src n := by rw [Device.dmaData, if_neg hfill]
    refine ⟨u, hu.trans ht, ?_⟩
    simp only [Device.dmaBytes, if_neg hfill, Nat.zero_mul, Nat.add_zero, hsrc.vRead hd.pos hsrc.inPage, hread, hdata,
      hdst.vWrite hd.pos hdst.inPage, hmod, hwrite]
    rfl

theorem Device.dmaUnit_oneRow (he : e < 16) (hd : dmOneRow d n) (hclean : s.clean)
    (hdst : s.mayAccess die (mDma + e) (dmDst d) b n true) (hsrc : dmOpcode d = 2 ∨ s.mayAccess die (mDma + e) (dmSrc d) src n false) :
    ∃ t : Device, t.onlyCounts s ∧ s.dmaUnit die e 0 d 0 0 n = (t.store b (s.dmaData d src n) n, n, none, stDONE) := by
  obtain ⟨t, ht, hbytes⟩ := Device.dmaBytes_oneRow he hd hclean hdst hsrc
  have hread : (if dmOpcode d = 2 then (s, none) else s.pagesReady die (mDma + e) 0 (dmSrc d + 0 * dmSrcStride d + 0) n false) = (s, none) := by
    split
    · rfl
    · next hcopy =>
      have hsrc := hsrc.resolve_left hcopy
      rw [Nat.zero_mul, Nat.add_zero, hsrc.pagesReady hd.pos hsrc.inPage]
  have hwrite : s.pagesReady die (mDma + e) 0 (dmDst d + 0 * dmDstStride d + 0) n true = (s, none) := by
    rw [Nat.zero_mul, Nat.add_zero, hdst.pagesReady hd.pos hdst.inPage]
  have hne : n ≠ 0 := Nat.one_le_iff_ne_zero.1 hd.pos
  refine ⟨t, ht, ?_⟩
  simp only [Device.dmaUnit, hread, hwrite, if_neg hne, hbytes]
  rfl

theorem Device.dmaMove_ended (s : Device) (job rows bytes fuel : Nat) (h : dmRows d ≤ dmDoneRows d) :
    s.dmaMove die e job d rows bytes fuel = (s, d, none, stDONE) := by
  cases fuel with
  | zero => rfl
  | succ fuel => exact if_pos (.inl h)

theorem dmOneRow.ended (hd : dmOneRow d n) : dmRows (dmProgress d 1 0) ≤ dmDoneRows (dmProgress d 1 0) := by
  have hrows : dmRows (dmProgress d 1 0) = dmRows d := by simp [dmRows, dmProgress, wd]
  have hdone : dmDoneRows (dmProgress d 1 0) = 1 := by
    have hlen : 12 < d.length := by have := hd.words; omega
    simp [dmDoneRows, dmProgress, wd, hlen]
  rw [hrows, hdone, hd.rows]

/-- An engine that may access both sides of a row moves the row and is at the descriptor's end. -/
theorem Device.dmaMove_oneRow (he : e < 16) (hd : dmOneRow d n) (hclean : s.clean)
    (hdst : s.mayAccess die (mDma + e) (dmDst d) b n true) (hsrc : dmOpcode d = 2 ∨ s.mayAccess die (mDma + e) (dmSrc d) src n false) :
    ∃ t : Device, t.onlyCounts s ∧
      s.dmaMove die e 0 d (dmRows d) 0 (dmUnits d) = (t.store b (s.dmaData d src n) n, dmProgress d 1 0, none, stDONE) := by
  obtain ⟨t, ht, hunit⟩ := Device.dmaUnit_oneRow he hd hclean hdst hsrc
  have hunits : dmUnits d = n / 64 + 1 := by rw [dmUnits, hd.rows, hd.length, Nat.one_mul]
  have hgo : ¬ (1 ≤ 0 ∨ 1 < 0 ∨ (1 = 0 ∧ True)) := by omega
  refine ⟨t, ht, ?_⟩
  simp only [hunits, Device.dmaMove, hd.rows, hd.doneRows, hd.doneBytes, hd.length, if_neg hgo, Nat.sub_zero, Nat.min_eq_right hd.le, hunit,
    Nat.zero_add, le_refl, if_true, and_self, Device.dmaMove_ended _ _ _ _ _ hd.ended]

end

/-! ### An engine takes and gives up a descriptor (R97, R98, R110) -/

/-- The fields of an engine's own register. -/
def engineFields (e : Nat) : List Fld := [DMA_ENG_STATUS_BUSY e, DMA_ENG_STATUS_PARKING e, DMA_ENG_STATUS_JOB e]

/-- A field of a lower register than the engines' own. -/
abbrev Fld.belowEngines (f : Fld) : Prop := f.inMap ∧ f.off < 0x100

theorem Fld.belowEngines.elsewhere {f : Fld} (hf : f.belowEngines) {e : Nat} (he : e < 16) {g : Fld} (hg : g ∈ engineFields e) : f.elsewhere g := by
  have hg : g.inMap ∧ 0x100 ≤ g.off := by
    simp only [engineFields, List.mem_cons, List.not_mem_nil, or_false] at hg
    rcases hg with rfl | rfl | rfl <;> simp only [Fld.inMap, DMA_ENG_STATUS_BUSY, DMA_ENG_STATUS_PARKING, DMA_ENG_STATUS_JOB] <;> omega
  have hlt : f.off < g.off := hf.2.trans_le hg.2
  exact ⟨hf.1, hg.1, .inr (.inl hlt.ne)⟩

/-- An engine takes a descriptor of job 0. -/
def Device.dmaTaken (s : Device) (die e : Nat) (w : Work) (entry : Nat) (d : List Nat) : Device :=
  (((s.setDma die e (some (some w, entry, d))).set die (DMA_ENG_STATUS_BUSY e)).wr die (DMA_ENG_STATUS_JOB e) 0).addWrap
    die DMA_AUDIT_DESC_OUT 1

theorem Device.dmaRun_wr (s : Device) (die e d : Nat) (f : Fld) (v : Nat) : (s.wr d f v).dmaRun die e = s.dmaRun die e := by rfl

theorem Device.dmaRun_canon (s : Device) (die e : Nat) : s.canon.dmaRun die e = s.dmaRun die e := by rfl

theorem Device.dmaRun_setDma (s : Device) (die e : Nat) (x : Option (Option Work × Nat × List Nat)) : (s.setDma die e x).dmaRun die e = x :=
  SMap.get_put_same ..

theorem Device.dmaRun_dmaTaken (s : Device) (die e : Nat) (w : Work) (entry : Nat) (d : List Nat) :
    (s.dmaTaken die e w entry d).dmaRun die e = some (some w, entry, d) := Device.dmaRun_setDma ..

theorem Device.dmaTaken_idle (s : Device) (die e : Nat) (w : Work) (entry : Nat) (d : List Nat) : (s.dmaTaken die e w entry d).idleSince s :=
  ⟨rfl, rfl, rfl⟩

theorem Device.dmaTaken_busy (s : Device) (die e : Nat) (w : Work) (entry : Nat) (d : List Nat) :
    (s.dmaTaken die e w entry d).on die (DMA_ENG_STATUS_BUSY e) = true := by
  rw [Device.dmaTaken, Device.addWrap, Device.on_wr_apart rfl, Device.on_wr_apart rfl]
  exact Device.on_wr_same ..

theorem Device.dmaTaken_job (s : Device) (die : Nat) {e : Nat} (he : e < 16) (w : Work) (entry : Nat) (d : List Nat) :
    (s.dmaTaken die e w entry d).rd die (DMA_ENG_STATUS_JOB e) = 0 := by
  have hout : DMA_AUDIT_DESC_OUT.elsewhere (DMA_ENG_STATUS_JOB e) :=
    Fld.belowEngines.elsewhere (by decide) he (.tail _ (.tail _ (.head _)))
  rw [Device.dmaTaken, Device.addWrap, Device.rd_wr_ne _ _ _ _ _ _ (hout.key_ne _ _).symm]
  exact Device.rd_wr_same ..

theorem Device.keepsFields_dmaTaken (s : Device) (die e : Nat) (w : Work) (entry : Nat) (d : List Nat) :
    keepsFields s (s.dmaTaken die e w entry d) [(die, DMA_ENG_STATUS_BUSY e), (die, DMA_ENG_STATUS_JOB e), (die, DMA_AUDIT_DESC_OUT)] := by
  intro g f hf
  obtain ⟨hbusy, hjob, hout⟩ : _ ∧ _ ∧ _ := ⟨hf _ (.head _), hf _ (.tail _ (.head _)), hf _ (.tail _ (.tail _ (.head _)))⟩
  rw [Device.dmaTaken, Device.addWrap, Device.rd_wr_ne _ _ _ _ _ _ hout, Device.rd_wr_ne _ _ _ _ _ _ hjob, Device.set,
    Device.rd_wr_ne _ _ _ _ _ _ hbusy]
  rfl

theorem dmaStartBody_slice {s : Device} {die e sd idx k entry : Nat} {d : List Nat} (h : s.dmaNext die e (.slice sd idx) k = some (entry, d)) :
    dmaStartBody die e (.slice sd idx) k s =
      if dmBad s.ownId d = true then (s.dmaTaken die e (.slice sd idx) entry d).dmaEnd die e (.slice sd idx) entry d stBAD_DESCRIPTOR
      else if (dmSrcRemote d || dmDstRemote d) = true then (s.dmaTaken die e (.slice sd idx) entry d).dmaIssue die e
      else s.dmaTaken die e (.slice sd idx) entry d := by
  simp only [dmaStartBody, h, Device.workJob, ne_eq, not_true_eq_false, if_false, false_and]
  rfl

theorem Device.dmaRun_dmaFree (s : Device) (die e : Nat) : (s.dmaFree die e).dmaRun die e = none := by
  rw [Device.dmaFree, Device.subWrap, Device.dmaRun_wr, Device.clr, Device.dmaRun_wr, Device.clr, Device.dmaRun_wr, Device.clr, Device.dmaRun_wr,
    Device.dmaRun_setDma]

theorem Device.dmaFree_idle (s : Device) (die e : Nat) : (s.dmaFree die e).idleSince s := by
  have hset : (s.setDma die e none).idleSince s := ⟨rfl, rfl, rfl⟩
  exact (((hset.wr ..).wr ..).wr ..).wr ..

theorem Device.xlate_dmaFree (s : Device) (die e : Nat) : (s.dmaFree die e).xlate = (s.setDma die e none).xlate := by
  rw [Device.dmaFree, Device.subWrap, Device.wr_xlate, Device.clr, Device.wr_xlate, Device.clr, Device.wr_xlate, Device.clr, Device.wr_xlate]

theorem Device.disp_dmaFree (s : Device) (die e : Nat) : (s.dmaFree die e).disp = s.disp := by
  rw [Device.dmaFree, Device.subWrap, Device.wr_disp, Device.clr, Device.wr_disp, Device.clr, Device.wr_disp, Device.clr, Device.wr_disp,
    Device.setDma_disp]

theorem Device.dmaFree_busy (s : Device) (die e : Nat) : (s.dmaFree die e).on die (DMA_ENG_STATUS_BUSY e) = false := by
  rw [Device.dmaFree, Device.subWrap, Device.on_wr_apart rfl, Device.clr, Device.on_wr_apart rfl, Device.clr, Device.on_wr_apart rfl]
  exact Device.on_wr_same ..

/-- Giving up a descriptor leaves the fields below the engines' registers but the count of descriptors out. -/
theorem Device.rd_dmaFree {f : Fld} (hf : f.belowEngines ∧ f.elsewhere DMA_AUDIT_DESC_OUT) (s : Device) (die : Nat) {e : Nat} (he : e < 16)
    (d : Nat) : (s.dmaFree die e).rd d f = s.rd d f := by
  have hengine : ∀ g ∈ engineFields e, f.elsewhere g := fun g hg => hf.1.elsewhere he hg
  rw [Device.dmaFree, Device.subWrap, Device.rd_wr_elsewhere hf.2, Device.clr, Device.rd_wr_elsewhere (hengine _ (.tail _ (.tail _ (.head _)))),
    Device.clr, Device.rd_wr_elsewhere (hengine _ (.tail _ (.head _))), Device.clr, Device.rd_wr_elsewhere (hengine _ (.head _))]
  rfl

/-- The end of a slice's descriptor: it is counted, or recorded and its slice ended. -/
theorem Device.dmaEnd_slice (s : Device) (die e sd idx entry : Nat) (d : List Nat) (status : Nat) :
    s.dmaEnd die e (.slice sd idx) entry d status =
      if status = stDONE then (s.dmaFree die e).addHold die DMA_DONE_COUNT_COUNT 1
      else ((s.dmaFree die e).dmaErr die e 0 (dmCode status)).endSlice sd idx status := by
  by_cases h : status = stDONE <;>
    simp only [Device.dmaEnd, Device.dmaEndWith, Device.writeBack, Device.descAddr, Device.workJob, h, if_true, if_false]

/-! ### The clauses of O25 on a descriptor that is taken or refused -/

theorem dmaDescriptorStart_takes {s : State} (hs : s.dev.sound) {die e sd idx k entry : Nat} {d : List Nat} (he : e < 16)
    (hnext : s.dev.dmaNext die e (.slice sd idx) k = some (entry, d)) (hgood : dmBad s.dev.ownId d = false)
    (hnear : (dmSrcRemote d || dmDstRemote d) = false) :
    runs (.dmaDescriptorStart die e (.slice sd idx) k) s fun t =>
      t.dmaRun die e = some (some (.slice sd idx), entry, d) ∧ t.on die (DMA_ENG_STATUS_BUSY e) = true ∧
      t.rd die (DMA_ENG_STATUS_JOB e) = 0 ∧ keepsMem s.dev t ∧
      keepsFields s.dev t [(die, DMA_ENG_STATUS_BUSY e), (die, DMA_ENG_STATUS_JOB e), (die, DMA_AUDIT_DESC_OUT)] := by
  have hbody : dmaStartBody die e (.slice sd idx) k s.dev = s.dev.dmaTaken die e (.slice sd idx) entry d := by
    rw [dmaStartBody_slice hnext, if_neg (by simp [hgood]), if_neg (by simp [hnear])]
  exact ⟨_, exec_of_body hs rfl hbody (Device.dmaTaken_idle ..), rfl, Device.dmaRun_dmaTaken .., Device.dmaTaken_busy ..,
    Device.dmaTaken_job _ _ he .., fun _ => rfl, s.dev.keepsFields_dmaTaken die e _ entry d⟩

theorem Device.xlate_sliceLeaves (s : Device) (x : SliceRun) : (s.sliceLeaves x).xlate = s.xlate := by
  unfold Device.sliceLeaves
  by_cases hsig : slSignalEn (s.sliceRec x.die x.idx) = true
  · simp only [hsig, if_true]; rfl
  · simp only [hsig]; rfl

/-- A slice that ends with a status that does not fail it leaves the registers, and what translation and the engines hold. -/
theorem Device.endSlice_leaves {status : Nat} (h : sliceFails status = false) (s : Device) (die idx : Nat) :
    (s.endSlice die idx status).regs = s.regs ∧ (s.endSlice die idx status).xlate = s.xlate := by
  unfold Device.endSlice
  cases s.findSlice die idx with
  | none => exact ⟨rfl, rfl⟩
  | some x => simp only [Device.endRun, h]; exact ⟨s.regs_sliceLeaves x, s.xlate_sliceLeaves x⟩

/-- The first descriptor that ends with an error is recorded (R110). -/
def Device.dmaRecorded (s : Device) (die e job status : Nat) : Device :=
  (((s.set die DMA_ERR_STATUS_VALID).wr die DMA_ERR_STATUS_ENGINE e).wr die DMA_ERR_STATUS_JOB job).wr die DMA_ERR_STATUS_STATUS status

theorem Device.dmaErr_first {s : Device} {die : Nat} (h : s.on die DMA_ERR_STATUS_VALID = false) (e job status : Nat) :
    s.dmaErr die e job status = s.dmaRecorded die e job status := if_neg (by simp [h])

theorem Device.dmaRecorded_shows (s : Device) (die e job status : Nat) :
    (s.dmaRecorded die e job status).on die DMA_ERR_STATUS_VALID = true ∧
      (s.dmaRecorded die e job status).rd die DMA_ERR_STATUS_ENGINE = e % 16 ∧
      (s.dmaRecorded die e job status).rd die DMA_ERR_STATUS_STATUS = status % 256 := by
  refine ⟨?_, ?_, Device.rd_wr_same ..⟩
  · rw [Device.dmaRecorded, Device.on_wr_apart rfl, Device.on_wr_apart rfl, Device.on_wr_apart rfl]
    exact Device.on_wr_same ..
  · rw [Device.dmaRecorded, Device.rd_wr_apart rfl, Device.rd_wr_apart rfl]
    exact Device.rd_wr_same ..

theorem dmaDescriptorStart_refuses {s : State} (hs : s.dev.sound) {die e sd idx k entry : Nat} {d : List Nat} (he : e < 16)
    (hnext : s.dev.dmaNext die e (.slice sd idx) k = some (entry, d)) (hbad : dmBad s.dev.ownId d = true)
    (hfree : s.dev.on die DMA_ERR_STATUS_VALID = false) :
    runs (.dmaDescriptorStart die e (.slice sd idx) k) s fun t =>
      t.dmaRun die e = none ∧ t.on die DMA_ERR_STATUS_VALID = true ∧ t.rd die DMA_ERR_STATUS_ENGINE = e ∧
      t.rd die DMA_ERR_STATUS_STATUS = stBAD_DESCRIPTOR ∧ keepsMem s.dev t := by
  generalize hfreed : (s.dev.dmaTaken die e (.slice sd idx) entry d).dmaFree die e = x
  have hvalid : x.on die DMA_ERR_STATUS_VALID = false := by
    have htaken : (s.dev.dmaTaken die e (.slice sd idx) entry d).rd die DMA_ERR_STATUS_VALID = s.dev.rd die DMA_ERR_STATUS_VALID := by
      refine Device.keepsFields_dmaTaken s.dev die e _ entry d die _ ?_
      simp only [List.mem_cons, List.not_mem_nil, or_false, forall_eq_or_imp, forall_eq]
      have hengine : ∀ g ∈ engineFields e, DMA_ERR_STATUS_VALID.elsewhere g := fun g hg => Fld.belowEngines.elsewhere (by decide) he hg
      exact ⟨(hengine _ (.head _)).key_ne _ _, (hengine _ (.tail _ (.tail _ (.head _)))).key_ne _ _, Fld.key_ne_of_apart rfl _ _⟩
    rw [Device.on, ← hfreed, Device.rd_dmaFree (by decide) _ _ he, htaken, ← Device.on, hfree]
  have hcode : dmCode stBAD_DESCRIPTOR = stBAD_DESCRIPTOR := by decide
  have hbody : dmaStartBody die e (.slice sd idx) k s.dev = (x.dmaRecorded die e 0 stBAD_DESCRIPTOR).endSlice sd idx stBAD_DESCRIPTOR := by
    rw [dmaStartBody_slice hnext, if_pos hbad, Device.dmaEnd_slice, if_neg (by decide), hfreed, Device.dmaErr_first hvalid, hcode]
  obtain ⟨hregs, hxlate⟩ := Device.endSlice_leaves (status := stBAD_DESCRIPTOR) (by decide) (x.dmaRecorded die e 0 stBAD_DESCRIPTOR) sd idx
  obtain ⟨hset, hengine, hstatus⟩ := x.dmaRecorded_shows die e 0 stBAD_DESCRIPTOR
  have hrun : (x.dmaRecorded die e 0 stBAD_DESCRIPTOR).dmaRun die e = none := by
    simp only [Device.dmaRecorded, Device.set, Device.dmaRun_wr, ← hfreed, Device.dmaRun_dmaFree]
  have hidleFreed : x.idleSince s.dev := hfreed ▸ (Device.dmaFree_idle ..).trans (Device.dmaTaken_idle ..)
  have hidle : ((x.dmaRecorded die e 0 stBAD_DESCRIPTOR).endSlice sd idx stBAD_DESCRIPTOR).idleSince s.dev :=
    (Device.idleSince.of_accessView (Device.accessView_endSlice ..)).trans
      ((((hidleFreed.wr ..).wr ..).wr ..).wr ..)
  refine ⟨_, exec_of_body hs rfl hbody hidle, rfl, ?_, ?_, ?_, ?_, hidle.keepsMem⟩
  · exact (congrArg (fun y : XlateSt => SMap.get none y.dma (die * 16 + e)) hxlate).trans hrun
  · exact (congrArg (decide <| · ≠ 0) (Device.rd_congr hregs _ _)).trans hset
  · exact (Device.rd_congr hregs _ _).trans (hengine.trans (Nat.mod_eq_of_lt he))
  · exact (Device.rd_congr hregs _ _).trans hstatus

/-! ### The clause of O25 on a row that is moved -/

/-- Where a row lies below the fusion stores, no detection has come with it (R255). -/
theorem Device.takeDetections_below {s : Device} {die b n : Nat} {d : List Nat} (hd : dmOneRow d n) (hpa : s.paOf die 0 (dmDst d) = some b)
    (hbelow : b + n ≤ fusionBase 0) : s.takeDetections die d 0 = s := by
  have hout : ¬ fusionBase 0 + 0x240000 < b + n := by omega
  simp [Device.takeDetections, hd.rows, hd.length, hpa, Option.filter, hout]

/-- The device after one row of a descriptor: its bytes stored, its engine free, and the descriptor counted. -/
def Device.dmaRowDone (t : Device) (die e b v n : Nat) : Device := ((t.store b v n).dmaFree die e).addHold die DMA_DONE_COUNT_COUNT 1

theorem Device.tlb_dmaRowDone (t : Device) (die e b v n : Nat) : (t.dmaRowDone die e b v n).xlate.tlb = t.xlate.tlb := by
  rw [Device.dmaRowDone, Device.addHold, Device.wr_xlate, Device.xlate_dmaFree]
  show (t.store b v n).xlate.tlb = t.xlate.tlb
  rw [Device.store_xlate]

/-- Job 0's translation looks at the cached entries alone. -/
theorem Device.paOf_zero_congr {s t : Device} (h : t.xlate.tlb = s.xlate.tlb) (die va : Nat) : t.paOf die 0 va = s.paOf die 0 va := by
  simp only [Device.paOf, if_true, h]

theorem dmaDoneBody_oneRow {s : Device} {die e sd idx entry b src n : Nat} {d : List Nat} (he : e < 16) (hd : dmOneRow d n) (hclean : s.clean)
    (hrun : s.dmaRun die e = some (some (.slice sd idx), entry, d)) (hpark : s.on die (DMA_ENG_STATUS_PARKING e) = false)
    (hfence : s.isFenced die (mDma + e) = false) (hdst : s.mayAccess die (mDma + e) (dmDst d) b n true)
    (hsrc : dmOpcode d = 2 ∨ s.mayAccess die (mDma + e) (dmSrc d) src n false) (hpa : s.paOf die 0 (dmDst d) = some b)
    (hbelow : b + n ≤ fusionBase 0) :
    ∃ t : Device, t.onlyCounts s ∧ dmaDoneBody die e [] s = t.dmaRowDone die e b (s.dmaData d src n) n := by
  obtain ⟨t, ht, hmove⟩ := Device.dmaMove_oneRow he hd hclean hdst hsrc
  have hsignal : dmSignalEn (dmProgress d 1 0) = false := by
    rw [← hd.signal]; simp [dmSignalEn, dmProgress, wd]
  have hcomplete : (t.store b (s.dmaData d src n) n).dmaComplete die e (.slice sd idx) entry (dmProgress d 1 0) =
      t.dmaRowDone die e b (s.dmaData d src n) n := by
    simp [Device.dmaComplete, hsignal, Device.dmaEnd_slice, Device.dmaRowDone]
  have hpa' : (t.dmaRowDone die e b (s.dmaData d src n) n).paOf die 0 (dmDst d) = some b := by
    rw [← hpa]
    exact Device.paOf_zero_congr (by rw [Device.tlb_dmaRowDone, ht.view Device.xlate fun _ _ => rfl]) ..
  refine ⟨t, ht, ?_⟩
  have hfenced : s.dmaFenced die e = false := by rw [Device.dmaFenced, hfence]; rfl
  simp only [dmaDoneBody, Device.arise, List.foldl_nil, hrun, hpark, hd.near, hfenced, Device.workJob, hmove, hcomplete, hd.doneRows,
    Device.takeDetections_below hd hpa' hbelow]
  simp

theorem Device.dmaRowDone_idle (t : Device) (die e b v n : Nat) : (t.dmaRowDone die e b v n).idleSince (t.store b v n) :=
  (Device.dmaFree_idle ..).wr ..

theorem Device.requests_dmaRowDone (t : Device) (die e b v n : Nat) : (t.dmaRowDone die e b v n).requests = t.requests := by
  obtain ⟨-, hreqs, hregul⟩ := t.dmaRowDone_idle die e b v n
  rw [Device.requests, hreqs, hregul, Device.store_regReqs, Device.store_regul, ← Device.requests]

theorem Device.dmaRun_dmaRowDone (t : Device) (die e b v n : Nat) : (t.dmaRowDone die e b v n).dmaRun die e = none := by
  rw [Device.dmaRowDone, Device.addHold, Device.dmaRun_wr, Device.dmaRun_dmaFree]

theorem Device.count_dmaRowDone (t : Device) (die : Nat) {e : Nat} (he : e < 16) (b v n : Nat) :
    (t.dmaRowDone die e b v n).rd die DMA_DONE_COUNT_COUNT = min (t.rd die DMA_DONE_COUNT_COUNT + 1) (2 ^ DMA_DONE_COUNT_COUNT.w - 1) := by
  rw [Device.dmaRowDone, Device.rd_addHold_same, Device.rd_dmaFree (by decide) _ _ he, Device.rd_store]

theorem dmaDescriptorDone_moves {s : State} (hs : s.dev.sound) {die e sd idx entry b src n : Nat} {d : List Nat} (he : e < 16)
    (hd : dmOneRow d n) (hclean : s.dev.clean) (hrun : s.dev.dmaRun die e = some (some (.slice sd idx), entry, d))
    (hpark : s.dev.on die (DMA_ENG_STATUS_PARKING e) = false) (hfence : s.dev.isFenced die (mDma + e) = false)
    (hdst : s.dev.mayAccess die (mDma + e) (dmDst d) b n true)
    (hsrc : dmOpcode d = 2 ∨ s.dev.mayAccess die (mDma + e) (dmSrc d) src n false) (hpa : s.dev.paOf die 0 (dmDst d) = some b)
    (hbelow : b + n ≤ fusionBase 0) :
    runs (.dmaDescriptorDone die e []) s fun u =>
      u.dmaRun die e = none ∧
      (∀ i < n, u.byte (b + i) = if dmOpcode d = 2 then dmPattern d / 2 ^ (8 * (i % 4)) % 256 else s.dev.byte (src + i)) ∧
      u.rd die DMA_DONE_COUNT_COUNT = min (s.dev.rd die DMA_DONE_COUNT_COUNT + 1) (2 ^ DMA_DONE_COUNT_COUNT.w - 1) ∧
      ∀ a, (a < b ∨ b + n ≤ a) → u.byte a = s.dev.byte a := by
  obtain ⟨t, ht, hbody⟩ := dmaDoneBody_oneRow he hd hclean hrun hpark hfence hdst hsrc hpa hbelow
  have hcount : t.rd die DMA_DONE_COUNT_COUNT = s.dev.rd die DMA_DONE_COUNT_COUNT := ht.2 die _ (by decide)
  refine runs_of_requests (f := dmaDoneBody die e []) hs rfl ?_ ?_ <;> rw [hbody]
  · exact (Device.requests_dmaRowDone ..).trans (ht.view Device.requests fun _ _ => rfl)
  · refine ⟨(Device.dmaRun_canon ..).trans (Device.dmaRun_dmaRowDone ..), fun i hi => ?_, ?_, fun a ha => ?_⟩
    · rw [Device.canon_byte, (Device.dmaRowDone_idle ..).keepsMem, Device.byte_store _ _ _ hi, Device.dmaData_byte _ _ _ hi]
    · rw [Device.canon_rd, Device.count_dmaRowDone _ _ he, hcount]
    · rw [Device.canon_byte, (Device.dmaRowDone_idle ..).keepsMem, Device.byte_store_ne _ _ _ _ _ ha]
      exact congrFun (ht.view Device.byte fun _ _ => rfl) a

/-- Settles O25: a good descriptor is taken and a bad one recorded; a row in one pinned page is one unit, whose pages are ready, whose
accesses meet no error, and which ends the descriptor. -/
theorem dmaTakesAndFills : Obligations.DmaTakesAndFills := by
  intro s die e sd idx k entry d hs _ he
  refine ⟨dmaDescriptorStart_takes hs he, dmaDescriptorStart_refuses hs he, ?_⟩
  intro t b n hrun hpark hfence hop hnear hsignal hrows hdoneRows hdoneBytes hwords hlen hpos hle hpage hon hhit hpin hwr hb hstatus hecc hlink
    hroute hbelow hpa src q hsrc
  have hdst : s.dev.mayAccess die (mDma + e) (dmDst d) b n true :=
    ⟨⟨hon, t, hhit, hpin, by rw [hwr]; rfl, hb⟩, hpage, hstatus, hroute⟩
  refine dmaDescriptorDone_moves hs he ⟨hop, hnear, hsignal, hrows, hdoneRows, hdoneBytes, hwords, hlen, hpos, hle⟩ ⟨hecc, hlink⟩ hrun
    hpark hfence hdst (hsrc.imp_right ?_) hpa hbelow
  rintro ⟨hsrcPage, hsrcHit, hsrcPin, hrd, hsrcAt, hsrcStatus, hsrcRoute⟩
  exact ⟨⟨hon, q, hsrcHit, hsrcPin, by rw [hrd]; rfl, hsrcAt⟩, hsrcPage, hsrcStatus, hsrcRoute⟩

/-! ### Walks and terminal faults (R88, R91) -/

/-- A command whose body leaves memory and the requests as they are. -/
theorem runs_of_idle {c : Instr} {s : State} {f : Device → Device} {d : Device} {P : Device → Prop} (hs : s.dev.sound)
    (hx : exec c s = s.upd f) (hf : f s.dev = d) (hd : d.idleSince s.dev) (hP : P d) : runs c s P :=
  ⟨_, exec_of_body hs hx hf hd, rfl, hP⟩

theorem Device.translate_unpinned {s : Device} {die unit va : Nat} (hon : s.on 0 XLATE_CTL_EN = true) (hmiss : s.tlbHit die unit 0 va = none)
    (write : Bool) : s.translate die unit 0 va write = (s, .fault fkPIN_MISS 0) := by
  simp [Device.translate, hon, hmiss]

/-- The clause of O23 on a walk that finds an address. -/
theorem walkReturn_answers {s : State} {s1 : Device} {die unit entry va a : Nat} {w : Work} {write : Bool}
    (hwalk : s.dev.translate die unit (s.dev.workJob w) va write = (s1, .pa a)) (hs1 : s1.sound) :
    exec (.walkReturn die unit w entry va write) s = .next (s.withDev (s1.answer stDONE a)) := by
  have hbody : walkReturnBody die unit w entry va write s.dev = s1.answer stDONE a := by simp only [walkReturnBody, hwalk]
  have hdone : (s1.answer stDONE a).done = s1.answer stDONE a := Device.done_eq _ hs1
  exact congrArg (fun d => Host.Outcome.next (s.withDev d)) ((congrArg Device.done hbody).trans hdone)

theorem Device.cmdStatus_keeps {β : Type} {v : Device → β} (hv : ∀ (s : Device) (core : Nat) (c : Option CoreCmd), v (s.setCmd core c) = v s)
    (s : Device) (core status reason : Nat) : v (s.cmdStatus core status reason) = v s := by
  unfold Device.cmdStatus
  split
  · split
    · exact hv ..
    · rfl
  · rfl

/-- The fault of a slice's access at an address that is not pinned. -/
def Device.pinMiss (s : Device) (die unit entry va : Nat) (write : Bool) : XFault :=
  { die := die, unit := unit, job := 0, kind := fkPIN_MISS, write := write, dma := decide (mDma ≤ unit), heldCore := false, terminal := true
    slot := 0xFF, va := va, ring := frameRing, entry := entry, desc := [], id := 0, owner := jeOwner (s.jobEntry 0), queue := jeFq (s.jobEntry 0)
    time := s.chorus.time, stage := .raised }

theorem Device.raiseFault_pinMiss (s : Device) (die unit sd idx entry va : Nat) (write : Bool) :
    s.raiseFault die unit (.slice sd idx) entry fkPIN_MISS va write [] =
      s.setFaults (s.xlate.faults ++ [s.pinMiss die unit entry va write]) := by
  have hjob : fkPIN_MISS ≠ fkNO_JOB := by decide
  simp only [Device.raiseFault, Device.workJob, workRing, if_neg hjob, faultTerminal, decide_true, Bool.or_true, Device.setFaults, Device.pinMiss]

theorem walkReturnBody_pinMiss {s : Device} {die unit sd idx va : Nat} (hunit : unit < 64) (hon : s.on 0 XLATE_CTL_EN = true)
    (hmiss : s.tlbHit die unit 0 va = none) (entry : Nat) (write : Bool) :
    walkReturnBody die unit (.slice sd idx) entry va write s =
      ((s.answer stXLATE_FAULT 0).raiseFault die unit (.slice sd idx) entry fkPIN_MISS va write []).cmdStatus (die * 64 + unit)
        stXLATE_FAULT 0 := by
  have hcore : ¬ mDma ≤ unit := Nat.not_le.2 hunit
  have hterminal : faultTerminal 0 fkPIN_MISS = true := by decide
  have hstatus : faultStatus fkPIN_MISS = stXLATE_FAULT := by decide
  simp only [walkReturnBody, Device.workJob, Device.translate_unpinned hon hmiss, if_neg hcore, Device.coreFault, hterminal, if_true, hstatus,
    List.foldl_cons, List.foldl_nil]

/-- The clause of O23 on an address of job 0 without a pinned entry. -/
theorem walkReturn_pinMiss {s : State} (hs : s.dev.sound) {die unit sd idx va : Nat} (hunit : unit < 64) (hon : s.dev.on 0 XLATE_CTL_EN = true)
    (hmiss : s.dev.tlbHit die unit 0 va = none) (entry : Nat) (write : Bool) :
    runs (.walkReturn die unit (.slice sd idx) entry va write) s fun d =>
      d.reply = (stXLATE_FAULT, 0) ∧ keepsMem s.dev d ∧ d.regs = s.dev.regs ∧
      ∃ f, d.xlate.faults = s.dev.xlate.faults ++ [f] ∧ f.terminal = true ∧ f.kind = fkPIN_MISS ∧ f.va = va ∧ f.job = 0 := by
  have hbody := walkReturnBody_pinMiss (sd := sd) (idx := idx) hunit hon hmiss entry write
  obtain ⟨t, ht, hidle, hreply, hregs, hfaults⟩ : ∃ t : Device, s.dev.answer stXLATE_FAULT 0 = t ∧ t.idleSince s.dev ∧
      t.reply = (stXLATE_FAULT, 0) ∧ t.regs = s.dev.regs ∧ t.xlate.faults = s.dev.xlate.faults := ⟨_, rfl, ⟨rfl, rfl, rfl⟩, rfl, rfl, rfl⟩
  rw [ht, Device.raiseFault_pinMiss, hfaults] at hbody
  generalize hf : t.pinMiss die unit entry va write = f at hbody
  have hview := (t.setFaults (s.dev.xlate.faults ++ [f])).accessView_cmdStatus (die * 64 + unit) stXLATE_FAULT 0
  have hkeeps {β : Type} (v : Device → β) (hv : ∀ (s : Device) (core : Nat) (c : Option CoreCmd), v (s.setCmd core c) = v s) :=
    Device.cmdStatus_keeps hv (t.setFaults (s.dev.xlate.faults ++ [f])) (die * 64 + unit) stXLATE_FAULT 0
  have hafter := (Device.idleSince.of_accessView hview).trans (hidle : (t.setFaults (s.dev.xlate.faults ++ [f])).idleSince s.dev)
  exact runs_of_idle hs rfl hbody hafter ⟨(hkeeps Device.reply fun _ _ _ => rfl).trans hreply, hafter.keepsMem,
    (hkeeps Device.regs fun _ _ _ => rfl).trans hregs, f, congrArg XlateSt.faults (hkeeps Device.xlate fun _ _ _ => rfl),
    hf ▸ rfl, hf ▸ rfl, hf ▸ rfl, hf ▸ rfl⟩

/-! ### One fault in flight (R103, R106, R107) -/

theorem Device.job_setJob (s : Device) (j : Nat) (x : Job) : (s.setJob j x).job j = x := SMap.get_put_same ..

/-- With one fault in flight, another takes its place, or none. -/
theorem Device.swapFault_one {s : Device} {f : XFault} (h : s.xlate.faults = [f]) (g : XFault) : s.swapFault f g = s.setFaults [g] := by
  simp [Device.swapFault, h]

theorem filter_ne_one (f : XFault) : [f].filter (· ≠ f) = [] := by simp

/-- The job of a fault that parks is held. -/
def Device.holdJob (s : Device) (j : Nat) : Device := s.setJob j { s.job j with state := 2 }

theorem Device.state_holdJob (s : Device) (j : Nat) : ((s.holdJob j).job j).state = 2 := by
  rw [Device.holdJob, Device.job_setJob]

theorem Device.find_raised {s : Device} {f : XFault} (h : s.xlate.faults = [f]) (hstage : f.stage = .raised) (hterm : f.terminal = false) :
    (s.xlate.faults.find? fun x => x.die = f.die ∧ x.unit = f.unit ∧ x.stage = .raised ∧ ¬ x.terminal) = some f := by
  simp [h, hstage, hterm]

/-- An engine's fault that parks: the engine gives up the descriptor, and the job is held. -/
theorem faultParkBody_dma {s : Device} {f : XFault} (h : s.xlate.faults = [f]) (hdma : f.dma = true) (hterm : f.terminal = false)
    (hstage : f.stage = .raised) (hjob : (s.job f.job).state = 1) : faultParkBody f.die f.unit s =
      ((s.holdJob f.job).setFaults [{ f with stage := .parked, time := s.chorus.time, desc := dmStatus f.desc stPARKED }]).dmaFree
        f.die (f.unit - mDma) := by
  have hone : (s.holdJob f.job).xlate.faults = [f] := h
  rw [← Device.swapFault_one hone]
  simp only [faultParkBody, Device.find_raised h hstage hterm, hjob, hdma, if_true, Device.holdJob]

/-- The clause of O23 on an engine's fault. -/
theorem faultPark_dma {s : State} (hs : s.dev.sound) {die e : Nat} {f : XFault} (h : s.dev.xlate.faults = [f]) (hdie : f.die = die)
    (hunit : f.unit = mDma + e) (hdma : f.dma = true) (hterm : f.terminal = false) (hstage : f.stage = .raised)
    (hjob : (s.dev.job f.job).state = 1) :
    runs (.faultPark die (mDma + e)) s fun d =>
      d.xlate.faults = [{ f with stage := .parked, time := s.dev.chorus.time, desc := dmStatus f.desc stPARKED }] ∧
      d.dmaRun die e = none ∧ (d.job f.job).state = 2 ∧ d.on die (DMA_ENG_STATUS_BUSY e) = false ∧ keepsMem s.dev d := by
  have hbody := faultParkBody_dma h hdma hterm hstage hjob
  have hheld := s.dev.state_holdJob f.job
  obtain ⟨x, hx, hxidle, hxfaults, hxjob⟩ : ∃ x : Device, (s.dev.holdJob f.job).setFaults
      [{ f with stage := .parked, time := s.dev.chorus.time, desc := dmStatus f.desc stPARKED }] = x ∧ x.idleSince s.dev ∧
      x.xlate.faults = [{ f with stage := .parked, time := s.dev.chorus.time, desc := dmStatus f.desc stPARKED }] ∧
      (x.job f.job).state = 2 := ⟨_, rfl, ⟨rfl, rfl, rfl⟩, rfl, hheld⟩
  rw [hx, hdie, hunit, Nat.add_sub_cancel_left] at hbody
  have hidle : (x.dmaFree die e).idleSince s.dev := (Device.dmaFree_idle ..).trans hxidle
  have hjobs : (x.dmaFree die e).job f.job = x.job f.job := by rw [Device.job, Device.disp_dmaFree, Device.job]
  refine runs_of_idle hs rfl hbody hidle ⟨?_, x.dmaRun_dmaFree die e, ?_, x.dmaFree_busy die e, hidle.keepsMem⟩
  · rw [Device.xlate_dmaFree]
    exact hxfaults
  · rw [hjobs, hxjob]

/-! ### The queue's head, and answers to faults (R106, R107) -/

theorem Device.drainPending_none {s : Device} (h : s.xlate.faults = []) (q n : Nat) : s.drainPending q n = s := by
  cases n with
  | zero => rfl
  | succ n => simp [Device.drainPending, h]

/-- The clause of O23 on a head that moves with no record pending. -/
theorem exec_xlateFqHeadWrite {s : State} (hs : s.dev.sound) (h : s.dev.xlate.faults = []) (q value : Nat) :
    exec (.xlateFqHeadWrite 0 q value) s = .next (s.withDev (s.dev.wr 0 (XLATE_FQ_HEAD_INDEX q) (value % 65536))) := by
  have hnone : (s.dev.wr 0 (XLATE_FQ_HEAD_INDEX q) (bits value 0 16)).xlate.faults = [] := h
  refine exec_of_body hs rfl ?_ ⟨rfl, rfl, rfl⟩
  rw [fqHeadBody, if_neg (by decide), Device.drainPending_none hnone, bits_zero]
  rfl

/-- The clauses of O23 on an answer that names no parked fault. -/
theorem exec_resume_none {s : State} (hs : s.dev.sound) {id : Nat} (h : s.dev.parkedFault id = none) :
    exec (.resumeRetry 0 id) s = .next (s.withDev (s.dev.set 0 XLATE_STATUS_BAD_RESUME)) ∧
      exec (.resumeAbort 0 id) s = .next (s.withDev (s.dev.set 0 XLATE_STATUS_BAD_RESUME)) := by
  refine ⟨exec_of_body hs rfl ?_ ⟨rfl, rfl, rfl⟩, exec_of_body hs rfl ?_ ⟨rfl, rfl, rfl⟩⟩
  · rw [resumeRetryBody, if_neg (by decide), h]
  · rw [resumeAbortBody, if_neg (by decide), h]

/-- A job whose last fault is answered is released. -/
theorem Device.releaseJob_last {s : Device} {j : Nat} (h : s.xlate.faults = []) (hjob : (s.job j).state = 2) :
    s.releaseJob j = s.setJob j { s.job j with state := 1 } := by
  simp [Device.releaseJob, hjob, h]

/-- What waits to be resumed after a core's fault is answered: its kernel, unless the core was held. -/
def XFault.resumes (f : XFault) : List (Nat × Nat × Nat) := if f.heldCore then [] else [(f.die * 64 + f.unit, f.ring, f.slot)]

/-- The device with kernels added to those that are to be resumed. -/
def Device.addResumed (s : Device) (l : List (Nat × Nat × Nat)) : Device := { s with disp := { s.disp with resumed := s.disp.resumed ++ l } }

theorem resumeRetryBody_core {s : Device} {id : Nat} {f : XFault} (h : s.xlate.faults = [f]) (hid : s.parkedFault id = some f)
    (hdma : f.dma = false) (hjob : (s.job f.job).state = 2) (hkernel : s.kernelOf f.ring = none) : resumeRetryBody 0 id s =
      ((s.setFaults []).addResumed f.resumes).setJob f.job { s.job f.job with state := 1 } := by
  have hnone : (s.setFaults (s.xlate.faults.filter (· ≠ f))) = s.setFaults [] := by rw [h, filter_ne_one]
  have hkernel' : (s.setFaults []).kernelOf f.ring = none := hkernel
  have hrelease := ((s.setFaults []).addResumed f.resumes).releaseJob_last (j := f.job) rfl hjob
  rw [resumeRetryBody, if_neg (by decide), hid]
  cases hheld : f.heldCore with
  | true =>
    have hsame : (s.setFaults []).addResumed f.resumes = s.setFaults [] := by simp [XFault.resumes, hheld, Device.addResumed, Device.setFaults]
    rw [hsame] at hrelease ⊢
    simp only [hnone, hdma, hheld, if_true, hkernel', Bool.false_eq_true, if_false, hrelease]
    rfl
  | false =>
    have hadd : (s.setFaults []).addResumed f.resumes = (s.setFaults []).addResumed [(f.die * 64 + f.unit, f.ring, f.slot)] := by
      simp [XFault.resumes, hheld]
    rw [hadd] at hrelease ⊢
    simp only [hnone, hdma, hheld, Bool.false_eq_true, if_false]
    exact hrelease

/-- The clause of O23 on a retry of a job's last fault. -/
theorem resumeRetry_releases {s : State} (hs : s.dev.sound) {id : Nat} {f : XFault} (h : s.dev.xlate.faults = [f])
    (hid : s.dev.parkedFault id = some f) (hdma : f.dma = false) (hjob : (s.dev.job f.job).state = 2) (hkernel : s.dev.kernelOf f.ring = none) :
    runs (.resumeRetry 0 id) s fun d =>
      d.xlate.faults = [] ∧ (d.job f.job).state = 1 ∧ d.regs = s.dev.regs ∧ keepsMem s.dev d ∧
      d.disp.resumed = s.dev.disp.resumed ++ (if f.heldCore then [] else [(f.die * 64 + f.unit, f.ring, f.slot)]) := by
  refine runs_of_idle hs rfl (resumeRetryBody_core h hid hdma hjob hkernel) ⟨rfl, rfl, rfl⟩ ⟨rfl, ?_, rfl, fun _ => rfl, rfl⟩
  exact congrArg Job.state (Device.job_setJob ..)

/-- The clause of O23 on the abort of a fault of a slice. -/
theorem exec_resumeAbort_slice {s : State} (hs : s.dev.sound) {id : Nat} {f : XFault} (hid : s.dev.parkedFault id = some f)
    (hring : f.ring = frameRing) :
    exec (.resumeAbort 0 id) s = .next (s.withDev (s.dev.setFaults (s.dev.xlate.faults.filter (· ≠ f)))) := by
  refine exec_of_body hs rfl ?_ ⟨rfl, rfl, rfl⟩
  rw [resumeAbortBody, if_neg (by decide), hid]
  exact if_pos (.inr hring)

/-! ### A copy of memory that meets no error -/

theorem SMap.get_of_mem {V : Type} {d : V} {m : SMap V} (h : SMap.sorted m = true) {e : Nat × V} (he : e ∈ m) : SMap.get d m e.1 = e.2 := by
  induction m with
  | nil => cases he
  | cons f r ih =>
    obtain rfl | he := List.mem_cons.1 he
    · exact if_pos rfl
    · rw [SMap.get, if_neg (SMap.sorted_head h e he).ne, ih (SMap.sorted_tail h) he]

/-- A key reads as `v` once entries are inserted, if all that are inserted there hold `v`, and `v` is there already where none is. -/
theorem SMap.get_insAll {V : Type} {d v : V} {k : Nat} {l : List (Nat × V)} {m : SMap V} (h : ∀ e ∈ l, e.1 = k → e.2 = v)
    (hk : SMap.get d m k = v ∨ ∃ e ∈ l, e.1 = k) : SMap.get d (SMap.insAll l m) k = v := by
  induction l generalizing m with
  | nil => exact hk.resolve_right fun ⟨_, hx, _⟩ => nomatch hx
  | cons e l ih =>
    refine ih (fun x hx => h x (.tail _ hx)) ?_
    by_cases hek : e.1 = k
    · subst hek
      exact .inl ((SMap.get_ins_same d m e.1 e.2).trans (h e (.head _) rfl))
    · obtain hm | ⟨x, hx, hxk⟩ := hk
      · exact .inl ((SMap.get_ins_ne d m e.2 (Ne.symm hek)).trans hm)
      · exact .inr ⟨x, ((List.mem_cons.1 hx).resolve_left fun hxe => hek (hxe ▸ hxk)), hxk⟩

/-- A copy leaves the bytes of its source at its destination. -/
theorem Device.byte_copyRange {s : Device} (hs : SMap.sorted s.mem = true) (src dst : Nat) {n i : Nat} (hi : i < n) :
    (s.copyRange src dst n).byte (dst + i) = s.byte (src + i) := by
  refine congrArg BitVec.toNat (SMap.get_insAll ?_ ?_)
  · intro e he hkey
    obtain ⟨x, hx, rfl⟩ := List.mem_map.1 he
    obtain ⟨hx, hin⟩ := List.mem_filter.1 hx
    simp only [Bool.and_eq_true, decide_eq_true_eq] at hin hkey
    have hsrc : src + i = x.1 := by omega
    rw [hsrc, SMap.get_of_mem hs hx]
  · by_cases hhas : ∃ x ∈ s.mem, x.1 = src + i
    · obtain ⟨x, hx, hkey⟩ := hhas
      refine .inr ⟨_, List.mem_map_of_mem (List.mem_filter.2 ⟨hx, ?_⟩), ?_⟩
      · simp only [hkey, Bool.and_eq_true, decide_eq_true_eq]; omega
      · simp only [hkey]; omega
    · have hnone : SMap.get (0 : Byte) s.mem (src + i) = 0 := SMap.get_of_notMem fun x hx hkey => hhas ⟨x, hx, hkey⟩
      have hcleared : (!(decide (dst ≤ dst + i) && decide (dst + i < dst + n))) = false := by simp [hi]
      rw [hnone, SMap.get_filter_keys (0 : Byte) (fun k => !(decide (dst ≤ k) && decide (k < dst + n))), hcleared]
      exact .inl rfl

theorem Device.byte_copyRange_ne (s : Device) (src dst n : Nat) {a : Nat} (ha : a < dst ∨ dst + n ≤ a) :
    (s.copyRange src dst n).byte a = s.byte a := by
  refine congrArg BitVec.toNat (SMap.get_insAll ?_ (.inl ?_))
  · intro e he hkey
    obtain ⟨x, hx, rfl⟩ := List.mem_map.1 he
    obtain ⟨-, hin⟩ := List.mem_filter.1 hx
    simp only [Bool.and_eq_true, decide_eq_true_eq] at hin hkey
    omega
  · have hkept : (!(decide (dst ≤ a) && decide (a < dst + n))) = true := by simp; omega
    rw [SMap.get_filter_keys (0 : Byte) (fun k => !(decide (dst ≤ k) && decide (k < dst + n))), hkept, if_pos rfl]

theorem Device.clean.badWords {s : Device} (h : s.clean) (a n : Nat) : s.badWords a n = [] := by
  obtain ⟨hecc, hlink⟩ := h
  simp [Device.badWords, hecc, hlink]

theorem Device.clean.copyRange {s : Device} (h : s.clean) (src dst n : Nat) : (s.copyRange src dst n).clean :=
  ⟨by simp [Device.copyRange, h.1], h.2⟩

theorem Device.clean.copyChk {s : Device} (h : s.clean) (src dst n : Nat) : s.copyChk src dst n = (s.copyRange src dst n, false) := by
  simp only [Device.copyChk, h.badWords, (h.copyRange src dst n).badWords, List.foldl_nil, List.any_nil, Bool.false_eq_true, if_false]

/-! ### A core's fault parks (R103, R104) -/

/-- The device once the `n` bytes of a core's store and `m` bytes of its sequencer's image are saved in a slot. -/
def Device.saveCore (s : Device) (src slot n m : Nat) : Device :=
  { (s.copyRange src slot n).store (slot + n) (Config.sequencerImage s.fresh) m with fresh := s.fresh + 1 }

/-- Saving a core changes memory, its errors and the count of images alone. -/
theorem Device.saveCore_keeps {β : Type} {v : Device → β}
    (hv : ∀ (s : Device) (m : SMap Byte) (p : PondSt) (k : Nat), v { s with mem := m, pond := p, fresh := k } = v s) (s : Device)
    (src slot n m : Nat) : v (s.saveCore src slot n m) = v s :=
  calc v (s.saveCore src slot n m)
    _ = v ((s.copyRange src slot n).store (slot + n) (Config.sequencerImage s.fresh) m) := hv ..
    _ = v (s.copyRange src slot n) := Device.store_keeps (fun t a x => hv t (t.setByte a x).mem t.pond t.fresh) ..
    _ = v s := hv s (s.copyRange src slot n).mem (s.copyRange src slot n).pond s.fresh

theorem Device.byte_saveCore {s : Device} (hs : SMap.sorted s.mem = true) (src slot : Nat) {n i : Nat} (hi : i < n) (m : Nat) :
    (s.saveCore src slot n m).byte (slot + i) = s.byte (src + i) :=
  (Device.byte_store_ne _ (slot + n) _ _ _ (.inl (Nat.add_lt_add_left hi slot))).trans (Device.byte_copyRange hs src slot hi)

theorem Device.byte_saveCore_ne (s : Device) (src slot n m : Nat) {a : Nat} (ha : a < slot ∨ slot + (n + m) ≤ a) :
    (s.saveCore src slot n m).byte a = s.byte a := by
  have hcopy : a < slot ∨ slot + n ≤ a := by omega
  have himage : a < slot + n ∨ slot + n + m ≤ a := by omega
  exact (Device.byte_store_ne _ (slot + n) _ _ _ himage).trans (s.byte_copyRange_ne src slot n hcopy)

/-- With one fault in flight that holds no slot, and no kernel to resume, every slot is free. -/
theorem Device.slotsUsed_none {s : Device} {f : XFault} (h : s.xlate.faults = [f]) (hslot : f.slot = 0xFF) (hres : s.disp.resumed = [])
    (die core : Nat) : s.slotsUsed die core = [] := by
  simp [Device.slotsUsed, h, hslot, hres]

theorem Device.kernelOf_swapFault (s : Device) (f g : XFault) (r : Nat) : (s.swapFault f g).kernelOf r = s.kernelOf r := rfl

/-- A core's fault that parks, where every slot is free and no kernel runs: the core is saved in slot 0 and is free. -/
theorem faultParkBody_core {s : Device} {f : XFault} (h : s.xlate.faults = [f]) (hdma : f.dma = false) (hterm : f.terminal = false)
    (hstage : f.stage = .raised) (hslot : f.slot = 0xFF) (hres : s.disp.resumed = []) (hkernel : s.kernelOf f.ring = none) (hclean : s.clean)
    (hjob : (s.job f.job).state = 1) : faultParkBody f.die f.unit s =
      (((s.holdJob f.job).saveCore (coreStoreBase f.die f.unit) (s.saveSlot f.die f.unit 0) 0x40000 0x1000).setFaults
        [{ f with stage := .parked, time := s.chorus.time, slot := 0 }]).setCmd (f.die * 64 + f.unit) none := by
  have hheld : (s.holdJob f.job).clean := hclean
  have hset : s.setJob f.job { s.job f.job with state := 2 } = s.holdJob f.job := rfl
  have hfree : ([0, 1, 2, 3].filter fun n => !(s.slotsUsed f.die f.unit).contains n) = [0, 1, 2, 3] := by
    rw [Device.slotsUsed_none h hslot hres]; rfl
  simp only [faultParkBody, Device.find_raised h hstage hterm, hjob, hdma, if_true, Bool.false_eq_true, if_false, hfree, hset, hheld.copyChk]
  generalize 0x40000 = n
  generalize 0x1000 = m
  generalize s.saveSlot f.die f.unit 0 = slot
  have hone : ((s.holdJob f.job).saveCore (coreStoreBase f.die f.unit) slot n m).xlate.faults = [f] :=
    (congrArg XlateSt.faults (Device.saveCore_keeps (fun _ _ _ _ => rfl) ..)).trans h
  have hnone : ((s.holdJob f.job).saveCore (coreStoreBase f.die f.unit) slot n m).kernelOf f.ring = none :=
    (Device.saveCore_keeps (v := fun d => d.kernelOf f.ring) (fun _ _ _ _ => rfl) (s.holdJob f.job) _ slot n m).trans hkernel
  rw [← Device.kernelOf_swapFault _ f { f with stage := .parked, time := s.chorus.time, slot := 0 }] at hnone
  split
  · next k hk => exact absurd (hnone.symm.trans hk) (Option.some_ne_none k).symm
  · exact congrArg (·.setCmd (f.die * 64 + f.unit) none) (Device.swapFault_one hone _)

theorem Device.cmd_setCmd (s : Device) (core : Nat) (c : Option CoreCmd) : (s.setCmd core c).cmd core = c := SMap.get_put_same ..

theorem Device.cmd_canon (s : Device) (core : Nat) : s.canon.cmd core = s.cmd core := rfl

/-- The clause of O23 on a core's fault. -/
theorem faultPark_core {s : State} (hs : s.dev.sound) {die unit : Nat} {f : XFault} (h : s.dev.xlate.faults = [f]) (hdie : f.die = die)
    (hunit : f.unit = unit) (hdma : f.dma = false) (hterm : f.terminal = false) (hstage : f.stage = .raised) (hslot : f.slot = 0xFF)
    (hres : s.dev.disp.resumed = []) (hkernel : s.dev.kernelOf f.ring = none) (hclean : s.dev.clean) (hjob : (s.dev.job f.job).state = 1) :
    runs (.faultPark die unit) s fun d =>
      d.xlate.faults = [{ f with stage := .parked, time := s.dev.chorus.time, slot := 0 }] ∧ (d.job f.job).state = 2 ∧
      d.cmd (die * 64 + unit) = none ∧ d.regs = s.dev.regs ∧
      (∀ i < 0x40000, d.byte (s.dev.saveSlot die unit 0 + i) = s.dev.byte (coreStoreBase die unit + i)) ∧
      ∀ a, ¬ (s.dev.saveSlot die unit 0 ≤ a ∧ a < s.dev.saveSlot die unit 0 + 0x41000) → d.byte a = s.dev.byte a := by
  subst hdie hunit
  have hbody := faultParkBody_core h hdma hterm hstage hslot hres hkernel hclean hjob
  have hsorted : SMap.sorted (s.dev.holdJob f.job).mem = true := ((Bool.and_eq_true ..).mp hs.1).1
  have hheld := s.dev.state_holdJob f.job
  generalize s.dev.saveSlot f.die f.unit 0 = slot at hbody ⊢
  obtain ⟨t, ht, hrequests, hregs, hjobs, hbyte, helse⟩ : ∃ t : Device,
      (s.dev.holdJob f.job).saveCore (coreStoreBase f.die f.unit) slot 0x40000 0x1000 = t ∧ t.requests = s.dev.requests ∧
      t.regs = s.dev.regs ∧ (t.job f.job).state = 2 ∧
      (∀ i < 0x40000, t.byte (slot + i) = s.dev.byte (coreStoreBase f.die f.unit + i)) ∧
      ∀ a, a < slot ∨ slot + 0x41000 ≤ a → t.byte a = s.dev.byte a :=
    ⟨_, rfl, Device.saveCore_keeps (v := Device.requests) (fun _ _ _ _ => rfl) _ _ slot 0x40000 0x1000,
      Device.saveCore_keeps (v := Device.regs) (fun _ _ _ _ => rfl) _ _ slot 0x40000 0x1000,
      (Device.saveCore_keeps (v := fun d => (d.job f.job).state) (fun _ _ _ _ => rfl) _ _ slot 0x40000 0x1000).trans hheld,
      fun i hi => Device.byte_saveCore hsorted _ slot hi 0x1000, fun a ha => Device.byte_saveCore_ne _ _ slot 0x40000 0x1000 ha⟩
  rw [ht] at hbody
  refine runs_of_requests (f := faultParkBody f.die f.unit) hs rfl ?_ ?_ <;> rw [hbody]
  · exact hrequests
  · refine ⟨rfl, hjobs, (Device.cmd_canon ..).trans (Device.cmd_setCmd ..), hregs, fun i hi => ?_, fun a ha => ?_⟩
    · rw [Device.canon_byte]
      exact hbyte i hi
    · rw [Device.canon_byte]
      exact helse a (by omega)

/-! ### What a message leaves (R207, R448) -/

/-- A device is another but for block 0's registers, the bytes of a range, and what translation and the requests do not hold. -/
structure Device.onlyAt (t s : Device) (a n : Nat) : Prop where
  xlate : t.xlate = s.xlate
  requests : t.requests = s.requests
  fields : ∀ (e : Nat) (f : Fld), f.inMap → f.blk ≠ 0 → t.rd e f = s.rd e f
  bytes : ∀ b, b < a ∨ a + n ≤ b → t.byte b = s.byte b

section
variable {t s : Device} {a n : Nat}

theorem Device.onlyAt.refl (s : Device) (a n : Nat) : s.onlyAt s a n := ⟨rfl, rfl, fun _ _ _ _ => rfl, fun _ _ => rfl⟩

theorem Device.onlyAt.wr (h : t.onlyAt s a n) {f : Fld} (hf : f.inMap ∧ f.blk = 0) (d v : Nat) : (t.wr d f v).onlyAt s a n where
  xlate := h.xlate
  requests := h.requests
  fields e g hg hblk := (Device.rd_wr_elsewhere ⟨hg, hf.1, .inl fun heq => hblk (heq.trans hf.2)⟩).trans (h.fields e g hg hblk)
  bytes := h.bytes

theorem Device.onlyAt.xfer (h : t.onlyAt s a n) (x y : Nat) : (t.xfer x y).onlyAt s a n :=
  Device.xfer_keeps (P := fun u => u.onlyAt s a n)
    (fun _ d f hf hu => hu.wr ((by decide : ∀ g ∈ bridgeCounts, g.inMap ∧ g.blk = 0) f hf) d _) h x y

theorem Device.onlyAt.store (h : t.onlyAt s a n) (v : Nat) : (t.store a v n).onlyAt s a n where
  xlate := (Device.store_xlate ..).trans h.xlate
  requests := (Device.store_keeps (f := Device.requests) (fun _ _ _ => rfl) t a v n).trans h.requests
  fields e f hf hblk := (Device.rd_store ..).trans (h.fields e f hf hblk)
  bytes b hb := (t.byte_store_ne a v n b hb).trans (h.bytes b hb)

theorem Device.onlyAt.recordUnmapped (h : t.onlyAt s a n) (own src master b : Nat) (write : Bool) :
    (t.recordUnmapped own src master b write).onlyAt s a n := by
  unfold Device.recordUnmapped
  split
  · exact h.wr (by decide) ..
  · exact (((((h.wr (by decide) ..).wr (by decide) ..).wr (by decide) ..).wr (by decide) ..).wr (by decide) ..).wr (by decide) ..

theorem Device.onlyAt.timeoutErr (h : t.onlyAt s a n) (die master b : Nat) (remote write : Bool) :
    (t.timeoutErr die master b remote write).onlyAt s a n := by
  have hcount : (t.addHold die DIE_CTL_ERR_COUNT_TIMEOUTS 1).onlyAt s a n := h.wr (by decide) ..
  rw [Device.timeoutErr, Device.recordErr]
  split
  · exact hcount.wr (by decide) ..
  · exact ((((((hcount.wr (by decide) ..).wr (by decide) ..).wr (by decide) ..).wr (by decide) ..).wr (by decide) ..).wr (by decide) ..).wr
      (by decide) ..

theorem Device.onlyAt.accessError (h : t.onlyAt s a n) (src master b status : Nat) (write : Bool) :
    (t.accessError src master b status write).onlyAt s a n := by
  unfold Device.accessError
  split
  · exact h.recordUnmapped ..
  · split
    · exact h.timeoutErr ..
    · exact h

theorem Device.onlyAt.answered (h : t.onlyAt s a n) (src master die b status : Nat) (write : Bool) :
    (t.answered src master die b status write).1.onlyAt s a n := by
  unfold Device.answered
  split
  · exact h.xfer ..
  · exact h.timeoutErr ..

theorem Device.onlyAt.setEip (h : t.onlyAt s a n) (die hart lvl id : Nat) : (t.setEip die hart lvl id).onlyAt s a n := by
  unfold Device.setEip
  split
  · exact h
  · exact ⟨h.xlate, h.requests, h.fields, h.bytes⟩

/-- A write that meets no error of memory changes the bytes it names, or none. -/
theorem Device.onlyAt.writeChk (h : t.onlyAt s a n) (hclean : t.clean) (src master v : Nat) :
    (t.writeChk src master a n v).1.onlyAt s a n := by
  by_cases hdone : t.accessStatus src master a n true = stDONE
  · have hno := (((Device.onlyCounts.refl t).xfer src (t.homeDie (t.region a))).clean hclean).noErrors a n
    simp only [Device.writeChk, hdone, ne_eq, not_true_eq_false, if_false, Device.partReads_clean hno, Device.writeBad_clean (hclean.noErrors a n),
      Device.writeWords_clean hno, Bool.false_eq_true]
    exact ((h.xfer ..).store v).answered ..
  · simp only [Device.writeChk, ne_eq, hdone, not_false_eq_true, if_true]
    exact h.accessError ..

theorem Device.reg_lt_of_region {d blk off : Nat} (h : s.region a = .reg d blk off) : off < 0x10000 := by
  unfold Device.region at h
  split_ifs at h
  cases h
  exact Nat.mod_lt _ (by decide)

/-- A message leaves all but the four bytes it is written to. -/
theorem Device.onlyAt.msiWrite (h : t.onlyAt s a 4) (hclean : t.clean) (hplain : t.plainMsi a) (src master v : Nat) :
    (t.msiWrite src master a v).onlyAt s a 4 := by
  have hemit (m : Msg) : (t.emit m).onlyAt s a 4 := ⟨h.xlate, h.requests, h.fields, h.bytes⟩
  have hregion (m : Msg) : (t.emit m).region a = t.region a := rfl
  have hwrite (m : Msg) := (hemit m).writeChk (show (t.emit m).clean from hclean) src master v
  cases hr : t.region a with
  | reg d blk off =>
    have hne : a ≠ 0 := by
      rintro rfl
      have hpond := t.region_pond (die := 0) (off := 0) (by decide) (by decide)
      exact Region.noConfusion (hpond.symm.trans hr)
    obtain ⟨rfl, hlo, halign⟩ := hplain.resolve_left hne d blk off hr
    simp only [Device.msiWrite, hregion, hr, if_pos (And.intro hlo (And.intro halign (Device.reg_lt_of_region hr)))]
    split
    · exact ((hemit _).setEip ..).xfer ..
    · exact (hemit _).timeoutErr ..
  | _ =>
    simp only [Device.msiWrite, hregion, hr]
    exact hwrite _

end

/-! ### The record of a fault (R105, R106) -/

/-- A routed write, with what it leaves. -/
theorem Device.writeChk_stores {s : Device} {src master a n : Nat} (hclean : s.clean) (ha : s.accessStatus src master a n true = stDONE)
    (hroute : s.routeUp (s.homeDie (s.region a)) src = true) (v : Nat) : ∃ u : Device, s.writeChk src master a n v = (u, stDONE) ∧ u.clean ∧
      u.xlate = s.xlate ∧ u.requests = s.requests ∧ (∀ (e : Nat) (f : Fld), f.uncounted → u.rd e f = s.rd e f) ∧
      ∀ i < n, u.byte (a + i) = v / 256 ^ i % 256 := by
  obtain ⟨t, ht, hwrite⟩ := Device.writeChk_routed hclean ha hroute v
  refine ⟨_, hwrite, ?_, ?_, ?_, fun e f hf => (Device.rd_store ..).trans (ht.2 e f hf), fun i hi => Device.byte_store _ _ _ hi⟩
  · rw [Device.clean, Device.store_pond]
    exact ht.clean hclean
  · exact (Device.store_xlate ..).trans (ht.view Device.xlate fun _ _ => rfl)
  · exact (Device.store_keeps (f := Device.requests) (fun _ _ _ => rfl) ..).trans (ht.view Device.requests fun _ _ => rfl)

theorem Device.sameMap.plainMsi {t s : Device} (h : t.sameMap s) {a : Nat} (hs : s.plainMsi a) : t.plainMsi a := by
  simpa only [Device.plainMsi, h.region] using hs

/-- The registers of the fault queues. -/
abbrev Fld.ofQueues (f : Fld) : Prop := f.inMap ∧ f.blk = 3 ∧ 0x40 ≤ f.off

theorem ofQueues_queue {q : Nat} (hq : q < 4) : ∀ f ∈ [XLATE_FQ_BASE_LO_ADDR q, XLATE_FQ_BASE_HI_ADDR q, XLATE_FQ_CTL_EN q,
    XLATE_FQ_CTL_LOG2_SIZE q, XLATE_FQ_HEAD_INDEX q, XLATE_FQ_TAIL_INDEX q, XLATE_FQ_MSI_LO_VALUE q, XLATE_FQ_MSI_HI_VALUE q,
    XLATE_FQ_MSI_DATA_VALUE q], f.ofQueues := by
  revert q
  decide

theorem Fld.ofQueues.elsewhere_map {f : Fld} (hf : f.ofQueues) : ∀ g ∈ mapFields, g.elsewhere f := fun g hg => by
  obtain ⟨hmap, hblk⟩ := (by decide : ∀ g ∈ mapFields, g.inMap ∧ g.blk ≠ 3) g hg
  exact ⟨hmap, hf.1, .inl (hf.2.1 ▸ hblk)⟩

/-- What a requester of fault records reaches depends on the map of addresses and the queues' ranges (R30). -/
theorem Device.reachesIn_fault_congr {s t : Device} {a n : Nat} (h : t.inFaultQueue a n = s.inFaultQueue a n) (src : Nat) (w : Bool)
    (r : Region) : t.reachesIn src mFault a n w r = s.reachesIn src mFault a n w r := by
  cases r <;> simp [Device.reachesIn, mFault, mSafety, mScrub, mSelftest, mWipe, mReflex, mFusion, h]

/-- Where a queue's next record lies. -/
def Device.recordAddr (s : Device) (q : Nat) : Nat := s.fqBase q + 128 * s.rd 0 (XLATE_FQ_TAIL_INDEX q)

/-- Where a queue's message goes. -/
def Device.recordMsi (s : Device) (q : Nat) : Nat := s.rd 0 (XLATE_FQ_MSI_LO_VALUE q) + 2 ^ 32 * (s.rd 0 (XLATE_FQ_MSI_HI_VALUE q) % 65536)

/-- The record of a parked fault is written, the tail moves and the message goes. -/
theorem Device.writeFaultRecord_records {s : Device} {f : XFault} (h : s.xlate.faults = [f]) (hterm : f.terminal = false)
    (hstage : f.stage = .parked) (hq : f.queue < 4) (hclean : s.clean)
    (hstatus : s.accessStatus f.die mFault (s.recordAddr f.queue) 128 true = stDONE)
    (hroute : s.routeUp (s.homeDie (s.region (s.recordAddr f.queue))) f.die = true)
    (hapart : s.recordMsi f.queue + 4 ≤ s.recordAddr f.queue ∨ s.recordAddr f.queue + 128 ≤ s.recordMsi f.queue)
    (hplain : s.plainMsi (s.recordMsi f.queue)) :
    let d := s.writeFaultRecord f
    d.xlate = { s.xlate with faults := [{ f with stage := .recorded }] } ∧ d.requests = s.requests ∧
      (∀ i < 128, d.byte (s.recordAddr f.queue + i) = packBits 32 (faultRecord f) / 256 ^ i % 256) ∧
      d.rd 0 (XLATE_FQ_TAIL_INDEX f.queue) = (s.rd 0 (XLATE_FQ_TAIL_INDEX f.queue) + 1) % s.fqSize f.queue % 2 ^ 16 := by
  have htail : (XLATE_FQ_TAIL_INDEX f.queue).ofQueues := ofQueues_queue hq _ (by simp)
  obtain ⟨u, hwrite, huclean, huxlate, hurequests, hurd, hubyte⟩ := Device.writeChk_stores hclean hstatus hroute (packBits 32 (faultRecord f))
  generalize hmoved : u.wr 0 (XLATE_FQ_TAIL_INDEX f.queue) ((s.rd 0 (XLATE_FQ_TAIL_INDEX f.queue) + 1) % s.fqSize f.queue) = x
  have hmap : x.sameMap s := fun g hg e => by
    rw [← hmoved, Device.rd_wr_elsewhere (htail.elsewhere_map g hg)]
    exact hurd e g ((by decide : ∀ g ∈ mapFields, g.uncounted) g hg)
  have hxclean : x.clean := hmoved ▸ huclean
  have hsent := (Device.onlyAt.refl x (s.recordMsi f.queue) 4).msiWrite hxclean (hmap.plainMsi hplain) f.die mFault
    (s.rd 0 (XLATE_FQ_MSI_DATA_VALUE f.queue))
  generalize hy : x.msiWrite f.die mFault (s.recordMsi f.queue) (s.rd 0 (XLATE_FQ_MSI_DATA_VALUE f.queue)) = y at hsent
  have hyxlate : y.xlate = s.xlate := hsent.xlate.trans (hmoved ▸ huxlate)
  have hbody : s.writeFaultRecord f = y.setFaults [{ f with stage := .recorded }] := by
    have hgo : ¬ (f.terminal = true ∨ f.stage = .closing) := by simp [hterm, hstage]
    rw [← Device.swapFault_one ((congrArg XlateSt.faults hyxlate).trans h), ← hy, ← hmoved]
    rw [Device.recordAddr] at hwrite
    simp only [Device.writeFaultRecord, Device.recordMsi, hwrite, ne_eq, not_true_eq_false, if_false, if_neg hgo]
  refine ⟨?_, ?_, fun i hi => ?_, ?_⟩ <;> rw [hbody]
  · rw [Device.setFaults, hyxlate]
  · exact hsent.requests.trans (hmoved ▸ hurequests)
  · have hfar : s.recordAddr f.queue + i < s.recordMsi f.queue ∨ s.recordMsi f.queue + 4 ≤ s.recordAddr f.queue + i := by omega
    have hx : x.byte (s.recordAddr f.queue + i) = u.byte (s.recordAddr f.queue + i) := hmoved ▸ rfl
    exact ((hsent.bytes _ hfar).trans hx).trans (hubyte i hi)
  · have hkept : y.rd 0 (XLATE_FQ_TAIL_INDEX f.queue) = x.rd 0 (XLATE_FQ_TAIL_INDEX f.queue) := hsent.fields 0 _ htail.1 (by rw [htail.2.1]; decide)
    exact hkept.trans (hmoved ▸ Device.rd_wr_same ..)

/-- A fault as its record is numbered. -/
def XFault.numbered (f : XFault) (id : Nat) : XFault :=
  { f with id := id, desc := if f.dma then f.desc.set 14 (setBits (wd f.desc 14) 0 16 id) else f.desc }

/-- The device as it numbers a record (R106). -/
def Device.numberRecord (s : Device) (die : Nat) (g : XFault) : Device :=
  let t := (s.setFaults [g]).addHold die XLATE_FAULT_COUNT_COUNT 1
  { t with xlate := { t.xlate with nextId := (s.xlate.nextId + 1) % 65536 } }

theorem Device.rd_numberRecord (s : Device) (die : Nat) (g : XFault) (e : Nat) {f : Fld} (hf : f.elsewhere XLATE_FAULT_COUNT_COUNT) :
    (s.numberRecord die g).rd e f = s.rd e f := Device.rd_wr_elsewhere (s := s.setFaults [g]) hf

theorem Device.sameMap_numberRecord (s : Device) (die : Nat) (g : XFault) : (s.numberRecord die g).sameMap s := fun f hf e =>
  s.rd_numberRecord die g e ((by decide : ∀ f ∈ mapFields, f.elsewhere XLATE_FAULT_COUNT_COUNT) f hf)

/-- The queues are alike once a record is numbered. -/
theorem Device.rd_numberRecord_queue (s : Device) (die : Nat) (g : XFault) {f : Fld} (hf : f.ofQueues) :
    (s.numberRecord die g).rd 0 f = s.rd 0 f := by
  obtain ⟨hmap, -, hoff⟩ := hf
  exact s.rd_numberRecord die g 0 ⟨hmap, by decide, .inr (.inl (Nat.ne_of_gt (Nat.lt_of_lt_of_le (by decide) hoff)))⟩

section
variable (s : Device) (die : Nat) (g : XFault) {q : Nat} (hq : q < 4)
include hq

theorem Device.fqBase_numberRecord : (s.numberRecord die g).fqBase q = s.fqBase q := by
  rw [Device.fqBase, s.rd_numberRecord_queue die g (ofQueues_queue hq _ (by simp)), s.rd_numberRecord_queue die g (ofQueues_queue hq _ (by simp)),
    Device.fqBase]

theorem Device.fqSize_numberRecord : (s.numberRecord die g).fqSize q = s.fqSize q := by
  rw [Device.fqSize, s.rd_numberRecord_queue die g (ofQueues_queue hq _ (by simp)), Device.fqSize]

theorem Device.tail_numberRecord : (s.numberRecord die g).rd 0 (XLATE_FQ_TAIL_INDEX q) = s.rd 0 (XLATE_FQ_TAIL_INDEX q) :=
  s.rd_numberRecord_queue die g (ofQueues_queue hq _ (by simp))

theorem Device.recordAddr_numberRecord : (s.numberRecord die g).recordAddr q = s.recordAddr q := by
  rw [Device.recordAddr, Device.fqBase_numberRecord _ _ _ hq, Device.tail_numberRecord _ _ _ hq, Device.recordAddr]

theorem Device.recordMsi_numberRecord : (s.numberRecord die g).recordMsi q = s.recordMsi q := by
  rw [Device.recordMsi, s.rd_numberRecord_queue die g (ofQueues_queue hq _ (by simp)), s.rd_numberRecord_queue die g (ofQueues_queue hq _ (by simp)),
    Device.recordMsi]

end

theorem Device.inFaultQueue_numberRecord (s : Device) (die : Nat) (g : XFault) (a n : Nat) :
    (s.numberRecord die g).inFaultQueue a n = s.inFaultQueue a n := by
  rw [Device.inFaultQueue, Device.inFaultQueue, Bool.eq_iff_iff, List.any_eq_true, List.any_eq_true]
  refine exists_congr fun q => and_congr_right fun hq => ?_
  rw [s.fqBase_numberRecord die g (List.mem_range.1 hq), s.fqSize_numberRecord die g (List.mem_range.1 hq)]

/-- A parked fault of a queue in use that has room: its record is numbered and written. -/
theorem faultRecordBody_parked {s : Device} {f : XFault} (h : s.xlate.faults = [f]) (hstage : f.stage = .parked)
    (hon : s.on 0 (XLATE_FQ_CTL_EN f.queue) = true) (hfull : s.fqFull f.queue = false) :
    faultRecordBody f.die f.unit s = (s.numberRecord f.die (f.numbered s.xlate.nextId)).writeFaultRecord (f.numbered s.xlate.nextId) := by
  have hfind : (s.xlate.faults.find? fun x =>
      x.die = f.die ∧ x.unit = f.unit ∧ (x.stage = .parked ∨ (x.stage = .raised ∧ x.terminal))) = some f := by
    simp [h, hstage]
  have hswap := Device.swapFault_one h
  simp only [faultRecordBody, hfind, hon, hfull, hswap, not_true_eq_false, if_false, Bool.false_eq_true, not_false_eq_true, if_true]
  rfl

/-- The clause of O23 on the record of a parked fault. -/
theorem faultRecordWrite_records {s : State} (hs : s.dev.sound) {die unit : Nat} {f : XFault} (h : s.dev.xlate.faults = [f]) (hdie : f.die = die)
    (hunit : f.unit = unit) (hstage : f.stage = .parked) (hterm : f.terminal = false) (hq : f.queue < 4)
    (hon : s.dev.on 0 (XLATE_FQ_CTL_EN f.queue) = true) (hfull : s.dev.fqFull f.queue = false)
    (hstatus : s.dev.accessStatus die mFault (s.dev.recordAddr f.queue) 128 true = stDONE)
    (hroute : s.dev.routeUp (s.dev.homeDie (s.dev.region (s.dev.recordAddr f.queue))) die = true) (hclean : s.dev.clean)
    (hapart : s.dev.recordMsi f.queue + 4 ≤ s.dev.recordAddr f.queue ∨ s.dev.recordAddr f.queue + 128 ≤ s.dev.recordMsi f.queue)
    (hplain : s.dev.plainMsi (s.dev.recordMsi f.queue)) :
    runs (.faultRecordWrite die unit) s fun d =>
      d.xlate.faults = [{ f.numbered s.dev.xlate.nextId with stage := .recorded }] ∧
      (∀ i < 128, d.byte (s.dev.recordAddr f.queue + i) = packBits 32 (faultRecord (f.numbered s.dev.xlate.nextId)) / 256 ^ i % 256) ∧
      d.xlate.nextId = (s.dev.xlate.nextId + 1) % 65536 ∧
      d.rd 0 (XLATE_FQ_TAIL_INDEX f.queue) = (s.dev.rd 0 (XLATE_FQ_TAIL_INDEX f.queue) + 1) % s.dev.fqSize f.queue % 2 ^ 16 := by
  subst hdie hunit
  have hbody := faultRecordBody_parked h hstage hon hfull
  generalize hg : f.numbered s.dev.xlate.nextId = g at hbody ⊢
  obtain ⟨hgdie, hgqueue, hgterm, hgstage⟩ : g.die = f.die ∧ g.queue = f.queue ∧ g.terminal = false ∧ g.stage = .parked :=
    hg ▸ ⟨rfl, rfl, hterm, hstage⟩
  have hmap := s.dev.sameMap_numberRecord f.die g
  have haddr := s.dev.recordAddr_numberRecord f.die g hq
  have hmsi := s.dev.recordMsi_numberRecord f.die g hq
  have hsize := s.dev.fqSize_numberRecord f.die g hq
  have htail := s.dev.tail_numberRecord f.die g hq
  have hreach := fun r => Device.reachesIn_fault_congr (s.dev.inFaultQueue_numberRecord f.die g (s.dev.recordAddr f.queue) 128) f.die true r
  obtain ⟨hxlate, hrequests, hbytes, htail'⟩ := Device.writeFaultRecord_records (s := s.dev.numberRecord f.die g) (f := g) rfl hgterm hgstage
    (hgqueue ▸ hq) hclean (by rw [hgdie, hgqueue, haddr, hmap.accessStatus hreach, hstatus])
    (by rw [hgdie, hgqueue, haddr, hmap.routeUp, hmap.homeDie, hmap.region, hroute])
    (by rw [hgqueue, haddr, hmsi]; exact hapart) (by rw [hgqueue, hmsi]; exact hmap.plainMsi hplain)
  rw [hgqueue, haddr] at hbytes
  rw [hgqueue, hsize, htail] at htail'
  refine runs_of_requests (f := faultRecordBody f.die f.unit) hs rfl ?_ ?_ <;> rw [hbody]
  · exact hrequests
  · refine ⟨congrArg XlateSt.faults hxlate, fun i hi => ?_, congrArg XlateSt.nextId hxlate, ?_⟩
    · rw [Device.canon_byte]
      exact hbytes i hi
    · rw [Device.canon_rd]
      exact htail'

/-- Settles O23, a lemma for each clause: translation leaves the device as it is where it answers nothing; a fault in flight alone is
replaced as it parks and as its record is written, and goes as it is answered. -/
theorem walksAndFaults : Obligations.WalksAndFaults := by
  refine ⟨fun s die unit entry va w write hs => ⟨?_, ?_⟩, fun s hs => ⟨?_, ?_, ?_, ?_, ?_, ?_, ?_⟩⟩
  · exact fun s1 a => walkReturn_answers
  · rintro sd idx rfl hunit hon hmiss
    exact walkReturn_pinMiss hs hunit hon hmiss entry write
  · exact fun die e f h hdie hunit hdma hterm hstage hjob => faultPark_dma hs h hdie hunit hdma hterm hstage hjob
  · exact fun die unit f h hdie hunit hdma hterm hstage _ _ hslot hres hkernel hecc hlink hjob _ =>
      faultPark_core hs h hdie hunit hdma hterm hstage hslot hres hkernel ⟨hecc, hlink⟩ hjob
  · exact fun die unit f h hdie hunit hstage hterm hq hon hfull hstatus hroute hecc hlink hapart hplain =>
      faultRecordWrite_records hs h hdie hunit hstage hterm hq hon hfull hstatus hroute ⟨hecc, hlink⟩ hapart hplain
  · exact fun q value _ h => exec_xlateFqHeadWrite hs h q value
  · exact fun id h => exec_resume_none hs h
  · exact fun id f h hid hdma hjob hkernel => resumeRetry_releases hs h hid hdma hjob hkernel
  · exact fun id f hid hring => exec_resumeAbort_slice hs hid hring

end Sys2Proof.Machine
end

section

/-! THEOREMS of the family 05_matrix_engines_and_formats: products and the gate pipeline. -/

namespace Sys2Proof.Machine

/-! ### Accesses to a core's own store (R28, R30) -/

theorem Device.accessStatus_ownStore (s : Device) {core x n : Nat} (hcore : core < 256) (hn : 1 ≤ n) (hx : x + n ≤ 0x40000) (w : Bool) :
    s.accessStatus (core / 64) (core % 64) (coreStoreBase (core / 64) (core % 64) + x) n w = stDONE := by
  have hreach : portReach core (coreStoreBase (core / 64) (core % 64) + x) n := .inr (.inl ⟨Nat.le_add_right .., by omega⟩)
  have hfirst := hreach.portOwns (s := s) hcore le_rfl (by omega)
  have hlast := hreach.portOwns (s := s) hcore (x := coreStoreBase (core / 64) (core % 64) + x + n - 1) (by omega) (by omega)
  have hregion : s.region (coreStoreBase (core / 64) (core % 64) + x) = .store (core / 64) (core % 64 * 0x40000 + x) := by
    rw [coreStoreBase, Nat.add_assoc, s.region_store (by omega) (by omega)]
  rw [hregion] at hfirst
  simp only [Device.accessStatus, Device.reaches, hregion, Device.reachesIn_portOwns hfirst, Device.reachesIn_portOwns hlast,
    Device.homeDie_portOwns hfirst, Device.routeUp_self, Bool.and_self, not_true_eq_false, if_false]

section
variable {s : Device} {core sd idx n : Nat} {o : Opnd} (hcore : core < 256) (hecc : s.pond.ecc = []) (ho : o.space = 1) (hn : 1 ≤ n)
  (hfit : o.addr + n ≤ 0x40000)
include hcore hfit

include hecc in
theorem Device.noErrors_ownStore : s.noErrors (coreStoreBase (core / 64) (core % 64) + o.addr) n :=
  Device.noErrors_of_ecc hecc (portReach.le_lpBase hcore (.inr (.inl ⟨Nat.le_add_right .., by omega⟩)))

include hn in
theorem Device.homeDie_ownStore : s.homeDie (s.region (coreStoreBase (core / 64) (core % 64) + o.addr)) = core / 64 :=
  Device.homeDie_portOwns (portReach.portOwns (n := n) hcore (.inr (.inl ⟨Nat.le_add_right .., by omega⟩)) le_rfl (by omega))

include hecc ho hn

/-- A slice's command reads its own core's store: nothing changes. -/
theorem Device.opRead_ownStore :
    s.opRead core (.slice sd idx) o n = (s, s.load (coreStoreBase (core / 64) (core % 64) + o.addr) n) := by
  have hread := Device.readChk_clean hn (Device.noErrors_ownStore hcore hecc hfit) (s.accessStatus_ownStore hcore hn hfit false)
    (Device.homeDie_ownStore hcore hn hfit)
  simp [Device.opRead, Device.opPieces, ho, spaceBase, Device.carried, Device.workJob, hread]

/-- A slice's command writes its own core's store, and notes the range. -/
theorem Device.opWrite_ownStore {c : CoreCmd} (hc : s.cmd core = some c) (v : Nat) :
    s.opWrite core (.slice sd idx) o n v =
      (s.store (coreStoreBase (core / 64) (core % 64) + o.addr) (v % 256 ^ n) n).setCmd core
        (some { c with wrote := c.wrote ++ [(coreStoreBase (core / 64) (core % 64) + o.addr, n)] }) := by
  have hwrite := Device.writeChk_clean (Device.noErrors_ownStore hcore hecc hfit) (s.accessStatus_ownStore hcore hn hfit true)
    (Device.homeDie_ownStore hcore hn hfit) (v % 256 ^ n)
  have hcmd : (s.store (coreStoreBase (core / 64) (core % 64) + o.addr) (v % 256 ^ n) n).cmd core = some c :=
    (Device.store_keeps (f := (·.cmd core)) (fun _ _ _ => rfl) s _ _ _).trans hc
  simp [Device.opWrite, Device.opPieces, ho, spaceBase, Device.carried, Device.workJob, hwrite, hcmd]

end

/-! ### What a command on a core reports (R133) -/

/-- The core's numeric flags and count. -/
def numFields (core : Nat) : List Fld :=
  CLUSTER_NUM_COUNT_REPLACED (core % 64 / 8) (core % 8) :: stickyFlds (core % 64 / 8) (core % 8)

/-- A command runs on a core of a device that is another but for what the command reports. -/
structure Device.reportsOf (t s : Device) (core : Nat) : Prop where
  mem : t.mem = s.mem
  pond : t.pond = s.pond
  requests : t.requests = s.requests
  running : t.running core
  fields : keepsFields s t ((numFields core).map (core / 64, ·))

section
variable {t s : Device} {core : Nat}

theorem Device.cmdOk_of_running (h : t.running core) : t.cmdOk core = true := by
  obtain ⟨c, hc, hst, -⟩ := h
  simp [Device.cmdOk, hc, hst]

theorem Device.reportsOf.wr (h : t.reportsOf s core) {f : Fld} (hf : f ∈ numFields core) (v : Nat) : (t.wr (core / 64) f v).reportsOf s core where
  mem := h.mem
  pond := h.pond
  requests := h.requests
  running := h.running
  fields d g hg := (t.rd_wr_ne _ _ _ _ _ (hg _ (List.mem_map_of_mem hf))).trans (h.fields d g hg)

theorem Device.reportsOf.setCmd (h : t.reportsOf s core) {c : CoreCmd} (hst : c.status = stDONE) (hend : c.ended = false) :
    (t.setCmd core (some c)).reportsOf s core where
  mem := h.mem
  pond := h.pond
  requests := h.requests
  running := ⟨c, Device.cmd_setCmd .., hst, hend⟩
  fields := h.fields

/-- The accumulator rows that wait on cores are none of it. -/
theorem Device.reportsOf.withLink (h : t.reportsOf s core) (l : SMap (Option AccRows)) : ({ t with link := l } : Device).reportsOf s core :=
  ⟨h.mem, h.pond, h.requests, h.running, h.fields⟩

theorem Device.reportsOf.numFlags (h : t.reportsOf s core) (x : Conv) : (t.numFlags core x).reportsOf s core := by
  obtain ⟨c, hc, hst, hend⟩ := h.running
  have hcmd := h.setCmd (c := { c with flags := c.flags ||| x.flags }) hst hend
  simp only [Device.numFlags, hc]
  refine Device.reportsOf.wr (List.foldlRecOn (motive := fun u : Device => u.reportsOf s core) _ _ hcmd fun u hu f hf => ?_) (.head _) _
  split
  · exact hu.wr (.tail _ hf) 1
  · exact hu

theorem Device.mem_store_congr (h : t.mem = s.mem) (a v n : Nat) : (t.store a v n).mem = (s.store a v n).mem := by
  induction n generalizing t s a v with
  | zero => exact h
  | succ n ih => exact ih (by simp only [Device.setByte, h]) ..

/-- A write of the core's own store is a store to memory, and no more. -/
theorem Device.reportsOf.opWrite (h : t.reportsOf s core) (hcore : core < 256) (hecc : s.pond.ecc = []) {o : Opnd} (ho : o.space = 1)
    {n : Nat} (hn : 1 ≤ n) (hfit : o.addr + n ≤ 0x40000) (sd idx v : Nat) :
    (t.opWrite core (.slice sd idx) o n v).reportsOf
      (s.store (coreStoreBase (core / 64) (core % 64) + o.addr) (v % 256 ^ n) n) core := by
  obtain ⟨c, hc, hst, hend⟩ := h.running
  rw [Device.opWrite_ownStore hcore (h.pond ▸ hecc) ho hn hfit hc]
  exact Device.reportsOf.setCmd
    { mem := Device.mem_store_congr h.mem ..
      pond := (t.store_pond ..).trans (h.pond.trans (s.store_pond ..).symm)
      requests := (Device.store_keeps (f := Device.requests) (fun _ _ _ => rfl) t _ _ _).trans
        (h.requests.trans (Device.store_keeps (f := Device.requests) (fun _ _ _ => rfl) s _ _ _).symm)
      running := ⟨c, (Device.store_keeps (f := (·.cmd core)) (fun _ _ _ => rfl) t _ _ _).trans hc, hst, hend⟩
      fields := fun d f hf => (t.rd_store ..).trans ((h.fields d f hf).trans (s.rd_store ..).symm) } hst hend

/-- One row of one FP32 element is converted and written to the core's own store. -/
theorem Device.reportsOf.writeRows (h : t.reportsOf s core) (hcore : core < 256) (hecc : s.pond.ecc = []) {out : Opnd} (ho : out.space = 1)
    (hfit : out.addr + 4 ≤ 0x40000) (sd idx : Nat) (sat : Bool) (scale : Opnd) (stride z : Nat) :
    (t.writeRows core (.slice sd idx) 0xA sat out scale stride [[z]]).reportsOf
      (s.store (coreStoreBase (core / 64) (core % 64) + out.addr) ((convFloat 0xA (dec32 z)).1 % 2 ^ 32) 4) core := by
  have hadd : out.add 0 = out := by
    rw [Opnd.add, Nat.add_zero, Nat.mod_eq_of_lt (by omega)]
  have hwrite := h.opWrite hcore hecc ho (n := 4) (by decide) hfit sd idx ((convFloat 0xA (dec32 z)).1 % 2 ^ 32)
  have hmod : (convFloat 0xA (dec32 z)).1 % 2 ^ 32 % 256 ^ 4 = (convFloat 0xA (dec32 z)).1 % 2 ^ 32 := Nat.mod_mod ..
  rw [hmod] at hwrite
  simpa [Device.writeRows, convRow, isMx, Device.rowValue, fmtBits, packedBytes, packBits, Device.opWrites, hadd,
    Device.cmdOk_of_running h.running] using hwrite.numFlags _

end

/-! ### A command of a slice's list that is offered (R206, R208, R212) -/

section
variable {s : Device} {i : Issue} {w next : List Nat} {core sd idx : Nat} (h : s.offers i w next core) (hw : i.work = .slice sd idx)
include h hw

theorem coreCommand_offered (run : Device → Device) : coreCommand i w next (fun s => s.issue i w run) s = run (s.taken i w) := by
  obtain ⟨hcores, -, hhalt, hissue, hlend, -, hreason⟩ := h
  have hany : i.cores.any s.isHalted = false := by simp [hcores, hhalt]
  simp [coreCommand, hany, Device.lent, hlend, Device.issue, hissue, hw, hreason]

omit hw in
theorem Device.onCores_one (t : Device) (f : Nat → Device → Device) : t.onCores i f = f core t := by simp [Device.onCores, h.1]

theorem Device.taken_of_slice : s.taken i w =
    let c : CoreCmd := { work := i.work, entry := i.entry, opcode := hdOpcode w, header := wd w 0, cores := i.cores }
    { s.setCmd core (some c) with disp := { (s.setCmd core (some c)).disp with waits := s.disp.waits.filter fun x => !i.cores.contains x.2.2 } } := by
  simp only [Device.taken, hw, h.1]
  rfl

theorem Device.taken_reportsOf : (s.taken i w).reportsOf s core := by
  rw [Device.taken_of_slice h hw]
  have hcmd := s.cmd_setCmd core (some { work := i.work, entry := i.entry, opcode := hdOpcode w, header := wd w 0, cores := i.cores })
  exact ⟨rfl, rfl, rfl, ⟨_, hcmd, rfl, rfl⟩, fun _ _ _ => rfl⟩

theorem Device.linkOf_taken : (s.taken i w).linkOf core i.work = s.linkOf core i.work := by
  rw [Device.taken_of_slice h hw]; rfl

end

/-- A fold over a list that is not empty, each of whose steps gives a value, gives one. -/
theorem foldl_isSome {α β : Type} {f : Option β → α → Option β} (hf : ∀ m a, (f m a).isSome = true) {l : List α} (hl : l ≠ []) (m : Option β) :
    (l.foldl f m).isSome = true := by
  induction l using List.reverseRecOn with
  | nil => exact absurd rfl hl
  | append_singleton l a _ => rw [List.foldl_concat]; exact hf ..

/-- A command that no check refuses passes each of them. -/
theorem passes_of_firstFail {l : List Check} (h : firstFail l = none) {c : Check} (hc : c ∈ l) : c.fails = false := by
  by_contra hf
  have hne : l.filter (·.fails) ≠ [] := List.ne_nil_of_mem (List.mem_filter.2 ⟨hc, Bool.eq_true_of_not_eq_false hf⟩)
  have hsome : (firstFail l).isSome = true := foldl_isSome (fun m c => by
    cases m with
    | none => rfl
    | some b => dsimp only; split <;> rfl) hne none
  rw [h] at hsome
  exact nomatch hsome

/-- A command that passes its checks and names no page runs. -/
theorem Device.runChecked_passes (s : Device) (core : Nat) (i : Issue) {checks : List Check} (h : firstFail checks = none) (f : Device → Device) :
    s.runChecked core i checks [] f = f s := by
  have hopen : s.openPages core i [] = (s, true) := by
    unfold Device.openPages Device.translateAll
    by_cases hon : s.on 0 XLATE_CTL_EN = true <;> simp [hon]
  simp [Device.runChecked, h, hopen]

theorem rowPages_ownStore {o : Opnd} (ho : o.space = 1) (job rows stride n : Nat) (write : Bool) : rowPages o job rows stride n write = [] := by
  simp [rowPages, ho]

theorem Opnd.pages_ownStore {o : Opnd} (ho : o.space = 1) (job n : Nat) (write : Bool) : o.pages job n write = [] := by
  simp [Opnd.pages, ho]

theorem Opnd.fits_ownStore {o : Opnd} (ho : o.space = 1) {n : Nat} (h : o.fits n = true) : o.addr + n ≤ 0x40000 := by
  simpa [Opnd.fits, ho, spaceSize] using h

theorem Device.load_of_bytes {t s : Device} (h : ∀ a, t.byte a = s.byte a) (a n : Nat) : t.load a n = s.load a n := by
  induction n generalizing a with
  | zero => rfl
  | succ n ih => rw [Device.load, ih, h, ← Device.load]

/-- What a command concludes whose body leaves, but for its reports, what a store of 4 bytes leaves. -/
theorem runs_of_reports {c : Instr} {s : State} {f : Device → Device} {i : Issue} {core a v : Nat} (hs : s.dev.sound) (hx : exec c s = s.upd f)
    (h : (f s.dev).reportsOf (s.dev.store a (v % 2 ^ 32) 4) core) :
    runs c s fun d => d.load a 4 = v % 2 ^ 32 ∧ d.running core ∧ (∀ x, (x < a ∨ a + 4 ≤ x) → d.byte x = s.dev.byte x) ∧
      keepsFields s.dev d (issueFields i core) := by
  have hbyte : ∀ x, (f s.dev).canon.byte x = (s.dev.store a (v % 2 ^ 32) 4).byte x := fun x => by
    rw [Device.canon_byte, Device.byte, h.mem]; rfl
  refine runs_of_requests hs hx (h.requests.trans (Device.store_keeps (f := Device.requests) (fun _ _ _ => rfl) ..)) ⟨?_, h.running, ?_, ?_⟩
  · rw [Device.load_of_bytes hbyte, Device.load_store]
    exact Nat.mod_mod ..
  · exact fun x hx => (hbyte x).trans (s.dev.byte_store_ne a _ 4 x hx)
  · exact fun d g hg => (h.fields d g fun x hx => hg x (List.mem_append_left _ hx)).trans (s.dev.rd_store ..)

/-! ### A product of one row and one column (R119, R122, R125) -/

theorem isMx_of_is16 {f : Nat} (h : is16 f = true) : isMx f = false := by
  simp only [is16, Bool.or_eq_true, decide_eq_true_eq] at h
  rcases h with rfl | rfl <;> rfl

theorem fmtBits_of_is16 {f : Nat} (h : is16 f = true) : fmtBits f = 16 := by
  simp only [is16, Bool.or_eq_true, decide_eq_true_eq] at h
  rcases h with rfl | rfl <;> rfl

theorem packedBytes_sixteen (k : Nat) : packedBytes 16 k = 2 * k := by unfold packedBytes; omega

theorem mxK_pos (w : List Nat) : 1 ≤ mxK w := by
  unfold mxK
  split <;> omega

/-- A scale of 127 leaves an element's value (R114). -/
theorem decScaled_one (f v : Nat) : decScaled f v 127 = decElem f v := by
  unfold decScaled
  rw [if_neg (by decide)]
  cases decElem f v with
  | fin n m e => exact congrArg (FV.fin n m) (by omega)
  | _ => rfl

theorem Opnd.add_small {o : Opnd} {n : Nat} (h : o.addr + n < 2 ^ 48) : o.add n = ⟨o.space, o.addr + n⟩ := by
  rw [Opnd.add, Nat.mod_eq_of_lt h]

/-- No more than one block of values is one block. -/
theorem cutList_one {α : Type} {l : List α} (hpos : l ≠ []) (hlen : l.length ≤ 32) : cutList 32 1 l = [l] := by
  simp [cutList, hpos, List.take_of_length_le hlen]

/-- A matrix command of one row and one column of at most 32 elements in 16-bit formats, written as FP32, whose operands lie in the core's own
store. -/
structure mxOne (w : List Nat) : Prop where
  link : mxLink w = false
  acc : mxAcc w = false
  rows : mxM w = 1
  cols : mxN w = 1
  short : mxK w ≤ 32
  aFmt : is16 (mxAFmt w) = true
  bFmt : is16 (mxBFmt w) = true
  out : mxOutFmt w = 0xA
  aSpace : (mxA w).space = 1
  bSpace : (mxB w).space = 1
  cSpace : (mxC w).space = 1
  aFits : (mxA w).addr + 2 * mxK w ≤ 0x40000
  bFits : (mxB w).addr + ntileBytes (mxBFmt w) (mxK w) ≤ 0x40000
  cFits : (mxC w).addr + 4 ≤ 0x40000

/-- The checks give the format of B and the operands' ranges (R121, R127). -/
theorem mxOne_of_checks {w next : List Nat} (h : firstFail (mxChecks w next) = none) (link : mxLink w = false) (acc : mxAcc w = false)
    (rows : mxM w = 1) (cols : mxN w = 1) (short : mxK w ≤ 32) (aFmt : is16 (mxAFmt w) = true) (out : mxOutFmt w = 0xA)
    (aSpace : (mxA w).space = 1) (bSpace : (mxB w).space = 1) (cSpace : (mxC w).space = 1) : mxOne w := by
  have hpair : (!pairOk (mxAFmt w) (mxBFmt w) || !isFmt (mxOutFmt w)) = false :=
    passes_of_firstFail (c := ⟨1, 1, !pairOk (mxAFmt w) (mxBFmt w) || !isFmt (mxOutFmt w)⟩) h (List.mem_cons_self ..)
  have hA := passes_of_firstFail (c := ⟨7, 3, !rowsFit (mxA w) (mxM w) (mxAStride w) (packedBytes (fmtBits (mxAFmt w)) (mxK w))⟩) h
    (by simp [mxChecks])
  have hB := passes_of_firstFail (c := ⟨7, 7, !(mxB w).fits ((mxN w + 15) / 16 * ntileBytes (mxBFmt w) (mxK w))⟩) h (by simp [mxChecks])
  have hC := passes_of_firstFail (c := ⟨7, 11, !rowsFit (mxC w) (mxM w) (mxCStride w) (packedBytes (fmtBits (mxOutFmt w)) (mxOutCols w next)) ||
    (mxAcc w && !rowsFit (mxC w) (mxM w) (mxCStride w) (4 * mxN w))⟩) h (by simp [mxChecks])
  simp only [rows, cols, rowsFit, fmtBits_of_is16 aFmt, packedBytes_sixteen, Bool.not_eq_false', Nat.sub_self, Nat.zero_mul, Nat.zero_add,
    Nat.reduceAdd, Nat.reduceDiv, Nat.one_mul, out, mxOutCols, link, acc, Bool.false_and, Bool.or_false, Bool.false_eq_true, if_false] at hA hB hC
  have hbFmt : is16 (mxBFmt w) = true := by simpa [pairOk, isMx_of_is16 aFmt, aFmt, out, isFmt] using hpair
  exact ⟨link, acc, rows, cols, short, aFmt, hbFmt, out, aSpace, bSpace, cSpace, Opnd.fits_ownStore aSpace hA, Opnd.fits_ownStore bSpace hB,
    Opnd.fits_ownStore cSpace hC⟩

/-- The bytes of an N-tile in a 16-bit format, of 256 in each full tile (R122). -/
theorem ntileBytes_of_is16 {f : Nat} (h : is16 f = true) (k : Nat) :
    ntileBytes f k = k / 8 * 256 + if k % 8 = 0 then 0 else (32 * (k % 8) + 63) / 64 * 64 := by
  have hpacked : packedBytes 16 (16 * (k % 8)) = 32 * (k % 8) := (packedBytes_sixteen _).trans (by omega)
  simp only [ntileBytes, tileK, h, if_true, fmtBits_of_is16 h, hpacked]

/-- Each tile of B lies within its one column of tiles. -/
theorem mxOne.tile_within {w : List Nat} (h : mxOne w) {t : Nat × Nat} (ht : t ∈ mxTiles w) :
    1 ≤ t.2 ∧ t.1 + t.2 ≤ ntileBytes (mxBFmt w) (mxK w) := by
  have hk := mxK_pos w
  simp only [mxTiles, h.cols, tileK, h.bFmt, if_true, fmtBits_of_is16 h.bFmt, List.mem_flatMap, List.mem_map, List.mem_range] at ht
  obtain ⟨kt, hkt, nt, hnt, rfl⟩ := ht
  obtain rfl : nt = 0 := by omega
  have hs : kt * 256 < ntileBytes (mxBFmt w) (mxK w) := by
    rw [ntileBytes_of_is16 h.bFmt]
    split <;> omega
  omega

section
variable {s : Device} {core sd idx : Nat} {i : Issue} {w : List Nat} (h : mxOne w) (hcore : core < 256) (hecc : s.pond.ecc = [])
  (hw : i.work = .slice sd idx)
include h hcore hecc hw

theorem mxOne.readA : s.readA core i w = (s, [s.load (coreStoreBase (core / 64) (core % 64) + (mxA w).addr) (2 * mxK w)]) := by
  have hfit := h.aFits
  have hread := Device.opRead_ownStore (s := s) (sd := sd) (idx := idx) hcore hecc h.aSpace (n := 2 * mxK w) (by have := mxK_pos w; omega) hfit
  have hadd : (mxA w).add 0 = mxA w := Opnd.add_small (by omega)
  simp [Device.readA, Device.opReadRows, Device.opReads, rowsOf, h.rows, hadd, fmtBits_of_is16 h.aFmt, packedBytes_sixteen, hw, hread]

theorem mxOne.readB : s.readB core i w = s := by
  refine foldl_eq_self fun _ _ => foldl_eq_self fun t ht => ?_
  obtain ⟨hpos, hin⟩ := h.tile_within ht
  have hfit := h.bFits
  have hread := Device.opRead_ownStore (s := s) (sd := sd) (idx := idx) (o := ⟨(mxB w).space, (mxB w).addr + t.1⟩) hcore hecc h.bSpace hpos
    (by dsimp only; omega)
  rw [Opnd.add_small (by omega), hw, hread]

omit hw in
/-- The one column of tiles, as the product takes it. -/
theorem mxOne.readTiles : s.opRead core (.slice sd idx) (mxB w) (ntileBytes (mxBFmt w) (mxK w)) =
    (s, s.load (coreStoreBase (core / 64) (core % 64) + (mxB w).addr) (ntileBytes (mxBFmt w) (mxK w))) := by
  have hpos : 1 ≤ ntileBytes (mxBFmt w) (mxK w) := by
    have hk := mxK_pos w
    rw [ntileBytes_of_is16 h.bFmt]
    split <;> omega
  exact Device.opRead_ownStore hcore hecc h.bSpace hpos h.bFits

end

/-- The pairs of elements whose products are summed. -/
def mxPairs (w : List Nat) (a b : Nat) : List (FV × FV) :=
  (List.range (mxK w)).map fun j => (decElem (mxAFmt w) (elemAt a 16 j), decElem (mxBFmt w) (bits b (tileBit (mxBFmt w) (mxK w) j 0) 16))

theorem cutList_mxPairs {w : List Nat} (h : mxOne w) (a b : Nat) : cutList 32 (mxKB w) (mxPairs w a b) = [mxPairs w a b] := by
  have hpos := mxK_pos w
  have hshort := h.short
  have hkb : mxKB w = 1 := by unfold mxKB; omega
  rw [hkb]
  exact cutList_one (fun hnil => by simp [mxPairs] at hnil; omega) (by simpa [mxPairs] using hshort)

section
variable {s : Device} {core sd idx : Nat} {i : Issue} {w : List Nat} (h : mxOne w) (hcore : core < 256) (hecc : s.pond.ecc = [])
  (hw : i.work = .slice sd idx)
include h hcore hecc hw

/-- The command's flags aside, the product is the one element that is written. -/
theorem matrixRun_one (hrun : s.running core) :
    ∃ x, matrixRun core i w s = (s.numFlags core x).writeRows core (.slice sd idx) 0xA (mxSat w) (mxC w) (mxCScale w) (mxCStride w)
      [[dotAcc false 0 [mxPairs w (s.load (coreStoreBase (core / 64) (core % 64) + (mxA w).addr) (2 * mxK w))
        (s.load (coreStoreBase (core / 64) (core % 64) + (mxB w).addr) (ntileBytes (mxBFmt w) (mxK w)))]]] := by
  have hfit := h.bFits
  have hadd : (mxB w).add 0 = mxB w := Opnd.add_small (by omega)
  have hpairs := fun a b => cutList_mxPairs h a b
  simp only [mxPairs] at hpairs
  simp [matrixRun, h.readA hcore hecc hw, h.readB hcore hecc hw, h.readTiles hcore hecc, hadd, h.rows, h.cols, h.link, h.acc, h.out,
    isMx_of_is16 h.aFmt, isMx_of_is16 h.bFmt, fmtBits_of_is16 h.aFmt, fmtBits_of_is16 h.bFmt, Device.cmdOk_of_running hrun, decScaled_one,
    wd, List.zip_map', hpairs, mxPairs, hw]
  exact ⟨_, rfl⟩

end

/-- The matrix clause of O26 holds of a command of a slice, with no word of a store in error. -/
theorem matrix_ofSlice {s : State} {i : Issue} {w next : List Nat} {core sd idx : Nat} (hs : s.dev.sound) (hecc : s.dev.pond.ecc = [])
    (hoff : s.dev.offers i w next core) (hw : i.work = .slice sd idx) (hcheck : firstFail (mxChecks w next) = none) (h : mxOne w) :
    let base := coreStoreBase (core / 64) (core % 64)
    let z := dotAcc false 0 [mxPairs w (s.dev.load (base + (mxA w).addr) (2 * mxK w))
      (s.dev.load (base + (mxB w).addr) (ntileBytes (mxBFmt w) (mxK w)))]
    runs (.matrix i w next) s fun d =>
      d.load (base + (mxC w).addr) 4 = (convFloat 0xA (dec32 z)).1 % 2 ^ 32 ∧ d.running core ∧
      (∀ x, (x < base + (mxC w).addr ∨ base + (mxC w).addr + 4 ≤ x) → d.byte x = s.dev.byte x) ∧
      keepsFields s.dev d (issueFields i core) := by
  have hcore : core < 256 := hoff.2.1
  have htaken := Device.taken_reportsOf hoff hw
  have hout : isMx (mxOutFmt w) = false := h.out ▸ rfl
  have hpages : ∀ t : Device, mxPages w (t.workJob i.work) (mxOutCols w next) = [] := fun t => by
    simp [mxPages, mxOutPages, rowPages_ownStore h.aSpace, rowPages_ownStore h.cSpace, Opnd.pages_ownStore h.bSpace, isMx_of_is16 h.aFmt,
      isMx_of_is16 h.bFmt, h.acc, hout]
  obtain ⟨x, hrun⟩ := matrixRun_one h hcore (htaken.pond ▸ hecc) hw htaken.running
  simp only [Device.load_congr htaken.mem] at hrun
  refine runs_of_reports hs rfl ?_
  have hbody : coreCommand i w next (matrixBody i w next) s.dev = matrixRun core i w (s.dev.taken i w) := by
    refine (coreCommand_offered hoff hw _).trans ?_
    rw [Device.onCores_one hoff, hpages, Device.runChecked_passes _ _ _ hcheck]
  rw [hbody, hrun]
  exact (htaken.numFlags x).writeRows hcore hecc h.cSpace h.cFits sd idx _ _ _ _

/-! ### A chain of ops on one element (R128 to R131) -/

/-- An op keeps a row's length. -/
theorem gateOp_length (w v input : List Nat) (o : Nat) (row : List Nat) : (gateOp w v input o row).1.length = row.length := by
  unfold gateOp
  dsimp only
  split <;> simp

/-- An op that is no reduction writes no value beside the row. -/
theorem gateOp_reduction {o : Nat} (h : opReduce o = false) (w v input row : List Nat) : (gateOp w v input o row).2.1 = none := by
  simp only [opReduce, Bool.and_eq_false_iff, decide_eq_false_iff_not] at h
  unfold gateOp
  dsimp only
  split <;> simp_all

/-- A gate command of one FP32 element, with no operand vector and no reduction, whose operands lie in the core's own store. -/
structure gtOne (w : List Nat) : Prop where
  rows : gtRows w = 1
  cols : gtCols w = 1
  inFmt : gtInFmt w = 0xA
  outFmt : gtOutFmt w = 0xA
  xSpace : (gtX w).space = 1
  outSpace : (gtOut w).space = 1
  noVector : (gtOps w).any (fun o => decide (opSrc o = 1)) = false
  noReduction : ∀ o ∈ gtOps w, opReduce o = false
  noPair : (gtOps w).any (fun o => decide (opSrc o = 4)) = false
  xFits : (gtX w).addr + 4 ≤ 0x40000
  outFits : (gtOut w).addr + 4 ≤ 0x40000

/-- The checks exclude the use of PAIR, which wants two columns or more, and give the operands' ranges (R127, R129). -/
theorem gtOne_of_checks {w : List Nat} (h : firstFail (gtChecks w none) = none) (rows : gtRows w = 1) (cols : gtCols w = 1)
    (inFmt : gtInFmt w = 0xA) (outFmt : gtOutFmt w = 0xA) (xSpace : (gtX w).space = 1) (outSpace : (gtOut w).space = 1)
    (hops : (gtOps w).any (fun o => decide (opSrc o = 1) || opReduce o) = false) : gtOne w := by
  simp only [List.any_eq_false, Bool.or_eq_true, decide_eq_true_eq, not_or, Bool.not_eq_true] at hops
  have hpair := passes_of_firstFail (c := ⟨6, 2, ((gtOps w).any opNorm && 4096 < gtOutCols w (gtCols w)) ||
    (((gtOps w).any fun o => opSrc o = 4) && gtCols w ≠ 2 * gtPair w)⟩) h (by simp [gtChecks])
  have hnoPair : (gtOps w).any (fun o => decide (opSrc o = 4)) = false := by
    have hodd : gtCols w ≠ 2 * gtPair w := by omega
    simp only [Bool.or_eq_false_iff, Bool.and_eq_false_iff] at hpair
    simpa [hodd] using hpair.2
  have hX := passes_of_firstFail (c := ⟨7, 9, !rowsFit (gtX w) (gtRows w) (64 * bits (wd w 11) 16 16) (fmtBits (gtInFmt w) / 8 * gtCols w)⟩) h
    (by simp [gtChecks])
  have hOut := passes_of_firstFail (c := ⟨7, 12, !rowsFit (gtOut w) (gtRows w) (64 * bits (wd w 11) 0 16)
    (fmtBits (gtOutFmt w) / 8 * gtOutCols w (gtCols w))⟩) h (by simp [gtChecks])
  have hcols : gtOutCols w 1 = 1 := by simp [gtOutCols, hnoPair]
  simp only [rows, cols, inFmt, outFmt, hcols, rowsFit, fmtBits, Nat.sub_self, Nat.zero_mul, Nat.zero_add, Nat.reduceDiv, Nat.mul_one,
    Bool.not_eq_false'] at hX hOut
  exact ⟨rows, cols, inFmt, outFmt, xSpace, outSpace, by simpa using fun o ho => (hops o ho).1, fun o ho => (hops o ho).2, hnoPair,
    Opnd.fits_ownStore xSpace hX, Opnd.fits_ownStore outSpace hOut⟩

/-- The chain leaves one element and no reduction. -/
theorem gateRow_one {w : List Nat} (h : gtOne w) (x : Nat) : (gateRow w [] [x]).1 = [wd (gateRow w [] [x]).1 0] ∧ (gateRow w [] [x]).2.1 = [] := by
  have hcols : gtOutCols w 1 = 1 := by simp [gtOutCols, h.noPair]
  have hrow : (gateRow w [] [x]).1.length = 1 ∧ (gateRow w [] [x]).2.1 = [] := by
    refine List.foldlRecOn (motive := fun y : List Nat × List Nat × Bool => y.1.length = 1 ∧ y.2.1 = []) _ _ (by simp [hcols]) fun y hy o ho => ?_
    exact ⟨(gateOp_length ..).trans hy.1, by simp [hy.2, gateOp_reduction (h.noReduction o ho)]⟩
  obtain ⟨y, hy⟩ := List.length_eq_one_iff.1 hrow.1
  exact ⟨by rw [hy]; rfl, hrow.2⟩

section
variable {s : Device} {core sd idx : Nat} {i : Issue} {w : List Nat} (h : gtOne w) (hcore : core < 256) (hecc : s.pond.ecc = [])
  (hw : i.work = .slice sd idx)
include h hcore hecc hw

/-- The command's flags aside, the chain's value is the one element that is written. -/
theorem gateRun_one (hlink : s.linkOf core i.work = none) (hrun : s.running core) :
    ∃ x, gateRun core i w s = (s.numFlags core x).writeRows core (.slice sd idx) 0xA true (gtOut w) (gtOut w) (64 * bits (wd w 11) 0 16)
      [[wd (gateRow w [] [widen 0xA (s.load (coreStoreBase (core / 64) (core % 64) + (gtX w).addr) 4)]).1 0]] := by
  have hfit := h.xFits
  have hadd : (gtX w).add 0 = gtX w := Opnd.add_small (by omega)
  have hread := Device.opRead_ownStore (s := s) (sd := sd) (idx := idx) hcore hecc h.xSpace (by decide) hfit
  have hload := s.load_lt (coreStoreBase (core / 64) (core % 64) + (gtX w).addr) 4
  have helem : elemAt (s.load (coreStoreBase (core / 64) (core % 64) + (gtX w).addr) 4) 32 0 =
      s.load (coreStoreBase (core / 64) (core % 64) + (gtX w).addr) 4 := (bits_zero ..).trans (Nat.mod_eq_of_lt hload)
  rw [hw] at hlink
  obtain ⟨hone, hnone⟩ := gateRow_one h (widen 0xA (s.load (coreStoreBase (core / 64) (core % 64) + (gtX w).addr) 4))
  simp [gateRun, hlink, h.noVector, h.rows, h.cols, h.inFmt, h.outFmt, fmtBits, Device.opReadRows, Device.opReads, rowsOf, hadd, hw, hread,
    Device.cmdOk_of_running hrun, helem, hnone]
  rw [← hone]
  exact ⟨_, rfl⟩

end

/-- The gate clause of O26 holds of a command of a slice, with no word of a store in error. -/
theorem gate_ofSlice {s : State} {i : Issue} {w : List Nat} {core sd idx : Nat} (hs : s.dev.sound) (hecc : s.dev.pond.ecc = [])
    (hoff : s.dev.offers i w [] core) (hw : i.work = .slice sd idx) (hlink : s.dev.linkOf core i.work = none)
    (hcheck : firstFail (gtChecks w none) = none) (h : gtOne w) :
    let base := coreStoreBase (core / 64) (core % 64)
    let x := widen 0xA (s.dev.load (base + (gtX w).addr) 4)
    runs (.gate i w) s fun d =>
      d.load (base + (gtOut w).addr) 4 = (convFloat 0xA (dec32 (wd (gateRow w [] [x]).1 0))).1 % 2 ^ 32 ∧ d.running core ∧
      (∀ y, (y < base + (gtOut w).addr ∨ base + (gtOut w).addr + 4 ≤ y) → d.byte y = s.dev.byte y) ∧
      keepsFields s.dev d (issueFields i core) := by
  have hcore : core < 256 := hoff.2.1
  have htaken := Device.taken_reportsOf hoff hw
  have hlink' : (s.dev.taken i w).linkOf core i.work = none := (Device.linkOf_taken hoff hw).trans hlink
  have hpages : ∀ t : Device, gtPages w none (t.workJob i.work) = [] := fun t => by
    have hreds : (gtOps w).filter opReduce = [] := List.filter_eq_nil_iff.2 fun o ho => by simp [h.noReduction o ho]
    simp [gtPages, h.noVector, hreds, rowPages_ownStore h.xSpace, rowPages_ownStore h.outSpace]
  obtain ⟨x, hrun⟩ := gateRun_one h hcore (htaken.pond ▸ hecc) hw hlink' htaken.running
  simp only [Device.load_congr htaken.mem] at hrun
  refine runs_of_reports hs rfl ?_
  have hreports := (htaken.numFlags x).writeRows hcore hecc h.outSpace h.outFits sd idx true (gtOut w) (64 * bits (wd w 11) 0 16)
    (wd (gateRow w [] [widen 0xA (s.dev.load (coreStoreBase (core / 64) (core % 64) + (gtX w).addr) 4)]).1 0)
  rw [← hrun] at hreports
  have hbody : (coreCommand i w [] (gateBody i w) s.dev) = if (gateRun core i w (s.dev.taken i w)).ringFaulted (workRing i.work)
      then gateRun core i w (s.dev.taken i w) else { gateRun core i w (s.dev.taken i w) with
        link := SMap.put none (gateRun core i w (s.dev.taken i w)).link core none } := by
    refine (coreCommand_offered hoff hw _).trans ?_
    simp only [Device.onCores_one hoff, hlink', Option.map_none, hpages, Device.runChecked_passes _ _ _ hcheck]
  rw [hbody]
  split
  · exact hreports
  · exact hreports.withLink _

/-! ### The statement on commands of slices -/

/-- What O26 says of one command. -/
def MatrixAndGateAt (s : State) (i : Issue) (w next : List Nat) (core : Nat) : Prop :=
  let base := coreStoreBase (core / 64) (core % 64)
  (s.dev.offers i w next core → hdOpcode w = 0x10 → firstFail (mxChecks w next) = none → mxLink w = false → mxAcc w = false → mxM w = 1 →
    mxN w = 1 → mxK w ≤ 32 → is16 (mxAFmt w) = true → mxOutFmt w = 0xA → (mxA w).space = 1 → (mxB w).space = 1 → (mxC w).space = 1 →
    let k := mxK w
    let a := s.dev.load (base + (mxA w).addr) (2 * k)
    let b := s.dev.load (base + (mxB w).addr) (ntileBytes (mxBFmt w) k)
    let z := dotAcc false 0 [(List.range k).map fun j =>
      (decElem (mxAFmt w) (elemAt a 16 j), decElem (mxBFmt w) (bits b (tileBit (mxBFmt w) k j 0) 16))]
    runs (.matrix i w next) s fun d =>
      d.load (base + (mxC w).addr) 4 = (convFloat 0xA (dec32 z)).1 % 2 ^ 32 ∧ d.running core ∧
      (∀ x, (x < base + (mxC w).addr ∨ base + (mxC w).addr + 4 ≤ x) → d.byte x = s.dev.byte x) ∧
      keepsFields s.dev d (issueFields i core)) ∧
  (s.dev.offers i w [] core → hdOpcode w = 0x11 → s.dev.linkOf core i.work = none → firstFail (gtChecks w none) = none → gtRows w = 1 →
    gtCols w = 1 → gtInFmt w = 0xA → gtOutFmt w = 0xA → (gtX w).space = 1 → (gtOut w).space = 1 →
    (gtOps w).any (fun o => decide (opSrc o = 1) || opReduce o) = false →
    let x := widen 0xA (s.dev.load (base + (gtX w).addr) 4)
    runs (.gate i w) s fun d =>
      d.load (base + (gtOut w).addr) 4 = (convFloat 0xA (dec32 (wd (gateRow w [] [x]).1 0))).1 % 2 ^ 32 ∧ d.running core ∧
      (∀ y, (y < base + (gtOut w).addr ∨ base + (gtOut w).addr + 4 ≤ y) → d.byte y = s.dev.byte y) ∧
      keepsFields s.dev d (issueFields i core))

theorem matrixAndGate_iff : Obligations.MatrixAndGate ↔ ∀ (s : State) (i : Issue) (w next : List Nat) (core : Nat),
    s.dev.sound → s.dev.pond.ecc = [] → MatrixAndGateAt s i w next core := Iff.rfl

/-- Of a command of a slice, whose list lies in schedule memory, it holds. -/
theorem matrixAndGateAt_slice {s : State} {i : Issue} {sd idx : Nat} (hs : s.dev.sound) (hecc : s.dev.pond.ecc = [])
    (hw : i.work = .slice sd idx) (w next : List Nat) (core : Nat) : MatrixAndGateAt s i w next core := by
  refine ⟨fun hoff _ hcheck hlink hacc hm hn hk hfmt hout ha hb hc => ?_, fun hoff _ hlink hcheck hrows hcols hin hout hx ho hops => ?_⟩
  · exact matrix_ofSlice hs hecc hoff hw hcheck (mxOne_of_checks hcheck hlink hacc hm hn hk hfmt hout ha hb hc)
  · exact gate_ofSlice hs hecc hoff hw hlink hcheck (gtOne_of_checks hcheck hrows hcols hin hout hx ho hops)

/-! ### The refutation of O26 -/

/-- A product of one row and one column of three BF16 elements, which lie in the core's own store (R125). -/
def ringProduct : List Nat :=
  [0x10000000, 0x88A00000, 0, 0, 2 ^ 30, 0, 0x10000, 0x1000, 2 ^ 30, 0, 0, 0x2000, 2 ^ 30, 0, 0x10000, 3]

/-- Its issue to core 5 as entry 2 of ring 5. -/
def ringIssue : Issue := ⟨.ring 5, 2, [5]⟩

/-- The address of the entry, in mapped LP5X. -/
def entryAddr : Nat := lpBase + 0x2080

/-- Ring 5 of job 3 runs on core 5 and stands before the entry. The tables of the job map the page of the ring's queue to the beginning of LP5X,
of which 1 GiB is mapped, and the entry's first word meets an error on the wires that link ECC corrects (R80). -/
def entryError : State :=
  { dev := ({ regs := [(LP5X_MAPPED_MAPPED_GIB.key 0, 1)]
              mem := [(48, 1), (50, 2), (0x20000, 1), (0x20002, 4), (0x40000, 15), (0x40004, 0x10)]
              disp := { rings := [(5, { state := 1, job := 3, head := 2, tail := 3, desc := [0x80200500, 3 * 2 ^ 20, 0x2000, 0, 0x3000, 0, 4] })]
                        jobs := [(3, { state := 1, client := 1 })]
                        kernels := [{ ring := 5, cores := [5], entry := 1, fcBound := 3, ticks := 0, lent := false, startRc := 0, startTick := 0 }] }
              pond := { link := [(entryAddr / 8, some ⟨false, 0, 0, 0⟩)] } } : Device).store entryAddr (packBits 32 ringProduct) 64 }

theorem entryError_offers : entryError.dev.offers ringIssue ringProduct [] 5 := by
  refine ⟨rfl, by decide, by decide +kernel, by decide +kernel, by decide +kernel, ?_, by decide +kernel⟩
  rintro g ⟨⟩
  decide +kernel

/-- The read of the entry counts the error as corrected. -/
theorem entryError_counted : ∃ t, exec (.matrix ringIssue ringProduct []) entryError = .next t ∧
    t.dev.rd 0 LP5X_CE_COUNT_COUNT ≠ entryError.dev.rd 0 LP5X_CE_COUNT_COUNT := ⟨_, rfl, by decide +kernel⟩

/-- Refutes O26: the statement excludes errors in stored words and leaves those on LP5X's wires free. Where a ring lies in LP5X, the read of the
command's entry can meet one that link ECC corrects (R80): the read succeeds, so the command is offered and runs, and LP5X_CE_COUNT, which is
not among the fields that issuing it may write, goes up. Of commands of slices, which read no entry, both clauses hold
(`matrixAndGateAt_slice`). -/
theorem not_matrixAndGate : ¬ Obligations.MatrixAndGate := by
  rw [matrixAndGate_iff]
  intro h
  obtain ⟨hmatrix, -⟩ := h entryError ringIssue ringProduct [] 5 ⟨by decide +kernel, rfl, rfl⟩ rfl
  obtain ⟨u, hu, -, -, -, -, hkeep⟩ := hmatrix entryError_offers (by decide) (by decide +kernel) rfl rfl rfl rfl (by decide) rfl rfl rfl rfl rfl
  obtain ⟨t, ht, hne⟩ := entryError_counted
  obtain rfl : u = t := Host.Outcome.next.inj (hu.symm.trans ht)
  exact hne (hkeep 0 LP5X_CE_COUNT_COUNT (by decide))

end Sys2Proof.Machine
end

section

/-! THEOREMS of the family 06_attention_and_pads: the host's edits of page-table entries, and the ends of the pad mover's copies. -/

namespace Sys2Proof.Machine

/-! ### The entry that an edit or a move compares (R141) -/

theorem Device.homeDie_lt (s : Device) (a : Nat) : s.homeDie (s.region a) < 4 := by
  unfold Device.region
  split_ifs with hpond hstore hin hreg hin hlp
  · exact Nat.div_lt_of_lt_mul (by rwa [Nat.mul_comm])
  · exact Nat.div_lt_of_lt_mul (by omega)
  · exact Nat.div_lt_of_lt_mul (by omega)
  · exact Nat.div_lt_of_lt_mul (by omega)
  · exact Nat.div_lt_of_lt_mul (by omega)
  · have hquarter : s.lpBytes = s.lpBytes / 4 * 4 := by unfold Device.lpBytes; omega
    simp only [Device.homeDie, Device.lpChannel]
    split_ifs
    · decide
    · exact Nat.div_lt_of_lt_mul (by omega)
    · exact Nat.mod_lt _ (by decide)
  · exact Nat.zero_lt_succ _

theorem keepsFields_xfer {s t : Device} (h : keepsFields s t bridgeFields) {a : Nat} (ha : a < 4) (b : Nat) :
    keepsFields s (t.xfer a b) bridgeFields := by
  have hcount : ∀ {t : Device} {d : Nat} {f : Fld}, d < 4 → f ∈ bridgeCounts → keepsFields s t bridgeFields →
      keepsFields s (t.addWrap d f 1) bridgeFields := fun hd hf h e g hg =>
    (Device.rd_wr_ne _ _ _ _ _ _ (hg (_, _) (List.mem_flatMap.2 ⟨_, List.mem_range.2 hd, List.mem_map_of_mem hf⟩))).trans (h e g hg)
  have hmate : rowMate a < 4 := by unfold rowMate; split <;> omega
  have hrow : keepsFields s (if a % 2 = b % 2 then t else t.rowXfer a) bridgeFields := by
    split
    · exact h
    · exact hcount ha (by decide) (hcount ha (by decide) h)
  unfold Device.xfer
  by_cases hcol : a / 2 = b / 2
  · rwa [if_pos hcol]
  · rw [if_neg hcol]
    have hend : (if a % 2 = b % 2 then a else rowMate a) < 4 := by split <;> assumption
    exact hcount hend (by decide) (hcount hend (by decide) hrow)

/-- The device once a read has crossed to the die of its address and back. -/
def Device.readOver (s : Device) (src a : Nat) : Device :=
  (s.xfer src (s.homeDie (s.region a))).xfer (s.homeDie (s.region a)) src

theorem Device.readOver_onlyCounts (s : Device) (src a : Nat) : (s.readOver src a).onlyCounts s :=
  ((Device.onlyCounts.refl s).xfer _ _).xfer _ _

theorem Device.readOver_keepsFields (s : Device) {src : Nat} (hsrc : src < 4) (a : Nat) : keepsFields s (s.readOver src a) bridgeFields :=
  keepsFields_xfer (keepsFields_xfer (fun _ _ _ => rfl) hsrc _) (s.homeDie_lt a) _

/-- A read that meets no error and ends DONE has answered the bytes stored, over the routes between the dies. -/
theorem Device.readChk_done {s : Device} {src master a n : Nat} (hn : 1 ≤ n) (hclean : s.clean)
    (h : (s.readChk src master a n).2.1 = stDONE) : s.readChk src master a n = (s.readOver src a, stDONE, s.load a n) := by
  have hthere := (Device.onlyCounts.refl s).xfer src (s.homeDie (s.region a))
  have hbad : (wordsOf a n).any s.isUe = false := List.any_eq_false.2 fun w hw => by
    simp [Device.isUe_none (hclean.noErrors a n w hw).1 (hclean.noErrors a n w hw).2]
  have hfold : (wordsOf a n).foldl Device.eccDemand (s.xfer src (s.homeDie (s.region a))) = s.xfer src (s.homeDie (s.region a)) :=
    foldl_eq_self fun w hw =>
      Device.eccDemand_none ((hthere.clean hclean).noErrors a n w hw).1 ((hthere.clean hclean).noErrors a n w hw).2
  by_cases ha : s.accessStatus src master a n false = stDONE
  · by_cases hroute : s.routeUp (s.homeDie (s.region a)) src = true
    · simp [Device.readChk, Device.readOver, ha, hbad, hfold, Device.answered, hthere.sameMap.routeUp, hroute,
        Device.readData_clean hn (hclean.noErrors a n)]
    · exact absurd h (by simp [Device.readChk, ha, hfold, Device.answered, hthere.sameMap.routeUp, hroute, stTIMEOUT, stDONE])
  · exact absurd h (by simp [Device.readChk, ha])

/-- A compare-and-write of an entry that a routed read finds as it was. -/
theorem Device.cas_eq {s : Device} {src unit a old : Nat} (hclean : s.clean) (ha : s.accessStatus src unit a 8 false = stDONE)
    (hroute : s.routeUp (s.homeDie (s.region a)) src = true) (new : Nat) : s.cas src unit a old new =
      if s.load a 8 = old then ((s.readOver src a).store a new 8, true) else (s.readOver src a, false) := by
  obtain ⟨t, -, hread⟩ := Device.readChk_routed (Nat.one_le_iff_ne_zero.2 (by decide)) hclean ha hroute
  have hread := Device.readChk_done (by decide) hclean (congrArg (·.2.1) hread)
  have hno := ((s.readOver_onlyCounts src a).clean hclean).noErrors a 8
  simp only [Device.cas, hread, true_and, Device.writeWords_clean hno]

/-! ### The slots that follow an entry (R138, R148) -/

/-- The device with other slots. -/
def Device.withSlots (s : Device) (m : SMap PadSlot) : Device := { s with att := { s.att with slots := m } }

theorem Device.setSlots_eq (s : Device) (core n : Nat) (x : PadSlot) :
    ∃ m, s.setSlots core n x = s.withSlots m ∧ SMap.get {} m (core * 128 + n) = x := by
  unfold Device.setSlots
  split
  · exact ⟨_, rfl, (SMap.get_put_ne ({} : PadSlot) {} _ _ (by omega)).trans (SMap.get_put_same ..)⟩
  · exact ⟨_, rfl, SMap.get_put_same ..⟩

theorem Device.freeSlot_eq (s : Device) (core n : Nat) :
    ∃ m, s.freeSlot core n = s.withSlots m ∧ SMap.get {} m (core * 128 + n) = ({} : PadSlot) := by
  have hpair : core * 128 + n = core * 128 + n / 2 * 2 ∨ core * 128 + n = core * 128 + (n / 2 * 2 + 1) := by omega
  unfold Device.freeSlot
  dsimp only
  split
  · refine ⟨_, rfl, ?_⟩
    rw [SMap.get_put]
    split
    · rfl
    · next hodd => rw [hpair.resolve_right hodd]; exact SMap.get_put_same {} s.att.slots (core * 128 + n / 2 * 2) ({} : PadSlot)
  · exact ⟨_, rfl, SMap.get_put_same ..⟩

theorem SMap.sorted_of_pairwise {V : Type} {m : SMap V} (h : m.Pairwise fun x y => x.1 < y.1) : SMap.sorted m = true := by
  induction h with
  | nil => rfl
  | cons hlt _ ih => exact SMap.sorted_cons ih hlt

/-- A key that does not read as the default is listed with what it reads as. -/
theorem SMap.mem_of_get_ne {V : Type} {d : V} {m : SMap V} {k : Nat} (h : SMap.get d m k ≠ d) : (k, SMap.get d m k) ∈ m := by
  induction m with
  | nil => exact absurd rfl h
  | cons e m ih =>
    obtain ⟨a, v⟩ := e
    rw [SMap.get] at h ⊢
    split at h
    · next heq => rw [if_pos heq, heq]; exact .head _
    · next hne => rw [if_neg hne]; exact .tail _ (ih h)

/-- A slot left to an edited entry's readers, under the epoch of the entry's new value. -/
def PadSlot.retired (x : PadSlot) (new : Nat) : PadSlot := { x with st := 2, tag := peEpoch new }

/-- The used slots of the entry at `a` are RETIRED. -/
def slotsRetired (m : SMap PadSlot) (a new : Nat) : SMap PadSlot :=
  SMap.insAll ((m.filter fun x => x.2.entry = a && x.2.st = 1).map fun x => (x.1, x.2.retired new)) m

theorem Device.foldl_setSlot_retired (s : Device) (new : Nat) (l : List (Nat × PadSlot)) :
    l.foldl (fun s x => s.setSlot (x.1 / 128) (x.1 % 128) { x.2 with st := 2, tag := peEpoch new }) s =
      s.withSlots (SMap.insAll (l.map fun x => (x.1, x.2.retired new)) s.att.slots) := by
  induction l generalizing s with
  | nil => rfl
  | cons x l ih =>
    have hput : SMap.put {} s.att.slots (x.1 / 128 * 128 + x.1 % 128) (x.2.retired new) = SMap.ins x.1 (x.2.retired new) s.att.slots := by
      have hst : x.2.retired new ≠ {} := fun h => by simpa [PadSlot.retired] using congrArg PadSlot.st h
      rw [SMap.put, if_neg hst, Nat.div_add_mod']
    rw [List.foldl_cons, ih]
    exact congrArg (fun m => s.withSlots (SMap.insAll (l.map fun x => (x.1, x.2.retired new)) m)) hput

/-- On a sorted table of slots those of the entry are RETIRED and no other changes. -/
theorem get_slotsRetired {m : SMap PadSlot} (hm : m.Pairwise fun x y => x.1 < y.1) (a new j : Nat) :
    SMap.get {} (slotsRetired m a new) j =
      if (SMap.get {} m j).entry = a ∧ (SMap.get {} m j).st = 1 then (SMap.get {} m j).retired new else SMap.get {} m j := by
  refine SMap.get_insAll ?_ ?_
  · intro e he hkey
    obtain ⟨x, hx, rfl⟩ := List.mem_map.1 he
    obtain ⟨hx, hholds⟩ := List.mem_filter.1 hx
    have hslot : SMap.get {} m j = x.2 := hkey ▸ SMap.get_of_mem (SMap.sorted_of_pairwise hm) hx
    rw [hslot, if_pos (by simpa using hholds)]
  · by_cases hholds : (SMap.get {} m j).entry = a ∧ (SMap.get {} m j).st = 1
    · have hused : SMap.get {} m j ≠ ({} : PadSlot) := fun h => absurd hholds.2 (by rw [h]; decide)
      exact .inr ⟨_, List.mem_map_of_mem (List.mem_filter.2 ⟨SMap.mem_of_get_ne hused, by simpa using hholds⟩), rfl⟩
    · exact .inl (if_neg hholds).symm

/-- An entry that is being moved, and one that names a slot (R140). -/
def peMoves (e : Nat) : Bool := decide (peState e = pPROMOTING) || decide (peState e = pEVICTING)
def peNames (e : Nat) : Bool := peResident e || peMoves e

/-- An edit whose new value names no slot retires those of the entry, if its old value named one. -/
theorem Device.editSlots_unnamed (s : Device) (die k a old : Nat) {new : Nat} (h : peNames new = false) :
    s.editSlots die k a old new = s.withSlots (if peNames old then slotsRetired s.att.slots a new else s.att.slots) := by
  have hnames : ∀ e, (peResident e || decide (peState e = pPROMOTING) || decide (peState e = pEVICTING)) = peNames e := fun e => by
    rw [peNames, peMoves, Bool.or_assoc]
  simp only [Device.editSlots, hnames, h, Bool.false_eq_true, if_false, Bool.false_and, Bool.not_false, Bool.and_true, not_false_eq_true, if_true]
  split
  · exact Device.foldl_setSlot_retired ..
  · rfl

/-- The core of an edit is that of a slot of the entry, or one chosen freely. -/
theorem Device.editCore_fresh (s : Device) (die k a : Nat) : ∃ f, (s.editCore die k a).1 = { s with fresh := f } := by
  unfold Device.editCore
  split
  · exact ⟨_, rfl⟩
  · exact ⟨_, rfl⟩

theorem Device.editCore_congr {s t : Device} (hatt : t.att = s.att) (hfresh : t.fresh = s.fresh) (die k a : Nat) :
    (t.editCore die k a).2 = (s.editCore die k a).2 := by
  unfold Device.editCore
  rw [hatt, hfresh]
  split <;> rfl

/-! ### A slot's header (R136) -/

/-- A write that meets no error keeps what neither a field's write nor a byte's moves. -/
theorem Device.writeChk_keeps {β : Type} {v : Device → β} (hwr : ∀ (s : Device) (d : Nat) (f : Fld) (x : Nat), v (s.wr d f x) = v s)
    (hbyte : ∀ (s : Device) (a x : Nat), v (s.setByte a x) = v s) {s : Device} (hclean : s.clean) (src master a n x : Nat) :
    v (s.writeChk src master a n x).1 = v s := by
  have hxfer : ∀ (s : Device) (b c : Nat), v (s.xfer b c) = v s := fun s b c =>
    Device.xfer_keeps (P := fun t => v t = v s) (fun _ _ _ _ h => (hwr ..).trans h) rfl b c
  have htimeout : ∀ (s : Device) (d m b : Nat) (r w : Bool), v (s.timeoutErr d m b r w) = v s := fun s d m b r w => by
    rw [Device.timeoutErr, Device.recordErr]
    split <;> simp only [Device.addHold, Device.set, hwr]
  have hunmapped : ∀ (s : Device) (o r m b : Nat) (w : Bool), v (s.recordUnmapped o r m b w) = v s := fun s o r m b w => by
    simp only [Device.recordUnmapped, Device.set, apply_ite v, hwr, ite_self]
  by_cases hdone : s.accessStatus src master a n true = stDONE
  · have hno := (((Device.onlyCounts.refl s).xfer src (s.homeDie (s.region a))).clean hclean).noErrors a n
    simp only [Device.writeChk, hdone, ne_eq, not_true_eq_false, if_false, Device.partReads_clean hno, Device.writeBad_clean (hclean.noErrors a n),
      Device.writeWords_clean hno, Bool.false_eq_true, Device.answered]
    split
    · exact (hxfer ..).trans ((Device.store_keeps hbyte ..).trans (hxfer ..))
    · exact (htimeout ..).trans ((Device.store_keeps hbyte ..).trans (hxfer ..))
  · simp only [Device.writeChk, ne_eq, hdone, not_false_eq_true, if_true, Device.accessError, apply_ite v, hunmapped, htimeout, ite_self]

theorem Device.slotHeader_eq : Device.slotHeader = fun s core n job entry epoch =>
    (s.writeChk (core / 64) mPad (s.slotAddr core n) 512 (job + entry * 2 ^ 64 + epoch * 2 ^ 128)).1 := rfl

/-- A header has what a write of its 512 bytes has. -/
theorem Device.slotHeader_of_writeChk {P : Device → Prop} {s : Device} {core n : Nat}
    (h : ∀ v, P (s.writeChk (core / 64) mPad (s.slotAddr core n) 512 v).1) (job entry epoch : Nat) :
    P (s.slotHeader core n job entry epoch) := by
  rw [Device.slotHeader_eq]
  exact h _

/-- A header changes the bytes it names, or none, and no slot's record. -/
theorem Device.slotHeader_onlyAt {s : Device} (hclean : s.clean) (core n job entry epoch : Nat) :
    (s.slotHeader core n job entry epoch).onlyAt s (s.slotAddr core n) 512 :=
  Device.slotHeader_of_writeChk (P := fun t => t.onlyAt s (s.slotAddr core n) 512) (fun v => (Device.onlyAt.refl s _ 512).writeChk hclean _ _ v)
    job entry epoch

theorem Device.slotHeader_att {s : Device} (hclean : s.clean) (core n job entry epoch : Nat) :
    (s.slotHeader core n job entry epoch).att = s.att :=
  Device.slotHeader_of_writeChk (P := fun t => t.att = s.att)
    (fun _ => Device.writeChk_keeps (v := Device.att) (fun _ _ _ _ => rfl) (fun _ _ _ => rfl) hclean ..) job entry epoch

/-- A field of a cluster's registers. -/
abbrev Fld.ofCluster (f : Fld) : Prop := f.inMap ∧ 8 ≤ f.blk ∧ f.blk < 16

theorem Fld.ofCluster.uncounted {f : Fld} (h : f.ofCluster) : f.uncounted := ⟨h.1, .inl (by have := h.2.1; omega)⟩

/-- The address of a slot depends on its cluster's pool. -/
theorem Device.slotAddr_congr {s t : Device} (h : ∀ (e : Nat) (f : Fld), f.ofCluster → t.rd e f = s.rd e f) (core n : Nat) :
    t.slotAddr core n = s.slotAddr core n := by
  have hpool : (CLUSTER_PAD_POOL_BASE_4K (core % 64 / 8)).ofCluster := by
    simp only [Fld.ofCluster, Fld.inMap, CLUSTER_PAD_POOL_BASE_4K]; omega
  rw [Device.slotAddr, h _ _ hpool, Device.slotAddr]

/-- An edit whose new value names a slot puts the entry's pad there, and changes no more than the slots and their headers. -/
theorem Device.editSlots_named {s : Device} (hclean : s.clean) (die k a old : Nat) {new pool : Nat} (h : peNames new = true)
    (hpool : (s.editCore die k a).2 = pool) :
    (s.editSlots die k a old new).onlyAt s (s.slotAddr pool (peSlot new)) 512 ∧
      ((s.editSlots die k a old new).slot pool (peSlot new)).st = 1 ∧ ((s.editSlots die k a old new).slot pool (peSlot new)).entry = a := by
  generalize hedit : s.editSlots die k a old new = d
  unfold Device.editSlots at hedit
  extract_lets named x mine s1 n was job src at hedit
  have hnamed : named new = true := by rw [← h, peNames, peMoves, ← Bool.or_assoc]
  have hx : x = s.editCore die k a := if_pos hnamed
  obtain ⟨m1, hs1⟩ : ∃ m, s1 = x.1.withSlots m := by
    subst s1
    split
    · exact ⟨_, Device.foldl_setSlot_retired ..⟩
    · exact ⟨_, rfl⟩
  rw [if_neg (not_not_intro hnamed)] at hedit
  generalize hput : (if was.entry = a ∧ was.st = 1 then was
    else { src with st := 1, entry := a, stamp := s1.att.count, job := job }) = slot at hedit
  have hused : slot.st = 1 ∧ slot.entry = a := by
    rw [← hput]
    split
    · next hwas => exact ⟨hwas.2, hwas.1⟩
    · exact ⟨rfl, rfl⟩
  obtain ⟨m, hset, hget⟩ := Device.setSlots_eq s1 x.2 n slot
  obtain ⟨f, hf⟩ := s.editCore_fresh die k a
  rw [hset, hs1, hx, hf, hpool] at hedit
  rw [hx, hpool] at hget
  generalize hu : (({ s with fresh := f } : Device).withSlots m1).withSlots m = u at hedit
  have hwrite := Device.slotHeader_onlyAt (s := u) (by rw [← hu]; exact hclean) pool n job a (peEpoch new)
  have hatt := Device.slotHeader_att (s := u) (by rw [← hu]; exact hclean) pool n job a (peEpoch new)
  rw [hedit] at hwrite hatt
  have hslot : d.slot pool n = slot := by rw [Device.slot, hatt, ← hu]; exact hget
  subst hu
  exact ⟨⟨hwrite.xlate, hwrite.requests, hwrite.fields, hwrite.bytes⟩, hslot ▸ hused⟩

/-- A load of bytes that read alike. -/
theorem Device.load_of_range {s t : Device} {a n : Nat} (h : ∀ b, a ≤ b → b < a + n → t.byte b = s.byte b) : t.load a n = s.load a n := by
  induction n generalizing a with
  | zero => rfl
  | succ n ih => rw [Device.load, h a (Nat.le_refl a) (by omega), ih fun b hb hbn => h b (by omega) (by omega), ← Device.load]

/-! ### An entry that is written (R141) -/

theorem keepsFields.mono {s t : Device} {l r : List (Nat × Fld)} (h : keepsFields s t l) (hlr : l ⊆ r) : keepsFields s t r :=
  fun e f hf => h e f fun x hx => hf x (hlr hx)

theorem keepsFields.wr {s t : Device} {l : List (Nat × Fld)} (h : keepsFields s t l) {d : Nat} {f : Fld} (hf : (d, f) ∈ l) (v : Nat) :
    keepsFields s (t.wr d f v) l :=
  fun e g hg => (Device.rd_wr_ne _ _ _ _ _ _ (hg _ hf)).trans (h e g hg)

/-- One device is another whose entry has been read, from a die, but not written. -/
structure Device.readEntry (t s : Device) (src : Nat) : Prop where
  att : t.att = s.att
  fresh : t.fresh = s.fresh
  pond : t.pond = s.pond
  requests : t.requests = s.requests
  bytes : ∀ b, t.byte b = s.byte b
  fields : ∀ (e : Nat) (f : Fld), f.uncounted → t.rd e f = s.rd e f
  kept : src < 4 → keepsFields s t bridgeFields

/-- And one whose entry at `a` has been given the value `v`. -/
structure Device.wroteEntry (t s : Device) (src a v : Nat) : Prop where
  att : t.att = s.att
  fresh : t.fresh = s.fresh
  pond : t.pond = s.pond
  requests : t.requests = s.requests
  load : t.load a 8 = v % 2 ^ 64
  bytes : ∀ b, (b < a ∨ a + 8 ≤ b) → t.byte b = s.byte b
  fields : ∀ (e : Nat) (f : Fld), f.uncounted → t.rd e f = s.rd e f
  kept : src < 4 → keepsFields s t bridgeFields

theorem Device.readOver_readEntry (s : Device) (src a : Nat) : (s.readOver src a).readEntry s src :=
  have h := s.readOver_onlyCounts src a
  { att := h.view Device.att fun _ _ => rfl
    fresh := h.view Device.fresh fun _ _ => rfl
    pond := h.view Device.pond fun _ _ => rfl
    requests := h.view Device.requests fun _ _ => rfl
    bytes := fun b => h.view (·.byte b) fun _ _ => rfl
    fields := h.2
    kept := fun hsrc => s.readOver_keepsFields hsrc a }

theorem Device.readEntry.store {t s : Device} {src : Nat} (h : t.readEntry s src) (a v : Nat) : (t.store a v 8).wroteEntry s src a v where
  att := (Device.store_keeps (f := Device.att) (fun _ _ _ => rfl) ..).trans h.att
  fresh := (Device.store_keeps (f := Device.fresh) (fun _ _ _ => rfl) ..).trans h.fresh
  pond := (Device.store_pond ..).trans h.pond
  requests := (Device.store_keeps (f := Device.requests) (fun _ _ _ => rfl) ..).trans h.requests
  load := (Device.load_store ..).trans (by norm_num)
  bytes b hb := (Device.byte_store_ne _ _ _ _ _ hb).trans (h.bytes b)
  fields e f hf := (Device.rd_store ..).trans (h.fields e f hf)
  kept hsrc e f hf := (Device.rd_store ..).trans (h.kept hsrc e f hf)

/-! ### The host's edit (R141, R161) -/

/-- A command whose body leaves the requests of a sound device alone ends with what the body gives, its memory made canonical. -/
theorem runs_of_given {c : Instr} {s : State} {f : Device → Device} {d : Device} {P : Device → Prop} (hs : s.dev.sound)
    (hx : exec c s = s.upd f) (hf : f s.dev = d) (hreq : d.requests = s.dev.requests) (hP : P d.canon) : runs c s P := by
  subst hf
  exact runs_of_requests hs hx hreq hP

/-- The entry that an edit of a cluster names, and the values that it is to hold before and after. -/
def Device.editAddr (s : Device) (die k : Nat) : Nat :=
  (s.rd die (CLUSTER_PAD_EDIT_ADDR_LO_ADDR k) + 2 ^ 32 * (s.rd die (CLUSTER_PAD_EDIT_ADDR_HI_ADDR k) % 65536)) / 8 * 8
def Device.editOld (s : Device) (die k : Nat) : Nat :=
  s.rd die (CLUSTER_PAD_EDIT_OLD_LO_VALUE k) + 2 ^ 32 * s.rd die (CLUSTER_PAD_EDIT_OLD_HI_VALUE k)
def Device.editNew (s : Device) (die k : Nat) : Nat :=
  s.rd die (CLUSTER_PAD_EDIT_NEW_LO_VALUE k) + 2 ^ 32 * s.rd die (CLUSTER_PAD_EDIT_NEW_HI_VALUE k)

/-- The registers that an edit may write which does not show the entry's value. -/
def editFields (die k : Nat) : List (Nat × Fld) := (die, CLUSTER_PAD_EDIT_CTL_RESULT k) :: bridgeFields

/-- An edit is started, with OLD and NEW, of an entry at `a` of the Pond that holds `e`, can be read and meets no error. -/
structure Device.edits (s : Device) (die k value a e old new : Nat) : Prop where
  sound : s.sound
  start : value / 2 ^ 30 % 2 = 1
  idle : s.on die (CLUSTER_PAD_EDIT_CTL_BUSY k) = false
  clean : s.clean
  addr : s.editAddr die k = a
  entry : s.load a 8 = e
  old : s.editOld die k = old
  new : s.editNew die k = new
  inPond : a + 8 ≤ 4 * pondDieBytes
  read : (s.readChk die mPad a 8).2.1 = stDONE

section
variable {die k value a e old new : Nat}

theorem Device.edits.body {s : Device} (h : s.edits die k value a e old new) : padEditBody die k value s =
    if peMoves e then (s.readOver die a).wr die (CLUSTER_PAD_EDIT_CTL_RESULT k) 2
    else if e ≠ old then
      (((s.readOver die a).wr die (CLUSTER_PAD_EDIT_OLD_LO_VALUE k) e).wr die (CLUSTER_PAD_EDIT_OLD_HI_VALUE k) (e / 2 ^ 32)).wr die
        (CLUSTER_PAD_EDIT_CTL_RESULT k) 1
    else (((s.readOver die a).store a new 8).editSlots die k a old new).wr die (CLUSTER_PAD_EDIT_CTL_RESULT k) 0 := by
  obtain ⟨-, hstart, hidle, hclean, rfl, rfl, rfl, rfl, hpond, hread⟩ := h
  have hwrite := fun v => Device.writeWords_clean (((s.readOver_onlyCounts die (s.editAddr die k)).clean hclean).noErrors (s.editAddr die k) 8) v
  have hmoves : ∀ e, (peState e = pPROMOTING ∨ peState e = pEVICTING) ↔ peMoves e = true := fun e => by simp [peMoves]
  unfold padEditBody
  extract_lets a old new result x e
  have hx : x = (s.readOver die a, stDONE, s.load a 8) := Device.readChk_done (by decide) hclean hread
  have he : e = s.load a 8 := congrArg (·.2.2) hx
  rw [if_neg (not_not_intro (bit_of_mod hstart)), if_neg (by simp [hidle]), if_neg (show ¬ 4 * pondDieBytes < a + 8 from Nat.not_lt.2 hpond),
    he, hx, if_neg (not_not_intro rfl)]
  simp only [hmoves, show (s.readOver die a).writeWords a 8 new = (s.readOver die a).store a new 8 from hwrite new]
  rfl

theorem Device.rd_editResult (t : Device) {v : Nat} (hv : v < 2 ^ 3) :
    (t.wr die (CLUSTER_PAD_EDIT_CTL_RESULT k) v).canon.rd die (CLUSTER_PAD_EDIT_CTL_RESULT k) = v := by
  rw [Device.canon_rd, Device.rd_wr_same]
  exact Nat.mod_eq_of_lt hv

variable {s : State} (h : s.dev.edits die k value a e old new)
include h

/-- The clause of O28 on the edit of an entry that is being moved. -/
theorem padEdit_moving (hdie : die < 4) (hmoves : peMoves e = true) :
    runs (.padEdit die k value) s fun d => d.rd die (CLUSTER_PAD_EDIT_CTL_RESULT k) = 2 ∧ d.att = s.dev.att ∧ keepsMem s.dev d ∧
      keepsFields s.dev d (editFields die k) := by
  have hread := s.dev.readOver_readEntry die a
  have hbody := h.body.trans (if_pos hmoves)
  generalize s.dev.readOver die a = t at hread hbody
  exact runs_of_given h.sound rfl hbody hread.requests ⟨Device.rd_editResult _ (by decide), hread.att,
    fun b => (Device.canon_byte ..).trans (hread.bytes b), ((hread.kept hdie).mono (List.subset_cons_self ..)).wr (.head _) 2⟩

/-- The clause of O28 on the edit of an entry that differs from OLD. -/
theorem padEdit_differs (hdie : die < 4) (hmoves : peMoves e = false) (hold : e ≠ old) :
    runs (.padEdit die k value) s fun d => d.rd die (CLUSTER_PAD_EDIT_CTL_RESULT k) = 1 ∧ d.att = s.dev.att ∧ keepsMem s.dev d ∧
      d.editOld die k = e ∧
      keepsFields s.dev d ((die, CLUSTER_PAD_EDIT_OLD_LO_VALUE k) :: (die, CLUSTER_PAD_EDIT_OLD_HI_VALUE k) :: editFields die k) := by
  have hlt : e < 2 ^ 64 := (h.entry ▸ s.dev.load_lt a 8).trans_eq (by norm_num)
  have hread := s.dev.readOver_readEntry die a
  have hbody := h.body.trans ((if_neg (by simp [hmoves])).trans (if_pos hold))
  generalize s.dev.readOver die a = t at hread hbody
  have hfields : keepsFields s.dev t ((die, CLUSTER_PAD_EDIT_OLD_LO_VALUE k) :: (die, CLUSTER_PAD_EDIT_OLD_HI_VALUE k) :: editFields die k) :=
    (hread.kept hdie).mono fun _ hx => .tail _ (.tail _ (.tail _ hx))
  have hlo : (CLUSTER_PAD_EDIT_OLD_LO_VALUE k).key die ≠ (CLUSTER_PAD_EDIT_OLD_HI_VALUE k).key die ∧
      (CLUSTER_PAD_EDIT_OLD_LO_VALUE k).key die ≠ (CLUSTER_PAD_EDIT_CTL_RESULT k).key die := by
    simp only [Fld.key, Fld.home, CLUSTER_PAD_EDIT_OLD_LO_VALUE, CLUSTER_PAD_EDIT_OLD_HI_VALUE, CLUSTER_PAD_EDIT_CTL_RESULT]; omega
  have hhi : (CLUSTER_PAD_EDIT_OLD_HI_VALUE k).key die ≠ (CLUSTER_PAD_EDIT_CTL_RESULT k).key die := by
    simp only [Fld.key, Fld.home, CLUSTER_PAD_EDIT_OLD_HI_VALUE, CLUSTER_PAD_EDIT_CTL_RESULT]; omega
  refine runs_of_given h.sound rfl hbody hread.requests ⟨Device.rd_editResult _ (by decide), hread.att,
    fun b => (Device.canon_byte ..).trans (hread.bytes b), ?_,
    ((hfields.wr (.head _) _).wr (.tail _ (.head _)) _).wr (.tail _ (.tail _ (.head _))) 1⟩
  rw [Device.editOld, Device.canon_rd, Device.canon_rd, Device.rd_wr_ne _ _ _ _ _ _ hlo.2, Device.rd_wr_ne _ _ _ _ _ _ hlo.1,
    Device.rd_wr_same, Device.rd_wr_ne _ _ _ _ _ _ hhi, Device.rd_wr_same]
  simp only [CLUSTER_PAD_EDIT_OLD_LO_VALUE, CLUSTER_PAD_EDIT_OLD_HI_VALUE]
  omega

/-- The clause of O28 on an edit that agrees and whose new value names no slot. -/
theorem padEdit_unnamed (hdie : die < 4) (hmoves : peMoves e = false) (hold : e = old) (hnew : peNames new = false)
    (hsorted : s.dev.att.slots.Pairwise fun x y => x.1 < y.1) :
    runs (.padEdit die k value) s fun d => d.rd die (CLUSTER_PAD_EDIT_CTL_RESULT k) = 0 ∧ d.load a 8 = new % 2 ^ 64 ∧
      (∀ c n, d.slot c n = let x := s.dev.slot c n
        if x.entry = a ∧ x.st = 1 ∧ peNames old = true then { x with st := 2, tag := peEpoch new } else x) ∧
      (∀ b, (b < a ∨ a + 8 ≤ b) → d.byte b = s.dev.byte b) ∧ keepsFields s.dev d (editFields die k) := by
  have hwrote := (s.dev.readOver_readEntry die a).store a new
  have hbody := h.body.trans ((if_neg (by simp [hmoves])).trans (if_neg (not_not_intro hold)))
  rw [Device.editSlots_unnamed _ _ _ _ _ hnew, hwrote.att] at hbody
  generalize (s.dev.readOver die a).store a new 8 = t at hwrote hbody
  refine runs_of_given h.sound rfl hbody hwrote.requests ⟨Device.rd_editResult _ (by decide), ?_, fun c n => ?_,
    fun b hb => (Device.canon_byte ..).trans (hwrote.bytes b hb), ?_⟩
  · exact (Device.load_of_bytes (fun b => Device.canon_byte ..) _ _).trans hwrote.load
  · change SMap.get {} (if peNames old then slotsRetired s.dev.att.slots a new else s.dev.att.slots) (c * 128 + n) = _
    cases hnames : peNames old with
    | true =>
      simp only [if_true, and_true]
      exact get_slotsRetired hsorted ..
    | false => simp only [Bool.false_eq_true, if_false, and_false]; rfl
  · exact ((show keepsFields s.dev (t.withSlots _) bridgeFields from hwrote.kept hdie).mono (List.subset_cons_self ..)).wr (.head _) 0

/-- The clause of O28 on an edit that agrees and whose new value names a slot. -/
theorem padEdit_named (hmoves : peMoves e = false) (hold : e = old) (hnew : peNames new = true) {pool header : Nat}
    (hpool : (s.dev.editCore die k a).2 = pool) (hheader : s.dev.slotAddr pool (peSlot new) = header)
    (hapart : a + 8 ≤ header ∨ header + 512 ≤ a) :
    runs (.padEdit die k value) s fun d => d.rd die (CLUSTER_PAD_EDIT_CTL_RESULT k) = 0 ∧ d.load a 8 = new % 2 ^ 64 ∧
      (d.slot pool (peSlot new)).st = 1 ∧ (d.slot pool (peSlot new)).entry = a ∧
      ∀ b, (b < a ∨ a + 8 ≤ b) → (b < header ∨ header + 512 ≤ b) → d.byte b = s.dev.byte b := by
  have hwrote := (s.dev.readOver_readEntry die a).store a new
  have hbody := h.body.trans ((if_neg (by simp [hmoves])).trans (if_neg (not_not_intro hold)))
  generalize (s.dev.readOver die a).store a new 8 = t at hwrote hbody
  have hclean : t.clean := by
    rw [Device.clean, hwrote.pond]
    exact h.clean
  obtain ⟨hslots, hst, hentry⟩ := Device.editSlots_named hclean die k a old hnew
    ((Device.editCore_congr hwrote.att hwrote.fresh die k a).trans hpool)
  rw [Device.slotAddr_congr (fun e f hf => hwrote.fields e f hf.uncounted), hheader] at hslots
  generalize t.editSlots die k a old new = u at hbody hslots hst hentry
  refine runs_of_given h.sound rfl hbody (hslots.requests.trans hwrote.requests) ⟨Device.rd_editResult _ (by decide), ?_, hst, hentry,
    fun b hb hb' => (Device.canon_byte ..).trans ((hslots.bytes b hb').trans (hwrote.bytes b hb))⟩
  refine (Device.load_of_range fun b hlo hhi => ?_).trans hwrote.load
  exact (Device.canon_byte ..).trans (hslots.bytes b (by omega))
end

/-! ### What a copy between a pad and its slot leaves (R148) -/

/-- A field of other blocks than the clusters'. -/
abbrev Fld.offCluster (f : Fld) : Prop := f.inMap ∧ (f.blk < 8 ∨ 16 ≤ f.blk)

/-- Attention's state, the requests, the errors on LP5X's wires, and the clusters' registers. -/
def Device.padView (s : Device) : AttSt × (List Req × RegulSt) × SMap (Option EccErr) × (Nat → {f : Fld // f.ofCluster} → Nat) :=
  (s.att, s.requests, s.pond.link, fun d f => s.rd d f.1)

theorem Device.padView_wr (s : Device) (d : Nat) {f : Fld} (v : Nat) (hf : f.offCluster) : (s.wr d f v).padView = s.padView := by
  have hrd : (fun e (g : {g : Fld // g.ofCluster}) => (s.wr d f v).rd e g.1) = fun e g => s.rd e g.1 := by
    funext e ⟨g, hg, hlo, hhi⟩
    exact Device.rd_wr_elsewhere ⟨hg, hf.1, .inl fun (heq : g.blk = f.blk) => by have := hf.2; omega⟩
  rw [Device.padView, hrd]
  rfl

theorem Device.padView_set (s : Device) (d : Nat) {f : Fld} (hf : f.offCluster) : (s.set d f).padView = s.padView := s.padView_wr d 1 hf
theorem Device.padView_clr (s : Device) (d : Nat) {f : Fld} (hf : f.offCluster) : (s.clr d f).padView = s.padView := s.padView_wr d 0 hf
theorem Device.padView_addHold (s : Device) (d : Nat) {f : Fld} (n : Nat) (hf : f.offCluster) : (s.addHold d f n).padView = s.padView :=
  s.padView_wr d _ hf
theorem Device.padView_setIsland (s : Device) (i : Nat) (x : Island) : (s.setIsland i x).padView = s.padView := rfl
theorem Device.padView_emit (s : Device) (m : Msg) : (s.emit m).padView = s.padView := rfl

theorem Device.padView_dropOut (s : Device) (i : Nat) : (s.dropOut i).padView = s.padView := by
  simp (disch := decide) only [Device.dropOut, padView_emit, padView_clr, padView_setIsland]

theorem Device.padView_islandFault (s : Device) (i cause die detail : Nat) : (s.islandFault i cause die detail).padView = s.padView := by
  unfold Device.islandFault
  extract_lets now s1 c island s1' s2 s3 s4
  have h1 : s1.padView = s.padView := by
    subst s1
    simp (disch := decide) only [apply_ite Device.padView, padView_wr, padView_set, ite_self]
  have h1' : s1'.padView = s1.padView := by
    subst s1'
    simp only [apply_ite Device.padView, padView_setIsland, ite_self]
  have h2 : s2.padView = s1'.padView := Device.padView_wr _ _ _ (by decide)
  have h3 : s3.padView = s2.padView := by
    subst s3
    simp (disch := decide) only [apply_ite Device.padView, padView_clr, ite_self]
  have h4 : s4.padView = s.padView := (Device.padView_set _ _ (by decide)).trans (h3.trans (h2.trans (h1'.trans h1)))
  clear_value s4
  simp (disch := decide) only [apply_ite Device.padView, padView_setIsland, padView_dropOut, padView_wr, h4, ite_self]

theorem Device.padView_raiseCause (s : Device) (cause die detail : Nat) : (s.raiseCause cause die detail).padView = s.padView := by
  rw [Device.raiseCause, Device.tailActive, foldl_keeps Device.padView _ (fun s d => s.padView_set d (by decide)), padView_islandFault,
    padView_islandFault]

theorem Device.padView_raiseF4 (s : Device) (code : Nat) : (s.raiseF4 code).padView = s.padView := by
  simp (disch := decide) only [Device.raiseF4, apply_ite Device.padView, padView_raiseCause, padView_wr, ite_self]

theorem Device.padView_recPond (s : Device) (die w : Nat) (e : EccErr) (source : Nat) : (s.recPond die w e source).padView = s.padView := by
  simp (disch := decide) only [Device.recPond, apply_ite Device.padView, padView_wr, padView_set, ite_self]

theorem Device.padView_recLp (s : Device) (w : Nat) (e : EccErr) (source : Nat) : (s.recLp w e source).padView = s.padView := by
  simp (disch := decide) only [Device.recLp, apply_ite Device.padView, padView_wr, padView_set, ite_self]

theorem Device.padView_eccFound (s : Device) (w : Nat) (e : EccErr) (source : Nat) : (s.eccFound w e source).padView = s.padView := by
  simp (disch := decide) only [Device.eccFound, apply_ite Device.padView, padView_recPond, padView_recLp, padView_addHold, ite_self]

theorem Device.padView_queueFix (s : Device) (w : Nat) : (s.queueFix w).padView = s.padView := by
  unfold Device.queueFix
  dsimp only
  split_ifs
  · rfl
  · exact s.padView_addHold _ 1 (by decide)
  · rfl

theorem Device.padView_storeUe (s : Device) (w : Nat) : (s.storeUe w).padView = s.padView := by
  unfold Device.storeUe
  split
  · simp only [apply_ite Device.padView, padView_raiseF4, padView_raiseCause, ite_self]
  · rfl

theorem Device.padView_xfer (s : Device) (a b : Nat) : (s.xfer a b).padView = s.padView :=
  Device.xfer_keeps (P := fun t => t.padView = s.padView)
    (fun t d f hf h => (t.padView_wr d _ ((by decide : ∀ f ∈ bridgeCounts, f.offCluster) f hf)).trans h) rfl a b

theorem Device.padView_timeoutErr (s : Device) (die master a : Nat) (remote write : Bool) :
    (s.timeoutErr die master a remote write).padView = s.padView := by
  simp (disch := decide) only [Device.timeoutErr, Device.recordErr, apply_ite Device.padView, padView_wr, padView_set, padView_addHold, ite_self]

theorem Device.padView_recordUnmapped (s : Device) (own src master a : Nat) (write : Bool) :
    (s.recordUnmapped own src master a write).padView = s.padView := by
  simp (disch := decide) only [Device.recordUnmapped, apply_ite Device.padView, padView_wr, padView_set, ite_self]

theorem Device.padView_answered (s : Device) (src master h a status : Nat) (write : Bool) :
    (s.answered src master h a status write).1.padView = s.padView := by
  unfold Device.answered
  split
  · exact s.padView_xfer ..
  · exact s.padView_timeoutErr ..

theorem Device.padView_store (s : Device) (a v n : Nat) : (s.store a v n).padView = s.padView :=
  Device.store_keeps (f := Device.padView) (fun _ _ _ => rfl) ..

theorem Device.padView_carried (s : Device) (die unit job : Nat) (ps : List (Nat × Nat)) : (s.carried die unit job ps).padView = s.padView := by
  unfold Device.carried
  split
  · rfl
  · exact (Device.padView_wr _ _ _ (by decide)).trans (s.padView_wr _ _ (by decide))

/-! With no error on the wires. -/

theorem Device.link_of_padView {s t : Device} (h : t.padView = s.padView) (hs : s.pond.link = []) : t.pond.link = [] :=
  (congrArg (·.2.2.1) h).trans hs

theorem Device.linkAt_of_nil {s : Device} (h : s.pond.link = []) (w : Nat) : s.linkAt w = none := by
  rw [Device.linkAt, h]
  exact ite_self _

theorem foldl_padView {α : Type} {f : Device → α → Device} (hf : ∀ t a, t.pond.link = [] → (f t a).padView = t.padView) (l : List α)
    {s : Device} (h : s.pond.link = []) : (l.foldl f s).padView = s.padView := by
  induction l generalizing s with
  | nil => rfl
  | cons a l ih => exact (ih (Device.link_of_padView (hf s a h) h)).trans (hf s a h)

/-- As a lemma of a variable device, so that no access is evaluated where a pair with its device in front is taken apart. -/
theorem padView_fst {β : Type} {s t : Device} {b : β} {x : Device × β} (hx : (t, b) = x) (ht : t.padView = s.padView) :
    x.1.padView = s.padView := hx ▸ ht

section
variable {s : Device} (h : s.pond.link = [])
include h

theorem Device.padView_eccDemand (w : Nat) : (s.eccDemand w).padView = s.padView := by
  unfold Device.eccDemand
  rw [Device.linkMet_none (Device.linkAt_of_nil h w)]
  dsimp only
  split
  · rfl
  · simp only [apply_ite Device.padView, padView_storeUe, padView_queueFix, padView_eccFound, ite_self]

theorem Device.padView_readChk (src master a n : Nat) : (s.readChk src master a n).1.padView = s.padView := by
  unfold Device.readChk
  dsimp only
  split
  · simp only [Device.accessError, apply_ite Device.padView, padView_recordUnmapped, padView_timeoutErr, ite_self]
  · have hthere := s.padView_xfer src (s.homeDie (s.region a))
    exact (Device.padView_answered ..).trans
      ((foldl_padView (fun _ w ht => Device.padView_eccDemand ht w) _ (Device.link_of_padView hthere h)).trans hthere)

theorem Device.padView_walkLevel (die unit job level table va : Nat) : (s.walkLevel die unit job level table va).1.padView = s.padView := by
  have hread := Device.padView_readChk h die unit (table + 8 * lvlIndex level va) 8
  generalize hx : s.walkLevel die unit job level table va = x
  unfold Device.walkLevel at hx
  split at hx
  · exact padView_fst hx rfl
  · dsimp only at hx
    split at hx
    · exact padView_fst hx hread
    · split at hx
      · exact padView_fst hx hread
      · split at hx <;> exact padView_fst hx hread

theorem Device.padView_walk (die unit job va : Nat) : (s.walk die unit job va).1.padView = s.padView := by
  have hread := Device.padView_readChk h die unit (s.jobTab + 16 * job) 16
  have hlevel : ∀ {t : Device}, t.padView = s.padView → ∀ {level table : Nat} {x : Device × Except XRes Nat},
      t.walkLevel die unit job level table va = x → x.1.padView = s.padView := fun ht _ _ _ hx =>
    hx ▸ (Device.padView_walkLevel (Device.link_of_padView ht h) ..).trans ht
  generalize hx : s.walk die unit job va = x
  unfold Device.walk at hx
  dsimp only at hx
  split at hx
  · exact padView_fst hx hread
  · split at hx
    · exact padView_fst hx hread
    · split at hx
      · next hfirst => exact padView_fst hx (hlevel hread hfirst)
      · next hfirst =>
        split at hx
        · next hsecond => exact padView_fst hx (hlevel (hlevel hread hfirst) hsecond)
        · next hsecond =>
          split at hx
          · exact padView_fst hx (hlevel (hlevel hread hfirst) hsecond)
          · split at hx
            · next hthird => exact padView_fst hx (hlevel (hlevel (hlevel hread hfirst) hsecond) hthird)
            · next hthird => exact padView_fst hx (hlevel (hlevel (hlevel hread hfirst) hsecond) hthird)

theorem Device.padView_moverPa (die job va : Nat) (write : Bool) : (s.moverPa die job va write).1.padView = s.padView := by
  have hwalk := Device.padView_walk h die mPad job va
  unfold Device.moverPa
  split
  · rfl
  · split
    · rfl
    · split
      · next s1 r heq => rw [heq] at hwalk; exact hwalk
      · next s1 e l heq => rw [heq] at hwalk; exact hwalk

theorem Device.padView_copyChk (src dst n : Nat) : (s.copyChk src dst n).1.padView = s.padView := by
  have hread := foldl_padView (fun _ w ht => Device.padView_eccDemand ht w) (s.badWords src n) h
  unfold Device.copyChk
  dsimp only
  split
  · exact hread
  · have hcopied := foldl_keeps Device.padView (fun (t : Device) w =>
        if s.readWord w ^^^ s.load (8 * w) 8 = 0 then t else
          t.store (8 * w + dst - src) (t.load (8 * w + dst - src) 8 ^^^ (s.readWord w ^^^ s.load (8 * w) 8)) 8)
      (fun t w => by rw [apply_ite Device.padView, padView_store, ite_self]) (s.badWords src n)
      (((s.badWords src n).foldl Device.eccDemand s).copyRange src dst n)
    have hwritten := hcopied.trans (show Device.padView (Device.copyRange _ src dst n) = s.padView from hread)
    exact (foldl_padView (f := Device.linkStore) (fun t w ht => by rw [Device.linkStore_none (Device.linkAt_of_nil ht w)]) _
      (Device.link_of_padView hwritten h)).trans hwritten

theorem Device.padView_copyPage (core job va pa n p : Nat) (toVa : Bool) :
    (s.copyPage core job va pa n p toVa).1.padView = s.padView := by
  have hpa := Device.padView_moverPa h (core / 64) job (max va p) toVa
  generalize hx : s.copyPage core job va pa n p toVa = x
  unfold Device.copyPage at hx
  extract_lets size lo hi y slot at hx
  change y.1.padView = s.padView at hpa
  split at hx
  · next a _ =>
    extract_lets ok z u at hx
    have hz : z.padView = s.padView := (Device.padView_carried ..).trans hpa
    have hu : u.1.padView = s.padView := by
      unfold u
      split <;> exact (Device.padView_copyChk (Device.link_of_padView hz h) ..).trans hz
    split at hx
    · exact padView_fst hx hu
    · exact padView_fst hx (by split <;> assumption)
  · exact padView_fst hx hpa
  · exact padView_fst hx hpa

/-- A copy leaves attention's state, the requests and the clusters' registers, and meets no error on the wires. -/
theorem Device.padView_copyVa (core job va pa n : Nat) (toVa : Bool) : (s.copyVa core job va pa n toVa).1.padView = s.padView := by
  have hpages : ∀ (l : List Nat) (x : Device × Nat), x.1.pond.link = [] →
      (l.foldl (fun (x : Device × Nat) p => if x.2 ≠ 0 then x else x.1.copyPage core job va pa n p toVa) x).1.padView = x.1.padView := by
    intro l
    induction l with
    | nil => exact fun _ _ => rfl
    | cons p l ih =>
      intro x hx
      have hpage : (if x.2 ≠ 0 then x else x.1.copyPage core job va pa n p toVa).1.padView = x.1.padView := by
        split
        · rfl
        · exact Device.padView_copyPage hx ..
      exact (ih _ (Device.link_of_padView hpage hx)).trans hpage
  exact hpages _ (s, 0) h
end

/-! ### The ends of the mover's copies (R148, R149) -/

/-- The device once a move that nothing waits for is over. -/
def Device.moved (t : Device) (m : PadMove) : Device :=
  { t with att := { t.att with moves := t.att.moves.filter (· ≠ m), wants := [] } }

theorem Device.afterMove_idle {t : Device} (hwants : t.att.wants = []) (hcmds : t.att.cmds = []) (m : PadMove) :
    t.afterMove m = t.moved m := by
  simp only [Device.afterMove, hwants, List.filter_nil, List.foldl_nil, Device.rowsOn, hcmds, Device.moved]

/-- The mover has copied and compares the entry: `c` is the device once the copy is done, and none waits for the move. -/
structure Device.compares (s c : Device) (core : Nat) (m : PadMove) : Prop where
  wants : s.att.wants = []
  cmds : s.att.cmds = []
  view : c.padView = s.padView
  clean : c.clean
  status : c.accessStatus (core / 64) mPad m.entry 8 false = stDONE
  route : c.routeUp (c.homeDie (c.region m.entry)) (core / 64) = true

/-- A count of a cluster's moves goes up by one, and holds at its greatest value. -/
def Device.countsOne (d s : Device) (core : Nat) (f : Nat → Fld) : Prop :=
  d.rd (core / 64) (f (core % 64 / 8)) = min (s.rd (core / 64) (f (core % 64 / 8)) + 1) (2 ^ (f 0).w - 1)

theorem moves_ofCluster (core : Nat) :
    (CLUSTER_PAD_MOVES_PROMOTED (core % 64 / 8)).ofCluster ∧ (CLUSTER_PAD_MOVES_EVICTED (core % 64 / 8)).ofCluster := by
  simp only [Fld.ofCluster, Fld.inMap, CLUSTER_PAD_MOVES_PROMOTED, CLUSTER_PAD_MOVES_EVICTED]
  omega

theorem Device.padCount_countsOne {t s : Device} {core : Nat} {f : Nat → Fld}
    (h : t.rd (core / 64) (f (core % 64 / 8)) = s.rd (core / 64) (f (core % 64 / 8))) (hw : ∀ k, (f k).w = (f 0).w) :
    (t.padCount core f).countsOne s core f := by
  rw [Device.countsOne, Device.padCount, Device.rd_addHold_same, h, hw]

theorem Device.rd_of_padView {s c : Device} (h : c.padView = s.padView) (e : Nat) {f : Fld} (hf : f.ofCluster) : c.rd e f = s.rd e f :=
  congrFun (congrFun (congrArg (·.2.2.2) h) e) ⟨f, hf⟩

/-- A copy that met no fault, by what its comparison of the entry found. -/
theorem padCopyDoneBody_eq {s c t : Device} {core n : Nat} {m : PadMove} {same : Bool} (hmove : s.moveOf core n true = some m)
    (hcopy : s.copyVa core (s.workJob m.work) m.va (s.slotAddr core n) (if (s.slot core n).wide then padCopyBytes 8 else padCopyBytes 3) false =
      (c, 0)) (hcas : c.moverCas core m.entry m.value (peWithState m.value pPOND) = (t, same)) :
    padCopyDoneBody core n [] s =
      (if same then (t.slotHeader core n (s.workJob m.work) m.entry (peEpoch m.value)).padCount core CLUSTER_PAD_MOVES_PROMOTED
        else t.freeSlot core n).afterMove m := by
  rw [padCopyDoneBody, show s.arise [] = s from rfl]
  simp only [hmove, hcopy, hcas, ne_eq, not_true_eq_false, if_false, if_true]

/-- An eviction whose entry stood when its slot was copied. -/
theorem padEvictionAckBody_eq {s c t : Device} {core n : Nat} {m : PadMove} (hmove : s.moveOf core n false = some m)
    (hread : s.readData m.entry 8 = m.value)
    (hcopy : s.copyVa core (s.slot core n).job m.va (s.slotAddr core n) (if (s.slot core n).wide then 2 * slotBytes else slotBytes) true = (c, 0))
    (hcas : c.moverCas core m.entry m.value (peWithState m.value pLP5X) = (t, true)) :
    padEvictionAckBody core n s = ((t.freeSlot core n).padCount core CLUSTER_PAD_MOVES_EVICTED).afterMove m := by
  simp only [padEvictionAckBody, hmove, hread, hcopy, hcas, ne_eq, not_true_eq_false, if_false]

section
variable {s c : Device} {core n : Nat} {m : PadMove} (h : s.compares c core m)
include h

theorem Device.compares.requests : c.requests = s.requests := congrArg (·.2.1) h.view
theorem Device.compares.att : c.att = s.att := congrArg (·.1) h.view

/-- A move whose entry was edited meanwhile reads the entry and no more. -/
theorem Device.compares.edited (hedited : c.load m.entry 8 ≠ m.value) (new : Nat) :
    ∃ t, t.readEntry c (core / 64) ∧ c.moverCas core m.entry m.value new = (t, false) :=
  ⟨_, c.readOver_readEntry .., (Device.cas_eq h.clean h.status h.route new).trans (if_neg hedited)⟩

/-- One whose entry stands gives it the new value. -/
theorem Device.compares.stands (hstands : c.load m.entry 8 = m.value) (new : Nat) :
    ∃ t, t.wroteEntry c (core / 64) m.entry new ∧ c.moverCas core m.entry m.value new = (t, true) :=
  ⟨_, (c.readOver_readEntry ..).store .., (Device.cas_eq h.clean h.status h.route new).trans (if_pos hstands)⟩

/-- Slots may change before the move is over. -/
theorem Device.compares.afterMove {t : Device} (hwants : t.att.wants = s.att.wants) (hcmds : t.att.cmds = s.att.cmds) :
    t.afterMove m = t.moved m :=
  Device.afterMove_idle (hwants.trans h.wants) (hcmds.trans h.cmds) m
end

section
variable {s : State} {core n : Nat} {m : PadMove} {c : Device} (hs : s.dev.sound) (h : s.dev.compares c core m)
  (hmove : s.dev.moveOf core n true = some m)
  (hcopy : s.dev.copyVa core (s.dev.workJob m.work) m.va (s.dev.slotAddr core n)
    (if (s.dev.slot core n).wide then padCopyBytes 8 else padCopyBytes 3) false = (c, 0))
include hs h hmove hcopy

/-- The clause of O28 on a copy whose entry was edited meanwhile. -/
theorem padCopyDone_discards (hcore : core < 256) (hedited : c.load m.entry 8 ≠ m.value) :
    runs (.padCopyDone core n []) s fun d => (d.slot core n).st = 0 ∧ d.att.moves = s.dev.att.moves.filter (· ≠ m) ∧ keepsMem c d ∧
      keepsFields c d bridgeFields := by
  obtain ⟨t, ht, hcas⟩ := h.edited hedited (peWithState m.value pPOND)
  obtain ⟨r, hfree, hslot⟩ := t.freeSlot_eq core n
  have hatt := ht.att.trans h.att
  have hbody : padCopyDoneBody core n [] s.dev = (t.withSlots r).moved m := by
    rw [padCopyDoneBody_eq hmove hcopy hcas, if_neg Bool.false_ne_true, hfree]
    exact h.afterMove (congrArg AttSt.wants hatt :) (congrArg AttSt.cmds hatt :)
  exact runs_of_given hs rfl hbody (ht.requests.trans h.requests) ⟨congrArg PadSlot.st hslot,
    (congrArg (fun x : AttSt => x.moves.filter (· ≠ m)) hatt :), fun b => (Device.canon_byte ..).trans (ht.bytes b),
    ht.kept (Nat.div_lt_of_lt_mul hcore)⟩

/-- The clause of O28 on a copy whose entry stands. -/
theorem padCopyDone_promotes (hstands : c.load m.entry 8 = m.value) {a : Nat} (ha : s.dev.slotAddr core n = a)
    (hapart : m.entry + 8 ≤ a ∨ a + 512 ≤ m.entry) :
    runs (.padCopyDone core n []) s fun d => d.load m.entry 8 = peWithState m.value pPOND % 2 ^ 64 ∧ d.slot core n = s.dev.slot core n ∧
      d.att.moves = s.dev.att.moves.filter (· ≠ m) ∧ d.countsOne s.dev core CLUSTER_PAD_MOVES_PROMOTED ∧
      ∀ b, (b < m.entry ∨ m.entry + 8 ≤ b) → (b < a ∨ a + 512 ≤ b) → d.byte b = c.byte b := by
  obtain ⟨t, ht, hcas⟩ := h.stands hstands (peWithState m.value pPOND)
  have hclean : t.clean := by
    rw [Device.clean, ht.pond]
    exact h.clean
  have hrd : ∀ (e : Nat) (f : Fld), f.ofCluster → t.rd e f = s.dev.rd e f := fun e f hf =>
    (ht.fields e f hf.uncounted).trans (Device.rd_of_padView h.view e hf)
  have hwrite := Device.slotHeader_onlyAt hclean core n (s.dev.workJob m.work) m.entry (peEpoch m.value)
  have hatt := Device.slotHeader_att hclean core n (s.dev.workJob m.work) m.entry (peEpoch m.value)
  rw [Device.slotAddr_congr hrd, ha] at hwrite
  obtain ⟨w, hw⟩ : ∃ w, t.slotHeader core n (s.dev.workJob m.work) m.entry (peEpoch m.value) = w := ⟨_, rfl⟩
  rw [hw] at hwrite hatt
  have hatt := hatt.trans (ht.att.trans h.att)
  have hbody : padCopyDoneBody core n [] s.dev = (w.padCount core CLUSTER_PAD_MOVES_PROMOTED).moved m := by
    rw [padCopyDoneBody_eq hmove hcopy hcas, if_pos rfl, hw]
    exact h.afterMove (congrArg AttSt.wants hatt :) (congrArg AttSt.cmds hatt :)
  have hcount : w.rd (core / 64) (CLUSTER_PAD_MOVES_PROMOTED (core % 64 / 8)) = s.dev.rd (core / 64) (CLUSTER_PAD_MOVES_PROMOTED (core % 64 / 8)) :=
    (hwrite.fields _ _ (moves_ofCluster core).1.1 (by simp [CLUSTER_PAD_MOVES_PROMOTED])).trans (hrd _ _ (moves_ofCluster core).1)
  refine runs_of_given hs rfl hbody (hwrite.requests.trans (ht.requests.trans h.requests)) ⟨?_, (congrArg (fun x : AttSt => SMap.get ({} : PadSlot) x.slots (core * 128 + n)) hatt :),
    (congrArg (fun x : AttSt => x.moves.filter (· ≠ m)) hatt :), Device.padCount_countsOne hcount fun _ => rfl,
    fun b hb hb' => (Device.canon_byte ..).trans ((hwrite.bytes b hb').trans (ht.bytes b hb))⟩
  refine (Device.load_of_range fun b hlo hhi => ?_).trans ht.load
  exact (Device.canon_byte ..).trans (hwrite.bytes b (by omega))
end

section
variable {s : State} {core n : Nat} {m : PadMove} (hs : s.dev.sound) (hmove : s.dev.moveOf core n false = some m) (hclean : s.dev.clean)
include hs hmove hclean

/-- The clause of O28 on an eviction whose entry stands. -/
theorem padEvictionAck_frees {c : Device} (h : s.dev.compares c core m) (hentry : s.dev.load m.entry 8 = m.value)
    (hcopy : s.dev.copyVa core (s.dev.slot core n).job m.va (s.dev.slotAddr core n)
      (if (s.dev.slot core n).wide then 2 * slotBytes else slotBytes) true = (c, 0)) (hstands : c.load m.entry 8 = m.value) :
    runs (.padEvictionAck core n) s fun d => d.load m.entry 8 = peWithState m.value pLP5X % 2 ^ 64 ∧ (d.slot core n).st = 0 ∧
      d.att.moves = s.dev.att.moves.filter (· ≠ m) ∧ d.countsOne s.dev core CLUSTER_PAD_MOVES_EVICTED ∧
      ∀ b, (b < m.entry ∨ m.entry + 8 ≤ b) → d.byte b = c.byte b := by
  have hread : s.dev.readData m.entry 8 = m.value := (Device.readData_clean (by decide) (hclean.noErrors _ _)).trans hentry
  obtain ⟨t, ht, hcas⟩ := h.stands hstands (peWithState m.value pLP5X)
  obtain ⟨r, hfree, hslot⟩ := t.freeSlot_eq core n
  have hatt := ht.att.trans h.att
  have hbody : padEvictionAckBody core n s.dev = ((t.withSlots r).padCount core CLUSTER_PAD_MOVES_EVICTED).moved m := by
    rw [padEvictionAckBody_eq hmove hread hcopy hcas, hfree]
    exact h.afterMove (congrArg AttSt.wants hatt :) (congrArg AttSt.cmds hatt :)
  have hcount : t.rd (core / 64) (CLUSTER_PAD_MOVES_EVICTED (core % 64 / 8)) = s.dev.rd (core / 64) (CLUSTER_PAD_MOVES_EVICTED (core % 64 / 8)) :=
    (ht.fields _ _ (moves_ofCluster core).2.uncounted).trans (Device.rd_of_padView h.view _ (moves_ofCluster core).2)
  exact runs_of_given hs rfl hbody (ht.requests.trans h.requests) ⟨(Device.load_of_bytes (fun b => Device.canon_byte ..) _ _).trans ht.load,
    congrArg PadSlot.st hslot, (congrArg (fun x : AttSt => x.moves.filter (· ≠ m)) hatt :),
    Device.padCount_countsOne (t := t.withSlots r) hcount fun _ => rfl, fun b hb => (Device.canon_byte ..).trans (ht.bytes b hb)⟩

/-- The clause of O28 on an eviction whose entry was edited meanwhile. -/
theorem padEvictionAck_retires (h : s.dev.compares s.dev core m) (hcore : core < 256) (hedited : s.dev.load m.entry 8 ≠ m.value) :
    runs (.padEvictionAck core n) s fun d =>
      d.slot core n = { s.dev.slot core n with st := 2, tag := peEpoch (s.dev.load m.entry 8) } ∧ keepsMem s.dev d ∧
      keepsFields s.dev d bridgeFields := by
  have hread : s.dev.readData m.entry 8 = s.dev.load m.entry 8 := Device.readData_clean (by decide) (hclean.noErrors _ _)
  obtain ⟨t, ht, hcas⟩ := h.edited hedited (peWithState m.value pLP5X)
  have hshown : t.readData m.entry 8 = s.dev.load m.entry 8 := by
    have htclean : t.clean := by
      rw [Device.clean, ht.pond]
      exact hclean
    exact (Device.readData_clean (by decide) (htclean.noErrors _ _)).trans (Device.load_of_bytes ht.bytes ..)
  obtain ⟨r, hset, hslot⟩ := t.setSlots_eq core n { s.dev.slot core n with st := 2, tag := peEpoch (s.dev.load m.entry 8) }
  have hbody : padEvictionAckBody core n s.dev = (t.withSlots r).moved m := by
    rw [← h.afterMove (t := t.withSlots r) (congrArg AttSt.wants ht.att :) (congrArg AttSt.cmds ht.att :), ← hset]
    simp only [padEvictionAckBody, hmove, hread, hedited, hcas, hshown, ne_eq, not_false_eq_true, if_true, Bool.false_eq_true]
  exact runs_of_given hs rfl hbody ht.requests ⟨hslot, fun b => (Device.canon_byte ..).trans (ht.bytes b), ht.kept (Nat.div_lt_of_lt_mul hcore)⟩
end

/-! ### The statement where the die and the core are the device's -/

/-- What O28 says of an edit. -/
def PadEditAt (s : State) (die k value : Nat) : Prop :=
  let a := s.dev.editAddr die k
  let old := s.dev.editOld die k
  let new := s.dev.editNew die k
  let e := s.dev.load a 8
  let pool := (s.dev.editCore die k a).2
  let h := s.dev.slotAddr pool (peSlot new)
  a + 8 ≤ 4 * pondDieBytes → (s.dev.readChk die mPad a 8).2.1 = stDONE →
  (peMoves e = true → runs (.padEdit die k value) s fun d =>
    d.rd die (CLUSTER_PAD_EDIT_CTL_RESULT k) = 2 ∧ d.att = s.dev.att ∧ keepsMem s.dev d ∧ keepsFields s.dev d (editFields die k)) ∧
  (peMoves e = false → e ≠ old → runs (.padEdit die k value) s fun d =>
    d.rd die (CLUSTER_PAD_EDIT_CTL_RESULT k) = 1 ∧ d.att = s.dev.att ∧ keepsMem s.dev d ∧ d.editOld die k = e ∧
    keepsFields s.dev d ((die, CLUSTER_PAD_EDIT_OLD_LO_VALUE k) :: (die, CLUSTER_PAD_EDIT_OLD_HI_VALUE k) :: editFields die k)) ∧
  (peMoves e = false → e = old → peNames new = false → (s.dev.att.slots.Pairwise fun x y => x.1 < y.1) →
    runs (.padEdit die k value) s fun d => d.rd die (CLUSTER_PAD_EDIT_CTL_RESULT k) = 0 ∧ d.load a 8 = new % 2 ^ 64 ∧
      (∀ c n, d.slot c n = let x := s.dev.slot c n
        if x.entry = a ∧ x.st = 1 ∧ peNames old = true then { x with st := 2, tag := peEpoch new } else x) ∧
      (∀ x, (x < a ∨ a + 8 ≤ x) → d.byte x = s.dev.byte x) ∧ keepsFields s.dev d (editFields die k)) ∧
  (peMoves e = false → e = old → peNames new = true → (a + 8 ≤ h ∨ h + 512 ≤ a) →
    runs (.padEdit die k value) s fun d => d.rd die (CLUSTER_PAD_EDIT_CTL_RESULT k) = 0 ∧ d.load a 8 = new % 2 ^ 64 ∧
      (d.slot pool (peSlot new)).st = 1 ∧ (d.slot pool (peSlot new)).entry = a ∧
      ∀ x, (x < a ∨ a + 8 ≤ x) → (x < h ∨ h + 512 ≤ x) → d.byte x = s.dev.byte x)

/-- What O28 says of the end of a move. -/
def PadMovesAt (s : State) (core n : Nat) (m : PadMove) : Prop :=
  let x := s.dev.slot core n
  let a := s.dev.slotAddr core n
  (let c := s.dev.copyVa core (s.dev.workJob m.work) m.va a (if x.wide then padCopyBytes 8 else padCopyBytes 3) false
   s.dev.moveOf core n true = some m → c.2 = 0 → c.1.pond.ecc = [] → c.1.accessStatus (core / 64) mPad m.entry 8 false = stDONE →
    c.1.routeUp (c.1.homeDie (c.1.region m.entry)) (core / 64) = true →
    (c.1.load m.entry 8 ≠ m.value → runs (.padCopyDone core n []) s fun d =>
      (d.slot core n).st = 0 ∧ d.att.moves = s.dev.att.moves.filter (· ≠ m) ∧ keepsMem c.1 d ∧ keepsFields c.1 d bridgeFields) ∧
    (c.1.load m.entry 8 = m.value → (m.entry + 8 ≤ a ∨ a + 512 ≤ m.entry) → runs (.padCopyDone core n []) s fun d =>
      d.load m.entry 8 = peWithState m.value pPOND % 2 ^ 64 ∧ d.slot core n = x ∧ d.att.moves = s.dev.att.moves.filter (· ≠ m) ∧
      d.countsOne s.dev core CLUSTER_PAD_MOVES_PROMOTED ∧
      ∀ b, (b < m.entry ∨ m.entry + 8 ≤ b) → (b < a ∨ a + 512 ≤ b) → d.byte b = c.1.byte b)) ∧
  (let c := s.dev.copyVa core x.job m.va a (if x.wide then 2 * slotBytes else slotBytes) true
   s.dev.moveOf core n false = some m → s.dev.load m.entry 8 = m.value → c.2 = 0 → s.dev.pond.ecc = [] → c.1.pond.ecc = [] →
    c.1.load m.entry 8 = m.value → c.1.accessStatus (core / 64) mPad m.entry 8 false = stDONE →
    c.1.routeUp (c.1.homeDie (c.1.region m.entry)) (core / 64) = true →
    runs (.padEvictionAck core n) s fun d =>
      d.load m.entry 8 = peWithState m.value pLP5X % 2 ^ 64 ∧ (d.slot core n).st = 0 ∧ d.att.moves = s.dev.att.moves.filter (· ≠ m) ∧
      d.countsOne s.dev core CLUSTER_PAD_MOVES_EVICTED ∧ ∀ b, (b < m.entry ∨ m.entry + 8 ≤ b) → d.byte b = c.1.byte b) ∧
  (s.dev.moveOf core n false = some m → s.dev.load m.entry 8 ≠ m.value → s.dev.pond.ecc = [] →
    s.dev.accessStatus (core / 64) mPad m.entry 8 false = stDONE → s.dev.routeUp (s.dev.homeDie (s.dev.region m.entry)) (core / 64) = true →
    runs (.padEvictionAck core n) s fun d =>
      d.slot core n = { x with st := 2, tag := peEpoch (s.dev.load m.entry 8) } ∧ keepsMem s.dev d ∧ keepsFields s.dev d bridgeFields)

theorem padsAndTheirTable_iff : Obligations.PadsAndTheirTable ↔
    (∀ (s : State) (die k value : Nat), s.dev.sound → value / 2 ^ 30 % 2 = 1 → s.dev.on die (CLUSTER_PAD_EDIT_CTL_BUSY k) = false →
      s.dev.pond.ecc = [] → s.dev.pond.link = [] → PadEditAt s die k value) ∧
    ∀ (s : State) (core n : Nat) (m : PadMove), s.dev.sound → s.dev.att.wants = [] → s.dev.att.cmds = [] → s.dev.pond.link = [] →
      PadMovesAt s core n m := Iff.rfl

/-- Of an edit from a die of the device it holds. -/
theorem padEditAt_of_die {s : State} {die k value : Nat} (hdie : die < 4) (hs : s.dev.sound) (hstart : value / 2 ^ 30 % 2 = 1)
    (hidle : s.dev.on die (CLUSTER_PAD_EDIT_CTL_BUSY k) = false) (hecc : s.dev.pond.ecc = []) (hlink : s.dev.pond.link = []) :
    PadEditAt s die k value := by
  intro hpond hread
  have h : s.dev.edits die k value _ _ _ _ := ⟨hs, hstart, hidle, ⟨hecc, hlink⟩, rfl, rfl, rfl, rfl, hpond, hread⟩
  exact ⟨padEdit_moving h hdie, padEdit_differs h hdie, padEdit_unnamed h hdie, fun hm ho hn => padEdit_named h hm ho hn rfl rfl⟩

/-- Of a move of a core of the device it holds. -/
theorem padMovesAt_of_core {s : State} {core n : Nat} {m : PadMove} (hcore : core < 256) (hs : s.dev.sound) (hwants : s.dev.att.wants = [])
    (hcmds : s.dev.att.cmds = []) (hlink : s.dev.pond.link = []) : PadMovesAt s core n m := by
  have hview := fun job va pa len toVa => Device.padView_copyVa hlink core job va pa len toVa
  have hcompares : ∀ {c : Device}, c.padView = s.dev.padView → c.pond.ecc = [] → c.accessStatus (core / 64) mPad m.entry 8 false = stDONE →
      c.routeUp (c.homeDie (c.region m.entry)) (core / 64) = true → s.dev.compares c core m := fun hc hecc hst hroute =>
    ⟨hwants, hcmds, hc, ⟨hecc, Device.link_of_padView hc hlink⟩, hst, hroute⟩
  refine ⟨?_, ?_, ?_⟩
  · intro c hmove hok hecc hst hroute
    have h := hcompares (hview ..) hecc hst hroute
    exact ⟨padCopyDone_discards hs h hmove (Prod.ext rfl hok) hcore, fun hstands => padCopyDone_promotes hs h hmove (Prod.ext rfl hok) hstands rfl⟩
  · intro c hmove hentry hok hecc hecc' hstands hst hroute
    exact padEvictionAck_frees hs hmove ⟨hecc, hlink⟩ (hcompares (hview ..) hecc' hst hroute) hentry (Prod.ext rfl hok) hstands
  · intro hmove hedited hecc hst hroute
    exact padEvictionAck_retires hs hmove ⟨hecc, hlink⟩ (hcompares rfl hecc hst hroute) hcore hedited

/-! ### The refutation of O28 -/

/-- The entry at address 0 is PROMOTING, and the column bridges of die 0 and of a die 4 are up, which the device does not have. -/
def editBeyondDies : State :=
  { dev := { regs := [(DIE_CTL_BRIDGE_STATUS_COL_UP.key 0, 1), (DIE_CTL_BRIDGE_STATUS_COL_UP.key 4, 1)], mem := [(7, 0x80)] } }

/-- An edit of it from die 4 crosses that die's bridge, which counts the transfer (R434). `Instr.wellFormed` refuses such an edit; `exec` runs
it, and the statement does not exclude it. -/
theorem editBeyondDies_counted : ∃ t, exec (.padEdit 4 0 (2 ^ 30)) editBeyondDies = .next t ∧
    t.dev.rd 4 DIE_CTL_BRIDGE_AUDIT_COL_SENT ≠ editBeyondDies.dev.rd 4 DIE_CTL_BRIDGE_AUDIT_COL_SENT := ⟨_, rfl, by decide +kernel⟩

/-- Refutes O28: the statement leaves the die of an edit free, and `bridgeFields` names the counts of the dies 0 to 3 alone. An edit from die 4
reads the entry over that die's bridge, whose count moves though it is not among the fields that may. The
clauses hold for the dies and the cores that the device has (`padEditAt_of_die`, `padMovesAt_of_core`). -/
theorem not_padsAndTheirTable : ¬ Obligations.PadsAndTheirTable := by
  rintro ⟨hedit, -⟩
  obtain ⟨hmoving, -⟩ := hedit editBeyondDies 4 0 (2 ^ 30) ⟨by decide +kernel, rfl, rfl⟩ (by decide) (by decide +kernel) rfl rfl
    (by decide +kernel) (by decide +kernel)
  obtain ⟨u, hu, -, -, -, -, hkeep⟩ := hmoving (by decide +kernel)
  obtain ⟨t, ht, hne⟩ := editBeyondDies_counted
  obtain rfl : u = t := Host.Outcome.next.inj (hu.symm.trans ht)
  exact hne (hkeep 4 DIE_CTL_BRIDGE_AUDIT_COL_SENT (by decide))

end Sys2Proof.Machine
end

section

/-! THEOREMS of the family 07_recurrent_operators: a chunk's arrival at its start barrier, and the barrier that a failing core ends. -/

namespace Sys2Proof.Machine

/-! ### What a core's checks of a chunk leave (R171, R173) -/

/-- Memory, the requests, the chunks in flight and the counts of arrivals at the clusters' barriers. -/
def Device.barrierView (s : Device) : List Host.Cell × (List Req × RegulSt) × List Chunk × (Nat → Nat → Nat) :=
  (s.mem, s.requests, s.chunks, fun die k => s.rd die (CLUSTER_REC_AUDIT_ARRIVE (k % 8)))

/-- Fields of the map at other offsets than the counts of arrivals. -/
abbrev Fld.offAudit (f : Fld) : Prop := f.inMap ∧ f.off ≠ 0x224

theorem Fld.offAudit.elsewhere {f : Fld} (hf : f.offAudit) (k : Nat) : (CLUSTER_REC_AUDIT_ARRIVE (k % 8)).elsewhere f := by
  have hmap : ∀ k < 8, (CLUSTER_REC_AUDIT_ARRIVE k).inMap := by decide
  exact ⟨hmap _ (Nat.mod_lt _ (by decide)), hf.1, .inr (.inl hf.2.symm)⟩

theorem Device.barrierView_wr {f : Fld} (hf : f.offAudit) (s : Device) (d v : Nat) : (s.wr d f v).barrierView = s.barrierView := by
  have hrd : (fun die k => (s.wr d f v).rd die (CLUSTER_REC_AUDIT_ARRIVE (k % 8))) = fun die k => s.rd die (CLUSTER_REC_AUDIT_ARRIVE (k % 8)) :=
    funext fun _ => funext fun k => Device.rd_wr_elsewhere (hf.elsewhere k)
  simp only [Device.barrierView, hrd]
  rfl

theorem Device.barrierView_recCmdErr (s : Device) (core job reason word : Nat) :
    (s.recCmdErr core job reason word).barrierView = s.barrierView := by
  have hfields : ∀ k < 8, ∀ n < 8, ∀ f ∈ [CLUSTER_CMD_ERR_OVERFLOW k n, CLUSTER_CMD_ERR_VALID k n, CLUSTER_CMD_ERR_REASON k n,
    CLUSTER_CMD_ERR_WORD k n, CLUSTER_CMD_ERR_JOB k n], f.offAudit := by decide
  have hcore := hfields (core % 64 / 8) (by omega) (core % 8) (by omega)
  simp only [List.forall_mem_cons] at hcore
  obtain ⟨hoverflow, hvalid, hreason, hword, hjob, -⟩ := hcore
  unfold Device.recCmdErr
  dsimp only
  split
  · exact s.barrierView_wr hoverflow ..
  · rw [Device.barrierView_wr hjob, Device.barrierView_wr hword, Device.barrierView_wr hreason]
    exact s.barrierView_wr hvalid ..

theorem Device.barrierView_refuses (s : Device) (core : Nat) (i : Issue) (c : Check) : (s.refuses core i c).1.barrierView = s.barrierView :=
  s.barrierView_recCmdErr ..

theorem Device.barrierView_tlbTouch (s : Device) (t : Tlb) : (s.tlbTouch t).barrierView = s.barrierView := by
  unfold Device.tlbTouch
  split <;> rfl

/-- Job 0's translations are pinned, so that no walk reads the tables. -/
theorem Device.barrierView_translate (s : Device) (die unit va : Nat) (write : Bool) :
    (s.translate die unit 0 va write).1.barrierView = s.barrierView := by
  unfold Device.translate
  split
  · rfl
  · split
    · split <;> exact s.barrierView_tlbTouch _
    · rw [if_pos rfl]

theorem Device.barrierView_translateAll (s : Device) (die unit : Nat) (pages : List (Nat × Bool)) :
    (s.translateAll die unit 0 pages).1.barrierView = s.barrierView := by
  unfold Device.translateAll
  split
  · rfl
  · split
    · rfl
    · refine List.foldlRecOn (motive := fun x : Device × Option (XRes × Nat × Bool) => x.1.barrierView = s.barrierView) _ _ rfl
        fun x hx p _ => ?_
      have hpage := x.1.barrierView_translate die unit p.1 p.2
      split
      · exact hx
      · split <;> next heq => exact (heq ▸ hpage).trans hx

theorem Device.barrierView_terminalFault (s : Device) (core : Nat) (i : Issue) (r : XRes) (va : Nat) (write : Bool) :
    (s.terminalFault core i r va write).barrierView = s.barrierView := by
  unfold Device.terminalFault
  split <;> rfl

/-! ### A core's checks of a chunk (R171, R173) -/

section
variable {s : Device} {core : Nat} {i : Issue} {w : List Nat} (hcore : core < 256) (hecc : s.pond.ecc = [])
include hcore hecc

/-- The header lies in the core's own store. -/
theorem Device.headerRead_ownStore (off : Nat) : s.headerRead core off = (s, stDONE) := by
  unfold Device.headerRead
  split
  · next hoff =>
    have hread := Device.readChk_clean (by decide) (Device.noErrors_ownStore (o := ⟨1, off⟩) hcore hecc hoff.2)
      (s.accessStatus_ownStore hcore (by decide) hoff.2 false) (Device.homeDie_ownStore (o := ⟨1, off⟩) (n := 64) hcore (by decide) hoff.2)
    simp only [hread]
  · rfl

theorem Device.rcArrive_refuses {c : Check} (h : firstFail (s.rcChecks core w) = some c) : s.rcArrive core i w = s.refuses core i c := by
  simp [Device.rcArrive, Device.headerRead_ownStore hcore hecc, h]

section
variable (h : firstFail (s.rcChecks core w) = none)
include h

theorem Device.rcArrive_out (hres : shResident (s.stHeader core (rcOff w)) = false) : s.rcArrive core i w = (s, stSTATE_OUT, 0) := by
  simp [Device.rcArrive, Device.headerRead_ownStore hcore hecc, h, hres]

theorem Device.rcArrive_gen (hres : shResident (s.stHeader core (rcOff w)) = true) (hgen : shGen (s.stHeader core (rcOff w)) ≠ rcGen w) :
    s.rcArrive core i w = (s, stSTATE_GEN, 0) := by
  simp [Device.rcArrive, Device.headerRead_ownStore hcore hecc, h, hres, hgen]

variable (hres : shResident (s.stHeader core (rcOff w)) = true) (hgen : shGen (s.stHeader core (rcOff w)) = rcGen w)
include hres hgen

theorem Device.rcArrive_done {t : Device}
    (hpages : s.translateAll (core / 64) (core % 64) (s.workJob i.work) (s.rcPages core (s.workJob i.work) w) = (t, none)) :
    s.rcArrive core i w = (t, stDONE, 0) := by
  simp [Device.rcArrive, Device.headerRead_ownStore hcore hecc, h, hres, hgen, hpages]

theorem Device.rcArrive_fault {t : Device} {r : XRes} {va : Nat} {write : Bool}
    (hpages : s.translateAll (core / 64) (core % 64) (s.workJob i.work) (s.rcPages core (s.workJob i.work) w) = (t, some (r, va, write))) :
    s.rcArrive core i w = (t.terminalFault core i r va write, terminalStatus r, 0) := by
  simp [Device.rcArrive, Device.headerRead_ownStore hcore hecc, h, hres, hgen, hpages]

end

theorem Device.barrierView_rcArrive {sd idx : Nat} (hw : i.work = .slice sd idx) : (s.rcArrive core i w).1.barrierView = s.barrierView := by
  cases hcheck : firstFail (s.rcChecks core w) with
  | some c => rw [Device.rcArrive_refuses hcore hecc hcheck, Device.barrierView_refuses]
  | none =>
    cases hres : shResident (s.stHeader core (rcOff w)) with
    | false => rw [Device.rcArrive_out hcore hecc hcheck hres]
    | true =>
      by_cases hgen : shGen (s.stHeader core (rcOff w)) = rcGen w
      · have hview := s.barrierView_translateAll (core / 64) (core % 64) (s.rcPages core (s.workJob i.work) w)
        have hjob : s.workJob i.work = 0 := by rw [hw]; rfl
        rcases hpages : s.translateAll (core / 64) (core % 64) (s.workJob i.work) (s.rcPages core (s.workJob i.work) w) with
          ⟨t, _ | ⟨r, va, write⟩⟩
        · rw [Device.rcArrive_done hcore hecc hcheck hres hgen hpages]
          rwa [← hjob, hpages] at hview
        · rw [Device.rcArrive_fault hcore hecc hcheck hres hgen hpages, Device.barrierView_terminalFault]
          rwa [← hjob, hpages] at hview
      · rw [Device.rcArrive_gen hcore hecc hcheck hres hgen]

end

/-! ### A core arrives at the start barrier (R170, R173) -/

section
variable {i : Issue} {w : List Nat} {core sd idx : Nat} (hw : i.work = .slice sd idx)
include hw

theorem Device.barrierView_taken {s : Device} (hoff : s.offers i w [] core) : (s.taken i w).barrierView = s.barrierView := by
  rw [Device.taken_of_slice hoff hw]
  rfl

/-- A core of its group, with no chunk of it in flight, begins one. -/
theorem recurrentChunkBody_arrives {s : Device} (hecc : s.pond.ecc = []) (hoff : s.offers i w [] core)
    (hgroup : groupOk core (rcLog2 w) (rcBase w) = true) (hfree : s.chunkOf core = none) :
    coreCommand i w [] (recurrentChunkBody i w) s =
      (((s.taken i w).rcArrive core i w).1.recArrive core 1).setChunks
        (s.chunks ++ [{ head := core, issue := i, words := w, arrived := [(core, ((s.taken i w).rcArrive core i w).2)] }]) := by
  have hchunks : ((s.taken i w).rcArrive core i w).1.chunks = s.chunks := congrArg (·.2.2.1)
    ((Device.barrierView_rcArrive hoff.2.1 ((Device.taken_reportsOf hoff hw).pond ▸ hecc) hw).trans (Device.barrierView_taken hw hoff))
  have hnone : (((s.taken i w).rcArrive core i w).1.recArrive core 1).chunkOf core = none := by
    rw [← hfree, Device.chunkOf, Device.chunkOf, ← hchunks]
    rfl
  refine (coreCommand_offered hoff hw _).trans ?_
  rw [Device.onCores_one hoff]
  simp only [hgroup, not_true_eq_false, if_false, hnone]
  rw [← hchunks]
  rfl

/-- The first clause of O30, of a slice's command on a core of its group: it arrives, and the chunk that it begins names it as its head. -/
theorem recurrentChunk_arrives {s : State} (hs : s.dev.sound) (hecc : s.dev.pond.ecc = []) (hoff : s.dev.offers i w [] core)
    (hgroup : groupOk core (rcLog2 w) (rcBase w) = true) (hfree : s.dev.chunkOf core = none) :
    let s0 := s.dev.taken i w
    let h := s0.stHeader core (rcOff w)
    runs (.recurrentChunk i w) s fun d => keepsMem s.dev d ∧
      d.rd (core / 64) (CLUSTER_REC_AUDIT_ARRIVE (core % 64 / 8)) =
        (s.dev.rd (core / 64) (CLUSTER_REC_AUDIT_ARRIVE (core % 64 / 8)) + 1) % 2 ^ (CLUSTER_REC_AUDIT_ARRIVE 0).w ∧
      ∃ st reason, d.chunks = s.dev.chunks ++ [{ head := core, issue := i, words := w, arrived := [(core, st, reason)] }] ∧
        (firstFail (s0.rcChecks core w) = none → shResident h = false → st = stSTATE_OUT) ∧
        (firstFail (s0.rcChecks core w) = none → shResident h = true → shGen h ≠ rcGen w → st = stSTATE_GEN) ∧
        (firstFail (s0.rcChecks core w) = none → shResident h = true → shGen h = rcGen w →
          (s0.translateAll (core / 64) (core % 64) (s0.workJob i.work) (s0.rcPages core (s0.workJob i.work) w)).2 = none → st = stDONE) := by
  intro s0 h
  have hcore : core < 256 := hoff.2.1
  have hecc0 : s0.pond.ecc = [] := (Device.taken_reportsOf hoff hw).pond ▸ hecc
  have hview : (s0.rcArrive core i w).1.barrierView = s.dev.barrierView :=
    (Device.barrierView_rcArrive hcore hecc0 hw).trans (Device.barrierView_taken hw hoff)
  have hbody := recurrentChunkBody_arrives hw hecc hoff hgroup hfree
  rcases hx : s0.rcArrive core i w with ⟨t, st, reason⟩
  simp only [hx, s0] at hview hbody
  simp only [Device.barrierView, Device.requests, Prod.mk.injEq] at hview
  obtain ⟨hmem, ⟨hreqs, hregul⟩, -, harrive⟩ := hview
  have hidle : t.idleSince s.dev := ⟨hmem, hreqs, hregul⟩
  refine runs_of_idle hs rfl hbody hidle ⟨hidle.keepsMem, ?_, st, reason, rfl, fun hcheck hres => ?_, fun hcheck hres hgen => ?_,
    fun hcheck hres hgen hpages => ?_⟩
  · have hcount := congrFun (congrFun harrive (core / 64)) (core % 64 / 8)
    rw [Nat.mod_eq_of_lt (show core % 64 / 8 < 8 by omega)] at hcount
    rw [← hcount]
    exact Device.rd_wr_same ..
  · exact congrArg (·.2.1) (hx.symm.trans (Device.rcArrive_out hcore hecc0 hcheck hres))
  · exact congrArg (·.2.1) (hx.symm.trans (Device.rcArrive_gen hcore hecc0 hcheck hres hgen))
  · exact congrArg (·.2.1) (hx.symm.trans (Device.rcArrive_done hcore hecc0 hcheck hres hgen (Prod.ext rfl hpages)))

end

/-! ### The barrier that a failing core ends (R173) -/

@[simp] theorem Device.chunks_recRelease (s : Device) (core n : Nat) : (s.recRelease core n).chunks = s.chunks := rfl

/-- A group of one core whose checks failed ends its chunk with their status. -/
theorem startBarrierBody_failed {s : Device} {core st reason : Nat} {c : Chunk} (h : s.chunkOf core = some c) (hcores : c.cores = [core])
    (hrun : c.running = false) (harrived : c.arrived = [(core, st, reason)]) (hst : st ≠ stDONE) :
    startBarrierBody core s =
      (((s.recRelease core 1).setChunks (s.chunks.filter (· ≠ c))).staleEnd core st).cmdStatus core st reason := by
  simp [startBarrierBody, h, hcores, hrun, harrived, hst]

theorem Device.staleEnd_keeps {β : Type} {v : Device → β} (hv : ∀ (s : Device) (d : Nat) (f : Fld) (n : Nat), v (s.wr d f n) = v s)
    (s : Device) (core status : Nat) : v (s.staleEnd core status) = v s := by
  unfold Device.staleEnd
  split
  · exact hv ..
  · rfl

theorem Device.cmd_cmdStatus {s : Device} {core : Nat} {m : CoreCmd} (hm : s.cmd core = some m) (hst : m.status = stDONE) (status reason : Nat) :
    (s.cmdStatus core status reason).cmd core = some { m with status := status, reason := reason } := by
  simp only [Device.cmdStatus, hm, if_pos hst, Device.cmd_setCmd]

/-- The second clause of O30. -/
theorem startBarrier_failed {s : State} (hs : s.dev.sound) {core st reason : Nat} {c : Chunk} {m : CoreCmd} (h : s.dev.chunkOf core = some c)
    (hcores : c.cores = [core]) (hrun : c.running = false) (harrived : c.arrived = [(core, st, reason)]) (hm : s.dev.cmd core = some m)
    (hdone : m.status = stDONE) (hst : st ≠ stDONE) :
    runs (.startBarrier core) s fun d =>
      d.chunks = s.dev.chunks.filter (· ≠ c) ∧ d.cmd core = some { m with status := st, reason := reason } ∧ keepsMem s.dev d := by
  have hkeeps {β : Type} (v : Device → β) (hwr : ∀ (s : Device) (d : Nat) (f : Fld) (n : Nat), v (s.wr d f n) = v s) :=
    Device.staleEnd_keeps hwr ((s.dev.recRelease core 1).setChunks (s.dev.chunks.filter (· ≠ c))) core st
  have hview := ((((s.dev.recRelease core 1).setChunks (s.dev.chunks.filter (· ≠ c))).staleEnd core st).accessView_cmdStatus core st reason).trans
    (hkeeps Device.accessView Device.accessView_wr)
  have hidle := Device.idleSince.of_accessView (hview.trans (show _ = s.dev.accessView from rfl))
  refine runs_of_idle hs rfl (startBarrierBody_failed h hcores hrun harrived hst) hidle ⟨?_, ?_, hidle.keepsMem⟩
  · exact (Device.cmdStatus_keeps (fun _ _ _ => rfl) ..).trans (hkeeps Device.chunks fun _ _ _ _ => rfl)
  · exact Device.cmd_cmdStatus ((hkeeps (·.cmd core) fun _ _ _ _ => rfl).trans hm) hdone st reason

/-! ### The refutation of O30 -/

/-- A chunk command for the group of core 1 alone (R166, R170). -/
def strayChunk : List Nat := [0x13000000, 2 ^ 11, 0, 0, 2 ^ 30, 0, 0, 2 ^ 30, 0, 0, 0, 0, 0, 0, 0, 0]

/-- Its issue to core 0. -/
def strayIssue : Issue := ⟨.slice 0 0, 0, [0]⟩

/-- A sequence slice of core 0 has started and stands before the command. -/
def strayCore : State := { dev := { chorus := { slices := [{ die := 0, idx := 0, kind := 0, tick := 0, units := [0], started := true }] } } }

theorem strayCore_offers : strayCore.dev.offers strayIssue strayChunk [] 0 :=
  ⟨rfl, by decide, by decide +kernel, by decide +kernel, by decide +kernel, nofun, by decide +kernel⟩

/-- The core is refused at once: no chunk is in flight on it. -/
theorem strayCore_noChunk : ∃ t, exec (.recurrentChunk strayIssue strayChunk) strayCore = .next t ∧ t.dev.chunks = [] :=
  ⟨_, rfl, by decide +kernel⟩

/-- Refutes O30: its first clause leaves the command's group free. A core that is not among the cores of the group (R166) is refused at once,
arrives at no barrier, and no chunk is kept. Of a slice's command on a core of its group the clause holds once the chunk's head is that core,
where the statement has core 0 (`recurrentChunk_arrives`); the second holds as it stands (`startBarrier_failed`). -/
theorem not_chunksAndSwaps : ¬ Obligations.ChunksAndSwaps := by
  rintro ⟨hchunk, -⟩
  obtain ⟨harrive, -⟩ := hchunk strayCore 0 ⟨by decide +kernel, rfl, rfl⟩ rfl (by decide)
  obtain ⟨u, hu, -, -, -, st, reason, hchunks, -⟩ := harrive strayIssue strayChunk strayCore_offers (by decide) rfl
  obtain ⟨t, ht, hnone⟩ := strayCore_noChunk
  obtain rfl : u = t := Host.Outcome.next.inj (hu.symm.trans ht)
  rw [hnone] at hchunks
  exact nomatch hchunks

end Sys2Proof.Machine
end

section

/-! THEOREMS of the family 08_model_placement: collectives of one core, what the other members send, segments and resolves. -/

namespace Sys2Proof.Machine

/-- The device with another state of its collectives, or of its attention commands. -/
def Device.withColl (s : Device) (x : CollSt) : Device := { s with coll := x }
def Device.withAtt (s : Device) (x : AttSt) : Device := { s with att := x }

theorem Device.idleSince.withColl {d s : Device} (h : d.idleSince s) (x : CollSt) : (d.withColl x).idleSince s := ⟨h.1, h.2.1, h.2.2⟩

/-! ### What a command of a slice takes, reads and reports -/

theorem Device.taken_idle {s : Device} {i : Issue} {w : List Nat} {core sd idx : Nat} (h : s.offers i w [] core) (hw : i.work = .slice sd idx) :
    (s.taken i w).idleSince s := by
  rw [Device.taken_of_slice h hw]
  exact ⟨rfl, rfl, rfl⟩

theorem Device.coll_taken {s : Device} {i : Issue} {w : List Nat} {core sd idx : Nat} (h : s.offers i w [] core) (hw : i.work = .slice sd idx) :
    (s.taken i w).coll = s.coll := by
  rw [Device.taken_of_slice h hw]
  rfl

theorem Device.coll_numFlags (s : Device) (core : Nat) (x : Conv) : (s.numFlags core x).coll = s.coll := by
  have hsticky : ∀ (t : Device) (flags : Nat), (t.setSticky core flags).coll = t.coll := fun t flags =>
    foldl_keeps Device.coll _ (fun u f => by split <;> rfl) _ t
  have hcount : ∀ (t : Device) (n : Nat), (t.addReplaced core n).coll = t.coll := fun _ _ => rfl
  rw [Device.numFlags, hcount, hsticky]
  split <;> rfl

theorem Device.segs_congr {s t : Device} (h : t.coll = s.coll) (die : Nat) : t.segs die = s.segs die := by rw [Device.segs, h, Device.segs]

theorem Issue.head_of_offers {s : Device} {i : Issue} {w : List Nat} {core : Nat} (h : s.offers i w [] core) : i.cores.headD 0 = core := by
  rw [h.1]; rfl

/-- No page is opened where none is named. -/
theorem Device.openPages_nil (s : Device) (core : Nat) (i : Issue) : s.openPages core i [] = (s, true) := by
  unfold Device.openPages Device.translateAll
  by_cases hon : s.on 0 XLATE_CTL_EN = true <;> simp [hon]

/-- An element of a load is a load of its own. -/
theorem elemAt_load (s : Device) (a m : Nat) {n k : Nat} (h : m * (k + 1) ≤ n) : elemAt (s.load a n) (8 * m) k = s.load (a + m * k) m := by
  have hbytes : ∀ j, 2 ^ (8 * j) = 256 ^ j := fun j => by rw [Nat.pow_mul]
  have hin : m * k + m ≤ n := h
  rw [elemAt, bits, Nat.mul_assoc, hbytes, hbytes, Device.load_within _ _ _ _ _ hin]

theorem wd_map (f : Nat → Nat) {l : List Nat} {k : Nat} (hk : k < l.length) : wd (l.map f) k = f (wd l k) := by simp [wd, hk]

theorem wd_map_range (f : Nat → Nat) {n k : Nat} (hk : k < n) : wd ((List.range n).map f) k = f k := by simp [wd, hk]

/-! ### What is held at issue (R189) -/

theorem Device.retryHeld_of_nil {s : Device} (h : s.coll.held = []) (scope : Nat) : s.retryHeld scope = s := by
  rw [Device.retryHeld, h]; rfl

theorem Coll.is_self (c : Coll) : c.is c.scope c.seq = true := by simp [Coll.is]

/-- The one collective that is open is replaced. -/
theorem Device.setColl_one {s : Device} {c x : Coll} (h : s.coll.active = [c]) (hscope : x.scope = c.scope) (hseq : x.seq = c.seq) :
    s.setColl x = s.setActive [x] := by
  simp [Device.setColl, h, hscope, hseq, c.is_self]

/-! ### Contributions of other members (R189, R193) -/

@[simp] theorem Device.rd_returnCredit (s : Device) (die vc cls d : Nat) (f : Fld) : (s.returnCredit die vc cls).rd d f = s.rd d f :=
  Device.rd_emit ..

/-- What a command concludes whose body takes a flit, returns its credit and leaves memory and the requests alone. -/
theorem runs_of_arrival {c : Instr} {s : State} {f : Device → Device} {t : Device} {die vc cls : Nat} {P : Device → Prop} (hs : s.dev.sound)
    (hx : exec c s = s.upd f) (hf : f s.dev = t.returnCredit die vc cls) (ht : t.idleSince s.dev)
    (hP : keepsMem s.dev (t.returnCredit die vc cls) → P (t.returnCredit die vc cls)) : runs c s P :=
  have hidle := (Device.returnCredit_idle t die vc cls).trans ht
  runs_of_idle hs hx hf hidle (hP hidle.keepsMem)

theorem Device.idleSince.addHold {d s : Device} (h : d.idleSince s) (die : Nat) (f : Fld) (n : Nat) : (d.addHold die f n).idleSince s :=
  h.wr die f _

/-- What arrives, as the collective's members keep it. -/
def contributionOf (a : Arrival) : Contribution :=
  { group := a.group, seq := a.seq, dev := a.dev, kind := a.kind, units := a.units, rows := a.rows, data := a.data }

theorem Device.receiveWords_one {words : List Nat} (h : words.length ≤ 60) (s : Device) (die kind : Nat) (hd : FlitHead) (head : List Nat)
    (perform : Device → Device) : ∃ payload, s.receiveWords die kind hd head words perform = s.receive die kind hd payload perform := by
  have hone : (if words.isEmpty then [[]] else flitChunks words).length = 1 := by
    cases words with
    | nil => rfl
    | cons x l =>
      have hlen : (l.length + 1 + 59) / 60 = 1 := by rw [List.length_cons] at h; omega
      simp [flitChunks, hlen]
  refine ⟨head ++ (if words.isEmpty then [[]] else flitChunks words).getLastD [], ?_⟩
  rw [Device.receiveWords]
  simp only [hone]
  rfl

/-- A contribution of one flit is performed once its port has taken the flit, and its buffer's credit goes back. -/
theorem contributionArriveBody_comes {s : Device} {h : FlitHead} {a : Arrival} (hc : s.flitComes a.die h)
    (hlen : (a.data.flatMap fun x => x.1 :: x.2).length ≤ 60) :
    contributionArriveBody h a s = (contributionBody a (s.took a.die 9 h)).returnCredit a.die ((flitVc 9).getD 0) h.cls := by
  obtain ⟨payload, hone⟩ := s.receiveWords_one hlen a.die 9 h [a.group, a.seq, a.kind, a.units, a.rows] (contributionBody a)
  rw [contributionArriveBody, hone, Device.receive_comes hc, if_neg (by decide)]

/-- A collective with one more contribution. -/
def Coll.joined (c : Coll) (x : Contribution) : Coll := { c with remote := c.remote ++ [x] }

/-- A collective that some of its own cores have not issued yet waits. -/
theorem Device.collFinish_waits {c : Coll} (h : c.full = false) (s : Device) : s.collFinish c = s := by
  simp [Device.collFinish, Coll.complete, h]

/-- It takes a contribution of its shape. -/
theorem contributionBody_joins {s : Device} {a : Arrival} {c : Coll} (hactive : s.coll.active = [c]) (hc : c.is a.group a.seq = true)
    (hattn : c.attn = none) (hdead : c.dead = none) (hheld : s.coll.held = []) (hshape : [a.kind, a.units, a.rows] = clShape c.words)
    (hfull : c.full = false) : contributionBody a s = s.setActive [c.joined (contributionOf a)] := by
  have hfind : (s.coll.active.find? fun c => c.is a.group a.seq && c.attn.isNone && c.dead.isNone) = some c := by
    simp [hactive, hc, hattn, hdead]
  have hbody : contributionBody a s =
      ((s.setColl (c.joined (contributionOf a))).collFinish (c.joined (contributionOf a))).retryHeld c.scope := by
    rw [contributionBody]
    simp only [hfind]
    exact if_neg (not_not.2 hshape)
  rw [hbody, Device.setColl_one (x := c.joined (contributionOf a)) hactive rfl rfl,
    Device.collFinish_waits (c := c.joined (contributionOf a)) hfull]
  exact Device.retryHeld_of_nil (s := s.setActive [c.joined (contributionOf a)]) hheld _

theorem contributionBody_stray {s : Device} {a : Arrival} (hactive : s.coll.active = []) :
    contributionBody a s = s.strayContribution a.die (contributionOf a) := by
  simp [contributionBody, hactive, contributionOf]

theorem Device.strayContribution_kept {s : Device} {x : Contribution} (hahead : s.collAhead x.group x.seq = true)
    (hnotice : s.takeNotice x.group x.seq = none) (die : Nat) :
    s.strayContribution die x = s.withColl { s.coll with early := s.coll.early ++ [x] } := by
  simp [Device.strayContribution, hahead, hnotice, Device.withColl]

theorem Device.strayContribution_late {s : Device} {x : Contribution} (hahead : s.collAhead x.group x.seq = false) (die : Nat) :
    s.strayContribution die x = s.addHold die DISPATCH_COLL_STATUS_LATE 1 := by
  simp [Device.strayContribution, hahead]

section
variable {s : State} {h : FlitHead} {a : Arrival} (hs : s.dev.sound) (hc : s.dev.flitComes a.die h)
  (hlen : (a.data.flatMap fun x => x.1 :: x.2).length ≤ 60)
include hs hc hlen

theorem contribution_joins {c : Coll} (hactive : s.dev.coll.active = [c]) (hcis : c.is a.group a.seq = true) (hattn : c.attn = none)
    (hdead : c.dead = none) (hheld : s.dev.coll.held = []) (hshape : [a.kind, a.units, a.rows] = clShape c.words) (hfull : c.full = false) :
    runs (.collectiveContribution h a) s fun d =>
      d.coll.active = [{ c with remote := c.remote ++ [contributionOf a] }] ∧ (d.olPort a.die).seqIn = h.seq ∧ keepsMem s.dev d := by
  have hbody := contributionArriveBody_comes hc hlen
  rw [contributionBody_joins (s := s.dev.took a.die 9 h) hactive hcis hattn hdead hheld hshape hfull] at hbody
  have hport : ((s.dev.took a.die 9 h).olPort a.die).seqIn = h.seq := by rw [Device.olPort_took]; rfl
  exact runs_of_arrival hs rfl hbody ((s.dev.took_idle a.die 9 h).withColl _) fun hmem => ⟨rfl, hport, hmem⟩

theorem contribution_kept (hactive : s.dev.coll.active = []) (hahead : s.dev.collAhead a.group a.seq = true)
    (hnotice : s.dev.takeNotice a.group a.seq = none) :
    runs (.collectiveContribution h a) s fun d =>
      d.coll = { s.dev.coll with early := s.dev.coll.early ++ [contributionOf a] } ∧ keepsMem s.dev d := by
  have hbody := contributionArriveBody_comes hc hlen
  rw [contributionBody_stray (s := s.dev.took a.die 9 h) hactive,
    Device.strayContribution_kept (s := s.dev.took a.die 9 h) (x := contributionOf a) hahead hnotice] at hbody
  exact runs_of_arrival hs rfl hbody ((s.dev.took_idle a.die 9 h).withColl _) fun hmem => ⟨rfl, hmem⟩

theorem contribution_late (hactive : s.dev.coll.active = []) (hahead : s.dev.collAhead a.group a.seq = false) :
    runs (.collectiveContribution h a) s fun d =>
      d.rd a.die DISPATCH_COLL_STATUS_LATE = min (s.dev.rd a.die DISPATCH_COLL_STATUS_LATE + 1) (2 ^ DISPATCH_COLL_STATUS_LATE.w - 1) ∧
      d.coll = s.dev.coll ∧ keepsMem s.dev d := by
  have hbody := contributionArriveBody_comes hc hlen
  rw [contributionBody_stray (s := s.dev.took a.die 9 h) hactive,
    Device.strayContribution_late (s := s.dev.took a.die 9 h) (x := contributionOf a) hahead] at hbody
  refine runs_of_arrival hs rfl hbody ((s.dev.took_idle a.die 9 h).addHold ..) fun hmem => ⟨?_, rfl, hmem⟩
  rw [Device.rd_returnCredit, Device.rd_addHold_same, Device.rd_took (by decide)]

end

/-! ### Notices (R192) -/

theorem abandonNoticeBody_kept {s : Device} {group seq : Nat} (hactive : s.coll.active = []) (hahead : s.collAhead group seq = true)
    (die status : Nat) : abandonNoticeBody die group seq status s =
      s.withColl { s.coll with notices := s.coll.notices ++ [(group, seq, status)] } := by
  rw [abandonNoticeBody, hactive]
  exact if_pos hahead

theorem abandonNoticeBody_counted {s : Device} {group seq : Nat} (hactive : s.coll.active = []) (hahead : s.collAhead group seq = false)
    (hgone : s.coll.gone.contains (group, seq) = false) (die status : Nat) :
    abandonNoticeBody die group seq status s = s.addHold die DISPATCH_COLL_STATUS_DONE_ABANDONED 1 := by
  rw [abandonNoticeBody, hactive]
  exact (if_neg (ne_true_of_eq_false hahead)).trans (if_neg (ne_true_of_eq_false hgone))

section
variable {s : State} {h : FlitHead} {die group seq : Nat} (hs : s.dev.sound) (hc : s.dev.flitComes die h) (hactive : s.dev.coll.active = [])
include hc

theorem noticeArriveBody_comes (status : Nat) : noticeArriveBody die h group seq status s.dev =
    (abandonNoticeBody die group seq status (s.dev.took die 10 h)).returnCredit die ((flitVc 10).getD 0) h.cls :=
  (Device.receive_comes hc ..).trans (if_neg (by decide))

include hs hactive

theorem notice_kept (hahead : s.dev.collAhead group seq = true) (status : Nat) :
    runs (.abandonNotice die h group seq status) s fun d =>
      d.coll = { s.dev.coll with notices := s.dev.coll.notices ++ [(group, seq, status)] } ∧ keepsMem s.dev d := by
  have hbody := noticeArriveBody_comes (group := group) (seq := seq) hc status
  rw [abandonNoticeBody_kept (s := s.dev.took die 10 h) hactive hahead] at hbody
  exact runs_of_arrival hs rfl hbody ((s.dev.took_idle die 10 h).withColl _) fun hmem => ⟨rfl, hmem⟩

theorem notice_counted (hahead : s.dev.collAhead group seq = false) (hgone : s.dev.coll.gone.contains (group, seq) = false) (status : Nat) :
    runs (.abandonNotice die h group seq status) s fun d =>
      d.rd die DISPATCH_COLL_STATUS_DONE_ABANDONED =
        min (s.dev.rd die DISPATCH_COLL_STATUS_DONE_ABANDONED + 1) (2 ^ DISPATCH_COLL_STATUS_DONE_ABANDONED.w - 1) ∧ d.coll = s.dev.coll := by
  have hbody := noticeArriveBody_comes (group := group) (seq := seq) hc status
  rw [abandonNoticeBody_counted (s := s.dev.took die 10 h) hactive hahead hgone] at hbody
  refine runs_of_arrival hs rfl hbody ((s.dev.took_idle die 10 h).addHold ..) fun _ => ⟨?_, rfl⟩
  rw [Device.rd_returnCredit, Device.rd_addHold_same, Device.rd_took (by decide)]

end

/-! ### The deadline (R191) -/

theorem Coll.dies_one {c : Coll} {p : CollPart} (h : c.parts = [p]) : c.dies = [p.core / 64] := by rw [Coll.dies, h]; rfl

/-- The one collective that is open closes, and its core's die counts it. -/
theorem Device.closeColl_one {s : Device} {c : Coll} {p : CollPart} (hactive : s.coll.active = [c]) (hparts : c.parts = [p]) :
    s.closeColl c = (s.setActive []).addWrap (p.core / 64) DISPATCH_COLL_AUDIT_CLOSED 1 := by
  have hnone : (s.coll.active.filter fun x => !x.is c.scope c.seq) = [] := by simp [hactive, c.is_self]
  rw [Device.closeColl, hnone, Coll.dies_one hparts]
  rfl

/-- A command that runs takes the status it is given. -/
theorem Device.cmdStatus_running {s : Device} {core : Nat} {m : CoreCmd} (hm : s.cmd core = some m) (hst : m.status = stDONE) (status reason : Nat) :
    s.cmdStatus core status reason = s.setCmd core (some { m with status := status, reason := reason }) := by
  rw [Device.cmdStatus, hm]
  exact if_pos hst

/-- The device once the one open collective has come to its deadline and closed. -/
def Device.closedLate (s : Device) (die : Nat) : Device :=
  ((s.set die DISPATCH_COLL_STATUS_TIMED_OUT).setActive []).addWrap die DISPATCH_COLL_AUDIT_CLOSED 1

/-- The device once the core's command has ended with it. -/
def Device.timedOut (s : Device) (c : Coll) (core : Nat) (m : CoreCmd) : Device :=
  ((s.closedLate (core / 64)).setCmd core (some { m with status := stCOLL_TIMEOUT, reason := 0 })).withColl
    { s.coll with active := [], gone := s.coll.gone ++ [(c.scope, c.seq)] }

section
variable {s : Device} {c : Coll} {p : CollPart} {m : CoreCmd} {g : Nat} (hactive : s.coll.active = [c]) (hparts : c.parts = [p])
  (hmembers : c.members = []) (hring : p.issue.work = .ring g) (hcmd : s.cmd p.core = some m) (hst : m.status = stDONE)
include hactive hparts hmembers hring hcmd hst

/-- A collective of one core of a ring, without other members, ends its core's command at its deadline. -/
theorem Device.abandonColl_one : s.abandonColl c stCOLL_TIMEOUT true = s.timedOut c p.core m := by
  have hclose : (s.set (p.core / 64) DISPATCH_COLL_STATUS_TIMED_OUT).closeColl c = s.closedLate (p.core / 64) :=
    Device.closeColl_one hactive hparts
  have hend := Device.cmdStatus_running (s := s.closedLate (p.core / 64)) hcmd hst stCOLL_TIMEOUT 0
  rw [Device.abandonColl, Coll.dies_one hparts, hparts, hmembers]
  simp only [List.foldl_cons, List.foldl_nil, if_true, hclose, hring, Device.endByColl, hend]
  rfl

/-- It leaves nothing open, and no rows of an attention command. -/
theorem collTimeoutBody_ends (hattn : c.attn = none) (hdead : c.dead = none) (hfull : c.full = true) (hheld : s.coll.held = [])
    (hatt : s.att.cmds = []) (hpast : p.tick + s.collTimeout ≤ s.chorus.tickNo) :
    collTimeoutBody c.scope c.seq s = (s.timedOut c p.core m).withAtt { s.att with cmds := [] } := by
  have hfind : (s.coll.active.find? fun x => x.is c.scope c.seq && x.dead.isNone) = some c := by simp [hactive, c.is_self, hdead]
  have hany : (c.parts.any fun p => decide (p.tick + s.collTimeout ≤ s.chorus.tickNo)) = true := by simp [hparts, hpast]
  have hends : s.collEnds c stCOLL_TIMEOUT true =
      ((s.timedOut c p.core m).withAtt { s.att with cmds := s.att.cmds.filter fun a => !(a.rows.all fun r => r.stage = .ended) }).retryHeld
        c.scope := by
    simp only [Device.collEnds, hattn, Option.isNone_none, if_true, Device.markDead, hfull,
      Device.abandonColl_one hactive hparts hmembers hring hcmd hst]
    rfl
  have hcoll : ∀ x, ((s.timedOut c p.core m).withAtt x).coll.held = [] := fun _ => hheld
  rw [collTimeoutBody]
  simp only [hfind, hany, if_true]
  rw [hends, Device.retryHeld_of_nil (hcoll _), hatt]
  rfl

end

/-- The clause of O31 on the deadline. -/
theorem collective_timesOut {s : State} (hs : s.dev.sound) {c : Coll} {p : CollPart} {m : CoreCmd} {g : Nat}
    (hactive : s.dev.coll.active = [c]) (hparts : c.parts = [p]) (hmembers : c.members = []) (hattn : c.attn = none) (hdead : c.dead = none)
    (hfull : c.full = true) (hheld : s.dev.coll.held = []) (hatt : s.dev.att.cmds = []) (hring : p.issue.work = .ring g)
    (hcmd : s.dev.cmd p.core = some m) (hst : m.status = stDONE) (hpast : p.tick + s.dev.collTimeout ≤ s.dev.chorus.tickNo) :
    runs (.collectiveTimeout c.scope c.seq) s fun d =>
      d.coll.active = [] ∧ d.on (p.core / 64) DISPATCH_COLL_STATUS_TIMED_OUT = true ∧
      d.cmd p.core = some { m with status := stCOLL_TIMEOUT, reason := 0 } ∧ d.coll.gone = s.dev.coll.gone ++ [(c.scope, c.seq)] ∧
      keepsMem s.dev d := by
  have hbody := collTimeoutBody_ends hactive hparts hmembers hring hcmd hst hattn hdead hfull hheld hatt hpast
  have hon : (s.dev.closedLate (p.core / 64)).on (p.core / 64) DISPATCH_COLL_STATUS_TIMED_OUT = true :=
    (Device.on_wr_apart (f := DISPATCH_COLL_AUDIT_CLOSED) (by decide)).trans
      (Device.on_wr_same s.dev (p.core / 64) DISPATCH_COLL_STATUS_TIMED_OUT 1)
  have hidle : ((s.dev.timedOut c p.core m).withAtt { s.dev.att with cmds := [] }).idleSince s.dev := ⟨rfl, rfl, rfl⟩
  exact runs_of_idle hs rfl hbody hidle ⟨rfl, hon, Device.cmd_setCmd .., rfl, hidle.keepsMem⟩

/-! ### Trees of one vector (R155, R188) -/

theorem vecUp_singleton (a : Option (List Nat)) : vecUp [a] = [a] := by cases a <;> simp [vecUp]
theorem vecUp_none_left (b : Option (List Nat)) (r : List (Option (List Nat))) : vecUp (none :: b :: r) = b :: vecUp r := by
  cases b <;> simp [vecUp]
theorem vecUp_none_right (a : Option (List Nat)) (r : List (Option (List Nat))) : vecUp (a :: none :: r) = a :: vecUp r := by
  cases a <;> simp [vecUp]

theorem length_vecUp : ∀ l : List (Option (List Nat)), (vecUp l).length = (l.length + 1) / 2
  | [] => rfl
  | [a] => by simp [vecUp_singleton]
  | some a :: some b :: r => by simp only [vecUp, List.length_cons, length_vecUp r]; omega
  | some a :: none :: r => by simp only [vecUp_none_right, List.length_cons, length_vecUp r]; omega
  | none :: b :: r => by simp only [vecUp_none_left, List.length_cons, length_vecUp r]; omega

theorem reduceOption_vecUp_nil : ∀ {l : List (Option (List Nat))}, l.reduceOption = [] → (vecUp l).reduceOption = []
  | [], _ => rfl
  | [a], h => by rwa [vecUp_singleton]
  | some _ :: _ :: _, h => by simp at h
  | none :: some _ :: _, h => by simp at h
  | none :: none :: r, h => by
    rw [vecUp_none_left, List.reduceOption_cons_of_none, reduceOption_vecUp_nil (by simpa using h)]

/-- A level of the tree passes the one vector that is there up unchanged. -/
theorem reduceOption_vecUp_one {v : List Nat} : ∀ {l : List (Option (List Nat))}, l.reduceOption = [v] → (vecUp l).reduceOption = [v]
  | [], h => h
  | [a], h => by rwa [vecUp_singleton]
  | some a :: some b :: r, h => by simp at h
  | some a :: none :: r, h => by
    simp only [List.reduceOption_cons_of_some, List.reduceOption_cons_of_none, List.cons.injEq] at h
    rw [vecUp_none_right, List.reduceOption_cons_of_some, reduceOption_vecUp_nil h.2, h.1]
  | none :: some b :: r, h => by
    simp only [List.reduceOption_cons_of_some, List.reduceOption_cons_of_none, List.cons.injEq] at h
    rw [vecUp_none_left, List.reduceOption_cons_of_some, reduceOption_vecUp_nil h.2, h.1]
  | none :: none :: r, h => by
    rw [vecUp_none_left, List.reduceOption_cons_of_none, reduceOption_vecUp_one (by simpa using h)]

/-- A tree of one vector gives it. -/
theorem vecTree_one {v : List Nat} (n : Nat) {l : List (Option (List Nat))} (hlen : l.length ≤ 2 ^ n) (h : l.reduceOption = [v]) :
    vecTree n l = v := by
  have hshort : ∀ {l : List (Option (List Nat))}, l.length ≤ 1 → l.reduceOption = [v] → (l.headD none).getD [] = v := fun {l} hl h => by
    match l, hl, h with
    | [], _, h => simp at h
    | [none], _, h => simp at h
    | [some a], _, h => simpa using h
  induction n generalizing l with
  | zero => exact hshort hlen h
  | succ n ih =>
    rw [vecTree]
    split
    · next hl => exact hshort hl h
    · exact ih (by rw [length_vecUp]; rw [Nat.pow_succ] at hlen; omega) (reduceOption_vecUp_one h)

theorem filterMap_range_one {α : Type} (v : α) (core n : Nat) :
    ((List.range n).filterMap fun k => if k = core then some v else none) = if core < n then [v] else [] := by
  induction n with
  | zero => rfl
  | succ n ih =>
    rw [List.range_succ, List.filterMap_append, ih]
    by_cases h : n = core
    · simp [h]
    · by_cases hlt : core < n
      · simp [h, hlt, Nat.lt_succ_of_lt hlt]
      · simp [h, hlt, show ¬ core < n + 1 by omega]

theorem packageTree_one {core : Nat} (hcore : core < 256) (v : List Nat) : packageTree [(core, v)] = v := by
  refine vecTree_one 8 (by simp) ?_
  have hpick : ∀ k, (([(core, v)].find? fun p => p.1 = k).map (·.2)) = if k = core then some v else none := fun k => by
    by_cases h : k = core
    · simp [h]
    · simp [h, Ne.symm h]
  simp only [hpick, List.reduceOption, List.filterMap_map]
  exact (filterMap_range_one v core 256).trans (if_pos hcore)

theorem vecTree_memberOrder_one (own : Nat) (v : List Nat) : vecTree 5 (memberOrder own v []) = v := by
  simp [memberOrder, vecTree]

/-! ### Words put together (R122) -/

theorem packBits_lt (w : Nat) : ∀ l : List Nat, packBits w l < 2 ^ (w * l.length)
  | [] => Nat.one_pos
  | x :: l => by
    have hx := Nat.mod_lt x (Nat.two_pow_pos w)
    have hl := packBits_lt w l
    rw [packBits, List.length_cons, Nat.mul_succ, Nat.add_comm (w * l.length), Nat.pow_add]
    calc x % 2 ^ w + 2 ^ w * packBits w l < 2 ^ w * (packBits w l + 1) := by rw [Nat.mul_succ]; omega
      _ ≤ 2 ^ w * 2 ^ (w * l.length) := Nat.mul_le_mul_left _ hl

theorem elemAt_packBits (w : Nat) : ∀ (l : List Nat) (k : Nat), elemAt (packBits w l) w k = wd l k % 2 ^ w
  | [], k => by simp [elemAt, bits, packBits, wd]
  | x :: l, 0 => by simp [elemAt, bits, packBits, wd]
  | x :: l, k + 1 => by
    have hx := Nat.mod_lt x (Nat.two_pow_pos w)
    have ih := elemAt_packBits w l k
    rw [elemAt, bits] at ih ⊢
    rw [packBits, Nat.mul_succ, Nat.add_comm (w * k), Nat.pow_add, ← Nat.div_div_eq_div_mul, Nat.add_mul_div_left _ _ (Nat.two_pow_pos w),
      Nat.div_eq_of_lt hx, Nat.zero_add, ih]
    rfl

/-- A word of what is stored of a row of them. -/
theorem Device.load_words (s : Device) (a : Nat) (l : List Nat) {k : Nat} (hk : k < l.length) :
    (s.store a (packBits 32 l) (4 * l.length)).load (a + 4 * k) 4 = wd l k % 2 ^ 32 := by
  have hlt : packBits 32 l < 256 ^ (4 * l.length) := by
    have h := packBits_lt 32 l
    rwa [show 32 * l.length = 8 * (4 * l.length) by ring, Nat.pow_mul] at h
  rw [← elemAt_load (n := 4 * l.length) _ _ 4 (by omega), Device.load_store, Nat.mod_eq_of_lt hlt]
  exact elemAt_packBits 32 l k

/-! ### A collective of one core (R186, R189) -/

/-- The device once a collective of no other member has opened and closed on a die. -/
def Device.collPassed (s : Device) (die scope : Nat) : Device :=
  ((s.withColl { s.coll with seq := SMap.put 0 s.coll.seq scope ((SMap.get 0 s.coll.seq scope + 1) % 2 ^ 32) }).addWrap die
    DISPATCH_COLL_AUDIT_OPENED 1).addWrap die DISPATCH_COLL_AUDIT_CLOSED 1

/-- A core's part in it, and the collective of that part alone. -/
def Device.collPart (s : Device) (core : Nat) (i : Issue) (w data : List Nat) : CollPart :=
  { core := core, issue := i, words := w, tick := s.startTick i.work, data := data }
def Device.collOne (s : Device) (core : Nat) (i : Issue) (w data : List Nat) : Coll :=
  { scope := clScope w, seq := SMap.get 0 s.coll.seq (clScope w), members := [], parts := [s.collPart core i w data] }

section
variable (s : Device) (core : Nat) (i : Issue) (w data : List Nat)

@[simp] theorem Device.words_collOne : (s.collOne core i w data).words = w := rfl
@[simp] theorem Device.parts_collOne : (s.collOne core i w data).parts = [s.collPart core i w data] := rfl
@[simp] theorem Device.members_collOne : (s.collOne core i w data).members = [] := rfl
@[simp] theorem Device.remote_collOne : (s.collOne core i w data).remote = [] := rfl
@[simp] theorem Device.core_collPart : (s.collPart core i w data).core = core := rfl
@[simp] theorem Device.words_collPart : (s.collPart core i w data).words = w := rfl
@[simp] theorem Device.data_collPart : (s.collPart core i w data).data = data := rfl
@[simp] theorem Device.work_collOne : (s.collOne core i w data).work = i.work := rfl

end

/-- The command's fields that name its core alone, and one row (R186). -/
structure clOne (w : List Nat) (core : Nat) : Prop where
  group : clGroupEn w = false
  log : clLog2 w = 0
  base : clBase w = core
  rows : clRows w = 1

section
variable {s : Device} {core : Nat} {i : Issue} {w : List Nat} (h : clOne w core)
include h

theorem clCores_one : clCores w = [core] := by simp [clCores, h.log, h.base]

theorem Device.collOne_full (data : List Nat) : (s.collOne core i w data).full = true := by
  simp [Coll.full, clCores_one h]

theorem Device.collOne_complete (data : List Nat) : (s.collOne core i w data).complete = true := by
  simp [Coll.complete, Device.collOne_full h]

omit h in
/-- The values of one core agree (R187). -/
theorem Device.collOne_agrees (hkind : clKind w = 3) (data : List Nat) : (s.collOne core i w data).agrees = true := by
  have hown : (s.collOne core i w data).own = [(0, [clValue w % 2 ^ 32, clValue w / 2 ^ 32])] := by simp [Coll.own, hkind]
  simp [Coll.agrees, hown, cutList]

/-- A collective of one core that no other waits for opens and closes at once. -/
theorem Device.collJoin_one (hactive : s.coll.active = []) (hnotices : s.coll.notices = []) (hearly : s.coll.early = []) (data : List Nat) :
    s.collJoin core i w data = (s.collPassed (core / 64) (clScope w)).collResult (s.collOne core i w data) := by
  let t := (s.withColl { s.coll with seq := SMap.put 0 s.coll.seq (clScope w) ((SMap.get 0 s.coll.seq (clScope w) + 1) % 2 ^ 32)
                                     active := [s.collOne core i w data], early := [] }).addWrap (core / 64) DISPATCH_COLL_AUDIT_OPENED 1
  have hopen : s.openColl (clScope w) [] (s.collPart core i w data) none = (t, s.collOne core i w data) := by
    simp only [Device.openColl, hactive, hearly, List.filter_nil, List.nil_append, t]
    rfl
  have hcoll : ∀ q, ({ s.coll with seq := q, active := [], early := [] } : CollSt) = { s.coll with seq := q } := fun q =>
    calc ({ s.coll with seq := q, active := [], early := [] } : CollSt)
      _ = { s.coll with seq := q, active := s.coll.active, early := s.coll.early } := by rw [hactive, hearly]
      _ = { s.coll with seq := q } := rfl
  have hclose : t.closeColl (s.collOne core i w data) = s.collPassed (core / 64) (clScope w) := by
    rw [Device.closeColl_one (p := s.collPart core i w data) (show t.coll.active = [s.collOne core i w data] from rfl) rfl,
      Device.collPassed, ← hcoll]
    rfl
  have hfinish : t.collFinish (s.collOne core i w data) =
      (s.collPassed (core / 64) (clScope w)).collResult (s.collOne core i w data) := by
    have hagrees : (decide (clKind (s.collOne core i w data).words = 3) && !(s.collOne core i w data).agrees) = false := by
      by_cases hkind : clKind w = 3
      · simp [Device.collOne_agrees hkind]
      · simp [hkind]
    rw [Device.collFinish, if_neg (by simp [Device.collOne_complete h]), hagrees, hclose]
    rfl
  have hfor : s.collFor core (clScope w) = none := by simp [Device.collFor, hactive]
  have hroom : ¬ 4 ≤ (s.openIn (clScope w)).length := by simp [Device.openIn, hactive]
  have hnone : s.takeNotice (clScope w) (s.collOne core i w data).seq = none := by simp [Device.takeNotice, hnotices]
  rw [Device.collPart] at hopen
  rw [Device.collJoin]
  simp only [hfor, hroom, if_false, h.group, Bool.false_eq_true, hopen, hnone, Device.remote_collOne, List.any_nil,
    Device.members_collOne, List.isEmpty_nil, Bool.not_true, Bool.and_false]
  exact hfinish

end

/-! ### A core issues its collective (R186, R190) -/

/-- A command that passes its checks has a row to work on (R190). -/
theorem clUnits_pos {s : Device} {die job : Nat} {w : List Nat} (h : s.clReason die job w = 0) : 1 ≤ clUnits w := by
  by_contra hzero
  have hunits : clUnits w = 0 := by omega
  simp only [Device.clReason, hunits, decide_true, Bool.true_or, if_true] at h
  split_ifs at h

/-- Word `k` of the input, in the core's own store. -/
def Device.clInput (s : Device) (core : Nat) (w : List Nat) (k : Nat) : Nat :=
  s.load (coreStoreBase (core / 64) (core % 64) + (clSrc w).addr + 4 * k) 4

/-- The input of a command of one row. -/
def Device.clRow (s : Device) (core : Nat) (w : List Nat) : List Nat := (List.range (16 * clUnits w)).map (s.clInput core w)

theorem Device.length_clRow (s : Device) (core : Nat) (w : List Nat) : (s.clRow core w).length = 16 * clUnits w := by simp [Device.clRow]

section
variable {s : Device} {core sd idx : Nat} {i : Issue} {w : List Nat} (h : clOne w core) (hw : i.work = .slice sd idx)
  (hreason : s.clReason (core / 64) (s.workJob i.work) w = 0) (hactive : s.coll.active = []) (hnotices : s.coll.notices = [])
  (hearly : s.coll.early = [])
include h hreason hactive hnotices hearly

theorem Device.collCore_barrier (hkind : clKind w = 3) :
    s.collCore core i w = s.collPassed (core / 64) (clScope w) := by
  rw [Device.collCore]
  simp only [hreason, ne_eq, not_true_eq_false, if_false, hkind, if_true, Device.collJoin_one h hactive hnotices hearly]
  simp [Device.collResult, hkind]

include hw

theorem Device.collCore_row (hcore : core < 256) (hecc : s.pond.ecc = []) (hrun : s.running core) (hkind : clKind w ≠ 3)
    (hspace : (clSrc w).space = 1) (hfit : (clSrc w).addr + 64 * clUnits w ≤ 0x40000) :
    s.collCore core i w = (s.collPassed (core / 64) (clScope w)).collResult (s.collOne core i w (s.clRow core w)) := by
  have hpos := clUnits_pos hreason
  have hread := Device.opRead_ownStore (s := s) (sd := sd) (idx := idx) (n := 64 * clUnits w) hcore hecc hspace (by omega) hfit
  have hrow : ((List.range (64 * clUnits w / 4)).map fun k =>
      elemAt (s.load (coreStoreBase (core / 64) (core % 64) + (clSrc w).addr) (64 * clUnits w)) 32 k) = s.clRow core w := by
    rw [show 64 * clUnits w / 4 = 16 * clUnits w by omega]
    exact List.map_congr_left fun k hk => elemAt_load s _ 4 (by have := List.mem_range.1 hk; omega)
  rw [hw] at hreason
  rw [Device.collCore]
  simp only [hreason, ne_eq, not_true_eq_false, if_false, hkind, h.rows, Nat.mul_one, Opnd.pages_ownStore hspace, Device.openPages_nil,
    hw, hread, Device.cmdOk_of_running hrun, if_true, hrow]
  exact Device.collJoin_one h hactive hnotices hearly _

end

/-! ### A row that is written (R187) -/

theorem Device.reportsOf.refl {s : Device} {core : Nat} (h : s.running core) : s.reportsOf s core := ⟨rfl, rfl, rfl, h, fun _ _ _ => rfl⟩

/-- A command that runs has stored a row of words, and reported no more than its flags. -/
structure Device.rowWritten (t s : Device) (core a : Nat) (l : List Nat) : Prop where
  reports : t.reportsOf (s.store a (packBits 32 l) (4 * l.length)) core
  coll : t.coll = s.coll

theorem Device.rowWritten.numFlags {t s : Device} {core a : Nat} {l : List Nat} (h : t.rowWritten s core a l) (x : Conv) :
    (t.numFlags core x).rowWritten s core a l := ⟨h.reports.numFlags x, (Device.coll_numFlags ..).trans h.coll⟩

section
variable {s : Device} {core sd idx : Nat} {o : Opnd} {l : List Nat} (hcore : core < 256) (hecc : s.pond.ecc = []) (hrun : s.running core)
  (ho : o.space = 1) (hpos : 1 ≤ l.length) (hfit : o.addr + 4 * l.length ≤ 0x40000)
include hcore hecc hrun ho hpos hfit

theorem Device.rowWritten_opWrite : (s.opWrite core (.slice sd idx) o (4 * l.length) (packBits 32 l)).rowWritten s core
    (coreStoreBase (core / 64) (core % 64) + o.addr) l := by
  have hmod : packBits 32 l % 256 ^ (4 * l.length) = packBits 32 l := by
    have h := packBits_lt 32 l
    rw [show 32 * l.length = 8 * (4 * l.length) by ring, Nat.pow_mul] at h
    exact Nat.mod_eq_of_lt h
  have hreports := (Device.reportsOf.refl hrun).opWrite hcore hecc ho (n := 4 * l.length) (by omega) hfit sd idx (packBits 32 l)
  rw [hmod] at hreports
  obtain ⟨c, hc, -, -⟩ := hrun
  refine ⟨hreports, ?_⟩
  rw [Device.opWrite_ownStore hcore hecc ho (by omega) hfit hc]
  exact Device.store_keeps (f := Device.coll) (fun _ _ _ => rfl) ..

end

/-- A row of values as FP32 words (R117). -/
def fp32Row (l : List Nat) : List Nat := l.map fun x => (convFloat 0xA (dec32 x)).1

theorem Device.rowWritten_placeRow {s : Device} {core sd idx : Nat} {w : List Nat} {o : Opnd} {l : List Nat} (hcore : core < 256)
    (hecc : s.pond.ecc = []) (hrun : s.running core) (hfmt : clOutFmt w = 0xA) (ho : o.space = 1) (hpos : 1 ≤ l.length)
    (hfit : o.addr + 4 * l.length ≤ 0x40000) :
    (s.placeRow core w (.slice sd idx) o l).rowWritten s core (coreStoreBase (core / 64) (core % 64) + o.addr) (fp32Row l) := by
  have hlen : (fp32Row l).length = l.length := by simp [fp32Row]
  have hbytes : rowBytes 0xA l.length = 4 * (fp32Row l).length := by
    have hpacked : packedBytes 32 l.length = 4 * l.length := by unfold packedBytes; omega
    rw [hlen, ← hpacked]
    rfl
  have hdata : rowData 0xA (convRow 0xA (clSat w) (l.map dec32)) = packBits 32 (fp32Row l) := by
    simp [rowData, convRow, isMx, fmtBits, packBits, fp32Row, Function.comp_def]
  rw [Device.placeRow, hfmt, hbytes, hdata]
  exact (Device.rowWritten_opWrite hcore hecc hrun ho (by omega) (by omega)).numFlags _

/-! ### The results of a collective of one core (R187) -/

section
variable {s t : Device} {core : Nat} {i : Issue} {w row : List Nat} (h : clOne w core)
include h

omit h in
theorem rowCut_one {n : Nat} (hlen : row.length = n) : rowCut n 1 row = [row] := by
  simp [rowCut, ← hlen]

theorem Device.collResult_sum (hcore : core < 256) (hkind : clKind w = 0) (hres : clResEn w = false) (hnorm : clNormEn w = false)
    (hdst : (clDst w).space = 1)
    (hlen : row.length = 16 * clUnits w) (hfit : (clDst w).addr < 2 ^ 48) :
    t.collResult (s.collOne core i w row) = t.placeRow core w i.work (clDst w) row := by
  have hadd : (clDst w).add 0 = clDst w := Opnd.add_small (by omega)
  have hown : (s.collOne core i w row).own = [(0, row)] := by simp [Coll.own, hkind, packageTree_one hcore]
  have hplaces : clPlaces w = [core] := by rw [clPlaces, if_pos hdst, clCores_one h]
  simp [Device.collResult, hkind, hown, vecTree_memberOrder_one, h.rows, rowCut_one hlen, hplaces, hres, hnorm, hadd]

theorem Device.collResult_gather (hkind : clKind w = 1) (hdst : (clDst w).space = 1)
    (hlen : row.length = 16 * clUnits w) :
    t.collResult (s.collOne core i w row) = t.opWrite core i.work ((clDst w).add (64 * clDstOff w)) (4 * row.length) (packBits 32 row) := by
  have hown : (s.collOne core i w row).own = [(clDstOff w, row)] := by
    simp [Coll.own, hkind, clCores_one h, Coll.partOf]
  have hplaces : clPlaces w = [core] := by rw [clPlaces, if_pos hdst, clCores_one h]
  simp [Device.collResult, hkind, hown, h.rows, rowCut_one hlen, hplaces, hlen]

/-- Word `k` of the norm's weights, in the core's own store. -/
def Device.clWeight (s : Device) (core : Nat) (w : List Nat) (k : Nat) : Nat :=
  s.load (coreStoreBase (core / 64) (core % 64) + (clV w).addr + 64 * clDstOff w + 4 * k) 4

/-- A row normalised by its own totals. -/
def Device.clNormed (s : Device) (core : Nat) (w row : List Nat) : List Nat :=
  normSplit (clLayer w) row ((List.range (16 * clUnits w)).map (s.clWeight core w)) (clEps w) (rowSum row) (rowSum (row.map fun x => mul32 x x))
    (16 * clUnits w)

theorem Device.collResult_norm {sd idx : Nat} (hw : i.work = .slice sd idx) (hcore : core < 256) (hecc : t.pond.ecc = []) (hkind : clKind w = 2)
    (hdst : (clDst w).space = 1) (hpos : 1 ≤ clUnits w) (hlen : row.length = 16 * clUnits w) (hfmt : clOutFmt w = 0xA)
    (hfit : (clV w).addr + 64 * clDstOff w + 4 * (16 * clUnits w) ≤ 0x40000) :
    t.collResult (s.collOne core i w row) =
      t.placeRow core w i.work ((clDst w).add (64 * clDstOff w)) (t.clNormed core w row) := by
  have hown : (s.collOne core i w row).own = [(0, [rowSum row, rowSum (row.map fun x => mul32 x x)])] := by
    simp [Coll.own, hkind, h.rows, rowCut_one hlen, packageTree_one hcore]
  have hadd : (clV w).add (4 * (16 * clDstOff w)) = ⟨(clV w).space, (clV w).addr + 64 * clDstOff w⟩ := by
    rw [Opnd.add_small (by omega), show 4 * (16 * clDstOff w) = 64 * clDstOff w by omega]
  have hread := Device.opRead_ownStore (s := t) (sd := sd) (idx := idx) (o := ⟨(clV w).space, (clV w).addr + 64 * clDstOff w⟩)
    (n := 4 * (16 * clUnits w)) hcore hecc hdst (by omega) hfit
  have hweights : ((List.range (16 * clUnits w)).map fun k => elemAt (t.load (coreStoreBase (core / 64) (core % 64) +
      ((clV w).addr + 64 * clDstOff w)) (4 * (16 * clUnits w))) 32 k) = (List.range (16 * clUnits w)).map (t.clWeight core w) :=
    List.map_congr_left fun k hk => by
      rw [elemAt_load t _ 4 (by have := List.mem_range.1 hk; omega), Device.clWeight, ← Nat.add_assoc]
  have hbytes : packedBytes 32 (16 * clDstOff w) = 64 * clDstOff w := by unfold packedBytes; omega
  simp [Device.collResult, hkind, hown, h.rows, rowCut_one hlen, h.log, hadd, hw, hread, hweights, hbytes, hfmt, fmtBits, vecTree_memberOrder_one,
    Device.clNormed, wd]

end

/-! ### The clauses of O31 on one core, with nothing held at issue -/

/-- A collective of a core alone has closed under the next sequence value of its die's scope, and the core's command runs. -/
def collClosed (s d : Device) (core : Nat) : Prop :=
  d.coll.active = [] ∧ SMap.get 0 d.coll.seq (1024 + core / 64) = (SMap.get 0 s.coll.seq (1024 + core / 64) + 1) % 2 ^ 32 ∧ d.running core

/-- The command of a slice, alone on its core, which meets no other collective and nothing that is held at issue. -/
structure loneOfSlice (s : Device) (i : Issue) (w : List Nat) (core : Nat) : Prop where
  ecc : s.pond.ecc = []
  lone : s.loneColl i w core
  held : s.coll.held = []
  slice : ∃ sd idx, i.work = .slice sd idx

/-- The device that has taken a lone collective's command, once the collective has opened and closed, before its result. -/
def Device.passedBy (s : Device) (i : Issue) (w : List Nat) (core : Nat) : Device := (s.taken i w).collPassed (core / 64) (clScope w)

section
variable {s : Device} {i : Issue} {w : List Nat} {core : Nat} (h : loneOfSlice s i w core)
include h

theorem loneOfSlice.offers : s.offers i w [] core := h.lone.1

theorem loneOfSlice.core_lt : core < 256 := h.offers.2.1

theorem loneOfSlice.one : clOne w core :=
  have ⟨_, hgroup, hlog, hbase, hrows, _⟩ := h.lone
  ⟨hgroup, hlog, hbase, hrows⟩

theorem loneOfSlice.reason : (s.taken i w).clReason (core / 64) ((s.taken i w).workJob i.work) w = 0 := by
  obtain ⟨-, -, -, -, -, hreason, -⟩ := h.lone
  obtain ⟨sd, idx, hw⟩ := h.slice
  rw [hw] at hreason ⊢
  exact hreason

theorem loneOfSlice.quiet : (s.taken i w).coll.active = [] ∧ (s.taken i w).coll.notices = [] ∧ (s.taken i w).coll.early = [] := by
  obtain ⟨-, -, -, -, -, -, hactive, hnotices, hearly, -⟩ := h.lone
  obtain ⟨sd, idx, hw⟩ := h.slice
  rw [Device.coll_taken h.offers hw]
  exact ⟨hactive, hnotices, hearly⟩

theorem loneOfSlice.operands : (clSrc w).space = 1 ∧ (clDst w).space = 1 ∧ (clSrc w).addr + 64 * clUnits w ≤ 0x40000 := by
  obtain ⟨-, -, -, -, -, -, -, -, -, hsrc, hdst, hfit⟩ := h.lone
  exact ⟨hsrc, hdst, hfit⟩

theorem loneOfSlice.taken_reportsOf : (s.taken i w).reportsOf s core := by
  obtain ⟨sd, idx, hw⟩ := h.slice
  exact Device.taken_reportsOf h.offers hw

theorem loneOfSlice.passedBy_coll : (s.passedBy i w core).coll =
    { s.coll with seq := SMap.put 0 s.coll.seq (1024 + core / 64) ((SMap.get 0 s.coll.seq (1024 + core / 64) + 1) % 2 ^ 32) } := by
  obtain ⟨sd, idx, hw⟩ := h.slice
  have hscope : clScope w = 1024 + core / 64 := by simp [clScope, h.one.group, h.one.base]
  rw [Device.passedBy, hscope, Device.collPassed, Device.coll_taken h.offers hw]
  rfl

/-- What is left of the collectives is what closed it. -/
theorem collClosed_of_coll {d : Device} (hcoll : d.coll = (s.passedBy i w core).coll) (hrun : d.running core) : collClosed s d core := by
  obtain ⟨-, -, -, -, -, -, hactive, -⟩ := h.lone
  rw [h.passedBy_coll] at hcoll
  exact ⟨by rw [hcoll]; exact hactive, by rw [hcoll]; exact SMap.get_put_same .., hrun⟩

/-- The command's body is its core's collective, since nothing waits for its place. -/
theorem collBody_lone {t : Device} (ht : (s.taken i w).collCore core i w = t) (hcoll : t.coll = (s.passedBy i w core).coll) :
    coreCommand i w [] (collBody i w) s = t := by
  obtain ⟨_, _, hw⟩ := h.slice
  have hheld : t.coll.held = [] := by rw [hcoll, h.passedBy_coll]; exact h.held
  refine (coreCommand_offered h.offers hw _).trans ?_
  rw [Device.onCores_one h.offers, ht, Device.retryHeld_of_nil hheld]

end

/-- What a collective's command concludes that writes a row of words. -/
theorem runs_of_rowWritten {c : Instr} {s : State} {i : Issue} {w l : List Nat} {core a : Nat} {t : Device} (hs : s.dev.sound)
    (h : loneOfSlice s.dev i w core) (hx : exec c s = s.upd (coreCommand i w [] (collBody i w))) (hbody : (s.dev.taken i w).collCore core i w = t)
    (ht : t.rowWritten (s.dev.passedBy i w core) core a l) :
    runs c s fun d => collClosed s.dev d core ∧ (∀ k < l.length, d.load (a + 4 * k) 4 = wd l k % 2 ^ 32) ∧
      ∀ x, (x < a ∨ a + 4 * l.length ≤ x) → d.byte x = s.dev.byte x := by
  have hreq : t.requests = s.dev.requests := ht.reports.requests.trans
    ((Device.store_keeps (f := Device.requests) (fun _ _ _ => rfl) ..).trans h.taken_reportsOf.requests)
  have hmem : (s.dev.passedBy i w core).mem = s.dev.mem := h.taken_reportsOf.mem
  have hbyte : ∀ x, t.canon.byte x = (s.dev.store a (packBits 32 l) (4 * l.length)).byte x := fun x => by
    rw [Device.canon_byte, Device.byte, ht.reports.mem, Device.mem_store_congr hmem, Device.byte]
  refine runs_of_given hs hx (collBody_lone h hbody ht.coll) hreq
    ⟨collClosed_of_coll h ht.coll ht.reports.running, fun k hk => ?_, fun x hx => ?_⟩
  · rw [Device.load_of_bytes hbyte, Device.load_words _ _ _ hk]
  · rw [hbyte, Device.byte_store_ne _ _ _ _ _ hx]

section
variable {s : State} {i : Issue} {w : List Nat} {core : Nat} (hs : s.dev.sound) (h : loneOfSlice s.dev i w core)
include h

/-- The input, read from the device that the command was issued to. -/
theorem clRow_taken : (s.dev.taken i w).clRow core w = s.dev.clRow core w :=
  List.map_congr_left fun _ _ => Device.load_congr h.taken_reportsOf.mem ..

theorem collCore_lone (hkind : clKind w ≠ 3) : (s.dev.taken i w).collCore core i w =
    (s.dev.passedBy i w core).collResult ((s.dev.taken i w).collOne core i w (s.dev.clRow core w)) := by
  obtain ⟨sd, idx, hw⟩ := h.slice
  obtain ⟨hactive, hnotices, hearly⟩ := h.quiet
  obtain ⟨hspace, -, hfit⟩ := h.operands
  rw [Device.collCore_row h.one hw h.reason hactive hnotices hearly h.core_lt (h.taken_reportsOf.pond ▸ h.ecc) h.taken_reportsOf.running
    hkind hspace hfit, clRow_taken h, Device.passedBy]

theorem loneOfSlice.passedBy_running : (s.dev.passedBy i w core).running core := h.taken_reportsOf.running

theorem loneOfSlice.passedBy_ecc : (s.dev.passedBy i w core).pond.ecc = [] :=
  (congrArg PondSt.ecc h.taken_reportsOf.pond).trans h.ecc

include hs

/-- SUM gives the row (R187). -/
theorem collSum_alone (hkind : clKind w = 0) (hres : clResEn w = false) (hnorm : clNormEn w = false) (hfmt : clOutFmt w = 0xA)
    (hfit : (clDst w).addr + 4 * (16 * clUnits w) ≤ 0x40000) :
    let o := coreStoreBase (core / 64) (core % 64) + (clDst w).addr
    runs (.collSum i w) s fun d => collClosed s.dev d core ∧
      (∀ k < 16 * clUnits w, d.load (o + 4 * k) 4 = (convFloat 0xA (dec32 (s.dev.clInput core w k))).1 % 2 ^ 32) ∧
      ∀ x, (x < o ∨ o + 4 * (16 * clUnits w) ≤ x) → d.byte x = s.dev.byte x := by
  intro o
  obtain ⟨sd, idx, hw⟩ := h.slice
  obtain ⟨-, hdst, -⟩ := h.operands
  have hpos := clUnits_pos h.reason
  have hlen := s.dev.length_clRow core w
  have hout : (fp32Row (s.dev.clRow core w)).length = 16 * clUnits w := (List.length_map _).trans hlen
  have hbody := collCore_lone h (by omega)
  rw [Device.collResult_sum h.one h.core_lt hkind hres hnorm hdst hlen (by omega), hw] at hbody
  have hwritten := Device.rowWritten_placeRow (sd := sd) (idx := idx) (l := s.dev.clRow core w) h.core_lt h.passedBy_ecc h.passedBy_running
    hfmt hdst (by omega) (by omega)
  have hruns := runs_of_rowWritten hs h (c := .collSum i w) rfl hbody hwritten
  rw [hout] at hruns
  obtain ⟨t, hx, hp, hclosed, hwords, hframe⟩ := hruns
  refine ⟨t, hx, hp, hclosed, fun k hk => (hwords k hk).trans ?_, hframe⟩
  rw [fp32Row, wd_map _ (by omega), Device.clRow, wd_map_range _ hk]

/-- GATHER places it (R187). -/
theorem collGather_alone (hkind : clKind w = 1) (hfit : (clDst w).addr + 64 * clDstOff w + 4 * (16 * clUnits w) ≤ 0x40000) :
    let o := coreStoreBase (core / 64) (core % 64) + (clDst w).addr + 64 * clDstOff w
    runs (.collGather i w) s fun d => collClosed s.dev d core ∧ (∀ k < 16 * clUnits w, d.load (o + 4 * k) 4 = s.dev.clInput core w k) ∧
      ∀ x, (x < o ∨ o + 4 * (16 * clUnits w) ≤ x) → d.byte x = s.dev.byte x := by
  intro o
  obtain ⟨sd, idx, hw⟩ := h.slice
  obtain ⟨-, hdst, -⟩ := h.operands
  have hpos := clUnits_pos h.reason
  have hlen := s.dev.length_clRow core w
  have hbody := collCore_lone h (by omega)
  rw [Device.collResult_gather h.one hkind hdst hlen, hw, Opnd.add_small (by omega)] at hbody
  have hwritten := Device.rowWritten_opWrite (sd := sd) (idx := idx) (o := ⟨(clDst w).space, (clDst w).addr + 64 * clDstOff w⟩)
    (l := s.dev.clRow core w) h.core_lt h.passedBy_ecc h.passedBy_running hdst (by omega) (by dsimp only; omega)
  have hruns := runs_of_rowWritten hs h (c := .collGather i w) rfl hbody hwritten
  rw [hlen, ← Nat.add_assoc] at hruns
  obtain ⟨t, hx, hp, hclosed, hwords, hframe⟩ := hruns
  refine ⟨t, hx, hp, hclosed, fun k hk => (hwords k hk).trans ?_, hframe⟩
  rw [Device.clRow, wd_map_range _ hk]
  exact Nat.mod_eq_of_lt (Device.load_lt ..)

/-- NORM scales it by its own totals (R187). -/
theorem collNorm_alone (hkind : clKind w = 2) (hfmt : clOutFmt w = 0xA)
    (hfit : (clDst w).addr + 64 * clDstOff w + 4 * (16 * clUnits w) ≤ 0x40000)
    (hfitV : (clV w).addr + 64 * clDstOff w + 4 * (16 * clUnits w) ≤ 0x40000) :
    let o := coreStoreBase (core / 64) (core % 64) + (clDst w).addr + 64 * clDstOff w
    let out := s.dev.clNormed core w (s.dev.clRow core w)
    runs (.collNorm i w) s fun d => collClosed s.dev d core ∧
      (∀ k < 16 * clUnits w, d.load (o + 4 * k) 4 = (convFloat 0xA (dec32 (wd out k))).1 % 2 ^ 32) ∧
      ∀ x, (x < o ∨ o + 4 * (16 * clUnits w) ≤ x) → d.byte x = s.dev.byte x := by
  intro o out
  obtain ⟨sd, idx, hw⟩ := h.slice
  obtain ⟨-, hdst, -⟩ := h.operands
  have hpos := clUnits_pos h.reason
  have hlen := s.dev.length_clRow core w
  have hnormed : (s.dev.passedBy i w core).clNormed core w (s.dev.clRow core w) = out := by
    have hmem : (s.dev.passedBy i w core).mem = s.dev.mem := h.taken_reportsOf.mem
    have hweight : (s.dev.passedBy i w core).clWeight core w = s.dev.clWeight core w := funext fun _ => Device.load_congr hmem ..
    rw [Device.clNormed, hweight]
    rfl
  have hlenOut : out.length = 16 * clUnits w := by
    simp only [out, Device.clNormed, normSplit]
    split <;> simp [hlen]
  have hout : (fp32Row out).length = 16 * clUnits w := (List.length_map _).trans hlenOut
  have hbody := collCore_lone h (by omega)
  rw [Device.collResult_norm h.one hw h.core_lt h.passedBy_ecc hkind hdst hpos hlen hfmt hfitV, hnormed, hw, Opnd.add_small (by omega)] at hbody
  have hwritten := Device.rowWritten_placeRow (sd := sd) (idx := idx) (o := ⟨(clDst w).space, (clDst w).addr + 64 * clDstOff w⟩) (l := out)
    h.core_lt h.passedBy_ecc h.passedBy_running hfmt hdst (by omega) (by dsimp only; omega)
  have hruns := runs_of_rowWritten hs h (c := .collNorm i w) rfl hbody hwritten
  rw [hout, ← Nat.add_assoc] at hruns
  obtain ⟨t, hx, hp, hclosed, hwords, hframe⟩ := hruns
  refine ⟨t, hx, hp, hclosed, fun k hk => (hwords k hk).trans ?_, hframe⟩
  rw [fp32Row, wd_map _ (by omega)]

/-- BARRIER writes nothing (R187). -/
theorem collBarrier_alone (hkind : clKind w = 3) : runs (.collBarrier i w) s fun d => collClosed s.dev d core ∧ keepsMem s.dev d := by
  obtain ⟨sd, idx, hw⟩ := h.slice
  obtain ⟨hactive, hnotices, hearly⟩ := h.quiet
  have hbody := collBody_lone h (Device.collCore_barrier h.one h.reason hactive hnotices hearly hkind) rfl
  have hidle : (s.dev.passedBy i w core).idleSince s.dev := Device.taken_idle h.offers hw
  exact runs_of_idle hs rfl hbody hidle ⟨collClosed_of_coll h rfl h.passedBy_running, hidle.keepsMem⟩

end

/-! ### A resolve of a slice's list (R199) -/

/-- The resolve of a command on a core, with the entries that are in a device's queues (R199). -/
def resolveOf (s : Device) (w : List Nat) (core : Nat) : ResolveReq :=
  { tag := bits (wd w 1) 22 8, cancel := bit (wd w 1) 31, dies := bitList (bits (wd w 1) 0 4) 4
    segs := (bitList (bits (wd w 1) 0 4) 4).flatMap fun d => (s.segs d).map fun x => (d, x.seq), core := core }

/-- The clause of O32 on a resolve holds of a command of a slice. -/
theorem resolve_ofSlice {s : State} {i : Issue} {w : List Nat} {core sd idx : Nat} (hs : s.dev.sound) (hoff : s.dev.offers i w [] core)
    (hw : i.work = .slice sd idx) (hthirty : bit (wd w 1) 30 = false) (hmid : bits (wd w 1) 4 18 = 0) (hrest : (w.drop 2).any (· ≠ 0) = false) :
    runs (.resolve i w) s fun d => keepsMem s.dev d ∧ keepsFields s.dev d (issueFields i core) ∧
      d.coll = { s.dev.coll with resolves := s.dev.coll.resolves ++ [resolveOf s.dev w core] } := by
  have hcoll := Device.coll_taken hoff hw
  have hbody : coreCommand i w [] (resolveBody i w) s.dev =
      (s.dev.taken i w).withColl { s.dev.coll with resolves := s.dev.coll.resolves ++ [resolveOf s.dev w core] } := by
    refine (coreCommand_offered hoff hw _).trans ?_
    have hbad : (bit (wd w 1) 30 || bits (wd w 1) 4 18 ≠ 0 || (w.drop 2).any (· ≠ 0)) = false := by
      rw [hthirty, hrest]; simp [hmid]
    simp only [hbad, Issue.head_of_offers hoff, Device.segs_congr hcoll, hcoll]
    rfl
  have hidle := (Device.taken_idle hoff hw).withColl { s.dev.coll with resolves := s.dev.coll.resolves ++ [resolveOf s.dev w core] }
  refine runs_of_idle hs rfl hbody hidle ⟨hidle.keepsMem, fun die f hf => ?_, rfl⟩
  exact (Device.taken_reportsOf hoff hw).fields die f fun x hx => hf x (List.mem_append_left _ hx)

/-! ### A segment of a slice's list (R197, R198) -/

/-- A pool that is not full has a place that no entry uses (R197). -/
theorem Device.segPlace_free {s : Device} {die : Nat} (h : (s.segs die).length < 64) : ∀ x ∈ s.segs die, x.slot ≠ s.segPlace die := by
  have hfree : ∃ k ∈ List.range 64, (!(s.segs die).any fun x => decide (x.slot = k)) = true := by
    by_contra hall
    have hsub : List.range 64 ⊆ (s.segs die).map (·.slot) := fun k hk => by
      by_contra hk'
      exact hall ⟨k, hk, by simpa using fun x hx hxk => hk' (List.mem_map.2 ⟨x, hx, hxk⟩)⟩
    have hlen := (List.subperm_of_subset List.nodup_range hsub).length_le
    rw [List.length_range, List.length_map] at hlen
    omega
  obtain ⟨k, hk⟩ := Option.isSome_iff_exists.1 (List.find?_isSome.2 hfree)
  have hplace : s.segPlace die = k := by rw [Device.segPlace, hk]; rfl
  have hnone := List.find?_some hk
  intro x hx hslot
  simp only [Bool.not_eq_true', List.any_eq_false, decide_eq_true_eq] at hnone
  exact hnone x hx (hslot.trans hplace)

theorem Device.noErrors_segAddr {s : Device} (hecc : s.pond.ecc = []) {die : Nat} (hdie : die < 4) {k : Nat} (hk : k < 64) :
    s.noErrors (segAddr die k) 576 := by
  refine Device.noErrors_of_ecc hecc ?_
  have hplace := Nat.mod_lt Config.segPlace (show 0 < (0x1000000 - 64 * 576) / 64 by decide)
  unfold segAddr reflexBase storeBase storeDieBytes lpBase
  omega

/-- The device with another segment queue of a die, and the counts that it shows (R201). -/
def Device.withSegs (s : Device) (die : Nat) (l : List Segment) : Device :=
  ((s.withColl { s.coll with segs := SMap.put [] s.coll.segs die l }).wr die DISPATCH_SEG_STATUS_OCCUPIED l.length).wr die
    DISPATCH_SEG_STATUS_UNCOMMITTED (l.filter fun x => !x.commit).length

/-- An entry that takes a free place of its die's pool is written there. -/
theorem Device.setSegs_append {s : Device} (hecc : s.pond.ecc = []) {die : Nat} (hdie : die < 4) {x : Segment} (hslot : x.slot < 64)
    (hfree : ∀ y ∈ s.segs die, y.slot ≠ x.slot) :
    s.setSegs die (s.segs die ++ [x]) = (s.store (segAddr die x.slot) x.image 576).withSegs die (s.segs die ++ [x]) := by
  have hleave : ((s.segs die).filter fun y => !(s.segs die ++ [x]).any fun z => decide (z.slot = y.slot)) = [] := by
    simp only [List.filter_eq_nil_iff, Bool.not_eq_true, Bool.not_eq_false', List.any_eq_true, decide_eq_true_eq]
    exact fun y hy => ⟨y, List.mem_append_left _ hy, rfl⟩
  have hcome : ((s.segs die ++ [x]).filter fun y => !(s.segs die).any fun z => decide (z.slot = y.slot) && decide (z.image = y.image)) = [x] := by
    have hold : ((s.segs die).filter fun y => !(s.segs die).any fun z => decide (z.slot = y.slot) && decide (z.image = y.image)) = [] := by
      simp only [List.filter_eq_nil_iff, Bool.not_eq_true, Bool.not_eq_false', List.any_eq_true, Bool.and_eq_true, decide_eq_true_eq]
      exact fun y hy => ⟨y, hy, rfl, rfl⟩
    have hnew : ((s.segs die).any fun z => decide (z.slot = x.slot) && decide (z.image = x.image)) = false := by
      simp only [List.any_eq_false, Bool.and_eq_true, decide_eq_true_eq, not_and]
      exact fun y hy hyx => absurd hyx (hfree y hy)
    rw [List.filter_append, hold, List.nil_append]
    simp [hnew]
  have hwrite : s.writeWords (segAddr die x.slot) 576 x.image = s.store (segAddr die x.slot) x.image 576 :=
    Device.writeWords_clean (Device.noErrors_segAddr hecc hdie hslot) _
  rw [Device.setSegs, hleave, hcome, List.foldl_nil, List.foldl_cons, List.foldl_nil, hwrite]
  rfl

/-! The tokens and bins as the command reads them, and the entry that it writes. -/

/-- Token `j` of waypoint `k`, in the core's own store. -/
def Device.segToken (s : Device) (core : Nat) (w : List Nat) (k j : Nat) : Nat :=
  s.load (coreStoreBase (core / 64) (core % 64) + (sgTokens w).addr + 2 * (k * (sgTpw w + 1) + j)) 2

/-- Word `j` of the bins, in the core's own store. -/
def Device.segBin (s : Device) (core : Nat) (w : List Nat) (j : Nat) : Nat :=
  s.load (coreStoreBase (core / 64) (core % 64) + (sgBins w).addr + 4 * j) 4

/-- A segment command whose fields pass their checks and whose operands lie in the core's own store. -/
structure segOwn (w : List Nat) : Prop where
  tokens : (sgTokens w).space = 1
  bins : (sgBins w).space = 1
  last : sgFirst w + sgJoints w ≤ 15
  within : sgFirst w + sgJoints w ≤ sgTpw w
  tokensFit : (sgTokens w).addr + 2 * ((sgWps w + 1) * (sgTpw w + 1)) ≤ 0x40000
  binsFit : (sgBins w).addr + 8 * (sgTpw w + 1) ≤ 0x40000

/-- The checks give the joints' and the operands' ranges (R198, R127). -/
theorem segOwn_of_checks {w : List Nat} (h : firstFail (sgChecks w) = none) (tokens : (sgTokens w).space = 1) (bins : (sgBins w).space = 1) :
    segOwn w := by
  have hjoints := passes_of_firstFail (c := ⟨1, 1, 15 < sgFirst w + sgJoints w || sgTpw w < sgFirst w + sgJoints w⟩) h (List.mem_cons_self ..)
  have htokens := passes_of_firstFail (c := ⟨7, 2, !(sgTokens w).fits (2 * ((sgWps w + 1) * (sgTpw w + 1)))⟩) h (by simp [sgChecks])
  have hbins := passes_of_firstFail (c := ⟨7, 4, !(sgBins w).fits (8 * (sgTpw w + 1))⟩) h (by simp [sgChecks])
  simp only [Bool.or_eq_false_iff, decide_eq_false_iff_not, Nat.not_lt] at hjoints
  simp only [Bool.not_eq_false'] at htokens hbins
  exact ⟨tokens, bins, hjoints.1, hjoints.2, Opnd.fits_ownStore tokens htokens, Opnd.fits_ownStore bins hbins⟩

section
variable {w : List Nat} (h : segOwn w) (s : Device) (core : Nat) {k j : Nat} (hj : j ≤ sgFirst w + sgJoints w)
include h hj

/-- A token of the row that is read. -/
theorem segOwn.token_read (hk : k ≤ sgWps w) : elemAt (s.load (coreStoreBase (core / 64) (core % 64) + (sgTokens w).addr)
    (2 * ((sgWps w + 1) * (sgTpw w + 1)))) 16 (k * (sgTpw w + 1) + j) = s.segToken core w k j := by
  have hlast := h.within
  have hrow : (k + 1) * (sgTpw w + 1) ≤ (sgWps w + 1) * (sgTpw w + 1) := Nat.mul_le_mul_right _ (by omega)
  rw [Nat.succ_mul] at hrow
  exact elemAt_load s _ 2 (by omega)

/-- A word of the bins that are read. -/
theorem segOwn.bin_read {m : Nat} (hm : m < 2) : elemAt (s.load (coreStoreBase (core / 64) (core % 64) + (sgBins w).addr)
    (8 * (sgTpw w + 1))) 32 (2 * j + m) = s.segBin core w (2 * j + m) := by
  have hlast := h.within
  exact elemAt_load s _ 4 (by omega)

end

/-- The joints of a segment command. -/
def sgJointList (w : List Nat) : List Nat := (List.range (sgJoints w + 1)).map (sgFirst w + ·)

theorem mem_sgJointList {w : List Nat} {j : Nat} : j ∈ sgJointList w ↔ sgFirst w ≤ j ∧ j ≤ sgFirst w + sgJoints w := by
  simp only [sgJointList, List.mem_map, List.mem_range]
  exact ⟨fun ⟨i, hi, h⟩ => by omega, fun h => ⟨j - sgFirst w, by omega, by omega⟩⟩

/-- A segment's positions with their reports, as functions of its tokens and bins (R198). -/
def segPositions (w : List Nat) (tok : Nat → Nat → Nat) (bin : Nat → Nat) : List (Nat × Conv) :=
  (List.range (sgWps w + 1)).flatMap fun k => (List.range 16).map fun j =>
    if (sgJointList w).contains j then
      convFloat 0xA (dec32 (fma32 (ofInt32 ((tok k j : Int) - sgBase w)) (bin (2 * j + 1)) (bin (2 * j))))
    else (0, {})

theorem segPositions_congr {w : List Nat} {tok tok' : Nat → Nat → Nat} {bin bin' : Nat → Nat}
    (htok : ∀ k ≤ sgWps w, ∀ j ∈ sgJointList w, tok k j = tok' k j)
    (hbin : ∀ j ∈ sgJointList w, ∀ m < 2, bin (2 * j + m) = bin' (2 * j + m)) :
    segPositions w tok bin = segPositions w tok' bin' := by
  refine List.flatMap_congr fun k hk => List.map_congr_left fun j _ => ?_
  split
  · next hj =>
    have hj := List.contains_iff_mem.1 hj
    rw [htok k (by have := List.mem_range.1 hk; omega) j hj, hbin j hj 1 (by omega), show bin (2 * j) = bin' (2 * j) from hbin j hj 0 (by omega)]
  · rfl

/-- Rows of 16, one after the other: entry `j` of row `k`. -/
theorem wd_rows (f : Nat → Nat → Nat) {n k j : Nat} (hk : k < n) (hj : j < 16) :
    wd ((List.range n).flatMap fun k => (List.range 16).map (f k)) (16 * k + j) = f k j := by
  induction n with
  | zero => omega
  | succ n ih =>
    have hlen : ((List.range n).flatMap fun k => (List.range 16).map (f k)).length = 16 * n := by simp [Nat.mul_comm]
    rw [wd, List.range_succ (n := n), List.flatMap_append, List.flatMap_singleton]
    by_cases hlt : k < n
    · rw [List.getD_append _ _ _ _ (by omega)]
      exact ih hlt
    · obtain rfl : k = n := by omega
      rw [List.getD_append_right _ _ _ _ (by omega), hlen, Nat.add_sub_cancel_left]
      simp [hj]

theorem wd_segPositions {w : List Nat} (hlast : sgFirst w + sgJoints w ≤ 15) (tok : Nat → Nat → Nat) (bin : Nat → Nat)
    {k j : Nat} (hk : k ≤ sgWps w) (hj : j ∈ sgJointList w) :
    wd ((segPositions w tok bin).map (·.1)) (16 * k + j) =
      (convFloat 0xA (dec32 (fma32 (ofInt32 ((tok k j : Int) - sgBase w)) (bin (2 * j + 1)) (bin (2 * j))))).1 := by
  have hjoint := mem_sgJointList.1 hj
  rw [segPositions, List.map_flatMap]
  simp only [List.map_map]
  rw [wd_rows _ (by omega) (by omega)]
  simp [hj]

/-- The entry that a segment command writes (R197, R198). -/
def Device.segOf (s : Device) (w : List Nat) (core : Nat) : Segment :=
  { seq := SMap.get 0 s.coll.segSeq (sgDie w), tag := sgTag w, commit := decide (sgTag w = 0), first := sgFirst w, wps := sgWps w + 1
    joints := sgJoints w + 1, tStart := wd2 w 7, dt := wd w 9, obs := wd2 w 10
    pos := (segPositions w (s.segToken core w) (s.segBin core w)).map (·.1), slot := s.segPlace (sgDie w) }

/-- The device once a segment command has written the queue: the next SEQ goes on, and the entry is counted. -/
def Device.segCounted (s : Device) (die seq : Nat) : Device :=
  (s.withColl { s.coll with segSeq := SMap.put 0 s.coll.segSeq die ((seq + 1) % 65536) }).addWrap die DISPATCH_SEG_AUDIT_WRITTEN 1

section
variable {s : Device} {core sd idx : Nat} {i : Issue} {w : List Nat} (h : segOwn w) (hcore : core < 256) (hecc : s.pond.ecc = [])
  (hw : i.work = .slice sd idx)

include h hcore hecc hw

/-- The command's flags aside, the entry goes to the end of its die's queue. -/
theorem segmentRun_writes (hrun : s.running core) (hdie : sgDie w = core / 64)
    (htok : ∀ k ≤ sgWps w, ∀ j ∈ sgJointList w, sgBase w ≤ s.segToken core w k j ∧ s.segToken core w k j < sgBase w + sgNbins w)
    (hroom : (s.segs (sgDie w)).length < 64) :
    ∃ x, segmentRun core i w s = ((s.numFlags core x).setSegs (sgDie w) (s.segs (sgDie w) ++ [s.segOf w core])).segCounted
      (sgDie w) (s.segOf w core).seq := by
  have htokens := Device.opRead_ownStore (s := s) (sd := sd) (idx := idx) (n := 2 * ((sgWps w + 1) * (sgTpw w + 1))) hcore hecc h.tokens
    (by have : 0 < (sgWps w + 1) * (sgTpw w + 1) := by positivity
        omega) h.tokensFit
  have hbins := Device.opRead_ownStore (s := s) (sd := sd) (idx := idx) (n := 8 * (sgTpw w + 1)) hcore hecc h.bins (by omega) h.binsFit
  let tok := fun k j => elemAt (s.load (coreStoreBase (core / 64) (core % 64) + (sgTokens w).addr) (2 * ((sgWps w + 1) * (sgTpw w + 1)))) 16
    (k * (sgTpw w + 1) + j)
  let bin := elemAt (s.load (coreStoreBase (core / 64) (core % 64) + (sgBins w).addr) (8 * (sgTpw w + 1))) 32
  have hread : ∀ k ≤ sgWps w, ∀ j ∈ sgJointList w, tok k j = s.segToken core w k j := fun k hk j hj =>
    h.token_read s core (mem_sgJointList.1 hj).2 hk
  have hpos : segPositions w tok bin = segPositions w (s.segToken core w) (s.segBin core w) :=
    segPositions_congr hread fun j hj m hm => h.bin_read s core (mem_sgJointList.1 hj).2 hm
  have hgood : ((List.range (sgWps w + 1)).any fun k => (sgJointList w).any fun j =>
      decide (tok k j < sgBase w) || decide (sgBase w + sgNbins w ≤ tok k j)) = false := by
    simp only [List.any_eq_false, Bool.or_eq_true, decide_eq_true_eq, not_or, Nat.not_lt, Nat.not_le, List.any_eq_true, not_exists, not_and,
      List.mem_range]
    intro k hk j hj
    rw [hread k (by omega) j hj]
    exact htok k (by omega) j hj
  have hroute : s.routeUp (core / 64) (sgDie w) = true := by rw [hdie, Device.routeUp_self]
  refine ⟨(segPositions w tok bin).foldl (fun c p => c.join p.2) {}, ?_⟩
  rw [Device.segOf, ← hpos, segmentRun]
  simp only [List.length_range, hw, htokens, hbins]
  rw [if_neg (by simp [Device.cmdOk_of_running hrun])]
  refine (if_neg (ne_true_of_eq_false hgood)).trans ?_
  rw [if_neg (by simp [hroute]), if_neg (by omega)]
  rfl

end

theorem Device.segPlace_lt (s : Device) (die : Nat) : s.segPlace die < 64 := by
  unfold Device.segPlace
  cases hfind : (List.range 64).find? fun k => !(s.segs die).any fun x => decide (x.slot = k) with
  | none => decide
  | some k => exact List.mem_range.1 (List.mem_of_find?_eq_some hfind)

/-- What a command reports leaves the dispatcher's registers alone. -/
theorem Device.reportsOf.rd_ofDispatch {t s : Device} {core : Nat} (h : t.reportsOf s core) {f : Fld} (hf : f.inMap ∧ f.blk = 5) (d : Nat) :
    t.rd d f = s.rd d f := by
  have hnum : ∀ k < 8, ∀ n < 8, ∀ g ∈ CLUSTER_NUM_COUNT_REPLACED k n :: stickyFlds k n, g.inMap ∧ g.blk ≠ 5 := by decide
  refine h.fields d f fun x hx => ?_
  obtain ⟨g, hg, rfl⟩ := List.mem_map.1 hx
  obtain ⟨hmap, hblk⟩ := hnum (core % 64 / 8) (by omega) (core % 8) (by omega) g hg
  exact Fld.key_ne_of_inMap hf.1 hmap (.inl fun h => hblk (h ▸ hf.2)) d _

section
variable (s : Device) (die : Nat) (l : List Segment) (seq : Nat)

@[simp] theorem Device.mem_segCounted : ((s.withSegs die l).segCounted die seq).mem = s.mem := rfl
@[simp] theorem Device.requests_segCounted : ((s.withSegs die l).segCounted die seq).requests = s.requests := rfl
@[simp] theorem Device.cmd_segCounted (core : Nat) : ((s.withSegs die l).segCounted die seq).cmd core = s.cmd core := rfl
@[simp] theorem Device.segs_segCounted : ((s.withSegs die l).segCounted die seq).segs die = l := SMap.get_put_same ..

theorem Device.rd_written_withSegs : (s.withSegs die l).rd die DISPATCH_SEG_AUDIT_WRITTEN = s.rd die DISPATCH_SEG_AUDIT_WRITTEN := by
  rw [Device.withSegs, Device.rd_wr_elsewhere (by decide), Device.rd_wr_elsewhere (by decide)]
  rfl

theorem Device.rd_written_segCounted : ((s.withSegs die l).segCounted die seq).rd die DISPATCH_SEG_AUDIT_WRITTEN =
    (s.rd die DISPATCH_SEG_AUDIT_WRITTEN + 1) % 2 ^ DISPATCH_SEG_AUDIT_WRITTEN.w :=
  (Device.rd_wr_same ..).trans (congrArg (fun n => (n + 1) % _) (s.rd_written_withSegs die l))

end

theorem Device.segOf_congr {s t : Device} (hmem : t.mem = s.mem) (hcoll : t.coll = s.coll) (w : List Nat) (core : Nat) :
    t.segOf w core = s.segOf w core := by
  have htok : t.segToken core w = s.segToken core w := funext fun k => funext fun j => Device.load_congr hmem ..
  have hbin : t.segBin core w = s.segBin core w := funext fun j => Device.load_congr hmem ..
  have hplace : t.segPlace (sgDie w) = s.segPlace (sgDie w) := by simp only [Device.segPlace, Device.segs, hcoll]
  rw [Device.segOf, Device.segOf, htok, hbin, hplace, hcoll]

/-- What a command concludes whose body, but for its reports, stores bytes and gives a die's queue another content. -/
theorem runs_of_segCounted {c : Instr} {s : State} {f : Device → Device} {t : Device} {core die a v n seq : Nat} {l : List Segment}
    (hs : s.dev.sound) (hx : exec c s = s.upd f) (hf : f s.dev = ((t.store a v n).withSegs die l).segCounted die seq)
    (ht : t.reportsOf s.dev core) :
    runs c s fun d => d.running core ∧ d.segs die = l ∧ (∀ k < n, d.byte (a + k) = v / 256 ^ k % 256) ∧
      (∀ x, (x < a ∨ a + n ≤ x) → d.byte x = s.dev.byte x) ∧
      d.rd die DISPATCH_SEG_AUDIT_WRITTEN = (s.dev.rd die DISPATCH_SEG_AUDIT_WRITTEN + 1) % 2 ^ DISPATCH_SEG_AUDIT_WRITTEN.w := by
  have hreq : (t.store a v n).requests = s.dev.requests :=
    (Device.store_keeps (f := Device.requests) (fun _ _ _ => rfl) ..).trans ht.requests
  have hbyte : ∀ x, (((t.store a v n).withSegs die l).segCounted die seq).canon.byte x = (s.dev.store a v n).byte x := fun x => by
    rw [Device.canon_byte, Device.byte, Device.mem_segCounted, Device.mem_store_congr ht.mem, Device.byte]
  have hrd : (t.store a v n).rd die DISPATCH_SEG_AUDIT_WRITTEN = s.dev.rd die DISPATCH_SEG_AUDIT_WRITTEN :=
    (Device.rd_store ..).trans (ht.rd_ofDispatch (by decide) die)
  obtain ⟨m, hm, hst, hend⟩ := ht.running
  have hcmd : (t.store a v n).cmd core = some m := (Device.store_keeps (f := (·.cmd core)) (fun _ _ _ => rfl) ..).trans hm
  refine runs_of_given hs hx hf ((Device.requests_segCounted ..).trans hreq)
    ⟨⟨m, hcmd, hst, hend⟩, Device.segs_segCounted .., fun k hk => ?_, fun x hx => ?_, ?_⟩
  · rw [hbyte, Device.byte_store _ _ _ hk]
  · rw [hbyte, Device.byte_store_ne _ _ _ _ _ hx]
  · exact (Device.rd_written_segCounted ..).trans (by rw [hrd])

section
variable {s : State} {i : Issue} {w : List Nat} {core sd idx : Nat} (hs : s.dev.sound) (hecc : s.dev.pond.ecc = [])
  (hoff : s.dev.offers i w [] core) (hw : i.work = .slice sd idx) (hcheck : firstFail (sgChecks w) = none)

include hoff hw hcheck in
theorem segmentBody_offered (h : segOwn w) : coreCommand i w [] (segmentBody i w) s.dev = segmentRun core i w (s.dev.taken i w) := by
  refine (coreCommand_offered hoff hw _).trans ?_
  simp only [Issue.head_of_offers hoff, Opnd.pages_ownStore h.tokens, Opnd.pages_ownStore h.bins, List.append_nil]
  exact Device.runChecked_passes _ _ _ hcheck _

variable (hdie : sgDie w = core / 64) (hroom : (s.dev.segs (core / 64)).length < 64)
include hecc hoff hw hcheck hdie hroom

/-- The command's flags aside, it stores its entry's bytes and ends the queue of its die with the entry. -/
theorem segmentBody_writes (h : segOwn w)
    (htok : ∀ k ≤ sgWps w, ∀ j ∈ sgJointList w, sgBase w ≤ s.dev.segToken core w k j ∧ s.dev.segToken core w k j < sgBase w + sgNbins w) :
    let x := s.dev.segOf w core
    ∃ t : Device, t.reportsOf s.dev core ∧ coreCommand i w [] (segmentBody i w) s.dev =
      ((t.store (segAddr (core / 64) x.slot) x.image 576).withSegs (core / 64) (s.dev.segs (core / 64) ++ [x])).segCounted (core / 64) x.seq := by
  intro x
  have hcore : core < 256 := hoff.2.1
  have htaken := Device.taken_reportsOf hoff hw
  have hcoll := Device.coll_taken hoff hw
  have hof : (s.dev.taken i w).segOf w core = x := Device.segOf_congr htaken.mem hcoll w core
  have htoken : ∀ k j, (s.dev.taken i w).segToken core w k j = s.dev.segToken core w k j := fun _ _ => Device.load_congr htaken.mem ..
  obtain ⟨conv, hrun⟩ := segmentRun_writes h hcore (htaken.pond ▸ hecc) hw htaken.running hdie (by simpa only [htoken] using htok)
    (by rwa [Device.segs_congr hcoll, hdie])
  rw [hof, Device.segs_congr hcoll, hdie] at hrun
  have ht := htaken.numFlags conv
  have hsegs := Device.segs_congr ((Device.coll_numFlags (s.dev.taken i w) core conv).trans hcoll) (core / 64)
  have hset := Device.setSegs_append (s := (s.dev.taken i w).numFlags core conv) (die := core / 64) (x := x) (ht.pond ▸ hecc) (by omega)
    (s.dev.segPlace_lt _) (by rw [hsegs, ← hdie]; exact Device.segPlace_free (by rwa [hdie]))
  rw [hsegs] at hset
  exact ⟨_, ht, by rw [segmentBody_offered hoff hw hcheck h, hrun, ← hset]⟩

include hs

/-- The clause of O32 on a segment holds of a command of a slice. -/
theorem segment_ofSlice (htokens : (sgTokens w).space = 1) (hbins : (sgBins w).space = 1)
    (htok : ∀ k ≤ sgWps w, ∀ j, sgFirst w ≤ j → j ≤ sgFirst w + sgJoints w →
      sgBase w ≤ s.dev.segToken core w k j ∧ s.dev.segToken core w k j < sgBase w + sgNbins w) :
    let die := core / 64
    runs (.segment i w) s fun d => d.running core ∧
      ∃ x : Segment, d.segs die = s.dev.segs die ++ [x] ∧ x.seq = SMap.get 0 s.dev.coll.segSeq die ∧ x.tag = sgTag w ∧
        x.commit = decide (sgTag w = 0) ∧ x.joints = sgJoints w + 1 ∧ x.wps = sgWps w + 1 ∧ x.obs = wd2 w 10 ∧ x.tStart = wd2 w 7 ∧
        x.dt = wd w 9 ∧ x.first = sgFirst w ∧ x.cancelled = false ∧ (∀ k < 576, d.byte (segAddr die x.slot + k) = x.image / 256 ^ k % 256) ∧
        (∀ a, (a < segAddr die x.slot ∨ segAddr die x.slot + 576 ≤ a) → d.byte a = s.dev.byte a) ∧
        (∀ k ≤ sgWps w, ∀ j, sgFirst w ≤ j → j ≤ sgFirst w + sgJoints w → wd x.pos (16 * k + j) =
          (convFloat 0xA (dec32 (fma32 (ofInt32 ((s.dev.segToken core w k j : Int) - sgBase w)) (s.dev.segBin core w (2 * j + 1))
            (s.dev.segBin core w (2 * j))))).1) ∧
        d.rd die DISPATCH_SEG_AUDIT_WRITTEN = (s.dev.rd die DISPATCH_SEG_AUDIT_WRITTEN + 1) % 2 ^ DISPATCH_SEG_AUDIT_WRITTEN.w := by
  have h := segOwn_of_checks hcheck htokens hbins
  obtain ⟨u, hu, hbody⟩ := segmentBody_writes hecc hoff hw hcheck hdie hroom h fun k hk j hj =>
    htok k hk j (mem_sgJointList.1 hj).1 (mem_sgJointList.1 hj).2
  obtain ⟨t, hx, hp, hrun, hsegs, hbytes, hframe, hcount⟩ := runs_of_segCounted hs (c := .segment i w) rfl hbody hu
  refine ⟨t, hx, hp, hrun, s.dev.segOf w core, hsegs, ?_, rfl, rfl, rfl, rfl, rfl, rfl, rfl, rfl, rfl, hbytes, hframe, fun k hk j hlo hhi => ?_,
    hcount⟩
  · rw [Device.segOf, hdie]
  · exact wd_segPositions h.last _ _ hk (mem_sgJointList.2 ⟨hlo, hhi⟩)

end

/-! ### The refutation of O31 -/

/-- A barrier of one core of die 0 alone (R186). -/
def barrierWords (core : Nat) : List Nat := [0x15000000, 0xC0A00000 + 16 * core, 1, 0, 0, 2 ^ 30, 0, 2 ^ 30, 0, 0, 0, 0, 0, 0, 0, 0]

/-- Its issue to the core. -/
def barrierIssue (core : Nat) : Issue := ⟨.slice 0 0, 0, [core]⟩

/-- A sequence slice of the cores 0 and 1 has started, and core 1's barrier is held at issue (R189). -/
def heldBarrier : State :=
  { dev := { chorus := { slices := [{ die := 0, idx := 0, kind := 0, tick := 0, units := [0, 1], started := true }] }
             coll := { held := [⟨0x15, barrierIssue 1, barrierWords 1, []⟩] } } }

theorem heldBarrier_lone : heldBarrier.dev.loneColl (barrierIssue 0) (barrierWords 0) 0 :=
  ⟨⟨rfl, by decide, by decide +kernel, by decide +kernel, by decide +kernel, nofun, by decide +kernel⟩, by decide +kernel⟩

/-- Core 0's barrier closes, core 1's takes its place and closes: each takes a sequence value of die 0's scope. -/
theorem heldBarrier_issued : ∃ t, exec (.collBarrier (barrierIssue 0) (barrierWords 0)) heldBarrier = .next t ∧
    SMap.get 0 t.dev.coll.seq 1024 = 2 := ⟨_, rfl, by decide +kernel⟩

/-- Refutes O31: the hypothesis on a lone collective (`Device.loneColl`) leaves the commands held at issue free. When the collective closes, one
that is held in its scope is issued in the same step (R189) and takes a sequence value too, so the scope's next one goes up by two. With nothing
held, the clauses on one core hold of a command of a slice (`collSum_alone`, `collGather_alone`, `collNorm_alone`, `collBarrier_alone`); those on
what other members send and on the deadline hold as they stand (`contribution_joins`, `contribution_kept`, `contribution_late`,
`collective_timesOut`, `notice_kept`, `notice_counted`). -/
theorem not_collectives : ¬ Obligations.Collectives := by
  rintro ⟨hlone, -⟩
  obtain ⟨-, -, -, hbarrier⟩ := hlone heldBarrier (barrierIssue 0) (barrierWords 0) 0 ⟨by decide +kernel, rfl, rfl⟩ rfl heldBarrier_lone
  obtain ⟨u, hu, -, ⟨-, hseq, -⟩, -⟩ := hbarrier (by decide)
  obtain ⟨t, ht, htwo⟩ := heldBarrier_issued
  obtain rfl : u = t := Host.Outcome.next.inj (hu.symm.trans ht)
  exact absurd (htwo.symm.trans hseq) (by decide)

/-! ### The refutation of O32 -/

/-- A resolve that commits tag 5 on the dies 0 and 1 (R199). -/
def ringResolve : List Nat := [0x17000000, 5 * 2 ^ 22 + 3, 0, 0, 0, 0, 0, 0, 0, 0, 0, 0, 0, 0, 0, 0]

/-- The state of `entryError`, with the resolve in the entry that ring 5 stands before. -/
def resolveError : State := { dev := entryError.dev.store entryAddr (packBits 32 ringResolve) 64 }

theorem resolveError_offers : resolveError.dev.offers ringIssue ringResolve [] 5 := by
  refine ⟨rfl, by decide, by decide +kernel, by decide +kernel, by decide +kernel, ?_, by decide +kernel⟩
  rintro g ⟨⟩
  decide +kernel

/-- The read of the entry counts the error as corrected. -/
theorem resolveError_counted : ∃ t, exec (.resolve ringIssue ringResolve) resolveError = .next t ∧
    t.dev.rd 0 LP5X_CE_COUNT_COUNT ≠ resolveError.dev.rd 0 LP5X_CE_COUNT_COUNT := ⟨_, rfl, by decide +kernel⟩

/-- Refutes O32: its clause on a resolve excludes errors in stored words and leaves those on LP5X's wires free. Where a ring lies in LP5X, the
read of the command's entry can meet one that link ECC corrects (R80): the read succeeds, so the resolve is offered and runs, and
LP5X_CE_COUNT, which is not among the fields that issuing it may write, goes up. Of commands of slices, which read no entry, both clauses hold
(`segment_ofSlice`, `resolve_ofSlice`). -/
theorem not_segmentsAndResolves : ¬ Obligations.SegmentsAndResolves := by
  intro h
  obtain ⟨-, hresolve⟩ := h resolveError ringIssue ringResolve 5 ⟨by decide +kernel, rfl, rfl⟩ rfl resolveError_offers
  obtain ⟨u, hu, -, -, hkeep, -⟩ := hresolve (by decide) rfl (by decide) (by decide)
  obtain ⟨t, ht, hne⟩ := resolveError_counted
  obtain rfl : u = t := Host.Outcome.next.inj (hu.symm.trans ht)
  exact hne (hkeep 0 LP5X_CE_COUNT_COUNT (by decide))

end Sys2Proof.Machine
end
